-- ==== Sys2Proof/Word.lean ====
section
/-! DEFINITION. The word types of the Siluk Cuath model. Multi-byte structures are little-endian (00, R4). -/

namespace Sys2Proof

/-- One byte. -/
abbrev Byte := BitVec 8

/-- A 64-bit register or instruction word (01 R19, 03 R51). -/
abbrev Word := BitVec 64

/-- Sparse data by key: ascending keys, no entry equal to the default of the table. -/
abbrev Tab (α : Type) := List (Nat × α)

end Sys2Proof
end

