-- ==== Sys2Proof/Syntax.lean ====
section
/-! DEFINITION. The commands that the device takes: every row of spec/opcode_table.json, with its
operands. An operand names the agent or object concerned (a cell, a unit slot, a link, a port), the
word written, the instant `t` at which a timed event falls (nanoseconds of `State.now`), or what
arrives from outside (a sample, a packet, a measured value). -/

namespace Sys2Proof

/-- Who writes a register or makes a request (01 R18, 03 R78, 10 R287): an island, the runtime of a
partition (application cores in machine, hypervisor or supervisor mode), an application core in user
mode of a partition, an external PCIe initiator, or the debug port. -/
inductive Who where
  | islandA
  | islandB
  | runtime (p : Nat)
  | user (p : Nat)
  | pcie
  | debug
  deriving DecidableEq, Repr

/-- The acts of a stream instruction that its row stands for: the front end delivers it to its queue
(03 R53); its stream runs its next step once it has begun (03 R56), or all the steps that are left. -/
inductive Phase where
  | deliver
  | step
  | run
  deriving DecidableEq, Repr

/-- Streams, the front end first: the priority order of 03 R58 and the codes of ERR_STREAM. -/
inductive Strm where
  | front
  | load
  | tensor
  | vector
  | store
  deriving DecidableEq, Repr

/-- What the guest site answers at an admission (16 R436): the choice of the parameter exchange (streaming protocol,
×16 or ×8, rate), the discovery values, the 256 bytes of the manifest, whether its power goes beyond a limit. -/
structure GuestSite where
  streaming : Bool
  x16 : Bool
  x8 : Bool
  rate : Nat
  vendor : Nat
  die : Nat
  manifest : List Nat
  overload : Bool
  deriving DecidableEq, Repr

/-- What island A finds at a start (15 R404): the faulty lane groups of each link direction by `2 L + d`; the GDDR6 channels
and common stores that pass, bit by number; the comparison units that pass the injection test; the units that fail a
Blotter pattern; the guest, where one is present. -/
structure Start where
  bad : List Nat
  channels : Nat
  stores : Nat
  cmps : Nat
  failing : List Nat
  guest : Option GuestSite
  deriving DecidableEq, Repr


/-- The commands of the device: one constructor per row of spec/opcode_table.json, in its order. -/
inductive Instr where
  /-- NOP (R89): The front end executes an instruction that does nothing. -/
  | nop (c : Nat)
  /-- LOOP (R90): Pushes a loop entry that repeats BODY words COUNT times, or skips the body when the count is zero. -/
  | loop (c : Nat)
  /-- BR (R91): Branches by DISP when COND holds, popping loop entries whose range excludes the target. -/
  | br (c : Nat)
  /-- CALL (R91): Pushes the next offset on the call stack and branches. -/
  | call (c : Nat)
  /-- RET (R91): Pops an offset from the call stack and continues there. -/
  | ret (c : Nat)
  /-- WAIT (R57): Blocks the front end until token K is non-zero, then decrements it. -/
  | wait (c : Nat)
  /-- POST (R57): Increments token K when the front end executes it. -/
  | post (c : Nat)
  /-- BAR (R61): Drains every stream, arrives at barrier BID and waits for the release. -/
  | bar (c : Nat)
  /-- BARRIER_RELEASE (R61): A cell waiting at a barrier receives the release and resumes fetching. -/
  | barrierRelease (c : Nat)
  /-- SADD (R93): SD := SA + SB modulo 2^64. -/
  | sadd (c : Nat)
  /-- SSUB (R93): SD := SA − SB modulo 2^64. -/
  | ssub (c : Nat)
  /-- SMUL (R93): SD := low 64 bits of SA × SB. -/
  | smul (c : Nat)
  /-- SAND (R93): Bitwise AND of SA and SB. -/
  | sand (c : Nat)
  /-- SOR (R93): Bitwise OR of SA and SB. -/
  | sor (c : Nat)
  /-- SXOR (R93): Bitwise XOR of SA and SB. -/
  | sxor (c : Nat)
  /-- SSHL (R93): Shifts SA left by SB[5:0]. -/
  | sshl (c : Nat)
  /-- SSHR (R93): Shifts SA right logically by SB[5:0]. -/
  | sshr (c : Nat)
  /-- SSRA (R93): Shifts SA right arithmetically by SB[5:0]. -/
  | ssra (c : Nat)
  /-- SMIN (R93): Signed minimum of SA and SB. -/
  | smin (c : Nat)
  /-- SMAX (R93): Signed maximum of SA and SB. -/
  | smax (c : Nat)
  /-- SMINU (R93): Unsigned minimum of SA and SB. -/
  | sminu (c : Nat)
  /-- SMAXU (R93): Unsigned maximum of SA and SB. -/
  | smaxu (c : Nat)
  /-- SADDI (R93): SD := SA + sign-extended IMM. -/
  | saddi (c : Nat)
  /-- SANDI (R93): Bitwise AND of SA with IMM. -/
  | sandi (c : Nat)
  /-- SORI (R93): Bitwise OR of SA with IMM. -/
  | sori (c : Nat)
  /-- SXORI (R93): Bitwise XOR of SA with IMM. -/
  | sxori (c : Nat)
  /-- SSHLI (R93): Shifts SA left by IMM[5:0]. -/
  | sshli (c : Nat)
  /-- SSHRI (R93): Shifts SA right logically by IMM[5:0]. -/
  | sshri (c : Nat)
  /-- SSRAI (R93): Shifts SA right arithmetically by IMM[5:0]. -/
  | ssrai (c : Nat)
  /-- SLI (R93): SD := sign-extended IMM. -/
  | sli (c : Nat)
  /-- SLUI (R93): SD := SA[31:0] + unsigned IMM × 2^32. -/
  | slui (c : Nat)
  /-- AADD (R94): AD := AA + SB, keeping the kind of A value. -/
  | aadd (c : Nat)
  /-- AADDI (R94): AD := AA + IMM, keeping the kind of A value. -/
  | aaddi (c : Nat)
  /-- AMOV (R93): AD := SA[47:0]. -/
  | amov (c : Nat)
  /-- SMOVA (R93): SD := AA, zero-extended. -/
  | smova (c : Nat)
  /-- SLD (R94): Loads a 64-bit word at AA + IMM into SD, holding up the front end until written. -/
  | sld (c : Nat)
  /-- ALD (R94): Loads bits [47:0] of the word at AA + IMM into AD. -/
  | ald (c : Nat)
  /-- STREAM_INSTRUCTION_BEGIN (R57): A queued stream instruction begins once its queue head is reached and its wait token is non-zero, decrementing the token. -/
  | streamInstructionBegin (c : Nat) (st : Strm)
  /-- STREAM_INSTRUCTION_COMPLETE (R52): A stream instruction reaches its completion point, leaves its queue and posts its token. -/
  | streamInstructionComplete (c : Nat) (st : Strm)
  /-- POST_STALL_RELEASE (R59): A post stalled at 255 completes in the first cycle in which the token is below 255. -/
  | postStallRelease (c : Nat) (st : Strm)
  /-- TOKEN_STALL (R59): A post stall reaches the job's stall limit and the cell raises TOKEN_STALL. -/
  | tokenStall (c : Nat) (st : Strm) (t : Nat)
  /-- LDT (R96): Copies a source tensor element for element into the own scratchpad. -/
  | ldt (c : Nat) (ph : Phase)
  /-- LDW (R99): Stages one row of Kp patch elements per output pixel from the walker, with padding at map edges. -/
  | ldw (c : Nat) (ph : Phase)
  /-- GATH (R101): Copies source rows named by an index list into destination rows. -/
  | gath (c : Nat) (ph : Phase)
  /-- TZERO (R103): Clears a tile to +0, sets its type bit and clears its saturation bit. -/
  | tzero (c : Nat) (ph : Phase)
  /-- TMMA (R104): Accumulates A·B^T into a tile in 64-element K-blocks under the reproducible accumulation rules. -/
  | tmma (c : Nat) (ph : Phase)
  /-- TRD (R105): Writes the used rows and columns of a tile into the scratchpad. -/
  | trd (c : Nat) (ph : Phase)
  /-- VADD (R106): Element-wise addition of VA and VB. -/
  | vadd (c : Nat) (ph : Phase)
  /-- VSUB (R106): Element-wise subtraction of VB from VA. -/
  | vsub (c : Nat) (ph : Phase)
  /-- VMUL (R106): Element-wise multiplication of VA and VB. -/
  | vmul (c : Nat) (ph : Phase)
  /-- VFMA (R106): VA × VB + VC, rounded once. -/
  | vfma (c : Nat) (ph : Phase)
  /-- VMAX (R106): IEEE 754-2019 maximum per element. -/
  | vmax (c : Nat) (ph : Phase)
  /-- VMIN (R106): IEEE 754-2019 minimum per element. -/
  | vmin (c : Nat) (ph : Phase)
  /-- VEXP (R106): Correctly rounded e^VA per element. -/
  | vexp (c : Nat) (ph : Phase)
  /-- VRCP (R106): Correctly rounded 1 / VA per element. -/
  | vrcp (c : Nat) (ph : Phase)
  /-- VRSQ (R106): Correctly rounded 1 / √VA per element. -/
  | vrsq (c : Nat) (ph : Phase)
  /-- VCMP (R106): Writes an all-ones or zero mask per element for the relation in IMM. -/
  | vcmp (c : Nat) (ph : Phase)
  /-- VSEL (R106): Selects VA or VB per lane by the VC lane. -/
  | vsel (c : Nat) (ph : Phase)
  /-- VAND (R106): Bitwise AND per lane. -/
  | vand (c : Nat) (ph : Phase)
  /-- VOR (R106): Bitwise OR per lane. -/
  | vor (c : Nat) (ph : Phase)
  /-- VXOR (R106): Bitwise XOR per lane. -/
  | vxor (c : Nat) (ph : Phase)
  /-- VMOV (R106): Copies VA into VD. -/
  | vmov (c : Nat) (ph : Phase)
  /-- VBCAST (R106): Broadcasts SA[31:0] into every lane of VD. -/
  | vbcast (c : Nat) (ph : Phase)
  /-- VLD (R106): Loads 256 bytes of the own scratchpad into VD. -/
  | vld (c : Nat) (ph : Phase)
  /-- VST (R106): Stores 256 bytes of VA to the own scratchpad. -/
  | vst (c : Nat) (ph : Phase)
  /-- CVT (R108): Converts every element of a tensor with optional scale and zero point, rounding once. -/
  | cvt (c : Nat) (ph : Phase)
  /-- CVTV (R109): Converts 64 elements between register formats. -/
  | cvtv (c : Nat) (ph : Phase)
  /-- RSTAT (R111): Writes per-row softmax or moment statistics in fixed reduction order. -/
  | rstat (c : Nat) (ph : Phase)
  /-- RNORM (R112): Normalises each row with its statistics pair in SOFTMAX or AFFINE mode. -/
  | rnorm (c : Nat) (ph : Phase)
  /-- VDW (R113): Computes depth-wise or grouped convolution, max pooling or sum pooling on the vector unit. -/
  | vdw (c : Nat) (ph : Phase)
  /-- STT (R114): Copies a tensor to a destination and completes when every destination has acknowledged. -/
  | stt (c : Nat) (ph : Phase)
  /-- SCAT (R114): Writes source rows to destination rows named by an index list, in ascending order. -/
  | scat (c : Nat) (ph : Phase)
  /-- WOPEN (R116): Opens or replaces a granted window descriptor of the cell and begins a new round. -/
  | wopen (c : Nat) (ph : Phase)
  /-- WCLOSE (R116): Closes a granted window descriptor of the cell. -/
  | wclose (c : Nat) (ph : Phase)
  /-- CKPT (R118): Deposits the signature with the comparison unit, or for a solo cell releases to its solo targets, and clears UNIT_SIG. -/
  | ckpt (c : Nat) (ph : Phase)
  /-- COMMIT (R118): Sends a commit request to the COMMIT_ONCE window named by the commit slot and completes on its answer. -/
  | commit (c : Nat) (ph : Phase)
  /-- ENQ (R119): Appends a 64-byte entry to a granted queue and rings its doorbell, holding while the queue is full. -/
  | enq (c : Nat)
  /-- HALT (R69): Ends a work item once all streams drain, posts the success completion and returns the cell to IDLE. -/
  | halt (c : Nat)
  /-- SNAP_INSTRUCTION (R120): Drains every stream and writes the cell's state image to an address operand, a step at a time (R56). -/
  | snapInstruction (c : Nat)
  /-- SCRUB (R120): Drains, then writes zero with valid ECC over a range of the own scratchpad, a step at a time (R56). -/
  | scrub (c : Nat)
  /-- RDFL (R120): Reads the arithmetic flags and tile saturation bits into SD. -/
  | rdfl (c : Nat)
  /-- CLRFL (R120): Clears the arithmetic flags selected by MASK. -/
  | clrfl (c : Nat)
  /-- UNIT_RESET (R81): A UNIT_CTRL write returns a unit to its reset state, closing its windows and keeping program store, scratchpad and PVALID. -/
  | unitReset (who : Who) (u : Nat) (w : Nat)
  /-- JOB_RESET (R81): A UNIT_CTRL write abandons the work item in progress and returns the cell to IDLE within 4 µs. -/
  | jobReset (who : Who) (u : Nat) (w : Nat)
  /-- STOP (R74): A UNIT_CTRL write halts the cell at instruction boundaries, keeping queue state, until RESUME. -/
  | stop (who : Who) (u : Nat) (w : Nat)
  /-- RESUME (R74): A UNIT_CTRL write continues a STOPPED cell from its stopped state. -/
  | resume (who : Who) (u : Nat) (w : Nat)
  /-- SNAP (R75): A UNIT_SNAP operation stops the cell, writes its state image and returns it to its previous state. -/
  | snap (who : Who) (u : Nat) (w : Nat)
  /-- RESTORE (R76): A UNIT_SNAP operation checks a state image and loads it into an IDLE or STOPPED cell, leaving it STOPPED. -/
  | restore (who : Who) (u : Nat) (w : Nat)
  /-- PLOAD (R67): A UNIT_SNAP operation copies a program segment into the program store and sets page valid bits on a CRC match. -/
  | pload (who : Who) (u : Nat) (w : Nat)
  /-- WORK_ITEM_TAKE (R272): An eligible idle unit takes the next entry of its highest-priority queue and starts the work item or command. -/
  | workItemTake (u : Nat) (t : Nat)
  /-- ARRIVE (R65): An engine takes an ARRIVE work item, waits for its earlier writes, arrives at the barrier and posts its completion. -/
  | arrive (u : Nat)
  /-- BAR_HART (R65): A hart write arrives at a barrier in the name of slot 63 for its partition. -/
  | barHart (who : Who) (p : Nat) (w : Nat)
  /-- REMOTE_WRITE_ARRIVAL (R131): A remote write reaches a scratchpad or mailbox window and is judged, written into its lane or dropped. -/
  | remoteWriteArrival (n : Nat)
  /-- COMMIT_ARRIVAL (R135): A commit reaches its window and wins, loses or is dropped; a winner advances VISGEN and seals. -/
  | commitArrival (n : Nat)
  /-- RELEASE_ARRIVAL (R134): A release reaches a window and advances its visible generation, or is ignored or dropped. -/
  | releaseArrival (n : Nat)
  /-- GENERATION_TOKEN_WAIT (R134): A generation advance held by a token at 255 takes effect once the token is below 255. -/
  | generationTokenWait (c : Nat) (win : Nat)
  /-- WIN_CTL_OPEN (R129): Island A's write of WINn_CTL with OPEN = 1 acts as a WOPEN and begins an unsealed round. -/
  | winCtlOpen (who : Who) (u : Nat) (win : Nat) (w : Nat)
  /-- WIN_CTL_CLOSE (R129): Island A's write of WINn_CTL with OPEN = 0 acts as a WCLOSE. -/
  | winCtlClose (who : Who) (u : Nat) (win : Nat) (w : Nat)
  /-- WIN_MASK_WRITE (R129): A write of WINn_MASK changes the writer mask in one cycle without beginning a round. -/
  | winMaskWrite (who : Who) (u : Nat) (win : Nat) (w : Nat)
  /-- ECC_WRITE_BACK (R126): A corrected word is written back in the bank's next free write cycle unless a write arrived first. -/
  | eccWriteBack (a : Nat)
  /-- WORD_TEST (R128): Island A tests a word that gave an uncorrectable error and takes its cell or common store out of service on failure. -/
  | wordTest (a : Nat) (pass : Bool)
  /-- PATROL (R141): A controller reads every line of its channels each 8 h, correcting and counting errors. -/
  | patrol (ch : Nat) (corrected : List Nat) (uncorrectable : List Nat) (t : Nat)
  /-- EDC_RETRY (R140): A GDDR6 link CRC mismatch makes the controller retry the transfer, up to 3 times. -/
  | edcRetry (ch : Nat) (a : Nat) (mismatches : Nat)
  /-- REGION_ENTRY_WRITE (R144): Island A writes RGN_LO, making an entry change that each injection point takes within t_RGN. -/
  | regionEntryWrite (who : Who) (p : Nat) (e : Nat) (lo : Nat)
  /-- REGION_ENTRY_SWITCH (R144): An injection point takes the new region entry whole at its own instant. -/
  | regionEntrySwitch (point : Nat) (p : Nat) (e : Nat)
  /-- FILL_GO (R150): A write of GO checks the range and starts the fill engine zeroing lines in ascending order. -/
  | fillGo (who : Who) (w : Nat)
  /-- FILL_DONE (R150): The fill engine writes its last line and reports done. -/
  | fillDone
  /-- FRAME (R168): An Image engine runs a FRAME command, developing, warping and building pyramid levels from a held ring slot. -/
  | frame (u : Nat) (t : Nat)
  /-- IMAGE_ROW_PRODUCE (R168): Once the lines an output row needs have arrived, the engine produces that row. -/
  | imageRowProduce (u : Nat)
  /-- LINE_TIMEOUT (R168): LINE_TIMEOUT passes with no new line and the command ends with TIMEOUT. -/
  | lineTimeout (u : Nat) (t : Nat)
  /-- FWD (R177): An Attention engine runs the fused forward pass, densely or over key-value contexts. -/
  | fwd (u : Nat)
  /-- BWD (R191): An Attention engine runs the recomputing backward pass. -/
  | bwd (u : Nat)
  /-- CTX_BIND (R187): Binds a FREE planner context as PLAN and takes its pages. -/
  | ctxBind (u : Nat)
  /-- CTX_APPEND (R187): Adds committed or tentative rows to a context. -/
  | ctxAppend (u : Nat)
  /-- CTX_COMMIT (R187): Accepts tentative rows and rolls back the rest, advancing GEN on a rollback. -/
  | ctxCommit (u : Nat)
  /-- CTX_FORK (R187): Copies a context's committed rows into another planner context. -/
  | ctxFork (u : Nat)
  /-- CTX_RELEASE (R187): Returns a PLAN context's pages and makes it FREE. -/
  | ctxRelease (u : Nat)
  /-- CONTEXT_GRANT (R186): A home engine grants a waiting registration, checking generations and kinds at the grant. -/
  | contextGrant (u : Nat)
  /-- ATTN_CFG_WRITE (R195): Writes of ATTN_CFG or ATTN_POOL take effect only while no TRACK or PLAN context is bound. -/
  | attnCfgWrite (who : Who) (u : Nat) (pool : Bool) (w : Nat)
  /-- ATTN_CTX_SEL (R195): A write captures one context entry into ATTN_CTX_D0–D7 at one instant. -/
  | attnCtxSel (who : Who) (u : Nat) (w : Nat)
  /-- CALIBRATION_UPDATE (R193): Island A applies, clamps or refuses a camera pose update. -/
  | calibrationUpdate (p : Nat) (t : Nat)
  /-- CALIBRATION_STORE_WRITE (R194): Island A writes the calibration store every 10 minutes while a change is unwritten. -/
  | calibrationStoreWrite (t : Nat)
  /-- FRAME_START_EVENT (R199): The trigger generator emits a frame-start event every 25 ms with REF_SEQ, applying pending configuration. -/
  | frameStartEvent (t : Nat)
  /-- LSYNC_PULSE (R202): An LSYNC channel pulses OFFSET µs after the frame-start event. -/
  | lsyncPulse (n : Nat) (t : Nat)
  /-- STEP (R203): A write of STEP requests the next frame-start event in mode SLAVED. -/
  | step (who : Who) (w : Nat) (t : Nat)
  /-- HELD_STEP_EVENT (R203): A held STEP emits its frame-start event once 25 ms have passed since the previous event. -/
  | heldStepEvent (t : Nat)
  /-- TRIG_FS_SEQ_WRITE (R203): A write of TRIG_FS_SEQ_n takes effect only while EN in force is 0. -/
  | trigFsSeqWrite (who : Who) (n : Nat) (w : Nat)
  /-- ECHO_CFG_WRITE (R208): Setting EN of CAM_ECHO_CFG_n starts echo checking with SYNC and RUN at 0. -/
  | echoCfgWrite (who : Who) (n : Nat) (w : Nat)
  /-- STREAM_STALE (R210): A watched stream goes two periods without a sample and STALE is set. -/
  | streamStale (n : Nat) (t : Nat)
  /-- LIFT (R218): A Grid engine samples camera feature maps onto grid cells. -/
  | lift (u : Nat)
  /-- SCATTER (R219): A Grid engine places lidar points in the grid as five features. -/
  | scatter (u : Nat)
  /-- RASTER (R220): A Grid engine writes one distance-field layer. -/
  | raster (u : Nat)
  /-- UPDATE (R228): The Track engine predicts, associates, updates, deletes, confirms and births tracks for one frame. -/
  | update
  /-- FORECAST (R231): The Track engine writes object layers at forecast horizons. -/
  | forecast
  /-- DELETE (R231): The Track engine deletes the live track in CTX when its TRACK_ID matches. -/
  | deleteTrack
  /-- TRK_NEXT_ID_WRITE (R235): Island A writes the next track identifier, excluded values acting as 1. -/
  | trkNextIdWrite (who : Who) (w : Nat)
  /-- TRK_SEL (R235): A write captures one track record into TRK_D0–TRK_D31. -/
  | trkSel (who : Who) (w : Nat)
  /-- CHECK (R247): A Check engine expands and sweeps each candidate against the grid and writes per-candidate results. -/
  | check (u : Nat)
  /-- FINAL_CHECK (R255): At t_SEL_DL island B copies the grid, checks the selection and chooses the trajectory by the fallback order. -/
  | finalCheck (t : Nat)
  /-- DRYDOWN_COMPUTE (R260): Island A computes the Drydown for the next slot and delivers it to island B by t_REC − 1.0 ms. -/
  | drydownCompute (t : Nat)
  /-- RECORD_EMIT (R264): At t_REC the emitter sends the trajectory record as one UDP datagram. -/
  | recordEmit (t : Nat)
  /-- HANDOVER_TIMEOUT (R259): CAPABILITY has been 3 for HANDOVER_T and level 4 DRYDOWN is entered. -/
  | handoverTimeout (t : Nat)
  /-- STATUS_FRAME (R267): Each island sends a CAN FD status frame every 10 ms. -/
  | statusFrame (b : Bool) (t : Nat)
  /-- PUSH (R270): A 64-byte doorbell write pushes an entry into a PUSH queue or is forwarded or dropped. -/
  | push (who : Who) (q : Nat) (bytes : List Nat)
  /-- SW_TAIL_WRITE (R270): An 8-byte doorbell write sets the new TAIL of an SW queue or is dropped. -/
  | swTailWrite (who : Who) (q : Nat) (off : Nat) (bytes : List Nat)
  /-- QCFG_HEAD_WRITE (R269): A write of HEAD releases completion-queue entries, ignored when out of range. -/
  | qcfgHeadWrite (who : Who) (q : Nat) (w : Nat)
  /-- COMPLETION_PUSH (R275): A unit pushes a completion to CPLQ after every write is acknowledged and advances HEAD. -/
  | completionPush (u : Nat) (t : Nat)
  /-- UNREADABLE_ENTRY (R275): A taken ring entry with an uncorrectable error is skipped and island A posts a NOTICE with cause 4. -/
  | unreadableEntry (u : Nat)
  /-- SLOT_BOUNDARY (R281): A schedule entry ends and the unit switches jobs or cuts the running engine command. -/
  | slotBoundary (u : Nat) (t : Nat)
  /-- FRAME_SELF_WRAP (R282): A unit's slot counter reaches 25 ms without an event in the window, wraps and counts a miss. -/
  | frameSelfWrap (u : Nat) (t : Nat)
  /-- FRAME_START_RECEIVE (R282): A unit receives a frame-start event and realigns, ignores it or restarts its frame. -/
  | frameStartReceive (u : Nat) (seq : Nat) (t : Nat)
  /-- DEADLINE_EXPIRY (R284): A work item's deadline passes; a CUT item is abandoned with CUT_DEADLINE. -/
  | deadlineExpiry (u : Nat) (t : Nat)
  /-- ADMIT (R288): Island A checks an image and grants the whole job or refuses it. -/
  | admitJob (p : Nat) (t : Nat)
  /-- WITHDRAW (R291): Island A stops and resets a job's units, disables its queues and frees its grants. -/
  | withdraw (p : Nat) (t : Nat)
  /-- RESTART (R292): Island A resets a FAULTED job, reopens its windows, rewinds its queues and runs it again. -/
  | restart (p : Nat) (t : Nat)
  /-- BACKUP_LAUNCH (R298): A replicable item not complete by its deadline less margin gets a backup copy pushed. -/
  | backupLaunch (q : Nat) (n : Nat) (t : Nat)
  /-- SUSPECT_EVALUATION (R300): Every second island A compares last-arrival rises and marks or clears SUSPECT. -/
  | suspectEvaluation (t : Nat)
  /-- DEPOSIT_ARRIVAL (R310): A deposit reaches a comparison unit, opening or joining a comparison and possibly releasing. -/
  | depositArrival (n : Nat) (t : Nat)
  /-- COMPARISON_TIMEOUT (R311): t_LATE ends and the comparison closes with its outcome. -/
  | comparisonTimeout (g : Nat) (t : Nat)
  /-- MEMBER_ERROR_NOTICE (R311): The comparison unit learns a Pair member entered ERROR without depositing and closes with MEMBER_ERROR. -/
  | memberErrorNotice (g : Nat) (pos : Nat)
  /-- RESYNC (R317): Island A copies the lead's state and ranges into the odd member and reattaches it. -/
  | resync (g : Nat)
  /-- SPLIT (R320): A group switch request turns a Pair into two solos at a releasing checkpoint. -/
  | split (who : Who) (g : Nat) (w : Nat)
  /-- JOIN (R320): A group switch request makes two solos into a Pair at their checkpoints. -/
  | join (who : Who) (g : Nat) (w : Nat)
  /-- GROW (R320): A group switch request adds a third member to a Pair at a release. -/
  | grow (who : Who) (g : Nat) (w : Nat)
  /-- AP_CKPT_WRITE (R321): A write of AP_CKPT starts signing of an application-core lane and a deposit with CMP4. -/
  | apCkptWrite (who : Who) (p : Nat) (w : Nat)
  /-- LATENT_OVERDUE (R328): SECS_SINCE_TEST reaches 86,400 and the integrity class is lowered. -/
  | latentOverdue (t : Nat)
  /-- ISLAND_SUPERVISION_CYCLE (R333): An island's firmware runs its 1 ms supervision cycle and toggles its heartbeat while self-tests pass. -/
  | islandSupervisionCycle (b : Bool) (t : Nat) (pass : Bool)
  /-- ISLAND_HARDWARE_FAIL (R333): A lockstep mismatch or clock fault makes island hardware assert SAFE_STATE, stop the heartbeat and hold reset. -/
  | islandHardwareFail (b : Bool) (t : Nat)
  /-- HEARTBEAT_LOSS (R333): An island sees no peer heartbeat edge for 2.5 ms and declares the peer failed. -/
  | heartbeatLoss (b : Bool) (t : Nat)
  /-- ISLAND_REBOOT (R334): A failed island leaves reset after 10 ms, boots from ROM and rejoins. -/
  | islandReboot (b : Bool) (t : Nat)
  /-- HANDOVER_DECISION (R338): At t_REC + 0.2 ms the non-emitting island checks the record and may claim and send its shadow. -/
  | handoverDecision (t : Nat)
  /-- PEER_RECORD_RECEIVE (R336): An island's port receives the peer's record datagram. -/
  | peerRecordReceive (b : Bool) (bytes : List Nat) (t : Nat)
  /-- ISLAND_FRAME_REALIGN (R340): An island realigns its slot timing at a forwarded frame-start event or runs on its own clock. -/
  | islandFrameRealign (b : Bool) (got : Bool) (t : Nat)
  /-- FAILURE_DETECTOR_SAMPLE (R342): Every 1 ms island A samples progress and fences units stalled beyond their limit. -/
  | failureDetectorSample (t : Nat)
  /-- FENCE (R343): Setting FENCE blocks a unit's traffic, sets fence bits everywhere and reports done. -/
  | fence (who : Who) (u : Nat)
  /-- UNFENCE (R345): A write of UNFENCE lifts a fence after a passing re-initialisation. -/
  | unfence (who : Who) (u : Nat)
  /-- UNIT_REINIT (R345): Island A resets a fenced unit and runs all sixteen Blotter patterns. -/
  | unitReinit (u : Nat) (pass : Bool)
  /-- BLOTTER_ENTRY (R348): A unit's BLOTTER entry saves state, runs a golden item and restores. -/
  | blotterEntry (u : Nat) (t : Nat) (ok : Bool)
  /-- BLOTTER_EXTRA (R351): Island A runs extra golden items on a suspect unit in idle stretches. -/
  | blotterExtra (u : Nat) (t : Nat) (ok : Bool)
  /-- QUARANTINE_EVALUATION (R352): Every 1 ms island A bins each unit by temperature and load and applies quarantine. -/
  | quarantineEvaluation (e : Nat) (busy : Nat) (total : Nat) (t : Nat)
  /-- QUARANTINE_TABLE_WRITE (R354): Island A writes the quarantine table within 1 s of a change. -/
  | quarantineTableWrite (t : Nat)
  /-- MODE (R470): A runtime request asks for a mode change, refused or scheduled for a frame-start event. -/
  | modeRequest (p : Nat) (t : Nat)
  /-- DRYDOWN (R259): A runtime request enters capability level 4 with REASON 0x07. -/
  | drydown (p : Nat) (t : Nat)
  /-- SAFE_ENTER (R361): A runtime request raises safe-state reason 0x49. -/
  | safeEnter (p : Nat) (t : Nat)
  /-- SAFE_CLEAR (R361): A runtime request clears safe-state reason 0x49. -/
  | safeClear (p : Nat) (t : Nat)
  /-- UNIT_RESET_REQUEST (R361): A runtime request has island A give a granted unit a UNIT_RESET. -/
  | unitResetRequest (p : Nat) (t : Nat)
  /-- WARM_RESET_REQUEST (R361): A runtime request starts step 3 of the recovery ladder. -/
  | warmResetRequest (p : Nat) (t : Nat)
  /-- WARM_RESET (R478): The main domain is reset and steps 3 to 9 of the cold start run with the islands running. -/
  | warmReset (st : Start) (t : Nat)
  /-- QUAR_SEL (R366): A write captures one quarantine entry into QUAR_D0–QUAR_D2. -/
  | quarSel (who : Who) (w : Nat)
  /-- FREEZE (R376): A write of FREEZE stops or resumes recording in histograms 142–389 and the extremes. -/
  | freeze (who : Who) (w : Nat) (t : Nat)
  /-- FREEZE_TIMEOUT (R376): FREEZE clears 100 ms after the last write of 1. -/
  | freezeTimeout (t : Nat)
  /-- NONCE_REQUEST (R377): SIL_AUTH OP 1 draws a fresh nonce into SIL_NONCE. -/
  | nonceRequest (who : Who) (w : Nat) (t : Nat)
  /-- SILLAGE_CLEAR (R378): SIL_AUTH OP 2 checks a clear authorisation and clears Sillage or one quarantine entry. -/
  | sillageClear (who : Who) (w : Nat) (t : Nat)
  /-- NONCE_EXPIRY (R377): An outstanding Sillage nonce is consumed after 600 s. -/
  | nonceExpiry (t : Nat)
  /-- SILLAGE_PERSIST (R379): Island A writes the Sillage image every 600 s. -/
  | sillagePersist (t : Nat)
  /-- FLC_PULSE (R384): A counted pulse accumulates distance exactly and may raise DIST. -/
  | flcPulse (t : Nat)
  /-- LINE_FAULT (R383): The bias monitor sets or clears LINE_FAULT on an open or shorted input. -/
  | lineFault (on : Bool) (t : Nat)
  /-- SPEED_UPDATE (R385): Every 100 ms the Flacon computes SPEED from the last second of pulses. -/
  | speedUpdate (t : Nat)
  /-- PLAUSIBILITY_SAMPLE (R392): Every 100 ms the Flacon compares SPEED with FLC_ODO and moves IMPLAUSIBLE. -/
  | plausibilitySample (t : Nat)
  /-- FLC_ODO_WRITE (R392): Island A writes odometry speed to FLC_ODO every 10 ms. -/
  | flcOdoWrite (who : Who) (w : Nat)
  /-- MIRROR_REFRESH (R394): The Flacon refreshes the mailbox mirror every 10 ms. -/
  | mirrorRefresh (t : Nat)
  /-- SIGN (R393): The Flacon writes a signed record with the request's nonce. -/
  | sign (who : Who) (w : Nat) (t : Nat)
  /-- OPEN (R388): The Flacon opens a workshop session and issues a challenge. -/
  | openSession (who : Who) (w : Nat) (t : Nat)
  /-- SET_K (R390): A signed workshop command sets k, rescales acc, raises the seal counter and logs it. -/
  | setK (who : Who) (w : Nat) (t : Nat)
  /-- RESEAL (R390): A signed workshop command clears SEAL_BROKEN, raises the seal counter and logs it. -/
  | reseal (who : Who) (w : Nat) (t : Nat)
  /-- FW_UPDATE (R390): A signed workshop command opens an image transfer for new Flacon firmware. -/
  | fwUpdate (who : Who) (w : Nat) (t : Nat)
  /-- CLOSE (R388): The Flacon closes the workshop session. -/
  | closeSession (who : Who) (w : Nat) (t : Nat)
  /-- BLOCK (R391): The Flacon copies a 256-byte image block into its inactive bank and completes the transfer on the last. -/
  | block (who : Who) (w : Nat) (t : Nat)
  /-- SESSION_TIMEOUT (R388): A workshop session closes after 600 s without a command. -/
  | sessionTimeout (t : Nat)
  /-- DEBUG_OPEN_SEAL (R387): A debug opening raises the seal counter, sets SEAL_BROKEN and logs it before acknowledging. -/
  | debugOpenSeal (t : Nat)
  /-- FLACON_POWER_ON (R386): VANA rises, the Flacon resets, raises FPC and restarts FSEC. -/
  | flaconPowerOn (t : Nat)
  /-- VANA_FALL (R386): VANA falls below 4.75 V and the Flacon completes a measuring-store write. -/
  | vanaFall (t : Nat)
  /-- NONCE (R411): SEC_REQ OP 1 draws a fresh security nonce. -/
  | nonce (who : Who) (w : Nat) (t : Nat)
  /-- UNLOCK (R414): SEC_REQ OP 2 checks an unlock or retire token and runs the erase-first sequence. -/
  | unlock (who : Who) (w : Nat) (cut : Bool) (t : Nat)
  /-- PROVISION (R412): SEC_REQ OP 3 verifies a provisioning package and writes keys, trust list, configuration and lifecycle. -/
  | provision (who : Who) (w : Nat) (t : Nat)
  /-- ATTEST (R400): SEC_REQ OP 4 writes a signed attestation report. -/
  | attest (who : Who) (w : Nat) (t : Nat)
  /-- FIRMWARE_UPDATE (R409): SEC_REQ OP 6 writes a verified image into the non-preferred bank and selects it. -/
  | firmwareUpdate (who : Who) (w : Nat) (upto : Nat) (t : Nat)
  /-- TRNG_HEALTH_FAIL (R399): A TRNG health test fails and TRNG_OK clears. -/
  | trngHealthFail (t : Nat)
  /-- STORE_WRITE (R407): A two-bank store write invalidates, writes, reads back and writes the header of the other bank. -/
  | storeWrite (id : Nat) (res : Nat)
  /-- PACKET_RECEIVE (R429): A link receiver accepts a packet with good CRC and expected SEQ, or discards it and sends a NAK. -/
  | packetReceive (l : Nat) (d : Nat) (bytes : List Nat) (bad : Bool) (t : Nat)
  /-- ACK_RECEIVE (R429): A transmitter frees replay-buffer entries up to the acknowledged SEQ. -/
  | ackReceive (l : Nat) (d : Nat) (seq : Nat) (t : Nat)
  /-- NAK_RECEIVE (R429): A transmitter replays from the SEQ the NAK names. -/
  | nakReceive (l : Nat) (d : Nat) (seq : Nat) (t : Nat)
  /-- CREDIT_RECEIVE (R429): A transmitter takes cumulative credit counts from a CREDIT packet. -/
  | creditReceive (l : Nat) (d : Nat) (hs : List Nat) (ds : List Nat)
  /-- REPLAY_TIMEOUT (R429): No ACK advance for 2 µs starts a replay round from the oldest packet. -/
  | replayTimeout (l : Nat) (d : Nat) (t : Nat)
  /-- LINK_RETRAIN (R430): A link retrains at run time, holding traffic, narrowing or going down, then replays. -/
  | linkRetrain (l : Nat) (bad0 : Nat) (bad1 : Nat) (t : Nat)
  /-- BOND_UNCORRECTABLE (R434): An uncorrectable vertical-bond word ends the access; a second in 1 s takes the compute die out of service. -/
  | bondUncorrectable (cd : Nat) (u : Nat) (st : Strm) (t : Nat)
  /-- LINK_TEST_MODE (R441): A write of LNK_TEST MODE starts loop-back test or retrains the link. -/
  | linkTestMode (who : Who) (l : Nat) (w : Nat) (bad0 : Nat) (bad1 : Nat) (t : Nat)
  /-- FLACON_LINK_RETRY (R432): Island A retries Flacon link training every 1 s while it is down. -/
  | flaconLinkRetry (bad0 : Nat) (bad1 : Nat) (t : Nat)
  /-- GUEST_POWER_SAMPLE (R439): The guest rail monitor samples power every 1 ms and withdraws the guest above its limits. -/
  | guestPowerSample (mw : Nat) (t : Nat)
  /-- GUEST_FENCE (R439): A write of FENCE in GST_STATUS withdraws the guest. -/
  | guestFence (who : Who) (w : Nat)
  /-- GST_WIN_WRITE (R440): A write of GST_WIN_n opens or closes a guest window inside writable regions only. -/
  | gstWinWrite (who : Who) (n : Nat) (w : Nat)
  /-- COMBINE_BUFFER_EMIT (R447): A hart's doorbell combining buffer emits a 64-byte push or separate words. -/
  | combineBufferEmit (h : Nat) (out : Bool) (q : Nat) (off : Nat) (v : Nat)
  /-- LOCK (R454): REQ = 1 copies core 2p's state into core 2p + 1 and starts lockstep. -/
  | lock (p : Nat) (hart : Nat) (m : Bool) (parked : Bool)
  /-- AP_SPLIT (R454): REQ = 2 ends lockstep and starts core 2p + 1 at AP_SPLIT_PC. -/
  | apSplit (p : Nat) (hart : Nat) (m : Bool)
  /-- LOCKSTEP_MISMATCH (R455): A pair's comparator mismatch halts both cores and sets FAILED. -/
  | lockstepMismatch (p : Nat)
  /-- RIG_STEP (R459): A write of STEP in RIG_CTRL acts as island A's STEP in replay mode. -/
  | rigStep (who : Who) (w : Nat) (t : Nat)
  /-- RIG_INJ (R460): GO in RIG_INJ commits the next slot of a camera or receive ring. -/
  | rigInj (who : Who) (w : Nat) (t : Nat)
  /-- PCIE_INBOUND_REQUEST (R458): An inbound PCIe request through a BAR is checked and served or answered Unsupported Request. -/
  | pcieInboundRequest (bar : Nat) (off : Nat) (wr : Bool) (bytes : List Nat) (len : Nat)
  /-- APERTURE_ACCESS (R507): A hart access to the outbound aperture goes to the downstream device. -/
  | apertureAccess (who : Who) (off : Nat) (wr : Bool) (bytes : List Nat)
  /-- PCIE_CFGA_GO (R507): GO starts a configuration read or write in root-complex mode. -/
  | pcieCfgaGo (who : Who) (w : Nat) (resp : Nat)
  /-- VOLTAGE_RAMP (R469): Island A raises core-rail targets at least 2 ms before a faster divider, or lowers them after a slower one. -/
  | voltageRamp (t : Nat)
  /-- POWER_LIMITER_SAMPLE (R471): J1 power is measured every 100 µs and PWR_DIV steps by its 10 ms mean. -/
  | powerLimiterSample (mw : Nat) (ma : Nat) (t : Nat)
  /-- VBUS_LOW_THROUGHPUT (R23): VBUS below 11.5 V for 10 ms in THROUGHPUT makes island A switch to INTEGRITY. -/
  | vbusLowThroughput (t : Nat)
  /-- PWR_EN_RISE (R473): PWR_EN rises and the sequencer starts the rail groups or latches a fault. -/
  | pwrEnRise (t : Nat)
  /-- RAIL_GROUP_GOOD (R473): An internal rail group reaches tolerance and the next starts, or PWR_GOOD rises. -/
  | railGroupGood (st : Start) (t : Nat)
  /-- SUPPLY_MONITOR_SAMPLE (R475): Rails are sampled every 10 µs and a monitor out of window raises a reason or fails an island. -/
  | supplyMonitorSample (mv : List Nat) (t : Nat)
  /-- PWR_EN_FALL (R476): PWR_EN falls and the orderly shutdown saves stores and turns rails off. -/
  | pwrEnFall (t : Nat)
  /-- VBUS_LOSS (R477): VBUS below 8.5 V or VIO out of tolerance for 100 µs collapses the main domain. -/
  | vbusLoss (t : Nat)
  /-- VBUS_RESTORE (R477): The supply in tolerance for 10 ms reruns the rail sequence and a warm start. -/
  | vbusRestore (t : Nat)
  /-- PORST_N_LOW (R479): An accepted low pulse on PORST_N holds everything in reset. -/
  | porstNLow (t : Nat)
  /-- PORST_N_RELEASE (R479): Release of PORST_N starts the cold-start times. -/
  | porstNRelease (st : Start) (t : Nat)
  /-- RESET_N_LOW (R479): An accepted low pulse on RESET_N holds the main domain in reset. -/
  | resetNLow (t : Nat)
  /-- RESET_N_RELEASE (R479): Release of RESET_N starts steps 3 to 9 of the cold start. -/
  | resetNRelease (st : Start) (t : Nat)
  /-- CLOCK_FAULT (R467): The clock monitor finds CLK_ROOT unlocked or off and holds the main domain in reset. -/
  | clockFault (t : Nat)
  /-- THERMAL_SAMPLE (R481): Sensors are sampled every 100 µs, judged valid and form die and device Tj. -/
  | thermalSample (vals : List Nat) (t : Nat)
  /-- THERMAL_TRIP (R483): A sensor at 125 °C holds the main domain in reset in hardware. -/
  | thermalTrip (d : Nat) (t : Nat)
  /-- TRIP_RELEASE (R483): After 10 s below 100 °C island A releases the main domain as a warm reset. -/
  | tripRelease (st : Start) (t : Nat)
  /-- COOLANT_WINDOW (R484): Each 1 s island A judges the base-die temperature rise and moves the coolant state. -/
  | coolantWindow (t : Nat)
  /-- AGEING_MEASURE (R487): Every 3,600 s island A measures ageing monitors and raises trims. -/
  | ageingMeasure (ages : List Nat) (t : Nat)
  /-- CSI_FRAME_START (R494): A Frame Start packet makes the receiver take the next slot or drop the frame. -/
  | csiFrameStart (n : Nat) (vc : Nat) (t : Nat)
  /-- CSI_EMBEDDED_DATA (R494): An embedded-data packet is stored and its echo read. -/
  | csiEmbeddedData (n : Nat) (vc : Nat) (data : List Nat) (t : Nat)
  /-- CSI_LINE (R494): A pixel line packet is stored, counted or marked damaged. -/
  | csiLine (n : Nat) (vc : Nat) (dt : Nat) (data : List Nat) (ok : Bool) (t : Nat)
  /-- CSI_FRAME_END (R494): A Frame End packet ends the frame with STATE ENDED. -/
  | csiFrameEnd (n : Nat) (vc : Nat) (t : Nat)
  /-- FRAME_END_TIMEOUT (R494): A frame without Frame End ends 50 ms after its last packet with NO_FE. -/
  | frameEndTimeout (n : Nat) (t : Nat)
  /-- CAM_CFG_WRITE (R492): Setting EN enables a receiver at slot 0; clearing it abandons the frame. -/
  | camCfgWrite (who : Who) (n : Nat) (w : Nat)
  /-- RING_DOORBELL (R490): A DB write of a controller ring group sets its TAIL. -/
  | ringDoorbell (who : Who) (g : Nat) (w : Nat)
  /-- ETH_TRANSMIT (R498): A port sends the frame of the next transmit descriptor, stamping time and CRC. -/
  | ethTransmit (p : Nat) (t : Nat)
  /-- ETH_RECEIVE (R500): A received frame is filtered, metered and stored in a descriptor or stream ring, or dropped. -/
  | ethReceive (p : Nat) (frame : List Nat) (fcsOk : Bool) (t : Nat)
  /-- GPTP_SYNC (R497): A port's gPTP instance disciplines its port time. -/
  | gptpSync (p : Nat) (time : Nat) (t : Nat)
  /-- QBV_CTL_WRITE (R499): A write of QBV_CTL makes an admin gate list pending. -/
  | qbvCtlWrite (who : Who) (p : Nat) (w : Nat)
  /-- QBV_LIST_IN_FORCE (R499): The admin list takes effect at the first cycle start at or after QBV_BASE. -/
  | qbvListInForce (p : Nat) (t : Nat)
  /-- ODOMETRY_FRAME (R505): An island accepts an odometry frame with good CRC and newer SEQ. -/
  | odometryFrame (b : Bool) (bytes : List Nat) (t : Nat)
  /-- ODOMETRY_STALE (R505): No accepted odometry frame for 50 ms makes odometry stale. -/
  | odometryStale (b : Bool) (t : Nat)
  /-- CAN_TRANSMIT (R506): An application-core channel sends the frame of its next transmit entry. -/
  | canTransmit (c : Nat) (t : Nat)
  /-- CAN_RECEIVE (R506): A channel takes a frame that a filter matches into its receive ring. -/
  | canReceive (c : Nat) (id : Nat) (ide : Bool) (brs : Bool) (data : List Nat) (t : Nat)
  /-- CAN_BUS_OFF (R506): At bus-off the channel clears EN. -/
  | canBusOff (c : Nat) (t : Nat)
  /-- REGISTER_WRITE (R6): A write to a register without a row of its own acts by its fields' access codes. -/
  | registerWrite (who : Who) (a : Nat) (w : Nat)
  /-- SYNC_LOSS (R497): A port's gPTP instance loses synchronisation, AS_SYNC clears and port time runs on from its last correction. -/
  | syncLoss (p : Nat) (t : Nat)
  /-- ETH_LINK_CHANGE (R497): An Ethernet port's link comes up or goes down, LINK and SPEED change and port time restarts from zero at link-up. -/
  | ethLinkChange (p : Nat) (up : Bool) (speed : Nat) (t : Nat)
  /-- PCIE_LINK_CHANGE (R510): The PCIe link trains up or drops, changing GEN and WIDTH and raising the link-changed cause. -/
  | pcieLinkChange (up : Bool) (gen : Nat) (width : Nat) (t : Nat)
  /-- CAN_ERROR_PASSIVE (R510): An application-core CAN FD channel enters error passive and raises its IRQ cause. -/
  | canErrorPassive (c : Nat) (t : Nat)
  /-- MACHINE_TIMER_COMPARE (R448): A hart's time counter reaches its MTIMECMP value and a machine timer interrupt becomes pending. -/
  | machineTimerCompare (h : Nat) (t : Nat)
  /-- JOB_LOST (R358): A class-D job has stayed FAULTED for 100 ms and safe-state reason 0x43 is raised. -/
  | jobLost (j : Nat) (t : Nat)
  /-- POWER_CYCLE (R362): No valid record has followed a warm reset within t_WARM, so reason 0x4A is raised and the carrier is asked to power-cycle. -/
  | powerCycle (t : Nat)
  /-- LOST_MIRROR_COPY (R338): At t_REC + 2.8 ms a claimed record has not arrived and the emitter is not declared failed, so a lost mirror copy is counted. -/
  | lostMirrorCopy (t : Nat)
  /-- SEC_NONCE_EXPIRY (R411): An outstanding SEC nonce is consumed after 600 s of island A local time. -/
  | secNonceExpiry (t : Nat)
  /-- TRNG_HEALTH_PASS (R399): The TRNG health tests pass again and TRNG_OK returns to 1. -/
  | trngHealthPass (t : Nat)
  /-- TCK (R442): A TCK edge advances the IEEE 1149.1 TAP, shifting instructions and data or acting as BYPASS in FIELD and RETIRED. -/
  | tck (tms : Bool) (tdi : Bool)
  /-- GATE_CONTROL_ENTRY (R499): The current gate-control interval ends and the next entry's gate states take effect on a port. -/
  | gateControlEntry (p : Nat) (t : Nat)
  /-- UNIT_INTERNAL_FAULT (R344): A unit's own hardware reports an internal fault, and island A fences it with CAUSE FAULT. -/
  | unitInternalFault (u : Nat)
  deriving DecidableEq, Repr

end Sys2Proof
end

