-- ==== Sys2Proof/Machine/Flags.lean ====
section
/-! DEFINITION. The five sticky arithmetic flags of a cell (02 R36). -/

namespace Sys2Proof.Machine

/-- The flags an operation raises (02 R36). -/
structure Flags where
  inv : Bool := false
  ovf : Bool := false
  unf : Bool := false
  sat : Bool := false
  nsc : Bool := false
  deriving DecidableEq, Repr

/-- No flag raised. -/
def Flags.none : Flags := {}

/-- Flags are sticky: what either raised (02 R36). -/
def Flags.or (a b : Flags) : Flags :=
  { inv := a.inv || b.inv, ovf := a.ovf || b.ovf, unf := a.unf || b.unf,
    sat := a.sat || b.sat, nsc := a.nsc || b.nsc }

/-- The flags as the bits INV, OVF, UNF, SAT, NSC of 04 R120 (INV in bit 0). -/
def Flags.bits (f : Flags) : Nat :=
  f.inv.toNat + 2 * f.ovf.toNat + 4 * f.unf.toNat + 8 * f.sat.toNat + 16 * f.nsc.toNat

end Sys2Proof.Machine
end

