-- ==== Sys2Proof/Machine/Formats.lean ====
section
/-! DEFINITION. Number formats, rounding, overflow and the exact arithmetic behind them
(02 R26 to R45). A finite value is a sign and an exact dyadic magnitude `mant * 2^exp`. -/

namespace Sys2Proof.Machine

/-- A number as an instruction reads it: a NaN or an infinity with its sign, or an exact value. -/
inductive Num where
  | nan (neg : Bool)
  | inf (neg : Bool)
  | fin (neg : Bool) (mant : Nat) (exp : Int)
  deriving DecidableEq, Repr

/-- A floating-point layout (02 R29): exponent and fraction widths, bias, subnormals, and how the
top exponent is used: 0 no special value, 1 IEEE infinities and NaN, 2 the single NaN of E4M3. -/
structure FFmt where
  ew : Nat
  mw : Nat
  bias : Nat
  sub : Bool := true
  top : Nat := 1
  deriving DecidableEq, Repr

def fp4 : FFmt := { ew := 2, mw := 1, bias := 1, top := 0 }
def fp6 : FFmt := { ew := 3, mw := 2, bias := 3, top := 0 }
def e4m3 : FFmt := { ew := 4, mw := 3, bias := 7, top := 2 }
def e5m2 : FFmt := { ew := 5, mw := 2, bias := 15 }
def bf16 : FFmt := { ew := 8, mw := 7, bias := 127 }
def fp16 : FFmt := { ew := 5, mw := 10, bias := 15 }
def fp32 : FFmt := { ew := 8, mw := 23, bias := 127 }
def gf24 : FFmt := { ew := 8, mw := 15, bias := 127, sub := false }
/-- IEEE 754 binary64, in which island B computes (09 R256). -/
def fp64 : FFmt := { ew := 11, mw := 52, bias := 1023 }

/-- The twelve format codes of 02 R26. -/
inductive Fmt where
  | int4 | int8 | int16 | int32 | mxfp4 | mxfp6 | e4m3 | e5m2 | bf16 | fp16 | fp32 | gf24
  deriving DecidableEq, Repr

/-- The format of a 4-bit code; 0xC to 0xF are reserved (02 R26). -/
def Fmt.ofCode : Nat → Option Fmt
  | 0 => some .int4 | 1 => some .int8 | 2 => some .int16 | 3 => some .int32
  | 4 => some .mxfp4 | 5 => some .mxfp6 | 6 => some .e4m3 | 7 => some .e5m2
  | 8 => some .bf16 | 9 => some .fp16 | 10 => some .fp32 | 11 => some .gf24
  | _ => none

/-- Bits per element (02 R26). -/
def Fmt.bits : Fmt → Nat
  | .int4 => 4 | .int8 => 8 | .int16 => 16 | .int32 => 32 | .mxfp4 => 4 | .mxfp6 => 6
  | .e4m3 => 8 | .e5m2 => 8 | .bf16 => 16 | .fp16 => 16 | .fp32 => 32 | .gf24 => 24

def Fmt.isInt : Fmt → Bool
  | .int4 | .int8 | .int16 | .int32 => true
  | _ => false

def Fmt.isMx : Fmt → Bool
  | .mxfp4 | .mxfp6 => true
  | _ => false

/-- The layout of a floating-point element; an MX code names its element format (02 R26, R29). -/
def Fmt.layout : Fmt → FFmt
  | .mxfp4 => Machine.fp4 | .mxfp6 => Machine.fp6 | .e4m3 => Machine.e4m3 | .e5m2 => Machine.e5m2
  | .bf16 => Machine.bf16 | .fp16 => Machine.fp16 | .gf24 => Machine.gf24
  | _ => Machine.fp32

/-- The smallest exponent of a normal value. -/
def FFmt.emin (f : FFmt) : Int := 1 - (f.bias : Int)

/-- The largest exponent of a finite value. -/
def FFmt.emax (f : FFmt) : Int :=
  (2 ^ f.ew - 1 : Nat) - (if f.top = 1 then 1 else 0) - (f.bias : Int)

/-- The significand of the largest finite value, over `2^(emax - mw)` (02 R29: E4M3 ends at 448). -/
def FFmt.maxSig (f : FFmt) : Nat := 2 ^ (f.mw + 1) - 1 - (if f.top = 2 then 1 else 0)

/-- Encode a sign and the bits below it. -/
def FFmt.signed (f : FFmt) (neg : Bool) (low : Nat) : Nat :=
  neg.toNat * 2 ^ (f.ew + f.mw) + low

/-- The encoding of an infinity. -/
def FFmt.infBits (f : FFmt) (neg : Bool) : Nat := f.signed neg ((2 ^ f.ew - 1) * 2 ^ f.mw)

/-- The canonical NaN (02 R34): the top fraction bit alone, but 0bS1111111 in E4M3. -/
def FFmt.nanBits (f : FFmt) (neg : Bool) : Nat :=
  if f.top = 2 then f.signed neg (2 ^ (f.ew + f.mw) - 1)
  else f.signed neg ((2 ^ f.ew - 1) * 2 ^ f.mw + 2 ^ (f.mw - 1))

/-- The encoding of the largest finite value. -/
def FFmt.maxBits (f : FFmt) (neg : Bool) : Nat :=
  f.signed neg ((f.emax + f.bias).toNat * 2 ^ f.mw + (f.maxSig - 2 ^ f.mw))

/-- Read an encoding (02 R29, R30). A format without subnormals reads exponent field zero as zero. -/
def FFmt.decode (f : FFmt) (b : Nat) : Num :=
  let neg := (b / 2 ^ (f.ew + f.mw)) % 2 = 1
  let e := (b / 2 ^ f.mw) % 2 ^ f.ew
  let m := b % 2 ^ f.mw
  if f.top = 1 ∧ e = 2 ^ f.ew - 1 then (if m = 0 then .inf neg else .nan neg)
  else if f.top = 2 ∧ e = 2 ^ f.ew - 1 ∧ m = 2 ^ f.mw - 1 then .nan neg
  else if e = 0 then (if f.sub then .fin neg m (f.emin - f.mw) else .fin neg 0 0)
  else .fin neg (2 ^ f.mw + m) ((e : Int) - f.bias - f.mw)

/-- Whether reading `b` loses a value: exponent field zero with a non-zero fraction (02 R30). -/
def FFmt.flushes (f : FFmt) (b : Nat) : Bool :=
  !f.sub && decide ((b / 2 ^ f.mw) % 2 ^ f.ew = 0) && decide (b % 2 ^ f.mw ≠ 0)

/-- Rounding modes (02 R32); stochastic rounding carries its random word (02 R35). -/
inductive Rnd where
  | rne | rtz
  | sr (r : Nat)
  deriving DecidableEq, Repr

/-- One LFSR step of 02 R35. -/
def srStep (state : Nat) : Nat :=
  if state % 2 = 1 then (state / 2) ^^^ 0x80200003 else state / 2

/-- Eight steps of the LFSR. -/
def srSteps : Nat → Nat → Nat
  | 0, st => st
  | n + 1, st => srSteps n (srStep st)

/-- The random word of element `i` under `seed` (02 R35). -/
def srWord (seed i : Nat) : Nat :=
  let st := (seed % 2 ^ 32) ^^^ (((i % 2 ^ 32) * 0x9E3779B9) % 2 ^ 32)
  srSteps 8 (if st = 0 then 1 else st)

/-- `floor (log2 (m * 2^e))` for `m > 0`. -/
def floorLog2 (m : Nat) (e : Int) : Int := (Nat.log2 m : Int) + e

/-- Round the magnitude `m * 2^e` to an integer number of units `2^u` (02 R32, R35). -/
def roundUnits (r : Rnd) (m : Nat) (e u : Int) : Nat :=
  if u ≤ e then m * 2 ^ (e - u).toNat
  else
    let k := (u - e).toNat
    let q := m / 2 ^ k
    let rem := m % 2 ^ k
    match r with
    | .rtz => q
    | .rne =>
      if 2 * rem > 2 ^ k ∨ (2 * rem = 2 ^ k ∧ q % 2 = 1) then q + 1 else q
    | .sr w => if rem * 2 ^ 32 / 2 ^ k > w then q + 1 else q

/-- What an overflow writes: the largest finite value or infinity. -/
inductive OnOvf where
  | saturate | ieee
  deriving DecidableEq, Repr

/-- Round the finite magnitude `m * 2^e` to format `f` (02 R30, R32, R33). -/
def roundFin (f : FFmt) (r : Rnd) (o : OnOvf) (neg : Bool) (m : Nat) (e : Int) : Nat × Flags :=
  if m = 0 then (f.signed neg 0, {})
  else
    let l := floorLog2 m e
    let u := (if f.sub then max l f.emin else l) - f.mw
    let q := roundUnits r m e u
    -- the rounded magnitude is q * 2^u, with q at most 2^(mw+1)
    let carry := decide (q = 2 ^ (f.mw + 1))
    let sig := if carry then 2 ^ f.mw else q
    let u' := if carry then u + 1 else u
    if u' + f.mw > f.emax ∨ (u' + f.mw = f.emax ∧ sig > f.maxSig) then
      match o, r with
      | .ieee, .rtz => (f.maxBits neg, { ovf := true })
      | .ieee, _ => (f.infBits neg, { ovf := true })
      | .saturate, _ => (f.maxBits neg, { ovf := true })
    else if !f.sub && decide (u' + f.mw < f.emin) then (f.signed neg 0, { unf := true })
    else if sig < 2 ^ f.mw then (f.signed neg sig, {})
    else (f.signed neg ((u' + f.mw + f.bias).toNat * 2 ^ f.mw + (sig - 2 ^ f.mw)), {})

/-- Overflow of a floating-point target under SATSEL (02 R33). -/
def Fmt.onOvf (t : Fmt) (satsel : Bool) : OnOvf :=
  match t with
  | .e5m2 => if satsel then .ieee else .saturate
  | .bf16 | .fp16 | .fp32 | .gf24 => if satsel then .saturate else .ieee
  | _ => .saturate

/-- Whether an infinity converts to an infinity (02 R34). -/
def Fmt.keepsInf (t : Fmt) (satsel : Bool) : Bool :=
  match t with
  | .e5m2 => satsel
  | .bf16 | .fp16 | .fp32 | .gf24 => true
  | _ => false

/-- SATSEL = 1 is a reserved encoding for this target (02 R33). -/
def Fmt.satselReserved : Fmt → Bool
  | .int4 | .int8 | .int16 | .int32 | .mxfp4 | .mxfp6 | .e4m3 => true
  | _ => false

/-- A two's complement encoding in `w` bits. -/
def twos (w : Nat) (v : Int) : Nat := (v % (2 ^ w : Nat)).toNat

/-- The signed value of the low `w` bits. -/
def signedOf (w b : Nat) : Int :=
  let x := b % 2 ^ w
  if x ≥ 2 ^ (w - 1) then (x : Int) - (2 ^ w : Nat) else x

/-- Clamp to the signed limits of `w` bits; true where it clamped (02 R33, R40). -/
def clampInt (w : Nat) (v : Int) : Int × Bool :=
  let hi : Int := (2 ^ (w - 1) : Nat) - 1
  let lo : Int := -((2 ^ (w - 1) : Nat) : Int)
  if v > hi then (hi, true) else if v < lo then (lo, true) else (v, false)

def signInt (neg : Bool) (m : Nat) : Int := if neg then -(m : Int) else m

/-- Convert a number to an integer target of `w` bits (02 R33, R34). -/
def toIntBits (w : Nat) (r : Rnd) : Num → Nat × Flags
  | .nan _ => (0, { inv := true })
  | .inf neg =>
    (twos w (if neg then -((2 ^ (w - 1) : Nat) : Int) else (2 ^ (w - 1) : Nat) - 1),
      { inv := true, ovf := true })
  | .fin neg m e =>
    let (v, c) := clampInt w (signInt neg (roundUnits r m e 0))
    (twos w v, { ovf := c })

/-- Convert a number to a floating-point target that is no MX element (02 R30, R33, R34). -/
def toFloatBits (t : Fmt) (r : Rnd) (satsel : Bool) : Num → Nat × Flags
  | .nan neg => (t.layout.nanBits neg, {})
  | .inf neg =>
    if t.keepsInf satsel then (t.layout.infBits neg, {}) else (t.layout.maxBits neg, { ovf := true })
  | .fin neg m e => roundFin t.layout r (t.onOvf satsel) neg m e

/-- A value that is no zero and lies below 2^-126, as a subnormal of FP32 or BF16 does (02 R34; log 33). -/
def Num.tiny : Num → Bool
  | .fin _ m e => decide (m ≠ 0 ∧ floorLog2 m e < fp32.emin)
  | _ => false

/-- Convert a product with a scale to a non-MX target: rounded, then flushed in GF24 (02 R30). -/
def productBits (t : Fmt) (r : Rnd) (satsel : Bool) (x : Num) : Nat × Flags :=
  if t.isInt then toIntBits t.bits r x else toFloatBits t r satsel x

/-- Convert an element to a non-MX target: a subnormal becomes a zero of GF24 and sets UNF (02 R34). -/
def toFmtBits (t : Fmt) (r : Rnd) (satsel : Bool) (x : Num) : Nat × Flags :=
  if t = .gf24 ∧ x.tiny then (t.layout.signed (match x with
    | .fin neg _ _ => neg
    | _ => false) 0, { unf := true })
  else productBits t r satsel x

/-- Read one element that is no MX element. -/
def Fmt.read (t : Fmt) (b : Nat) : Num :=
  if t.isInt then
    let v := signedOf t.bits b
    .fin (decide (v < 0)) v.natAbs 0
  else t.layout.decode b

/-- The flag a read raises: UNF where GF24 loses a subnormal (02 R30). -/
def Fmt.readFlags (t : Fmt) (b : Nat) : Flags :=
  if t = .gf24 then { unf := t.layout.flushes b } else {}

/-- The value of an MX element under its E8M0 scale (02 R31). -/
def mxValue (t : Fmt) (scale b : Nat) : Num :=
  if scale = 0xFF then .nan false
  else
    match t.layout.decode b with
    | .fin neg m e => .fin neg m (e + ((scale : Int) - 127))
    | x => x

/-- `emax` of 02 R37. -/
def Fmt.mxEmax (t : Fmt) : Int := if t = .mxfp6 then 4 else 2

def Num.isNaN : Num → Bool
  | .nan _ => true
  | _ => false

def Num.isInf : Num → Bool
  | .inf _ => true
  | _ => false

def Num.isFin : Num → Bool
  | .fin _ _ _ => true
  | _ => false

/-- `floor (log2 |x|)` of a finite non-zero value. -/
def Num.log2? : Num → Option Int
  | .fin _ m e => if m = 0 then none else some (floorLog2 m e)
  | _ => none

/-- The largest of the exponents present. -/
def maxLog2 : List Num → Option Int
  | [] => none
  | x :: t =>
    match x.log2?, maxLog2 t with
    | some a, some b => some (max a b)
    | some a, none => some a
    | none, r => r

/-- Convert one block of source values to scale and elements (02 R37, R34); `rnd i` gives the
rounding of the `i`-th element of the block. -/
def mxBlock (t : Fmt) (rnd : Nat → Rnd) (xs : List Num) : Nat × List Nat × Flags :=
  if xs.any (fun x => !x.isFin) then
    (0xFF, xs.map (fun _ => 0), { inv := true, nsc := true })
  else
    let e : Int :=
      match maxLog2 xs with
      | none => 0
      | some l => min (max (l - t.mxEmax) (-127)) 127
    let rs := (List.range xs.length).zip xs |>.map (fun (i, x) =>
      match x with
      | .fin neg m k => roundFin t.layout (rnd i) .saturate neg m (k - e)
      | _ => (0, {}))
    ((e + 127).toNat, rs.map (·.1), rs.foldl (fun f x => f.or x.2) {})

/-! Exact sums (02 R39 to R42, R44). -/

/-- The exact sum of two finite values, as a signed integer over a common exponent. -/
def addExact (n1 : Bool) (m1 : Nat) (e1 : Int) (n2 : Bool) (m2 : Nat) (e2 : Int) : Int × Int :=
  let e := min e1 e2
  (signInt n1 (m1 * 2 ^ (e1 - e).toNat) + signInt n2 (m2 * 2 ^ (e2 - e).toNat), e)

/-- A finite number from a signed integer and an exponent. -/
def ofSigned (v e : Int) : Num := .fin (decide (v < 0)) v.natAbs e

/-- The exact sum of finite numbers; an exact zero is +0. -/
def sumExact : List Num → Int × Int
  | [] => (0, 0)
  | .fin n m e :: t =>
    let (v, e') := sumExact t
    if m = 0 then (v, e')
    else if v = 0 then (signInt n m, e)
    else
      let k := min e e'
      (signInt n (m * 2 ^ (e - k).toNat) + v * 2 ^ (e' - k).toNat, k)
  | _ :: t => sumExact t

/-- IEEE 754 addition of two numbers under RNE, canonical NaN of sign 0 (02 R41, R44). -/
def addNum (f : FFmt) (a b : Num) : Nat × Flags :=
  match a, b with
  | .nan _, _ => (f.nanBits false, {})
  | _, .nan _ => (f.nanBits false, {})
  | .inf n, .inf n' => if n = n' then (f.infBits n, {}) else (f.nanBits false, { inv := true })
  | .inf n, _ => (f.infBits n, {})
  | _, .inf n => (f.infBits n, {})
  | .fin n1 m1 e1, .fin n2 m2 e2 =>
    if m1 = 0 ∧ m2 = 0 then (f.signed (n1 && n2) 0, {})
    else
      let (v, e) := addExact n1 m1 e1 n2 m2 e2
      if v = 0 then (f.signed false 0, {})
      else roundFin f .rne .ieee (decide (v < 0)) v.natAbs e

/-- The exact product of two numbers; none where an infinity meets a zero (02 R42). -/
def mulNum (a b : Num) : Option Num :=
  match a, b with
  | .nan _, _ => some (.nan false)
  | _, .nan _ => some (.nan false)
  | .inf n, .inf n' => some (.inf (n != n'))
  | .inf n, .fin n' m _ => if m = 0 then none else some (.inf (n != n'))
  | .fin n' m _, .inf n => if m = 0 then none else some (.inf (n != n'))
  | .fin n m e, .fin n' m' e' => some (.fin (n != n') (m * m') (e + e'))

/-- Round a number to `f` under RNE with the canonical NaN of sign 0 (02 R44). -/
def roundNum (f : FFmt) : Num → Nat × Flags
  | .nan _ => (f.nanBits false, {})
  | .inf n => (f.infBits n, {})
  | .fin n m e => roundFin f .rne .ieee n m e

/-- One multiplication, rounded once (02 R44). -/
def mulRound (f : FFmt) (a b : Num) : Nat × Flags :=
  match mulNum a b with
  | none => (f.nanBits false, { inv := true })
  | some x => roundNum f x

/-- Fused multiply-add, rounded once (02 R44). -/
def fmaRound (f : FFmt) (a b c : Num) : Nat × Flags :=
  match mulNum a b with
  | none => (f.nanBits false, { inv := !c.isNaN })
  | some x => addNum f x c

def Num.negate : Num → Num
  | .nan n => .nan n
  | .inf n => .inf (!n)
  | .fin n m e => .fin (!n) m e

/-- Whether `a` is less than `b` as real numbers or infinities; false where either is NaN. Zeros of
either sign are equal. -/
def Num.lt (a b : Num) : Bool :=
  match a, b with
  | .nan _, _ => false
  | _, .nan _ => false
  | .inf n, .inf n' => n && !n'
  | .inf n, .fin _ _ _ => n
  | .fin _ _ _, .inf n => !n
  | .fin n m e, .fin n' m' e' => decide ((addExact n m e (!n') m' e').1 < 0)

def Num.eqv (a b : Num) : Bool :=
  !a.isNaN && !b.isNaN && !a.lt b && !b.lt a

def Num.isNeg : Num → Bool
  | .nan n => n
  | .inf n => n
  | .fin n _ _ => n

/-- IEEE 754-2019 maximum: NaN wins, −0 is below +0 (02 R44). -/
def Num.maximum (a b : Num) : Num :=
  if a.isNaN || b.isNaN then .nan false
  else if a.lt b then b else if b.lt a then a
  else if a.isNeg then b else a

/-- IEEE 754-2019 minimum (02 R44). -/
def Num.minimum (a b : Num) : Num :=
  if a.isNaN || b.isNaN then .nan false
  else if a.lt b then a else if b.lt a then b
  else if a.isNeg then a else b

/-! Correctly rounded elementary functions (02 R44): the exact real value is held as an integer
magnitude whose last bit is set where the value is not exact, with far more bits than any target. -/

/-- `floor (ln 2 * 2^320)`. -/
def ln2Fixed : Nat :=
  1480553391661173448385607439722553250922680800745876974795605978609098082859138712941075737848984

/-- The Taylor sum of `e^r` at 320 fraction bits: `term` is `r^n / n!` as the sum reaches it. -/
def expTaylor : Nat → Nat → Nat → Nat → Nat
  | 0, _, _, _ => 0
  | fuel + 1, n, r, term => term + expTaylor fuel (n + 1) r (term * r / 2 ^ 320 / (n + 1))

/-- `e^x` of a finite non-zero value, as magnitude and exponent with a sticky last bit. -/
def expMag (neg : Bool) (m : Nat) (e : Int) : Nat × Int :=
  let big := decide (floorLog2 m e ≥ 7)          -- |x| of 128 or more
  if big then (if neg then (1, -400) else (1, 400))
  else
    let x : Nat := if e ≥ -320 then m * 2 ^ (e + 320).toNat else m / 2 ^ (-320 - e).toNat
    let k := x / ln2Fixed
    if neg then
      -- x = -(k * ln 2 + r) with r below ln 2: e^x = 2^-(k+1) * e^(ln 2 - r)
      let r := ln2Fixed - x % ln2Fixed
      (2 * expTaylor 120 0 r (2 ^ 320) + 1, -321 - (k + 1 : Nat))
    else
      (2 * expTaylor 120 0 (x % ln2Fixed) (2 ^ 320) + 1, -321 + (k : Int))

/-- `floor (sqrt n)`, one bit at a time. -/
def isqrtBits : Nat → Nat → Nat → Nat
  | 0, _, acc => acc
  | b + 1, n, acc =>
    let t := acc + 2 ^ b
    isqrtBits b n (if t * t ≤ n then t else acc)

/-- `floor (sqrt n)`. -/
def isqrt (n : Nat) : Nat := isqrtBits (Nat.log2 n / 2 + 1) n 0

/-- `1 / (m * 2^e)` with a sticky last bit. -/
def recipMag (m : Nat) (e : Int) : Nat × Int :=
  let k : Nat := Nat.log2 m + 96
  (2 * (2 ^ k / m) + (if 2 ^ k % m = 0 then 0 else 1), -(k : Int) - e - 1)

/-- `sqrt (m * 2^e)` with a sticky last bit. -/
def sqrtMag (m : Nat) (e : Int) : Nat × Int :=
  let pad : Nat := 200 + (if e % 2 = 0 then 0 else 1)
  let y := m * 2 ^ pad
  let q := isqrt y
  (2 * q + (if q * q = y then 0 else 1), (e - pad) / 2 - 1)

/-- `1 / sqrt (m * 2^e)` with a sticky last bit. -/
def rsqrtMag (m : Nat) (e : Int) : Nat × Int :=
  let k : Nat := Nat.log2 m + 200
  let k' : Nat := k + (if (e + k) % 2 = 0 then 0 else 1)
  let y := 2 ^ k' / m
  let q := isqrt y
  (2 * q + (if q * q * m = 2 ^ k' then 0 else 1), -((e + k') / 2) - 1)

/-- VEXP (02 R44). -/
def vexp (f : FFmt) : Num → Nat × Flags
  | .nan _ => (f.nanBits false, {})
  | .inf neg => (if neg then f.signed false 0 else f.infBits false, {})
  | .fin neg m e =>
    if m = 0 then roundFin f .rne .ieee false 1 0
    else let (q, k) := expMag neg m e; roundFin f .rne .ieee false q k

/-- VRCP (02 R44). -/
def vrcp (f : FFmt) : Num → Nat × Flags
  | .nan _ => (f.nanBits false, {})
  | .inf neg => (f.signed neg 0, {})
  | .fin neg m e =>
    if m = 0 then (f.infBits neg, {})
    else let (q, k) := recipMag m e; roundFin f .rne .ieee neg q k

/-- VRSQ (02 R44). -/
def vrsq (f : FFmt) : Num → Nat × Flags
  | .nan _ => (f.nanBits false, {})
  | .inf neg => if neg then (f.nanBits false, { inv := true }) else (f.signed false 0, {})
  | .fin neg m e =>
    if m = 0 then (f.infBits neg, {})
    else if neg then (f.nanBits false, { inv := true })
    else let (q, k) := rsqrtMag m e; roundFin f .rne .ieee false q k

/-- Division rounded once, for the FP32 and binary64 arithmetic of engines and islands. -/
def divRound (f : FFmt) (a b : Num) : Nat × Flags :=
  match a, b with
  | .nan _, _ => (f.nanBits false, {})
  | _, .nan _ => (f.nanBits false, {})
  | .inf _, .inf _ => (f.nanBits false, { inv := true })
  | .inf n, .fin n' _ _ => (f.infBits (n != n'), {})
  | .fin n _ _, .inf n' => (f.signed (n != n') 0, {})
  | .fin n m e, .fin n' m' e' =>
    if m' = 0 then (if m = 0 then (f.nanBits false, { inv := true }) else (f.infBits (n != n'), {}))
    else if m = 0 then (f.signed (n != n') 0, {})
    else
      let k : Nat := Nat.log2 m' + 160
      let q := m * 2 ^ k / m'
      roundFin f .rne .ieee (n != n') (2 * q + (if m * 2 ^ k % m' = 0 then 0 else 1)) (e - e' - k - 1)

/-- Square root rounded once. -/
def sqrtRound (f : FFmt) : Num → Nat × Flags
  | .nan _ => (f.nanBits false, {})
  | .inf neg => if neg then (f.nanBits false, { inv := true }) else (f.infBits false, {})
  | .fin neg m e =>
    if m = 0 then (f.signed neg 0, {})
    else if neg then (f.nanBits false, { inv := true })
    else let (q, k) := sqrtMag m e; roundFin f .rne .ieee false q k

/-! FP32 and binary64 shorthands on encodings. -/

def f32Add (a b : Nat) : Nat := (addNum fp32 (fp32.decode a) (fp32.decode b)).1
def f32Sub (a b : Nat) : Nat := (addNum fp32 (fp32.decode a) (fp32.decode b).negate).1
def f32Mul (a b : Nat) : Nat := (mulRound fp32 (fp32.decode a) (fp32.decode b)).1
def f32Div (a b : Nat) : Nat := (divRound fp32 (fp32.decode a) (fp32.decode b)).1
def f32Sqrt (a : Nat) : Nat := (sqrtRound fp32 (fp32.decode a)).1
def f32Fma (a b c : Nat) : Nat := (fmaRound fp32 (fp32.decode a) (fp32.decode b) (fp32.decode c)).1
def f32Lt (a b : Nat) : Bool := (fp32.decode a).lt (fp32.decode b)
def f32Le (a b : Nat) : Bool :=
  !(fp32.decode a).isNaN && !(fp32.decode b).isNaN && !(fp32.decode b).lt (fp32.decode a)
def f32OfInt (v : Int) : Nat := (roundFin fp32 .rne .ieee (decide (v < 0)) v.natAbs 0).1
def f32OfNum (x : Num) : Nat := (roundNum fp32 x).1
def f64Add (a b : Nat) : Nat := (addNum fp64 (fp64.decode a) (fp64.decode b)).1
def f64Sub (a b : Nat) : Nat := (addNum fp64 (fp64.decode a) (fp64.decode b).negate).1
def f64Mul (a b : Nat) : Nat := (mulRound fp64 (fp64.decode a) (fp64.decode b)).1
def f64Div (a b : Nat) : Nat := (divRound fp64 (fp64.decode a) (fp64.decode b)).1
def f64Sqrt (a : Nat) : Nat := (sqrtRound fp64 (fp64.decode a)).1
def f64Lt (a b : Nat) : Bool := (fp64.decode a).lt (fp64.decode b)
def f64Le (a b : Nat) : Bool :=
  !(fp64.decode a).isNaN && !(fp64.decode b).isNaN && !(fp64.decode b).lt (fp64.decode a)
def f64OfNum (x : Num) : Nat := (roundNum fp64 x).1
def f64OfInt (v : Int) : Nat := (roundFin fp64 .rne .ieee (decide (v < 0)) v.natAbs 0).1

/-! One K-block (02 R39 to R42). -/

/-- The exact block sum rounded once to FP32, with the special cases of 02 R42. -/
def blockSum (as bs : List Num) : Nat × Flags :=
  let ps := (as.zip bs).map (fun (a, b) => mulNum a b)
  if (as ++ bs).any Num.isNaN then (0x7FC00000, {})
  else if ps.any (fun p => p.isNone) then (0x7FC00000, { inv := true })
  else
    let qs := ps.filterMap id
    let pos := qs.any (fun q => decide (q = .inf false))
    let negv := qs.any (fun q => decide (q = .inf true))
    if pos && negv then (0x7FC00000, { inv := true })
    else if pos then (fp32.infBits false, {})
    else if negv then (fp32.infBits true, {})
    else
      let (v, e) := sumExact qs
      if v = 0 then (0, {})
      else roundFin fp32 .rne .ieee (decide (v < 0)) v.natAbs e

/-- Accumulate one floating-point K-block (02 R41): an exact zero result is +0. -/
def accFloat (acc : Nat) (as bs : List Num) : Nat × Flags :=
  let (b, f) := blockSum as bs
  let (r, f') := addNum fp32 (fp32.decode acc) (fp32.decode b)
  ((if r = fp32.signed true 0 then 0 else r), f.or f')

/-- Accumulate one integer K-block with saturation (02 R40). -/
def accInt (acc : Nat) (as bs : List Int) : Nat × Bool :=
  let s := (as.zip bs).foldl (fun x (a, b) => x + a * b) 0
  let (v, c) := clampInt 32 (signedOf 32 acc + s)
  (twos 32 v, c)

end Sys2Proof.Machine
end

