-- ==== Sys2Proof/Machine/Regs.lean ====
section
/-! DEFINITION. The address map and the register fields of the device (01 R15, R17, R19; each field
under the register that its chapter defines). A field is named after its register and itself. -/

namespace Sys2Proof.Machine

/-- Access codes (00 R6). -/
inductive Acc where
  | ro | rw | wo | w1c | w1s
  deriving DecidableEq, Repr

/-- A register field: lowest bit, width, access code, reset value (00 R6, R8). -/
structure FD where
  lo : Nat
  w : Nat
  acc : Acc := .rw
  reset : Nat := 0
  deriving DecidableEq, Repr

def roF (lo w : Nat) (reset : Nat := 0) : FD := { lo := lo, w := w, acc := .ro, reset := reset }
def rwF (lo w : Nat) (reset : Nat := 0) : FD := { lo := lo, w := w, acc := .rw, reset := reset }
def woF (lo w : Nat) : FD := { lo := lo, w := w, acc := .wo, reset := 0 }
def w1cF (lo w : Nat) (reset : Nat := 0) : FD := { lo := lo, w := w, acc := .w1c, reset := reset }

/-- Where a field is kept: one entry per register address and lowest bit. -/
def FD.key (f : FD) (a : Nat) : Nat := a * 64 + f.lo

/-- The bits of the field in a written word. -/
def FD.of (f : FD) (w : Nat) : Nat := w / 2 ^ f.lo % 2 ^ f.w

/-! The address map (01 R17). -/

def mainSize : Nat := 0x54000000 * 16 -- 21 GiB
def spadBase (c : Nat) : Nat := 0x80000000000 + c * 0x1000000
def spadSize : Nat := 0xC00000
def csBase (b : Nat) : Nat := 0x81000000000 + b * 0x8000000
def csSize : Nat := 0x6000000
def unitBlk (u : Nat) : Nat := 0xF0000000000 + u * 0x10000
def dirBase : Nat := 0xF0001000000
def clkBase : Nat := 0xF0001100000
def silBase : Nat := 0xF0001200000
def partBase : Nat := 0xF0001300000
def redBase : Nat := 0xF0001400000
def trigBase : Nat := 0xF0001500000
def linkBase : Nat := 0xF0001600000
def mcBase : Nat := 0xF0001700000
def flcBase : Nat := 0xF0001800000
def secBase : Nat := 0xF0001900000
def bellBase : Nat := 0xF0002000000
/-- The application-core block and the interface block lie in the State Directory range (17 R457, 19 R489). -/
def apBase : Nat := 0xF0001080000
def ifBase : Nat := 0xF00010A0000

/-- The base die of a unit slot, 4 for the I/O die (01 R15). -/
def dieOf (u : Nat) : Nat :=
  if u < 48 then u / 12 else if u < 60 then (u - 48) % 4 else 4

/-! Unit register block (01 R19; 03 R78 to R81). -/

def UNIT_CTRL (u : Nat) : Nat := unitBlk u
def UNIT_STATUS (u : Nat) : Nat := unitBlk u + 0x08
def UNIT_SNAP (u : Nat) : Nat := unitBlk u + 0x30
def UNIT_FENCE (u : Nat) : Nat := unitBlk u + 0x38
def UNIT_PART (u : Nat) : Nat := unitBlk u + 0x40
def UNIT_RG (u : Nat) : Nat := unitBlk u + 0x48
def UNIT_SIG (u : Nat) : Nat := unitBlk u + 0x50
def UNIT_PROGRESS (u : Nat) : Nat := unitBlk u + 0x58
def UNIT_PVALID (u : Nat) : Nat := unitBlk u + 0x60

def ctrlPLEN : FD := rwF 32 7
def ctrlPBASE : FD := rwF 24 6
def ctrlSTALL : FD := rwF 8 16 0x07D0
def ctrlUNIT_RESET : FD := woF 4 1
def ctrlJOB_RESET : FD := woF 3 1
def ctrlRESUME : FD := woF 2 1
def ctrlSTOP : FD := woF 1 1
def ctrlENABLE : FD := rwF 0 1

def stMULTI : FD := roF 39 1
def stSTREAM : FD := roF 36 3
def stCODE : FD := roF 32 4
def stNSC : FD := w1cF 12 1
def stSAT : FD := w1cF 11 1
def stUNF : FD := w1cF 10 1
def stOVF : FD := w1cF 9 1
def stINV : FD := w1cF 8 1
def stSTATE : FD := roF 0 3

/-- STATE of UNIT_STATUS (03 R78). -/
def stIdle : Nat := 0
def stRunning : Nat := 1
def stStopped : Nat := 2
def stError : Nat := 3
def stFenced : Nat := 4
def stResetting : Nat := 5
def stOut : Nat := 6

def snapFAIL : FD := roF 48 4
def snapADDR : FD := rwF 6 38
def snapSTATUS : FD := roF 3 2
def snapOP : FD := woF 0 3

def pvalidPAGES : FD := roF 0 64

/-! Engines (06 R171, 07 R195, 08 R223, R235, 09 R251). -/

def engBUSY : FD := roF 0 1
def IMG_STATUS (u : Nat) : Nat := unitBlk u + 0x8000
def igLINES : FD := roF 32 16
def igROWS : FD := roF 16 16
def igCAM : FD := roF 8 4
def IMG_PIX_CNT (u : Nat) : Nat := unitBlk u + 0x8008
def ATTN_STATUS (u : Nat) : Nat := unitBlk u + 0x8000
def atHOMEQ : FD := roF 4 4
def atTABLEOK : FD := roF 1 1
def ATTN_CFG (u : Nat) : Nat := unitBlk u + 0x8008
def acSPLIT : FD := rwF 48 13 0x1000
def acCAPT : FD := rwF 36 12
def acLROWT : FD := rwF 31 5 6
def acCAPP : FD := rwF 19 12
def acLROWP : FD := rwF 14 5 6
def ATTN_POOL (u : Nat) : Nat := unitBlk u + 0x8010
def apPAGES : FD := rwF 44 16
def apPOOL : FD := rwF 16 28
def ATTN_CTX_SEL (u : Nat) : Nat := unitBlk u + 0x8018
def asCTX : FD := rwF 0 13
def ATTN_MAC_CNT (u : Nat) : Nat := unitBlk u + 0x8020
def ATTN_CTX_D (u i : Nat) : Nat := unitBlk u + 0x8040 + 8 * i
def GRID_STATUS (u : Nat) : Nat := unitBlk u + 0x8000
def gsROWS : FD := roF 32 16
def gsOPC : FD := roF 8 8
def GRID_SAMPLE_CNT (u : Nat) : Nat := unitBlk u + 0x8008
def TRK_STATUS : Nat := unitBlk 62 + 0x8000
def tkLASTSEQ : FD := roF 32 16
def tkLIVE : FD := roF 19 13
def tkLASTV : FD := roF 1 1
def TRK_NEXT_ID : Nat := unitBlk 62 + 0x8008
def tkNEXT : FD := rwF 0 32 1
def TRK_SEL : Nat := unitBlk 62 + 0x8010
def tkCTX : FD := rwF 0 13
def TRK_BID_CNT : Nat := unitBlk 62 + 0x8018
def TRK_D (i : Nat) : Nat := unitBlk 62 + 0x8040 + 8 * i
def CHK_STATUS (u : Nat) : Nat := unitBlk u + 0x8000
def ckDONE : FD := roF 32 16
def CHK_CAND_CNT (u : Nat) : Nat := unitBlk u + 0x8008
/-- A counter or a captured word over the whole register. -/
def cnt64 : FD := roF 0 64

/-! Windows (05 R129). A mailbox window has the same registers in the block of slot 63 (09 R254). -/

def WIN (u n : Nat) : Nat :=
  if u = 63 then unitBlk 63 + 0x9000 + n * 0x20 else unitBlk u + 0x100 + n * 0x20
def winCtl (u n : Nat) : Nat := WIN u n
def winMask (u n : Nat) : Nat := WIN u n + 8
def winGen (u n : Nat) : Nat := WIN u n + 16
def winStat (u n : Nat) : Nat := WIN u n + 24

def winLIMIT : FD := rwF 40 18
def winBASE : FD := rwF 22 18
def winOPEN : FD := rwF 21 1
def winPART : FD := rwF 18 3
def winLANES : FD := rwF 16 2 1
def winSEAL : FD := rwF 15 1
def winGTOKEN : FD := rwF 14 1
def winGTOK : FD := rwF 10 4
def winMODE : FD := rwF 8 2
def winOWNV : FD := rwF 7 1
def winOWNER : FD := rwF 0 6
def winMASK : FD := rwF 0 64
def winVISLANE : FD := roF 32 2
def winVISGEN : FD := roF 0 32
def winLASTDROP : FD := roF 8 4
def winLASTSLOT : FD := roF 2 6
def winSEALED : FD := roF 1 1

/-! Memory controllers (05 R143, R149). -/

def RGN_LO (p e : Nat) : Nat := mcBase + 0x10000 + p * 0x400 + e * 0x10
def RGN_HI (p e : Nat) : Nat := RGN_LO p e + 8
def rgnVALID : FD := rwF 63 1
def rgnRD : FD := rwF 62 1
def rgnWR : FD := rwF 61 1
def rgnMIRROR : FD := rwF 60 1
def rgnBASE : FD := rwF 16 28
def rgnSIZE : FD := rwF 44 20
def rgnMBASE : FD := rwF 16 28

def MC_STATUS : Nat := mcBase
def mcCSOK : FD := roF 32 4
def mcDEGRADED : FD := roF 24 1
def mcCHOK : FD := roF 0 24
def MC_FILL_ADDR : Nat := mcBase + 0x10
def MC_FILL_LEN : Nat := mcBase + 0x18
def MC_FILL_CTRL : Nat := mcBase + 0x20
def fillADDR : FD := rwF 6 38
def fillLEN : FD := rwF 6 34
def fillFAIL : FD := roF 4 4
def fillSTATUS : FD := roF 2 2
def fillGO : FD := woF 0 1

/-! Barriers, hart arrivals (03 R65). -/

def BAR_HART (p : Nat) : Nat := unitBlk 63 + 0x8040 + p * 8
def bhBROKEN : FD := roF 9 1
def bhREFUSED : FD := roF 8 1
def bhBID : FD := woF 0 6
/-- One more than the barrier of the last accepted hart arrival; no part of what the register reads as (03 R65). -/
def bhLAST : FD := woF 16 7

/-! Queues, partitions, jobs (10 R268 to R280). -/

/-- A guest queue's configuration, in the layout of QCFG (16 R438). -/
def GST_QCFG (i : Nat) : Nat := linkBase + 0x40000 + i * 0x40
def gstBell : Nat := linkBase + 0x80000

/-- Queue `q` of the unit slots; the guest's queue `i` has the number `16384 + i`. -/
def QCFG (q : Nat) : Nat := if q < 16384 then unitBlk (q / 256) + 0x1000 + q % 256 * 0x40 else GST_QCFG (q - 16384)
def qRing (q : Nat) : Nat := QCFG q
def qCtl (q : Nat) : Nat := QCFG q + 8
def qPtr (q : Nat) : Nat := QCFG q + 16
def qTail (q : Nat) : Nat := QCFG q + 24
def qLDEPTH : FD := rwF 44 5
def qBASE : FD := rwF 6 38
def qRDRV : FD := rwF 63 1
def qREDIRECT : FD := rwF 49 14
def qJIDX : FD := rwF 41 8 0xFF
def qPART : FD := rwF 38 3
def qIRQEN : FD := rwF 37 1
def qPRIO : FD := rwF 35 2
def qPMODE : FD := rwF 34 1
def qCQ : FD := rwF 33 1
def qOVERRUN : FD := w1cF 32 1
def qEN : FD := rwF 0 1
def qNEXT : FD := roF 32 32
def qHEAD : FD := rwF 0 32
def qTAIL : FD := roF 0 32

/-- Partition descriptors (10 R278). -/
def PDESC (p : Nat) : Nat := partBase + p * 0x40
def pdVALID : FD := rwF 0 8
def pdCLASS : FD := rwF 8 8
def pdFAB : FD := rwF 16 8
def pdGDDR : FD := rwF 24 8
def pdMAXJOBS : FD := rwF 32 8
def pdBARRIERS : FD := rwF 40 8
def pdGROUPS : FD := rwF 48 8
def pdUNITS : FD := rwF 0 64
def pdPAGES : FD := rwF 0 16
def pdQUEUES : FD := rwF 16 16
def pdWINDOWS : FD := rwF 32 16
def pdSPAD : FD := rwF 0 64

def JOB_STAT (j : Nat) : Nat := partBase + 0x1000 + j * 8
def jsJOBID : FD := roF 32 32
def jsPART : FD := roF 21 3
def jsPLACE : FD := roF 19 2
def jsSTATE : FD := roF 16 3

def jFree : Nat := 0
def jLoading : Nat := 1
def jRunning : Nat := 2
def jFaulted : Nat := 3
def jRestarting : Nat := 4
def jMoving : Nat := 5
def jWithdrawn : Nat := 6

def upFRAMESEQ : FD := roF 48 16
def upSENTRY : FD := roF 29 4
def upMISSED : FD := roF 27 2
def upALIGNED : FD := roF 26 1
def upSUSPECT : FD := rwF 25 1
def upBLOTTER : FD := roF 24 1
def upJIDX : FD := roF 16 8 0xFF
def upCLASS : FD := roF 3 2 3
def upPART : FD := roF 0 3

def SCHED (u e : Nat) : Nat := partBase + 0x2000 + u * 0x80 + e * 8
def scV : FD := rwF 63 1
def scBLOTTER : FD := rwF 62 1
def scJIDX : FD := rwF 48 8 0xFF
def scSTART : FD := rwF 0 15

/-! Redundancy of a unit (11 R305, R309), fence and progress (12 R341, R344), Sillage (13 R380). -/

def rgV : FD := rwF 15 1
def rgDETACHED : FD := rwF 14 1
def rgPOS : FD := rwF 12 2
def rgCMP : FD := rwF 8 3
def rgRG : FD := rwF 0 4
def sigSIG : FD := roF 0 64
def fnCAUSE : FD := roF 8 8
def fnUNFENCE : FD := woF 2 1
def fnDONE : FD := roF 1 1
def fnFENCE : FD := { lo := 0, w := 1, acc := .w1s, reset := 0 }
def prCOUNT : FD := roF 0 32

def SIL_CTRL : Nat := silBase + 0x23000
def SIL_STATUS : Nat := silBase + 0x23008
def SIL_TIME : Nat := silBase + 0x23010
def SIL_CLR0 : Nat := silBase + 0x23018
def SIL_CLR1 : Nat := silBase + 0x23020
def SIL_CLR2 : Nat := silBase + 0x23028
def SIL_NONCE0 : Nat := silBase + 0x23030
def SIL_NONCE1 : Nat := silBase + 0x23038
def SIL_AUTH : Nat := silBase + 0x23040
def silFREEZE : FD := rwF 0 1
def silLOSS : FD := roF 32 32
def silSTOREFAIL : FD := roF 1 1
def silLOADED : FD := roF 0 1
def silPC : FD := roF 32 32
def silSEC : FD := roF 0 32
def silCLRPC : FD := roF 32 32
def silCLRSEC : FD := roF 0 32
def silKEYID : FD := roF 32 32
def silCLRCOUNT : FD := roF 0 32
def silENTRY : FD := roF 8 7
def silSCOPE : FD := roF 0 1
def silNONCE : FD := roF 0 64
def silFAIL : FD := roF 44 4
def silADDR : FD := rwF 6 38
def silSTATUS : FD := roF 4 2
def silOP : FD := woF 0 2

/-! Island mailbox (12 R366). -/

def SAFE_STATUS : Nat := unitBlk 63 + 0x8000
def safREASON : FD := roF 56 8 0x40
def safINTEGRITY : FD := roF 32 2
def safSAFE : FD := roF 16 1 1
def safACTIVE : FD := roF 0 16 1
def ISL_STATUS : Nat := unitBlk 63 + 0x8008
def isHBB : FD := roF 7 1
def isHBA : FD := roF 6 1
def isEMITTER : FD := roF 5 1 1
def isBFAIL : FD := roF 4 1
def isAFAIL : FD := roF 3 1
def isBOK : FD := roF 1 1
def isAOK : FD := roF 0 1
def EMIT_CLAIM : Nat := unitBlk 63 + 0x8010
def ecBY : FD := roF 33 1 1
def ecTAKEOVER : FD := roF 32 1
def ecSEQ : FD := roF 0 32
def INTEG_CAUSE : Nat := unitBlk 63 + 0x8018
def icCAUSE : FD := roF 0 7
def QUAR_SEL : Nat := unitBlk 63 + 0x8020
def qsENTRY : FD := rwF 0 7
def QUAR_D0 : Nat := unitBlk 63 + 0x8028
def QUAR_D1 : Nat := unitBlk 63 + 0x8030
def QUAR_D2 : Nat := unitBlk 63 + 0x8038
def qdMASK : FD := roF 0 64
def qdBIN : FD := roF 8 7
def qdHOLDS : FD := roF 1 1
def qdALL : FD := roF 0 1

/-! Redundancy and comparison (11 R329). -/

def RED_STATUS : Nat := redBase
def rdSECS : FD := roF 32 32
def rdCMPOK : FD := roF 8 5
def rdTESTPASS : FD := roF 1 1
def rdOVERDUE : FD := roF 0 1
def RG_CFG (g : Nat) : Nat := redBase + 0x100 + g * 0x40
def rcV : FD := rwF 63 1
def rcKIND : FD := rwF 62 1
def rcTRIAD : FD := rwF 61 1
def rcCMP : FD := rwF 58 3
def rcJIDX : FD := rwF 50 8
def rcPART : FD := rwF 47 3
def rcM2 : FD := rwF 24 6
def rcM1 : FD := rwF 18 6
def rcM0 : FD := rwF 12 6
def RG_STAT (g : Nat) : Nat := RG_CFG g + 0x08
def rsLASTCKID : FD := roF 48 16
def rsHIST : FD := roF 32 16
def rsOUTCOME : FD := roF 20 4
def rsODD : FD := roF 18 2
def rsDETACHED : FD := roF 15 3
def rsPRESENT : FD := roF 12 3
def rsSTATE : FD := roF 10 2
def RG_SWITCH (g : Nat) : Nat := RG_CFG g + 0x10
def rwUNITA : FD := rwF 18 6
def rwUNITB : FD := rwF 12 6
def rwFAIL : FD := roF 8 4
def rwSTATUS : FD := roF 4 2
def rwOP : FD := woF 0 2
def RG_APST (g : Nat) : Nat := RG_CFG g + 0x18
def raLLANE : FD := rwF 44 5
def raBASE : FD := rwF 16 28
def RG_APSS (g : Nat) : Nat := RG_CFG g + 0x20
def raSLEN : FD := rwF 56 8
def raSBASE : FD := rwF 16 28
def RG_APREC (g : Nat) : Nat := RG_CFG g + 0x28
def rpVALID : FD := roF 19 1
def rpBANK : FD := roF 18 1
def rpPOS : FD := roF 16 2
def rpCKID : FD := roF 0 16
def RG_TGT (g t : Nat) : Nat := redBase + 0x800 + g * 0x40 + t * 8
def SOLO_TGT (c t : Nat) : Nat := redBase + 0x2000 + c * 0x40 + t * 8
def rtV : FD := rwF 63 1
def rtALT : FD := rwF 62 1
def rtSLOT : FD := rwF 4 6
def rtWIN : FD := rwF 0 4
def AP_CKPT (p : Nat) : Nat := redBase + 0x1000 + p * 0x10
def acLINES : FD := rwF 20 15
def acSTATUS : FD := roF 18 2
def acCKID : FD := rwF 0 16
def AP_SIG (p : Nat) : Nat := AP_CKPT p + 8

/-! The trigger generator, camera echoes, stream watch (08 R204, R208, R211). -/

def TRIG_CTRL : Nat := trigBase
def tgSTEP : FD := woF 8 1
def tgREFCH : FD := rwF 4 4
def tgMODE : FD := rwF 1 1
def tgENABLE : FD := rwF 0 1
def TRIG_STATUS : Nat := trigBase + 8
def tsREFSEQ : FD := roF 16 16
def tsHELD : FD := roF 1 1
def tsRUNNING : FD := roF 0 1
def TRIG_FS_CFG (n : Nat) : Nat := trigBase + 0x100 + n * 0x10
def fsWIDTH : FD := rwF 16 16
def fsPHASE : FD := rwF 8 4
def fsLDIV : FD := rwF 2 3
def fsPOL : FD := rwF 1 1
def fsEN : FD := rwF 0 1
def TRIG_FS_SEQ (n : Nat) : Nat := TRIG_FS_CFG n + 8
def fsSEQ : FD := rwF 0 16
def TRIG_LS_CFG (n : Nat) : Nat := trigBase + 0x200 + n * 8
def lsWIDTH : FD := rwF 32 16
def lsOFFSET : FD := rwF 16 16
def CAM_ECHO_CFG (n : Nat) : Nat := trigBase + 0x300 + n * 0x10
def ceBYTE : FD := rwF 4 12
def ceORDER : FD := rwF 1 1
def ceEN : FD := rwF 0 1
def CAM_ECHO_STAT (n : Nat) : Nat := CAM_ECHO_CFG n + 8
def cesEXPECT : FD := roF 48 16
def cesECHO : FD := roF 32 16
def cesRUN : FD := roF 8 4
def cesVERDICT : FD := roF 4 2
def cesSYNC : FD := roF 0 1
def STRM_CFG (n : Nat) : Nat := trigBase + 0x400 + n * 0x10
def scfPERIOD : FD := rwF 16 24
def scfRING : FD := rwF 8 8
def scfEN : FD := rwF 0 1
def STRM_STAT (n : Nat) : Nat := STRM_CFG n + 8
def sstARRIVAL : FD := roF 32 32
def sstSEEN : FD := roF 1 1
def sstSTALE : FD := roF 0 1

/-! The application-core block (17 R449 to R462). -/

def AP_CFG (p : Nat) : Nat := apBase + 0x9000 + p * 0x20
def apPARTB : FD := rwF 37 3
def apPARTA : FD := rwF 34 3
def apREQ : FD := woF 0 2
def AP_STAT (p : Nat) : Nat := AP_CFG p + 8
def apREQFAIL : FD := roF 8 4
def apFAILED : FD := roF 4 1
def apQUAR : FD := roF 3 1
def apGROUPED : FD := roF 2 1
def apMODE : FD := roF 0 2
def AP_SPLIT_PC (p : Nat) : Nat := AP_CFG p + 16
def AP_RESYNC_PC (p : Nat) : Nat := AP_CFG p + 24
def apPC : FD := rwF 0 64
def RIG_CTRL : Nat := apBase + 0x9200
def rigSEQ0 : FD := roF 16 16
def rigSTEP : FD := woF 2 1
def rigSLAVED : FD := roF 1 1
def rigREPLAY : FD := roF 0 1
def RIG_INJ : Nat := apBase + 0x9208
def injSTATUS : FD := roF 32 2
def injFAIL : FD := roF 28 4
def injCAM : FD := rwF 16 1
def injRING : FD := rwF 8 8
def injGO : FD := woF 0 1
def MTIMECMP (h : Nat) : Nat := apBase + 0x9400 + h * 8
def mtCMP : FD := rwF 0 64
def CIT (n : Nat) : Nat := apBase + 0xA000 + n * 8
def citV : FD := rwF 63 1
def citQUEUE : FD := rwF 49 14
def citHART : FD := rwF 45 4
def citFILE : FD := rwF 43 2
def citEIID : FD := rwF 0 8
/-- Job-statistics counter at offset `o` of job index `j` (17 R462). -/
def JOB_ST (j o : Nat) : Nat := 0xF0001040000 + j * 0x400 + o
def jtCOUNT : FD := roF 0 64

/-! The interface block (19 R490 to R510). -/

def CAM_CFG (n : Nat) : Nat := ifBase + n * 0x20
def ccHEIGHT : FD := rwF 48 16
def ccWIDTH : FD := rwF 32 16
def ccVC : FD := rwF 27 5
def ccDT : FD := rwF 21 6
def ccPART : FD := rwF 18 3
def ccLANES : FD := rwF 16 2 3
def ccLMAP : FD := rwF 8 8 0xE4
def ccPINV : FD := rwF 4 4
def ccEN : FD := rwF 0 1
def CAM_RING (n : Nat) : Nat := CAM_CFG n + 8
def crNSLOT : FD := rwF 44 4 1
def crBASE : FD := rwF 6 38
def CAM_STAT (n : Nat) : Nat := CAM_CFG n + 16
def csLINES : FD := roF 32 16
def csSLOT : FD := roF 16 4
def csLANEOK : FD := roF 12 4
def csSTATE : FD := roF 0 2
def CAM_DROP (n : Nat) : Nat := CAM_CFG n + 24
def RXR_CFG (r : Nat) : Nat := ifBase + 0x400 + r * 0x10
def rxEN : FD := rwF 63 1
def rxLNSLOT : FD := rwF 48 3 1
def rxBASE : FD := rwF 6 38
def RXR_FMT (r : Nat) : Nat := RXR_CFG r + 8
def rxFRAMES : FD := rwF 48 16 1
def rxSLOTK : FD := rwF 32 16 64
def rxCAPOFF : FD := rwF 16 16
def rxCAPBE : FD := rwF 0 1
def PORT (p : Nat) : Nat := ifBase + 0x1000 + p * 0x1000
def psASSYNC : FD := roF 7 1
def psSPEED : FD := roF 4 3
def psLINK : FD := roF 3 1
def psKIND : FD := roF 0 1
/-- IRQ and IRQ_EN of an interface block: six causes of a port, five of a CAN FD channel, three of PCIe (19 R510). -/
def irqBITS : FD := w1cF 0 6
def irqEN : FD := rwF 0 6
def irqENcan : FD := rwF 0 5
def irqENpcie : FD := rwF 0 3
def QBV_CTL (p : Nat) : Nat := PORT p + 0x20
def qvPENDING : FD := roF 49 1
def qvEN : FD := rwF 48 1
def qvNGCL : FD := rwF 32 9 1
def qvCYCLE : FD := rwF 0 32 1000000
def QBV_BASE (p : Nat) : Nat := PORT p + 0x28
def rw64 : FD := rwF 0 64
def PORT_DROP (p : Nat) : Nat := PORT p + 0x30
def QBV_GCL (p e : Nat) : Nat := PORT p + 0x400 + e * 8
def gcINTERVAL : FD := rwF 8 32
def gcGATES : FD := rwF 0 8 0xFF
def QCI_F (p f : Nat) : Nat := PORT p + 0xC00 + f * 0x10
def qfV : FD := rwF 63 1
def qfVID : FD := rwF 48 12
def qfDMAC : FD := rwF 0 48
def QCI_M (p f : Nat) : Nat := QCI_F p f + 8
def qmSDU : FD := rwF 48 16 9018
def qmRING : FD := rwF 40 8 0xFF
def qmCIR : FD := rwF 8 32
def qmCBS : FD := rwF 0 8
def CANB (c : Nat) : Nat := ifBase + 0x7000 + c * 0x1000
def CAN_CFG (c : Nat) : Nat := CANB c + 0x20
def cnNBR : FD := rwF 12 4 2
def cnDBR : FD := rwF 8 4 1
def cnEN : FD := rwF 0 1
def CANF (c k : Nat) : Nat := CANB c + 0x100 + k * 8
def cfV : FD := rwF 63 1
def cfIDE : FD := rwF 62 1
def cfMASK : FD := rwF 32 29
def cfID : FD := rwF 0 29
def UFSB : Nat := ifBase + 0x9000
def PCIEB : Nat := ifBase + 0xA000
def pcWIDTH : FD := roF 4 4
def pcGEN : FD := roF 1 3
def pcEP : FD := roF 0 1
def PCIE_CFGA : Nat := PCIEB + 0x20
def pgGO : FD := woF 32 1
def pgOP : FD := rwF 31 1
def pgDONE : FD := roF 30 1
def pgBUS : FD := rwF 20 8
def pgDEV : FD := rwF 15 5
def pgFN : FD := rwF 12 3
def pgREG : FD := rwF 0 12
def PCIE_CFGD : Nat := PCIEB + 0x28
def pdDATA : FD := rwF 0 32
def PCIE_WBASE : Nat := PCIEB + 0x30
def pwBASE : FD := rwF 16 48
/-- A ring group: RING, DB, PTR, TAIL (19 R490). Group 0 to 5 of transmit and 6 to 11 of receive are those of the
Ethernet ports, 12, 13 and 14, 15 those of the CAN FD channels. -/
def RING_GROUP (g : Nat) : Nat :=
  if g < 6 then PORT g + 0x40 else if g < 12 then PORT (g - 6) + 0x60
  else if g < 14 then CANB (g - 12) + 0x40 else CANB (g - 14) + 0x60

/-! The clock and supply block (18 R489). -/

def CLK_STATUS : Nat := clkBase
def ckPENDMODE : FD := roF 22 2
def ckPEND : FD := roF 21 1
def ckTHERM : FD := roF 12 4 4
def ckPWR : FD := roF 8 4 4
def ckDIV : FD := roF 4 4 4
def ckMODE : FD := roF 2 2 1
def ckLOCK : FD := roF 0 1
def PWR_STATUS : Nat := clkBase + 8
def pwVBUS : FD := roF 48 16
def pwIBUS : FD := roF 32 16
def pwPOWER : FD := roF 16 16
def pwCAP : FD := roF 0 16 0x0898
def PWR_FAULT : Nat := clkBase + 0x10
def pfSUPPLY : FD := roF 8 8 0xFF
def pfCODE : FD := roF 4 4
def pfV : FD := w1cF 0 1
def RST_STATUS : Nat := clkBase + 0x18
def rtWARM : FD := roF 8 1
def rtCAUSE : FD := roF 4 4
def COOL_STATUS : Nat := clkBase + 0x20
def coRISE : FD := roF 48 16
def coSTATE : FD := roF 0 2
def PWR_MON (n : Nat) : Nat := clkBase + 0x100 + n * 8
def pmTARGET : FD := roF 48 16
def pmVALUE : FD := roF 32 16
def pmON : FD := roF 2 1
def pmHIGH : FD := roF 1 1
def pmLOW : FD := roF 0 1
/-- THERM_d_LO at `k = 0`, THERM_d_HI at `k = 1`; sensor `i` of a register in bits `16 i + 15 : 16 i`. -/
def THERM (d k : Nat) : Nat := clkBase + 0x200 + d * 0x10 + k * 8
def thS (i : Nat) : FD := roF (16 * i) 16 0x8000
def TRIM (d : Nat) : Nat := clkBase + 0x400 + d * 8
def tmAGE : FD := roF 16 16
def tmLIMIT : FD := roF 8 1
def tmSTEPS : FD := roF 0 4

/-! The Flacon mailbox (14 R394). -/

def FLC_STATUS : Nat := flcBase
def flFSEC : FD := roF 32 32
def flLOGUSED : FD := roF 16 11
def flSESSION : FD := roF 13 1
def flRUNNING : FD := roF 12 1
def flLINKOK : FD := roF 11 1
def flFLAGS : FD := roF 0 8
def FLC_MEAS : Nat := flcBase + 8
def flDIST : FD := roF 32 32
def flSPEED : FD := roF 16 16
def flMSEQ : FD := roF 0 16
def FLC_CAL : Nat := flcBase + 0x10
def flSEAL : FD := roF 32 32
def flK : FD := roF 0 32
def FLC_SWID : Nat := flcBase + 0x18
def FLC_SWCRC : Nat := flcBase + 0x20
def flSWCRC : FD := roF 0 32
def FLC_CHAL (i : Nat) : Nat := flcBase + 0x28 + 8 * i
def FLC_FPC : Nat := flcBase + 0x38
def flFPC : FD := roF 0 32
def FLC_ODO : Nat := flcBase + 0x100
def foV : FD := rwF 32 1
def foSEQ : FD := rwF 16 16
def foSPEED : FD := rwF 0 16
def FLC_REQ : Nat := flcBase + 0x200
def frFAIL : FD := roF 44 4
def frBLOCKS : FD := roF 16 16
def frSTATUS : FD := roF 4 2
def frOP : FD := woF 0 3

/-- DIR_SEQ in the State Directory header (15 R415). -/
def DIR_HEAD : Nat := dirBase + 8
def dirSEQ : FD := roF 0 32

/-! The security block (15 R420). -/

def SEC_STATUS : Nat := secBase
def scNORFAIL : FD := roF 7 1
def scTRNG : FD := roF 6 1
def scPROV : FD := roF 5 1
def scERASE : FD := roF 4 1
def scDEBUG : FD := roF 3 1
def scLIFE : FD := roF 0 3
def SEC_NONCE (i : Nat) : Nat := secBase + 8 + 8 * i
def SEC_REQ : Nat := secBase + 0x18
def srFAIL : FD := roF 44 4
def srADDR : FD := rwF 6 38
def srSTATUS : FD := roF 4 2
def srOP : FD := woF 0 3
def SEC_FWU_PROG : Nat := secBase + 0x20
def fwBYTES : FD := roF 32 32
def fwINTER : FD := roF 9 1
def fwTARGET : FD := roF 4 4
def fwPHASE : FD := roF 0 4

/-! The fabric block: links and the guest (16 R435, R438, R440). -/

def LNK_STAT (l : Nat) : Nat := linkBase + l * 0x40
def lkRETRAINS : FD := roF 48 16
/-- BAD0 at `d = 0`, BAD1 at `d = 1`; WIDTH0 and WIDTH1 likewise. -/
def lkBAD (d : Nat) : FD := roF (32 + 8 * d) 8
def lkWIDTH (d : Nat) : FD := roF (4 + 2 * d) 2
def lkREROUTED : FD := roF 3 1
def lkSTATE : FD := roF 0 3
def LNK_RETRY (l : Nat) : Nat := LNK_STAT l + 8
def LNK_TEST (l : Nat) : Nat := LNK_STAT l + 16
def ltERRORS : FD := roF 32 32
def ltMODE : FD := rwF 0 2
def GST_STATUS : Nat := linkBase + 0x1000
def gtPOWER : FD := roF 32 32
def gtREASON : FD := roF 8 4
def gtFENCE : FD := { lo := 3, w := 1, acc := .w1s, reset := 0 }
def gtSTATE : FD := roF 0 3
def GST_PARAM : Nat := linkBase + 0x1008
def gpVENDOR : FD := roF 48 16
def gpDIE : FD := roF 32 16
def gpNQ : FD := roF 23 9
def gpNWIN : FD := roF 18 5
def gpPART : FD := roF 15 3
def gpRATE : FD := roF 8 5
def gpWIDTH : FD := roF 0 2
def GST_WIN (n : Nat) : Nat := linkBase + 0x1100 + n * 8
def gwV : FD := rwF 63 1
def gwLEN : FD := rwF 44 19
def gwBASE : FD := rwF 16 28

end Sys2Proof.Machine
end

