-- ==== Sys2Proof/Config.lean ====
section
/-! DEFINITION. The free values: constants without a body that stand for what the specification leaves
open. No proof can see what they are. Each is named in a log entry. -/

namespace Sys2Proof

/-- A fresh open value: the counter `State.free` is the argument and advances with each use (log 2). -/
opaque Config.fresh : Nat → Nat

/-- The prescale of RNORM in SOFTMAX mode, an FP32 encoding: its word has no SSC field although its rule
reads one (04 R110, R112; log 14). The arguments are the row's elements and its statistics pair (02 R46). -/
opaque Config.rnormPrescale : List Nat → List Nat → Nat

/-- By how much a value leaves the one that a stated definition gives, or that lies nearest to an exact one, where the
specification does not give its arithmetic (02 R46; 08 R220; log 82): which value it is, and what it depends on. -/
opaque Config.slack : Nat → List Nat → Nat

/-- What the Track engine's filter leaves open (08 R228, R231): the covariance of a measured velocity (three FP32 values), the
covariance at birth but for its stated entries, the heading of a record, what P_xx and P_yy gain beyond a horizon of 1.0 s. The
arguments are FP32 encodings: the state's 6 values, the covariance's 21, those of a detection. -/
opaque Config.trkVelNoise : List Nat → List Nat
opaque Config.trkBirthCov : List Nat → Nat → List Nat
opaque Config.trkHeading : List Nat → Nat → Nat
opaque Config.trkFarCov : List Nat → Nat → Nat × Nat

/-- Length and width of a detection class, from Glibor's class table (08 R233). -/
opaque Config.trkClass : Nat → Nat × Nat

/-- The cost of layer 8 where the tractor rear axle lies outside the grid (09 R248 states none): by the axle's x and y. -/
opaque Config.ruleOutside : Nat → Nat → Nat

/-- D_MIN of a candidate for which no disc was examined (09 R249 states no value). -/
opaque Config.dMinNone : Nat

/-- The islands' integration of odometry (09 R258, 19 R505): the pose (x, y, heading), the values (v, a, yaw
rate), all binary64, and nanoseconds give the pose after that time; and the speed after that time. The
specification says that the islands integrate and not how. -/
opaque Config.odoPose : List Nat → List Nat → Nat → List Nat
opaque Config.odoSpeed : Nat → Nat → Nat → Nat

/-- The curvature of a path of 32 points at an arc length (binary64), its end curvature beyond the last point,
and the curvature of a vehicle by speed and yaw rate (09 R260, R261): no formula is stated. -/
opaque Config.pathCurvature : List (Nat × Nat) → Nat → Nat
opaque Config.curvatureOf : Nat → Nat → Nat

/-- Articulation of a carried trajectory a time (ns) beyond its last state, from that state's speed, curvature and articulation
(09 R258 states none). -/
opaque Config.coastArtic : List Nat → Nat → Nat

/-- The plan-frame origin in the grid frame for a slot without a selection message (09 R256, R258): the last one and
the poses of both plan frames give it. No rule is stated. -/
opaque Config.carryOrigin : List Nat → List Nat → List Nat → List Nat

/-- What an island's checker reads where it has never formed a grid: layer, row, column (09 R255 states nothing). -/
opaque Config.noGrid : Nat → Nat → Nat → Nat

/-- Signatures, whose algorithms the specification takes from FIPS 186-5 and FIPS 204: whether a public key verifies a
signature of a message; byte `i` of a signature of a message with the identity key or the Flacon's device key, which may
draw on a random value (15 R396, R401; 14 R393). -/
opaque Config.ecdsaOk : List Nat → List Nat → List Nat → Bool
opaque Config.mldsaOk : List Nat → List Nat → List Nat → Bool
opaque Config.idkSig : Nat → List Nat → Nat → Nat
opaque Config.flcSig : Nat → List Nat → Nat → Nat

/-- What is fused or made at manufacture (15 R396, R398, R401, R419): byte `i` of DEVICE_ID, of the anchor of a target, of
the identity key page (0) and the Flacon's (1), of the Flacon's identifier, of the revisions (module, dies 0 to 20);
ORDER; the workshop trust list as pairs of key identifier and public key (14 R388). -/
opaque Config.deviceByte : Nat → Nat
opaque Config.anchorByte : Nat → Nat → Nat
opaque Config.keyPageByte : Nat → Nat → Nat
opaque Config.flcIdByte : Nat → Nat
opaque Config.workshopKeys : List (Nat × List Nat)
opaque Config.revByte : Nat → Nat
opaque Config.order : Nat

/-- The secrets of section 3 of a provisioning package: EPH_PUB and the section's data give them, or the tag fails (15
R412). -/
opaque Config.openSecrets : List Nat → List Nat → Option (List Nat)

/-- The address of the golden command block of an engine in the Blotter area (12 R347). -/
opaque Config.goldenBlock : Nat → Nat

/-- The credits (headers, data) that a receiver advertises at training, by `2 L + d` and class (16 R427 gives no numbers). -/
opaque Config.linkCredits : Nat → Nat → Nat × Nat

/-- Byte `i` of the SHA-512 digest of key `k` (0 IDK, 1 KAK, 2 SK) that write `n` of the key store brought (15 R415). -/
opaque Config.keyDigest : Nat → Nat → Nat → Nat

end Sys2Proof
end

