-- ==== Sys2Proof/Machine/CellState.lean ====
section
/-! DEFINITION. The architectural state of a cell, the barriers, the windows' state that no register
holds, and the messages in flight between units (03 R48, R60; 05 R131 to R136). -/

namespace Sys2Proof.Machine

/-- One entry of the loop stack (04 R90): start and end offsets, remaining count. -/
structure LoopEnt where
  start : Nat
  stop : Nat
  remaining : Nat
  deriving DecidableEq, Repr

/-- One entry of a stream queue (03 R53, R56, R75): the word, its program-store offset, its completed
steps and its bound operand values in the order of the encoding's fields; whether it has begun (its
wait token is taken) and whether its effect is done and only completion is outstanding. -/
structure QEntry where
  word : Word
  off : Nat
  steps : Nat := 0
  ops : List Nat := []
  begun : Bool := false
  done : Bool := false
  /-- The number of a store-stream instruction, and the error code of the first fault that the cell was
  told of for what it sent, zero for none (04 R115, R118; 05 R127). -/
  ins : Nat := 0
  bad : Nat := 0
  /-- The descriptors that the stream read as it began the instruction, by address (04 R83). -/
  descs : List (Nat × List Nat) := []
  deriving DecidableEq, Repr

/-- A stream (03 R54, R55, R79): its queue, head first; the offset of the last instruction it
completed; since when its head is stalled on a post (03 R59), in nanoseconds. -/
structure Stream where
  q : List QEntry := []
  lastPc : Nat := 0
  stall : Option Nat := none
  deriving DecidableEq, Repr

/-- A cell at a barrier (03 R61): waiting at it, released by a completed phase, or released by its
breaking (03 R64). -/
inductive BarWait where
  | none
  | waiting (b : Nat)
  | released (b : Nat)
  | broken (b : Nat)
  deriving DecidableEq, Repr

/-- A front-end post stalled at 255 (03 R59): token, offset of its instruction, since when. -/
structure FeStall where
  tok : Nat
  off : Nat
  since : Nat
  deriving DecidableEq, Repr

/-- The architectural state of a cell (03 R48). Registers, lanes and tile elements are sparse with
default zero: lane `l` of `Vr` is at `64 * r + l`, element `(m, n)` of `Tt` at `8192 * t + 64 * m + n`,
instruction word `i` of the program store at `i`. -/
structure Cell where
  s : Tab Word := []
  a : Tab (BitVec 48) := []
  v : Tab (BitVec 32) := []
  t : Tab (BitVec 32) := []
  tfp : Nat := 0
  tsat : Nat := 0
  k : Tab Nat := []
  loops : List LoopEnt := []
  calls : List Nat := []
  load : Stream := {}
  tensor : Stream := {}
  vector : Stream := {}
  store : Stream := {}
  prog : Tab Word := []
  fePc : Nat := 0
  feSteps : Nat := 0
  feStall : Option FeStall := none
  bar : BarWait := .none
  /-- The offset of the BAR that waits. -/
  barOff : Nat := 0
  /-- Store-stream instructions begun so far. -/
  storeSeq : Nat := 0
  /-- The running job belongs to the cell from this STOP request on (03 R74): a stop of an idle cell. -/
  idleStop : Bool := false
  /-- The job identifier that a restored image names, whose work item the program belongs to (03 R76); none: the item of the job
  on the cell. -/
  runs : Option Nat := none
  deriving DecidableEq, Repr

def Cell.reset : Cell := {}

/-- What a cell keeps of a job whose slot is over beside its state image (03 R61, R74, R76, R77): a wait at a barrier, a stalled
post, a stop of an idle cell, the item it belongs to, its streams with what no image holds of them, its STATE; whether a job reset
or a stop reached it meanwhile. -/
structure Held where
  bar : BarWait := .none
  barOff : Nat := 0
  feStall : Option FeStall := none
  idleStop : Bool := false
  runs : Option Nat := none
  load : Stream := {}
  tensor : Stream := {}
  vector : Stream := {}
  store : Stream := {}
  state : Nat := 0
  abandoned : Bool := false
  deriving DecidableEq, Repr

/-- A barrier record (03 R60), with the second arrivals held under 03 R63. -/
structure Barrier where
  members : Nat := 0
  arrived : Nat := 0
  lastSlot : Nat := 0
  lastValid : Bool := false
  broken : Bool := false
  owner : Nat := 0
  held : List Nat := []
  deriving DecidableEq, Repr

def Barrier.reset : Barrier := {}

/-- What travels between units and is judged where it arrives (05 R131, R134, R135; 11 R310). -/
inductive MsgBody where
  | write (addr : Nat) (bytes : List Byte)
  | commit (win : Nat)
  | release (win : Nat) (lane : Nat)
  | deposit (group ckid sig pos : Nat)
  deriving DecidableEq, Repr

/-- A message in flight: source slot, its partition, lane tag,
destination slot (a cell, 63 for the mailbox, 64 + u for comparison unit u, whose own slot is 64 + u as a
source), and the number of the
instruction of the source cell that sent it. -/
structure Msg where
  src : Nat
  part : Nat
  tag : Nat
  dst : Nat
  ins : Nat := 0
  body : MsgBody
  deriving DecidableEq, Repr

/-- What a window holds beside its registers (05 R133, R134): the written lines of the round, and an
advance that waits for its token: its lane, the source and the instruction number of its commit. -/
structure WinHold where
  written : List Nat := []
  wait : Option (Nat × Nat × Nat) := none
  deriving DecidableEq, Repr

/-- A region-table entry as it judges: RGN_LO and RGN_HI together (05 R144). -/
structure RgnOld where
  lo : Nat := 0
  hi : Nat := 0
  deriving DecidableEq, Repr

end Sys2Proof.Machine
end

