-- ==== Sys2Proof/Machine/EngineState.lean ====
section
/-! DEFINITION. What the engines hold beside their registers: an Image command in progress, the
key-value contexts and the registrations on them, the track records (06 R161, R168; 07 R183 to R189;
08 R227, R233). -/

namespace Sys2Proof.Machine

/-- An Image engine command in progress (06 R161, R168): the copies of its command block, profile and
mesh, the rows of Y, U and V that it has produced at level 0, when the last input line was seen. -/
structure ImgRun where
  blk : List Nat
  prof : List Nat
  mesh : List Nat
  ys : List (List Nat) := []
  us : List (List Nat) := []
  vs : List (List Nat) := []
  lastLine : Nat := 0
  deriving DecidableEq, Repr

/-- A context entry (07 R184). -/
structure Ctx where
  gen : Nat := 0
  len : Nat := 0
  tlen : Nat := 0
  start : Nat := 0
  /-- 0 FREE, 1 TRACK, 2 PLAN, 3 BLOTTER. -/
  kind : Nat := 0
  trackId : Nat := 0
  pages : List Nat := []
  deriving DecidableEq, Repr

/-- A registration on a context in arrival order (07 R186): the context, the engine that registered, a
writer or a reader, granted or waiting. -/
structure CtxReg where
  ctx : Nat
  by_ : Nat
  writer : Bool
  granted : Bool
  deriving DecidableEq, Repr

/-- A context that a command names: an entry of the context list, or of the header, whose `nq` is 0 (07 R178, R180). -/
structure CtxEnt where
  ctx : Nat
  nq : Nat := 0
  gen : Nat
  deriving DecidableEq, Repr

/-- A context command that waits at a home (07 R186): its header and descriptor slots, the contexts it
names with their expected generations as they were read, the homes still to be asked, in ascending order. -/
structure CtxCmd where
  blk : List Nat
  names : List CtxEnt
  homes : List Nat
  deriving DecidableEq, Repr

/-- The deletions and births of an UPDATE or DELETE that wait for the homes (08 R228, R231): contexts to
release, contexts to bind with kind and identifier, the homes still to be asked, the result's upper bits. -/
structure TrkWait where
  frees : List Nat
  binds : List (Nat × Nat × Nat)
  homes : List Nat
  high : Nat
  deriving DecidableEq, Repr

/-- A track record (08 R233): `st` the state x, y, v_x, v_y, a_x, a_y and `cov` the 21 upper-triangle
values row by row, as FP32. -/
structure Track where
  id : Nat := 0
  /-- 0 FREE, 1 TENTATIVE, 2 CONFIRMED. -/
  state : Nat := 0
  sector : Nat := 0
  misses : Nat := 0
  hits : Nat := 0
  cls : Nat := 0
  lastSeq : Nat := 0
  st : List Nat := []
  cov : List Nat := []
  length : Nat := 0
  width : Nat := 0
  heading : Nat := 0
  deriving DecidableEq, Repr

end Sys2Proof.Machine
end

