-- ==== Sys2Proof/Machine/FlaconState.lean ====
section
/-! DEFINITION. The Flacon's own state (14 R381 to R395). -/

namespace Sys2Proof.Machine

/-- An adjustment-log entry (14 R390). -/
structure FlcLog where
  seal_ : Nat := 0
  type : Nat := 0
  key : Nat := 0
  kOld : Nat := 0
  kNew : Nat := 0
  dist : Nat := 0
  fpc : Nat := 0
  fsec : Nat := 0
  swcrc : Nat := 0
  deriving DecidableEq, Repr

/-- The measuring store (14 R386): distance, remainder, k, the seal counter, the seal, power-ons, the log, the
active firmware bank. -/
structure Measure where
  dist : Nat := 0
  distSat : Bool := false
  acc : Nat := 0
  k : Nat := 1000
  sealCount : Nat := 0
  broken : Bool := false
  fpc : Nat := 0
  log : List FlcLog := []
  logFull : Bool := false
  bank : Nat := 0
  deriving DecidableEq, Repr

/-- An image transfer (14 R391): CRC and key of its command, the number of blocks needed once known. -/
structure Transfer where
  crc : Nat := 0
  key : Nat := 0
  need : Option Nat := none
  deriving DecidableEq, Repr

/-- The Flacon: the measuring store in force and as last written; whether it has power and its firmware runs; when VANA
rose; the pulses of the last second; faults and speed; plausibility and the samples in a row that are out of and within
its bound; the last odometry sequence sampled and when it changed; the challenge of the open session and when its last
command came; the transfer; the two firmware banks; the number of the last record. -/
structure Flacon where
  m : Measure := {}
  saved : Measure := {}
  on : Bool := false
  running : Bool := false
  onAt : Nat := 0
  pulses : List Nat := []
  lineFault : Bool := false
  overrange : Bool := false
  speed : Nat := 0
  impl : Bool := false
  stale : Bool := false
  bad : Nat := 0
  good : Nat := 0
  odoSeq : Nat := 0
  odoAt : Nat := 0
  chal : Option (List Nat) := none
  cmdAt : Nat := 0
  transfer : Option Transfer := none
  banks : Tab (List Nat) := []
  rseq : Nat := 0
  deriving DecidableEq, Repr

end Sys2Proof.Machine
end

