-- ==== Sys2Proof/Machine/IslandState.lean ====
section
/-! DEFINITION. What the safety islands hold beside registers (12 R342, R352 to R354). -/

namespace Sys2Proof.Machine

/-- One entry of the quarantine table and what island A evaluates for it (12 R352 to R354): quarantined
bins, the ALL flag, the bin of the last evaluation, whether the condition holds, whether the last
evaluation fell in a quarantined bin, and when it last did. -/
structure Quar where
  mask : Nat := 0
  all : Bool := false
  bin : Nat := 0
  holds : Bool := false
  hit : Bool := false
  heldAt : Nat := 0
  deriving DecidableEq, Repr

/-- The safe-state outputs (true: asserted), the extra status frames that are due (bit 0 of island A, bit
1 of island B), and for how many slots in a row a selection has passed step 1 or 2 (12 R356 to R359). -/
structure SafeOut where
  pinA : Bool := true
  pinB : Bool := true
  extra : Nat := 0
  passes : Nat := 0
  deriving DecidableEq, Repr

/-- Where an island sends its records (09 R265; 19 R503): IPv4 addresses and UDP ports of destination and source, TTL, DSCP. -/
structure IslNet where
  dst : Nat := 0
  dstPort : Nat := 0
  src : Nat := 0
  srcPort : Nat := 0
  ttl : Nat := 1
  dscp : Nat := 46
  deriving DecidableEq, Repr, Inhabited

/-- What the configuration store says (15 R408), as far as the device acts by it: the base of the Blotter
range of main memory (12 R346); the partitions of the Ethernet ports, the CAN FD channels and the PCIe
controller (19 R490); endpoint mode, RIG_READ, the base of BAR4 and its size (17 R458); replay and SEQ0
(17 R459); the partition of the UFS controller and of the cores of each pair (17 R453); the end-of-line camera poses as six FP32
values each (07 R194); the identifiers of status and odometry frames (09 R267, 19 R505);
where the islands send records (19 R503); the mode of the start
(15 R404); the planning job's publication block (09 R245); the jobs of the
start configuration as (partition, image number) (15 R404); the registers
that island A writes from it at a start, with their words: partition descriptors, region tables, application-core groups;
whether the store is valid. -/
structure Cfg where
  valid : Bool := false
  blotterBase : Nat := 0
  portPart : List Nat := []
  canPart : List Nat := []
  pciePart : Nat := 0
  ufsPart : Nat := 0
  epMode : Bool := false
  rigRead : Bool := false
  bar4Base : Nat := 0
  bar4Size : Nat := 0x40000000
  replay : Bool := false
  seq0 : Nat := 0
  apParts : List (Nat × Nat) := []
  eol : List (List Nat) := []
  statusIds : List Nat := [0x120, 0x121]
  odoId : Nat := 0x180
  nets : List IslNet := [{}, {}]
  mode : Nat := 1
  pubBlock : Nat := 0
  start : List (Nat × Nat) := []
  words : List (Nat × Nat) := []
  deriving DecidableEq, Repr, Inhabited

/-- What a configuration payload says: the specification does not give its layout (15 R408). -/
opaque Config.cfgOf : List Nat → Cfg

end Sys2Proof.Machine
end

