-- ==== Sys2Proof/Machine/LinkState.lean ====
section
/-! DEFINITION. Zwinis Links, the guest site and the test port (16 R422 to R442). -/

namespace Sys2Proof.Machine

/-- A direction of a link (16 R427 to R429): the transmitter's next sequence number, its unacknowledged packets (oldest
first), replay rounds in succession and when the ACK last advanced; the credits it holds by class (headers, data) and the
cumulative counts it last took; the receiver's expected sequence number, whether it discards until that number comes, the
NAK it sent last, the packets it passed on since its last start, and the cumulative credits it has returned; the packets that a
change of routes has put before any later one of their source, destination and class (16 R433). -/
structure LinkDir where
  next : Nat := 0
  unacked : List (Nat × List Nat) := []
  rounds : Nat := 0
  ackAt : Nat := 0
  hdr : Tab Nat := []
  dat : Tab Nat := []
  taken : Tab (Nat × Nat) := []
  expect : Nat := 0
  discard : Bool := false
  nak : Option Nat := none
  passed : Nat := 0
  returned : Tab (Nat × Nat) := []
  first : List (List Nat) := []
  deriving DecidableEq, Repr

/-- The guest (16 R436 to R440): its power samples of the last 100 ms, in mW, newest first; a withdrawal lasts until the
next cold start. -/
structure Guest where
  samples : List Nat := []
  withdrawn : Bool := false
  deriving DecidableEq, Repr

/-- The TAP controller of the I/O die (IEEE 1149.1): its state, instruction register, shift register, bypass bit,
TDO. -/
inductive TapState where
  | reset | idle | selDr | capDr | shDr | ex1Dr | pauseDr | ex2Dr | updDr
  | selIr | capIr | shIr | ex1Ir | pauseIr | ex2Ir | updIr
  deriving DecidableEq, Repr

structure TestPort where
  st : TapState := .reset
  ir : Nat := 0xFF
  shift : Nat := 0
  bypass : Bool := false
  tdo : Bool := false
  deriving DecidableEq, Repr

/-- All directions by `2 L + d`; the guest; the test port; when each compute die's bond last gave an uncorrectable word. -/
structure Links where
  dirs : Tab LinkDir := []
  guest : Guest := {}
  tap : TestPort := {}
  bonds : Tab (Option Nat) := []
  deriving DecidableEq, Repr

end Sys2Proof.Machine
end

