-- ==== Sys2Proof/Machine/PlanState.lean ====
section
/-! DEFINITION. What the islands hold of planning and records (09 R255 to R267; 12 R335 to R340). -/

namespace Sys2Proof.Machine

/-- A trajectory state (09 R240): encodings, FP32 in a record and binary64 inside an island. -/
structure TSt where
  x : Nat := 0
  y : Nat := 0
  th : Nat := 0
  v : Nat := 0
  a : Nat := 0
  k : Nat := 0
  g : Nat := 0
  deriving DecidableEq, Repr

/-- A trajectory record (09 R265). -/
structure Record where
  source : Nat := 3
  capability : Nat := 0
  seq : Nat := 0
  gridVersion : Nat := 0
  outTime : Nat := 0
  valid : Bool := false
  reason : Nat := 0
  emitter : Nat := 1
  carry : Nat := 0
  integrity : Nat := 0
  ddSrc : Nat := 0
  refSeq : Nat := 0
  vLimit : Nat := 0
  ddCover : Nat := 0
  traj : List TSt := []
  dd : List TSt := []
  deriving DecidableEq, Repr

/-- The 1.0 m grid of an island (09 R255): version, origin (FP32), layers 0 to 8 of 256 rows of 128 values. -/
structure GridCopy where
  version : Nat := 0
  ox : Nat := 0
  oy : Nat := 0
  layers : List (List Nat) := []
  deriving DecidableEq, Repr

/-- What one island holds for records: its last formed grid, the record prepared for the slot with the sequence it
will claim and the instant of its plan time 0; the record it sent or saw last, when that left, its plan time 0 and the
pose then; the plan-frame origin of the last selection message (OX, OY, OH); the sequence that its port received in
this slot; whether it waits for the peer's record (12 R338); its slot timing (12 R340): sequence and instant of its
frame, whether it has seen an event, the offset in ns still to correct; the mode of the slot that it prepared last, and the
sequence of the frame in which it did so. -/
structure IslPlan where
  grid : Option GridCopy := none
  slot : Option Record := none
  want : Nat := 0
  slotAt : Nat := 0
  last : Option Record := none
  leftAt : Nat := 0
  zeroAt : Nat := 0
  zeroPose : List Nat := [0, 0, 0]
  origin : List Nat := [0, 0, 0]
  got : Option Nat := none
  waits : Bool := false
  seq : Nat := 0
  at_ : Nat := 0
  synced : Bool := false
  offset : Int := 0
  mode : Option Nat := none
  checked : Option Nat := none
  deriving DecidableEq, Repr

/-- Planning and records: island A at 0, island B at 1; the Drydown that island A delivered for the next slot
(binary64); the last valid basis (576 bytes) with the pose of the plan frame it is in; since when CAPABILITY has been 3
in every record; level 4, with the reason that the next record shows; whether emission was handed over since the cold
start; the vehicle description; the certified candidates of each candidate set of this frame, by its address (13 R372); the
CHECK commands of this frame that await their second engine (R252): by engine, the block without OUT and the results; when
each selection notice arrived, by `65536 * partition + position` (R253). -/
structure Planning where
  isl : Tab IslPlan := []
  drydown : Option (List TSt) := none
  basis : List Nat := []
  basisPose : List Nat := [0, 0, 0]
  level3 : Option Nat := none
  held : Option Nat := none
  handed : Bool := false
  vehicle : List Nat := []
  certified : Tab Nat := []
  checks : Tab (List Nat × List (List Nat × Bool)) := []
  selAt : Tab Nat := []
  deriving DecidableEq, Repr

end Sys2Proof.Machine
end

