-- ==== Sys2Proof/Machine/QueueState.lean ====
section
/-! DEFINITION. Work items, completions, jobs and what a unit holds beside its registers
(10 R273, R275, R286, R289). -/

namespace Sys2Proof.Machine

/-- A work item in progress (03 R76, 10 R273): the queue and sequence number of its ring entry, and
the fields that are read from that entry, which stays in place. -/
structure WorkItem where
  queue : Nat := 0
  seq : Nat := 0
  jidx : Nat := 0xFF
  type : Nat := 1
  repl : Bool := false
  cut : Bool := false
  copy : Nat := 0
  part : Nat := 0
  rg : Nat := 0xFF
  cplq : Nat := 0xFFFF
  dlSeq : Nat := 0
  dlUs : Nat := 0xFFFF
  margin : Nat := 0
  prog : Nat := 0
  arg : Nat := 0
  cslot : Nat := 0
  tag : Nat := 0
  /-- When the unit took it. -/
  takenAt : Nat := 0
  deriving DecidableEq, Repr

/-- What a completion carries (10 R275) until it is posted. -/
structure Cpl where
  item : WorkItem := {}
  status : Nat := 0
  errMulti : Nat := 0
  errCode : Nat := 0
  errStream : Nat := 0
  errPc : Nat := 0
  result : Nat := 0
  deriving DecidableEq, Repr

/-- A schedule entry in force (10 R280). -/
structure SchedEnt where
  idx : Nat
  start : Nat
  blotter : Bool
  jidx : Nat
  deriving DecidableEq, Repr

/-- What a stop of a cell leads to once every request of the cell is answered (03 R74): a SNAP to an address by an initiator, or
the switch to a schedule entry. -/
inductive Pend where
  | snap (who : Who) (addr : Nat)
  | slot (e : SchedEnt)
  deriving DecidableEq, Repr

/-- What a unit slot holds beside its registers: the work item in progress of each job it serves
(03 R76), completions to post in order, the instant at which its frame began by its own counter
(10 R282), the suspect run (10 R300). -/
structure UnitRt where
  binds : Tab WorkItem := []
  comps : List Cpl := []
  frameAt : Nat := 0
  lastTotal : Nat := 0
  overRun : Nat := 0
  underRun : Nat := 0
  /-- An engine: the error code of the first fault it was told of for what its command wrote. -/
  told : Nat := 0
  /-- The schedule in force, and the last entry of the one before, which runs on until the first START (10 R280). -/
  sched : List SchedEnt := []
  lastEnt : Option SchedEnt := none
  /-- The job whose state the cell holds while its slot is over, and its STATE then (03 R77). -/
  holder : Nat := 0xFF
  heldState : Nat := 0
  /-- What the cell keeps of each job whose image stands in its context area (03 R77), by job index. -/
  held : Tab Held := []
  /-- What a stop of the cell leads to, in order (03 R74). -/
  pend : List Pend := []
  deriving DecidableEq, Repr

def UnitRt.reset : UnitRt := {}

/-! Image tables (10 R286, 11 R303). -/

structure UnitRec where
  slot : Nat
  pages : Nat
  div : Nat
  spadOff : Nat
  spadLen : Nat
  ctxOff : Nat
  deriving DecidableEq, Repr

structure Placement where
  modes : Nat
  reserve : Bool
  units : List UnitRec
  deriving DecidableEq, Repr

structure MemRec where
  base : Nat
  len : Nat
  perm : Nat
  deriving DecidableEq, Repr

structure QRec where
  lunit : Nat
  lidx : Nat
  ldepth : Nat
  cq : Bool
  pmode : Nat
  prio : Nat
  irq : Bool
  ring : Nat
  backup : Nat
  cplMax : Nat
  deriving DecidableEq, Repr

structure WinRec where
  lunit : Nat
  win : Nat
  lanes : Nat
  seals : Bool
  gtokEn : Bool
  gtok : Nat
  deriving DecidableEq, Repr

structure SlotRec where
  lunit : Nat
  start : Nat
  len : Nat
  deriving DecidableEq, Repr

structure BarRec where
  bid : Nat
  members : Nat
  deriving DecidableEq, Repr

/-- A release target of a group-table entry (11 R303). -/
structure TgtRec where
  lunit : Nat
  win : Nat
  alt : Bool
  deriving DecidableEq, Repr

/-- A group-table entry (11 R303): SIZE, logical members, targets, checkpoint-state ranges (OFF, LEN). -/
structure GroupRec where
  size : Nat
  members : List Nat
  targets : List TgtRec
  cks : List (Nat × Nat) := []
  deriving DecidableEq, Repr

/-- What admission granted to a job (10 R289, R291), beside JOB_STAT and the granted registers. -/
structure Job where
  imageId : Nat := 0
  image : Nat := 0
  cls : Nat := 0
  stall : Nat := 0
  attn : Bool := false
  vehicle : Bool := false
  places : List Placement := []
  mem : List MemRec := []
  queues : List QRec := []
  wins : List WinRec := []
  slots : List SlotRec := []
  bars : List BarRec := []
  groups : List GroupRec := []
  /-- The program range on each cell of the held placements: slot, PBASE, pages (10 R291). -/
  pbase : List (Nat × Nat × Nat) := []
  /-- The number of the group of each group-table entry; 0xFF for SIZE 1 (11 R303). -/
  groupNo : List Nat := []
  /-- The program segments: logical unit, destination in its range, words (03 R67). -/
  segs : List (Nat × Nat × List Nat) := []
  /-- When the job became FAULTED (12 R358). -/
  faultedAt : Nat := 0
  deriving DecidableEq, Repr

end Sys2Proof.Machine
end

