-- ==== Sys2Proof/Machine/RedState.lean ====
section
/-! DEFINITION. What a redundancy group holds beside its registers (11 R310 to R320). -/

namespace Sys2Proof.Machine

/-- An open comparison (11 R310): its checkpoint number, when it opened, the deposits as (position, signature) in
the order of arrival, and the lead once it has released. -/
structure Comparison where
  ckid : Nat := 0
  openedAt : Nat := 0
  deposits : List (Nat × Nat) := []
  lead : Option Nat := none
  deriving DecidableEq, Repr

/-- A group: the open comparison; the number of the one closed last and the positions whose deposit it missed; the
positions that erred without a deposit; those whose ENABLE step 1 of R317 cleared; lead and odd member of a
resynchronisation whose steps 3 to 5 are due; the pending switch, the solos of a JOIN that have reached their
boundary, abandoned copies of a switch; the checkpoint-state ranges. -/
structure Group where
  cmp : Option Comparison := none
  closed : Option Nat := none
  missing : Nat := 0
  erred : Nat := 0
  held : Nat := 0
  copy : Option (Nat × Nat) := none
  op : Nat := 0
  joined : List Nat := []
  tries : Nat := 0
  cks : List (Nat × Nat) := []
  deriving DecidableEq, Repr

end Sys2Proof.Machine
end

