-- ==== Sys2Proof/Machine/SensorState.lean ====
section
/-! DEFINITION. What the trigger generator, the camera receivers, the Ethernet ports, the stream rings, the
odometry receivers and the application cores hold beside their registers (08 R199 to R211; 17 R447 to R455;
19 R491 to R506). -/

namespace Sys2Proof.Machine

/-- A pulse on a pin: from when to when, and whether it is active low (08 R201, R202). -/
structure Pulse where
  start : Nat := 0
  stop : Nat := 0
  low : Bool := false
  deriving DecidableEq, Repr

/-- The configuration in force, which a write reaches only at a frame-start event while ENABLE is 1
(08 R203): mode, reference channel, TRIG_FS_CFG and TRIG_LS_CFG words by channel; when the last event
since ENABLE was set was emitted; the LSYNC pulses that are due with their instants; the last pulse
of each FSYNC and LSYNC pin. -/
structure Trig where
  slaved : Bool := false
  ref : Nat := 0
  fs : Tab Nat := []
  ls : Tab Nat := []
  lastEvent : Option Nat := none
  lsDue : Tab Nat := []
  fsLast : Tab Pulse := []
  lsLast : Tab Pulse := []
  deriving DecidableEq, Repr

/-- A frame in reception (19 R493, R494): its slot, the pulse it is attributed to, lines stored and damaged
ones, embedded bytes stored, whether an embedded line came, LONG, the verdict (0xFF none yet), the echo, and
when its last packet came. -/
structure CamFrame where
  slot : Nat := 0
  expect : Option Nat := none
  lines : Nat := 0
  bad : Nat := 0
  emb : Nat := 0
  hasEmb : Bool := false
  long : Bool := false
  verdict : Nat := 0xFF
  echo : Option Nat := none
  lastRef : Nat := 0
  lastUs : Nat := 0
  lastAt : Nat := 0
  deriving DecidableEq, Repr

/-- A camera receiver: the next slot, the frame in reception, the sequence of the last pulse on its FSYNC
channel, whether a frame was attributed to it, ABSENT verdicts in succession (08 R205 to R207). -/
structure CamRt where
  next : Nat := 0
  frame : Option CamFrame := none
  pulse : Option Nat := none
  used : Bool := false
  absent : Nat := 0
  deriving DecidableEq, Repr

/-- An Ethernet port, 0 to 5, or an island port, 6 and 7 (19 R497, R499, R500): port time `base` at device
time `at_`, the gate-control list in force with its cycle, the entry in force and when it and its cycle began
in port time, the flow meters' tokens in bits with the port time they were counted at, the last frame it sent (of an
island's port the payload, with the IPv4 packets that carried it), and the descriptors sent before an earlier one, by sequence number. At 8 and 9 the last frame of each CAN FD channel, at
10 the last request that left the PCIe port. -/
structure PortRt where
  base : Nat := 0
  at_ : Nat := 0
  qbvOn : Bool := false
  gcl : List (Nat × Nat) := []
  cycle : Nat := 1000000
  idx : Nat := 0
  entryAt : Nat := 0
  cycleAt : Nat := 0
  meters : Tab (Nat × Nat) := []
  sent : List Nat := []
  packets : List (List Nat) := []
  early : List Nat := []
  deriving DecidableEq, Repr

/-- A stream ring (19 R501, R502): the next slot; the FILLING slot with capture time, frames and bytes; the
capture time of a sample that is being discarded. -/
structure RxRing where
  next : Nat := 0
  filling : Option (Nat × Nat × Nat × Nat) := none
  dead : Option Nat := none
  deriving DecidableEq, Repr

/-- A watched stream: the port and full ingress time of its newest sample (08 R210). -/
structure StrmRt where
  port : Nat := 0
  ingress : Nat := 0
  deriving DecidableEq, Repr

/-- Odometry as an island last accepted it (19 R505): sequence, flags, speed, acceleration, yaw rate and
articulation as in the frame, when it came, whether it is stale; the pose integrated up to then (binary64), and
since when the speed has been below 0.1 m/s. -/
structure OdoRt where
  seq : Option Nat := none
  flags : Nat := 0
  speed : Nat := 0
  accel : Nat := 0
  yaw : Nat := 0
  artic : Nat := 0
  at_ : Nat := 0
  stale : Bool := false
  pose : List Nat := [0, 0, 0]
  slowSince : Option Nat := none
  deriving DecidableEq, Repr

/-- The application cores (17 R447, R448): each hart's combining buffer (doorbell and words by offset / 8), when
the time counters were cleared, the harts whose machine timer interrupt is pending, bit by hart. -/
structure Comb where
  q : Nat := 0
  words : Tab Nat := []
  deriving DecidableEq, Repr

structure AppCores where
  comb : Tab Comb := []
  timeAt : Nat := 0
  mtip : Nat := 0
  /-- Pairs that are halted (17 R455), bit by pair. -/
  halted : Nat := 0
  /-- Where each core last started: entry, a0, a1 (17 R454, R456). -/
  starts : Tab (Nat × Nat × Nat) := []
  /-- Pairs whose AP_CKPT write is held (17 R456), bit by pair. -/
  ckptHeld : Nat := 0
  deriving DecidableEq, Repr

end Sys2Proof.Machine
end

