-- ==== Sys2Proof/Machine/SillageState.lean ====
section
/-! DEFINITION. What the Sillage recorder holds beside its registers (13 R368 to R373). -/

namespace Sys2Proof.Machine

/-- An extreme record (13 R372). -/
structure Extreme where
  min : Int := 0
  max : Int := 0
  minPc : Nat := 0
  minSec : Nat := 0
  maxPc : Nat := 0
  maxSec : Nat := 0
  valid : Bool := false
  deriving DecidableEq, Repr

/-- Sillage (13 R368 to R373): bin `b` of histogram `h` at `64 * h + b`, saturated flags likewise, the
extreme records by index; the events that have no bin (log 88). -/
structure Sillage where
  hist : Tab Nat := []
  sat : Tab Bool := []
  ext : Tab Extreme := []
  unbinned : Nat := 0
  deriving DecidableEq, Repr

end Sys2Proof.Machine
end

