-- ==== Sys2Proof/Machine/SuperState.lean ====
section
/-! DEFINITION. What island supervision, power and thermal control, and calibration hold (07 R193, R194;
12 R333 to R345, R362; 18 R468 to R487). -/

namespace Sys2Proof.Machine

/-- An island (12 R333, R334): the last edge of its heartbeat; when it failed; failures in this power cycle. -/
structure IslRt where
  edgeAt : Nat := 0
  failedAt : Option Nat := none
  fails : Nat := 0
  deriving DecidableEq, Repr

/-- The failure detector's view of a unit (12 R342): COUNT at the last sample, the stall time in ns, when it was
sampled. -/
structure Stall where
  count : Nat := 0
  stall : Nat := 0
  at_ : Nat := 0
  deriving DecidableEq, Repr

/-- The golden work of one BLOTTER entry (12 R347): a cell's pattern; FWD over a Blotter context, on BF16 in odd frames and on FP8
in even ones; LIFT, SCATTER or RASTER; a set of candidates; FRAME in RAW10, RAW12, RAW16 or YUV422; UPDATE of the Blotter
contexts. -/
inductive Golden where
  | cell (pattern : Nat)
  | attn (ctx : Nat) (bf16 : Bool)
  | grid (op : Nat)
  | check
  | image (format : Nat)
  | track
  deriving DecidableEq, Repr

/-- Supervision: both islands; the detector; units that passed re-initialisation (12 R345); when each warm reset of
the last ten minutes began; when the last warm reset began and t_WARM for it, until its first valid record; whether it
has begun and the start has not; frames in a row in
which every unit was ALIGNED; when island A was powered, tested the comparison units, last wrote the Sillage
image; when FREEZE was last written 1; when each nonce was drawn; the queue and sequence number of each item whose
backup copy was pushed (10 R298); image and partition of each class-D job that was lost (12 R358); the frame of a
suspect unit's extra golden items and their number (12 R351); each unit's last golden work and its position in the coverage
sequence (12 R349). -/
structure Super where
  isl : Tab IslRt := []
  stall : Tab Stall := []
  reinit : Tab Bool := []
  warmAt : List Nat := []
  warmSince : Option Nat := none
  warmLimit : Nat := 0
  warmBegun : Bool := false
  alignedFrames : Nat := 0
  islOnAt : Nat := 0
  testedAt : Nat := 0
  silSavedAt : Nat := 0
  freezeAt : Nat := 0
  silNonceAt : Nat := 0
  secNonceAt : Nat := 0
  copies : List (Nat × Nat) := []
  lost : List (Nat × Nat) := []
  extras : Tab (Nat × Nat) := []
  golden : Tab (Option Golden) := []
  goldenPos : Tab Nat := []
  deriving DecidableEq, Repr

/-- Power, resets and thermal control. Supplies (18 R472 to R477): PWR_EN and PWR_GOOD; whether the sequencer runs, the rail groups
in tolerance and when the last one was; when PWR_EN last rose or fell; since when each of the five supplies has been in tolerance; the
sequencing fault that refuses PWR_EN, whether one was latched since the last start that succeeded, and which of VIO (bit 0)
and VANA (bit 1) have fallen below 0.3 V since; when a main-domain monitor was last out of range; since when VBUS has been
below 11.5 V. Resets (18 R478, R479): what holds the main domain (bit 0 PORST_N, 1 RESET_N, 2 thermal trip, 3 clock fault,
4 loss of VBUS); whether island A released it after the last reset. Dividers and modes (18 R468 to R471): the steps that wait
for an event and when each last moved; the power samples of the last 10 ms, in mW, newest first; since when power has been
low; from when a pending mode change may take effect. Temperature (18 R481 to R485): the last 1 ms sample and the hot ones
in a row; since when the device Tj has been below 100 °C, and at most 110 °C; when the histograms were last counted; sum and
number of the power samples of this coolant window; the earlier windows as (sum of the base dies' Tj in 0.1 °C, mean power),
newest first; the suspicious ones in a row; since when no window has risen. Ageing (18 R487): the trims that wait for an
event; the last measurement. -/
structure Power where
  en : Bool := false
  good : Bool := false
  seqOn : Bool := false
  groups : Nat := 0
  groupAt : Nat := 0
  offAt : Nat := 0
  tolSince : Tab (Option Nat) := []
  refused : Bool := false
  newFault : Bool := false
  fell : Nat := 0
  outAt : Nat := 0
  vbusLow : Option Nat := none
  hold : Nat := 0
  released : Bool := false
  thermNext : Option Nat := none
  thermAt : Option Nat := none
  pwrNext : Option Nat := none
  pwrAt : Option Nat := none
  samples : List Nat := []
  lowSince : Option Nat := none
  modeAt : Nat := 0
  msAt : Nat := 0
  hot : Nat := 0
  below100 : Option Nat := none
  below110 : Option Nat := none
  histAt : Nat := 0
  winSum : Nat := 0
  winN : Nat := 0
  windows : List (Nat × Nat) := []
  rising : Nat := 0
  quietSince : Option Nat := none
  trimNext : Tab Nat := []
  ageAt : Nat := 0
  deriving DecidableEq, Repr

/-- One applied update of the last 3,600 s (07 R193): angle and length (FP32), and when it leaves the list. -/
structure CalEnt where
  angle : Nat := 0
  len : Nat := 0
  ends : Nat := 0
  deriving DecidableEq, Repr

/-- Calibration (07 R193, R194): each camera's pose in force, the pose that the next frame-start event brings into
force, its one-hour list; the result of the last update of each partition; whether a change is unwritten; when the
store was last written. -/
structure Calib where
  poses : Tab (List Nat) := []
  next : Tab (List Nat) := []
  list : Tab (List CalEnt) := []
  results : Tab Nat := []
  dirty : Bool := false
  savedAt : Nat := 0
  /-- Changes of the poses in force (15 R416). -/
  changes : Nat := 0
  deriving DecidableEq, Repr

end Sys2Proof.Machine
end

