-- ==== Sys2Proof/Machine/StoreState.lean ====
section
/-! DEFINITION. The two-bank stores, identity and lifecycle (15 R396 to R414; 18 R476). -/

namespace Sys2Proof.Machine

/-- What the Sillage image holds (13 R379): the recorder's contents and, in the order of their registers, FREEZE_LOSS,
CLR_COUNT, KEY_ID, SCOPE, ENTRY, CLR_PC and CLR_SEC. -/
structure SilImage where
  sil : Sillage := {}
  regs : List Nat := []
  deriving DecidableEq, Repr

/-- The payload of a store, by what it holds; a calibration payload holds each camera's end-of-line and current
pose, its list of angle, length and remaining life in ns, and the trim of each die (07 R194; 18 R487). The stores of island MRAM hold numbers: the key store 1 for each of IDK, KAK and SK that
it holds; the lifecycle; PENDING and TARGET; the power-cycle count and the preferred bank; the preferred bank; the bytes
of a trust list. -/
inductive StoreVal where
  | config (raw : List Nat)
  | calib (eol : List (List Nat)) (poses : Tab (List Nat)) (list : Tab (List (Nat × Nat × Nat))) (trims : Tab Nat)
  | quar (t : Tab (Nat × Bool))
  | sil (i : SilImage)
  | data (l : List Nat)
  deriving DecidableEq, Repr

/-- A valid bank: its sequence number and payload. -/
structure Bank where
  seq : Nat
  val : StoreVal
  deriving DecidableEq, Repr

/-- A two-bank store (15 R405 to R408): its valid banks and the write in progress. -/
structure Store where
  b0 : Option Bank := none
  b1 : Option Bank := none
  wr : Option StoreVal := none
  deriving DecidableEq, Repr

/-- Identity and lifecycle beside the stores (15 R396 to R414): the outstanding nonces of the security block and of
Sillage; the image in firmware bank `2 * target + bank`; the fused security-version floor, and the image that runs, by
target; the NOR devices that failed, bit by device; the fuses of leaving MANUFACTURE and of RETIRED; whether a firmware
update is in progress. -/
structure Sec where
  nonce : Option (List Nat) := none
  silNonce : Option (List Nat) := none
  fw : Tab (List Nat) := []
  floor : Tab Nat := []
  running : Tab (List Nat) := []
  norFailed : Nat := 0
  left : Bool := false
  retired : Bool := false
  update : Bool := false
  deriving DecidableEq, Repr

/-- The stores of a module that has been manufactured and not yet provisioned (log 24). -/
def Store.made : Tab Store :=
  [(0x10, { b0 := some { seq := 1, val := .data [1, 1, 0] } }), (0x11, { b0 := some { seq := 1, val := .data [0] } }),
   (0x12, { b0 := some { seq := 1, val := .data [0, 0] } })]

end Sys2Proof.Machine
end

