-- ==== Sys2Proof/Machine/State.lean ====
section
/-! DEFINITION. The state of the device as plain data: the register fields by address, memory, and the
state of each unit and service that no register holds. -/

namespace Sys2Proof.Machine

/-- Nothing stops the device with a fault: every error the specification names leaves a next state
(03 R71, 06 R169, 10 R275). -/
inductive Fault where
  deriving DecidableEq, Repr

/-- Why a command has no next state. -/
inductive Refusal where
  /-- The command's meaning is not written (raised by `exec` only; safe). -/
  | notModelled (mnemonic : String)
  deriving DecidableEq, Repr

structure State where
  /-- The commands that wait, first in first out. -/
  pending : List Instr
  /-- Nanoseconds since power-on (log 1). -/
  now : Nat
  /-- The counter behind `Config.fresh` (log 2). -/
  free : Nat
  /-- Register fields, by `FD.key`, each with its reset value as default. -/
  regs : Tab Nat
  /-- Memory bytes: main memory, scratchpads, common stores, mailbox window storage (01 R17). -/
  mem : Tab Byte
  /-- Words with a memory error, by address / 8: 1 a single-bit error, 2 an uncorrectable one. The
  program store of cell `c` stands at `2^43 + c * 32768`. -/
  ecc : Tab Nat
  /-- The word each bank last corrected in this power cycle, by bank number (05 R128). -/
  lastFix : Tab Nat
  cells : Tab Cell
  barriers : Tab Barrier
  wins : Tab WinHold
  msgs : List Msg
  /-- Region-table entries in force, by `64 * partition + entry` (05 R143). -/
  rgnCur : Tab RgnOld
  /-- Old entries that an injection point still judges by, by `rgnKey` (05 R144). -/
  rgnOld : Tab RgnOld
  /-- Lines of each GDDR6 channel that gave uncorrectable errors, with when (05 R142). -/
  chErrs : Tab (List (Nat × Nat))
  /-- Lines of main memory whose next transfer fails for good, by address / 64 (05 R140). -/
  edc : List Nat
  /-- Slots whose fence bit is set in the mask copy of a scratchpad port, by `128 * port + slot`. -/
  portFence : Tab Bool
  sil : Sillage
  units : Tab UnitRt
  /-- Ring positions whose entry island A pushed (10 R298), by `65536 * queue + position`. -/
  qIsland : Tab Bool
  jobs : Tab Job
  /-- Pending identities of the interrupt files (17 R450): `(5 * hart + file) * 256 + identity`, file 0
  the supervisor-level file, 1 to 3 the guest files, 4 the machine-level file. -/
  imsic : Tab Bool
  /-- Raised APLIC sources, bit by source number (17 R450). -/
  aplic : Nat
  /-- The quarantine table, by slot; 64 + p for the pair APp (12 R354); 72 + b for the exclusion of a common store (05 R128). -/
  quar : Tab Quar
  safe : SafeOut
  trig : Trig
  cams : Tab CamRt
  ports : Tab PortRt
  rxRings : Tab RxRing
  strms : Tab StrmRt
  /-- Odometry of island A at 0 and of island B at 1. -/
  odo : Tab OdoRt
  ap : AppCores
  /-- Image commands in progress, by slot (06 R168). -/
  imgs : Tab ImgRun
  /-- The replica of the context table in each Attention engine: context `n` of engine `e` at
  `8192 * e + n` (07 R183, R184). -/
  ctx : Tab Ctx
  ctxRegs : List CtxReg
  /-- Context commands that wait for grants, by slot (07 R186). -/
  ctxCmds : Tab CtxCmd
  /-- What the Track engine's command still owes the Attention engines (08 R228). -/
  trkWait : Option TrkWait
  /-- The track records, by context (08 R227, R233). -/
  tracks : Tab Track
  /-- TRK_NEXT_ID as island A read it at the last frame-start event (08 R230). -/
  nextIdRead : Nat
  /-- The content of the configuration store as the last start loaded it (15 R408). -/
  cfg : Cfg
  plan : Planning
  /-- Redundancy groups (11 R302). -/
  groups : Tab Group
  sup : Super
  pow : Power
  cal : Calib
  /-- The two-bank stores by STORE_ID (15 R408), and the shutdown buffer (18 R476). -/
  stores : Tab Store
  shut : Tab StoreVal
  ident : Sec
  flc : Flacon
  links : Links
  /-- The payloads of the configuration and of the calibration store as the last start loaded them (15 R417). -/
  loadedCfg : List Nat
  loadedCal : List Nat
  deriving DecidableEq, Repr

def State.reset : State :=
  { pending := [], now := 0, free := 0, regs := [], mem := [], ecc := [], lastFix := [], cells := [],
    barriers := [], wins := [], msgs := [], rgnCur := [], rgnOld := [], chErrs := [], edc := [], portFence := [], sil := {},
    units := [], qIsland := [], jobs := [], imsic := [], aplic := 0, quar := [], safe := {}, trig := {}, cams := [], ports := [], rxRings := [], strms := [], odo := [], ap := {},
    imgs := [], ctx := [], ctxRegs := [], ctxCmds := [], trkWait := none, tracks := [], nextIdRead := 1, cfg := {}, plan := {}, groups := [], sup := {}, pow := {}, cal := {}, stores := Store.made, shut := [], ident := {}, flc := {},
    links := {}, loadedCfg := [], loadedCal := [] }

end Sys2Proof.Machine
end

