-- ==== Sys2Proof/Machine/Ops.lean ====
section
/-! DEFINITION. The named operations over registers, memory, units, cells and Sillage that every
meaning is written with. -/

namespace Sys2Proof.Machine

/-! Register fields (00 R4 to R6, R11). -/

/-- The value of field `f` of the register at address `a`. -/
def State.getF (s : State) (a : Nat) (f : FD) : Nat := Tab.get f.reset s.regs (f.key a)

/-- Write field `f` of the register at `a`; the value is cut to the field's width. -/
def State.setF (s : State) (a : Nat) (f : FD) (v : Nat) : State :=
  { s with regs := Tab.set f.reset s.regs (f.key a) (v % 2 ^ f.w) }

/-- Bring a field to its reset value. -/
def State.clrF (s : State) (a : Nat) (f : FD) : State := s.setF a f f.reset

/-- The flag held in a one-bit field. -/
def State.flag (s : State) (a : Nat) (f : FD) : Bool := decide (s.getF a f = 1)

/-- Write the fields `fs` of the register at `a` from the word `w`. -/
def State.loadF (s : State) (a : Nat) (fs : List FD) (w : Nat) : State :=
  fs.foldl (fun s f => s.setF a f (f.of w)) s

/-- The word that the fields `fs` of the register at `a` make up. -/
def State.wordF (s : State) (a : Nat) (fs : List FD) : Nat :=
  fs.foldl (fun w f => w + s.getF a f % 2 ^ f.w * 2 ^ f.lo) 0

/-- A one-bit value. -/
def b2n (b : Bool) : Nat := if b then 1 else 0

/-- Serial-number arithmetic on `n` bits (00 R10): `a` is newer than `b`. -/
def newer (n a b : Nat) : Bool :=
  let d := (a + 2 ^ n - b % 2 ^ n) % 2 ^ n
  decide (1 ≤ d ∧ d ≤ 2 ^ (n - 1) - 1)

/-- `a − b` on `n` bits. -/
def subMod (n a b : Nat) : Nat := (a % 2 ^ n + 2 ^ n - b % 2 ^ n) % 2 ^ n

/-- Count up to a limit and stay there (00 R12). -/
def satInc (limit v : Nat) : Nat := if v < limit then v + 1 else limit

/-! Time and free values. -/

/-- A timed event falls at instant `t`; time never runs back (log 1). -/
def State.at (s : State) (t : Nat) : State := { s with now := max s.now t }

/-- A fresh open value below `m` (log 2). -/
def State.fresh (s : State) (m : Nat) : Nat × State :=
  (Config.fresh s.free % m, { s with free := s.free + 1 })

def us (n : Nat) : Nat := n * 1000
def ms (n : Nat) : Nat := n * 1000000
def sec (n : Nat) : Nat := n * 1000000000

/-! Memory (01 R17, 00 R4). -/

/-- The byte at `a`; memory that nothing has written reads zero (05 R124). -/
def State.byte (s : State) (a : Nat) : Byte := Tab.get 0 s.mem a

def State.setByte (s : State) (a : Nat) (b : Byte) : State :=
  { s with mem := Tab.set 0 s.mem a b }

/-- `n` bytes from `a`, as numbers. -/
def State.bytes (s : State) (a n : Nat) : List Nat :=
  (List.range n).map (fun i => (s.byte (a + i)).toNat)

/-- The little-endian value of `n` bytes at `a`. -/
def State.le (s : State) (a : Nat) : Nat → Nat
  | 0 => 0
  | n + 1 => (s.byte a).toNat + 256 * s.le (a + 1) n

/-- The little-endian value of a list of bytes. -/
def leOf : List Nat → Nat
  | [] => 0
  | b :: t => b + 256 * leOf t

/-- The `n` low bytes of `v`, lowest first. -/
def bytesOf : Nat → Nat → List Nat
  | 0, _ => []
  | n + 1, v => v % 256 :: bytesOf n (v / 256)

def byteList (l : List Nat) : List Byte := l.map (fun x => BitVec.ofNat 8 x)

/-- Write bytes from address `a` upward. -/
def State.putBytes (s : State) (a : Nat) : List Byte → State
  | [] => s
  | b :: t => (s.setByte a b).putBytes (a + 1) t

/-- Write `v` in `n` bytes, little-endian. -/
def State.putLe (s : State) (a n v : Nat) : State := s.putBytes a (byteList (bytesOf n v))

/-- A new word written in full carries valid check bits (05 R126). -/
def State.eccClear (s : State) (a n : Nat) : State :=
  { s with ecc := s.ecc.filter (fun (w, _) => !(decide (a ≤ w * 8 ∧ w * 8 + 8 ≤ a + n))) }

/-- A write of bytes with valid check bits in every word it covers in full (05 R126). -/
def State.store (s : State) (a : Nat) (bs : List Byte) : State :=
  (s.putBytes a bs).eccClear a bs.length

/-- An uncorrectable error stands in one of the words that `[a, a + n)` touches (05 R127). -/
def State.uncorrectable (s : State) (a n : Nat) : Bool :=
  decide (0 < n) && s.ecc.any (fun (w, k) => decide (k = 2 ∧ a < w * 8 + 8 ∧ w * 8 < a + n))

/-- Where an access lies (01 R17). -/
inductive Place where
  | main
  | spad (c : Nat)
  | cs (b : Nat)
  | unit (u : Nat)
  | regs
  | none
  deriving DecidableEq, Repr

/-- The one mapped resource that holds every byte of `[a, a + n)` (01 R17, 04 R86). -/
def place (a n : Nat) : Place :=
  if n + a ≤ mainSize then .main
  else if a ≥ spadBase 0 ∧ a < spadBase 48 then
    let c := (a - spadBase 0) / 0x1000000
    if n + a ≤ spadBase c + spadSize then .spad c else .none
  else if a ≥ csBase 0 ∧ a < csBase 4 then
    let b := (a - csBase 0) / 0x8000000
    if n + a ≤ csBase b + csSize then .cs b else .none
  else if a ≥ unitBlk 0 ∧ a < unitBlk 64 then
    let u := (a - unitBlk 0) / 0x10000
    if n + a ≤ unitBlk u + 0x10000 then .unit u else .none
  else if (a ≥ dirBase ∧ n + a ≤ 0xF0001A00000) ∨ (a ≥ bellBase ∧ n + a ≤ 0xF0002100000) then .regs
  else .none

/-! Units and cells. -/

def State.unit (s : State) (u : Nat) : UnitRt := Tab.get UnitRt.reset s.units u
def State.setUnit (s : State) (u : Nat) (x : UnitRt) : State :=
  { s with units := Tab.set UnitRt.reset s.units u x }
def State.cell (s : State) (c : Nat) : Cell := Tab.get Cell.reset s.cells c
def State.setCell (s : State) (c : Nat) (x : Cell) : State :=
  { s with cells := Tab.set Cell.reset s.cells c x }
def State.barrier (s : State) (b : Nat) : Barrier := Tab.get Barrier.reset s.barriers b
def State.setBarrier (s : State) (b : Nat) (x : Barrier) : State :=
  { s with barriers := Tab.set Barrier.reset s.barriers b x }
def State.job (s : State) (j : Nat) : Job := Tab.get {} s.jobs j
def State.setJob (s : State) (j : Nat) (x : Job) : State := { s with jobs := Tab.set {} s.jobs j x }
def State.winHold (s : State) (u n : Nat) : WinHold := Tab.get {} s.wins (u * 16 + n)
def State.setWinHold (s : State) (u n : Nat) (x : WinHold) : State :=
  { s with wins := Tab.set {} s.wins (u * 16 + n) x }

/-- DIR_SEQ rises where a grant or the service state of a unit changes (15 R415). -/
def State.dirChange (s : State) : State := s.setF DIR_HEAD dirSEQ (s.getF DIR_HEAD dirSEQ + 1)

def State.unitState (s : State) (u : Nat) : Nat := s.getF (UNIT_STATUS u) stSTATE
def State.setUnitState (s : State) (u v : Nat) : State := s.setF (UNIT_STATUS u) stSTATE v

/-- The partition of a unit, and whether it holds a job (10 R279). -/
def State.partOf (s : State) (u : Nat) : Nat := s.getF (UNIT_PART u) upPART
def State.jobOf (s : State) (u : Nat) : Nat := s.getF (UNIT_PART u) upJIDX

/-- A unit of a base die, a cell or a common store out of service (05 R128): a cell reports it in
STATE, a common store in CS_OK. -/
def State.outOfService (s : State) (p : Place) : Bool :=
  match p with
  | .spad c => decide (s.unitState c = stOut)
  | .cs b => decide (s.getF MC_STATUS mcCSOK / 2 ^ b % 2 = 0)
  | _ => false

/-- Count progress of a unit (12 R341). -/
def State.progress (s : State) (u n : Nat) : State :=
  s.setF (UNIT_PROGRESS u) prCOUNT (s.getF (UNIT_PROGRESS u) prCOUNT + n)

/-- The register at offset 0x8000 of an engine block: BUSY in bit 0 of each kind of engine (06 R171,
07 R195, 08 R223, R235, 09 R251). -/
def State.setBusy (s : State) (u v : Nat) : State := s.setF (unitBlk u + 0x8000) engBUSY v

/-- A command of engine `u` is over: nothing of it is in progress, but an Image engine holds its ring slot until the completion
(06 R168). -/
def State.engDone (s : State) (u : Nat) : State :=
  if u < 48 then s
  else
    let s := { s with ctxCmds := Tab.erase s.ctxCmds u }
    (if u = 62 then { s with trkWait := none } else s).setBusy u 0

/-- The registrations of engine `u` on contexts end (07 R186). -/
def State.dropRegs (s : State) (u : Nat) : State :=
  { s with ctxRegs := s.ctxRegs.filter (fun r => decide (r.by_ ≠ u)) }

/-- A command of engine `u` is abandoned: what it holds is released (06 R172, 07 R198). -/
def State.engClear (s : State) (u : Nat) : State :=
  { (s.engDone u).dropRegs u with imgs := if u < 48 then s.imgs else Tab.erase s.imgs u }

/-- S register `r` of cell `c`; S0 reads zero (03 R48). -/
def Cell.rS (x : Cell) (r : Nat) : Word := if r = 0 then 0 else Tab.get 0 x.s r
/-- S0 ignores writes (03 R48). -/
def Cell.wS (x : Cell) (r : Nat) (v : Word) : Cell :=
  if r = 0 then x else { x with s := Tab.set 0 x.s r v }
def Cell.rA (x : Cell) (r : Nat) : BitVec 48 := Tab.get 0 x.a r
def Cell.wA (x : Cell) (r : Nat) (v : BitVec 48) : Cell := { x with a := Tab.set 0 x.a r v }
def Cell.rK (x : Cell) (r : Nat) : Nat := Tab.get 0 x.k r
def Cell.wK (x : Cell) (r v : Nat) : Cell := { x with k := Tab.set 0 x.k r v }
/-- Lane `l` of V register `r`. -/
def Cell.rV (x : Cell) (r l : Nat) : Nat := (Tab.get 0 x.v (64 * r + l)).toNat
def Cell.wV (x : Cell) (r l v : Nat) : Cell :=
  { x with v := Tab.set 0 x.v (64 * r + l) (BitVec.ofNat 32 v) }
/-- Element `(m, n)` of tile `t`. -/
def Cell.rT (x : Cell) (t m n : Nat) : Nat := (Tab.get 0 x.t (8192 * t + 64 * m + n)).toNat
def Cell.wT (x : Cell) (t m n v : Nat) : Cell :=
  { x with t := Tab.set 0 x.t (8192 * t + 64 * m + n) (BitVec.ofNat 32 v) }

def Cell.stream (x : Cell) : Strm → Stream
  | .load => x.load
  | .tensor => x.tensor
  | .vector => x.vector
  | .store => x.store
  | .front => {}

def Cell.setStream (x : Cell) (st : Strm) (q : Stream) : Cell :=
  match st with
  | .load => { x with load := q }
  | .tensor => { x with tensor := q }
  | .vector => { x with vector := q }
  | .store => { x with store := q }
  | .front => x

/-- Depth of a stream queue (03 R54). -/
def strmDepth : Strm → Nat
  | .load => 64
  | .front => 0
  | _ => 32

/-- The code of ERR_STREAM (03 R78). -/
def strmCode : Strm → Nat
  | .front => 0
  | .load => 1
  | .tensor => 2
  | .vector => 3
  | .store => 4

/-- Bit `i` of a mask. -/
def bit (m i : Nat) : Bool := decide (m / 2 ^ i % 2 = 1)
def setBit (m i : Nat) : Nat := m ||| 2 ^ i
def clrBit (m i : Nat) : Nat := if bit m i then m - 2 ^ i else m

/-! Sillage (13 R369 to R376). -/

/-- Add one to bin `b` of histogram `h`; from 142 on a freeze loses the update (13 R371, R376). -/
def State.sil1 (s : State) (h b : Nat) : State :=
  if 142 ≤ h ∧ s.flag SIL_CTRL silFREEZE then
    s.setF SIL_STATUS silLOSS (satInc 0xFFFFFFFF (s.getF SIL_STATUS silLOSS))
  else
    let k := 64 * h + b
    let v := Tab.get 0 s.sil.hist k
    if v < 0xFFFFFFFF then { s with sil := { s.sil with hist := Tab.set 0 s.sil.hist k (v + 1) } }
    else { s with sil := { s.sil with sat := Tab.set false s.sil.sat k true } }

/-- A value of extreme record `e` (13 R373); a freeze loses it (13 R376). -/
def State.extreme (s : State) (e : Nat) (v : Int) : State :=
  if s.flag SIL_CTRL silFREEZE then
    s.setF SIL_STATUS silLOSS (satInc 0xFFFFFFFF (s.getF SIL_STATUS silLOSS))
  else
    let x := Tab.get {} s.sil.ext e
    let pc := s.getF SIL_TIME silPC
    let sc := s.getF SIL_TIME silSEC
    let lo := { x with min := v, minPc := pc, minSec := sc }
    let y : Extreme :=
      if !x.valid then { min := v, max := v, minPc := pc, minSec := sc, maxPc := pc, maxSec := sc, valid := true }
      else
        let x := if v < x.min then lo else x
        if x.max < v then { x with max := v, maxPc := pc, maxSec := sc } else x
    { s with sil := { s.sil with ext := Tab.set {} s.sil.ext e y } }

/-- A device event of histogram 381 (13 R370). -/
def State.event (s : State) (b : Nat) : State := s.sil1 381 b

/-- Raise an APLIC source (17 R450). -/
def State.wire (s : State) (src : Nat) : State := { s with aplic := setBit s.aplic src }

/-- An event that is counted in Sillage and for which 13 R369 and R370 name no bin (log 88). -/
def State.noBin (s : State) : State := { s with sil := { s.sil with unbinned := s.sil.unbinned + 1 } }

/-- An access refused under 01 R18. -/
def State.refuseAccess (s : State) : State := s.event 0

/-- The GDDR6 channel `6 b + l` of a main-memory address (05 R139). -/
def channelOf (a : Nat) : Nat := 6 * (a / 0x10000 % 4) + a / 256 % 6

/-- Count an uncorrectable or corrected error where it lies (13 R369): scratchpad or common store by
bank, main memory by channel. -/
def State.countEcc1 (s : State) (a : Nat) (bad : Bool) : State :=
  match place a 1 with
  | .spad c => s.sil1 (323 + c) ((a / 64) % 32 + 32 * b2n bad)
  | .cs b => s.sil1 (371 + b) ((a / 64) % 32 + 32 * b2n bad)
  | .main => s.sil1 375 (channelOf a + 24 * b2n bad)
  | _ => s

/-! Integrity class (12 R355, R366). -/

/-- The integrity class: 0 in safe state, 2 while a cause is active, 3 otherwise. -/
def State.integrity (s : State) : State :=
  s.setF SAFE_STATUS safINTEGRITY
    (if s.flag SAFE_STATUS safSAFE then 0 else if s.getF INTEG_CAUSE icCAUSE = 0 then 3 else 2)

/-- Set or clear cause `k` of 12 R355. -/
def State.setCause (s : State) (k : Nat) (on : Bool) : State :=
  let m := s.getF INTEG_CAUSE icCAUSE
  (s.setF INTEG_CAUSE icCAUSE (if on then setBit m k else clrBit m k)).integrity

/-- An uncorrectable error on a line of main memory: 16 distinct lines of one channel within 1 s take the
channel out of service (05 R142). -/
def State.chanError (s : State) (a : Nat) : State :=
  let ch := channelOf a
  let l := a / 64
  let old := (Tab.get [] s.chErrs ch).filter (fun (k, t) => decide (k ≠ l ∧ s.now < t + sec 1))
  let new := (l, s.now) :: old
  let s := { s with chErrs := Tab.set [] s.chErrs ch new }
  if new.length < 16 then s
  else
    let s := s.setF MC_STATUS mcCHOK (clrBit (s.getF MC_STATUS mcCHOK) ch)
    (s.setF MC_STATUS mcDEGRADED 1).setCause 4 true

/-- Count an error where it lies, and judge the channel of an uncorrectable one (05 R142); an access that link EDC failed is over
(05 R140). -/
def State.countEcc (s : State) (a : Nat) (bad : Bool) : State :=
  let s := s.countEcc1 a bad
  if bad && decide (place a 1 = .main) then { s.chanError a with edc := s.edc.filter (fun l => decide (l ≠ a / 64)) } else s

/-! Region tables (05 R143, R144). -/

/-- The injection point of a slot is the slot itself; application cores inject at 64, the I/O
controllers at 65. -/
def rgnKey (point p e : Nat) : Nat := (point * 8 + p) * 64 + e

/-- The entry by which a point judges: the old one until it has switched (05 R144). -/
def State.rgn (s : State) (point p e : Nat) : Nat × Nat :=
  match Tab.find s.rgnOld (rgnKey point p e) with
  | some o => (o.lo, o.hi)
  | none =>
    let o : RgnOld := Tab.get {} s.rgnCur (p * 64 + e)
    (o.lo, o.hi)

/-- Byte `a` lies in a VALID entry with the needed permission. -/
def State.rgnByte (s : State) (point p : Nat) (wr : Bool) (a : Nat) : Bool :=
  (List.range 64).any (fun e =>
    let (lo, hi) := s.rgn point p e
    decide (rgnVALID.of lo = 1) &&
    (if wr then decide (rgnWR.of lo = 1) else decide (rgnRD.of lo = 1)) &&
    decide (rgnBASE.of lo * 0x10000 ≤ a) &&
    decide (a < rgnBASE.of lo * 0x10000 + rgnSIZE.of hi * 0x10000))

/-- Every byte of `[a, a + n)` is permitted. An entry covers whole 64 KiB blocks, so one byte of each
block decides. -/
def State.rgnOk (s : State) (point p : Nat) (wr : Bool) (a n : Nat) : Bool :=
  decide (n = 0) ||
  (List.range ((a + n - 1) / 0x10000 - a / 0x10000 + 1)).all (fun i =>
    s.rgnByte point p wr ((a / 0x10000 + i) * 0x10000))

/-- `[a, a + n)` touches the Blotter area (12 R346). -/
def State.inBlotter (s : State) (a n : Nat) : Bool :=
  (decide (s.cfg.blotterBase < a + n ∧ a < s.cfg.blotterBase + 0x4000000)) ||
  (List.range 4).any (fun b => decide (csBase b + 0x5E00000 < a + n ∧ a < csBase b + 0x6000000))

/-- `[a, a + n)` lies in the Blotter area. -/
def State.blotterOnly (s : State) (a n : Nat) : Bool :=
  (decide (s.cfg.blotterBase ≤ a ∧ a + n ≤ s.cfg.blotterBase + 0x4000000)) ||
  (List.range 4).any (fun b => decide (csBase b + 0x5E00000 ≤ a ∧ a + n ≤ csBase b + 0x6000000))

/-- A unit in its BLOTTER entry works in the Blotter area (12 R346 to R348). -/
def State.blotterUnit (s : State) (point : Nat) : Bool :=
  decide (point < 63) && s.flag (UNIT_PART point) upBLOTTER

/-- A read by an initiator of partition `p` passes (05 R144, 01 R18). -/
def State.canRead (s : State) (point p a n : Nat) : Bool :=
  match place a n with
  | .main | .spad _ | .cs _ =>
    !s.outOfService (place a n) &&
    (if s.blotterUnit point then s.blotterOnly a n else s.rgnOk point p false a n)
  | _ => false

/-- A write to main memory or a common store passes; scratchpads take writes through windows alone. -/
def State.canWrite (s : State) (point p a n : Nat) : Bool :=
  match place a n with
  | .main | .cs _ =>
    !s.outOfService (place a n) &&
    (if s.blotterUnit point then s.blotterOnly a n else s.rgnOk point p true a n)
  | _ => false

/-! CRC-32C and CRC-64 (10 R285, 11 R306). -/

def crc32cStep : Nat → Nat → Nat
  | 0, c => c
  | n + 1, c => crc32cStep n (if c % 2 = 1 then (c / 2) ^^^ 0x82F63B78 else c / 2)

/-- CRC-32C (Castagnoli, reflected, initial value and final XOR of ones) of bytes. -/
def crc32c (bs : List Nat) : Nat :=
  (bs.foldl (fun c b => crc32cStep 8 (c ^^^ b)) 0xFFFFFFFF) ^^^ 0xFFFFFFFF

def crc32Step : Nat → Nat → Nat
  | 0, c => c
  | n + 1, c => crc32Step n (if c % 2 = 1 then (c / 2) ^^^ 0xEDB88320 else c / 2)

/-- CRC-32 of IEEE 802.3, as the links and stores use it. -/
def crc32 (bs : List Nat) : Nat :=
  (bs.foldl (fun c b => crc32Step 8 (c ^^^ b)) 0xFFFFFFFF) ^^^ 0xFFFFFFFF

def crc64Step : Nat → Nat → Nat
  | 0, c => c
  | n + 1, c =>
    crc64Step n (if c / 2 ^ 63 % 2 = 1 then (c * 2 % 2 ^ 64) ^^^ 0x42F0E1EBA9EA3693
      else c * 2 % 2 ^ 64)

/-- CRC-64 of ECMA-182: initial value zero, no reflection, no final XOR (11 R306). -/
def crc64 (bs : List Nat) : Nat := bs.foldl (fun c b => crc64Step 8 (c ^^^ (b * 2 ^ 56))) 0

/-! Messages between units (05 R131, R134; 16 R425). -/

def MsgBody.kind : MsgBody → Nat
  | .write _ _ => 0
  | .commit _ => 1
  | .release _ _ => 2
  | .deposit _ _ _ _ => 3

def State.send (s : State) (m : Msg) : State := { s with msgs := s.msgs ++ [m] }

/-- The message at place `n`, where it is of kind `k` and no earlier one of the same source and
destination is still under way (04 R114: one ordered class). -/
def State.nextMsg (s : State) (n k : Nat) : Option Msg :=
  match s.msgs[n]? with
  | none => none
  | some m =>
    if m.body.kind = k ∧ (s.msgs.take n).all (fun m' => !(decide (m'.src = m.src ∧ m'.dst = m.dst)))
    then some m else none

def State.dropMsg (s : State) (n : Nat) : State := { s with msgs := s.msgs.eraseIdx n }

/-- A request of slot `u` still has no answer; releases have none (03 R74, 04 R118). -/
def State.asking (s : State) (u : Nat) : Bool := s.msgs.any (fun m => decide (m.src = u ∧ m.body.kind ≠ 2))

/-- Writes of slot `u` still without acknowledgement. -/
def State.unacked (s : State) (u : Nat) : Bool :=
  s.msgs.any (fun m => decide (m.src = u ∧ m.body.kind = 0))

/-! Jobs (10 R276, R286; 17 R462). -/

/-- The placement in force of a job. -/
def State.placement (s : State) (j : Nat) : Option Placement :=
  (s.job j).places[s.getF (JOB_STAT j) jsPLACE]?

/-- The slots of the placement in force of a job. -/
def State.jobSlots (s : State) (j : Nat) : List Nat :=
  match s.placement j with
  | some p => p.units.map (fun u => u.slot)
  | none => []

/-- A job-statistics counter rises (17 R462). -/
def State.jobCount (s : State) (j o : Nat) : State :=
  s.setF (JOB_ST j o) jtCOUNT (s.getF (JOB_ST j o) jtCOUNT + 1)

/-! Errors of a cell (03 R70 to R72). -/

def errWindow : Nat := 1
def errReserved : Nat := 2
def errFormat : Nat := 3
def errStall : Nat := 4
def errOverrun : Nat := 5
def errMemory : Nat := 6
def errBroken : Nat := 7
/-- OUT_OF_WINDOW of an access refused under 01 R18, which is counted. -/
def errRefused : Nat := 0x11
/-- MEMORY_ERROR found at address `a`, which is counted by bank or channel. -/
def memErr (a : Nat) : Nat := 16 * (a + 1) + errMemory

/-- The job whose state the cell or engine holds: the job on it, or while none is, the one whose slot is over (03 R77). -/
def State.ownJob (s : State) (u : Nat) : Nat := if s.jobOf u = 0xFF then (s.unit u).holder else s.jobOf u

/-- The job whose work item the program of unit `u` belongs to; 0xFF where it runs unbound (03 R76). -/
def State.itemJob (s : State) (u : Nat) : Nat :=
  match (s.cell u).runs with
  | none => s.ownJob u
  | some id => if s.getF (JOB_STAT (id % 256)) jsJOBID = id then id % 256 else 0xFF

/-- The lane tag of a unit's writes (05 R132): an engine's is zero (06 R169, 07 R178, 08 R217, 09 R250). -/
def State.laneTag (s : State) (u : Nat) : Nat :=
  if 48 ≤ u then 0
  else if s.flag (UNIT_RG u) rgV then s.getF (UNIT_RG u) rgPOS
  else
    match Tab.find (s.unit u).binds (s.itemJob u) with
    | some it => it.copy
    | none => 0

/-- The completion that ends the work item of the job on unit `u`; none where it is unbound
(03 R76). -/
def State.endItem (s : State) (u : Nat) (status : Nat) (fill : Cpl → Cpl) : State :=
  let x := s.unit u
  let j := s.itemJob u
  match Tab.find x.binds j with
  | none => s
  | some it =>
    s.setUnit u { x with binds := Tab.erase x.binds j,
                         comps := x.comps ++ [fill { item := it, status := status }] }

/-- A cell error: record it, enter ERROR, post an error completion (03 R71). An error of a cell that
is in ERROR, fenced or out of service already is counted and not recorded (03 R72, R73). -/
def State.cellError (s : State) (c code : Nat) (st : Strm) (off : Nat) : State :=
  if s.unitState c = stError then s.event 1
  else if s.unitState c ≥ stFenced then s
  else
    let s := s.setF (UNIT_STATUS c) stCODE (code % 16)
    let s := s.setF (UNIT_STATUS c) stSTREAM (strmCode st)
    let s := s.setUnitState c stError
    let s := if code = errRefused then s.refuseAccess
      else if 16 ≤ code ∧ code % 16 = errMemory then s.countEcc (code / 16 - 1) true else s
    s.endItem c 1 (fun p => { p with errCode := code % 16, errStream := (strmCode st), errPc := off })

/-- Cell `c` runs: it is RUNNING and no stop waits for its answers (03 R74). -/
def State.cellGoes (s : State) (c : Nat) : Bool := decide (s.unitState c = stRunning) && decide ((s.unit c).pend = [])

/-- Raise arithmetic flags of a cell (02 R36). -/
def State.raise (s : State) (c : Nat) (f : Flags) : State :=
  let s := if f.inv then s.setF (UNIT_STATUS c) stINV 1 else s
  let s := if f.ovf then s.setF (UNIT_STATUS c) stOVF 1 else s
  let s := if f.unf then s.setF (UNIT_STATUS c) stUNF 1 else s
  let s := if f.sat then s.setF (UNIT_STATUS c) stSAT 1 else s
  if f.nsc then s.setF (UNIT_STATUS c) stNSC 1 else s

/-- The flags of a cell, INV in bit 0 (04 R120). -/
def State.flagBits (s : State) (c : Nat) : Nat :=
  s.getF (UNIT_STATUS c) stINV + 2 * s.getF (UNIT_STATUS c) stOVF +
  4 * s.getF (UNIT_STATUS c) stUNF + 8 * s.getF (UNIT_STATUS c) stSAT +
  16 * s.getF (UNIT_STATUS c) stNSC

/-- Post token `t` of cell `c` where it stands below 255 (03 R57). -/
def State.post (s : State) (c t : Nat) : State :=
  let x := s.cell c
  s.setCell c (x.wK t (x.rK t + 1))

end Sys2Proof.Machine
end

