-- ==== Sys2Proof/Machine/Memory.lean ====
section
/-! DEFINITION. Reads and writes of memory as an initiator makes them: ECC, channels and mirrored
regions (05 R126, R127, R139, R140, R142, R146), and the signature of signed writes (11 R306, R307). -/

namespace Sys2Proof.Machine

/-- No transfer of the line at `a` succeeds now: its channel is out of service, or link EDC fails it (05 R140, R142). -/
def State.lineOut (s : State) (a : Nat) : Bool :=
  decide (a < mainSize) && (!bit (s.getF MC_STATUS mcCHOK) (channelOf a) || s.edc.contains (a / 64))

/-- `[a, a + n)` of one line cannot be read: an uncorrectable word, in main memory anywhere in the line (05 R127, R140), or no
transfer. -/
def State.lineBad (s : State) (a n : Nat) : Bool :=
  (if a < mainSize then s.uncorrectable (a - a % 64) 64 else s.uncorrectable a n) || s.lineOut a

/-- The shadow of a main-memory address in a mirrored entry of partition `p` (05 R146). -/
def State.shadow (s : State) (point p a : Nat) : Option Nat :=
  (List.range 64).findSome? (fun e =>
    let (lo, hi) := s.rgn point p e
    let b := rgnBASE.of lo * 0x10000
    if rgnVALID.of lo = 1 ∧ rgnMIRROR.of lo = 1 ∧ b ≤ a ∧ a < b + rgnSIZE.of hi * 0x10000
    then some (a - b + rgnMBASE.of hi * 0x10000) else none)

/-- The pieces of `[a, a + n)` that lie in one `g`-byte group each: address and length. -/
def pieces (g : Nat) : Nat → Nat → Nat → List (Nat × Nat)
  | 0, _, _ => []
  | fuel + 1, a, n =>
    if n = 0 then []
    else
      let k := min n (g - a % g)
      (a, k) :: pieces g fuel (a + k) (n - k)

/-- 64-byte lines of a range. -/
def linesOf (a n : Nat) : List (Nat × Nat) := pieces 64 (n / 64 + 2) a n

/-- A read finds data nowhere: the line is bad and no good shadow stands in (05 R127, R146). -/
def State.readFails (s : State) (point p a n : Nat) : Bool :=
  (linesOf a n).any (fun (b, k) =>
    s.lineBad b k &&
    (match s.shadow point p b with
     | some b' => s.lineBad b' k
     | none => true))

/-- The first line at which a read finds data nowhere. -/
def State.firstBad (s : State) (point p a n : Nat) : Nat :=
  match (linesOf a n).find? (fun (b, k) =>
    s.lineBad b k &&
    (match s.shadow point p b with
     | some b' => s.lineBad b' k
     | none => true)) with
  | some (b, _) => b
  | none => a

/-- The bytes a read returns: those of the shadow where the line at its own address is bad. -/
def State.readBytes (s : State) (point p a n : Nat) : List Nat :=
  (linesOf a n).flatMap (fun (b, k) =>
    if s.lineBad b k then
      match s.shadow point p b with
      | some b' => s.bytes b' k
      | none => s.bytes b k
    else s.bytes b k)

/-- A fallback from the copy at `b` (05 R146): counted by its base die, and its own error where its channel is in service. -/
def State.fallback (s : State) (b : Nat) : State :=
  let s := s.sil1 375 (48 + b / 0x10000 % 4)
  if bit (s.getF MC_STATUS mcCHOK) (channelOf b) then s.countEcc b true else s

/-- What a read leaves behind (05 R146): each fallback is counted, and the copy at its own address is rewritten where its channel is in
service. -/
def State.readEffect (s : State) (point p a n : Nat) : State :=
  (linesOf a n).foldl (fun s (b, k) =>
    if s.lineBad b k then
      match s.shadow point p b with
      | some b' =>
        if s.lineBad b' k then s
        else
          let s := s.fallback b
          if bit (s.getF MC_STATUS mcCHOK) (channelOf b) then
            let l := b - b % 64
            s.store l (byteList (s.bytes (b' - b' % 64) 64))
          else s
      | none => s
    else s) s

/-- The number of the bank that holds `a`: 32 of each scratchpad, then 32 of each common store. -/
def bankOf (a : Nat) : Nat :=
  match place a 1 with
  | .spad c => 32 * c + a / 64 % 32
  | .cs b => 32 * (48 + b) + a / 64 % 32
  | _ => 32 * 52

/-- A persistent fault takes the cell or the common store out of service, and island A records it as a
quarantine under every bin (05 R128, 12 R353). The table of 12 R354 has no entry for a common store: the model keeps its exclusion
at 72 + b (log 9). -/
def State.takeOut (s : State) (a : Nat) : State :=
  match place a 1 with
  | .spad c =>
    { (s.setUnitState c stOut).dirChange with
      quar := Tab.set {} s.quar c { (Tab.get {} s.quar c : Quar) with all := true } }
  | .cs b =>
    { (s.setF MC_STATUS mcCSOK (clrBit (s.getF MC_STATUS mcCSOK) b)).dirChange with
      quar := Tab.set {} s.quar (72 + b) { (Tab.get {} s.quar (72 + b) : Quar) with all := true } }
  | _ => s

/-- A single-bit error is found in word `w` (05 R126, R128, R140): counted; in a scratchpad or common
store a write-back is due, and finding it at the word that the bank last corrected is a persistent
fault. -/
def State.correct (s : State) (w : Nat) : State :=
  let a := w * 8
  let s := s.countEcc a false
  match place a 1 with
  | .spad _ | .cs _ =>
    if Tab.find s.lastFix (bankOf a) = some w then s.takeOut a
    else { s with lastFix := Tab.insert s.lastFix (bankOf a) w, ecc := Tab.set 0 s.ecc w 3 }
  | _ => s

/-- What a read leaves behind beside its data: corrections and mirror fallbacks. -/
def State.noteRead (s : State) (point p a n : Nat) : State :=
  (s.ecc.filter (fun (w, k) => decide (k = 1 ∧ a < w * 8 + 8 ∧ w * 8 < a + n))).foldl
    (fun s (w, _) => s.correct w) (s.readEffect point p a n)

/-- The word errors of `[a, a + n)` that a read corrects. -/
def State.correctIn (s : State) (a n : Nat) : State :=
  (s.ecc.filter (fun (w, k) => decide (k = 1 ∧ a ≤ w * 8 ∧ w * 8 < a + n))).foldl (fun s (w, _) => s.correct w) s

/-- Write bytes over SECDED words: a word covered in part is read and merged, and stays unwritten where that read is uncorrectable
(05 R126, R127). The flag says that some word failed. -/
def State.writeWords (s : State) (a : Nat) (bs : List Byte) : State × Bool :=
  ((pieces 8 (bs.length / 8 + 2) a bs.length).foldl
    (fun (acc : State × Bool × List Byte) (p : Nat × Nat) =>
      let (s, bad, rest) := acc
      let here := rest.take p.2
      let rest' := rest.drop p.2
      let base := p.1 - p.1 % 8
      if p.2 = 8 then (s.store p.1 here, bad, rest')
      else if s.uncorrectable base 8 then (s, true, rest')
      else (((s.correctIn base 8).store p.1 here).eccClear base 8, bad, rest'))
    (s, false, bs)) |> fun (s, bad, _) => (s, bad)

/-- Write `here` at `b`, within one line of main memory, to every copy of the line that takes a transfer (05 R140, R142, R146). A line
covered in part is read and merged from the first copy that can be read, and every copy is written; the flag says that the line
stays unwritten. -/
def State.writeLine (s : State) (point p b : Nat) (here : List Byte) : State × Bool :=
  let l := b - b % 64
  let copies := l :: ((s.shadow point p l).map (fun x => x - x % 64)).toList
  let live := copies.filter (fun c => !s.lineOut c)
  let done : State → State := fun s => { s with edc := s.edc.filter (fun k => !copies.contains (k * 64)) }
  if live = [] then (s, true)
  else if here.length = 64 then (done (live.foldl (fun s c => s.store c here) s), false)
  else
    match live.find? (fun c => !s.lineBad c 64) with
    | none => (s, true)
    | some g =>
      let good := live.filter (fun c => !s.lineBad c 64)
      let old := byteList (s.bytes g 64)
      let merged := old.take (b - l) ++ here ++ old.drop (b - l + here.length)
      let t := if g = l then s else s.fallback l
      let t := t.correctIn g 64
      (done (live.foldl (fun t c =>
        if good.contains c then (t.store (c + (b - l)) here).eccClear c 64 else t.store c merged) t), false)

/-- A write to main memory, a common store or a scratchpad. -/
def State.writeMem (s : State) (point p a : Nat) (bs : List Byte) : State × Bool :=
  match place a bs.length with
  | .main =>
    ((linesOf a bs.length).foldl
      (fun (acc : State × Bool × List Byte) (q : Nat × Nat) =>
        let (s, bad, rest) := acc
        let (s, b) := s.writeLine point p q.1 (rest.take q.2)
        (s, bad || b, rest.drop q.2))
      (s, false, bs)) |> fun (s, bad, _) => (s, bad)
  | _ => s.writeWords a bs

/-- The CRC-64 of one signed line write (11 R306). -/
def lineSig (a : Nat) (bs : List Nat) : Nat :=
  let o := a % 64
  crc64 (bytesOf 8 (a - o) ++ bytesOf 8 ((2 ^ bs.length - 1) * 2 ^ o) ++
    List.replicate o 0 ++ bs ++ List.replicate (64 - o - bs.length) 0)

/-- Whether a cell signs its remote lines now (11 R307): V is set, UNIT_PART names the group's job and
no BLOTTER entry runs. The group's job is in JIDX of RG_CFG_g. -/
def State.signs (s : State) (c : Nat) : Bool :=
  s.flag (UNIT_RG c) rgV && !s.flag (UNIT_PART c) upBLOTTER &&
  decide (s.jobOf c ≠ 0xFF ∧ s.getF (RG_CFG (s.getF (UNIT_RG c) rgRG)) rcJIDX = s.jobOf c)

/-- A cell issues remote writes, one packet per 64-byte line, signed as they are issued. -/
def State.issueWrites (s : State) (c ins dst a : Nat) (bs : List Byte) : State :=
  ((linesOf a bs.length).foldl
    (fun (acc : State × List Byte) (q : Nat × Nat) =>
      let (s, rest) := acc
      let here := rest.take q.2
      let s := if s.signs c then
          s.setF (UNIT_SIG c) sigSIG
            (s.getF (UNIT_SIG c) sigSIG + lineSig q.1 (here.map (fun b => b.toNat)))
        else s
      (s.send { src := c, part := s.partOf c, tag := s.laneTag c, dst := dst, ins := ins, body := .write q.1 here },
       rest.drop q.2))
    (s, bs)) |> fun (s, _) => s

end Sys2Proof.Machine
end

