-- ==== Sys2Proof/Machine/RegRead.lean ====
section
/-! DEFINITION. The registers by address and how they read: every register, mirror and directory word is a function of the
state, and no read has a side effect (00 R5 to R7, R11; 01 R19; 03 R78, R79; 13 R368; 15 R415 to R418). -/

namespace Sys2Proof.Machine

/-! Instruction words (03 R51, 04 R82). -/

/-- Bits `[hi:lo]` of a word. -/
def bits (w hi lo : Nat) : Nat := w / 2 ^ lo % 2 ^ (hi - lo + 1)

/-- CLASS and OP as one number. -/
def opCode (w : Nat) : Nat := bits w 63 54

/-- The number of class `c` and operation `o`. -/
def op (c o : Nat) : Nat := c * 64 + o

def insW (w : Nat) : Nat := bits w 53 53
def insWTOK (w : Nat) : Nat := bits w 52 49
def insP (w : Nat) : Nat := bits w 48 48
def insPTOK (w : Nat) : Nat := bits w 47 44

/-- The little-endian value of `n` bytes of a list from offset `o`. -/
def fieldAt (b : List Nat) (o n : Nat) : Nat := leOf ((b.drop o).take n)

/-- `n` bytes of a list from offset `o`. -/
def slice (b : List Nat) (o n : Nat) : List Nat := (b.drop o).take n

/-- Registers at `base + i * stride` for `i < count`, with their fields. -/
structure RegRow where
  base : Nat
  stride : Nat
  count : Nat
  fs : List FD

/-- The row covers the register at `a`. -/
def RegRow.covers (r : RegRow) (a : Nat) : Bool :=
  decide (r.base ≤ a ∧ a < r.base + r.stride * r.count ∧ (a - r.base) % r.stride = 0)

/-- One register. -/
def one (a : Nat) (fs : List FD) : RegRow := { base := a, stride := 8, count := 1, fs := fs }

def ringRows (g : Nat) : List RegRow :=
  [one (RING_GROUP g) [qLDEPTH, qBASE], one (RING_GROUP g + 16) [qNEXT, qHEAD], one (RING_GROUP g + 24) [qTAIL]]

/-- Clocks, supplies, temperatures (18 R489). -/
def clkRows : List RegRow :=
  [one CLK_STATUS [ckPENDMODE, ckPEND, ckTHERM, ckPWR, ckDIV, ckMODE, ckLOCK], one PWR_STATUS [pwVBUS, pwIBUS, pwPOWER, pwCAP],
   one PWR_FAULT [pfSUPPLY, pfCODE, pfV], one RST_STATUS [rtWARM, rtCAUSE], one COOL_STATUS [coRISE, coSTATE],
   { base := PWR_MON 0, stride := 8, count := 32, fs := [pmTARGET, pmVALUE, pmON, pmHIGH, pmLOW] },
   { base := THERM 0 0, stride := 8, count := 42, fs := [thS 0, thS 1, thS 2, thS 3] },
   { base := TRIM 0, stride := 8, count := 21, fs := [tmAGE, tmLIMIT, tmSTEPS] }]

/-- Sillage (13 R380). -/
def silRows : List RegRow :=
  [one SIL_CTRL [silFREEZE], one SIL_STATUS [silLOSS, silSTOREFAIL, silLOADED], one SIL_TIME [silPC, silSEC],
   one SIL_CLR0 [silCLRPC, silCLRSEC], one SIL_CLR1 [silKEYID, silCLRCOUNT], one SIL_CLR2 [silENTRY, silSCOPE],
   one SIL_NONCE0 [silNONCE], one SIL_NONCE1 [silNONCE], one SIL_AUTH [silFAIL, silADDR, silSTATUS]]

/-- Partitions, jobs and schedules (10 R276 to R280). -/
def partRows : List RegRow :=
  [{ base := PDESC 0, stride := 0x40, count := 8, fs := [pdVALID, pdCLASS, pdFAB, pdGDDR, pdMAXJOBS, pdBARRIERS, pdGROUPS] },
   { base := PDESC 0 + 8, stride := 0x40, count := 8, fs := [pdUNITS] },
   { base := PDESC 0 + 16, stride := 0x40, count := 8, fs := [pdPAGES, pdQUEUES, pdWINDOWS] },
   { base := PDESC 0 + 24, stride := 0x40, count := 8, fs := [pdSPAD] },
   { base := JOB_STAT 0, stride := 8, count := 255, fs := [jsJOBID, jsPART, jsPLACE, jsSTATE] },
   { base := SCHED 0 0, stride := 8, count := 63 * 16, fs := [scV, scBLOTTER, scJIDX, scSTART] }]

/-- The application-core block (17 R449 to R462). The APLIC's and the IOMMU's registers are words whose layout is that of
the RISC-V specifications. -/
def apRows : List RegRow :=
  [{ base := 0xF0001040000, stride := 8, count := 255 * 128, fs := [jtCOUNT] },
   { base := apBase, stride := 8, count := 0x1200, fs := [rw64] },
   { base := AP_CFG 0, stride := 0x20, count := 8, fs := [apPARTB, apPARTA] },
   { base := AP_STAT 0, stride := 0x20, count := 8, fs := [apREQFAIL, apFAILED, apQUAR, apGROUPED, apMODE] },
   { base := AP_SPLIT_PC 0, stride := 0x20, count := 8, fs := [apPC] },
   { base := AP_RESYNC_PC 0, stride := 0x20, count := 8, fs := [apPC] },
   one RIG_CTRL [rigSEQ0, rigSLAVED, rigREPLAY], one RIG_INJ [injSTATUS, injFAIL, injCAM, injRING],
   { base := MTIMECMP 0, stride := 8, count := 16, fs := [mtCMP] },
   { base := CIT 0, stride := 8, count := 1024, fs := [citV, citQUEUE, citHART, citFILE, citEIID] }]

/-- The registers of Ethernet port `p` (19 R498 to R500). -/
def portRows (p : Nat) : List RegRow :=
  [one (PORT p) [psASSYNC, psSPEED, psLINK], one (PORT p + 0x10) [irqBITS], one (PORT p + 0x18) [irqEN],
   one (QBV_CTL p) [qvPENDING, qvEN, qvNGCL, qvCYCLE], one (QBV_BASE p) [rw64], one (PORT_DROP p) [cnt64],
   { base := QBV_GCL p 0, stride := 8, count := 256, fs := [gcINTERVAL, gcGATES] },
   { base := QCI_F p 0, stride := 16, count := 64, fs := [qfV, qfVID, qfDMAC] },
   { base := QCI_M p 0, stride := 16, count := 64, fs := [qmSDU, qmRING, qmCIR, qmCBS] }] ++ ringRows p ++ ringRows (p + 6)

/-- The registers of CAN FD channel `c` (19 R506). -/
def canRows (c : Nat) : List RegRow :=
  [one (CANB c + 0x10) [irqBITS], one (CANB c + 0x18) [irqENcan], one (CAN_CFG c) [cnNBR, cnDBR, cnEN],
   { base := CANF c 0, stride := 8, count := 32, fs := [cfV, cfIDE, cfMASK, cfID] }] ++ ringRows (12 + c) ++ ringRows (14 + c)

/-- The interface block (19 R490). -/
def ifRows : List RegRow :=
  [{ base := CAM_CFG 0, stride := 0x20, count := 16, fs := [ccHEIGHT, ccWIDTH, ccVC, ccDT, ccPART, ccLANES, ccLMAP, ccPINV, ccEN] },
   { base := CAM_RING 0, stride := 0x20, count := 16, fs := [crNSLOT, crBASE] },
   { base := CAM_STAT 0, stride := 0x20, count := 16, fs := [csLINES, csSLOT, csLANEOK, csSTATE] },
   { base := CAM_DROP 0, stride := 0x20, count := 16, fs := [cnt64] },
   { base := RXR_CFG 0, stride := 16, count := 32, fs := [rxEN, rxLNSLOT, rxBASE] },
   { base := RXR_FMT 0, stride := 16, count := 32, fs := [rxFRAMES, rxSLOTK, rxCAPOFF, rxCAPBE] }] ++
  (List.range 6).flatMap portRows ++ canRows 0 ++ canRows 1 ++
  [{ base := UFSB, stride := 8, count := 512, fs := [rw64] }, one PCIEB [pcWIDTH, pcGEN, pcEP], one (PCIEB + 0x10) [irqBITS],
   one (PCIEB + 0x18) [irqENpcie], one PCIE_CFGA [pgOP, pgDONE, pgBUS, pgDEV, pgFN, pgREG], one PCIE_CFGD [pdDATA],
   one PCIE_WBASE [pwBASE]]

/-- The redundancy block (11 R329). -/
def redRows : List RegRow :=
  [one RED_STATUS [rdSECS, rdCMPOK, rdTESTPASS, rdOVERDUE],
   { base := RG_CFG 0, stride := 0x40, count := 16, fs := [rcV, rcKIND, rcTRIAD, rcCMP, rcJIDX, rcPART, rcM2, rcM1, rcM0] },
   { base := RG_STAT 0, stride := 0x40, count := 16, fs := [rsLASTCKID, rsHIST, rsOUTCOME, rsODD, rsDETACHED, rsPRESENT, rsSTATE] },
   { base := RG_SWITCH 0, stride := 0x40, count := 16, fs := [rwUNITA, rwUNITB, rwFAIL, rwSTATUS] },
   { base := RG_APST 0, stride := 0x40, count := 16, fs := [raLLANE, raBASE] },
   { base := RG_APSS 0, stride := 0x40, count := 16, fs := [raSLEN, raSBASE] },
   { base := RG_APREC 0, stride := 0x40, count := 16, fs := [rpVALID, rpBANK, rpPOS, rpCKID] },
   { base := RG_TGT 0 0, stride := 8, count := 128, fs := [rtV, rtALT, rtSLOT, rtWIN] },
   { base := SOLO_TGT 0 0, stride := 8, count := 384, fs := [rtV, rtALT, rtSLOT, rtWIN] },
   { base := AP_CKPT 0, stride := 16, count := 8, fs := [acLINES, acSTATUS, acCKID] },
   { base := AP_SIG 0, stride := 16, count := 8, fs := [sigSIG] }]

/-- The trigger generator, echoes and stream watch (08 R204, R208, R211). -/
def trigRows : List RegRow :=
  [one TRIG_CTRL [tgREFCH, tgMODE, tgENABLE], one TRIG_STATUS [tsREFSEQ, tsHELD, tsRUNNING],
   { base := TRIG_FS_CFG 0, stride := 16, count := 16, fs := [fsWIDTH, fsPHASE, fsLDIV, fsPOL, fsEN] },
   { base := TRIG_FS_SEQ 0, stride := 16, count := 16, fs := [fsSEQ] },
   { base := TRIG_LS_CFG 0, stride := 8, count := 8, fs := [lsWIDTH, lsOFFSET, fsLDIV, fsPOL, fsEN] },
   { base := CAM_ECHO_CFG 0, stride := 16, count := 16, fs := [ceBYTE, ceORDER, ceEN] },
   { base := CAM_ECHO_STAT 0, stride := 16, count := 16, fs := [cesEXPECT, cesECHO, cesRUN, cesVERDICT, cesSYNC] },
   { base := STRM_CFG 0, stride := 16, count := 16, fs := [scfPERIOD, scfRING, scfEN] },
   { base := STRM_STAT 0, stride := 16, count := 16, fs := [sstARRIVAL, sstSEEN, sstSTALE] }]

/-- Links, the guest, memory controllers, the Flacon mailbox and the security block (16 R435, R440; 05 R143, R149; 14 R394;
15 R420). -/
def restRows : List RegRow :=
  [{ base := LNK_STAT 0, stride := 0x40, count := 12, fs := [lkRETRAINS, lkBAD 0, lkBAD 1, lkWIDTH 0, lkWIDTH 1, lkREROUTED, lkSTATE] },
   { base := LNK_RETRY 0, stride := 0x40, count := 12, fs := [cnt64] },
   { base := LNK_TEST 0, stride := 0x40, count := 12, fs := [ltERRORS, ltMODE] },
   one GST_STATUS [gtPOWER, gtREASON, gtFENCE, gtSTATE], one GST_PARAM [gpVENDOR, gpDIE, gpNQ, gpNWIN, gpPART, gpRATE, gpWIDTH],
   { base := GST_WIN 0, stride := 8, count := 16, fs := [gwV, gwLEN, gwBASE] },
   { base := GST_QCFG 0, stride := 0x40, count := 256, fs := [qLDEPTH, qBASE] },
   { base := GST_QCFG 0 + 8, stride := 0x40, count := 256,
     fs := [qRDRV, qREDIRECT, qJIDX, qPART, qIRQEN, qPRIO, qPMODE, qCQ, qOVERRUN, qEN] },
   { base := GST_QCFG 0 + 16, stride := 0x40, count := 256, fs := [qNEXT, qHEAD] },
   { base := GST_QCFG 0 + 24, stride := 0x40, count := 256, fs := [qTAIL] },
   one MC_STATUS [mcCSOK, mcDEGRADED, mcCHOK], one MC_FILL_ADDR [fillADDR], one MC_FILL_LEN [fillLEN],
   one MC_FILL_CTRL [fillFAIL, fillSTATUS],
   { base := RGN_LO 0 0, stride := 16, count := 512, fs := [rgnVALID, rgnRD, rgnWR, rgnMIRROR, rgnBASE] },
   { base := RGN_HI 0 0, stride := 16, count := 512, fs := [rgnSIZE, rgnMBASE] },
   one FLC_STATUS [flFSEC, flLOGUSED, flSESSION, flRUNNING, flLINKOK, flFLAGS], one FLC_MEAS [flDIST, flSPEED, flMSEQ],
   one FLC_CAL [flSEAL, flK], one FLC_SWID [cnt64], one FLC_SWCRC [flSWCRC], one (FLC_CHAL 0) [cnt64], one (FLC_CHAL 1) [cnt64],
   one FLC_FPC [flFPC], one FLC_ODO [foV, foSEQ, foSPEED], one FLC_REQ [frFAIL, frBLOCKS, frSTATUS],
   one SEC_STATUS [scNORFAIL, scTRNG, scPROV, scERASE, scDEBUG, scLIFE], one (SEC_NONCE 0) [silNONCE], one (SEC_NONCE 1) [silNONCE],
   one SEC_REQ [srFAIL, srADDR, srSTATUS], one SEC_FWU_PROG [fwBYTES, fwINTER, fwTARGET, fwPHASE]]

/-- Every register row outside the unit blocks. -/
def regRows : List RegRow := clkRows ++ silRows ++ partRows ++ apRows ++ ifRows ++ redRows ++ trigRows ++ restRows

/-- The fields of an engine's own registers by offset in its block (06 R171; 07 R195; 08 R223, R235; 09 R251). -/
def engineFields (u o : Nat) : List FD :=
  if u < 52 then
    (if o = 0x8000 then [atHOMEQ, atTABLEOK, engBUSY]
     else if o = 0x8008 then [acSPLIT, acCAPT, acLROWT, acCAPP, acLROWP]
     else if o = 0x8010 then [apPAGES, apPOOL]
     else if o = 0x8018 then [asCTX]
     else if o = 0x8020 ∨ (0x8040 ≤ o ∧ o < 0x8080) then [cnt64] else [])
  else if u < 56 then (if o = 0x8000 then [gsROWS, gsOPC, engBUSY] else if o = 0x8008 then [cnt64] else [])
  else if u < 60 then (if o = 0x8000 then [ckDONE, engBUSY] else if o = 0x8008 then [cnt64] else [])
  else if u < 62 then (if o = 0x8000 then [igLINES, igROWS, igCAM, engBUSY] else if o = 0x8008 then [cnt64] else [])
  else if o = 0x8000 then [tkLASTSEQ, tkLIVE, tkLASTV, engBUSY]
  else if o = 0x8008 then [tkNEXT]
  else if o = 0x8010 then [tkCTX]
  else if o = 0x8018 ∨ (0x8040 ≤ o ∧ o < 0x8140) then [cnt64]
  else []

/-- The fields of the island mailbox's own registers by offset (03 R65, 12 R366). -/
def mailboxFields (o : Nat) : List FD :=
  if o = 0x8000 then [safREASON, safINTEGRITY, safSAFE, safACTIVE]
  else if o = 0x8008 then [isHBB, isHBA, isEMITTER, isBFAIL, isAFAIL, isBOK, isAOK]
  else if o = 0x8010 then [ecBY, ecTAKEOVER, ecSEQ]
  else if o = 0x8018 then [icCAUSE]
  else if o = 0x8020 then [qsENTRY]
  else if o = 0x8028 ∨ o = 0x8030 then [qdMASK]
  else if o = 0x8038 then [qdBIN, qdHOLDS, qdALL]
  else if 0x8040 ≤ o ∧ o < 0x8080 then [bhBROKEN, bhREFUSED]
  else []

/-- The fields of a window's register at offset `o` of its 32 bytes (05 R129). -/
def windowFields (o : Nat) : List FD :=
  if o = 0 then [winLIMIT, winBASE, winOPEN, winPART, winLANES, winSEAL, winGTOKEN, winGTOK, winMODE, winOWNV, winOWNER]
  else if o = 8 then [winMASK]
  else if o = 16 then [winVISLANE, winVISGEN]
  else [winLASTDROP, winLASTSLOT, winSEALED]

/-- The fields of a queue's register at offset `o` of its 64 bytes (10 R269). -/
def queueFields (o : Nat) : List FD :=
  if o = 0 then [qLDEPTH, qBASE]
  else if o = 8 then [qRDRV, qREDIRECT, qJIDX, qPART, qIRQEN, qPRIO, qPMODE, qCQ, qOVERRUN, qEN]
  else if o = 16 then [qNEXT, qHEAD]
  else if o = 24 then [qTAIL]
  else []

/-- The fields that the register of the block of slot `u` at offset `o` holds (01 R19). -/
def unitFields (u o : Nat) : List FD :=
  let cell := decide (u < 48)
  if o = 0 then (if cell then [ctrlPLEN, ctrlPBASE, ctrlSTALL, ctrlENABLE] else [])
  else if o = 8 then (if cell then [stMULTI, stSTREAM, stCODE, stNSC, stSAT, stUNF, stOVF, stINV, stSTATE] else [stCODE, stSTATE])
  else if o = 0x30 then (if cell then [snapFAIL, snapADDR, snapSTATUS] else [])
  else if o = 0x38 then [fnCAUSE, fnDONE, fnFENCE]
  else if o = 0x40 then [upFRAMESEQ, upSENTRY, upMISSED, upALIGNED, upSUSPECT, upBLOTTER, upJIDX, upCLASS, upPART]
  else if o = 0x48 then (if cell then [rgV, rgDETACHED, rgPOS, rgCMP, rgRG] else [])
  else if o = 0x50 then (if cell then [sigSIG] else [])
  else if o = 0x58 then [prCOUNT]
  else if o = 0x60 then (if cell then [pvalidPAGES] else [])
  else if o < 0x100 then []
  else if o < 0x300 then (if cell ∧ o % 8 = 0 then windowFields (o % 0x20) else [])
  else if o < 0x1000 then []
  else if o < 0x5000 then queueFields (o % 0x40)
  else if u = 63 then (if 0x9000 ≤ o ∧ o < 0x9100 ∧ o % 8 = 0 then windowFields (o % 0x20) else mailboxFields o)
  else if cell then []
  else engineFields u o

/-- The fields of the register at `a`; none at an offset that is not listed. -/
def regFields (a : Nat) : List FD :=
  if unitBlk 0 ≤ a ∧ a < unitBlk 64 then unitFields ((a - unitBlk 0) / 0x10000) ((a - unitBlk 0) % 0x10000)
  else match regRows.find? (fun r => r.covers a) with
    | some r => r.fs
    | none => []

/-! Registers that other state makes up. -/

/-- Every page of the current program range is valid (03 R67). -/
def State.pvalid (s : State) (c : Nat) : Bool :=
  let b := s.getF (UNIT_CTRL c) ctrlPBASE
  let l := s.getF (UNIT_CTRL c) ctrlPLEN
  decide (l ≠ 0 ∧ b + l ≤ 64) &&
  (List.range l).all (fun i => bit (s.getF (UNIT_PVALID c) pvalidPAGES) (b + i))

/-- UNIT_STATUS as it reads (03 R78). -/
def State.statusWord (s : State) (u : Nat) : Nat :=
  let a := UNIT_STATUS u
  let base := s.wordF a [stMULTI, stSTREAM, stCODE, stSTATE]
  if u < 48 then
    let x := s.cell u
    base + s.wordF a [stNSC, stSAT, stUNF, stOVF, stINV] + x.fePc % 2 ^ 18 * 2 ^ 40 +
      x.tfp * 2 ^ 24 + x.tsat * 2 ^ 16 + b2n (s.pvalid u) * 2 ^ 7
  else base


/-- The offset that PC of UNIT_PC reports (03 R79). -/
def Stream.pc (q : Stream) : Nat :=
  match q.q with
  | e :: _ => e.off
  | [] => q.lastPc

/-- UNIT_PC of a stream (03 R79): WAITING and POST_STALL are of the head. -/
def State.unitPc (s : State) (c : Nat) (st : Strm) : Nat :=
  let x := s.cell c
  let q := x.stream st
  let head := match q.q with
    | [] => 0
    | e :: _ =>
      let w := e.word.toNat
      let waits := !e.begun && decide (insW w = 1 ∧ x.rK (insWTOK w) = 0)
      let tok := if q.stall.isSome then insPTOK w else if waits then insWTOK w else 0
      e.steps % 2 ^ 16 * 2 ^ 48 + b2n q.stall.isSome * 2 ^ 36 + b2n waits * 2 ^ 35 + tok * 2 ^ 31
  head + q.q.length * 2 ^ 24 + q.pc % 2 ^ 18

/-- Microseconds into the frame as the unit counts them, 0 to 24,999 (10 R279). -/
def State.slotUs (s : State) (u : Nat) : Nat := min 24999 ((s.now - (s.unit u).frameAt) / 1000)

def State.qHead (s : State) (q : Nat) : Nat := s.getF (qPtr q) qHEAD
def State.qNext (s : State) (q : Nat) : Nat := s.getF (qPtr q) qNEXT
def State.qTailOf (s : State) (q : Nat) : Nat := s.getF (qTail q) qTAIL
def State.qPart (s : State) (q : Nat) : Nat := s.getF (qCtl q) qPART
def State.qEn (s : State) (q : Nat) : Bool := s.flag (qCtl q) qEN
def State.qIsCq (s : State) (q : Nat) : Bool := s.flag (qCtl q) qCQ

/-- The time of a port now, in ns. -/
def State.portTime (s : State) (p : Nat) : Nat :=
  let x : PortRt := Tab.get {} s.ports p
  x.base + (s.now - x.at_)

/-- A register of the block of slot `u` at offset `o`, as it reads (01 R19). -/
def State.unitReg (s : State) (u o : Nat) : Nat :=
  let a := unitBlk u + o
  if o = 8 then s.statusWord u
  else if o = 0x10 then (if u < 48 then s.unitPc u .load else 0)
  else if o = 0x18 then (if u < 48 then s.unitPc u .tensor else 0)
  else if o = 0x20 then (if u < 48 then s.unitPc u .vector else 0)
  else if o = 0x28 then (if u < 48 then s.unitPc u .store else 0)
  else if o = 0x40 then s.wordF a (unitFields u o) + (if u < 63 then s.slotUs u * 2 ^ 33 else 0)
  else if u = 63 ∧ 0xC000 ≤ o then s.le a 8
  else s.wordF a (unitFields u o)

/-- Bank 1 is current, where some bank is valid: the newer one, bank 0 where neither is newer. -/
def Store.odd (x : Store) : Bool :=
  match x.b0, x.b1 with
  | some a, some b => newer 32 b.seq a.seq
  | none, some _ => true
  | _, none => false

/-- The current bank. -/
def Store.current (x : Store) : Option Bank := if x.odd then x.b1 else x.b0

/-- A store on the NOR devices, whose bank `k` stands on NORk. -/
def onNor (id : Nat) : Bool := decide (1 ≤ id ∧ id ≤ 6)

/-- A store as the device reads it: a bank on a failed NOR device is not there (15 R408). -/
def State.storeAt (s : State) (id : Nat) : Store :=
  let x : Store := Tab.get {} s.stores id
  if !onNor id then x
  else { x with b0 := if bit s.ident.norFailed 0 then none else x.b0, b1 := if bit s.ident.norFailed 1 then none else x.b1 }

/-- The value of a store, none where no bank is valid. -/
def State.storeVal (s : State) (id : Nat) : Option StoreVal := (s.storeAt id).current.map (fun b => b.val)


/-- The numbers of a store of island MRAM or of a selector. -/
def State.storeNums (s : State) (id : Nat) : List Nat :=
  match s.storeVal id with
  | some (.data l) => l
  | _ => []

/-- The bytes of the configuration payload. -/
def State.configRaw (s : State) : List Nat :=
  match s.storeVal 1 with
  | some (.config r) => r
  | _ => []

/-! The State Directory (15 R415 to R419). The places of the blocks that have no home elsewhere, and what the text of the
specification leaves open in them, are the model's choice (log 29). -/

/-- DEVICE_ID. -/
def deviceId : List Nat := (List.range 16).map (fun i => Config.deviceByte i % 256)

/-- 1 where the guest site is populated (00 R2). -/
def orderCode : Nat := Config.order % 2

/-- The revision byte of the module (0) or of die `i - 1`: a letter A to O, a digit (00 R3, 15 R419); 0 for the absent guest
die. -/
def revision (i : Nat) : Nat :=
  if i = 21 ∧ orderCode = 0 then 0 else (1 + Config.revByte i / 16 % 15) * 16 + Config.revByte i % 16 % 10

/-- A directory entry (15 R415). -/
structure DirEnt where
  addr : Nat
  size : Nat
  type : Nat
  index : Nat
  owner : Nat
  rule : Nat
  access : Nat
  deriving DecidableEq, Repr

/-- Homes of the blocks that lie in the directory's range. -/
def topoBase : Nat := dirBase + 0x4000
def barrierBase : Nat := dirBase + 0x5000
def poseBase : Nat := dirBase + 0x6000
def digestBase : Nat := dirBase + 0x6400
def keyPageBase : Nat := dirBase + 0x7000
def islandBase : Nat := dirBase + 0x7800
def fenceBase : Nat := dirBase + 0x7900
def configBase : Nat := dirBase + 0x10000
def calibBase : Nat := dirBase + 0x20000

/-- One entry for each of `n` instances. -/
def dirMany (n type rule access : Nat) (addr : Nat → Nat) (size : Nat) (owner : Nat → Nat) : List DirEnt :=
  (List.range n).map (fun i =>
    { addr := addr i, size := size, type := type, index := i, owner := owner i, rule := rule, access := access })

/-- The directory's entries: TYPE 0x01 to 0x18 of 15 R417, 0x19 of 17 R462, 0x1A of 19 R490. -/
def dirEnts : List DirEnt :=
  dirMany 1 0x01 4 1 (fun _ => topoBase) 0x208 (fun _ => 0x40) ++
  dirMany 64 0x02 0 1 unitBlk 0x10000 (fun i => i) ++
  dirMany 48 0x03 1 1 UNIT_SNAP 281600 (fun i => i) ++
  dirMany 64 0x04 0 1 (fun i => barrierBase + 0x20 * i) 0x20 (fun _ => 0x43) ++
  dirMany 1 0x05 6 1 (fun _ => partBase) 0x10000 (fun _ => 0x40) ++
  dirMany 8 0x06 6 4 (fun i => RGN_LO i 0) 0x400 (fun _ => 0x40) ++
  dirMany 1 0x07 0 4 (fun _ => redBase) 0x10000 (fun _ => 0x43) ++
  dirMany 1 0x08 0 1 (fun _ => trigBase) 0x1000 (fun _ => 0x43) ++
  dirMany 1 0x09 0 1 (fun _ => clkBase) 0x1000 (fun _ => 0x40) ++
  dirMany 1 0x0A 4 1 (fun _ => linkBase) 0x1000 (fun _ => 0x43) ++
  dirMany 1 0x0B 4 1 (fun _ => mcBase) 0x1000 (fun _ => 0x43) ++
  dirMany 1 0x0C 3 2 (fun _ => silBase) 0x23048 (fun _ => 0x40) ++
  dirMany 1 0x0D 5 2 (fun _ => flcBase) 0x20000 (fun _ => 0x42) ++
  dirMany 1 0x0E 0 1 (fun _ => secBase) 0x28 (fun _ => 0x40) ++
  dirMany 4 0x0F 2 1 (fun i => ATTN_CTX_SEL (48 + i)) 0x68 (fun i => 48 + i) ++
  dirMany 1 0x10 2 1 (fun _ => TRK_SEL) 0x130 (fun _ => 62) ++
  dirMany 1 0x11 2 1 (fun _ => QUAR_SEL) 0x20 (fun _ => 63) ++
  dirMany 1 0x12 4 1 (fun _ => poseBase) 0x188 (fun _ => 0x40) ++
  dirMany 2 0x13 6 1 (fun i => if i = 0 then configBase else calibBase) 0x10000 (fun _ => 0x40) ++
  dirMany 3 0x14 7 1 (fun i => digestBase + 0x40 * i) 0x40 (fun _ => 0x40) ++
  dirMany 1 0x15 6 1 (fun _ => keyPageBase) 0x400 (fun _ => 0x40) ++
  dirMany 2 0x16 0 1 (fun i => islandBase + 0x20 * i) 0x20 (fun i => 0x40 + i) ++
  dirMany 1 0x17 6 1 (fun _ => linkBase + 0x1000) 0x10 (fun _ => 0x43) ++
  dirMany 1 0x18 0 1 (fun _ => fenceBase) 0x10 (fun _ => 0x40) ++
  dirMany 255 0x19 0 1 (fun j => JOB_ST j 0) 0x400 (fun _ => 0x40) ++
  dirMany 1 0x1A 0 1 (fun _ => ifBase) 0x20000 (fun _ => 0x43)

def DirEnt.bytes (e : DirEnt) : List Nat :=
  bytesOf 8 e.addr ++ bytesOf 4 e.size ++ bytesOf 2 e.type ++ [e.index, e.owner, e.rule, e.access] ++ bytesOf 14 0

/-- The header (15 R415). -/
def State.dirHeader (s : State) : List Nat :=
  bytesOf 4 0x53444952 ++ bytesOf 2 1 ++ bytesOf 2 dirEnts.length ++ bytesOf 4 (s.getF DIR_HEAD dirSEQ) ++ bytesOf 4 0 ++
    deviceId ++ (List.range 22).map revision ++ [orderCode] ++ bytesOf 201 0

/-- KIND of a slot in the topology block (15 R418). -/
def kindOf (u : Nat) : Nat :=
  if u < 48 then 0 else if u < 52 then 1 else if u < 56 then 2 else if u < 60 then 3 else if u < 62 then 4 else if u = 62 then 5 else 6

/-- The die of a slot in the die order of 13 R369. -/
def dieNo (u : Nat) : Nat := if u < 48 then 4 + u / 4 else if u < 60 then u % 4 else 16

/-- STATE of a slot in the topology block (15 R418). -/
def State.slotState (s : State) (u : Nat) : Nat :=
  if s.unitState u = stOut then 1
  else if s.unitState u = stFenced then 2
  else if (Tab.get {} s.quar u : Quar).all then 3 else 0

/-- The entry of slot `u` (15 R418). -/
def State.topoEntry (s : State) (u : Nat) : Nat :=
  leOf [u, kindOf u, dieNo u, (if dieOf u < 4 then dieOf u else 0xFF), s.slotState u, 0, 0, 0]

/-- A word of the topology block (15 R418): its sequence word is twice DIR_SEQ, which every change of it raises. -/
def State.topoWord (s : State) (k : Nat) : Nat :=
  if k = 0 then 2 * s.getF DIR_HEAD dirSEQ else if k ≤ 64 then s.topoEntry (k - 1) else 0

/-- Word `k` of the record of barrier `b` (03 R60). -/
def State.barrierWord (s : State) (b k : Nat) : Nat :=
  let x := s.barrier b
  if k = 0 then x.members
  else if k = 1 then x.arrived
  else if k = 2 then x.lastSlot + b2n x.lastValid * 2 ^ 8 + b2n x.broken * 2 ^ 16 + x.owner * 2 ^ 24
  else 0

/-- Word `k` of the camera poses in force, after their sequence word (07 R193): six FP32 values for each camera. -/
def State.poseWord (s : State) (k : Nat) : Nat :=
  if k = 0 then 2 * s.cal.changes
  else
    let v := fun (i : Nat) => (Tab.get (s.cfg.eol.getD (i / 6) []) s.cal.poses (i / 6)).getD (i % 6) 0
    v (2 * k - 2) + v (2 * k - 1) * 2 ^ 32

/-- Byte `i` of the digest of key `k`: 0 IDK, 1 KAK, 2 SK; zero where the key store does not hold it (15 R415). The digest of
SK is that of the SK which the current write of the key store brought. -/
def State.digestByte (s : State) (k i : Nat) : Nat :=
  if (s.storeNums 0x10).getD k 0 = 0 then 0
  else Config.keyDigest k (match (s.storeAt 0x10).current with
    | some b => if k = 2 then b.seq else 0
    | none => 0) i % 256

/-- Word `k` of the state of island `i` (TYPE 0x16): whether it emits, whether it has failed; the slot it prepares a record
for; the sequence of the record it sent or saw last. -/
def State.islandWord (s : State) (i k : Nat) : Nat :=
  let x : IslPlan := Tab.get {} s.plan.isl i
  if k = 0 then b2n (decide (s.getF ISL_STATUS isEMITTER = i)) + 2 * s.getF ISL_STATUS (if i = 0 then isAFAIL else isBFAIL)
  else if k = 1 then x.want
  else if k = 2 then (match x.last with
    | some r => r.seq
    | none => 0)
  else 0

/-- The fence mask: a bit for each fenced slot (05 R136). -/
def State.fenceMask (s : State) : Nat :=
  (List.range 63).foldl (fun m u => m + b2n (s.flag (unitBlk u + 0x38) fnFENCE) * 2 ^ u) 0

/-- The 8 bytes of a list at word `k`. -/
def listWord (l : List Nat) (k : Nat) : Nat := fieldAt l (8 * k) 8

/-- The word at offset `o` of the State Directory's range below the blocks that chapters 17 and 19 place there. -/
def State.dirWord (s : State) (o : Nat) : Nat :=
  let a := dirBase + o
  if o < 0x100 then listWord s.dirHeader (o / 8)
  else if o < 0x100 + 32 * dirEnts.length then
    match dirEnts[(o - 0x100) / 32]? with
    | some e => listWord e.bytes ((o - 0x100) % 32 / 8)
    | none => 0
  else if topoBase ≤ a ∧ a < topoBase + 0x208 then s.topoWord ((a - topoBase) / 8)
  else if barrierBase ≤ a ∧ a < barrierBase + 0x800 then s.barrierWord ((a - barrierBase) / 0x20) ((a - barrierBase) % 0x20 / 8)
  else if poseBase ≤ a ∧ a < poseBase + 0x188 then s.poseWord ((a - poseBase) / 8)
  else if digestBase ≤ a ∧ a < digestBase + 0xC0 then
    leOf ((List.range 8).map (fun i => s.digestByte ((a - digestBase) / 0x40) ((a - digestBase) % 0x40 + i)))
  else if keyPageBase ≤ a ∧ a < keyPageBase + 0x400 then
    leOf ((List.range 8).map (fun i => Config.keyPageByte 0 (a - keyPageBase + i) % 256))
  else if islandBase ≤ a ∧ a < islandBase + 0x40 then s.islandWord ((a - islandBase) / 0x20) ((a - islandBase) % 0x20 / 8)
  else if a = fenceBase then s.fenceMask
  else if configBase ≤ a ∧ a < configBase + 0x10000 then listWord s.loadedCfg ((a - configBase) / 8)
  else if calibBase ≤ a ∧ a < calibBase + 0x10000 then listWord s.loadedCal ((a - calibBase) / 8)
  else 0

/-- The 64-bit word at offset `o` of Sillage's histograms, saturated flags and extreme records (13 R368, R372). -/
def State.silWord (s : State) (o : Nat) : Nat :=
  let bin := fun (k : Nat) => Tab.get 0 s.sil.hist k
  let word := fun (v : Int) => (v % 4294967296).toNat
  if o < 0x20000 then bin (o / 4) + 2 ^ 32 * bin (o / 4 + 1)
  else if o < 0x21000 then
    (List.range 64).foldl (fun n b => n + (if Tab.get false s.sil.sat (64 * ((o - 0x20000) / 8) + b) then 2 ^ b else 0)) 0
  else
    let x : Extreme := Tab.get {} s.sil.ext ((o - 0x21000) / 0x20)
    match (o - 0x21000) % 0x20 / 8 with
    | 0 => word x.min + 2 ^ 32 * word x.max
    | 1 => x.minPc + 2 ^ 32 * x.minSec
    | 2 => x.maxPc + 2 ^ 32 * x.maxSec
    | _ => b2n x.valid

/-- The doorbell of a queue reads TAIL and HEAD (10 R270). -/
def State.bellWord (s : State) (q o : Nat) : Nat := if o = 0 then s.qTailOf q + s.qHead q * 2 ^ 32 else 0

/-- The port whose PORT_TIME stands at `a` (19 R498). -/
def portTimeAt (a : Nat) : Option Nat := (List.range 6).find? (fun p => decide (a = PORT p + 8))

/-- Island A's local seconds (13 R374), and those since the last passing injection test (11 R328). -/
def State.localSec (s : State) : Nat := min 0xFFFFFFFF ((s.now - s.sup.islOnAt) / sec 1)
def State.testSecs (s : State) : Nat := min 0xFFFFFFFF ((s.now - s.sup.testedAt) / sec 1)

/-- The word of the Flacon mailbox at offset `o`: buffers, digest, page and log stand in memory (14 R394). -/
def State.flcWord (s : State) (o : Nat) : Nat :=
  match regFields (flcBase + o) with
  | [] => s.le (flcBase + o) 8
  | fs => s.wordF (flcBase + o) fs

/-- The 64-bit word at the 8-byte aligned address `a` of the register range. KIND of PORT_STAT tells ports 4 and 5, which are SGMII
(19 R498). -/
def State.readReg (s : State) (a : Nat) : Nat :=
  if a < unitBlk 64 then s.unitReg ((a - unitBlk 0) / 0x10000) ((a - unitBlk 0) % 0x10000)
  else if silBase ≤ a ∧ a < silBase + 0x23000 then s.silWord (a - silBase)
  else if dirBase ≤ a ∧ a < dirBase + 0x40000 then s.dirWord (a - dirBase)
  else if flcBase ≤ a ∧ a < flcBase + 0x20000 then s.flcWord (a - flcBase)
  else if bellBase ≤ a then s.bellWord ((a - bellBase) / 64) ((a - bellBase) % 64)
  else if gstBell ≤ a ∧ a < gstBell + 0x4000 then s.bellWord (16384 + (a - gstBell) / 64) ((a - gstBell) % 64)
  else if a = RED_STATUS then s.wordF a [rdCMPOK, rdTESTPASS, rdOVERDUE] + s.testSecs * 2 ^ 32
  else match portTimeAt a with
    | some p => s.portTime p % 2 ^ 64
    | none => s.wordF a (regFields a) + b2n (decide (a = PORT 4 ∨ a = PORT 5))

/-- Who a read of a register comes from, as far as a right depends on it. -/
structure Reader where
  part : Nat
  priv : Bool := false
  island : Bool := false
  deriving DecidableEq, Repr

/-- The register at `a` may be read; only island A drives the xSPI controller (05 R143; 09 R254; 11 R329; 13 R375; 14 R394; 19 R490). -/
def State.regReadable (s : State) (r : Reader) (a : Nat) : Bool :=
  if r.island then true
  else if silBase ≤ a ∧ a < partBase then r.priv
  else if flcBase ≤ a ∧ a < secBase then r.priv
  else if ifBase + 0xB000 ≤ a ∧ a < ifBase + 0xC000 then false
  else if unitBlk 63 + 0xC000 ≤ a ∧ a < unitBlk 64 then false
  else if RGN_LO 0 0 ≤ a ∧ a < RGN_LO 8 0 then decide ((a - RGN_LO 0 0) / 0x400 = r.part)
  else if RG_CFG 0 ≤ a ∧ a < RG_CFG 16 then decide (s.getF (RG_CFG ((a - RG_CFG 0) / 0x40)) rcPART = r.part)
  else if RG_TGT 0 0 ≤ a ∧ a < RG_TGT 16 0 then decide (s.getF (RG_CFG ((a - RG_TGT 0 0) / 0x40)) rcPART = r.part)
  else true

/-- A read of `n` bytes at `a` in the register range: whole words are read and the bytes cut out. -/
def State.readRegs (s : State) (a n : Nat) : List Nat :=
  let lo := a / 8 * 8
  slice ((List.range ((a + n - lo + 7) / 8)).flatMap (fun i => bytesOf 8 (s.readReg (lo + 8 * i)))) (a - lo) n

end Sys2Proof.Machine
end

