-- ==== Sys2Proof/Machine/Operands.lean ====
section
/-! DEFINITION. Instruction words, A register kinds, tensor and walker descriptors, and the elements
they name (03 R49, R51; 04 R82 to R100). -/

namespace Sys2Proof.Machine

/-- Mask of bits `[hi:lo]`. -/
def maskOf (hi lo : Nat) : Nat := 2 ^ (hi + 1) - 2 ^ lo

def maskUnion (l : List (Nat × Nat)) : Nat := l.foldl (fun m (h, l) => m ||| maskOf h l) 0

/-- The operand bits that the encoding tables assign (04 R89 to R120); none for a reserved OP. For
VECTOR they are the fields that the operation uses (04 R106). -/
def encMask (code : Nat) : Option Nat :=
  let c := code / 64
  let o := code % 64
  match c with
  | 0 => match o with
    | 0 | 4 => some 0
    | 1 => some (maskUnion [(43, 22), (14, 0)])
    | 2 => some (maskUnion [(43, 31), (15, 0)])
    | 3 => some (maskOf 15 0)
    | _ => none
  | 1 =>
    if o ≤ 12 ∨ o = 32 then some (maskOf 43 29)
    else if (16 ≤ o ∧ o ≤ 22) ∨ o = 24 ∨ o = 33 ∨ o = 40 ∨ o = 41 then
      some (maskUnion [(43, 34), (31, 0)])
    else if o = 23 then some (maskUnion [(43, 39), (31, 0)])
    else if o = 34 ∨ o = 35 then some (maskOf 43 34)
    else none
  | 2 => match o with
    | 0 => some (maskOf 43 26)
    | 1 => some (maskOf 43 22)
    | _ => none
  | 3 => match o with
    | 0 => some (maskOf 43 26)
    | 1 => some (maskOf 43 22)
    | _ => none
  | 4 => match o with
    | 0 => some (maskOf 43 40)
    | 1 => some (maskOf 43 23)
    | 2 => some (maskOf 43 32)
    | _ => none
  | 5 =>
    let vd := (43, 39); let va := (38, 34); let vb := (33, 29); let vc := (28, 24)
    let fmt := (23, 20); let sa := (19, 15)
    if o ≤ 2 ∨ o = 4 ∨ o = 5 then some (maskUnion [vd, va, vb, fmt])
    else if o = 3 then some (maskUnion [vd, va, vb, vc, fmt])
    else if 6 ≤ o ∧ o ≤ 8 then some (maskUnion [vd, va, fmt])
    else if o = 9 then some (maskUnion [vd, va, vb, fmt, (2, 0)])
    else if o = 10 then some (maskUnion [vd, va, vb, vc])
    else if 11 ≤ o ∧ o ≤ 13 then some (maskUnion [vd, va, vb])
    else if o = 14 then some (maskUnion [vd, va])
    else if o = 15 then some (maskUnion [vd, sa])
    else if o = 16 then some (maskUnion [vd, sa, (14, 0)])
    else if o = 17 then some (maskUnion [va, sa, (14, 0)])
    else none
  | 6 => if o = 0 then some (maskOf 43 16) else none
  | 7 => match o with
    | 0 => some (maskOf 43 19)
    | 1 => some (maskOf 43 20)
    | _ => none
  | 8 => match o with
    | 0 | 1 => some (maskOf 43 40)
    | 2 => some (maskOf 43 38)
    | _ => none
  | 9 => match o with
    | 0 => some (maskOf 43 28)
    | 1 => some (maskOf 43 40)
    | _ => none
  | 10 => match o with
    | 0 => some (maskOf 43 28)
    | 1 => some (maskOf 43 39)
    | _ => none
  | 11 => if o = 0 then some (maskOf 43 21) else none
  | 12 => match o with
    | 0 => some (maskOf 43 7)
    | 1 => some (maskOf 43 17)
    | _ => none
  | 13 => if o = 0 then some (maskOf 43 22) else none
  | 14 => match o with
    | 0 => some 0
    | 1 => some (maskOf 43 40)
    | 2 | 3 => some (maskOf 43 39)
    | 4 => some (maskOf 4 0)
    | _ => none
  | _ => none

/-- The vector formats of 04 R106 and R109. -/
def vecFmtOk (f : Nat) : Bool := f == 3 || f == 8 || f == 9 || f == 10 || f == 11

/-- No field holds a reserved value, and fields unused under a chosen mode are zero (04 R89 to R120). -/
def encFields (w : Nat) : Bool :=
  let code := opCode w
  let o := code % 64
  match code / 64 with
  | 0 =>
    if o = 1 then
      decide (1 ≤ bits w 14 0) &&
      (if bits w 43 43 = 1 then decide (bits w 42 38 = 0) else decide (bits w 37 22 = 0))
    else if o = 2 then decide (bits w 33 31 ≠ 7) && (decide (bits w 33 31 ≠ 0) || decide (bits w 43 34 = 0))
    else true
  | 1 =>
    if 20 ≤ o ∧ o ≤ 22 then decide (bits w 31 0 < 64)
    else if o = 32 ∨ o = 33 ∨ o = 41 then decide (bits w 43 43 = 0 ∧ bits w 38 38 = 0)
    else if o = 34 then decide (bits w 43 43 = 0)
    else if o = 35 ∨ o = 40 then decide (bits w 38 38 = 0)
    else true
  | 5 =>
    if o ≤ 5 ∨ o = 9 then
      vecFmtOk (bits w 23 20) && (if o = 9 then decide (bits w 2 0 ≤ 3) else true)
    else if o ≤ 8 then vecFmtOk (bits w 23 20) && decide (bits w 23 20 ≠ 3)
    else true
  | 6 => decide (bits w 17 16 ≠ 3)
  | 7 => if o = 0 then decide (bits w 25 24 ≤ 1) else decide (bits w 21 20 ≤ 1)
  | 8 => decide (insW w = 0 ∧ insP w = 0)
  | 9 => if o = 0 then decide (bits w 29 28 ≠ 3) else true
  | 12 =>
    decide (bits w 25 24 ≠ 3) &&
    (if o = 0 then
      decide (bits w 22 21 ≠ 3) &&
      (decide (bits w 25 24 = 2) || decide (bits w 30 26 = 0)) &&
      (decide (bits w 22 21 ≠ 0) || decide (bits w 35 31 = 0)) &&
      (decide (bits w 22 21 = 2) || decide (bits w 20 17 = 0))
    else
      vecFmtOk (bits w 33 30) && vecFmtOk (bits w 29 26) &&
      !(decide (bits w 23 23 = 1 ∧ bits w 33 30 = 3)) &&
      (decide (bits w 17 17 = 0) || decide (bits w 33 30 = 8 ∨ bits w 33 30 = 9 ∨ bits w 29 26 = 8 ∨ bits w 29 26 = 9)) &&
      (decide (bits w 25 24 = 2) || decide (bits w 22 18 = 0)))
  | _ => true

/-- The word is an instruction: no reserved class or operation, no must-be-zero bit set, no reserved
field value (03 R51, 04 R82, R87). -/
def encOk (w : Nat) : Bool :=
  match encMask (opCode w) with
  | none => false
  | some m =>
    decide (bits w 43 0 ||| m = m) &&
    (decide (insW w = 1) || decide (insWTOK w = 0)) &&
    (decide (insP w = 1) || decide (insPTOK w = 0)) &&
    encFields w

/-- The stream of a class (03 R52). -/
def streamClass (cls : Nat) : Strm :=
  match cls with
  | 2 | 13 => .load
  | 4 => .tensor
  | 5 | 6 | 7 | 12 => .vector
  | 3 | 9 | 10 => .store
  | _ => .front

/-- The stream of an instruction word. -/
def streamOf (w : Nat) : Strm := streamClass (bits w 63 60)

/-- The fields that name S (false) or A (true) registers, in the order of the encoding (03 R53). -/
def bindFields (code : Nat) : List (Bool × Nat × Nat) :=
  if code = op 2 0 ∨ code = op 3 0 then [(true, 43, 40), (true, 39, 36), (false, 35, 31), (false, 30, 26)]
  else if code = op 2 1 then
    [(true, 43, 40), (true, 39, 36), (true, 35, 32), (false, 31, 27), (false, 26, 22)]
  else if code = op 13 0 ∨ code = op 3 1 then
    [(true, 43, 40), (true, 39, 36), (true, 35, 32), (false, 31, 27), (false, 26, 22)]
  else if code = op 4 1 then [(true, 40, 37), (true, 36, 33), (false, 32, 28), (false, 27, 23)]
  else if code = op 4 2 then [(true, 40, 37), (false, 36, 32)]
  else if code = op 5 15 ∨ code = op 5 16 ∨ code = op 5 17 then [(false, 19, 15)]
  else if code = op 6 0 then
    [(true, 43, 40), (true, 39, 36), (true, 35, 32), (true, 31, 28), (false, 27, 23), (false, 22, 18)]
  else if code = op 7 0 then
    [(true, 43, 40), (true, 39, 36), (false, 35, 31), (false, 30, 26), (false, 23, 19)]
  else if code = op 7 1 then
    [(true, 43, 40), (true, 39, 36), (true, 35, 32), (false, 31, 27), (false, 26, 22)]
  else if code = op 9 0 then [(false, 39, 35), (false, 34, 30)]
  else if code = op 10 1 then [(false, 43, 39)]
  else if code = op 12 0 then
    -- seven registers: SDO and SSO share the sixth value, 32 bits each being used of either half
    [(true, 43, 40), (true, 39, 36), (false, 35, 31), (false, 30, 26), (true, 20, 17), (false, 16, 12),
     (false, 11, 7)]
  else if code = op 12 1 then [(false, 22, 18)]
  else []

/-- The bound operand values of an instruction, read at delivery (03 R53). -/
def bindOps (x : Cell) (w : Nat) : List Nat :=
  (bindFields (opCode w)).map (fun (a, hi, lo) =>
    if a then (x.rA (bits w hi lo)).toNat else (x.rS (bits w hi lo)).toNat)

/-! A register kinds (03 R49, 04 R82). -/

/-- The address an A value holds, where it is a physical address. -/
def physAddr (v : Nat) : Except Nat Nat :=
  if bits v 47 44 = 0 then .ok (bits v 43 0) else .error errReserved

/-- The scratchpad offset of a descriptor reference, aligned to 64 bytes. -/
def descRef (v : Nat) : Except Nat Nat :=
  if bits v 47 47 = 1 ∧ bits v 46 24 = 0 ∧ v % 64 = 0 then .ok (bits v 23 0) else .error errReserved

/-- Either kind with its must-be-zero bits zero (03 R49). -/
def aValueOk (v : Nat) : Bool :=
  if bits v 47 47 = 1 then decide (bits v 46 24 = 0) else decide (bits v 46 44 = 0)

/-! Where operands may lie (04 R86). -/

/-- The own scratchpad; any memory that the region table lets the partition read; the own scratchpad or a common store; what STT
and SCAT write; any readable address, registers included. -/
inductive Reach where
  | own | any | ownOrCs | store | read
  deriving DecidableEq, Repr

/-- `[a, a + n)` lies in the register range. -/
def regPlace (a n : Nat) : Bool :=
  match place a n with
  | .unit _ | .regs => true
  | _ => false

/-- Every register of `[a, a + n)` may be read by `r`. -/
def State.regsReadable (s : State) (r : Reader) (a n : Nat) : Bool :=
  (List.range ((a % 8 + n + 7) / 8)).all (fun i => s.regReadable r (a / 8 * 8 + 8 * i))

/-- A cell may reach `[a, a + n)` for this use; an unmapped address and a denied one are refused under 01 R18. -/
def State.reaches (s : State) (c : Nat) (r : Reach) (a n : Nat) : Except Nat Unit :=
  let p := place a n
  let perm := if s.canRead c (s.partOf c) a n then .ok () else .error errRefused
  if p = .spad c then .ok ()
  else if p = .none then .error errRefused
  else match r with
  | .own => .error errWindow
  | .any => perm
  | .read =>
    if regPlace a n then (if s.regsReadable { part := s.partOf c } a n then .ok () else .error errRefused) else perm
  | .ownOrCs =>
    match p with
    | .cs _ => perm
    | _ => .error errWindow
  | .store =>
    match p with
    | .spad _ => if s.outOfService p then .error errRefused else .ok ()
    | .unit 63 => if a % 0x10000 ≥ 0xC000 then .ok () else .error errWindow
    | .main | .cs _ => if s.canWrite c (s.partOf c) a n then .ok () else .error errRefused
    | _ => .error errWindow

/-- Read `n` bytes for cell `c`. -/
def State.cellRead (s : State) (c : Nat) (r : Reach) (a n : Nat) : Except Nat (List Nat) :=
  match s.reaches c r a n with
  | .error e => .error e
  | .ok () =>
    if regPlace a n then .ok (s.readRegs a n)
    else if s.readFails c (s.partOf c) a n then .error (memErr (s.firstBad c (s.partOf c) a n))
    else .ok (s.readBytes c (s.partOf c) a n)

/-! Tensor descriptors (04 R83 to R85). -/

structure Desc where
  base : Nat
  sbase : Nat
  fmt : Fmt
  rank : Nat
  d0 : Nat
  d1 : Nat
  d2 : Nat
  d3 : Nat
  s1 : Nat
  s2 : Nat
  s3 : Nat
  deriving DecidableEq, Repr


def dimOk (rank n d : Nat) : Bool :=
  decide (1 ≤ d ∧ d ≤ 1048576) && (decide (n < rank) || decide (d = 1))

def strOk (rank n x : Nat) : Bool := decide (n < rank) || decide (x = 0)

/-- Parse 64 descriptor bytes: every other rule before the block-axis rule (04 R83). -/
def parseDesc (b : List Nat) : Except Nat Desc :=
  let base := fieldAt b 0 8
  let sbase := fieldAt b 8 8
  let fm := fieldAt b 0x10 1
  let rank := fieldAt b 0x11 1
  let d := fun i => fieldAt b (0x18 + 4 * i) 4
  let st := fun i => fieldAt b (0x24 + 4 * i) 4
  match Fmt.ofCode fm with
  | none => .error errReserved
  | some f =>
    if base ≥ 2 ^ 44 ∨ sbase ≥ 2 ^ 44 ∨ (!f.isMx ∧ sbase ≠ 0) ∨ rank < 1 ∨ rank > 4 ∨
       fieldAt b 0x12 6 ≠ 0 ∨ fieldAt b 0x34 12 ≠ 0 ∨
       !(dimOk rank 0 (d 0) && dimOk rank 1 (d 1) && dimOk rank 2 (d 2) && dimOk rank 3 (d 3)) ∨
       !(strOk rank 1 (st 1) && strOk rank 2 (st 2) && strOk rank 3 (st 3)) ∨
       (f = .int4 ∧ d 0 % 2 ≠ 0)
    then .error errReserved
    else if f.isMx ∧ d 0 % 32 ≠ 0 then .error errFormat
    else .ok { base := base, sbase := sbase, fmt := f, rank := rank, d0 := d 0, d1 := d 1, d2 := d 2,
               d3 := d 3, s1 := st 1, s2 := st 2, s3 := st 3 }

/-- Read the descriptor an A value refers to and add an offset register (04 R83, R85). -/
def State.desc (s : State) (c aval off : Nat) : Except Nat Desc :=
  match descRef aval with
  | .error e => .error e
  | .ok o =>
    match s.cellRead c .own (spadBase c + o) 64 with
    | .error e => .error e
    | .ok b =>
      match parseDesc b with
      | .error e => .error e
      | .ok d => .ok { d with base := (d.base + bits off 31 0) % 2 ^ 44,
                              sbase := if d.fmt.isMx then (d.sbase + bits off 63 32) % 2 ^ 44 else d.sbase }

/-- The descriptors that the bound A values of an instruction refer to, as its stream reads them when it begins (04 R83); one that
cannot be read is left out. -/
def State.readDescs (s : State) (c : Nat) (e : QEntry) : List (Nat × List Nat) :=
  ((bindFields (opCode e.word.toNat)).zip e.ops).filterMap (fun ((isA, _, _), v) =>
    match isA, descRef v with
    | true, .ok o =>
      match s.cellRead c .own (spadBase c + o) 64 with
      | .ok b => some (spadBase c + o, b)
      | .error _ => none
    | _, _ => none)

/-- The state with the descriptors that an instruction read as it began, from which its operands are taken (04 R83). -/
def State.withDescs (s : State) (e : QEntry) : State :=
  e.descs.foldl (fun s (a, b) => s.store a (byteList b)) s

/-- Number of rows (index 1 fastest). -/
def Desc.rows (d : Desc) : Nat := d.d1 * d.d2 * d.d3

def Desc.elems (d : Desc) : Nat := d.d0 * d.rows

/-- Bytes of one row of DIM0 elements. -/
def Desc.rowBytes (d : Desc) : Nat := (d.d0 * d.fmt.bits + 7) / 8

/-- Address of row `(i1, i2, i3)`. -/
def Desc.rowAddr (d : Desc) (i1 i2 i3 : Nat) : Nat :=
  (d.base + i1 * d.s1 + i2 * d.s2 + i3 * d.s3) % 2 ^ 44

/-- Address of the `r`-th row in ascending linear index. -/
def Desc.row (d : Desc) (r : Nat) : Nat :=
  d.rowAddr (r % d.d1) (r / d.d1 % d.d2) (r / d.d1 / d.d2)

/-- Scales of one row, and their address (04 R83: the scale plane is dense). -/
def Desc.scales (d : Desc) : Nat := if d.fmt.isMx then d.d0 / 32 else 0
def Desc.scaleRow (d : Desc) (r : Nat) : Nat := (d.sbase + r * (d.d0 / 32)) % 2 ^ 44

def Desc.sameDims (a b : Desc) : Bool :=
  decide (a.d0 = b.d0 ∧ a.d1 = b.d1 ∧ a.d2 = b.d2 ∧ a.d3 = b.d3)

/-- Fold a check over `0 … n − 1`, stopping at the first error. -/
def checkAll (f : Nat → Except Nat Unit) : Nat → Nat → Except Nat Unit
  | 0, _ => .ok ()
  | n + 1, i =>
    match f i with
    | .error e => .error e
    | .ok () => checkAll f n (i + 1)

/-- Collect `f i` for `i … i + n − 1`, stopping at the first error. -/
def collect {α : Type} (f : Nat → Except Nat α) : Nat → Nat → Except Nat (List α)
  | 0, _ => .ok []
  | n + 1, i =>
    match f i with
    | .error e => .error e
    | .ok x =>
      match collect f n (i + 1) with
      | .error e => .error e
      | .ok t => .ok (x :: t)

/-- Every row and scale row may be reached (04 R86). -/
def State.reachAll (s : State) (c : Nat) (r : Reach) (d : Desc) : Except Nat Unit :=
  checkAll (fun i =>
    match s.reaches c r (d.row i) d.rowBytes with
    | .error e => .error e
    | .ok () => if d.scales = 0 then .ok () else s.reaches c r (d.scaleRow i) d.scales)
    d.rows 0

/-- The encoding of element `i` in packed bytes (02 R28). -/
def elemAt (f : Fmt) (b : List Nat) (i : Nat) : Nat :=
  let o := i * f.bits
  leOf ((b.drop (o / 8)).take ((o % 8 + f.bits + 7) / 8)) / 2 ^ (o % 8) % 2 ^ f.bits

/-- Pack encodings into bytes (02 R28). -/
def packElems (f : Fmt) (es : List Nat) : List Byte :=
  let v := es.foldr (fun e acc => e % 2 ^ f.bits + 2 ^ f.bits * acc) 0
  byteList (bytesOf ((es.length * f.bits + 7) / 8) v)

/-- A run of elements of one row as encodings with their scales (none where the format has none). -/
structure Row where
  els : List Nat
  scales : List Nat
  deriving DecidableEq, Repr

/-- Bytes from the row's start to element `i`. -/
def Desc.elemOff (d : Desc) (i : Nat) : Nat := i * d.fmt.bits / 8

/-- Read `n` elements of row `r` from element `i0` on, which starts a byte and a block. -/
def State.readSeg (s : State) (c : Nat) (rc : Reach) (d : Desc) (r i0 n : Nat) : Except Nat Row :=
  match s.cellRead c rc (d.row r + d.elemOff i0) ((n * d.fmt.bits + 7) / 8) with
  | .error e => .error e
  | .ok b =>
    let els := (List.range n).map (elemAt d.fmt b)
    if d.scales = 0 then .ok { els := els, scales := [] }
    else
      match s.cellRead c rc (d.scaleRow r + i0 / 32) (n / 32) with
      | .error e => .error e
      | .ok sc => .ok { els := els, scales := sc }

/-- Read row `r` of a tensor. -/
def State.readRow (s : State) (c : Nat) (rc : Reach) (d : Desc) (r : Nat) : Except Nat Row :=
  s.readSeg c rc d r 0 d.d0

/-- What reading those elements leaves behind: corrections and mirror fallbacks. -/
def State.noteSeg (s : State) (c : Nat) (d : Desc) (r i0 n : Nat) : State :=
  let p := s.partOf c
  let s := s.noteRead c p (d.row r + d.elemOff i0) ((n * d.fmt.bits + 7) / 8)
  if d.scales = 0 then s else s.noteRead c p (d.scaleRow r + i0 / 32) (n / 32)

/-- The exact values of a row (02 R31) and the flags their reading raises (02 R30). -/
def Row.nums (f : Fmt) (r : Row) : List Num :=
  (List.range r.els.length).zip r.els |>.map (fun (i, e) =>
    if f.isMx then mxValue f (r.scales.getD (i / 32) 0xFF) e else f.read e)

def Row.flags (f : Fmt) (r : Row) : Flags := r.els.foldl (fun g e => g.or (f.readFlags e)) {}

/-- Signed values of an integer row. -/
def Row.ints (f : Fmt) (r : Row) : List Int := r.els.map (signedOf f.bits)

/-- Write bytes for cell `c`: into its own scratchpad, a common store or main memory at once, into a
remote scratchpad or the mailbox as packets in flight (04 R114, 05 R131). -/
def State.cellWrite (s : State) (c ins a : Nat) (bs : List Byte) : State × Bool :=
  match place a bs.length with
  | .spad d => if d = c then s.writeMem c (s.partOf c) a bs else (s.issueWrites c ins d a bs, false)
  | .unit 63 => (s.issueWrites c ins 63 a bs, false)
  | _ => s.writeMem c (s.partOf c) a bs

/-- Write encodings and scales into row `r` from element `i0` on; true where a read-modify-write
failed (05 R127). -/
def State.writeSeg (s : State) (c ins : Nat) (d : Desc) (r i0 : Nat) (x : Row) : State × Bool :=
  let (s, b1) := s.cellWrite c ins (d.row r + d.elemOff i0) (packElems d.fmt x.els)
  if d.scales = 0 then (s, b1)
  else
    let (s, b2) := s.cellWrite c ins (d.scaleRow r + i0 / 32) (byteList x.scales)
    (s, b1 || b2)

/-- Write runs of elements `(row, first element, what)` in order (04 R84): the state, and MEMORY_ERROR where a read-modify-write
failed, whose word alone is left unwritten (05 R127); zero where none did. -/
def State.writeSegs (s : State) (c ins : Nat) (d : Desc) (l : List (Nat × Nat × Row)) : State × Nat :=
  l.foldl (fun (acc : State × Nat) (x : Nat × Nat × Row) =>
    let (s, e) := acc
    let (s, bad) := s.writeSeg c ins d x.1 x.2.1 x.2.2
    (s, if bad ∧ e = 0 then memErr (d.row x.1) else e)) (s, 0)

/-- Copy runs `(from, to, bytes)`: all are read before the first is written. -/
def State.copyRuns (s : State) (c ins : Nat) (rc : Reach) (l : List (Nat × Nat × Nat)) : Except Nat (State × Nat) := do
  let xs ← collect (fun i => let (a, _, n) := l.getD i (0, 0, 0); s.cellRead c rc a n) l.length 0
  let s := l.foldl (fun s (a, _, n) => s.noteRead c (s.partOf c) a n) s
  return (l.zip xs).foldl (fun (acc : State × Nat) (x : (Nat × Nat × Nat) × List Nat) =>
    let (s, bad) := acc.1.cellWrite c ins x.1.2.1 (byteList x.2)
    (s, if bad ∧ acc.2 = 0 then memErr x.1.2.1 else acc.2)) (s, 0)

/-! Walker descriptors (04 R97, R98). -/

structure Walker where
  kh : Nat
  kw : Nat
  sh : Nat
  sw : Nat
  dh : Nat
  dw : Nat
  pmode : Nat
  grp : Nat
  padT : Nat
  padB : Nat
  padL : Nat
  padR : Nat
  padval : Nat
  outH : Nat
  outW : Nat
  fullH : Nat
  fullW : Nat
  orgY : Int
  orgX : Int
  c0 : Nat
  cn : Nat
  deriving DecidableEq, Repr

def inRange (lo hi v : Nat) : Bool := decide (lo ≤ v ∧ v ≤ hi)

/-- Parse and check a walker against its source (04 R97, R98); `kmax` bounds KH and KW. -/
def parseWalker (kmax : Nat) (vdw : Bool) (b : List Nat) (src : Desc) : Except Nat Walker :=
  let f := fun o n => fieldAt b o n
  let w : Walker :=
    { kh := f 0 1, kw := f 1 1, sh := f 2 1, sw := f 3 1, dh := f 4 1, dw := f 5 1, pmode := f 6 1,
      grp := f 7 1, padT := f 8 2, padB := f 0xA 2, padL := f 0xC 2, padR := f 0xE 2,
      padval := f 0x10 4, outH := f 0x14 2, outW := f 0x16 2, fullH := f 0x18 2, fullW := f 0x1A 2,
      orgY := signedOf 16 (f 0x1C 2), orgX := signedOf 16 (f 0x1E 2), c0 := f 0x20 2, cn := f 0x22 2 }
  let okH := decide (w.dh * (w.kh - 1) + 1 ≤ w.fullH + w.padT + w.padB ∧
    w.outH = (w.fullH + w.padT + w.padB - w.dh * (w.kh - 1) - 1) / w.sh + 1)
  let okW := decide (w.dw * (w.kw - 1) + 1 ≤ w.fullW + w.padL + w.padR ∧
    w.outW = (w.fullW + w.padL + w.padR - w.dw * (w.kw - 1) - 1) / w.sw + 1)
  if inRange 1 kmax w.kh && inRange 1 kmax w.kw && inRange 1 8 w.sh && inRange 1 8 w.sw &&
     inRange 1 8 w.dh && inRange 1 8 w.dw && decide (w.pmode ≤ 3) &&
     (!vdw || w.grp == 1 || w.grp == 2 || w.grp == 4 || w.grp == 8 || w.grp == 16 || w.grp == 32 ||
       w.grp == 64) &&
     decide (w.padT ≤ 127 ∧ w.padB ≤ 127 ∧ w.padL ≤ 127 ∧ w.padR ≤ 127) &&
     inRange 1 65535 w.outH && inRange 1 65535 w.outW && inRange 1 65535 w.fullH &&
     inRange 1 65535 w.fullW && inRange 1 4096 w.cn && decide (fieldAt b 0x24 28 = 0) &&
     okH && okW &&
     (decide (w.pmode ≠ 2) || decide (w.padT < w.fullH ∧ w.padB < w.fullH ∧ w.padL < w.fullW ∧
       w.padR < w.fullW)) &&
     decide (src.rank = 3 ∧ w.c0 + w.cn ≤ src.d0) &&
     (decide (src.fmt ≠ .int4) || decide (w.c0 % 2 = 0 ∧ w.cn % 2 = 0)) &&
     (!src.fmt.isMx || decide (w.c0 % 32 = 0 ∧ w.cn % 32 = 0)) &&
     decide (w.kh * w.kw * w.cn ≤ 4096) && decide (w.padval < 2 ^ src.fmt.bits)
  then .ok w else .error errReserved

/-- Read the walker an A value refers to. -/
def State.walker (s : State) (c aval : Nat) (kmax : Nat) (vdw : Bool) (src : Desc) : Except Nat Walker :=
  match descRef aval with
  | .error e => .error e
  | .ok o =>
    match s.cellRead c .own (spadBase c + o) 64 with
    | .error e => .error e
    | .ok b => parseWalker kmax vdw b src

/-- SPOS (04 R98): first output column, output row, pixel count. -/
def sposOk (w : Walker) (spos : Nat) : Bool :=
  decide (bits spos 63 48 = 0 ∧ 1 ≤ bits spos 47 32 ∧ bits spos 47 32 ≤ 128 ∧
    bits spos 31 16 < w.outH ∧ bits spos 15 0 + bits spos 47 32 ≤ w.outW)

def reflect (a : Int) (n : Nat) : Int :=
  if a < 0 then -a else if a ≥ n then 2 * ((n : Int) - 1) - a else a

def clampIdx (a : Int) (n : Nat) : Int := min (max a 0) ((n : Int) - 1)

/-- One tap (04 R99, R100): the whole-map coordinate it reads, or none where padding supplies it. -/
def tapCoord (w : Walker) (oy ox ky kx : Nat) : Option (Int × Int) × Bool :=
  let iy : Int := (oy * w.sh : Nat) - (w.padT : Int) + (ky * w.dh : Nat)
  let ix : Int := (ox * w.sw : Nat) - (w.padL : Int) + (kx * w.dw : Nat)
  if 0 ≤ iy ∧ iy < w.fullH ∧ 0 ≤ ix ∧ ix < w.fullW then (some (iy, ix), true)
  else if w.pmode = 2 then (some (reflect iy w.fullH, reflect ix w.fullW), false)
  else if w.pmode = 3 then (some (clampIdx iy w.fullH, clampIdx ix w.fullW), false)
  else (none, false)

/-- One staged tap: its channels with their scales, whether it is data of the map, and the source row
that it was read from. -/
structure Tap where
  row : Row
  real : Bool
  src : Option Nat
  deriving DecidableEq, Repr

/-- The `cn` channels of one tap, as LDW stages them (04 R99, R100). -/
def State.tap (s : State) (c : Nat) (src : Desc) (w : Walker) (oy ox ky kx : Nat) :
    Except Nat Tap :=
  match tapCoord w oy ox ky kx with
  | (none, _) =>
    let e := if w.pmode = 1 then w.padval else 0
    .ok { row := { els := List.replicate w.cn e, scales := List.replicate (w.cn / 32) 0x7F },
          real := false, src := none }
  | (some (iy, ix), real) =>
    let by_ := iy - w.orgY
    let bx := ix - w.orgX
    if by_ < 0 ∨ bx < 0 ∨ by_ ≥ src.d2 ∨ bx ≥ src.d1 then .error errWindow
    else
      let r := bx.toNat + src.d1 * by_.toNat
      match s.readRow c .ownOrCs src r with
      | .error e => .error e
      | .ok x =>
        .ok { row := { els := (x.els.drop w.c0).take w.cn,
                       scales := (x.scales.drop (w.c0 / 32)).take (w.cn / 32) },
              real := real, src := some r }

/-- What reading taps leaves behind. -/
def State.noteTaps (s : State) (c : Nat) (src : Desc) (l : List Tap) : State :=
  l.foldl (fun s t => match t.src with
    | some r => s.noteSeg c src r 0 src.d0
    | none => s) s

end Sys2Proof.Machine
end

