-- ==== Sys2Proof/Machine/EngineOps.lean ====
section
/-! DEFINITION. What the five kinds of engine share: reading and writing memory in a command's name, and
ending a command with its status (06 R161, R162, R169; 07 R178, R181; 08 R217, R221, R227, R234;
09 R246, R249). -/

namespace Sys2Proof.Machine

/-- How a command ends other than with OK. -/
inductive EErr where
  | badCommand | badProfile | access | memory | short | timeout | stale | kind | full | draft | format
  | late | badVehicle
  deriving DecidableEq, Repr

/-- The STATUS code of the engine at slot `u` (06 R169, 07 R181, 08 R221, R234, 09 R249). -/
def EErr.code (u : Nat) (e : EErr) : Nat :=
  if u < 52 then
    match e with
    | .access => 2 | .stale => 3 | .kind => 4 | .full => 5 | .draft => 6 | .memory => 7 | .format => 8
    | _ => 1
  else if u < 56 then
    match e with
    | .access => 2 | .memory => 3 | .format => 4
    | _ => 1
  else if u < 60 then
    match e with
    | .access => 2 | .stale => 3 | .memory => 4 | .badVehicle => 5
    | _ => 1
  else if u < 62 then
    match e with
    | .badProfile => 2 | .access => 3 | .short => 4 | .timeout => 5 | .memory => 6
    | _ => 1
  else
    match e with
    | .access => 2 | .late => 3 | .stale => 4 | .memory => 5 | .kind => 6
    | _ => 1

/-- A command's computation: it reads and writes the state, and may end in an error. -/
abbrev Eng := EStateM EErr State

/-- Stop with an error unless a condition holds. -/
def Eng.need (c : Bool) (e : EErr) : Eng Unit := if c then pure () else throw e

/-- Run a computation to its end or its error, keeping what it did. -/
def Eng.tried {α : Type} (f : Eng α) : Eng (Except EErr α) := fun s =>
  match f s with
  | .ok a s' => .ok (.ok a) s'
  | .error e s' => .ok (.error e) s'

/-- Read `n` bytes at `a` in the name of engine `u`. -/
def Eng.read (u a n : Nat) : Eng (List Nat) := do
  let s ← get
  if !s.canRead u (s.partOf u) a n then
    set s.refuseAccess
    throw .access
  else if s.readFails u (s.partOf u) a n then
    set (s.countEcc (s.firstBad u (s.partOf u) a n) true)
    throw .memory
  else
    set (s.noteRead u (s.partOf u) a n)
    return s.readBytes u (s.partOf u) a n

/-- Write bytes at `a` in the name of engine `u`: to main memory or a common store at once, to a
scratchpad as packets in flight that a window judges. -/
def Eng.write (u a : Nat) (bs : List Byte) : Eng Unit := do
  let s ← get
  match place a bs.length with
  | .spad d =>
    if s.outOfService (.spad d) then
      set s.refuseAccess
      throw .access
    else set (s.issueWrites u 0 d a bs)
  | _ =>
    if !s.canWrite u (s.partOf u) a bs.length then
      set s.refuseAccess
      throw .access
    else
      let (s', bad) := s.writeMem u (s.partOf u) a bs
      set s'
      if bad then
        set (s'.countEcc a true)
        throw .memory

/-- Run `f` on each of `0 … n − 1` in order. -/
def Eng.for (f : Nat → Eng Unit) : Nat → Nat → Eng Unit
  | 0, _ => pure ()
  | n + 1, i => do
    f i
    Eng.for f n (i + 1)

/-- Collect `f` over `0 … n − 1`. -/
def Eng.collect {α : Type} (f : Nat → Eng α) : Nat → Nat → Eng (List α)
  | 0, _ => pure []
  | n + 1, i => do
    let x ← f i
    let t ← Eng.collect f n (i + 1)
    return x :: t

/-- Fold a computation over a list. -/
def Eng.fold {α β : Type} (f : β → α → Eng β) : β → List α → Eng β
  | b, [] => pure b
  | b, a :: t => do
    let b' ← f b a
    Eng.fold f b' t

/-- The item in progress of the job that an engine or cell serves. -/
def State.itemOf (s : State) (u : Nat) : Option WorkItem := Tab.find (s.unit u).binds (s.itemJob u)

/-- The command in progress of an engine, where it is not an arrival. -/
def State.engItem (s : State) (u : Nat) : Option WorkItem :=
  if u < 48 ∨ u ≥ 63 ∨ s.unitState u ≠ stRunning then none
  else
    match s.itemOf u with
    | some it => if it.type = 1 then some it else none
    | none => none

/-- End the command of engine `u` with a status and the upper bits of its result. -/
def State.engEnd (s : State) (u status high : Nat) : State :=
  let s := ((s.setUnitState u stIdle).engDone u).progress u 1
  s.endItem u (if status = 0 then 0 else 2) (fun p => { p with result := high + status })

/-- A completion of an engine that was told of a fault for what it wrote: a drop at a window is ACCESS, an
uncorrectable read-modify-write MEMORY_ERROR (05 R127, R131). -/
def toldCpl (u told : Nat) (p : Cpl) : Cpl :=
  if told = 0 ∨ u < 48 ∨ p.status ≠ 0 ∨ p.item.type ≠ 1 then p
  else { p with status := 2,
                result := p.result / 256 * 256 + (if told = errWindow then EErr.access else EErr.memory).code u }

/-- Run a command of engine `u`: `f` answers the upper bits of the result of OK; an error keeps what was
written. -/
def State.engRun (s : State) (u : Nat) (f : Eng Nat) : State :=
  match f.run s with
  | .ok hi s' => s'.engEnd u 0 hi
  | .error e s' => s'.engEnd u (e.code u) 0

/-- The command block of engine `u` of `n` bytes, 64-byte aligned, in main memory or a common store. -/
def Eng.block (u a n : Nat) : Eng (List Nat) := do
  match place a n with
  | .main | .cs _ =>
    Eng.need (a % 64 == 0) .badCommand
    Eng.read u a n
  | _ =>
    modify State.refuseAccess
    throw .access

/-- The opcode of the command that engine `u` has in progress; zero, which no engine uses, where the block
cannot be read. -/
def State.engOpc (s : State) (it : WorkItem) : Nat := (s.byte it.prog).toNat

/-- Every byte of `[o, o + n)` of a block is zero. -/
def zeroBytes (b : List Nat) (o n : Nat) : Bool := ((b.drop o).take n).all (· == 0)

/-- An address field: `[63:44]` zero, aligned. -/
def addrField (b : List Nat) (o align : Nat) : Bool :=
  decide (leOf ((b.drop o).take 8) < 2 ^ 44 ∧ leOf ((b.drop o).take 8) % align = 0)

end Sys2Proof.Machine
end

