-- ==== Sys2Proof/Machine/BarrierOps.lean ====
section
/-! DEFINITION. The hardware barriers (03 R60 to R65). -/

namespace Sys2Proof.Machine

/-- What an arrival meets (03 R63, R64). -/
inductive ArriveRes where
  | arrived | refused | broken
  deriving DecidableEq, Repr

/-- The phase counts for the logical unit that its last slot held (17 R462). -/
def State.countLast (s : State) (slot : Nat) : State :=
  let j := s.jobOf slot
  if j = 0xFF then s
  else
    match (s.jobSlots j).findIdx? (fun u => decide (u = slot)) with
    | some n => if n < 63 then s.jobCount j (0x200 + 8 * n) else s
    | none => s

/-- Every wait at barrier `b`, of a job that a cell holds or of one whose slot is over there, becomes `w`. -/
def State.endWaits (s : State) (b : Nat) (w : BarWait) : State :=
  let s := (List.range 48).foldl (fun s c =>
    let y := s.cell c
    if y.bar = .waiting b then s.setCell c { y with bar := w } else s) s
  (List.range 48).foldl (fun s c =>
    let y := s.unit c
    s.setUnit c { y with held := y.held.map (fun (j, h) => (j, if h.bar = .waiting b then { h with bar := w } else h)) }) s

/-- Complete a phase at slot `slot`: record it, release the waiting members (03 R61, R62). -/
def State.barComplete (s : State) (b slot : Nat) : State :=
  let x := s.barrier b
  let s := s.setBarrier b { x with arrived := 0, lastSlot := slot, lastValid := true }
  let s := if slot = 63 then s else (s.sil1 (142 + slot) b).countLast slot
  s.endWaits b (.released b)

/-- Enter an arrival of a member that is not in ARRIVED, completing the phase where it is the last. -/
def State.barEnter (s : State) (b slot : Nat) : State :=
  let x := s.barrier b
  let a := setBit x.arrived slot
  let s := s.setBarrier b { x with arrived := a }
  if a = x.members then s.barComplete b slot else s

/-- Arrivals held for the next phase enter it once no member's bit stands in their way (03 R63). -/
def State.barHeld : Nat → State → Nat → State
  | 0, s, _ => s
  | n + 1, s, b =>
    let x := s.barrier b
    match x.held.find? (fun q => !bit x.arrived q) with
    | none => s
    | some q =>
      let s := s.setBarrier b { x with held := x.held.erase q }
      (s.barEnter b q).barHeld n b

/-- An arrival at barrier `b` in the name of `slot` by partition `p` (03 R63, R64). -/
def State.arrive (s : State) (b slot p : Nat) : State × ArriveRes :=
  let x := s.barrier b
  if !bit x.members slot || decide (x.owner ≠ p) then (s, .refused)
  else if x.broken then (s, .broken)
  else if bit x.arrived slot then (s.setBarrier b { x with held := x.held ++ [slot] }, .arrived)
  else
    let s := s.barEnter b slot
    (s.barHeld (s.barrier b).held.length b, .arrived)

/-- Cell `c` holds a job in its slot, or one alone (03 R77). -/
def State.holdsNow (s : State) (c : Nat) : Bool := decide (s.jobOf c ≠ 0xFF)

/-- A wait that a break ended raises BARRIER_BROKEN in the cell (03 R64). -/
def State.barError (s : State) (c : Nat) : State :=
  let x := s.cell c
  match x.bar with
  | .broken _ =>
    if s.holdsNow c then (s.setCell c { x with bar := .none }).cellError c errBroken .front x.barOff else s
  | _ => s

/-- Break a barrier (03 R64): every waiting member is released with an error, at once where its job is on its cell, else when the
job's slot comes; BAR_HART of the harts that arrived there last shows it (03 R65). -/
def State.barBreak (s : State) (b : Nat) : State :=
  let x := s.barrier b
  let s := s.setBarrier b { x with broken := true, held := [] }
  let s := (List.range 8).foldl (fun s p =>
    if s.getF (BAR_HART p) bhLAST = b + 1 then s.setF (BAR_HART p) bhBROKEN 1 else s) s
  (List.range 48).foldl (fun s c => s.barError c) (s.endWaits b (.broken b))

end Sys2Proof.Machine
end

