-- ==== Sys2Proof/Machine/CellImage.lean ====
section
/-! DEFINITION. The state image of a cell: its bytes, and a cell read back from them (03 R75, R76). -/

namespace Sys2Proof.Machine

def imageSize : Nat := 281600
def imageMagic : Nat := 0x53494D47

/-- The job identifier of the work item in progress (10 R276); zero when none is. -/
def State.itemJobId (s : State) (u : Nat) : Nat :=
  let j := s.itemJob u
  match Tab.find (s.unit u).binds j with
  | some _ => s.getF (JOB_STAT j) jsJOBID
  | none => 0

/-- The six 8-byte values of a queue entry. CVT binds seven registers: the bits of SSO fill the free
upper 16 bits of the values of AD, AS, SS and AC (log 10). -/
def packOps (w : Nat) (l : List Nat) : List Nat :=
  if opCode w = op 12 0 then
    match l with
    | [ad, as_, ss, sn, ac, sdo, sso] =>
      let hi := fun i => sso / 2 ^ (16 * i) % 2 ^ 16 * 2 ^ 48
      if ss / 2 ^ 48 = 0 then [ad + hi 0, as_ + hi 1, ss + hi 2, sn, ac + hi 3, sdo]
      else [0, as_, ss % 2 ^ 48, sn, ac, sdo]
    | _ => l
  else l

/-- The bound values that an image entry holds for word `w`. -/
def unpackOps (w : Nat) (l : List Nat) : List Nat :=
  if opCode w = op 12 0 then
    match l with
    | [ad, as_, ss, sn, ac, sdo] =>
      let lo := fun x => x % 2 ^ 48
      [lo ad, lo as_, lo ss, sn, lo ac, sdo,
       ad / 2 ^ 48 + as_ / 2 ^ 48 * 2 ^ 16 + ss / 2 ^ 48 * 2 ^ 32 + ac / 2 ^ 48 * 2 ^ 48]
    | _ => l
  else if opCode w = op 7 0 then l
  else l.take (bindFields (opCode w)).length

/-- The 64 bytes of a queue entry (03 R75). -/
def entryBytes (e : QEntry) : List Nat :=
  let os := packOps e.word.toNat e.ops
  bytesOf 8 e.word.toNat ++ bytesOf 4 e.off ++ bytesOf 2 e.steps ++ bytesOf 2 0 ++
  os.flatMap (bytesOf 8) ++ List.replicate (48 - 8 * os.length) 0

/-- A queue of `n` entries, head first. -/
def queueBytes (n : Nat) (q : Stream) : List Nat :=
  (q.q.flatMap entryBytes) ++ List.replicate (64 * (n - q.q.length)) 0

/-- The bytes of the state image of cell `c` (03 R75). -/
def State.imageBytes (s : State) (c reason : Nat) : List Nat :=
  let x := s.cell c
  bytesOf 4 imageMagic ++ bytesOf 2 1 ++ bytesOf 1 c ++ bytesOf 1 reason ++
  bytesOf 8 (s.statusWord c) ++ bytesOf 4 (s.itemJobId c) ++ List.replicate 44 0 ++
  (List.range 32).flatMap (fun r => bytesOf 8 (x.rS r).toNat) ++
  (List.range 16).flatMap (fun r => bytesOf 8 (x.rA r).toNat) ++
  (List.range 16).map x.rK ++
  bytesOf 4 x.fePc ++ bytesOf 2 x.feSteps ++ bytesOf 2 0 ++
  bytesOf 4 x.load.pc ++ bytesOf 4 x.tensor.pc ++ bytesOf 4 x.vector.pc ++ bytesOf 4 x.store.pc ++
  bytesOf 1 (s.flagBits c) ++ bytesOf 1 x.tfp ++ bytesOf 1 x.tsat ++ bytesOf 1 x.loops.length ++
  bytesOf 1 x.calls.length ++ bytesOf 3 0 ++
  bytesOf 2 (s.getF (UNIT_CTRL c) ctrlSTALL) ++ bytesOf 1 (s.getF (UNIT_CTRL c) ctrlPBASE) ++
  bytesOf 1 (s.getF (UNIT_CTRL c) ctrlPLEN) ++
  bytesOf 1 x.load.q.length ++ bytesOf 1 x.tensor.q.length ++ bytesOf 1 x.vector.q.length ++
  bytesOf 1 x.store.q.length ++ bytesOf 8 0 ++
  x.loops.reverse.flatMap (fun e =>
    bytesOf 4 e.start ++ bytesOf 4 e.stop ++ bytesOf 4 e.remaining ++ bytesOf 4 0) ++
  List.replicate (16 * (8 - x.loops.length)) 0 ++
  x.calls.reverse.flatMap (bytesOf 4) ++ List.replicate (4 * (16 - x.calls.length)) 0 ++
  List.replicate 320 0 ++
  queueBytes 64 x.load ++ queueBytes 32 x.tensor ++ queueBytes 32 x.vector ++ queueBytes 32 x.store ++
  (List.range 32).flatMap (fun r => (List.range 64).flatMap (fun l => bytesOf 4 (x.rV r l))) ++
  (List.range 8).flatMap (fun t => (List.range 128).flatMap (fun m =>
    (List.range 64).flatMap (fun n => bytesOf 4 (x.rT t m n))))

/-! Reading an image back (03 R76): `rd o n` is the little-endian value of `n` bytes at offset `o`. -/

/-- Every one of `n` bytes at `o` is zero. -/
def zeros (rd : Nat → Nat → Nat) (o n : Nat) : Bool := (List.range n).all (fun i => decide (rd (o + i) 1 = 0))

/-- Reserved bytes of a queue and of its entries beyond the occupancy are zero. -/
def queueOk (rd : Nat → Nat → Nat) (o depth occ : Nat) : Bool :=
  decide (occ ≤ depth) &&
  (List.range occ).all (fun i => zeros rd (o + 64 * i + 14) 2) &&
  zeros rd (o + 64 * occ) (64 * (depth - occ))

/-- The structure of an image holds (03 R76). -/
def imageOk (rd : Nat → Nat → Nat) : Bool :=
  let nl := rd 0x1EB 1
  let nc := rd 0x1EC 1
  decide (rd 7 1 ≤ 3) && decide (nl ≤ 8) && decide (nc ≤ 16) && decide (rd 0x1F3 1 ≤ 64) &&
  (List.range 16).all (fun r => decide (rd (0x140 + 8 * r + 6) 2 = 0)) &&
  zeros rd 0x14 44 && zeros rd 0x1D6 2 && zeros rd 0x1ED 3 && zeros rd 0x1F8 8 &&
  (List.range 8).all (fun i => zeros rd (0x200 + 16 * i + 12) 4) && zeros rd 0x2C0 320 &&
  queueOk rd 0x400 64 (rd 0x1F4 1) && queueOk rd 0x1400 32 (rd 0x1F5 1) &&
  queueOk rd 0x1C00 32 (rd 0x1F6 1) && queueOk rd 0x2400 32 (rd 0x1F7 1)

/-- One queue entry of stream `st`: an instruction of it that has completed a step has begun; a word that is none is decoded by
the stream (03 R76). -/
def readEntry (rd : Nat → Nat → Nat) (st : Strm) (o : Nat) : QEntry :=
  let w := rd o 8
  { word := BitVec.ofNat 64 w, off := rd (o + 8) 4, steps := rd (o + 12) 2,
    ops := unpackOps w ((List.range 6).map (fun i => rd (o + 16 + 8 * i) 8)),
    begun := decide (rd (o + 12) 2 ≠ 0) && encOk w && decide (streamOf w = st) }

def readQueue (rd : Nat → Nat → Nat) (st : Strm) (o occ pc : Nat) : Stream :=
  { q := (List.range occ).map (fun i => readEntry rd st (o + 64 * i)), lastPc := pc }

/-- The cell of an image, over the cell `x` it is loaded into, whose program store stays. -/
def readCell (rd : Nat → Nat → Nat) (x : Cell) : Cell :=
  let y : Cell :=
    { prog := x.prog, storeSeq := x.storeSeq, tfp := rd 0x1E9 1, tsat := rd 0x1EA 1, fePc := rd 0x1D0 4, feSteps := rd 0x1D4 2,
      loops := ((List.range (rd 0x1EB 1)).map (fun i =>
        { start := rd (0x200 + 16 * i) 4, stop := rd (0x204 + 16 * i) 4,
          remaining := rd (0x208 + 16 * i) 4 })).reverse,
      calls := ((List.range (rd 0x1EC 1)).map (fun i => rd (0x280 + 4 * i) 4)).reverse,
      load := readQueue rd .load 0x400 (rd 0x1F4 1) (rd 0x1D8 4),
      tensor := readQueue rd .tensor 0x1400 (rd 0x1F5 1) (rd 0x1DC 4),
      vector := readQueue rd .vector 0x1C00 (rd 0x1F6 1) (rd 0x1E0 4),
      store := readQueue rd .store 0x2400 (rd 0x1F7 1) (rd 0x1E4 4) }
  let y := (List.range 32).foldl (fun (y : Cell) r => y.wS r (BitVec.ofNat 64 (rd (0x40 + 8 * r) 8))) y
  let y := (List.range 16).foldl (fun (y : Cell) r => y.wA r (BitVec.ofNat 48 (rd (0x140 + 8 * r) 8))) y
  let y := (List.range 16).foldl (fun (y : Cell) r => y.wK r (rd (0x1C0 + r) 1)) y
  let y := (List.range 2048).foldl (fun (y : Cell) i => y.wV (i / 64) (i % 64) (rd (0x2C00 + 4 * i) 4)) y
  (List.range 65536).foldl (fun (y : Cell) i =>
    y.wT (i / 8192) (i / 64 % 128) (i % 64) (rd (0x4C00 + 4 * i) 4)) y

/-- A stream read from an image, with what no image holds of it where it is the stream that the cell kept (03 R77). -/
def Stream.over (kept img : Stream) : Stream :=
  let key := fun (e : QEntry) => (e.word, e.off, e.steps)
  if kept.q.map key = img.q.map key then { kept with lastPc := img.lastPc } else img

/-- Load an image into cell `c` with its PBASE, PLEN, STALL_LIMIT and arithmetic flags (03 R76). The
cell ends in state `st`. -/
def State.loadImage (s : State) (c : Nat) (rd : Nat → Nat → Nat) (st : Nat) : State :=
  let s := s.setCell c (readCell rd (s.cell c))
  let s := s.setF (UNIT_CTRL c) ctrlSTALL (rd 0x1F0 2)
  let s := s.setF (UNIT_CTRL c) ctrlPBASE (rd 0x1F2 1)
  let s := s.setF (UNIT_CTRL c) ctrlPLEN (rd 0x1F3 1)
  let f := rd 0x1E8 1
  let s := s.setF (UNIT_STATUS c) stINV (f % 2)
  let s := s.setF (UNIT_STATUS c) stOVF (f / 2 % 2)
  let s := s.setF (UNIT_STATUS c) stUNF (f / 4 % 2)
  let s := s.setF (UNIT_STATUS c) stSAT (f / 8 % 2)
  let s := s.setF (UNIT_STATUS c) stNSC (f / 16 % 2)
  s.setUnitState c st

end Sys2Proof.Machine
end

