-- ==== Sys2Proof/Machine/QueueOps.lean ====
section
/-! DEFINITION. Queues: pushing, taking and completing work, and the interrupts that completions raise
(10 R268 to R276, 17 R451, R462). -/

namespace Sys2Proof.Machine

/-- Depth of queue `q`. -/
def State.qDepth (s : State) (q : Nat) : Nat := 2 ^ s.getF (qRing q) qLDEPTH

/-- Occupancy (10 R268). -/
def State.qOcc (s : State) (q : Nat) : Nat := subMod 32 (s.qTailOf q) (s.qHead q)
def State.qFull (s : State) (q : Nat) : Bool := decide (s.qDepth q ≤ s.qOcc q)

/-- Where the entry with sequence number `n` lies (10 R268). -/
def State.qEntryAddr (s : State) (q n : Nat) : Nat :=
  s.getF (qRing q) qBASE * 64 + n % s.qDepth q * 64

/-- The 64 bytes of an entry. -/
def State.qEntry (s : State) (q n : Nat) : List Nat := s.readBytes 65 (s.qPart q) (s.qEntryAddr q n) 64

/-- A drop: OVERRUN is set and counted (10 R271). -/
def State.qDrop (s : State) (q : Nat) : State := (s.setF (qCtl q) qOVERRUN 1).event 9

/-- Write an entry at TAIL and advance it; the record of 10 R298 notes whether island A pushed it. -/
def State.qAppend (s : State) (q : Nat) (bs : List Nat) (island : Bool) : State :=
  let t := s.qTailOf q
  let (s, _) := s.writeMem 65 (s.qPart q) (s.qEntryAddr q t) (byteList bs)
  let s := s.setF (qTail q) qTAIL (t + 1)
  { s with qIsland := Tab.set false s.qIsland (65536 * q + t % s.qDepth q) island }

/-- What became of a push. -/
inductive PushRes where
  | accepted | held | refused | dropped
  deriving DecidableEq, Repr

/-- Who pushes: a cell's ENQ of a partition, another initiator of a partition, or island A. -/
inductive Pusher where
  | enq (p : Nat)
  | init (p : Nat)
  | island
  deriving DecidableEq, Repr

/-- A Blotter feed, which island A alone writes (10 R277). -/
def isFeed (q : Nat) : Bool := decide (63 * 256 + 64 ≤ q ∧ q < 63 * 256 + 127)

/-- A push at the queue it reached, after forwarding (10 R271): 64 bytes at a queue in mode SW are a write of another size, which
is dropped (10 R270). -/
def State.pushHere (s : State) (q : Nat) (bs : List Nat) : Pusher → State × PushRes
  | .enq p =>
    if !s.qEn q || decide (s.qPart q ≠ p) || isFeed q then (s, .refused)
    else if s.flag (qCtl q) qPMODE then (s.qDrop q, .dropped)
    else if s.qFull q then (s, .held)
    else (s.qAppend q bs false, .accepted)
  | .init p =>
    if s.qPart q ≠ p ∨ isFeed q then (s.refuseAccess, .refused)
    else if !s.qEn q || s.qFull q || s.flag (qCtl q) qPMODE then (s.qDrop q, .dropped)
    else (s.qAppend q bs false, .accepted)
  | .island =>
    if !s.qEn q || s.qFull q || s.flag (qCtl q) qPMODE then (s.qDrop q, .dropped)
    else (s.qAppend q bs true, .accepted)

/-- Where a push to queue `q` arrives (10 R271). -/
def State.qTarget (s : State) (q : Nat) : Nat := if s.flag (qCtl q) qRDRV then s.getF (qCtl q) qREDIRECT else q

/-- A push of 64 bytes: forwarding is one hop only (10 R271). -/
def State.push (s : State) (q : Nat) (bs : List Nat) (by_ : Pusher) : State × PushRes :=
  if s.flag (qCtl q) qRDRV then
    let q' := s.getF (qCtl q) qREDIRECT
    if s.flag (qCtl q') qRDRV then (s.qDrop q', .dropped) else s.pushHere q' bs by_
  else s.pushHere q bs by_

/-- The lowest valid CIT entry that names queue `q` (17 R451). -/
def State.citFor (s : State) (q : Nat) : Option Nat :=
  (List.range 1024).find? (fun n => s.flag (CIT n) citV && decide (s.getF (CIT n) citQUEUE = q))

/-- A write of an identity to an interrupt file; the files of hart 2p + 1 discard it while the pair is
locked (17 R450). -/
def State.msi (s : State) (hart file id : Nat) : State :=
  if id = 0 then s
  else if hart % 2 = 1 ∧ s.getF (AP_STAT (hart / 2)) apMODE ≠ 0 then s
  else { s with imsic := Tab.set false s.imsic ((5 * hart + file) * 256 + id) true }

/-- COMPLETION_INTERRUPT (17 R451). -/
def State.cqInterrupt (s : State) (q : Nat) : State :=
  if s.flag (qCtl q) qIRQEN then
    match s.citFor q with
    | some n => s.msi (s.getF (CIT n) citHART) (s.getF (CIT n) citFILE) (s.getF (CIT n) citEIID)
    | none => s
  else s

/-- Push to a completion queue and raise its interrupt. -/
def State.pushCq (s : State) (q : Nat) (bs : List Nat) (by_ : Pusher) : State :=
  match s.push q bs by_ with
  | (s, .accepted) =>
    s.cqInterrupt (s.qTarget q)
  | (s, _) => s

def State.frameSeq (s : State) (u : Nat) : Nat := s.getF (UNIT_PART u) upFRAMESEQ

/-- The deadline of a work item has passed by the unit's counter (10 R284). -/
def State.pastDeadline (s : State) (u : Nat) (it : WorkItem) : Bool :=
  if it.dlUs = 0xFFFF then false
  else
    let d := subMod 16 (s.frameSeq u) it.dlSeq
    if d = 0 then decide (us it.dlUs < s.now - (s.unit u).frameAt)
    else if d = 2 ^ 15 then true
    else newer 16 (s.frameSeq u) it.dlSeq

/-- The 64 bytes of a completion (10 R275). -/
def cplBytes (u : Nat) (p : Cpl) (late : Bool) (jobId doneSeq doneUs : Nat) : List Nat :=
  bytesOf 1 2 ++ bytesOf 1 p.status ++ bytesOf 1 u ++
  bytesOf 1 (b2n late + 2 * p.item.copy + 8 * p.errMulti) ++
  bytesOf 1 (p.errCode + 16 * p.errStream) ++ bytesOf 3 0 ++
  bytesOf 4 p.errPc ++ bytesOf 4 jobId ++ bytesOf 4 p.item.seq ++ bytesOf 2 p.item.queue ++
  bytesOf 2 0 ++ bytesOf 8 p.item.tag ++ bytesOf 8 p.result ++
  bytesOf 2 doneSeq ++ bytesOf 2 doneUs ++ bytesOf 20 0

/-- Statistics of a posted completion (17 R462) and its LATE or cut in Sillage (10 R284). -/
def State.cplCount (s : State) (p : Cpl) (late : Bool) : State :=
  let j := p.item.jidx
  let s := if late then s.event 6 else s
  let s := if p.status = 4 then s.event 7 else s
  let s := if p.status = 5 then s.event 8 else s
  if j = 0xFF then s
  else
    let b := min 47 ((s.now - p.item.takenAt) / 100000)
    let s := s.jobCount j (0x40 + 8 * b)
    let s := if p.status ≤ 5 then s.jobCount j (0x1C0 + 8 * p.status) else s
    if late then s.jobCount j (0x1C0 + 48) else s

/-- A completion queue `c` takes the completions of queue `q`: where a push to it arrives there is a completion queue in use, granted
to the same partition (10 R271, R275). -/
def State.cqServes (s : State) (c q : Nat) : Bool :=
  let t := s.qTarget c
  decide (c < 16384) && s.qEn t && s.qIsCq t && decide (s.qPart t = s.qPart q)

/-- Post one completion of unit `u` and advance HEAD of its queue (10 R275). -/
def State.postCpl (s : State) (u : Nat) (p : Cpl) : State :=
  let late := s.pastDeadline u p.item
  let s := s.cplCount p late
  let q := p.item.cplq
  let s :=
    if q = 0xFFFF then s
    else if s.cqServes q p.item.queue then
      s.pushCq q (cplBytes u p late (s.getF (JOB_STAT p.item.jidx) jsJOBID) (s.frameSeq u)
        (s.slotUs u)) (.init (s.qPart (s.qTarget q)))
    else s.event 10
  s.setF (qPtr p.item.queue) qHEAD (p.item.seq + 1)

/-- Fields of a work item read from its ring entry (10 R273). -/
def parseItem (q n jidx now : Nat) (b : List Nat) : WorkItem :=
  let fl := fieldAtB b 1 1
  { queue := q, seq := n, jidx := jidx, type := fieldAtB b 0 1, repl := decide (fl % 2 = 1),
    cut := decide (fl / 2 % 2 = 1), copy := fl / 4 % 4, part := fieldAtB b 2 1, rg := fieldAtB b 3 1,
    cplq := fieldAtB b 4 2, dlSeq := fieldAtB b 6 2, prog := fieldAtB b 8 8, arg := fieldAtB b 0x10 8,
    cslot := fieldAtB b 0x18 8, dlUs := fieldAtB b 0x20 2, margin := fieldAtB b 0x22 2,
    tag := fieldAtB b 0x28 8, takenAt := now }
where
  fieldAtB (b : List Nat) (o n : Nat) : Nat := leOf ((b.drop o).take n)

/-- A reserved bit or byte of a work item is set (10 R273). -/
def itemReserved (b : List Nat) : Bool :=
  let f := fun o n => leOf ((b.drop o).take n)
  decide (f 1 1 / 16 ≠ 0 ∨ f 0x24 4 ≠ 0 ∨ f 0x30 16 ≠ 0 ∨ f 8 8 / 2 ^ 44 ≠ 0)

/-- The eligible queue a unit takes from next (10 R272): highest PRIO, then lowest local index; in a
BLOTTER entry its Blotter feed alone. -/
def State.pickQueue (s : State) (u : Nat) : Option Nat :=
  let ready := fun q => s.qEn q && !s.qIsCq q && decide (s.qNext q ≠ s.qTailOf q)
  if s.flag (UNIT_PART u) upBLOTTER then
    let q := 63 * 256 + 64 + u
    if ready q then some q else none
  else
    let j := s.jobOf u
    if j = 0xFF then none
    else
      [3, 2, 1, 0].findSome? (fun p =>
        ((List.range 256).map (fun i => u * 256 + i)).find? (fun q =>
          ready q && decide (s.getF (qCtl q) qJIDX = j ∧ s.getF (qCtl q) qPRIO = p)))

end Sys2Proof.Machine
end

