-- ==== Sys2Proof/Machine/CellFront.lean ====
section
/-! DEFINITION. The front end of a cell: fetch, the common fields W and P, loops, and the classes CTRL,
SCALAR, SYNC, ENG and SYS (03 R51 to R59, R66, R69; 04 R89 to R94, R119, R120). A command that names a
front-end instruction executes the word at FE_PC of cell `c` where that word is such an instruction,
the cell is RUNNING and its front end is not held; otherwise nothing happens (log 3). -/

namespace Sys2Proof.Machine

/-- Run `n` steps from step `k` on: the state, the completed steps, the error that stopped it. -/
def runSteps (f : State → Nat → Except Nat (State × Nat)) : Nat → State → Nat → State × Nat × Option Nat
  | 0, s, k => (s, k, none)
  | n + 1, s, k =>
    match f s k with
    | .error e => (s, k, some e)
    | .ok (s', 0) => runSteps f n s' (k + 1)
    | .ok (s', e + 1) => (s', k, some (e + 1))

/-- What the execution of one front-end word comes to. -/
inductive FeRes where
  /-- It cannot act yet: the front end waits. -/
  | hold
  /-- A cell error. -/
  | err (code : Nat)
  /-- It is executed; the next word follows, after the loop-end test. -/
  | next (s : State)
  /-- It is executed and control goes to an offset, unless the loop-end test of its word goes to a loop's start. -/
  | jump (s : State) (pc : Nat)
  /-- A step of it wrote what it could and ends in a cell error (05 R127). -/
  | fail (s : State) (code : Nat)
  /-- One of its steps is over and others remain: it is at the front end still (03 R56). -/
  | part (s : State)

/-- The front end of cell `c` may execute. -/
def State.feReady (s : State) (c : Nat) : Bool :=
  let x := s.cell c
  decide (c < 48) && s.cellGoes c && decide (x.bar = .none) && decide (x.feStall = none)

/-- A program-store offset lies in the current program range (03 R66). -/
def State.pcOk (s : State) (c : Nat) (pc : Int) : Bool :=
  let b := s.getF (UNIT_CTRL c) ctrlPBASE
  let l := s.getF (UNIT_CTRL c) ctrlPLEN
  decide (b + l ≤ 64 ∧ (b * 4096 : Nat) ≤ pc ∧ pc < ((b + l) * 4096 : Nat))

/-- Where the ECC mark of word `i` of a program store stands. -/
def progWord (c i : Nat) : Nat := 2 ^ 43 + c * 32768 + i

/-- The instruction word at FE_PC, or the error of its fetch or decode (03 R51, R66, R70). -/
def State.fetch (s : State) (c : Nat) : Except Nat Nat :=
  let pc := (s.cell c).fePc
  if pc % 8 ≠ 0 ∨ !s.pcOk c pc then .error errOverrun
  else if Tab.get 0 s.ecc (progWord c (pc / 8)) = 2 then .error errMemory
  else
    let w := (Tab.get 0 (s.cell c).prog (pc / 8)).toNat
    if encOk w then .ok w else .error errReserved

/-- Errors of the program store count in Sillage (03 R66, 13 R370). -/
def State.fetchCount (s : State) (c : Nat) : State :=
  let k := progWord c ((s.cell c).fePc / 8)
  match Tab.get 0 s.ecc k with
  | 1 => { s.event 2 with ecc := Tab.set 0 s.ecc k 0 }
  | 2 => s.event 3
  | _ => s

/-- The loop-end test after the word at `off`, which leads to `next`: the loop stack and the next offset (04 R90). -/
def loopEnd : List LoopEnt → Nat → Nat → List LoopEnt × Nat
  | [], _, next => ([], next)
  | e :: t, off, next =>
    if e.stop = off then
      if 1 < e.remaining then ({ e with remaining := e.remaining - 1 } :: t, e.start) else loopEnd t off next
    else (e :: t, next)

/-- Loop entries that exclude a branch target are popped (04 R90). -/
def loopPop : List LoopEnt → Nat → List LoopEnt
  | [], _ => []
  | e :: t, pc => if e.start ≤ pc ∧ pc ≤ e.stop then e :: t else loopPop t pc

/-- Go on after the word at `off`, which leads to `next`. -/
def State.feAdvanceTo (s : State) (c off next : Nat) : State :=
  let x := s.cell c
  let (l, pc) := loopEnd x.loops off next
  s.setCell c { x with loops := l, fePc := pc }

/-- Go on after the word at `off` with the one that follows it. -/
def State.feAdvance (s : State) (c off : Nat) : State := s.feAdvanceTo c off (off + 8)

/-- A front-end post: it stalls at 255 (03 R59). -/
def State.fePost (s : State) (c tok off : Nat) : State :=
  let x := s.cell c
  if x.rK tok < 255 then s.post c tok
  else s.setCell c { x with feStall := some { tok := tok, off := off, since := s.now } }

/-- The post of a word whose P is set. -/
def State.fePostOf (s : State) (c w off : Nat) : State :=
  if insP w = 1 then s.fePost c (insPTOK w) off else s

/-- Take the wait token of a word that begins (03 R57). -/
def State.takeTok (s : State) (c w : Nat) : State :=
  if insW w = 1 then
    let x := s.cell c
    s.setCell c (x.wK (insWTOK w) (x.rK (insWTOK w) - 1))
  else s

/-- The wait token of a word stands above zero, or it has none. -/
def State.tokOk (s : State) (c w : Nat) : Bool :=
  decide (insW w = 0) || decide (0 < (s.cell c).rK (insWTOK w))

/-- Execute the word at FE_PC where it is the operation `code`, its meaning being `f` of the state, the
word and its offset. An instruction of several steps takes its wait token with the first. -/
def State.front (s : State) (c code : Nat) (f : State → Nat → Nat → FeRes) : State :=
  if !s.feReady c then s
  else
    let off := (s.cell c).fePc
    let first := decide ((s.cell c).feSteps = 0)
    match s.fetch c with
    | .error e => (s.fetchCount c).cellError c e .front off
    | .ok w =>
      if opCode w ≠ code ∨ (first ∧ !s.tokOk c w) then s
      else
        let s0 := if first then (s.fetchCount c).takeTok c w else s
        match f s0 w off with
        | .hold => s
        | .err e => s0.cellError c e .front off
        | .fail s' e => s'.cellError c e .front off
        | .next s' => ((s'.feAdvance c off).progress c 1).fePostOf c w off
        | .jump s' pc => ((s'.feAdvanceTo c off pc).progress c 1).fePostOf c w off
        | .part s' => s'.progress c 1

/-- All four streams are empty and every write of the store stream is acknowledged (03 R61, R69). -/
def State.drained (s : State) (c : Nat) : Bool :=
  let x := s.cell c
  decide (x.load.q = [] ∧ x.tensor.q = [] ∧ x.vector.q = [] ∧ x.store.q = []) && !s.unacked c

/-! CTRL (04 R89 to R91). -/

/-- The target of DISP. -/
def dispTarget (w off : Nat) : Int := (off : Int) + 8 * signedOf 16 (bits w 15 0)

def execNop (c : Nat) (s : State) : Host.Outcome State Fault Refusal :=
  .next (s.front c (op 0 0) fun s _ _ => .next s)

def feLoop (c : Nat) (s : State) (w off : Nat) : FeRes :=
  let x := s.cell c
  let body := bits w 14 0
  let count := if bits w 43 43 = 1 then bits w 37 22 else (x.rS (bits w 42 38)).toNat % 2 ^ 32
  if !s.pcOk c ((off + 8 * body : Nat) : Int) then .err errOverrun
  else if count = 0 then .jump s (off + 8 * (body + 1))
  else if x.loops.length ≥ 8 then .err errOverrun
  else
    .jump (s.setCell c { x with
      loops := { start := off + 8, stop := off + 8 * body, remaining := count } :: x.loops }) (off + 8)

def execLoop (c : Nat) (s : State) : Host.Outcome State Fault Refusal :=
  .next (s.front c (op 0 1) (feLoop c))

/-- COND of BR (04 R89). -/
def branchTaken (cond : Nat) (a b : Word) : Bool :=
  match cond with
  | 0 => true
  | 1 => decide (a = b)
  | 2 => decide (a ≠ b)
  | 3 => a.slt b
  | 4 => !a.slt b
  | 5 => a.ult b
  | _ => !a.ult b

def feBr (c : Nat) (s : State) (w off : Nat) : FeRes :=
  let x := s.cell c
  if branchTaken (bits w 33 31) (x.rS (bits w 43 39)) (x.rS (bits w 38 34)) then
    let t := dispTarget w off
    if !s.pcOk c t then .err errOverrun
    else .jump (s.setCell c { x with loops := loopPop x.loops t.toNat }) t.toNat
  else .next s

def execBr (c : Nat) (s : State) : Host.Outcome State Fault Refusal :=
  .next (s.front c (op 0 2) (feBr c))

def feCall (c : Nat) (s : State) (w off : Nat) : FeRes :=
  let x := s.cell c
  let t := dispTarget w off
  if x.calls.length ≥ 16 ∨ !s.pcOk c t then .err errOverrun
  else .jump (s.setCell c { x with calls := (off + 8) :: x.calls }) t.toNat

def execCall (c : Nat) (s : State) : Host.Outcome State Fault Refusal :=
  .next (s.front c (op 0 3) (feCall c))

def feRet (c : Nat) (s : State) (_ _ : Nat) : FeRes :=
  let x := s.cell c
  match x.calls with
  | [] => .err errOverrun
  | t :: r => .jump (s.setCell c { x with calls := r }) t

def execRet (c : Nat) (s : State) : Host.Outcome State Fault Refusal :=
  .next (s.front c (op 0 4) (feRet c))

/-! SYNC (04 R92, 03 R57, R61). -/

def feWait (c : Nat) (s : State) (w _ : Nat) : FeRes :=
  let x := s.cell c
  let k := bits w 43 40
  if x.rK k = 0 then .hold else .next (s.setCell c (x.wK k (x.rK k - 1)))

def execWait (c : Nat) (s : State) : Host.Outcome State Fault Refusal :=
  .next (s.front c (op 8 0) (feWait c))

def fePostK (c : Nat) (s : State) (w off : Nat) : FeRes :=
  .next (s.fePost c (bits w 43 40) off)

def execPost (c : Nat) (s : State) : Host.Outcome State Fault Refusal :=
  .next (s.front c (op 8 1) (fePostK c))

/-- BAR: drain, arrive, wait (03 R61). The next offset stands at once; the release lets fetch go on. -/
def feBar (c : Nat) (s : State) (w off : Nat) : FeRes :=
  if !s.drained c then .hold
  else
    let b := bits w 43 38
    match (s.setCell c { s.cell c with bar := .waiting b, barOff := off }).arrive b c (s.partOf c) with
    | (_, .refused) => .err errWindow
    | (_, .broken) => .err errBroken
    | (s', .arrived) => .next s'

def execBar (c : Nat) (s : State) : Host.Outcome State Fault Refusal :=
  .next (s.front c (op 8 2) (feBar c))

/-- BARRIER_RELEASE: a released cell goes on; one released by a break raises BARRIER_BROKEN (03 R61,
R64), where its slot was over then. -/
def barRelease (c : Nat) (s : State) : State :=
  let x := s.cell c
  match x.bar with
  | .released _ => if s.cellGoes c then s.setCell c { x with bar := .none } else s
  | _ => s.barError c

def execBarrierRelease (c : Nat) (s : State) : Host.Outcome State Fault Refusal :=
  .next (barRelease c s)

/-! SCALAR (04 R93, R94). -/

/-- A register-form operation on S registers. -/
def scalarR (c o : Nat) (f : Word → Word → Word) (s : State) : State :=
  s.front c (op 1 o) fun s w _ =>
    let x := s.cell c
    .next (s.setCell c (x.wS (bits w 43 39) (f (x.rS (bits w 38 34)) (x.rS (bits w 33 29)))))

/-- IMM, sign-extended. -/
def immS (w : Nat) : Word := (BitVec.ofNat 32 (bits w 31 0)).signExtend 64

/-- An immediate-form operation on S registers. -/
def scalarI (c o : Nat) (f : Word → Word → Word) (s : State) : State :=
  s.front c (op 1 o) fun s w _ =>
    let x := s.cell c
    .next (s.setCell c (x.wS (bits w 43 39) (f (x.rS (bits w 38 34)) (immS w))))

/-- The count of a shift (04 R93). -/
def shiftBy (b : Word) : Nat := b.toNat % 64

def execSadd (c : Nat) (s : State) : Host.Outcome State Fault Refusal :=
  .next (scalarR c 0 (fun a b => a + b) s)
def execSsub (c : Nat) (s : State) : Host.Outcome State Fault Refusal :=
  .next (scalarR c 1 (fun a b => a - b) s)
def execSmul (c : Nat) (s : State) : Host.Outcome State Fault Refusal :=
  .next (scalarR c 2 (fun a b => a * b) s)
def execSand (c : Nat) (s : State) : Host.Outcome State Fault Refusal :=
  .next (scalarR c 3 (fun a b => a &&& b) s)
def execSor (c : Nat) (s : State) : Host.Outcome State Fault Refusal :=
  .next (scalarR c 4 (fun a b => a ||| b) s)
def execSxor (c : Nat) (s : State) : Host.Outcome State Fault Refusal :=
  .next (scalarR c 5 (fun a b => a ^^^ b) s)
def execSshl (c : Nat) (s : State) : Host.Outcome State Fault Refusal :=
  .next (scalarR c 6 (fun a b => a <<< shiftBy b) s)
def execSshr (c : Nat) (s : State) : Host.Outcome State Fault Refusal :=
  .next (scalarR c 7 (fun a b => a >>> shiftBy b) s)
def execSsra (c : Nat) (s : State) : Host.Outcome State Fault Refusal :=
  .next (scalarR c 8 (fun a b => a.sshiftRight (shiftBy b)) s)
def execSmin (c : Nat) (s : State) : Host.Outcome State Fault Refusal :=
  .next (scalarR c 9 (fun a b => if b.slt a then b else a) s)
def execSmax (c : Nat) (s : State) : Host.Outcome State Fault Refusal :=
  .next (scalarR c 10 (fun a b => if a.slt b then b else a) s)
def execSminu (c : Nat) (s : State) : Host.Outcome State Fault Refusal :=
  .next (scalarR c 11 (fun a b => if b.ult a then b else a) s)
def execSmaxu (c : Nat) (s : State) : Host.Outcome State Fault Refusal :=
  .next (scalarR c 12 (fun a b => if a.ult b then b else a) s)
def execSaddi (c : Nat) (s : State) : Host.Outcome State Fault Refusal :=
  .next (scalarI c 16 (fun a b => a + b) s)
def execSandi (c : Nat) (s : State) : Host.Outcome State Fault Refusal :=
  .next (scalarI c 17 (fun a b => a &&& b) s)
def execSori (c : Nat) (s : State) : Host.Outcome State Fault Refusal :=
  .next (scalarI c 18 (fun a b => a ||| b) s)
def execSxori (c : Nat) (s : State) : Host.Outcome State Fault Refusal :=
  .next (scalarI c 19 (fun a b => a ^^^ b) s)
def execSshli (c : Nat) (s : State) : Host.Outcome State Fault Refusal :=
  .next (scalarI c 20 (fun a b => a <<< shiftBy b) s)
def execSshri (c : Nat) (s : State) : Host.Outcome State Fault Refusal :=
  .next (scalarI c 21 (fun a b => a >>> shiftBy b) s)
def execSsrai (c : Nat) (s : State) : Host.Outcome State Fault Refusal :=
  .next (scalarI c 22 (fun a b => a.sshiftRight (shiftBy b)) s)
def execSli (c : Nat) (s : State) : Host.Outcome State Fault Refusal :=
  .next (scalarI c 23 (fun _ b => b) s)
/-- SLUI: SA[31:0] + IMM × 2^32, IMM unsigned. -/
def execSlui (c : Nat) (s : State) : Host.Outcome State Fault Refusal :=
  .next (scalarI c 24 (fun a b => BitVec.ofNat 64 (a.toNat % 2 ^ 32 + b.toNat % 2 ^ 32 * 2 ^ 32)) s)

/-- The sum of AADD and AADDI, keeping the kind of A value; an A value whose must-be-zero bits are set
is a reserved encoding (03 R49, 04 R94). -/
def aAdd (a : Nat) (v : Word) : Except Nat Nat :=
  if !aValueOk a then .error errReserved
  else if bits a 47 47 = 1 then .ok (2 ^ 47 + (a % 2 ^ 24 + v.toNat) % 2 ^ 24)
  else .ok ((a + v.toNat) % 2 ^ 44)

def feAadd (c : Nat) (imm : Bool) (s : State) (w _ : Nat) : FeRes :=
  let x := s.cell c
  let v := if imm then immS w else x.rS (bits w 33 29)
  match aAdd (x.rA (bits w 38 34)).toNat v with
  | .error e => .err e
  | .ok r => .next (s.setCell c (x.wA (bits w 43 39) (BitVec.ofNat 48 r)))

def execAadd (c : Nat) (s : State) : Host.Outcome State Fault Refusal :=
  .next (s.front c (op 1 32) (feAadd c false))
def execAaddi (c : Nat) (s : State) : Host.Outcome State Fault Refusal :=
  .next (s.front c (op 1 33) (feAadd c true))

def feAmov (c : Nat) (s : State) (w _ : Nat) : FeRes :=
  let x := s.cell c
  .next (s.setCell c (x.wA (bits w 43 39) (BitVec.ofNat 48 (x.rS (bits w 38 34)).toNat)))

def execAmov (c : Nat) (s : State) : Host.Outcome State Fault Refusal :=
  .next (s.front c (op 1 34) (feAmov c))

def feSmova (c : Nat) (s : State) (w _ : Nat) : FeRes :=
  let x := s.cell c
  .next (s.setCell c (x.wS (bits w 43 39) (BitVec.ofNat 64 (x.rA (bits w 38 34)).toNat)))

def execSmova (c : Nat) (s : State) : Host.Outcome State Fault Refusal :=
  .next (s.front c (op 1 35) (feSmova c))

/-- The word that SLD or ALD loads, and the state its read leaves (04 R94). -/
def feLoadWord (c : Nat) (s : State) (w : Nat) : Except Nat (Nat × State) :=
  match physAddr (s.cell c |>.rA (bits w 38 34)).toNat with
  | .error e => .error e
  | .ok a =>
    let ea := (a + (immS w).toNat) % 2 ^ 44
    if ea % 8 ≠ 0 then .error errReserved
    else
      match s.cellRead c .read ea 8 with
      | .error e => .error e
      | .ok b => .ok (leOf b, s.noteRead c (s.partOf c) ea 8)

def feSld (c : Nat) (s : State) (w _ : Nat) : FeRes :=
  match feLoadWord c s w with
  | .error e => .err e
  | .ok (v, s) => .next (s.setCell c ((s.cell c).wS (bits w 43 39) (BitVec.ofNat 64 v)))

def execSld (c : Nat) (s : State) : Host.Outcome State Fault Refusal :=
  .next (s.front c (op 1 40) (feSld c))

def feAld (c : Nat) (s : State) (w _ : Nat) : FeRes :=
  match feLoadWord c s w with
  | .error e => .err e
  | .ok (v, s) => .next (s.setCell c ((s.cell c).wA (bits w 43 39) (BitVec.ofNat 48 v)))

def execAld (c : Nat) (s : State) : Host.Outcome State Fault Refusal :=
  .next (s.front c (op 1 41) (feAld c))

/-! ENG (04 R119). -/

def feEnq (c : Nat) (s : State) (w _ : Nat) : FeRes :=
  let x := s.cell c
  match physAddr (x.rA (bits w 29 26)).toNat with
  | .error e => .err e
  | .ok a =>
    if a % 64 ≠ 0 then .err errReserved
    else
      match s.cellRead c .read a 64 with
      | .error e => .err e
      | .ok b =>
        let q := (bits w 43 30 + (x.rS (bits w 25 21)).toNat % 2 ^ 14) % 16384
        match (s.noteRead c (s.partOf c) a 64).push q b (.enq (s.partOf c)) with
        | (_, .held) => .hold
        | (_, .refused) => .err errRefused
        | (s, _) => .next s

def execEnq (c : Nat) (s : State) : Host.Outcome State Fault Refusal :=
  .next (s.front c (op 11 0) (feEnq c))

/-! SYS (04 R120, 03 R69). -/

/-- HALT: with every stream drained, the success completion of the work item in progress is posted
and the cell is IDLE (03 R69); an unbound program posts none (03 R76). -/
def feHalt (c : Nat) (s : State) (_ _ : Nat) : FeRes :=
  if !s.drained c then .hold
  else
    let u := s.unit c
    let j := s.itemJob c
    let s := s.setUnitState c stIdle
    match Tab.find u.binds j with
    | none => .next s
    | some it =>
      .next ((s.setUnit c { u with binds := Tab.erase u.binds j }).postCpl c { item := it, status := 0 })

def execHalt (c : Nat) (s : State) : Host.Outcome State Fault Refusal :=
  .next (s.front c (op 14 0) (feHalt c))

/-- Step `k` of writing a state image to `a`: bytes `[64 KiB k, 64 KiB (k + 1))` of what follows the header, with the header in
the last of the five (03 R75, 04 R121). -/
def State.putImage (s : State) (c a k : Nat) (im : List Nat) : State × Nat :=
  let lo := max 64 (0x10000 * k)
  let hi := min imageSize (0x10000 * (k + 1))
  let (s, bad) := s.writeMem c (s.partOf c) (a + lo) (byteList ((im.drop lo).take (hi - lo)))
  if bad then (s, memErr (a + lo))
  else if k < 4 then (s, 0)
  else
    let (s, bad) := s.writeMem c (s.partOf c) a (byteList (im.take 64))
    (s, if bad then memErr a else 0)

/-- Cell `c` may write its image to `a` (04 R86). -/
def State.imagePlace (s : State) (c a : Nat) : Except Nat Unit :=
  match s.reaches c .store a imageSize with
  | .error e => .error e
  | .ok () =>
    match place a imageSize with
    | .spad d => if d = c then .ok () else .error errWindow
    | .unit _ => .error errWindow
    | _ => .ok ()

/-- Run the next step of a front-end instruction of `total` steps, which feSteps counts (03 R56). A step answers an error code, zero
for none. -/
def State.feRun (s : State) (c total : Nat) (f : State → Nat → State × Nat) : FeRes :=
  let k := (s.cell c).feSteps
  match f s k with
  | (s, 0) =>
    if k + 1 < total then .part (s.setCell c { s.cell c with feSteps := k + 1 })
    else .next (s.setCell c { s.cell c with feSteps := 0 })
  | (s, e + 1) => .fail s (e + 1)

/-- SNAP (04 R120): the image resumes after this instruction. -/
def feSnap (c : Nat) (s : State) (w off : Nat) : FeRes :=
  if !s.drained c then .hold
  else
    let x := s.cell c
    match physAddr (x.rA (bits w 43 40)).toNat with
    | .error e => .err e
    | .ok a =>
      if a % 64 ≠ 0 then .err errReserved
      else
        match s.imagePlace c a with
        | .error e => .err e
        | .ok () =>
          let im := ((s.setCell c { x with feSteps := 0 }).feAdvance c off).imageBytes c 1
          s.feRun c 5 (fun s k => s.putImage c a k im)

def execSnapInstruction (c : Nat) (s : State) : Host.Outcome State Fault Refusal :=
  .next (s.front c (op 14 1) (feSnap c))

/-- SCRUB (04 R120): a step clears 128 KiB. -/
def feScrub (c : Nat) (s : State) (w _ : Nat) : FeRes :=
  if !s.drained c then .hold
  else
    let v := ((s.cell c).rS (bits w 43 39)).toNat
    let b := bits v 23 0
    let l := bits v 55 32
    if bits v 31 24 ≠ 0 ∨ bits v 63 56 ≠ 0 ∨ b % 64 ≠ 0 ∨ l % 64 ≠ 0 ∨ b + l > spadSize then
      .err errReserved
    else
      s.feRun c (max 1 ((l + 0x1FFFF) / 0x20000)) (fun s k =>
        let o := 0x20000 * k
        (s.store (spadBase c + b + o) (List.replicate (min 0x20000 (l - o)) 0), 0))

def execScrub (c : Nat) (s : State) : Host.Outcome State Fault Refusal :=
  .next (s.front c (op 14 2) (feScrub c))

def feRdfl (c : Nat) (s : State) (w _ : Nat) : FeRes :=
  let x := s.cell c
  .next (s.setCell c (x.wS (bits w 43 39) (BitVec.ofNat 64 (s.flagBits c + x.tsat * 2 ^ 8))))

def execRdfl (c : Nat) (s : State) : Host.Outcome State Fault Refusal :=
  .next (s.front c (op 14 3) (feRdfl c))

def feClrfl (c : Nat) (s : State) (w _ : Nat) : FeRes :=
  let a := UNIT_STATUS c
  let s := if bit w 0 then s.setF a stINV 0 else s
  let s := if bit w 1 then s.setF a stOVF 0 else s
  let s := if bit w 2 then s.setF a stUNF 0 else s
  let s := if bit w 3 then s.setF a stSAT 0 else s
  .next (if bit w 4 then s.setF a stNSC 0 else s)

def execClrfl (c : Nat) (s : State) : Host.Outcome State Fault Refusal :=
  .next (s.front c (op 14 4) (feClrfl c))

end Sys2Proof.Machine
end

