-- ==== Sys2Proof/Machine/CellStream.lean ====
section
/-! DEFINITION. The four streams of a cell: delivery, beginning, steps, completion and post stalls
(03 R52 to R59). A command that names a stream instruction and a phase acts where the cell's word at
FE_PC, or the instruction that its stream has begun, is such an instruction; otherwise nothing happens
(log 3). -/

namespace Sys2Proof.Machine

/-- The work of a stream instruction: how many steps it has (03 R56), and what each does. A step that an error of its operands stops
writes nothing (03 R71); one that meets a word it cannot merge into writes the others and ends in that error (05 R127): the state
and the error, zero for none. The steps before it stand. -/
structure Plan where
  total : Nat
  step : State → Nat → Except Nat (State × Nat)

/-- An instruction of one step that nothing stops. -/
def plan1 (f : State → State × Nat) : Plan := { total := 1, step := fun s _ => .ok (f s) }

/-- Deliver the word at FE_PC to its stream queue where it is the operation `code` (03 R53, R54). -/
def State.deliver (s : State) (c code : Nat) : State :=
  if !s.feReady c then s
  else
    let x := s.cell c
    let off := x.fePc
    match s.fetch c with
    | .error e => (s.fetchCount c).cellError c e .front off
    | .ok w =>
      let st := streamOf w
      let q := x.stream st
      if opCode w ≠ code ∨ strmDepth st ≤ q.q.length then s
      else
        let e : QEntry := { word := BitVec.ofNat 64 w, off := off, ops := bindOps x w }
        ((s.fetchCount c).setCell c (x.setStream st { q with q := q.q ++ [e] })).feAdvance c off

/-- Place of the first entry that is not done. -/
def firstOpen (q : List QEntry) : Nat := (q.takeWhile (fun e => e.done)).length

/-- STREAM_INSTRUCTION_BEGIN (03 R55, R57, R59): the first instruction of the queue that has not begun
begins once every earlier one has had its effect, no post is stalled and its wait token is above zero.
A CKPT begins only at the head (04 R118). A restored word that is no instruction of this stream is
found here (03 R76). The stream reads the instruction's descriptors (04 R83). -/
def streamBegin (c : Nat) (st : Strm) (s : State) : State :=
  let x := s.cell c
  let q := x.stream st
  let i := firstOpen q.q
  match q.q[i]? with
  | none => s
  | some e =>
    let w := e.word.toNat
    if !s.cellGoes c ∨ c ≥ 48 ∨ e.begun ∨ q.stall ≠ none ∨ (opCode w = op 10 0 ∧ i ≠ 0) ∨ !s.tokOk c w then s
    else if !encOk w || decide (streamOf w ≠ st) then s.cellError c errReserved st e.off
    else
      let s := s.takeTok c w
      let ds := s.readDescs c e
      let s := ds.foldl (fun s (a, _) => s.noteRead c (s.partOf c) a 64) s
      let x := s.cell c
      let n := x.storeSeq + 1
      let e := { e with begun := true, ins := if st = .store then n else 0, descs := ds }
      s.setCell c { x.setStream st { q with q := q.q.set i e } with
        storeSeq := if st = .store then n else x.storeSeq }

def execStreamInstructionBegin (c : Nat) (st : Strm) (s : State) : Host.Outcome State Fault Refusal :=
  .next (streamBegin c st s)

/-- Run steps of the instruction that stream `st` of cell `c` has begun, where it is the operation
`code`. A stopped cell, or one in ERROR, only finishes the step that had begun (03 R71, R74); in ERROR
a CKPT or COMMIT is suppressed (03 R71). -/
def State.runStream (s : State) (c : Nat) (one : Bool) (code : Nat)
    (f : State → QEntry → Except Nat Plan) : State :=
  let st := streamClass (code / 64)
  let x := s.cell c
  let i := firstOpen (x.stream st).q
  match (x.stream st).q[i]? with
  | none => s
  | some e =>
    let us := s.unitState c
    if !e.begun ∨ opCode e.word.toNat ≠ code ∨ c ≥ 48 ∨
       !(s.cellGoes c || (decide (us = stRunning ∨ us = stStopped ∨ us = stError) && decide (e.steps = 0))) ∨
       (us = stError ∧ code / 64 = 10) then s
    else
      match f (s.withDescs e) e with
      | .error err => s.cellError c err st e.off
      | .ok p =>
        let n := if one || !s.cellGoes c then min 1 (p.total - e.steps) else p.total - e.steps
        let k0 := e.steps
        let (s, k, r) := runSteps p.step n s k0
        let x := s.cell c
        let q := x.stream st
        let e := (q.q[i]?).getD e
        let s := s.setCell c (x.setStream st
          { q with q := q.q.set i { e with steps := k, done := decide (p.total ≤ k) } })
        let s := s.progress c (k - k0)
        match r with
        | some err => s.cellError c err st e.off
        | none => s

/-- A stream instruction by its phase. -/
def stream (c : Nat) (ph : Phase) (code : Nat) (f : State → QEntry → Except Nat Plan) (s : State) :
    Host.Outcome State Fault Refusal :=
  .next (match ph with
    | .deliver => s.deliver c code
    | .step => s.runStream c true code f
    | .run => s.runStream c false code f)

/-- Everything that instruction `ins` of cell `c` sent has been answered (04 R115, R118). -/
def State.answered (s : State) (c ins : Nat) : Bool :=
  !(s.msgs.any (fun m => decide (m.src = c ∧ m.ins = ins ∧ m.body.kind ≠ 2))) &&
  !(s.wins.any (fun (_, h) => match h.wait with
    | some (_, src, n) => decide (src = c ∧ n = ins)
    | none => false))

/-- Take the head of a stream out of its queue. -/
def State.dequeue (s : State) (c : Nat) (st : Strm) (off : Nat) : State :=
  let x := s.cell c
  let q := x.stream st
  s.setCell c (x.setStream st { q with q := q.q.tail, lastPc := off, stall := none })

/-- STREAM_INSTRUCTION_COMPLETE (03 R52, R57, R59): the head has had its effect, and in the store
stream everything it sent is answered; a drop that the cell was told of is its error (04 R115). -/
def streamComplete (c : Nat) (st : Strm) (s : State) : State :=
  let x := s.cell c
  match (x.stream st).q with
  | [] => s
  | e :: _ =>
    let us := s.unitState c
    let w := e.word.toNat
    if !e.done ∨ c ≥ 48 ∨ (us ≠ stRunning ∧ us ≠ stStopped) ∨ (x.stream st).stall ≠ none ∨
       (st = .store ∧ !s.answered c e.ins) then s
    else if e.bad ≠ 0 then s.cellError c e.bad st e.off
    else if insP w = 1 then
      if x.rK (insPTOK w) < 255 then (s.post c (insPTOK w)).dequeue c st e.off
      else s.setCell c (x.setStream st { x.stream st with stall := some s.now })
    else s.dequeue c st e.off

def execStreamInstructionComplete (c : Nat) (st : Strm) (s : State) :
    Host.Outcome State Fault Refusal :=
  .next (streamComplete c st s)

/-- The post that stalls in a stream or in the front end: token, offset, since when (03 R59). -/
def State.stalledPost (s : State) (c : Nat) (st : Strm) : Option (Nat × Nat × Nat) :=
  let x := s.cell c
  match st with
  | .front => x.feStall.map (fun f => (f.tok, f.off, f.since))
  | _ =>
    match (x.stream st).q, (x.stream st).stall with
    | e :: _, some t => some (insPTOK e.word.toNat, e.off, t)
    | _, _ => none

/-- POST_STALL_RELEASE (03 R59). -/
def postStallRelease (c : Nat) (st : Strm) (s : State) : State :=
  match s.stalledPost c st with
  | none => s
  | some (k, off, _) =>
    if !s.cellGoes c ∨ (s.cell c).rK k ≥ 255 then s
    else
      let s := s.post c k
      if st = .front then s.setCell c { s.cell c with feStall := none } else s.dequeue c st off

def execPostStallRelease (c : Nat) (st : Strm) (s : State) : Host.Outcome State Fault Refusal :=
  .next (postStallRelease c st s)

/-- The streams whose post has stalled since `since` and can still not be made, in the order of 03 R58. -/
def State.stalledSince (s : State) (c since : Nat) : List Strm :=
  [Strm.front, .load, .tensor, .vector, .store].filter (fun st =>
    match s.stalledPost c st with
    | some (k, _, t) => decide (t = since ∧ 255 ≤ (s.cell c).rK k)
    | none => false)

/-- TOKEN_STALL at `t` (03 R59): a written limit of 0 acts as 2,000 µs. Of stalls that began in one cycle and so reach the limit in
one, the first of the streams' order is recorded, with ERR_MULTI (03 R72). -/
def tokenStall (c : Nat) (st : Strm) (t : Nat) (s : State) : State :=
  let s := s.at t
  match s.stalledPost c st with
  | none => s
  | some (k, _, since) =>
    let l := s.getF (UNIT_CTRL c) ctrlSTALL
    let us := s.unitState c
    if (us ≠ stRunning ∧ us ≠ stStopped) ∨ (s.cell c).rK k < 255 ∨
       s.now < since + Machine.us (if l = 0 then 2000 else l) then s
    else
      let l := s.stalledSince c since
      let first := l.headD st
      let off := match s.stalledPost c first with
        | some (_, off, _) => off
        | none => 0
      let s := if 1 < l.length then s.setF (UNIT_STATUS c) stMULTI 1 else s
      s.cellError c errStall first off

def execTokenStall (c : Nat) (st : Strm) (t : Nat) (s : State) : Host.Outcome State Fault Refusal :=
  .next (tokenStall c st t s)

end Sys2Proof.Machine
end

