-- ==== Sys2Proof/Machine/CellMove.lean ====
section
/-! DEFINITION. The instructions that move tensors: LDT, LDW, GATH, STT, SCAT (04 R95 to R101, R114,
R115). -/

namespace Sys2Proof.Machine

/-- Bound operand `i`. -/
def QEntry.op (e : QEntry) (i : Nat) : Nat := e.ops.getD i 0

/-- The runs of row `r` of tensors of one shape and format, from `sd`'s row `i` to `d`'s row `j`, that lie in bytes `[lo, hi)` of
the row, its elements before its scales. -/
def rowRuns (sd d : Desc) (i j lo hi : Nat) : List (Nat × Nat × Nat) :=
  let e := min hi d.rowBytes
  let run := fun (a b l h : Nat) => if l < h then [(a + l, b + l, h - l)] else []
  run (sd.row i) (d.row j) lo e ++
    run (sd.scaleRow i) (d.scaleRow j) (lo - d.rowBytes) (min hi (d.rowBytes + d.scales) - d.rowBytes)

/-- Bytes of a row with its scales. -/
def Desc.rowSize (d : Desc) : Nat := d.rowBytes + d.scales

/-- The runs of step `k` of a copy: bytes `[16 KiB k, 16 KiB (k + 1))` of what it writes, row by row (04 R121). -/
def Desc.stepRuns (d sd : Desc) (k : Nat) : List (Nat × Nat × Nat) :=
  let lo := 16384 * k
  let hi := min (16384 * (k + 1)) (d.rows * d.rowSize)
  if hi ≤ lo then []
  else
    (List.range ((hi - 1) / d.rowSize - lo / d.rowSize + 1)).flatMap (fun n =>
      let r := lo / d.rowSize + n
      rowRuns sd d r r (lo - r * d.rowSize) (min d.rowSize (hi - r * d.rowSize)))

/-- Steps of 16 KiB each. -/
def Desc.copySteps (d : Desc) : Nat := max 1 ((d.rows * d.rowSize + 16383) / 16384)

/-- LDT and STT: copy a tensor of equal shape and format (04 R96, R114). -/
def planCopy (c : Nat) (rs rd : Reach) (s : State) (e : QEntry) : Except Nat Plan := do
  let d ← s.desc c (e.op 0) (e.op 2)
  let sd ← s.desc c (e.op 1) (e.op 3)
  if !d.sameDims sd then throw errReserved
  if d.fmt ≠ sd.fmt then throw errFormat
  s.reachAll c rs sd
  s.reachAll c rd d
  return { total := d.copySteps, step := fun s k => s.copyRuns c e.ins rs (d.stepRuns sd k) }

def planLdt (c : Nat) : State → QEntry → Except Nat Plan := planCopy c .any .own
def execLdt (c : Nat) (ph : Phase) (s : State) : Host.Outcome State Fault Refusal :=
  stream c ph (op 2 0) (planLdt c) s

def planStt (c : Nat) : State → QEntry → Except Nat Plan := planCopy c .own .store
def execStt (c : Nat) (ph : Phase) (s : State) : Host.Outcome State Fault Refusal :=
  stream c ph (op 3 0) (planStt c) s

/-- Index lists of GATH and SCAT: RANK 1, INT32, in the own scratchpad (04 R86, R101). -/
def State.indexList (s : State) (c aval : Nat) : Except Nat (Desc × List Int) := do
  let d ← s.desc c aval 0
  if d.rank ≠ 1 then throw errReserved
  if d.fmt ≠ .int32 then throw errFormat
  let r ← s.readRow c .own d 0
  return (d, r.ints d.fmt)

/-- GATH: destination row `j` receives source row `AI[j]` (04 R101). -/
def planGath (c : Nat) (s : State) (e : QEntry) : Except Nat Plan := do
  let d ← s.desc c (e.op 0) (e.op 3)
  let sd ← s.desc c (e.op 1) (e.op 4)
  let (id, idx) ← s.indexList c (e.op 2)
  if sd.rank ≠ 2 ∨ d.rank > 2 ∨ d.d1 ≠ id.d0 ∨ d.d0 ≠ sd.d0 ∨ sd.rowBytes > 4096 then throw errReserved
  if d.fmt ≠ sd.fmt then throw errFormat
  s.reachAll c .any sd
  s.reachAll c .own d
  return { total := d.d1,
           step := fun s j => do
             let i := idx.getD j 0
             if i < 0 ∨ i ≥ sd.d1 then throw errWindow
             (s.noteSeg c id 0 0 id.d0).copyRuns c 0 .any (rowRuns sd d i.toNat j 0 d.rowSize) }

def execGath (c : Nat) (ph : Phase) (s : State) : Host.Outcome State Fault Refusal :=
  stream c ph (op 13 0) (planGath c) s

/-- SCAT: source row `j` goes to destination row `AI[j]` (04 R114). -/
def planScat (c : Nat) (s : State) (e : QEntry) : Except Nat Plan := do
  let d ← s.desc c (e.op 0) (e.op 3)
  let sd ← s.desc c (e.op 1) (e.op 4)
  let (id, idx) ← s.indexList c (e.op 2)
  if d.rank ≠ 2 ∨ sd.rank > 2 ∨ sd.d1 ≠ id.d0 ∨ d.d0 ≠ sd.d0 ∨ d.rowBytes > 4096 then throw errReserved
  if d.fmt ≠ sd.fmt then throw errFormat
  s.reachAll c .own sd
  s.reachAll c .store d
  return { total := sd.d1,
           step := fun s j => do
             let i := idx.getD j 0
             if i < 0 ∨ i ≥ d.d1 then throw errWindow
             (s.noteSeg c id 0 0 id.d0).copyRuns c e.ins .own (rowRuns sd d j i.toNat 0 d.rowSize) }

def execScat (c : Nat) (ph : Phase) (s : State) : Host.Outcome State Fault Refusal :=
  stream c ph (op 3 1) (planScat c) s

/-- The staging row of pixel `p`: `Kp` elements, taps in the order ky, kx, c; zeros beyond K, with scale
0x7F (04 R99). -/
def State.stageRow (s : State) (c : Nat) (src : Desc) (w : Walker) (oy ox kp : Nat) :
    Except Nat (Row × State) := do
  let taps ← collect (fun i => s.tap c src w oy ox (i / w.kw) (i % w.kw)) (w.kh * w.kw) 0
  let els := taps.flatMap (fun t => t.row.els)
  let sc := taps.flatMap (fun t => t.row.scales)
  return ({ els := els ++ List.replicate (kp - els.length) 0,
            scales := if src.fmt.isMx then sc ++ List.replicate (kp / 32 - sc.length) 0x7F else [] },
          s.noteTaps c src taps)

/-- LDW (04 R97 to R100). -/
def planLdw (c : Nat) (s : State) (e : QEntry) : Except Nat Plan := do
  let d ← s.desc c (e.op 0) (e.op 4)
  let src ← s.desc c (e.op 1) 0
  let w ← s.walker c (e.op 2) 15 false src
  let sp := e.op 3
  if !sposOk w sp then throw errReserved
  let kp := (w.kh * w.kw * w.cn + 63) / 64 * 64
  if d.rank ≠ 2 ∨ d.d0 ≠ kp ∨ d.d1 ≠ bits sp 47 32 ∨ d.fmt ≠ src.fmt then throw errFormat
  s.reachAll c .ownOrCs src
  s.reachAll c .own d
  return { total := bits sp 47 32,
           step := fun s p => do
             let (r, s) ← s.stageRow c src w (bits sp 31 16) (bits sp 15 0 + p) kp
             return s.writeSegs c 0 d [(p, 0, r)] }

def execLdw (c : Nat) (ph : Phase) (s : State) : Host.Outcome State Fault Refusal :=
  stream c ph (op 2 1) (planLdw c) s

end Sys2Proof.Machine
end

