-- ==== Sys2Proof/Machine/CellTensor.lean ====
section
/-! DEFINITION. The tensor stream: TZERO, TMMA, TRD (04 R102 to R105, 02 R38 to R43). -/

namespace Sys2Proof.Machine

/-- TZERO (04 R103). -/
def planTzero (c : Nat) (_ : State) (e : QEntry) : Except Nat Plan :=
  let w := e.word.toNat
  let t := bits w 43 41
  .ok (plan1 (fun s =>
    let x := s.cell c
    (s.setCell c { x with
      t := x.t.filter (fun (k, _) => decide (k / 8192 ≠ t)),
      tfp := if bits w 40 40 = 1 then setBit x.tfp t else clrBit x.tfp t,
      tsat := clrBit x.tsat t }, 0)))

def execTzero (c : Nat) (ph : Phase) (s : State) : Host.Outcome State Fault Refusal :=
  stream c ph (op 4 0) (planTzero c) s

/-- The formats that the tensor array computes (02 R38). -/
def Fmt.tensor (f : Fmt) : Bool :=
  match f with
  | .int32 | .fp32 | .gf24 => false
  | _ => true

/-- A pair of operand formats that may meet (02 R38). -/
def tmmaPair (a b : Fmt) : Bool :=
  decide (a = b) || (decide (a = .e4m3) && decide (b = .e5m2)) || (decide (a = .e5m2) && decide (b = .e4m3))

/-- One K-block of one tile element: integer operands saturate, floating-point operands follow
02 R41 and R42. -/
def tmmaCell (int : Bool) (ft : Fmt) (gt : Fmt) (acc : Nat) (a b : Row) : Nat × Flags × Bool :=
  if int then
    let (v, sat) := accInt acc (a.ints ft) (b.ints gt)
    (v, { sat := sat }, sat)
  else
    let (v, f) := accFloat acc (a.nums ft) (b.nums gt)
    (v, f, false)

/-- One K-block over rows `m` and columns `n` of tile `t` (04 R104). -/
def tmmaBlock (c t : Nat) (int : Bool) (fa fb : Fmt) (as bs : List Row) (s : State) : State :=
  let im := (List.range as.length).zip as
  let jn := (List.range bs.length).zip bs
  im.foldl (fun s (m, a) => jn.foldl (fun s (n, b) =>
    let x := s.cell c
    let (v, f, sat) := tmmaCell int fa fb (x.rT t m n) a b
    let x := x.wT t m n v
    ((s.setCell c (if sat then { x with tsat := setBit x.tsat t } else x)).raise c f)) s) s

/-- TMMA (04 R104): a step for each K-block. -/
def planTmma (c : Nat) (s : State) (e : QEntry) : Except Nat Plan := do
  let w := e.word.toNat
  let t := bits w 43 41
  let a ← s.desc c (e.op 0) (e.op 2)
  let b ← s.desc c (e.op 1) (e.op 3)
  if a.rank ≠ 2 ∨ b.rank ≠ 2 ∨ a.d0 ≠ b.d0 ∨ a.d1 > 128 ∨ b.d1 > 64 ∨ a.d0 % 64 ≠ 0 ∨ a.d0 > 4096 then
    throw errReserved
  if !a.fmt.tensor || !b.fmt.tensor then throw errReserved
  let fp := bit (s.cell c).tfp t
  if !tmmaPair a.fmt b.fmt || (a.fmt.isInt == fp) then throw errFormat
  s.reachAll c .own a
  s.reachAll c .own b
  return { total := a.d0 / 64,
           step := fun s k => do
             let as ← collect (fun m => s.readSeg c .own a m (64 * k) 64) a.d1 0
             let bs ← collect (fun n => s.readSeg c .own b n (64 * k) 64) b.d1 0
             let s := (List.range a.d1).foldl (fun s m => s.noteSeg c a m (64 * k) 64) s
             let s := (List.range b.d1).foldl (fun s n => s.noteSeg c b n (64 * k) 64) s
             return (tmmaBlock c t a.fmt.isInt a.fmt b.fmt as bs s, 0) }

def execTmma (c : Nat) (ph : Phase) (s : State) : Host.Outcome State Fault Refusal :=
  stream c ph (op 4 1) (planTmma c) s

/-- TRD (04 R105). -/
def planTrd (c : Nat) (s : State) (e : QEntry) : Except Nat Plan := do
  let t := bits e.word.toNat 43 41
  let d ← s.desc c (e.op 0) (e.op 1)
  if d.rank ≠ 2 ∨ d.d0 > 64 ∨ d.d1 > 128 then throw errReserved
  if d.fmt ≠ (if bit (s.cell c).tfp t then Fmt.fp32 else Fmt.int32) then throw errFormat
  s.reachAll c .own d
  return plan1 (fun s =>
    let x := s.cell c
    s.writeSegs c 0 d ((List.range d.d1).map (fun m =>
      (m, 0, { els := (List.range d.d0).map (fun n => x.rT t m n), scales := [] }))))

def execTrd (c : Nat) (ph : Phase) (s : State) : Host.Outcome State Fault Refusal :=
  stream c ph (op 4 2) (planTrd c) s

end Sys2Proof.Machine
end

