-- ==== Sys2Proof/Machine/CellVector.lean ====
section
/-! DEFINITION. The VECTOR class (04 R106, 02 R28, R44). -/

namespace Sys2Proof.Machine

/-- The format of a VECTOR word. -/
def vecFmt (w : Nat) : Fmt := (Fmt.ofCode (bits w 23 20)).getD .fp32

/-- Two elements stand in each lane (02 R28). -/
def Fmt.packed (f : Fmt) : Bool := decide (f = .bf16) || decide (f = .fp16)

/-- Element `h` of a lane (02 R28). -/
def laneElem (f : Fmt) (lane h : Nat) : Nat :=
  if f.packed then lane / 2 ^ (16 * h) % 2 ^ 16
  else if f = .gf24 then lane / 2 ^ 8 % 2 ^ 24
  else lane % 2 ^ 32

/-- A lane from its elements: a GF24 result stands in bits [31:8] (02 R28). -/
def laneOf (f : Fmt) (es : List Nat) : Nat :=
  if f.packed then es.getD 0 0 + es.getD 1 0 * 2 ^ 16
  else if f = .gf24 then es.getD 0 0 * 2 ^ 8
  else es.getD 0 0

/-- Elements of a lane. -/
def Fmt.perLane (f : Fmt) : Nat := if f.packed then 2 else 1

/-- Apply `g` to the elements of three registers, lane by lane; `put` makes a lane of the results. -/
def vecMap (c : Nat) (f : Fmt) (vd va vb vc : Nat) (put : Fmt → List Nat → Nat)
    (g : Nat → Nat → Nat → Nat × Flags) (s : State) : State :=
  let x := s.cell c
  let rs := (List.range 64).map (fun l =>
    (List.range f.perLane).map (fun h =>
      g (laneElem f (x.rV va l) h) (laneElem f (x.rV vb l) h) (laneElem f (x.rV vc l) h)))
  let y := ((List.range 64).zip rs).foldl (fun (y : Cell) (l, es) => y.wV vd l (put f (es.map (·.1)))) x
  (s.setCell c y).raise c (rs.flatten.foldl (fun a r => a.or r.2) {})

/-- An arithmetic operation: `gi` on INT32, `gf` on numbers of the format; inputs that GF24 loses set
UNF (02 R30). -/
def planVec (c : Nat) (gi : Int → Int → Int → Int) (gf : FFmt → Num → Num → Num → Nat × Flags)
    (used : Nat) (_ : State) (e : QEntry) : Except Nat Plan :=
  let w := e.word.toNat
  let f := vecFmt w
  .ok (plan1 (fun s => (vecMap c f (bits w 43 39) (bits w 38 34) (bits w 33 29) (bits w 28 24) laneOf
    (fun a b d =>
      if f = .int32 then
        let (v, sat) := clampInt 32 (gi (signedOf 32 a) (signedOf 32 b) (signedOf 32 d))
        (twos 32 v, { sat := sat })
      else
        let (r, fl) := gf f.layout (f.read a) (f.read b) (f.read d)
        let fl := fl.or (f.readFlags a)
        let fl := if 2 ≤ used then fl.or (f.readFlags b) else fl
        (r, if 3 ≤ used then fl.or (f.readFlags d) else fl)) s, 0)))

def planVadd (c : Nat) : State → QEntry → Except Nat Plan := planVec c (fun a b _ => a + b) (fun f a b _ => addNum f a b) 2
def execVadd (c : Nat) (ph : Phase) (s : State) : Host.Outcome State Fault Refusal :=
  stream c ph (op 5 0) (planVadd c) s
def planVsub (c : Nat) : State → QEntry → Except Nat Plan := planVec c (fun a b _ => a - b) (fun f a b _ => addNum f a b.negate) 2
def execVsub (c : Nat) (ph : Phase) (s : State) : Host.Outcome State Fault Refusal :=
  stream c ph (op 5 1) (planVsub c) s
def planVmul (c : Nat) : State → QEntry → Except Nat Plan := planVec c (fun a b _ => a * b) (fun f a b _ => mulRound f a b) 2
def execVmul (c : Nat) (ph : Phase) (s : State) : Host.Outcome State Fault Refusal :=
  stream c ph (op 5 2) (planVmul c) s
def planVfma (c : Nat) : State → QEntry → Except Nat Plan := planVec c (fun a b d => a * b + d) (fun f a b d => fmaRound f a b d) 3
def execVfma (c : Nat) (ph : Phase) (s : State) : Host.Outcome State Fault Refusal :=
  stream c ph (op 5 3) (planVfma c) s

/-- The encoding of an operand or the canonical NaN, exactly (02 R44). -/
def exactBits (f : FFmt) (x : Num) : Nat × Flags := ((roundNum f x).1, {})

def planVmax (c : Nat) : State → QEntry → Except Nat Plan := planVec c (fun a b _ => max a b) (fun f a b _ => exactBits f (a.maximum b)) 2
def execVmax (c : Nat) (ph : Phase) (s : State) : Host.Outcome State Fault Refusal :=
  stream c ph (op 5 4) (planVmax c) s
def planVmin (c : Nat) : State → QEntry → Except Nat Plan := planVec c (fun a b _ => min a b) (fun f a b _ => exactBits f (a.minimum b)) 2
def execVmin (c : Nat) (ph : Phase) (s : State) : Host.Outcome State Fault Refusal :=
  stream c ph (op 5 5) (planVmin c) s
def planVexp (c : Nat) : State → QEntry → Except Nat Plan := planVec c (fun a _ _ => a) (fun f a _ _ => vexp f a) 1
def execVexp (c : Nat) (ph : Phase) (s : State) : Host.Outcome State Fault Refusal :=
  stream c ph (op 5 6) (planVexp c) s
def planVrcp (c : Nat) : State → QEntry → Except Nat Plan := planVec c (fun a _ _ => a) (fun f a _ _ => vrcp f a) 1
def execVrcp (c : Nat) (ph : Phase) (s : State) : Host.Outcome State Fault Refusal :=
  stream c ph (op 5 7) (planVrcp c) s
def planVrsq (c : Nat) : State → QEntry → Except Nat Plan := planVec c (fun a _ _ => a) (fun f a _ _ => vrsq f a) 1
def execVrsq (c : Nat) (ph : Phase) (s : State) : Host.Outcome State Fault Refusal :=
  stream c ph (op 5 8) (planVrsq c) s

/-- The relation of VCMP; a NaN makes only "not equal" hold (04 R106). -/
def vcmpHolds (rel : Nat) (a b : Num) : Bool :=
  match rel with
  | 0 => a.eqv b
  | 1 => a.lt b
  | 2 => a.lt b || a.eqv b
  | _ => !a.eqv b

/-- VCMP writes a mask, which fills the whole lane of a 32-bit format. -/
def planVcmp (c : Nat) (_ : State) (e : QEntry) : Except Nat Plan :=
  let w := e.word.toNat
  let f := vecFmt w
  .ok (plan1 (fun s => (vecMap c f (bits w 43 39) (bits w 38 34) (bits w 33 29) 0
    (fun f es => if f.packed then es.getD 0 0 + es.getD 1 0 * 2 ^ 16 else es.getD 0 0)
    (fun a b _ =>
      (if vcmpHolds (bits w 2 0) (f.read a) (f.read b) then (if f.packed then 0xFFFF else 0xFFFFFFFF)
       else 0, (f.readFlags a).or (f.readFlags b))) s, 0)))

def execVcmp (c : Nat) (ph : Phase) (s : State) : Host.Outcome State Fault Refusal :=
  stream c ph (op 5 9) (planVcmp c) s

/-- A lane-wise operation without a format (FMT 0). -/
def planLane (c : Nat) (g : Nat → Nat → Nat → Nat) (_ : State) (e : QEntry) : Except Nat Plan :=
  let w := e.word.toNat
  .ok (plan1 (fun s => (vecMap c .fp32 (bits w 43 39) (bits w 38 34) (bits w 33 29) (bits w 28 24) laneOf
    (fun a b d => (g a b d, {})) s, 0)))

def planVsel (c : Nat) : State → QEntry → Except Nat Plan := planLane c (fun a b d => if d = 0 then b else a)
def execVsel (c : Nat) (ph : Phase) (s : State) : Host.Outcome State Fault Refusal :=
  stream c ph (op 5 10) (planVsel c) s
def planVand (c : Nat) : State → QEntry → Except Nat Plan := planLane c (fun a b _ => a &&& b)
def execVand (c : Nat) (ph : Phase) (s : State) : Host.Outcome State Fault Refusal :=
  stream c ph (op 5 11) (planVand c) s
def planVor (c : Nat) : State → QEntry → Except Nat Plan := planLane c (fun a b _ => a ||| b)
def execVor (c : Nat) (ph : Phase) (s : State) : Host.Outcome State Fault Refusal :=
  stream c ph (op 5 12) (planVor c) s
def planVxor (c : Nat) : State → QEntry → Except Nat Plan := planLane c (fun a b _ => a ^^^ b)
def execVxor (c : Nat) (ph : Phase) (s : State) : Host.Outcome State Fault Refusal :=
  stream c ph (op 5 13) (planVxor c) s
def planVmov (c : Nat) : State → QEntry → Except Nat Plan := planLane c (fun a _ _ => a)
def execVmov (c : Nat) (ph : Phase) (s : State) : Host.Outcome State Fault Refusal :=
  stream c ph (op 5 14) (planVmov c) s

/-- VBCAST: the bound SA[31:0] in every lane. -/
def planVbcast (c : Nat) (_ : State) (e : QEntry) : Except Nat Plan :=
  let vd := bits e.word.toNat 43 39
  .ok (plan1 (fun s =>
    (s.setCell c ((List.range 64).foldl (fun (x : Cell) l => x.wV vd l (e.op 0 % 2 ^ 32)) (s.cell c)), 0)))

def execVbcast (c : Nat) (ph : Phase) (s : State) : Host.Outcome State Fault Refusal :=
  stream c ph (op 5 15) (planVbcast c) s

/-- The address that VLD and VST name: SA[23:0] + 64 × IMM, a multiple of 64, whose 256 bytes lie
within 12 MiB. -/
def vecAddr (c : Nat) (e : QEntry) : Except Nat Nat :=
  let o := e.op 0 % 2 ^ 24 + 64 * bits e.word.toNat 14 0
  if o % 64 ≠ 0 then .error errReserved
  else if o + 256 > spadSize then .error errWindow
  else .ok (spadBase c + o)

def planVld (c : Nat) (s : State) (e : QEntry) : Except Nat Plan := do
  let a ← vecAddr c e
  let b ← s.cellRead c .own a 256
  return plan1 (fun s =>
    let s := s.noteRead c (s.partOf c) a 256
    (s.setCell c ((List.range 64).foldl
      (fun (x : Cell) l => x.wV (bits e.word.toNat 43 39) l (fieldAt b (4 * l) 4)) (s.cell c)), 0))

def execVld (c : Nat) (ph : Phase) (s : State) : Host.Outcome State Fault Refusal :=
  stream c ph (op 5 16) (planVld c) s

def planVst (c : Nat) (_ : State) (e : QEntry) : Except Nat Plan := do
  let a ← vecAddr c e
  return plan1 (fun s =>
    let x := s.cell c
    let (s, bad) := s.cellWrite c 0 a (byteList ((List.range 64).flatMap
      (fun l => bytesOf 4 (x.rV (bits e.word.toNat 38 34) l))))
    (s, if bad then memErr a else 0))

def execVst (c : Nat) (ph : Phase) (s : State) : Host.Outcome State Fault Refusal :=
  stream c ph (op 5 17) (planVst c) s

end Sys2Proof.Machine
end

