-- ==== Sys2Proof/Machine/CellConv.lean ====
section
/-! DEFINITION. The CONV class: CVT and CVTV (04 R107 to R109, 02 R32 to R37). -/

namespace Sys2Proof.Machine

/-- The rounding of element `i` (04 R107, 02 R35): RND, the seed and index base that SN binds. -/
def cvtRnd (rnd sn i : Nat) : Rnd :=
  match rnd with
  | 1 => .rtz
  | 2 => .sr (srWord (sn % 2 ^ 32) ((i + sn / 2 ^ 32) % 2 ^ 32))
  | _ => .rne

/-- An exact product with a scale; a NaN keeps the sign it came with (04 R108, 02 R34). An infinity
times zero is a NaN that sets INV (02 R36). -/
def scaleNum (x k : Num) : Num × Flags :=
  match x, k with
  | .nan n, _ => (.nan n, {})
  | _, .nan n => (.nan n, {})
  | _, _ =>
    match mulNum x k with
    | some y => (y, {})
    | none => (.nan false, { inv := true })

/-- Runs `(row, first element, count)` of the linear indexes `lo … hi − 1`. -/
def linearRuns (d0 lo hi : Nat) : List (Nat × Nat × Nat) :=
  if hi ≤ lo then []
  else
    (List.range ((hi - 1) / d0 - lo / d0 + 1)).map (fun j =>
      let r := lo / d0 + j
      let a := max lo (r * d0)
      (r, a - r * d0, min hi ((r + 1) * d0) - a))

/-- One converted element of a destination that is no MX format, with zero point `zp` (04 R108); `plain` says that it is a source
element as it stands, not a product with a scale. -/
def cvtElem (t : Fmt) (r : Rnd) (satsel plain : Bool) (zp : Option Int) (x : Num) : Nat × Flags :=
  let (y, f) := if plain then toFmtBits t r satsel x else productBits t r satsel x
  match zp with
  | some z =>
    if t.isInt then
      let (v, c) := clampInt t.bits (signedOf t.bits y + z)
      (twos t.bits v, if c then f.or { ovf := true } else f)
    else (y, f)
  | none => (y, f)

/-- Convert a run of numbers that starts at linear index `i0`. -/
def cvtRun (t : Fmt) (rnd sn : Nat) (satsel plain : Bool) (zp : Option Int) (i0 : Nat) (xs : List Num) :
    Row × Flags :=
  if t.isMx then
    let bs := (List.range (xs.length / 32)).map (fun b =>
      mxBlock t (fun j => cvtRnd rnd sn (i0 + 32 * b + j)) ((xs.drop (32 * b)).take 32))
    ({ els := bs.flatMap (fun b => b.2.1), scales := bs.map (·.1) },
     bs.foldl (fun f b => f.or b.2.2) {})
  else
    let ys := (List.range xs.length).zip xs |>.map (fun (j, x) =>
      cvtElem t (cvtRnd rnd sn (i0 + j)) satsel plain zp x)
    ({ els := ys.map (·.1), scales := [] }, ys.foldl (fun f y => f.or y.2) {})

/-- SATSEL = 1 is reserved for integer, MX and E4M3 targets (02 R33). -/
def satselOk (t : Fmt) (satsel : Nat) : Bool := decide (satsel = 0) || !t.satselReserved

/-- CVT (04 R108): a step for each 16,384 elements. -/
def planCvt (c : Nat) (s : State) (e : QEntry) : Except Nat Plan := do
  let w := e.word.toNat
  let scl := bits w 22 21
  let rnd := bits w 25 24
  let ss := e.op 2
  let d ← s.desc c (e.op 0) (e.op 5)
  let sd ← s.desc c (e.op 1) (e.op 6)
  if !d.sameDims sd then throw errReserved
  if !satselOk d.fmt (bits w 23 23) then throw errReserved
  if scl ≠ 0 ∧ ss / 2 ^ 48 ≠ 0 then throw errReserved
  let ac ← if scl = 2 then s.desc c (e.op 4) 0 else pure d
  if scl = 2 ∧ (ac.rank ≠ 1 ∨ ac.d0 ≠ d.d0) then throw errReserved
  if scl = 2 ∧ ac.fmt ≠ .fp32 then throw errFormat
  s.reachAll c .own sd
  s.reachAll c .own d
  let sc ← if scl = 2 then s.readRow c .own ac 0 else pure { els := [], scales := [] }
  let zp : Option Int := if scl = 0 then none else some (signedOf 16 (ss / 2 ^ 32))
  return { total := (d.elems + 16383) / 16384,
           step := fun s k => do
             let runs := linearRuns d.d0 (16384 * k) (min d.elems (16384 * (k + 1)))
             let xs ← collect (fun j =>
               let (r, i0, n) := runs.getD j (0, 0, 0)
               s.readSeg c .own sd r i0 n) runs.length 0
             let ys : List ((Nat × Nat × Row) × Flags) := (runs.zip xs).map (fun ((r, i0, _), x) =>
               let v := (List.range x.els.length).zip (x.nums sd.fmt) |>.map (fun (j, y) =>
                 if scl = 1 then scaleNum y (fp32.decode (ss % 2 ^ 32))
                 else if scl = 2 then scaleNum y (fp32.decode (sc.els.getD (i0 + j) 0))
                 else (y, {}))
               let (row, f) := cvtRun d.fmt rnd (e.op 3) (bits w 23 23 == 1) (scl == 0 && !sd.fmt.isMx) zp (r * d.d0 + i0) (v.map (·.1))
               ((r, i0, row), (v.foldl (fun f y => f.or y.2) f).or (x.flags sd.fmt)))
             let s := runs.foldl (fun s (r, i0, n) => s.noteSeg c sd r i0 n) s
             let s := if scl = 2 ∧ k = 0 then s.noteSeg c ac 0 0 ac.d0 else s
             return (s.raise c (ys.foldl (fun f y => f.or y.2) {})).writeSegs c 0 d (ys.map (·.1)) }

def execCvt (c : Nat) (ph : Phase) (s : State) : Host.Outcome State Fault Refusal :=
  stream c ph (op 12 0) (planCvt c) s

/-- The element of a source register that becomes element `i` (04 R109). -/
def cvtvSrc (f : Fmt) (x : Cell) (va h i : Nat) : Nat :=
  if f.packed then laneElem f (x.rV va ((64 * h + i) / 2)) ((64 * h + i) % 2) else laneElem f (x.rV va i) 0

/-- CVTV (04 R109). -/
def planCvtv (c : Nat) (_ : State) (e : QEntry) : Except Nat Plan := do
  let w := e.word.toNat
  let fd := (Fmt.ofCode (bits w 33 30)).getD .fp32
  let fs := (Fmt.ofCode (bits w 29 26)).getD .fp32
  let h := bits w 17 17
  let vd := bits w 43 39
  return plan1 (fun s =>
    let x := s.cell c
    let src := (List.range 64).map (cvtvSrc fs x (bits w 38 34) h)
    let i0 := if fd.packed then 64 * h else 0
    let ys := (List.range 64).zip src |>.map (fun (i, b) =>
      let (y, f) := cvtElem fd (cvtRnd (bits w 25 24) (e.op 0) (i0 + i)) (bits w 23 23 == 1) true none (fs.read b)
      (y, f.or (fs.readFlags b)))
    let el := fun i => (ys.getD i (0, {})).1
    let y :=
      if fd.packed then
        (List.range 64).foldl (fun (y : Cell) l =>
          if 32 * h ≤ l ∧ l < 32 * h + 32 then
            y.wV vd l (el (2 * (l - 32 * h)) + el (2 * (l - 32 * h) + 1) * 2 ^ 16)
          else if h = 0 then y.wV vd l 0
          else y) x
      else (List.range 64).foldl (fun (y : Cell) l => y.wV vd l (laneOf fd [el l])) x
    ((s.setCell c y).raise c (ys.foldl (fun f y => f.or y.2) {}), 0))

def execCvtv (c : Nat) (ph : Phase) (s : State) : Host.Outcome State Fault Refusal :=
  stream c ph (op 12 1) (planCvtv c) s

end Sys2Proof.Machine
end

