-- ==== Sys2Proof/Machine/CellReduce.lean ====
section
/-! DEFINITION. REDUCE and VSPEC: RSTAT, RNORM, VDW (04 R110 to R113, 02 R45). -/

namespace Sys2Proof.Machine

/-- An FP32 encoding with the flags gathered so far. -/
structure Fl32 where
  v : Nat
  f : Flags := {}
  deriving DecidableEq, Repr

/-- A rounded operation on numbers of two accumulated values. -/
def Fl32.op2 (g : Num → Num → Nat × Flags) (a b : Fl32) : Fl32 :=
  let (v, f) := g (fp32.decode a.v) (fp32.decode b.v)
  { v := v, f := (a.f.or b.f).or f }

def Fl32.add (a b : Fl32) : Fl32 := Fl32.op2 (addNum fp32) a b
def Fl32.sub (a b : Fl32) : Fl32 := Fl32.op2 (fun x y => addNum fp32 x y.negate) a b
def Fl32.mul (a b : Fl32) : Fl32 := Fl32.op2 (mulRound fp32) a b
def Fl32.max (a b : Fl32) : Fl32 := Fl32.op2 (fun x y => exactBits fp32 (x.maximum y)) a b
def Fl32.exp (a : Fl32) : Fl32 :=
  let (v, f) := vexp fp32 (fp32.decode a.v)
  { v := v, f := a.f.or f }
def Fl32.rcp (a : Fl32) : Fl32 :=
  let (v, f) := vrcp fp32 (fp32.decode a.v)
  { v := v, f := a.f.or f }

/-- One level of the lane tree: neighbours are paired, a single member passes (02 R45). -/
def treeLevel (g : Fl32 → Fl32 → Fl32) : List Fl32 → List Fl32
  | a :: b :: t => g a b :: treeLevel g t
  | l => l

/-- The six levels over the lanes of one vector. -/
def treeReduce (g : Fl32 → Fl32 → Fl32) : Nat → List Fl32 → Fl32
  | 0, l => l.headD { v := 0 }
  | n + 1, l => treeReduce g n (treeLevel g l)

/-- Split a row into vectors of 64. -/
def vectorsOf : Nat → List Fl32 → List (List Fl32)
  | 0, _ => []
  | n + 1, l => if l.isEmpty then [] else l.take 64 :: vectorsOf n (l.drop 64)

/-- Go on reducing a row over the vectors of `l`, in ascending column order (02 R45), from the partial result `acc` of those before;
none before the first. -/
def rowReduceFrom (g : Fl32 → Fl32 → Fl32) (acc : Option Fl32) (l : List Fl32) : Fl32 :=
  match acc, (vectorsOf l.length l).map (treeReduce g 6) with
  | none, [] => { v := 0 }
  | none, a :: t => t.foldl g a
  | some p, t => t.foldl g p

/-- `z[j]` of a row (04 R111). -/
def prescaled (f : Fmt) (sc : Nat) (r : Row) : List Fl32 :=
  (r.nums f).map (fun x =>
    let (v, fl) := mulRound fp32 x (fp32.decode sc)
    { v := v, f := fl })

/-- One step of RSTAT over the elements `zs` of its pass (04 R111): the pair of partial results after it, `(a, b)` being the pair
before, of which a pass's first step takes none. Pass 0 reduces the first of the pair, pass 1 the second. -/
def rstatStep (moments : Bool) (pass : Nat) (first : Bool) (a b : Nat) (zs : List Fl32) : Fl32 × Fl32 :=
  let from_ := fun (v : Nat) => if first then none else some ({ v := v } : Fl32)
  if pass = 0 then (rowReduceFrom (if moments then Fl32.add else Fl32.max) (from_ a) zs, { v := 0 })
  else if moments then ({ v := a }, rowReduceFrom Fl32.add (from_ b) (zs.map (fun z => z.mul z)))
  else if a = fp32.infBits true then ({ v := a }, { v := 0 })
  else ({ v := a }, rowReduceFrom Fl32.add (from_ b) (zs.map (fun z => (z.sub { v := a }).exp)))

/-- The source of RSTAT and RNORM, and the statistics tensor, have the shapes of 04 R110. -/
def reduceShape (sd st : Desc) : Except Nat Unit :=
  if sd.rank ≠ 2 ∨ sd.d0 > 8192 ∨ sd.d1 > 4096 ∨ st.rank ≠ 2 ∨ st.d0 ≠ 2 ∨ st.d1 ≠ sd.d1 then
    .error errReserved
  else if !(sd.fmt = .fp32 || sd.fmt = .bf16 || sd.fmt = .fp16) || st.fmt ≠ .fp32 then .error errFormat
  else .ok ()

/-- Bound operand `i` of the instruction that stream `st` of cell `c` runs, as its queue entry holds it. -/
def State.operand (s : State) (c : Nat) (st : Strm) (i : Nat) : Nat :=
  let q := ((s.cell c).stream st).q
  match q[firstOpen q]? with
  | some e => e.op i
  | none => 0

/-- Hold `v` as bound operand `i` of that entry (04 R111). -/
def State.setOperand (s : State) (c : Nat) (st : Strm) (i v : Nat) : State :=
  let x := s.cell c
  let q := x.stream st
  let k := firstOpen q.q
  match q.q[k]? with
  | some e => s.setCell c (x.setStream st { q with q := q.q.set k { e with ops := e.ops.take i ++ [v] } })
  | none => s

/-- RSTAT (04 R111): in each row a step for each 64 vectors of each pass; between its steps the entry's sixth operand holds the
row's partial pair, and the last step writes the pair. -/
def planRstat (c : Nat) (s : State) (e : QEntry) : Except Nat Plan := do
  let w := e.word.toNat
  let d ← s.desc c (e.op 0) (e.op 2)
  let sd ← s.desc c (e.op 1) (e.op 3)
  reduceShape sd d
  s.reachAll c .own sd
  s.reachAll c .own d
  let half := (sd.d0 + 4095) / 4096
  return { total := sd.d1 * (2 * half),
           step := fun s k => do
             let r := k / (2 * half)
             let j := k % (2 * half)
             let i0 := j % half * 4096
             let n := min 4096 (sd.d0 - i0)
             let x ← s.readSeg c .own sd r i0 n
             let p := s.operand c .vector 5
             let (a, b) := rstatStep (bits w 25 24 == 1) (j / half) (j % half == 0) (p % 2 ^ 32) (p / 2 ^ 32)
               (prescaled sd.fmt (e.op 4 % 2 ^ 32) x)
             let s := (s.noteSeg c sd r i0 n).raise c (a.f.or b.f)
             if j + 1 < 2 * half then return (s.setOperand c .vector 5 (a.v + b.v * 2 ^ 32), 0)
             else return s.writeSegs c 0 d [(r, 0, { els := [a.v, b.v], scales := [] })] }

def execRstat (c : Nat) (ph : Phase) (s : State) : Host.Outcome State Fault Refusal :=
  stream c ph (op 7 0) (planRstat c) s

/-- One normalised element (04 R112). -/
def rnormElem (affine : Bool) (a b : Nat) (z : Fl32) : Fl32 :=
  if affine then (z.sub { v := a }).mul { v := b }
  else if a = fp32.infBits true then { v := 0 }
  else ((z.sub { v := a }).exp).mul (Fl32.rcp { v := b })

/-- RNORM (04 R112): a step for each row. -/
def planRnorm (c : Nat) (s : State) (e : QEntry) : Except Nat Plan := do
  let w := e.word.toNat
  let d ← s.desc c (e.op 0) (e.op 3)
  let sd ← s.desc c (e.op 1) (e.op 4)
  let st ← s.desc c (e.op 2) 0
  if !d.sameDims sd || decide (d.rank ≠ 2) then throw errReserved
  reduceShape sd st
  if !(d.fmt = .fp32 || d.fmt = .bf16 || d.fmt = .fp16 || d.fmt = .e4m3 || d.fmt = .e5m2) then throw errFormat
  s.reachAll c .own sd
  s.reachAll c .own st
  s.reachAll c .own d
  let affine := bits w 21 20 == 1
  return { total := sd.d1,
           step := fun s r => do
             let x ← s.readRow c .own sd r
             let p ← s.readRow c .own st r
             let zs := if affine then (x.nums sd.fmt).map (fun y => { v := f32OfNum y : Fl32 })
               else prescaled sd.fmt (Config.rnormPrescale x.els p.els) x
             let ys := zs.map (fun z =>
               let y := rnormElem affine (p.els.getD 0 0) (p.els.getD 1 0) z
               let (v, f) := toFmtBits d.fmt .rne false (fp32.decode y.v)
               ({ v := v, f := y.f.or f } : Fl32))
             let s := (s.noteSeg c sd r 0 sd.d0).noteSeg c st r 0 2
             return (s.raise c (ys.foldl (fun f y => f.or y.f) {})).writeSegs c 0 d
               [(r, 0, { els := ys.map (fun y => y.v), scales := [] })] }

def execRnorm (c : Nat) (ph : Phase) (s : State) : Host.Outcome State Fault Refusal :=
  stream c ph (op 7 1) (planRnorm c) s

/-! VDW (04 R113). -/

/-- Input formats of VDW. -/
def Fmt.vdw (f : Fmt) : Bool :=
  match f with
  | .int8 | .int16 | .e4m3 | .e5m2 | .bf16 | .fp16 | .fp32 => true
  | _ => false

/-- One tap added to one output: `v × w` in CONV, `v` in SUMPOOL. -/
def vdwAdd (int : Bool) (v w : Num) (acc : Fl32) : Fl32 :=
  let (r, f) :=
    if int then
      let p := match mulNum v w with
        | some (.fin n m _) => signInt n m
        | _ => 0
      let (x, c) := clampInt 32 (signedOf 32 acc.v + p)
      (twos 32 x, ({ sat := c } : Flags))
    else fmaRound fp32 v w (fp32.decode acc.v)
  { v := r, f := acc.f.or f }

/-- One output of CONV or SUMPOOL: taps in the order ky, kx, j (02 R45). -/
def vdwSum (int : Bool) (vs ws : List Num) : Fl32 :=
  (vs.zip ws).foldl (fun acc (v, w) => vdwAdd int v w acc) { v := 0 }

/-- The maximum of the taps that are not padded; none where all are. -/
def vdwMax (f : Fmt) : List Num → Option Num
  | [] => none
  | v :: t =>
    match vdwMax f t with
    | none => some v
    | some m => some (v.maximum m)

/-- The encoding of a maximum in the input's format. -/
def vdwMaxBits (f : Fmt) (x : Num) : Nat :=
  if f.isInt then (toIntBits f.bits .rne x).1 else (roundNum f.layout x).1

/-- What MAXPOOL outputs over a window of padded taps alone: the most negative value of the format (06 R155). -/
def vdwLowest (f : Fmt) : Nat :=
  if f.isInt then 2 ^ (f.bits - 1)
  else if f = .e4m3 then f.layout.maxBits true else f.layout.infBits true

/-- VDW: a step for each (pixel, kernel row, kernel column); a pixel is written in its last step. -/
def planVdw (c : Nat) (s : State) (e : QEntry) : Except Nat Plan := do
  let wd := e.word.toNat
  let mode := bits wd 17 16
  let d ← s.desc c (e.op 0) (e.op 5)
  let src ← s.desc c (e.op 1) 0
  let w ← s.walker c (e.op 2) 7 true src
  let sp := e.op 4
  if !sposOk w sp then throw errReserved
  if !src.fmt.vdw then throw errReserved
  let g := w.grp
  if w.cn > 64 ∨ w.cn % g ≠ 0 ∨ (mode ≠ 0 ∧ g ≠ 1) then throw errReserved
  let k ← if mode = 0 then s.desc c (e.op 3) 0 else pure src
  if mode = 0 ∧ (k.rank ≠ 4 ∨ k.d0 ≠ w.cn ∨ k.d1 ≠ g ∨ k.d2 ≠ w.kw ∨ k.d3 ≠ w.kh) then throw errReserved
  if k.fmt ≠ src.fmt then throw errFormat
  let int := src.fmt.isInt
  let df := if mode = 1 then src.fmt else if int then Fmt.int32 else Fmt.fp32
  if d.rank ≠ 2 ∨ d.d0 ≠ w.cn ∨ d.d1 ≠ bits sp 47 32 ∨ d.fmt ≠ df then throw errFormat
  s.reachAll c .ownOrCs src
  s.reachAll c .own d
  if mode = 0 then s.reachAll c .own k
  let per := w.kh * w.kw
  return { total := bits sp 47 32 * per,
           step := fun s i =>
             if i % per + 1 ≠ per then .ok (s, 0)
             else do
               let p := i / per
               let taps ← collect (fun j =>
                 s.tap c src w (bits sp 31 16) (bits sp 15 0 + p) (j / w.kw) (j % w.kw)) per 0
               let ws ← if mode = 0 then collect (fun r => s.readRow c .own k r) k.rows 0 else pure []
               let s := s.noteTaps c src taps
               let s := if mode = 0 then
                   (List.range k.rows).foldl (fun s r => s.noteSeg c k r 0 k.d0) s else s
               let vals := taps.map (fun t => t.row.nums src.fmt)
               let wvs := ws.map (fun r => r.nums k.fmt)
               let one : Num := .fin false 1 0
               let zero : Num := .fin false 0 0
               if mode = 1 then
                 let rs := (List.range w.cn).map (fun o =>
                   vdwMax src.fmt (((taps.zip vals).filter (fun (t, _) => t.real)).map (fun (_, v) => v.getD o zero)))
                 let els := rs.map (fun r =>
                   match r with
                   | some x => vdwMaxBits src.fmt x
                   | none => vdwLowest src.fmt)
                 return s.writeSegs c 0 d [(p, 0, { els := els, scales := [] })]
               else
                 let ys := (List.range w.cn).map (fun o =>
                   let js := (List.range per).flatMap (fun t => (List.range g).map (fun j => (t, j)))
                   let vs := js.map (fun (t, j) => (vals.getD t []).getD (g * (o / g) + j) zero)
                   let kv := js.map (fun (t, j) =>
                     if mode = 0 then (wvs.getD (j + g * t) []).getD o zero else one)
                   vdwSum int vs kv)
                 return (s.raise c (ys.foldl (fun f y => f.or y.f) {})).writeSegs c 0 d
                   [(p, 0, { els := ys.map (fun y => y.v), scales := [] })] }

def execVdw (c : Nat) (ph : Phase) (s : State) : Host.Outcome State Fault Refusal :=
  stream c ph (op 6 0) (planVdw c) s

end Sys2Proof.Machine
end

