-- ==== Sys2Proof/Machine/WindowOps.lean ====
section
/-! DEFINITION. Windows: WOPEN, WCLOSE, CKPT, COMMIT, island A's writes of the descriptors, and the
judging of writes, commits and releases where they arrive (04 R116 to R118; 05 R129 to R138; 09 R254). -/

namespace Sys2Proof.Machine

/-- Window `n` of slot `u` exists: 16 in a cell, 8 in the mailbox block (05 R129, 09 R254). -/
def winExists (u n : Nat) : Bool := (decide (u < 48) && decide (n < 16)) || (decide (u = 63) && decide (n < 8))

def winCtlFields : List FD :=
  [winLIMIT, winBASE, winOPEN, winPART, winLANES, winSEAL, winGTOKEN, winGTOK, winMODE, winOWNV, winOWNER]

/-- The range of a descriptor may be opened (05 R130); base and limit in 64-byte lines. -/
def State.winRangeOk (s : State) (u n base limit lanes mode : Nat) : Bool :=
  decide (base < limit) && decide ((limit - base) % lanes = 0) &&
  (decide (mode ≠ 2) || decide (2 ≤ lanes)) &&
  (decide (u = 63) || (List.range 16).all (fun m =>
    decide (m = n) || !s.flag (winCtl u m) winOPEN ||
    decide (limit ≤ s.getF (winCtl u m) winBASE ∨ s.getF (winCtl u m) winLIMIT ≤ base)))

/-- Begin a new round: unsealed, no line written (05 R129, R133). -/
def State.winRound (s : State) (u n : Nat) : State :=
  (s.setF (winStat u n) winSEALED 0).setWinHold u n { s.winHold u n with written := [] }

/-- The descriptor is granted to the running job (05 R129). -/
def State.winGranted (s : State) (c n : Nat) : Bool :=
  s.flag (winCtl c n) winOWNV && decide (s.getF (winCtl c n) winOWNER = s.getF (UNIT_CTRL c) ctrlPBASE)

/-- WOPEN (04 R116). -/
def planWopen (c : Nat) (s : State) (e : QEntry) : Except Nat Plan := do
  let w := e.word.toNat
  let n := bits w 43 40
  let sbl := e.op 0
  let base := bits sbl 23 0
  let limit := bits sbl 55 32
  let mode := bits w 29 28
  if !s.winGranted c n then throw errWindow
  if bits sbl 31 24 ≠ 0 ∨ bits sbl 63 56 ≠ 0 ∨ base % 64 ≠ 0 ∨ limit % 64 ≠ 0 ∨ base > spadSize ∨
     limit > spadSize then throw errReserved
  if !s.winRangeOk c n (base / 64) (limit / 64) (s.getF (winCtl c n) winLANES) mode then throw errReserved
  return plan1 (fun s =>
    let a := winCtl c n
    let s := s.setF a winBASE (base / 64)
    let s := s.setF a winLIMIT (limit / 64)
    let s := s.setF a winPART (s.partOf c)
    let s := s.setF a winMODE mode
    let s := s.setF a winOPEN 1
    ((s.setF (winMask c n) winMASK (e.op 1)).winRound c n, 0))

def execWopen (c : Nat) (ph : Phase) (s : State) : Host.Outcome State Fault Refusal :=
  stream c ph (op 9 0) (planWopen c) s

/-- WCLOSE (04 R116). -/
def planWclose (c : Nat) (s : State) (e : QEntry) : Except Nat Plan := do
  let n := bits e.word.toNat 43 40
  if !s.winGranted c n then throw errWindow
  return plan1 (fun s => (s.setF (winCtl c n) winOPEN 0, 0))

def execWclose (c : Nat) (ph : Phase) (s : State) : Host.Outcome State Fault Refusal :=
  stream c ph (op 9 1) (planWclose c) s

/-- Send a release with `lane` to the target that register `a` names, for checkpoint `ckid`
(11 R312, R325). -/
def State.sendRelease (s : State) (src part a lane ckid : Nat) : State :=
  if s.flag a rtV then
    let win := s.getF a rtWIN + b2n (s.flag a rtALT && decide (ckid % 2 = 1))
    s.send { src := src, part := part, tag := 0, dst := s.getF a rtSLOT, body := .release win lane }
  else s

/-- A solo CKPT of cell `c` is the boundary of a pending JOIN that names it: island A clears ENABLE, so that the cell
stays IDLE for the copy (11 R319, R320). -/
def State.joinMark (s : State) (c : Nat) : State :=
  (List.range 16).foldl (fun s g =>
    let x : Group := Tab.get {} s.groups g
    let w := RG_SWITCH g
    if x.op = 2 ∧ s.getF w rwSTATUS = 1 ∧ s.getF (RG_APST g) raLLANE < 16 ∧ (s.getF w rwUNITA = c ∨ s.getF w rwUNITB = c) ∧ !x.joined.contains c then
      { s with groups := Tab.set {} s.groups g { x with joined := x.joined ++ [c] } }.setF (UNIT_CTRL c) ctrlENABLE 0
    else s) s

/-- CKPT (04 R118): a group member deposits with its comparison unit; a cell in no group sends its
releases with lane 0. Both clear UNIT_SIG. -/
def planCkpt (c : Nat) (_ : State) (e : QEntry) : Except Nat Plan :=
  let ckid := bits e.word.toNat 43 28
  .ok (plan1 (fun s =>
    let t :=
      if s.flag (UNIT_RG c) rgV then
        s.send { src := c, part := s.partOf c, tag := 0, dst := 64 + s.getF (UNIT_RG c) rgCMP, ins := e.ins,
                 body := .deposit (s.getF (UNIT_RG c) rgRG) ckid (s.getF (UNIT_SIG c) sigSIG)
                   (s.getF (UNIT_RG c) rgPOS) }
      else (((List.range 8).foldl (fun s t => s.sendRelease c (s.partOf c) (SOLO_TGT c t) 0 ckid) s).joinMark c)
    (t.setF (UNIT_SIG c) sigSIG 0, 0)))

def execCkpt (c : Nat) (ph : Phase) (s : State) : Host.Outcome State Fault Refusal :=
  stream c ph (op 10 0) (planCkpt c) s

/-- The cell and window that a commit slot names (10 R274). -/
def commitSlot (v : Nat) : Option (Nat × Nat) :=
  if bits v 10 10 = 1 ∧ v / 2 ^ 11 = 0 ∧ bits v 5 0 < 48 then some (bits v 5 0, bits v 9 6) else none

/-- COMMIT (04 R118). -/
def planCommit (c : Nat) (_ : State) (e : QEntry) : Except Nat Plan :=
  match commitSlot (e.op 0) with
  | none => .error errWindow
  | some (d, n) =>
    .ok (plan1 (fun s =>
      (s.send { src := c, part := s.partOf c, tag := s.laneTag c, dst := d, ins := e.ins, body := .commit n }, 0)))

def execCommit (c : Nat) (ph : Phase) (s : State) : Host.Outcome State Fault Refusal :=
  stream c ph (op 10 1) (planCommit c) s

/-! Judging at the destination (05 R131 to R136). -/

/-- Tell a writer of a fault: its instruction, or its engine command, ends in error (04 R115). -/
def State.tell (s : State) (src ins code : Nat) : State :=
  if src < 48 then
    let x := s.cell src
    s.setCell src { x with store := { x.store with
      q := x.store.q.map (fun e => if e.ins = ins ∧ e.begun ∧ e.bad = 0 then { e with bad := code } else e) } }
  else if src < 63 then
    let x := s.unit src
    if x.told = 0 then s.setUnit src { x with told := code } else s
  else s

/-- A drop at window `n` of slot `u` (05 R131): LAST_DROP, LAST_DROP_SLOT, the histogram. -/
def State.winDrop (s : State) (u n code src : Nat) : State :=
  let s := s.setF (winStat u n) winLASTDROP code
  let s := s.setF (winStat u n) winLASTSLOT (min src 63)
  if u = 63 then s.sil1 (382 + n) code else s.sil1 (275 + u) code

/-- The fence bit of `slot` in the copy of port `u` (05 R136, 11 R314). -/
def State.fencedAt (s : State) (u slot : Nat) : Bool := Tab.get false s.portFence (128 * u + slot)

/-- The window of a mailbox or scratchpad address, with the offset in it (01 R17, 09 R254). -/
def winOffset (u a : Nat) : Nat × Nat :=
  if u = 63 then
    let o := a - unitBlk 63 - 0xC000
    (o / 0x800, o % 0x800)
  else (0, a - spadBase u)

/-- Length of one lane in bytes. -/
def State.laneLen (s : State) (u n : Nat) : Nat :=
  (s.getF (winCtl u n) winLIMIT - s.getF (winCtl u n) winBASE) * 64 / s.getF (winCtl u n) winLANES

/-- Window `n` is open and its first `k` lanes cover `[o, o + len)`. -/
def State.winCovers (s : State) (u n o len : Nat) (whole : Bool) : Bool :=
  let b := s.getF (winCtl u n) winBASE * 64
  let hi := if whole then s.getF (winCtl u n) winLIMIT * 64 else b + s.laneLen u n
  s.flag (winCtl u n) winOPEN && decide (b ≤ o ∧ o + len ≤ hi)

/-- The windows that can cover an access: all 16 of a cell, or the one whose storage it names. -/
def winCandidates (u m : Nat) : List Nat := if u = 63 then [m] else List.range 16

/-- The judgement of a remote write (05 R131): the window, and the reason code of the first check that
fails, zero where it is accepted. -/
def State.judgeWrite (s : State) (m : Msg) (a len : Nat) : Nat × Nat :=
  let u := m.dst
  let (p, o) := winOffset u a
  let n? := (winCandidates u p).find? (fun n => s.winCovers u n o len false)
  let whole? := (winCandidates u p).find? (fun n => s.winCovers u n o len true)
  let n := (n?.or whole?).getD (if u = 63 then p else 0)
  let c := winCtl u n
  let code :=
    if s.fencedAt u m.src then 7
    else if m.src ≥ 63 then 1
    else if n?.isNone then (if whole?.isNone then 1 else 6)
    else if !bit (s.getF (winMask u n) winMASK) m.src then 2
    else if m.part ≠ s.getF c winPART then 3
    else if s.flag (winStat u n) winSEALED then 5
    else if s.getF c winLANES ≤ m.tag then 6
    else if s.getF c winMODE = 1 ∧ (s.winHold u n).written.contains ((o + m.tag * s.laneLen u n) / 64) then 4
    else 0
  (n, code)

/-- REMOTE_WRITE_ARRIVAL: message `n` is a write that reaches its port (05 R131 to R133). -/
def remoteWriteArrival (n : Nat) (s : State) : State :=
  match s.nextMsg n 0 with
  | some m =>
    match m.body with
    | .write a bs =>
      let u := m.dst
      let (w, code) := s.judgeWrite m a bs.length
      let s := s.dropMsg n
      if code = 0 then
        let a' := a + m.tag * s.laneLen u w
        let o := (winOffset u a).2 + m.tag * s.laneLen u w
        let h := s.winHold u w
        let s :=
          if s.getF (winCtl u w) winMODE = 1 then
            s.setWinHold u w { h with written := h.written.insert (o / 64) }
          else s
        match s.writeWords a' bs with
        | (s, true) => s.tell m.src m.ins (memErr a')
        | (s, false) => s
      else
        let s := s.winDrop u w code m.src
        if code = 7 ∨ (code = 5 ∧ s.getF (winCtl u w) winMODE = 2) then s else s.tell m.src m.ins errWindow
    | _ => s
  | none => s

/-- The selection notice of a mailbox window (09 R254). -/
def State.selectionNotice (s : State) (p lane : Nat) : State :=
  let k := 65536 * p + s.qTailOf (63 * 256 + 24 + p) % 65536
  let s : State := { s with plan := { s.plan with selAt := Tab.insert s.plan.selAt k s.now } }
  (s.push (63 * 256 + 24 + p)
    (bytesOf 4 0x534E4F54 ++ bytesOf 4 (s.getF (winGen 63 p) winVISGEN) ++ bytesOf 1 lane ++ bytesOf 7 0 ++
     bytesOf 8 (unitBlk 63 + 0xC000 + p * 0x800 + s.getF (winCtl 63 p) winBASE * 64 + lane * s.laneLen 63 p) ++
     bytesOf 40 0) .island).1

/-- A window advances (05 R134): VISGEN, VIS_LANE, the seal, the generation token, a new set of written
bits; a mailbox window pushes its notice. -/
def State.winAdvance (s : State) (u n lane : Nat) : State :=
  let g := winGen u n
  let c := winCtl u n
  let s := s.setF g winVISGEN (s.getF g winVISGEN + 1)
  let s := s.setF g winVISLANE lane
  let s := if s.flag c winSEAL || decide (2 ≤ s.getF c winLANES) || decide (s.getF c winMODE = 2) then
      s.setF (winStat u n) winSEALED 1 else s
  let s := s.setWinHold u n {}
  if u = 63 then s.selectionNotice n lane
  else if s.flag c winGTOKEN then s.post u (s.getF c winGTOK) else s

/-- Advance, or wait with the post while the token stands at 255 (05 R134). -/
def State.winAdvanceOr (s : State) (u n lane src ins : Nat) : State :=
  if u ≠ 63 ∧ s.flag (winCtl u n) winGTOKEN ∧ (s.cell u).rK (s.getF (winCtl u n) winGTOK) ≥ 255 then
    s.setWinHold u n { s.winHold u n with wait := some (lane, src, ins) }
  else s.winAdvance u n lane

/-- The judgement of a commit: the reason code of the first check that fails (05 R135). -/
def State.judgeCommit (s : State) (m : Msg) (n : Nat) : Nat :=
  let u := m.dst
  if s.fencedAt u m.src then 7
  else if m.src ≥ 63 ∨ !s.flag (winCtl u n) winOPEN ∨ s.getF (winCtl u n) winMODE ≠ 2 then 1
  else if !bit (s.getF (winMask u n) winMASK) m.src then 2
  else if m.part ≠ s.getF (winCtl u n) winPART then 3
  else if s.flag (winStat u n) winSEALED then 8
  else 0

/-- COMMIT_ARRIVAL: message `n` is a commit that reaches its window (05 R135). -/
def commitArrival (n : Nat) (s : State) : State :=
  match s.nextMsg n 1 with
  | some m =>
    match m.body with
    | .commit w =>
      let code := s.judgeCommit m w
      if code = 0 ∧ (s.winHold m.dst w).wait ≠ none then s
      else
        let s := s.dropMsg n
        if code = 0 then s.winAdvanceOr m.dst w m.tag m.src m.ins
        else
          let s := s.winDrop m.dst w code m.src
          if code = 7 ∨ code = 8 then s else s.tell m.src m.ins errWindow
    | _ => s
  | none => s

/-- RELEASE_ARRIVAL: message `n` is a release that reaches its window (05 R134, R136). -/
def releaseArrival (n : Nat) (s : State) : State :=
  match s.nextMsg n 2 with
  | some m =>
    match m.body with
    | .release w lane =>
      let u := m.dst
      if s.fencedAt u m.src then (s.dropMsg n).winDrop u w 7 m.src
      else if s.getF (winCtl u w) winMODE = 2 then s.dropMsg n
      else if !s.flag (winCtl u w) winOPEN || decide (s.getF (winCtl u w) winLANES ≤ lane) ||
          s.flag (winStat u w) winSEALED then (s.dropMsg n).winDrop u w 9 m.src
      else if (s.winHold u w).wait ≠ none then s
      else (s.dropMsg n).winAdvanceOr u w lane 64 0
    | _ => s
  | none => s

def execReleaseArrival (n : Nat) (s : State) : Host.Outcome State Fault Refusal :=
  .next (releaseArrival n s)

/-- GENERATION_TOKEN_WAIT (05 R134): a held advance takes effect once its token is below 255. -/
def generationTokenWait (c win : Nat) (s : State) : State :=
  match (s.winHold c win).wait with
  | none => s
  | some (lane, _, _) =>
    if (s.cell c).rK (s.getF (winCtl c win) winGTOK) < 255 then s.winAdvance c win lane else s

def execGenerationTokenWait (c win : Nat) (s : State) : Host.Outcome State Fault Refusal :=
  .next (generationTokenWait c win s)

/-! Island A's writes of a descriptor (05 R129, R130; 09 R254). -/

/-- Who may write the window registers: island A; island B those of the mailbox, as emitter
(09 R254). -/
def winWriter (who : Who) (u : Nat) : Bool :=
  match who with
  | .islandA => true
  | .islandB => decide (u = 63)
  | _ => false

/-- WIN_CTL_OPEN. -/
def winCtlOpen (who : Who) (u win w : Nat) (s : State) : State :=
  if !winWriter who u then s.refuseAccess
  else if !winExists u win ∨ winOPEN.of w = 0 ∨ winLANES.of w = 0 ∨ winMODE.of w = 3 ∨
      !s.winRangeOk u win (winBASE.of w) (winLIMIT.of w) (winLANES.of w) (winMODE.of w) then s
  else (s.loadF (winCtl u win) winCtlFields w).winRound u win

def execWinCtlOpen (who : Who) (u win w : Nat) (s : State) : Host.Outcome State Fault Refusal :=
  .next (winCtlOpen who u win w s)

/-- WIN_CTL_CLOSE. -/
def winCtlClose (who : Who) (u win w : Nat) (s : State) : State :=
  if !winWriter who u then s.refuseAccess
  else if !winExists u win ∨ winOPEN.of w = 1 ∨ winLANES.of w = 0 ∨ winMODE.of w = 3 then s
  else s.loadF (winCtl u win) winCtlFields w

def execWinCtlClose (who : Who) (u win w : Nat) (s : State) : Host.Outcome State Fault Refusal :=
  .next (winCtlClose who u win w s)

/-- WIN_MASK_WRITE. -/
def winMaskWrite (who : Who) (u win w : Nat) (s : State) : State :=
  if !winWriter who u then s.refuseAccess
  else if !winExists u win then s
  else s.setF (winMask u win) winMASK w

def execWinMaskWrite (who : Who) (u win w : Nat) (s : State) : Host.Outcome State Fault Refusal :=
  .next (winMaskWrite who u win w s)

end Sys2Proof.Machine
end

