-- ==== Sys2Proof/Machine/CellStop.lean ====
section
/-! DEFINITION. What a stop of a cell waits for (03 R71, R74): the steps that have begun, and the answers to what it has asked. -/

namespace Sys2Proof.Machine

/-- What the instruction with number `code` does in its stream. -/
def planOf (c code : Nat) : Option (State → QEntry → Except Nat Plan) :=
  if code = op 2 0 then some (planLdt c) else
  if code = op 3 0 then some (planStt c) else
  if code = op 13 0 then some (planGath c) else
  if code = op 3 1 then some (planScat c) else
  if code = op 2 1 then some (planLdw c) else
  if code = op 4 0 then some (planTzero c) else
  if code = op 4 1 then some (planTmma c) else
  if code = op 4 2 then some (planTrd c) else
  if code = op 5 0 then some (planVadd c) else
  if code = op 5 1 then some (planVsub c) else
  if code = op 5 2 then some (planVmul c) else
  if code = op 5 3 then some (planVfma c) else
  if code = op 5 4 then some (planVmax c) else
  if code = op 5 5 then some (planVmin c) else
  if code = op 5 6 then some (planVexp c) else
  if code = op 5 7 then some (planVrcp c) else
  if code = op 5 8 then some (planVrsq c) else
  if code = op 5 9 then some (planVcmp c) else
  if code = op 5 10 then some (planVsel c) else
  if code = op 5 11 then some (planVand c) else
  if code = op 5 12 then some (planVor c) else
  if code = op 5 13 then some (planVxor c) else
  if code = op 5 14 then some (planVmov c) else
  if code = op 5 15 then some (planVbcast c) else
  if code = op 5 16 then some (planVld c) else
  if code = op 5 17 then some (planVst c) else
  if code = op 12 0 then some (planCvt c) else
  if code = op 12 1 then some (planCvtv c) else
  if code = op 7 0 then some (planRstat c) else
  if code = op 7 1 then some (planRnorm c) else
  if code = op 6 0 then some (planVdw c) else
  if code = op 9 0 then some (planWopen c) else
  if code = op 9 1 then some (planWclose c) else
  if code = op 10 0 then some (planCkpt c) else
  if code = op 10 1 then some (planCommit c) else none

/-- Stream `st` of cell `c` ends a step that has begun: an instruction that has begun and has no step behind it. -/
def State.endStep (s : State) (c : Nat) (st : Strm) : State :=
  let q := ((s.cell c).stream st).q
  match q[firstOpen q]? with
  | none => s
  | some e =>
    if !e.begun ∨ e.steps ≠ 0 then s
    else
      match planOf c (opCode e.word.toNat) with
      | none => s
      | some f => s.runStream c true (opCode e.word.toNat) f

/-- Every step that has begun runs to its end (03 R74). -/
def State.endSteps (s : State) (c : Nat) : State := [Strm.load, .tensor, .vector, .store].foldl (fun s st => s.endStep c st) s

end Sys2Proof.Machine
end

