-- ==== Sys2Proof/Machine/CtxOps.lean ====
section
/-! DEFINITION. Context entries, their replicas and homes, and what leaving and entering service means for
the Attention engines and the Track engine (07 R183 to R189, R198; 08 R230, R236). -/

namespace Sys2Proof.Machine

/-- The home engine of context `n`, none before an engine keeps its quarter (07 R186). -/
def State.ctxHome (s : State) (n : Nat) : Option Nat :=
  [48, 49, 50, 51].find? (fun u => bit (s.getF (ATTN_STATUS u) atHOMEQ) (n % 4))

/-- The entry of context `n` in the replica of engine `u`. -/
def State.ctxAt (s : State) (u n : Nat) : Ctx := Tab.get {} s.ctx (8192 * (u - 48) + n)

/-- The entry of context `n` as its home holds it. -/
def State.ctxOf (s : State) (n : Nat) : Ctx :=
  match s.ctxHome n with
  | some u => s.ctxAt u n
  | none => {}

/-- A mutation: it takes effect in every replica in service (07 R187, R189). -/
def State.setCtx (s : State) (n : Nat) (x : Ctx) : State :=
  [48, 49, 50, 51].foldl (fun s u =>
    if s.flag (ATTN_STATUS u) atTABLEOK then { s with ctx := Tab.set {} s.ctx (8192 * (u - 48) + n) x } else s) s

/-- Release a context: pages are returned, the generation advances (07 R187). -/
def State.freeCtx (s : State) (n : Nat) : State :=
  let x := s.ctxOf n
  s.setCtx n { gen := (x.gen + 1) % 2 ^ 32, start := x.start }

/-- Whether an identifier is excluded (08 R230). -/
def idExcluded (v : Nat) : Bool := decide (v = 0 ∨ 0xFFFFFFF8 ≤ v)

/-- An Attention engine in service: its replica is loaded and in step. -/
def State.attnServes (s : State) (u : Nat) : Bool :=
  s.flag (ATTN_STATUS u) atTABLEOK && decide (s.unitState u < stFenced)

/-- The next engine in service in ascending slot order, wrapping from 51 to 48 (07 R186). -/
def State.attnNext (s : State) (u : Nat) : Option Nat :=
  [1, 2, 3].findSome? (fun k => let v := 48 + (u - 48 + k) % 4; if s.attnServes v then some v else none)

/-- The quarters of engine `u` pass to engine `v`. -/
def State.passQuarters (s : State) (u v : Nat) : State :=
  if u = v then s
  else
    let s := s.setF (ATTN_STATUS v) atHOMEQ (s.getF (ATTN_STATUS v) atHOMEQ ||| s.getF (ATTN_STATUS u) atHOMEQ)
    s.setF (ATTN_STATUS u) atHOMEQ 0

/-- Engine `u` leaves service: its quarters and contexts pass on (07 R186, R198). The last engine in service keeps them. -/
def State.attnLeave (s : State) (u : Nat) : State :=
  let s := s.dropRegs u
  match s.attnNext u with
  | none => s
  | some v => (s.passQuarters u v).setF (ATTN_STATUS u) atTABLEOK 0

/-- The replica `v` is copied into that of engine `u`. -/
def State.copyReplica (s : State) (v u : Nat) : State :=
  if u = v then s
  else (List.range 4104).foldl (fun s n => { s with ctx := Tab.set {} s.ctx (8192 * (u - 48) + n) (s.ctxAt v n) }) s

/-- Engine `u` returns to service: island A copies a replica in service into it (07 R198). Where none serves, the replica
and the quarters are those of the engine that was the last one (log 83). -/
def State.attnReturn (s : State) (u : Nat) : State :=
  match s.attnNext u with
  | some v => (s.copyReplica v u).setF (ATTN_STATUS u) atTABLEOK 1
  | none =>
    let v := ([48, 49, 50, 51].find? (fun v => decide (s.getF (ATTN_STATUS v) atHOMEQ ≠ 0))).getD u
    ((s.copyReplica v u).passQuarters v u).setF (ATTN_STATUS u) atTABLEOK 1

/-- At a start engine `48 + q` keeps quarter `q` and every replica agrees; what is out of service passes its quarters on
(07 R186). -/
def State.startAttn (s : State) : State :=
  let s : State := [0, 1, 2, 3].foldl (fun (s : State) q =>
    (s.setF (ATTN_STATUS (48 + q)) atHOMEQ (2 ^ q)).setF (ATTN_STATUS (48 + q)) atTABLEOK 1) s
  [48, 49, 50, 51].foldl (fun (s : State) u => if stFenced ≤ s.unitState u then s.attnLeave u else s) s

/-- A fence or reset of the Track engine: every record returns to FREE, LAST_V is cleared (08 R236). -/
def State.trkReset (s : State) : State :=
  ({ s with tracks := [] }.setF TRK_STATUS tkLASTV 0).setF TRK_STATUS tkLIVE 0

/-- `v` plus 65,536 among the identifiers that are not excluded (08 R230). -/
def idAhead (v : Nat) : Nat :=
  let w := (v + 65536) % 2 ^ 32
  if idExcluded w then 1 else w

/-- Before the Track engine returns, island A deletes every context of kind TRACK and restores TRK_NEXT_ID from
the value it last read (08 R230, R236). -/
def State.trkReturn (s : State) : State :=
  let s := (List.range 4096).foldl (fun s n => if (s.ctxOf n).kind = 1 then s.freeCtx n else s) s
  s.setF TRK_NEXT_ID tkNEXT (idAhead s.nextIdRead)

end Sys2Proof.Machine
end

