-- ==== Sys2Proof/Machine/UnitControl.lean ====
section
/-! DEFINITION. Control of a unit by its registers: resets, stops, state images and program loads
(03 R67, R74 to R81). `w` is the word that is written to UNIT_CTRL or UNIT_SNAP. -/

namespace Sys2Proof.Machine

/-- Rights over the registers of 03 R78: island A, and for some fields the runtime of the partition in
UNIT_PART while it shows a job. -/
def State.isRuntimeOf (s : State) (who : Who) (u : Nat) : Bool :=
  match who with
  | .runtime p => decide (s.jobOf u ≠ 0xFF ∧ s.partOf u = p)
  | _ => false

/-- The RW fields of UNIT_CTRL that island A's write carries (03 R78). -/
def State.ctrlFields (s : State) (who : Who) (u w : Nat) : State :=
  if who = .islandA ∧ u < 48 then s.loadF (UNIT_CTRL u) [ctrlPLEN, ctrlPBASE, ctrlSTALL, ctrlENABLE] w
  else s

/-- A fenced unit, or one out of service, takes no write of UNIT_CTRL but UNIT_RESET (03 R81). -/
def State.ctrlClosed (s : State) (u : Nat) : Bool :=
  decide (s.unitState u = stFenced ∨ s.unitState u = stOut ∨ s.unitState u = stResetting)

/-- Abandon the work item in progress of the job on the unit, or of the one whose state a cell holds; an engine posts no completion
of it (06 R172, 09 R251). -/
def State.abandon (s : State) (u : Nat) : State :=
  let x := s.unit u
  (s.setUnit u { x with binds := Tab.erase x.binds (s.itemJob u), told := 0, comps := if u < 48 then x.comps else x.comps.filter (fun c => decide (c.item.jidx ≠ s.itemJob u)),
                        holder := 0xFF, heldState := 0 }).engClear u

/-- No SNAP waits for the answers of unit `u` any more. -/
def State.dropSnaps (s : State) (u : Nat) : State :=
  let x := s.unit u
  s.setUnit u { x with pend := x.pend.filter (fun p => match p with
    | .snap _ _ => false
    | .slot _ => true) }

/-- UNIT_RESET (03 R81, 05 R138): every element of the cell but the program store, the scratchpad and
the window descriptors, which close. A fence and an exclusion stay (12 R345). -/
def State.unitReset (s : State) (u : Nat) : State :=
  let st := s.unitState u
  let s := s.abandon u
  let s := [stMULTI, stSTREAM, stCODE, stNSC, stSAT, stUNF, stOVF, stINV, stSTATE].foldl
    (fun s f => s.clrF (UNIT_STATUS u) f) s
  let s := s.setUnitState u (if st = stFenced ∨ st = stOut then st else stIdle)
  if u < 48 then
    let s := s.dropSnaps u
    let s := s.setCell u { Cell.reset with prog := (s.cell u).prog, storeSeq := (s.cell u).storeSeq }
    let s := [ctrlPLEN, ctrlPBASE, ctrlSTALL, ctrlENABLE].foldl (fun s f => s.clrF (UNIT_CTRL u) f) s
    let s := [snapFAIL, snapADDR, snapSTATUS].foldl (fun s f => s.clrF (UNIT_SNAP u) f) s
    let s := s.setF (UNIT_SIG u) sigSIG 0
    (List.range 16).foldl (fun s n => s.setF (winCtl u n) winOPEN 0) s
  else
  let s := s.setUnit u { s.unit u with comps := [] }
  if u < 52 then
    let s := s.attnLeave u
    if s.unitState u < stFenced then s.attnReturn u else s
  else if u = 62 then
    let s := s.trkReset
    if s.unitState u < stFenced then s.trkReturn else s
  else s

/-- UNIT_RESET: the strongest bit of a write of UNIT_CTRL (03 R78). -/
def unitResetCmd (who : Who) (u w : Nat) (s : State) : State :=
  if who ≠ .islandA then s.refuseAccess
  else if u < 63 ∧ ctrlUNIT_RESET.of w = 1 then s.unitReset u
  else s

def execUnitReset (who : Who) (u w : Nat) (s : State) : Host.Outcome State Fault Refusal :=
  .next (unitResetCmd who u w s)

/-- The queues, tokens and stacks of a cell are emptied, its error fields and its signature cleared, and the unit is IDLE
(03 R81). -/
def State.clearWork (s : State) (u : Nat) : State :=
  let s := s.setF (UNIT_STATUS u) stCODE 0
  let s := s.setF (UNIT_STATUS u) stSTREAM 0
  let s := s.setF (UNIT_STATUS u) stMULTI 0
  let s := s.setUnitState u stIdle
  if u < 48 then
    let x := s.cell u
    let s := s.setCell u { x with
      k := [], loops := [], calls := [], feSteps := 0, feStall := none, bar := .none, idleStop := false, runs := none,
      load := { lastPc := x.load.lastPc }, tensor := { lastPc := x.tensor.lastPc },
      vector := { lastPc := x.vector.lastPc }, store := { lastPc := x.store.lastPc } }
    s.setF (UNIT_SIG u) sigSIG 0
  else s

/-- JOB_RESET (03 R81): a cell stops, and the work item is abandoned. -/
def State.jobReset (s : State) (u : Nat) : State :=
  let s := if u < 48 then s.endSteps u else s
  (s.abandon u).clearWork u

def jobResetCmd (who : Who) (u w : Nat) (s : State) : State :=
  if who ≠ .islandA ∧ !s.isRuntimeOf who u then s.refuseAccess
  else if u < 63 ∧ ctrlJOB_RESET.of w = 1 ∧ ctrlUNIT_RESET.of w = 0 ∧ !s.ctrlClosed u then
    (s.ctrlFields who u w).jobReset u
  else s

def execJobReset (who : Who) (u w : Nat) (s : State) : Host.Outcome State Fault Refusal :=
  .next (jobResetCmd who u w s)

/-- Stop a cell (03 R74): the steps that have begun end. -/
def State.stopCell (s : State) (c : Nat) : State :=
  if s.unitState c = stRunning then
    let s := s.endSteps c
    if s.unitState c = stRunning then s.setUnitState c stStopped else s
  else if s.unitState c = stIdle then
    (s.setCell c { s.cell c with idleStop := true }).setUnitState c stStopped
  else s

/-- RESUME: a stopped cell runs on, or is IDLE where it holds no work item (03 R74). -/
def State.resumeCell (s : State) (c : Nat) : State :=
  if s.unitState c = stStopped then
    let x := s.cell c
    (s.setCell c { x with idleStop := false }).setUnitState c (if x.idleStop then stIdle else stRunning)
  else s

def stopCmd (who : Who) (u w : Nat) (s : State) : State :=
  if who ≠ .islandA ∧ !s.isRuntimeOf who u then s.refuseAccess
  else if u < 48 ∧ ctrlSTOP.of w = 1 ∧ ctrlUNIT_RESET.of w = 0 ∧ ctrlJOB_RESET.of w = 0 ∧
      !s.ctrlClosed u then
    (s.ctrlFields who u w).stopCell u
  else s

def execStop (who : Who) (u w : Nat) (s : State) : Host.Outcome State Fault Refusal :=
  .next (stopCmd who u w s)

def resumeCmd (who : Who) (u w : Nat) (s : State) : State :=
  if who ≠ .islandA ∧ !s.isRuntimeOf who u then s.refuseAccess
  else if u < 48 ∧ ctrlRESUME.of w = 1 ∧ ctrlUNIT_RESET.of w = 0 ∧ ctrlJOB_RESET.of w = 0 ∧
      ctrlSTOP.of w = 0 ∧ !s.ctrlClosed u then
    (s.ctrlFields who u w).resumeCell u
  else s

def execResume (who : Who) (u w : Nat) (s : State) : Host.Outcome State Fault Refusal :=
  .next (resumeCmd who u w s)

/-! UNIT_SNAP (03 R75, R76, R80). -/

/-- Report an operation of UNIT_SNAP: done, or failed with a code. -/
def State.snapEnd (s : State) (c fail : Nat) : State :=
  (s.setF (UNIT_SNAP c) snapFAIL fail).setF (UNIT_SNAP c) snapSTATUS (if fail = 0 then 2 else 3)

/-- The source or destination of an operation of UNIT_SNAP is permitted (03 R75). -/
def State.snapPlaceOk (s : State) (who : Who) (c a n : Nat) (wr : Bool) : Bool :=
  match place a n with
  | .spad d => decide (d = c)
  | .main | .cs _ =>
    !s.outOfService (place a n) &&
    (match who with
     | .islandA => !s.inBlotter a n
     | .runtime p => if wr then s.canWrite c p a n else s.canRead c p a n
     | _ => false)
  | _ => false

/-- Who may start OP `op` of UNIT_SNAP on cell `c`: none where the write is refused under 01 R18, else
whether the operation is permitted (03 R78, R80). -/
def State.snapRight (s : State) (who : Who) (c op : Nat) : Option Bool :=
  if who = .islandA then some true
  else if s.isRuntimeOf who c then some (decide (op = 1))
  else none

/-- Run an operation of UNIT_SNAP: rights, then ADDR, then the operation; OP has no effect while one is busy (03 R80). -/
def State.snapOp (s : State) (who : Who) (c w op : Nat) (f : State → State) : State :=
  match s.snapRight who c op with
  | none => s.refuseAccess
  | some ok =>
    if c ≥ 48 ∨ snapOP.of w ≠ op then s
    else
      let s := s.setF (UNIT_SNAP c) snapADDR (snapADDR.of w)
      if s.getF (UNIT_SNAP c) snapSTATUS = 1 then s else if !ok then s.snapEnd c 1 else f s

/-- Write the image of a cell that has stopped, header last (03 R75). -/
def State.snapWrite (s : State) (c a : Nat) : State :=
  if s.unitState c ≥ stFenced then s.snapEnd c 3
  else
    let im := byteList (s.imageBytes c 0)
    match s.writeMem c (s.partOf c) (a + 64) (im.drop 64) with
    | (s, true) => s.snapEnd c 8
    | (s, false) =>
      let (s, bad) := s.writeMem c (s.partOf c) a (im.take 64)
      s.snapEnd c (if bad then 8 else 0)

/-- SNAP (03 R75): the cell ends its steps, and while it has requests without an answer the operation is busy. -/
def State.snapCell (s : State) (who : Who) (c a : Nat) : State :=
  if s.unitState c ≥ stFenced then s.snapEnd c 3
  else if !s.snapPlaceOk who c a imageSize true then s.snapEnd c 4
  else
    let s := s.endSteps c
    if s.asking c || decide ((s.unit c).pend ≠ []) then
      let x := s.unit c
      let s := s.setUnit c { x with pend := x.pend ++ [.snap who a] }
      (s.setF (UNIT_SNAP c) snapFAIL 0).setF (UNIT_SNAP c) snapSTATUS 1
    else s.snapWrite c a

def snapCmd (who : Who) (u w : Nat) (s : State) : State :=
  s.snapOp who u w 1 (fun s => s.snapCell who u (s.getF (UNIT_SNAP u) snapADDR * 64))

def execSnap (who : Who) (u w : Nat) (s : State) : Host.Outcome State Fault Refusal :=
  .next (snapCmd who u w s)

/-- The reader of an image at `a`. -/
def State.rdAt (s : State) (a : Nat) : Nat → Nat → Nat := fun o n => s.le (a + o) n

/-- RESTORE (03 R76): the program belongs to the work item that the cell holds for the job which the image names. An image taken of
an idle cell leaves a stop of an idle cell. -/
def State.restoreCell (s : State) (who : Who) (c a : Nat) : State :=
  let rd := s.rdAt a
  if s.unitState c ≠ stIdle ∧ s.unitState c ≠ stStopped then s.snapEnd c 3
  else if !s.snapPlaceOk who c a imageSize false then s.snapEnd c 4
  else if s.readFails c (s.partOf c) a imageSize then (s.countEcc a true).snapEnd c 8
  else if rd 0 4 ≠ imageMagic ∨ rd 4 2 ≠ 1 ∨ !imageOk rd then s.snapEnd c 5
  else
    let s := s.loadImage c rd stStopped
    let id := rd 0x10 4
    (s.setCell c { s.cell c with idleStop := decide (id = 0), runs := if id = 0 then none else some id }).snapEnd c 0

def restoreCmd (who : Who) (u w : Nat) (s : State) : State :=
  s.snapOp who u w 2 (fun s => s.restoreCell who u (s.getF (UNIT_SNAP u) snapADDR * 64))

def execRestore (who : Who) (u w : Nat) (s : State) : Host.Outcome State Fault Refusal :=
  .next (restoreCmd who u w s)

/-- The program range of job `j` on cell `c`: PBASE and pages (03 R66). -/
def State.progRange (s : State) (j c : Nat) : Option (Nat × Nat) :=
  if s.jobOf c = j then some (s.getF (UNIT_CTRL c) ctrlPBASE, s.getF (UNIT_CTRL c) ctrlPLEN)
  else ((s.job j).pbase.find? (fun (u, _) => decide (u = c))).map (·.2)

/-- The header of a program segment holds (03 R67). -/
def segmentOk (rd : Nat → Nat → Nat) : Bool :=
  decide (rd 0 4 = 0x50474C50 ∧ rd 4 2 = 1 ∧ rd 6 2 = 0 ∧ rd 8 4 % 8 = 0 ∧ 8 ≤ rd 8 4 ∧ rd 8 4 ≤ 262144 ∧
    rd 0xC 4 % 8 = 0 ∧ 1 ≤ rd 0x15 1 ∧ rd 0x15 1 ≤ 64) && zeros rd 0x16 42

/-- The segment lies in its program range, in the store, and clear of the other work items' ranges. -/
def State.segmentFits (s : State) (c dest len rbase rlen : Nat) : Bool :=
  decide (rbase * 4096 ≤ dest ∧ dest + len ≤ (rbase + rlen) * 4096 ∧ rbase + rlen ≤ 64) &&
  (s.unit c).binds.all (fun (j, _) =>
    match s.progRange j c with
    | some (b, l) => decide (rbase + rlen ≤ b ∨ b + l ≤ rbase)
    | none => true)

/-- PLOAD (03 R67). -/
def State.ploadCell (s : State) (c a : Nat) : State :=
  let rd := s.rdAt a
  if !s.snapPlaceOk .islandA c a 64 false then s.snapEnd c 4
  else if s.readFails c (s.partOf c) a 64 then (s.countEcc a true).snapEnd c 8
  else if !segmentOk rd then s.snapEnd c 5
  else
    let len := rd 8 4
    let dest := rd 0xC 4
    let rbase := rd 0x14 1
    if !s.snapPlaceOk .islandA c a (64 + len) false then s.snapEnd c 4
    else if !s.segmentFits c dest len rbase (rd 0x15 1) then s.snapEnd c 6
    else
      let pages := (List.range 64).filter (fun k => decide (dest < (k + 1) * 4096 ∧ k * 4096 < dest + len))
      let pv := s.getF (UNIT_PVALID c) pvalidPAGES
      let s := s.setF (UNIT_PVALID c) pvalidPAGES (pages.foldl clrBit pv)
      if s.readFails c (s.partOf c) a (64 + len) then (s.countEcc a true).snapEnd c 8
      else
        let x := s.cell c
        let prog := (List.range (len / 8)).foldl
          (fun p i => Tab.set 0 p (dest / 8 + i) (BitVec.ofNat 64 (rd (64 + 8 * i) 8))) x.prog
        let s := s.setCell c { x with prog := prog }
        let s := { s with ecc := s.ecc.filter (fun (k, _) =>
          !(decide (progWord c (dest / 8) ≤ k ∧ k < progWord c ((dest + len) / 8)))) }
        if crc32c (s.bytes (a + 64) len) ≠ rd 0x10 4 then s.snapEnd c 7
        else (s.setF (UNIT_PVALID c) pvalidPAGES (pages.foldl setBit pv)).snapEnd c 0

def ploadCmd (who : Who) (u w : Nat) (s : State) : State :=
  s.snapOp who u w 3 (fun s => s.ploadCell u (s.getF (UNIT_SNAP u) snapADDR * 64))

def execPload (who : Who) (u w : Nat) (s : State) : Host.Outcome State Fault Refusal :=
  .next (ploadCmd who u w s)

end Sys2Proof.Machine
end

