-- ==== Sys2Proof/Machine/MemoryCmds.lean ====
section
/-! DEFINITION. Memory maintenance: ECC write-back, word test, patrol, link EDC, region entries, the
fill engine (05 R126 to R128, R140 to R150). -/

namespace Sys2Proof.Machine

/-- ECC_WRITE_BACK: the corrected word at byte address `a` is written back (05 R126). -/
def eccWriteBack (a : Nat) (s : State) : State :=
  if Tab.get 0 s.ecc (a / 8) = 3 then { s with ecc := Tab.set 0 s.ecc (a / 8) 0 } else s

def execEccWriteBack (a : Nat) (s : State) : Host.Outcome State Fault Refusal :=
  .next (eccWriteBack a s)

/-- WORD_TEST: island A tests the word at `a`, which gave an uncorrectable error; `pass` is what the test
found (05 R128). A word that passes holds the last pattern, with valid check bits (log 15). -/
def wordTest (a : Nat) (pass : Bool) (s : State) : State :=
  let w := a / 8
  if Tab.get 0 s.ecc w ≠ 2 then s
  else
    match place (w * 8) 8 with
    | .spad _ | .cs _ =>
      if pass then s.store (w * 8) (byteList (bytesOf 8 0x5555555555555555)) else s.takeOut (w * 8)
    | _ => s

/-- PATROL of channel `ch` ends at `t`: the lines it corrected and those it found uncorrectable
(05 R141). -/
def patrol (ch : Nat) (corrected uncorrectable : List Nat) (t : Nat) (s : State) : State :=
  let s := s.at t
  let here := fun (a : Nat) => decide (a < mainSize ∧ channelOf a = ch)
  let s := (corrected.filter here).foldl
    (fun s a =>
      let w := a / 8
      let s := s.countEcc a false
      if Tab.get 0 s.ecc w = 2 then s else { s with ecc := Tab.set 0 s.ecc w 0 }) s
  (uncorrectable.filter here).foldl
    (fun s a => { s.countEcc a true with ecc := Tab.set 0 s.ecc (a / 8) 2 }) s

def execPatrol (ch : Nat) (corrected uncorrectable : List Nat) (t : Nat) (s : State) :
    Host.Outcome State Fault Refusal :=
  .next (patrol ch corrected uncorrectable t s)

/-- EDC_RETRY: a transfer at `a` met `mismatches` CRC mismatches: up to 3 retries are counted, a fourth
mismatch makes the access uncorrectable: the next one of that line fails (05 R140). -/
def edcRetry (ch a mismatches : Nat) (s : State) : State :=
  if ch ≥ 24 ∨ channelOf a ≠ ch ∨ a ≥ mainSize then s
  else
    let s := (List.range (min mismatches 3)).foldl (fun s _ => s.sil1 376 ch) s
    if 4 ≤ mismatches ∧ !s.edc.contains (a / 64) then { s with edc := s.edc ++ [a / 64] } else s

def execEdcRetry (ch a mismatches : Nat) (s : State) : Host.Outcome State Fault Refusal :=
  .next (edcRetry ch a mismatches s)

/-! Region tables (05 R143 to R145). -/

def rgnBaseOf (o : RgnOld) : Nat := rgnBASE.of o.lo * 0x10000
def rgnSizeOf (o : RgnOld) : Nat := rgnSIZE.of o.hi * 0x10000
def rgnShadowOf (o : RgnOld) : Nat := rgnMBASE.of o.hi * 0x10000
def rgnIs (o : RgnOld) (f : FD) : Bool := decide (f.of o.lo = 1)

/-- Two ranges share a byte. -/
def overlaps (a n b m : Nat) : Bool := decide (0 < n ∧ 0 < m ∧ a < b + m ∧ b < a + n)

/-- The class of a partition: 0 D, 1 B, 2 QM (10 R278). -/
def State.classOf (s : State) (p : Nat) : Nat := s.getF (PDESC p) pdCLASS

/-- Entry `e` of partition `p` in force. -/
def State.rgnEntry (s : State) (p e : Nat) : RgnOld := Tab.get {} s.rgnCur (p * 64 + e)

/-- Island A accepts entry `o` as entry `e` of partition `p` (05 R145, 12 R346). -/
def State.rgnAccept (s : State) (p e : Nat) (o : RgnOld) : Bool :=
  let b := rgnBaseOf o
  let n := rgnSizeOf o
  let others := (List.range 8).flatMap (fun q => (List.range 64).map (fun f => (q, f)))
  let valid := fun (q f : Nat) => rgnIs (s.rgnEntry q f) rgnVALID && !(decide (q = p ∧ f = e))
  !rgnIs o rgnVALID ||
  (decide (n ≠ 0) &&
   (match place b n with
    | .main | .cs _ => true
    | .spad _ => !rgnIs o rgnWR
    | _ => false) &&
   !s.inBlotter b n &&
   (List.range 64).all (fun f => !valid p f || !overlaps b n (rgnBaseOf (s.rgnEntry p f)) (rgnSizeOf (s.rgnEntry p f))) &&
   (!rgnIs o rgnWR || others.all (fun (q, f) =>
      !valid q f || decide ((s.classOf p = 0) = (s.classOf q = 0)) ||
      !(rgnIs (s.rgnEntry q f) rgnWR || decide (s.classOf q = 0)) ||
      !overlaps b n (rgnBaseOf (s.rgnEntry q f)) (rgnSizeOf (s.rgnEntry q f)))) &&
   (decide (s.classOf p ≠ 0) || others.all (fun (q, f) =>
      !valid q f || decide (s.classOf q = 0) || !rgnIs (s.rgnEntry q f) rgnWR ||
      !overlaps b n (rgnBaseOf (s.rgnEntry q f)) (rgnSizeOf (s.rgnEntry q f)))) &&
   others.all (fun (q, f) =>
      !valid q f || !rgnIs (s.rgnEntry q f) rgnMIRROR ||
      !overlaps b n (rgnShadowOf (s.rgnEntry q f)) (rgnSizeOf (s.rgnEntry q f))) &&
   (!rgnIs o rgnMIRROR ||
     (let m := rgnShadowOf o
      decide (s.classOf p = 0) && decide (place b n = .main) && decide (place m n = .main) &&
      decide ((rgnMBASE.of o.hi + 2 ^ 28 - rgnBASE.of o.lo) % 4 ≠ 0) && !overlaps b n m n &&
      others.all (fun (q, f) =>
        !valid q f ||
        (!overlaps m n (rgnBaseOf (s.rgnEntry q f)) (rgnSizeOf (s.rgnEntry q f)) &&
         (!rgnIs (s.rgnEntry q f) rgnMIRROR ||
          !overlaps m n (rgnShadowOf (s.rgnEntry q f)) (rgnSizeOf (s.rgnEntry q f))))))))

/-- REGION_ENTRY_WRITE: island A writes RGN_LO, and with it the entry changes; every injection point goes
on judging by the whole old entry until its own switch (05 R144). An entry that island A refuses is not
written. -/
def regionEntryWrite (who : Who) (p e lo : Nat) (s : State) : State :=
  if who ≠ .islandA then s.refuseAccess
  else if p ≥ 8 ∨ e ≥ 64 then s
  else
    let lo := [rgnVALID, rgnRD, rgnWR, rgnMIRROR, rgnBASE].foldl (fun w f => w + f.of lo * 2 ^ f.lo) 0
    let o : RgnOld := { lo := lo, hi := s.wordF (RGN_HI p e) [rgnSIZE, rgnMBASE] }
    if !s.rgnAccept p e o then s
    else
      let old := s.rgnEntry p e
      let s := s.loadF (RGN_LO p e) [rgnVALID, rgnRD, rgnWR, rgnMIRROR, rgnBASE] lo
      { s with
        rgnCur := Tab.set {} s.rgnCur (p * 64 + e) o,
        rgnOld := (List.range 66).foldl (fun m pt =>
          match Tab.find m (rgnKey pt p e) with
          | some _ => m
          | none => Tab.insert m (rgnKey pt p e) old) s.rgnOld }

def execRegionEntryWrite (who : Who) (p e lo : Nat) (s : State) : Host.Outcome State Fault Refusal :=
  .next (regionEntryWrite who p e lo s)

/-- REGION_ENTRY_SWITCH: injection point `point` takes the new entry whole (05 R144). -/
def regionEntrySwitch (point p e : Nat) (s : State) : State :=
  { s with rgnOld := Tab.erase s.rgnOld (rgnKey point p e) }

def execRegionEntrySwitch (point p e : Nat) (s : State) : Host.Outcome State Fault Refusal :=
  .next (regionEntrySwitch point p e s)

/-! The fill engine (05 R149, R150). -/

/-- Report a fill: 1 busy, 2 done, 3 failed with a code. -/
def State.fillStat (s : State) (st fail : Nat) : State :=
  (s.setF MC_FILL_CTRL fillSTATUS st).setF MC_FILL_CTRL fillFAIL fail

/-- The range may be written by the requester: island A any range of main memory or a common store. -/
def State.fillOk (s : State) (who : Who) (a n : Nat) : Bool :=
  match place a n with
  | .main | .cs _ =>
    (match who with
     | .islandA => true
     | .runtime p => s.rgnOk 64 p true a n
     | _ => false)
  | _ => false

/-- A line of the range has no copy whose channel is in service; a channel holds 256-byte granules (05 R139). -/
def State.fillOut (s : State) (a n : Nat) : Bool :=
  let out := fun (b : Nat) => !bit (s.getF MC_STATUS mcCHOK) (channelOf b)
  decide (a < mainSize ∧ s.getF MC_STATUS mcCHOK % 2 ^ 24 ≠ 2 ^ 24 - 1) &&
  (List.range ((a + n - 1) / 256 + 1 - a / 256)).any (fun i =>
    let b := (a / 256 + i) * 256
    out b && (match (List.range 8).findSome? (fun p => s.shadow 65 p b) with
      | some c => out c
      | none => true))

/-- Zero one line, with valid check bits, and its shadow in a mirrored region (05 R150). -/
def State.fillLine (s : State) (a : Nat) : State :=
  let z := List.replicate 64 (0 : Byte)
  let s := s.store a z
  match (List.range 8).findSome? (fun p => s.shadow 65 p a) with
  | some b => s.store b z
  | none => s

/-- Write the next `n` lines of a fill: ADDR rises and LEN falls with each (05 R150). -/
def State.fillLines (s : State) (n : Nat) : State :=
  (List.range n).foldl (fun s _ =>
    let a := s.getF MC_FILL_ADDR fillADDR
    ((s.fillLine (a * 64)).setF MC_FILL_ADDR fillADDR (a + 1)).setF MC_FILL_LEN fillLEN (s.getF MC_FILL_LEN fillLEN - 1)) s

/-- FILL_GO: the range is checked and the fill runs; how many of its lines it has written when the next command comes is open
(log 81). -/
def fillGo (who : Who) (w : Nat) (s : State) : State :=
  let permitted := match who with
    | .islandA | .runtime _ => true
    | _ => false
  if fillGO.of w = 0 ∨ s.getF MC_FILL_CTRL fillSTATUS = 1 then s
  else if !permitted then s.fillStat 3 1
  else
    let a := s.getF MC_FILL_ADDR fillADDR * 64
    let n := s.getF MC_FILL_LEN fillLEN * 64
    if n = 0 then s.fillStat 3 2
    else if !s.fillOk who a n then s.fillStat 3 3
    else if s.outOfService (place a n) || s.fillOut a n then s.fillStat 3 4
    else
      let (k, s) := s.fresh (n / 64)
      (s.fillLines k).fillStat 1 0

def execFillGo (who : Who) (w : Nat) (s : State) : Host.Outcome State Fault Refusal :=
  .next (fillGo who w s)

/-- FILL_DONE: the last line is written; ADDR stands at the end of the range and LEN at zero. -/
def fillDone (s : State) : State :=
  if s.getF MC_FILL_CTRL fillSTATUS ≠ 1 then s else (s.fillLines (s.getF MC_FILL_LEN fillLEN)).fillStat 2 0

def execFillDone (s : State) : Host.Outcome State Fault Refusal :=
  .next (fillDone s)

end Sys2Proof.Machine
end

