-- ==== Sys2Proof/Machine/SafeOps.lean ====
section
/-! DEFINITION. Entering and leaving the safe state (12 R356 to R359). -/

namespace Sys2Proof.Machine

/-- The lowest set bit among the 16 reasons. -/
def lowestBit (m : Nat) : Option Nat := (List.range 16).find? (fun k => bit m k)

/-- REASON shows the lowest active code. -/
def State.showReason (s : State) : State :=
  match lowestBit (s.getF SAFE_STATUS safACTIVE) with
  | some k => s.setF SAFE_STATUS safREASON (0x40 + k)
  | none => s

/-- Reason `0x40 + k` becomes active: safe state holds, both outputs are asserted, each island owes an
extra status frame (12 R356, R357); a change of SAFE raises source 20 (17 R450). -/
def State.raiseSafe (s : State) (k : Nat) : State :=
  let was := s.flag SAFE_STATUS safSAFE
  let s := s.setF SAFE_STATUS safACTIVE (setBit (s.getF SAFE_STATUS safACTIVE) k)
  let s := s.showReason
  let s := s.setF SAFE_STATUS safSAFE 1
  let s := { s with safe := { s.safe with pinA := true, pinB := true, extra := 3, passes := 0 } }
  (if was then s else (s.event 27).wire 20).integrity

/-- Reason `0x40 + k` ends. Safe state itself ends under 12 R359; until then REASON stays (log 16). -/
def State.clearSafe (s : State) (k : Nat) : State :=
  (s.setF SAFE_STATUS safACTIVE (clrBit (s.getF SAFE_STATUS safACTIVE) k)).showReason

/-- A slot's selection passed step 1 or 2 of 09 R257, or did not (12 R359). -/
def State.slotPassed (s : State) (ok : Bool) : State :=
  { s with safe := { s.safe with passes := if ok then min 40 (s.safe.passes + 1) else 0 } }

/-- Whether safe state may end: no reason active and 40 passing slots (12 R359). -/
def State.safeMayEnd (s : State) : Bool :=
  s.flag SAFE_STATUS safSAFE && decide (s.getF SAFE_STATUS safACTIVE = 0) && decide (40 ≤ s.safe.passes)

/-- Safe state ends with a record that carries VALID 1; both outputs are released, but that of a failed island stays
asserted (12 R333; log 31); each island owes an extra status frame (12 R359). -/
def State.endSafe (s : State) : State :=
  let s := (s.setF SAFE_STATUS safSAFE 0).setF SAFE_STATUS safREASON 0
  { s with safe := { s.safe with pinA := s.flag ISL_STATUS isAFAIL, pinB := s.flag ISL_STATUS isBFAIL, extra := 3 } }.integrity.wire 20

end Sys2Proof.Machine
end

