-- ==== Sys2Proof/Machine/QueueCmds.lean ====
section
/-! DEFINITION. The commands of queues and of the frame schedule: doorbells, taking and completing work,
arrivals of engines and harts, slot boundaries, frames and deadlines (10 R268 to R284; 03 R65, R68,
R77). -/

namespace Sys2Proof.Machine

/-! Doorbells (10 R270, R271). -/

/-- The partition in whose name an initiator pushes; island A pushes in its own right. -/
def pusherOf : Who → Option Pusher
  | .islandA => some .island
  | .runtime p => some (.init p)
  | .user p => some (.init p)
  | _ => none

/-- PUSH: a doorbell write of `bytes`; any size but 64 bytes is dropped. -/
def pushCmd (who : Who) (q : Nat) (bytes : List Nat) (s : State) : State :=
  if q ≥ 16640 then s
  else
    match pusherOf who with
    | none => s.refuseAccess
    | some p =>
      if bytes.length ≠ 64 then
        s.qDrop (s.qTarget q)
      else (s.push q bytes p).1

def execPush (who : Who) (q : Nat) (bytes : List Nat) (s : State) : Host.Outcome State Fault Refusal :=
  .next (pushCmd who q bytes s)

/-- A TAIL that an initiator with the right to push wrote to queue `q` (10 R270). -/
def State.swTail (s : State) (q off : Nat) (bytes : List Nat) : State :=
  let v := leOf (bytes.take 4)
  if !s.qEn q || !s.flag (qCtl q) qPMODE || decide (off ≠ 0 ∨ bytes.length ≠ 8) ||
     newer 32 (s.qTailOf q) v || decide (s.qDepth q < subMod 32 v (s.qHead q)) then s.qDrop q
  else
    let t := s.qTailOf q
    let marks := (List.range (subMod 32 v t)).foldl (fun m i => Tab.set false m (65536 * q + (t + i) % s.qDepth q) false) s.qIsland
    { s with qIsland := marks }.setF (qTail q) qTAIL v

/-- The initiator may push to queue `q` (10 R271). -/
def State.mayPush (s : State) (q : Nat) : Pusher → Bool
  | .enq _ => false
  | .init p => decide (s.qPart q = p) && !isFeed q
  | .island => true

/-- SW_TAIL_WRITE: a doorbell write of `bytes` at offset `off`, forwarded one hop (10 R271). -/
def swTailWrite (who : Who) (q off : Nat) (bytes : List Nat) (s : State) : State :=
  if q ≥ 16640 then s
  else
    match pusherOf who with
    | none => s.refuseAccess
    | some p =>
      let r := s.flag (qCtl q) qRDRV
      let q' := s.qTarget q
      if r && s.flag (qCtl q') qRDRV then s.qDrop q'
      else if s.mayPush q' p then s.swTail q' off bytes else s.refuseAccess

def execSwTailWrite (who : Who) (q off : Nat) (bytes : List Nat) (s : State) :
    Host.Outcome State Fault Refusal :=
  .next (swTailWrite who q off bytes s)

/-- QCFG_HEAD_WRITE (10 R269): a value older than HEAD or newer than TAIL is ignored, and so is a
runtime's write while CQ = 0. -/
def qcfgHeadWrite (who : Who) (q w : Nat) (s : State) : State :=
  let v := qHEAD.of w
  let ok := !newer 32 (s.qHead q) v && !newer 32 v (s.qTailOf q) &&
    decide (subMod 32 v (s.qHead q) ≠ 2 ^ 31 ∧ subMod 32 (s.qTailOf q) v ≠ 2 ^ 31)
  if q ≥ 16640 then s
  else
    match who with
    | .islandA => if ok then s.setF (qPtr q) qHEAD v else s
    | .runtime p =>
      if s.qPart q ≠ p then s.refuseAccess
      else if ok && s.qIsCq q then s.setF (qPtr q) qHEAD v else s
    | _ => s.refuseAccess

def execQcfgHeadWrite (who : Who) (q w : Nat) (s : State) : Host.Outcome State Fault Refusal :=
  .next (qcfgHeadWrite who q w s)

/-! Notices (10 R292). -/

/-- Post a NOTICE to the notice queue of partition `p`. -/
def State.notice (s : State) (p state jidx cause jobId seq q : Nat) : State :=
  s.pushCq (63 * 256 + 40 + p)
    (bytesOf 1 3 ++ bytesOf 1 state ++ bytesOf 1 jidx ++ bytesOf 1 cause ++ bytesOf 8 0 ++ bytesOf 4 jobId ++
     bytesOf 4 seq ++ bytesOf 2 q ++ bytesOf 42 0) .island

/-- The state of a job in JOB_STAT. -/
def State.jobState (s : State) (j : Nat) : Nat := s.getF (JOB_STAT j) jsSTATE
def State.setJobState (s : State) (j v : Nat) : State := s.setF (JOB_STAT j) jsSTATE v

/-- A NOTICE about job `j`. -/
def State.jobNotice (s : State) (j cause : Nat) : State :=
  s.notice (s.getF (JOB_STAT j) jsPART) (s.jobState j) j cause (s.getF (JOB_STAT j) jsJOBID) 0 0

/-! Taking work (10 R272, R273; 03 R68). -/

/-- The unit may take an entry now. -/
def State.mayTake (s : State) (u : Nat) : Bool :=
  let blot := s.flag (UNIT_PART u) upBLOTTER
  decide (u < 63) && decide (s.unitState u = stIdle) && decide ((s.unit u).comps = [] ∧ (s.unit u).pend = []) &&
  (if u < 48 then !blot && s.flag (UNIT_CTRL u) ctrlENABLE && s.pvalid u else true) &&
  (blot || decide (s.jobState (s.jobOf u) = jRunning))

/-- The entry gives BAD_ITEM on unit `u` (10 R273). -/
def State.badItem (s : State) (u q : Nat) (it : WorkItem) (b : List Nat) : Bool :=
  let rg := if u < 48 ∧ s.flag (UNIT_RG u) rgV ∧ !s.flag (UNIT_PART u) upBLOTTER
    then s.getF (UNIT_RG u) rgRG else 0xFF
  !(decide (it.type = 1) || (decide (it.type = 4) && decide (48 ≤ u))) ||
  decide (it.part ≠ s.qPart q) || itemReserved b ||
  (decide (it.copy ≠ 0) && (s.flag (qCtl q) qPMODE || !Tab.get false s.qIsland (65536 * q + it.seq % s.qDepth q))) ||
  decide (it.rg ≠ rg)

/-- A cell begins a work item (03 R68). -/
def State.startCell (s : State) (c : Nat) (it : WorkItem) : State :=
  let x := s.cell c
  let x := { x with
    k := [], loops := [], calls := [], feSteps := 0, feStall := none, bar := .none, idleStop := false, runs := none,
    load := { lastPc := x.load.lastPc }, tensor := { lastPc := x.tensor.lastPc },
    vector := { lastPc := x.vector.lastPc }, store := { lastPc := x.store.lastPc }, fePc := it.prog }
  let x := (x.wA 0 (BitVec.ofNat 48 it.arg)).wS 1 (BitVec.ofNat 64 it.cslot)
  (s.setCell c x).setUnitState c stRunning

/-- WORK_ITEM_TAKE at `t`: the next entry of the eligible queue; one that cannot be read is left to
UNREADABLE_ENTRY. -/
def workItemTake (u t : Nat) (s : State) : State :=
  let s := s.at t
  if !s.mayTake u then s
  else
    match s.pickQueue u with
    | none => s
    | some q =>
      let n := s.qNext q
      if s.readFails 65 (s.qPart q) (s.qEntryAddr q n) 64 then s
      else
        let b := s.qEntry q n
        let j := s.jobOf u
        let it := parseItem q n j s.now b
        let s := s.noteRead 65 (s.qPart q) (s.qEntryAddr q n) 64
        let s := s.setF (qPtr q) qNEXT (n + 1)
        let x := s.unit u
        if s.badItem u q it b then s.setUnit u { x with comps := [{ item := it, status := 3 }] }
        else if it.cut && s.pastDeadline u it then
          s.setUnit u { x with comps := [{ item := it, status := 4 }] }
        else
          let s := s.setUnit u { x with binds := Tab.insert x.binds j it, told := 0 }
          if u < 48 then s.startCell u it
          else if it.type = 1 then (s.setUnitState u stRunning).setBusy u 1 else s.setUnitState u stRunning

def execWorkItemTake (u t : Nat) (s : State) : Host.Outcome State Fault Refusal :=
  .next (workItemTake u t s)

/-- UNREADABLE_ENTRY (10 R275). -/
def unreadableEntry (u : Nat) (s : State) : State :=
  if !s.mayTake u then s
  else
    match s.pickQueue u with
    | none => s
    | some q =>
      let n := s.qNext q
      let a := s.qEntryAddr q n
      if !s.readFails 65 (s.qPart q) a 64 then s
      else
        let s := s.countEcc a true
        let s := s.setF (qPtr q) qNEXT (n + 1)
        let s := s.setF (qPtr q) qHEAD (n + 1)
        let j := s.getF (qCtl q) qJIDX
        (s.event 33).notice (s.qPart q) (s.jobState j) j 4 (s.getF (JOB_STAT j) jsJOBID) n q

def execUnreadableEntry (u : Nat) (s : State) : Host.Outcome State Fault Refusal :=
  .next (unreadableEntry u s)

/-- ARRIVE (03 R65): an engine that took an ARRIVE item arrives once its writes are acknowledged. -/
def arriveCmd (u : Nat) (s : State) : State :=
  if u < 48 ∨ u ≥ 63 ∨ s.unitState u ≠ stRunning then s
  else
    match s.itemOf u with
    | none => s
    | some it =>
      if it.type ≠ 4 ∨ s.unacked u then s
      else
        let (s, r) := s.arrive (it.prog % 64) u (s.partOf u)
        let s := s.setUnitState u stIdle
        match r with
        | .arrived => s.endItem u 0 id
        | .refused => s.endItem u 1 (fun p => { p with errCode := 1 })
        | .broken => s.endItem u 1 (fun p => { p with errCode := 7 })

def execArrive (u : Nat) (s : State) : Host.Outcome State Fault Refusal :=
  .next (arriveCmd u s)

/-- BAR_HART (03 R65): a hart of partition `p` arrives in the name of slot 63. -/
def barHart (who : Who) (p w : Nat) (s : State) : State :=
  let own := match who with
    | .runtime q => decide (q = p)
    | .user q => decide (q = p)
    | _ => false
  if p ≥ 8 then s
  else if !own then s.refuseAccess
  else
    let (s, r) := s.arrive (bhBID.of w) 63 p
    let s := s.setF (BAR_HART p) bhREFUSED (b2n (decide (r = .refused)))
    let s := s.setF (BAR_HART p) bhLAST (if r = .refused then 0 else bhBID.of w + 1)
    s.setF (BAR_HART p) bhBROKEN (b2n (decide (r = .broken)))

def execBarHart (who : Who) (p w : Nat) (s : State) : Host.Outcome State Fault Refusal :=
  .next (barHart who p w s)

/-! Completions (10 R275, R292). -/

/-- Unit `u` stops job `j` (10 R292): a cell under 03 R74, also where the job's slot is over; an engine leaves its command (log 76). -/
def State.stopJobOn (s : State) (j u : Nat) : State :=
  let x := s.unit u
  if s.jobOf u = j then
    if u < 48 then s.stopCell u
    else if s.unitState u = stRunning then (s.setUnitState u stIdle).engClear u
    else s
  else if x.holder = j then s.setUnit u { x with heldState := if x.heldState = stRunning then stStopped else x.heldState }
  else
    match Tab.find x.held j with
    | some h => s.setUnit u { x with held := Tab.insert x.held j { h with state := if h.state = stRunning then stStopped else h.state } }
    | none => s

/-- A unit of job `j` posted STATUS ERROR: island A stops every unit of the job, sets it to FAULTED and
posts a NOTICE (10 R292). -/
def State.jobFault (s : State) (j : Nat) : State :=
  if s.jobState j ≠ jRunning then s
  else
    let s := (s.jobSlots j).foldl (fun s u => s.stopJobOn j u) s
    let s := s.setJobState j jFaulted
    let s := s.setJob j { s.job j with faultedAt := s.now }
    s.jobNotice j 0

/-- COMPLETION_PUSH at `t`: the next completion of unit `u`, once every write of it is acknowledged. A
fenced unit posts nothing (03 R73). -/
def completionPush (u t : Nat) (s : State) : State :=
  let s := s.at t
  let x := s.unit u
  match x.comps with
  | [] => s
  | p :: rest =>
    if s.unacked u ∨ s.unitState u = stFenced then s
    else
      let s := (s.setUnit u { x with comps := rest, told := 0 }).dropRegs u
      let s : State := { s with imgs := Tab.erase s.imgs u }
      let p := toldCpl u x.told { p with errMulti := s.getF (UNIT_STATUS u) stMULTI }
      let s := s.postCpl u p
      if p.status = 1 ∧ !(u < 48 ∧ s.flag (UNIT_RG u) rgV) then s.jobFault p.item.jidx else s

def execCompletionPush (u t : Nat) (s : State) : Host.Outcome State Fault Refusal :=
  .next (completionPush u t s)

/-! The frame schedule (10 R280 to R283; 03 R77). -/

/-- The schedule entries of unit `u` as island A wrote them, ascending in START. -/
def State.schedOf (s : State) (u : Nat) : List SchedEnt :=
  (List.range 16).filterMap (fun e =>
    let a := SCHED u e
    if s.flag a scV then
      some { idx := e, start := s.getF a scSTART, blotter := s.flag a scBLOTTER, jidx := s.getF a scJIDX }
    else none)

/-- The entry in force `us` microseconds into the frame: the last that has started, or before the first START the last entry of the
frame before (10 R280); none where no entry is valid. -/
def UnitRt.entryAt (x : UnitRt) (us : Nat) : Option SchedEnt :=
  match (x.sched.filter (fun e => decide (e.start ≤ us))).getLast? with
  | some e => some e
  | none => if x.sched = [] then none else x.lastEnt

/-- What unit `u` shows where no entry is in force: it serves nothing (10 R280). -/
def noEntry : SchedEnt := { idx := 0, start := 0, blotter := false, jidx := 0xFF }

/-- The context area of job `j` on cell `c` (03 R77). -/
def State.ctxArea (s : State) (j c : Nat) : Option Nat :=
  match s.placement j with
  | none => none
  | some p =>
    match p.units.find? (fun u => decide (u.slot = c)) with
    | some u => if u.ctxOff = 0xFFFFFFFF then none else some (spadBase c + u.ctxOff)
    | none => none

/-- Write the image of the held job into its context area, and keep what no image holds of it; a job in ERROR is not captured
(03 R77). -/
def State.saveHeld (s : State) (c : Nat) : State :=
  let x := s.unit c
  match s.ctxArea x.holder c with
  | none => s
  | some a =>
    if x.heldState = stError then s.setUnit c { x with held := Tab.erase x.held x.holder }
    else
      let y := s.cell c
      let h : Held := { bar := y.bar, barOff := y.barOff, feStall := y.feStall, idleStop := y.idleStop, runs := y.runs,
                        load := y.load, tensor := y.tensor, vector := y.vector, store := y.store, state := x.heldState }
      let s := s.setUnit c { x with held := Tab.insert x.held x.holder h }
      let t := s.setUnitState c x.heldState
      (s.writeMem c (s.getF (JOB_STAT x.holder) jsPART) a (byteList (t.imageBytes c 2))).1

/-- The state that a cell kept of a job beside its image comes back over the image (03 R77). -/
def State.takeHeld (s : State) (c : Nat) (h : Held) : State :=
  let x := s.cell c
  let s := s.setCell c { x with
    bar := h.bar, barOff := h.barOff, feStall := h.feStall, idleStop := h.idleStop, runs := h.runs,
    load := h.load.over x.load, tensor := h.tensor.over x.tensor, vector := h.vector.over x.vector, store := h.store.over x.store }
  let s := s.setUnitState c h.state
  if h.abandoned then s.clearWork c else s

/-- The image at `a` is complete and of job `j` (03 R77; log 77). -/
def State.imageOf (s : State) (c j a : Nat) : Bool :=
  let rd := s.rdAt a
  decide (rd 0 4 = imageMagic ∧ rd 4 2 = 1) && imageOk rd && !s.readFails c (s.getF (JOB_STAT j) jsPART) a imageSize &&
  decide (rd 0x10 4 = 0 ∨ rd 0x10 4 = s.getF (JOB_STAT j) jsJOBID)

/-- Bring in the state of job `j`: its image, or IDLE where its context area holds no complete image
(03 R77). -/
def State.loadHeld (s : State) (c j : Nat) : State :=
  let idle :=
    let s := match s.progRange j c with
      | some (b, l) => (s.setF (UNIT_CTRL c) ctrlPBASE b).setF (UNIT_CTRL c) ctrlPLEN l
      | none => s
    (s.setF (UNIT_CTRL c) ctrlSTALL (s.job j).stall).clearWork c
  let x := s.unit c
  let s' := match s.ctxArea j c with
    | none => idle
    | some a =>
      if !s.imageOf c j a then idle
      else
        let rd := s.rdAt a
        let s := s.loadImage c rd (rd 8 1 % 8)
        match Tab.find x.held j with
        | some h => s.takeHeld c h
        | none =>
          let s := s.setCell c { s.cell c with idleStop := decide (rd 0x10 4 = 0) }
          if s.jobState j ≠ jRunning ∧ s.unitState c = stRunning then s.setUnitState c stStopped else s
  s'.setUnit c { s'.unit c with held := Tab.erase x.held j }

/-- An engine command is cut (10 R281): writes made stand, the item ends with a status of its own. -/
def State.cutEngine (s : State) (u status : Nat) : State :=
  if s.unitState u ≠ stRunning then s else (((s.setUnitState u stIdle).engDone u).dropRegs u).endItem u status id

/-- UNIT_PART for schedule entry `e` (10 R279). -/
def State.showEntry (s : State) (u : Nat) (e : SchedEnt) : State :=
  let j := if e.blotter then 0xFF else e.jidx
  let a := UNIT_PART u
  let s := s.setF a upJIDX j
  let s := s.setF a upPART (if j = 0xFF then 0 else s.getF (JOB_STAT j) jsPART)
  let s := s.setF a upCLASS (if j = 0xFF then 3 else s.classOf (s.getF (JOB_STAT j) jsPART))
  let s := s.setF a upSENTRY e.idx
  s.setF a upBLOTTER (b2n e.blotter)

/-- Cell `c`, which has stopped, switches to schedule entry `e` (03 R77). It keeps the state of the job whose slot
is over until another job needs it. -/
def State.switchCell (s : State) (c : Nat) (e : SchedEnt) : State :=
  if s.unitState c ≥ stFenced then s.showEntry c e
  else
    let j0 := s.jobOf c
    let j1 := if e.blotter then 0xFF else e.jidx
    let s := if j0 = 0xFF then s else s.setUnit c { s.unit c with holder := j0, heldState := s.unitState c }
    let h := (s.unit c).holder
    let s :=
      if j1 = 0xFF then s.setUnitState c (if h = 0xFF ∨ (s.unit c).heldState = stIdle then stIdle else stStopped)
      else if h = j1 then s.setUnitState c (s.unit c).heldState
      else
        let s := if h = 0xFF then s else s.saveHeld c
        s.loadHeld c j1
    let s := if j1 = 0xFF then s else s.setUnit c { s.unit c with holder := 0xFF, heldState := 0 }
    (s.showEntry c e).barError c

/-- Switch unit `u` to schedule entry `e` (03 R77, 10 R281): a cell ends the steps it has begun, and switches once all that it has
asked is answered. -/
def State.slotSwitch (s : State) (u : Nat) (e : SchedEnt) : State :=
  let j1 := if e.blotter then 0xFF else e.jidx
  if s.jobOf u = j1 ∧ s.flag (UNIT_PART u) upBLOTTER = e.blotter ∧ (s.unit u).pend = [] then s.showEntry u e
  else if u < 48 then
    let s := if s.unitState u ≥ stFenced then s else s.endSteps u
    if s.asking u || decide ((s.unit u).pend ≠ []) then
      s.setUnit u { s.unit u with pend := (s.unit u).pend ++ [.slot e] }
    else s.switchCell u e
  else (s.cutEngine u 5).showEntry u e

/-- What a stop of cell `c` leads to takes place once all that it has asked is answered (03 R74). -/
def State.settle (s : State) (c : Nat) : State :=
  if c < 48 ∧ !s.asking c then
    (s.unit c).pend.foldl (fun s p => match p with
      | .snap _ a => s.snapWrite c a
      | .slot e => s.switchCell c e) (s.setUnit c { s.unit c with pend := [] })
  else s

/-- The source of message `n`; none of a cell where there is none. -/
def State.msgSrc (s : State) (n : Nat) : Nat :=
  match s.msgs[n]? with
  | some m => m.src
  | none => 64

def execRemoteWriteArrival (n : Nat) (s : State) : Host.Outcome State Fault Refusal :=
  .next ((remoteWriteArrival n s).settle (s.msgSrc n))

def execCommitArrival (n : Nat) (s : State) : Host.Outcome State Fault Refusal :=
  .next ((commitArrival n s).settle (s.msgSrc n))

/-- The entry in force of unit `u` now. -/
def State.entryNow (s : State) (u : Nat) : SchedEnt := ((s.unit u).entryAt (s.slotUs u)).getD noEntry

/-- SLOT_BOUNDARY at `t`: the entry that is due takes over from the current one. -/
def slotBoundary (u t : Nat) (s : State) : State :=
  let s := s.at t
  if u ≥ 63 then s else s.slotSwitch u (s.entryNow u)

def execSlotBoundary (u t : Nat) (s : State) : Host.Outcome State Fault Refusal :=
  .next (slotBoundary u t s)

/-- The entries of job `j` are in force on every unit that its slots name (10 R291). -/
def State.entriesInForce (s : State) (j : Nat) : Bool :=
  match s.placement j with
  | none => false
  | some p =>
    (s.job j).slots.all (fun r =>
      match p.units[r.lunit]? with
      | some v => (s.unit v.slot).sched.any (fun e => decide (e.jidx = j ∧ !e.blotter))
      | none => true)

/-- A unit begins a frame at `now`: schedule writes take effect (10 R280), and a LOADING job of the unit whose
entries are in force becomes RUNNING (10 R291). -/
def State.beginFrame (s : State) (u seq : Nat) : State :=
  let x := s.unit u
  let s := s.setUnit u { x with frameAt := s.now, sched := s.schedOf u, lastEnt := x.sched.getLast? }
  let s := s.setF (UNIT_PART u) upFRAMESEQ seq
  (List.range 255).foldl (fun s j =>
    if s.jobState j = jLoading ∧ (s.jobSlots j).contains u ∧ s.entriesInForce j then s.setJobState j jRunning else s) s

/-- FRAME_SELF_WRAP at `t` (10 R282): no event came in the window. Not in mode SLAVED (10 R283). -/
def frameSelfWrap (u t : Nat) (s : State) : State :=
  let s := s.at t
  let x := s.unit u
  if u ≥ 63 ∨ s.trig.slaved ∨ s.now < x.frameAt + ms 25 + us 1 then s
  else
    let m := s.getF (UNIT_PART u) upMISSED
    let now := s.now
    let s := { s with now := x.frameAt + ms 25 }
    let s := s.beginFrame u (s.frameSeq u + 1)
    let s := { s with now := now }
    let s := s.setF (UNIT_PART u) upALIGNED 0
    let s := s.setF (UNIT_PART u) upMISSED (min 3 (m + 1))
    let s := s.event 4
    if m + 1 = 3 then s.raiseSafe 2 else s

def execFrameSelfWrap (u t : Nat) (s : State) : Host.Outcome State Fault Refusal :=
  .next (frameSelfWrap u t s)

/-- FRAME_START_RECEIVE: the event with REF_SEQ `seq` reaches unit `u` at `t` (10 R282, R283). -/
def frameStartReceive (u seq t : Nat) (s : State) : State :=
  let s := s.at t
  let x := s.unit u
  let due := x.frameAt + ms 25
  let inWin := decide (due ≤ s.now + us 1 ∧ s.now ≤ due + us 1)
  let m := s.getF (UNIT_PART u) upMISSED
  if u ≥ 63 then s
  else if !inWin && decide (m = 0) && !s.trig.slaved then s.event 5
  else
    let s := s.beginFrame u seq
    let s := s.setF (UNIT_PART u) upALIGNED 1
    let s := s.setF (UNIT_PART u) upMISSED 0
    if inWin then s
    else s.slotSwitch u (((s.unit u).entryAt 0).getD noEntry)

def execFrameStartReceive (u seq t : Nat) (s : State) : Host.Outcome State Fault Refusal :=
  .next (frameStartReceive u seq t s)

/-- Cell `c` abandons the item of job `j` with STATUS CUT_DEADLINE (10 R284): with the semantics of a job reset, also where its slot
is over. -/
def State.cutCell (s : State) (c j : Nat) : State :=
  let own := decide (j = s.itemJob c)
  let s := if own then s.endSteps c else s
  match Tab.find (s.unit c).binds j with
  | none => s
  | some it =>
    let s := if own then s.jobReset c else s
    let x := s.unit c
    let held := match Tab.find x.held j with
      | some h => Tab.insert x.held j { h with abandoned := true }
      | none => x.held
    s.setUnit c { x with binds := Tab.erase x.binds j, held := held, comps := x.comps ++ [{ item := it, status := 4 }] }

/-- DEADLINE_EXPIRY at `t` (10 R284): CUT items past their deadline are abandoned. -/
def deadlineExpiry (u t : Nat) (s : State) : State :=
  let s := s.at t
  if u ≥ 63 ∨ s.unitState u ≥ stFenced then s
  else
    let due := (s.unit u).binds.filter (fun (_, it) => it.cut && s.pastDeadline u it)
    if u < 48 then due.foldl (fun s (j, _) => s.cutCell u j) s
    else if due.any (fun (j, _) => decide (j = s.itemJob u)) then s.cutEngine u 4
    else s

def execDeadlineExpiry (u t : Nat) (s : State) : Host.Outcome State Fault Refusal :=
  .next (deadlineExpiry u t s)

end Sys2Proof.Machine
end

