-- ==== Sys2Proof/Machine/ImageEngine.lean ====
section
/-! DEFINITION. The Image engines: FRAME, row production and the line timeout (06 R161 to R172). -/

namespace Sys2Proof.Machine

/-- Clamp to 16 bits (06 R164). -/
def clamp16 (v : Int) : Nat := (min (max v 0) 65535).toNat

/-! The command block and the profile (06 R162, R163). -/

def ImgRun.inFmt (r : ImgRun) : Nat := fieldAt r.prof 0 1
def ImgRun.inW (r : ImgRun) : Nat := fieldAt r.prof 4 2
def ImgRun.inH (r : ImgRun) : Nat := fieldAt r.prof 6 2
def ImgRun.outW (r : ImgRun) : Nat := fieldAt r.prof 0x30 2
def ImgRun.outH (r : ImgRun) : Nat := fieldAt r.prof 0x32 2
def ImgRun.meshW (r : ImgRun) : Nat := fieldAt r.prof 0x34 1
def ImgRun.meshH (r : ImgRun) : Nat := fieldAt r.prof 0x35 1
def ImgRun.spc (r : ImgRun) : Nat := fieldAt r.prof 0x36 1
def ImgRun.develop (r : ImgRun) : Bool := bit (fieldAt r.blk 1 1) 0
def ImgRun.warp (r : ImgRun) : Bool := bit (fieldAt r.blk 1 1) 1
def ImgRun.levels (r : ImgRun) : Nat := fieldAt r.blk 2 1
def ImgRun.outFmt (r : ImgRun) : Nat := fieldAt r.blk 3 1
def ImgRun.frame (r : ImgRun) : Nat := fieldAt r.blk 0x10 8
def ImgRun.outY (r : ImgRun) (l : Nat) : Nat := fieldAt r.blk (0x20 + 8 * l) 8
def ImgRun.outUV (r : ImgRun) (l : Nat) : Nat := fieldAt r.blk (0x48 + 8 * l) 8
/-- Nanoseconds of LINE_TIMEOUT; zero means 50,000 µs. -/
def ImgRun.timeout (r : ImgRun) : Nat :=
  let v := fieldAt r.blk 4 2
  Machine.us (if v = 0 then 50000 else v)

/-- Half, rounded up, `l` times. -/
def halves : Nat → Nat → Nat
  | 0, v => v
  | l + 1, v => halves l ((v + 1) / 2)

/-- The command block breaks no rule of 06 R162. -/
def imgBlockOk (b : List Nat) : Bool :=
  let lv := fieldAt b 2 1
  decide (fieldAt b 0 1 = 1) && decide (fieldAt b 1 1 < 8) && decide (1 ≤ lv ∧ lv ≤ 5) &&
  (bit (fieldAt b 1 1) 2 || decide (lv = 1)) && decide (fieldAt b 3 1 ≤ 2) &&
  zeroBytes b 6 2 && zeroBytes b 0x18 8 && zeroBytes b 0x70 16 && addrField b 8 64 && addrField b 0x10 64 &&
  (List.range 5).all (fun l =>
    addrField b (0x20 + 8 * l) 64 && addrField b (0x48 + 8 * l) 64 &&
    (decide (l < lv) || zeroBytes b (0x20 + 8 * l) 8) &&
    ((decide (l < lv) && decide (fieldAt b 3 1 ≠ 2)) || zeroBytes b (0x48 + 8 * l) 8))

def imgExtent (v : Nat) : Bool := decide (64 ≤ v ∧ v ≤ 8192)

/-- The profile breaks no rule of 06 R163 but that on the mesh rows. -/
def imgProfileOk (r : ImgRun) : Bool :=
  let p := r.prof
  decide (r.inFmt ≤ 3) && (decide (r.inFmt = 3) || decide (fieldAt p 1 1 ≤ 3)) && zeroBytes p 2 2 &&
  imgExtent r.inW && imgExtent r.inH && decide (r.inW % 2 = 0 ∧ r.inH % 2 = 0) && imgExtent r.outW &&
  imgExtent r.outH && decide (2 ≤ r.meshW ∧ r.meshW ≤ 128 ∧ 2 ≤ r.meshH ∧ r.meshH ≤ 72 ∧ 3 ≤ r.spc ∧ r.spc ≤ 8) &&
  zeroBytes p 0x39 7 && addrField p 0x40 8 && zeroBytes p 0x48 56 &&
  (decide (r.inFmt = 3) == !r.develop) &&
  (if r.warp then
    decide (r.outW - 1 ≤ (r.meshW - 1) * 2 ^ r.spc ∧ r.outH - 1 ≤ (r.meshH - 1) * 2 ^ r.spc)
   else decide (r.outW = r.inW ∧ r.outH = r.inH)) &&
  decide (4 ≤ halves (r.levels - 1) r.outW ∧ 4 ≤ halves (r.levels - 1) r.outH)

/-- Coordinate `k` (0 X, 1 Y) of the mesh vertex in column `i` of row `j`. -/
def ImgRun.vertex (r : ImgRun) (k i j : Nat) : Int := signedOf 32 (fieldAt r.mesh (8 * (j * r.meshW + i) + 4 * k) 4)

/-- Adjacent mesh rows span at most 511 input rows (06 R163). -/
def imgMeshOk (r : ImgRun) : Bool :=
  (List.range (r.meshH - 1)).all (fun j =>
    let ys := (List.range r.meshW).flatMap (fun i => [r.vertex 1 i j, r.vertex 1 i (j + 1)])
    match ys with
    | [] => true
    | y :: t => decide (t.foldl max y - t.foldl min y ≤ 511 * 65536))

/-! DEVELOP (06 R164). -/

/-- The colour of pattern position `pos` under CFA: 0 R, 1 G, 2 B. -/
def cfaColour (cfa pos : Nat) : Nat :=
  match cfa with
  | 0 => [0, 1, 1, 2].getD pos 0
  | 1 => [1, 0, 2, 1].getD pos 0
  | 2 => [1, 2, 0, 1].getD pos 0
  | _ => [2, 1, 1, 0].getD pos 0

def patternPos (x y : Nat) : Nat := y % 2 * 2 + x % 2

/-- Steps 1 to 3 on the code at `(x, y)`. -/
def ImgRun.level (r : ImgRun) (code x y : Nat) : Int :=
  let n := [10, 12, 16].getD r.inFmt 16
  let pos := patternPos x y
  let p : Int := code * 2 ^ (16 - n)
  let p : Int := clamp16 p
  let p : Int := clamp16 (max (p - fieldAt r.prof (8 + 2 * pos) 2) 0)
  clamp16 ((p * fieldAt r.prof (0x10 + 2 * pos) 2 + 2048) / 4096)

/-- The mean of values, rounded as 06 R164 states. -/
def meanOf (l : List Int) : Int := (l.foldl (· + ·) 0 + l.length / 2) / l.length

/-- Step 4: colour `c` at `(x, y)`, where `p` gives the value at any coordinate by reflection. -/
def ImgRun.colour (r : ImgRun) (p : Int → Int → Int) (x y c : Nat) : Int :=
  let own := cfaColour (fieldAt r.prof 1 1) (patternPos x y)
  let h : List (Int × Int) := [((x : Int) - 1, y), ((x : Int) + 1, y)]
  let v : List (Int × Int) := [(x, (y : Int) - 1), (x, (y : Int) + 1)]
  let d : List (Int × Int) :=
    [((x : Int) - 1, (y : Int) - 1), ((x : Int) + 1, (y : Int) - 1), ((x : Int) - 1, (y : Int) + 1),
     ((x : Int) + 1, (y : Int) + 1)]
  let mean := fun (l : List (Int × Int)) => meanOf (l.map (fun (a, b) => p a b))
  if own = c then p x y
  else if c = 1 then mean (h ++ v)
  else if own = 1 then
    if cfaColour (fieldAt r.prof 1 1) (patternPos (x + 1) y) = c then mean h else mean v
  else mean d

/-- Step 5: component `k` (0 Y, 1 U, 2 V). -/
def ImgRun.component (r : ImgRun) (rgb : List Int) (k : Nat) : Nat :=
  let m := fun j => signedOf 16 (fieldAt r.prof (0x18 + 2 * (3 * k + j)) 2)
  let s : Int := (List.range 3).foldl (fun a j => a + m j * rgb.getD j 0) 0
  clamp16 ((s + 2048) / 4096 + signedOf 16 (fieldAt r.prof (0x2A + 2 * k) 2))

/-- The 16-bit component `k` of input pixel `(x, y)`; `line y` gives the bytes of input line `y`. -/
def ImgRun.input (r : ImgRun) (line : Nat → List Nat) (k x y : Nat) : Nat :=
  if r.inFmt = 3 then
    let o := if k = 0 then 2 * x + 1 else 4 * (x / 2) + (if k = 1 then 0 else 2)
    256 * fieldAt (line y) o 1
  else
    let p := fun (a b : Int) =>
      let a' := (reflect a r.inW).toNat
      let b' := (reflect b r.inH).toNat
      r.level (fieldAt (line b') (2 * a') 2) a' b'
    r.component ((List.range 3).map (fun c => r.colour p x y c)) k

/-! WARP (06 R165). -/

/-- The source position of output pixel `(u, v)` on axis `k`, in 1/256 pixel. -/
def ImgRun.source (r : ImgRun) (k u v : Nat) : Int :=
  let q := 2 ^ r.spc
  let i := min (u / q) (r.meshW - 2)
  let j := min (v / q) (r.meshH - 2)
  let fu : Int := (u - i * q : Nat)
  let fv : Int := (v - j * q : Nat)
  let q' : Int := (q : Nat)
  ((q' - fu) * (q' - fv) * r.vertex k i j + fu * (q' - fv) * r.vertex k (i + 1) j +
   (q' - fu) * fv * r.vertex k i (j + 1) + fu * fv * r.vertex k (i + 1) (j + 1)) / 2 ^ (2 * r.spc + 8)

/-- The input rows whose lines output row `v` needs. -/
def ImgRun.rowsOf (r : ImgRun) (v : Nat) : List Nat :=
  let touched : List Int :=
    if r.warp then
      (List.range r.outW).flatMap (fun u =>
        let y0 := r.source 1 u v / 256
        [y0, y0 + 1])
    else [(v : Int)]
  let inside : List Int := touched.filter (fun (y : Int) => decide (0 ≤ y ∧ y < r.inH))
  let near : List Int := if r.inFmt = 3 then inside
    else inside.flatMap (fun y => [reflect (y - 1) r.inH, y, reflect (y + 1) r.inH])
  (near.map Int.toNat).eraseDups

/-- Component `k` of level-0 output pixel `(u, v)` in the 16-bit domain. -/
def ImgRun.output (r : ImgRun) (line : Nat → List Nat) (k u v : Nat) : Nat :=
  if !r.warp then r.input line k u v
  else
    let x := r.source 0 u v
    let y := r.source 1 u v
    let fill := 256 * fieldAt r.prof (if k = 0 then 0x37 else 0x38) 1
    let s := fun (a b : Int) =>
      if 0 ≤ a ∧ a < r.inW ∧ 0 ≤ b ∧ b < r.inH then r.input line k a.toNat b.toNat else fill
    let x0 := x / 256
    let y0 := y / 256
    let wx := (x % 256).toNat
    let wy := (y % 256).toNat
    ((256 - wx) * (256 - wy) * s x0 y0 + wx * (256 - wy) * s (x0 + 1) y0 + (256 - wx) * wy * s x0 (y0 + 1) +
     wx * wy * s (x0 + 1) (y0 + 1) + 32768) / 65536

/-! Writing components and pyramid levels (06 R166, R167). -/

def byteOf16 (v : Nat) : Nat := min ((v + 128) / 256) 255

/-- The pair means of one row, an odd last column pairing with itself. -/
def pairMeans : List Nat → List Nat
  | a :: b :: t => (a + b + 1) / 2 :: pairMeans t
  | [a] => [(a + a + 1) / 2]
  | [] => []

/-- The 2 × 2 means of two rows. -/
def quadMeans : List Nat → List Nat → List Nat
  | a :: b :: t, c :: d :: t' => (a + b + c + d + 2) / 4 :: quadMeans t t'
  | [a], [c] => [(a + a + c + c + 2) / 4]
  | _, _ => []

/-- Interleave U and V. -/
def interleave : List Nat → List Nat → List Nat
  | u :: us, v :: vs => u :: v :: interleave us vs
  | _, _ => []

/-- Pitch of a level of width `w` (06 R166). -/
def pitchOf (w : Nat) : Nat := (w + 63) / 64 * 64

/-- Write one row of a plane, padded with zero to the pitch. -/
def imgWriteRow (u base pitch row : Nat) (l : List Nat) : Eng Unit :=
  Eng.write u (base + row * pitch) (byteList (l ++ List.replicate (pitch - l.length) 0))

/-- One level from the one below (06 R167), by plane. -/
def pyramid (q : List (List Nat)) : List (List Nat) :=
  let h := q.length
  let w := (q.headD []).length
  let wt := fun i => [1, 4, 6, 4, 1].getD i 0
  let at_ := fun (y x : Int) =>
    (q.getD (min (max y 0) ((h : Int) - 1)).toNat []).getD (min (max x 0) ((w : Int) - 1)).toNat 0
  (List.range ((h + 1) / 2)).map (fun y => (List.range ((w + 1) / 2)).map (fun x =>
    (((List.range 5).foldl (fun s a => s + (List.range 5).foldl (fun s' b =>
      s' + wt a * wt b * at_ (2 * y + a - 2 : Int) (2 * x + b - 2 : Int)) 0) 0) + 128) / 256))

/-- Write levels 1 upward from the planes of the level below. -/
def imgLevels (u : Nat) (r : ImgRun) : Nat → Nat → List (List Nat) → List (List Nat) → List (List Nat) → Eng Unit
  | 0, _, _, _, _ => pure ()
  | n + 1, l, ys, us, vs => do
    let ys' := pyramid ys
    let us' := pyramid us
    let vs' := pyramid vs
    let pitch := pitchOf (halves l r.outW)
    Eng.for (fun i => imgWriteRow u (r.outY l) pitch i (ys'.getD i [])) ys'.length 0
    if r.outFmt ≠ 2 then
      Eng.for (fun i => imgWriteRow u (r.outUV l) pitch i (interleave (us'.getD i []) (vs'.getD i []))) us'.length 0
    imgLevels u r n (l + 1) ys' us' vs'

/-! Commands. -/

/-- Slot-header fields of the ring slot (19 R493). -/
def imgHeader (u : Nat) (r : ImgRun) : Eng (List Nat) := Eng.read u r.frame 64

/-- The upper bits of the result (06 R169). -/
def imgResult (rows : Nat) (h : List Nat) : Nat :=
  rows * 2 ^ 48 + fieldAt h 0xA 2 * 2 ^ 32 + (if bit (fieldAt h 0x11 1) 0 then fieldAt h 0xE 2 * 65536 + 256 else 0)

/-- The set-up of a FRAME command: block, profile and mesh are read and checked (06 R161 to R163). -/
def imgSetup (u a : Nat) : Eng ImgRun := do
  let b ← Eng.block u a 128
  Eng.need (imgBlockOk b) .badCommand
  let p ← Eng.read u (fieldAt b 8 8) 128
  let r : ImgRun := { blk := b, prof := p, mesh := [] }
  Eng.need (imgProfileOk r) .badProfile
  let m ← Eng.read u (fieldAt p 0x40 8) (8 * r.meshW * r.meshH)
  let r := { r with mesh := m }
  Eng.need (imgMeshOk r) .badProfile
  return r

def isImage (u : Nat) : Bool := decide (u = 60 ∨ u = 61)

/-- End the command of an Image engine. -/
def State.imgEnd (s : State) (u : Nat) (r : ImgRun) (status : Nat) (h : List Nat) : State :=
  s.engEnd u status (imgResult r.ys.length h)

/-- The frame in a slot with header `h` was marked ended with fewer lines than the profile names (06 R168). -/
def ImgRun.isShort (r : ImgRun) (h : List Nat) : Bool := decide (fieldAt h 7 1 = 2 ∧ fieldAt h 8 2 < r.inH)

/-- FRAME at `t`: engine `u` sets out on its command and holds the ring slot. -/
def frameCmd (u t : Nat) (s : State) : State :=
  let s := s.at t
  match s.engItem u with
  | none => s
  | some it =>
    if !isImage u || (Tab.find s.imgs u).isSome then s
    else
      let s := (s.setF (IMG_STATUS u) igLINES 0).setF (IMG_STATUS u) igROWS 0
      match (do let r ← imgSetup u it.prog; let h ← imgHeader u r; return (r, h)).run s with
      | .error e s => s.engEnd u (e.code u) 0
      | .ok (r, h) s =>
        let s := { s with imgs := Tab.insert s.imgs u { r with lastLine := s.now } }
        let s := s.setF (IMG_STATUS u) igCAM (fieldAt h 6 1)
        if r.isShort h then s.imgEnd u r (EErr.short.code u) h else s

def execFrame (u t : Nat) (s : State) : Host.Outcome State Fault Refusal := .next (frameCmd u t s)

/-- The input lines that the next row needs, and how many lines must have arrived. -/
def ImgRun.needs (r : ImgRun) : List Nat :=
  let v := r.ys.length
  if r.outFmt = 0 ∧ v % 2 = 1 then (r.rowsOf (v - 1) ++ r.rowsOf v).eraseDups else r.rowsOf v

def linesNeeded (l : List Nat) : Nat := l.foldl (fun m y => max m (y + 1)) 0

/-- Read the input lines of a list. -/
def imgLines (u : Nat) (r : ImgRun) (pitch : Nat) : List Nat → Eng (Tab (List Nat))
  | [] => pure []
  | y :: t => do
    let b ← Eng.read u (r.frame + 0x1040 + y * pitch) (2 * r.inW)
    let rest ← imgLines u r pitch t
    return (y, b) :: rest

/-- A level-0 row of Y is written in full: the run holds it and the registers count it (06 R169, R171). -/
def State.imgRowDone (s : State) (u : Nat) (r : ImgRun) (y : List Nat) : State :=
  let lines := linesNeeded r.needs
  let r := { r with ys := r.ys ++ [y] }
  let s := { s with imgs := Tab.insert s.imgs u r }.progress u 1
  let s := s.setF (IMG_STATUS u) igROWS r.ys.length
  let s := s.setF (IMG_STATUS u) igLINES (max (s.getF (IMG_STATUS u) igLINES) lines)
  s.setF (IMG_PIX_CNT u) cnt64 (s.getF (IMG_PIX_CNT u) cnt64 + r.outW)

/-- Produce level-0 row `v`, with the row of U and V that it completes, and after the last row the pyramid. -/
def imgRow (u : Nat) (r : ImgRun) (h : List Nat) : Eng ImgRun := do
  let v := r.ys.length
  let ls ← imgLines u r (fieldAt h 0x18 4) r.needs
  let line := fun y => Tab.get [] ls y
  let comp := fun (k row : Nat) => (List.range r.outW).map (fun x => r.output line k x row)
  let y := (comp 0 v).map byteOf16
  let last := decide (v + 1 = r.outH)
  let pitch := pitchOf r.outW
  imgWriteRow u (r.outY 0) pitch v y
  modify (fun s => s.imgRowDone u r y)
  let uv : Option (List Nat × List Nat) :=
    if r.outFmt = 1 then some ((pairMeans (comp 1 v)).map byteOf16, (pairMeans (comp 2 v)).map byteOf16)
    else if r.outFmt = 0 ∧ (v % 2 = 1 ∨ last) then
      let v0 := v - v % 2
      some ((quadMeans (comp 1 v0) (comp 1 v)).map byteOf16, (quadMeans (comp 2 v0) (comp 2 v)).map byteOf16)
    else none
  match uv with
  | some (a, b) => imgWriteRow u (r.outUV 0) pitch r.us.length (interleave a b)
  | none => pure ()
  let r := { r with ys := r.ys ++ [y], us := r.us ++ (uv.toList.map (·.1)), vs := r.vs ++ (uv.toList.map (·.2)) }
  if last then imgLevels u r (r.levels - 1) 1 r.ys r.us r.vs
  return r

/-- IMAGE_ROW_PRODUCE: engine `u` produces its next output row where the input lines it needs have arrived; a
frame marked ended with too few lines ends the command (06 R168). -/
def imageRowProduce (u : Nat) (s : State) : State :=
  match s.engItem u, Tab.find s.imgs u with
  | some _, some r =>
    match (imgHeader u r).run s with
    | .error e s => s.imgEnd u r (e.code u) []
    | .ok h s =>
      if r.isShort h then s.imgEnd u r (EErr.short.code u) h
      else if fieldAt h 8 2 < linesNeeded r.needs then s
      else
        match (imgRow u r h).run s with
        | .error e s => s.imgEnd u ((Tab.find s.imgs u).getD r) (e.code u) h
        | .ok r' s =>
          let s := { s with imgs := Tab.insert s.imgs u r' }
          if r'.ys.length = r.outH then s.imgEnd u r' 0 h else s
  | _, _ => s

def execImageRowProduce (u : Nat) (s : State) : Host.Outcome State Fault Refusal := .next (imageRowProduce u s)

/-- LINE_TIMEOUT at `t`: lines are missing and none has come for LINE_TIMEOUT (06 R168). -/
def lineTimeout (u t : Nat) (s : State) : State :=
  let s := s.at t
  match s.engItem u, Tab.find s.imgs u with
  | some _, some r =>
    match (imgHeader u r).run s with
    | .error e s => s.imgEnd u r (e.code u) []
    | .ok h s =>
      if r.isShort h then s.imgEnd u r (EErr.short.code u) h
      else if fieldAt h 8 2 < r.inH ∧ r.lastLine + r.timeout ≤ s.now then s.imgEnd u r (EErr.timeout.code u) h else s
  | _, _ => s

def execLineTimeout (u t : Nat) (s : State) : Host.Outcome State Fault Refusal := .next (lineTimeout u t s)

/-- A line of the frame at slot address `a` has arrived: the commands that hold the slot have seen it. -/
def State.imgSeen (s : State) (a : Nat) : State :=
  { s with imgs := s.imgs.map (fun (u, r) => (u, if r.frame = a then { r with lastLine := s.now } else r)) }

/-- The receiver has marked the frame at slot address `a` ended: the commands on it end where lines are missing (06 R168). -/
def State.imgShort (s : State) (a : Nat) : State :=
  [60, 61].foldl (fun s u =>
    match s.engItem u, Tab.find s.imgs u with
    | some _, some r =>
      if r.frame = a then
        match (imgHeader u r).run s with
        | .error e s => s.imgEnd u r (e.code u) []
        | .ok h s => if r.isShort h then s.imgEnd u r (EErr.short.code u) h else s
      else s
    | _, _ => s) s

/-- A ring slot is held by an Image command (06 R168). -/
def State.slotHeld (s : State) (a : Nat) : Bool := s.imgs.any (fun (_, r) => decide (r.frame = a))

end Sys2Proof.Machine
end

