-- ==== Sys2Proof/Machine/AttnOps.lean ====
section
/-! DEFINITION. The key-value contexts: replicas, homes, pages, registrations and the operations on an entry
(07 R183 to R189, R195). -/

namespace Sys2Proof.Machine

/-- The geometry in force (07 R185, R195); island A writes it alike in all four engines. -/
def State.ctxSplit (s : State) : Nat := s.getF (ATTN_CFG 48) acSPLIT
def State.ctxCap (s : State) (kind : Nat) : Nat :=
  if kind = 2 then s.getF (ATTN_CFG 48) acCAPP + 1 else s.getF (ATTN_CFG 48) acCAPT + 1
def State.ctxRow (s : State) (kind : Nat) : Nat :=
  2 ^ (if kind = 2 then s.getF (ATTN_CFG 48) acLROWP else s.getF (ATTN_CFG 48) acLROWT)

/-- The address of row `r` of a context (07 R185). -/
def State.rowAddrOf (s : State) (x : Ctx) (r : Nat) : Nat :=
  let b := (x.start + r) % s.ctxCap x.kind * s.ctxRow x.kind
  s.getF (ATTN_POOL 48) apPOOL * 65536 + x.pages.getD (b / 65536) 0 * 65536 + b % 65536

/-- The free pages of quarter `q`, lowest first (07 R185). -/
def State.freePages (s : State) (q : Nat) : List Nat :=
  let per := (s.getF (ATTN_POOL 48) apPAGES + 1) / 4
  let used := (List.range 4104).flatMap (fun n => if n % 4 = q then (s.ctxOf n).pages else [])
  ((List.range per).map (fun i => q * per + i)).filter (fun p => !used.contains p)

/-- The pages that binding context `n` as `kind` takes. -/
def State.pagesFor (s : State) (n kind : Nat) : List Nat :=
  (s.freePages (n % 4)).take ((s.ctxCap kind * s.ctxRow kind + 65535) / 65536)

/-- Bind a FREE context (07 R187). -/
def State.bindCtx (s : State) (n kind id : Nat) : State :=
  s.setCtx n { s.ctxOf n with kind := kind, trackId := id, pages := s.pagesFor n kind, len := 0, tlen := 0, start := 0 }

/-- The contexts of Blotter (07 R183). -/
def blotCtxs : List Nat := (List.range 8).map (· + 4096)

/-- The partition that holds the context table: that of the job whose image declares it (07 R185, R196). -/
def State.attnHolder (s : State) : Option Nat :=
  (s.jobs.find? (fun (_, j) => j.attn)).map (fun (k, _) => s.getF (JOB_STAT k) jsPART)

/-- A context's partition is not that of the command (07 R187). -/
def State.foreignTable (s : State) (u : Nat) : Bool :=
  !s.flag (UNIT_PART u) upBLOTTER && decide (s.attnHolder ≠ some (s.partOf u))

/-- Read `n` bytes of the page pool, which the holder's region table covers (07 R185). -/
def Eng.poolRead (u a n : Nat) : Eng (List Nat) := do
  let s ← get
  let p := s.attnHolder.getD 0
  if s.outOfService (place a n) || !s.rgnOk u p false a n then
    set s.refuseAccess
    throw .access
  else if s.readFails u p a n then
    set (s.countEcc (s.firstBad u p a n) true)
    throw .memory
  else
    set (s.noteRead u p a n)
    return s.readBytes u p a n

/-- Write bytes of the page pool. -/
def Eng.poolWrite (u a : Nat) (bs : List Byte) : Eng Unit := do
  let s ← get
  let p := s.attnHolder.getD 0
  if s.outOfService (place a bs.length) || !s.rgnOk u p true a bs.length then
    set s.refuseAccess
    throw .access
  else
    let (s', bad) := s.writeMem u p a bs
    set s'
    if bad then
      set (s'.countEcc a true)
      throw .memory

/-- The pages of a context may be read, or written, under the holder's region table. -/
def State.poolOk (s : State) (u : Nat) (x : Ctx) (wr : Bool) : Bool :=
  x.pages.all (fun p =>
    let a := s.getF (ATTN_POOL 48) apPOOL * 65536 + p * 65536
    !s.outOfService (place a 65536) && s.rgnOk u (s.attnHolder.getD 0) wr a 65536)

/-! Registrations (07 R186). -/

/-- A registration must wait for an earlier one on its context. -/
def regWaits (earlier : List CtxReg) (r : CtxReg) : Bool :=
  earlier.any (fun e => decide (e.ctx = r.ctx ∧ e.by_ ≠ r.by_) && (e.writer || r.writer))

/-- The registrations of engine `u` that stand, each with what came before it, may all be granted. -/
def regsGrantable (u : Nat) : List CtxReg → List CtxReg → Bool
  | _, [] => true
  | seen, r :: t => (decide (r.by_ ≠ u) || !regWaits seen r) && regsGrantable u (seen ++ [r]) t

/-- Register engine `u` with one home for the contexts of a list. -/
def State.registerCtx (s : State) (u : Nat) (writer : Bool) (l : List Nat) : State :=
  { s with ctxRegs := s.ctxRegs ++ l.eraseDups.map (fun n => { ctx := n, by_ := u, writer := writer, granted := false }) }

/-- Grant what engine `u` has registered. -/
def State.grantCtx (s : State) (u : Nat) : State :=
  { s with ctxRegs := s.ctxRegs.map (fun r => if r.by_ = u then { r with granted := true } else r) }

/-- The homes of the contexts a command names, in ascending slot order. -/
def State.homesOf (s : State) (l : List Nat) : List Nat :=
  [48, 49, 50, 51].filter (fun h => l.any (fun n => decide (s.ctxHome n = some h)))

/-- Registrations at the homes in turn, as far as grants come at once: true where all are granted. -/
def State.askHomes (s : State) (u : Nat) (writer : Bool) (names : List Nat) : List Nat → State × List Nat × Bool
  | [] => (s, [], true)
  | h :: t =>
    let s := s.registerCtx u writer (names.filter (fun n => decide (s.ctxHome n = some h)))
    if regsGrantable u [] s.ctxRegs then (s.grantCtx u).askHomes u writer names t else (s, t, false)

end Sys2Proof.Machine
end

