-- ==== Sys2Proof/Machine/AttnEngine.lean ====
section
/-! DEFINITION. The Attention engines: FWD, BWD and the context operations (07 R173 to R198). -/

namespace Sys2Proof.Machine

/-! The command block (07 R178 to R180). -/

def abOpc (b : List Nat) : Nat := fieldAt b 0 1
def abFlag (b : List Nat) (i : Nat) : Bool := bit (fieldAt b 1 1) i
def abCtxMode (b : List Nat) : Bool := abFlag b 0
def abCausal (b : List Nat) : Bool := abFlag b 1
def abTent (b : List Nat) : Bool := abFlag b 2
def abStats (b : List Nat) : Bool := abFlag b 3
def abWrkv (b : List Nat) : Bool := abFlag b 4
def abHeads (b : List Nat) : Nat := fieldAt b 2 1
def abCount (b : List Nat) : Nat := fieldAt b 4 2
def abCtx (b : List Nat) : Nat := fieldAt b 0xC 2
def abCtx2 (b : List Nat) : Nat := fieldAt b 0xE 2
def abScale (b : List Nat) : Nat := fieldAt b 8 4

/-- Opcodes of 07 R179. -/
def attnOpcs : List Nat := [1, 2, 0x10, 0x11, 0x12, 0x13, 0x14]

/-- The descriptor slots that a command uses. -/
def abSlots (b : List Nat) : List Nat :=
  match abOpc b with
  | 1 =>
    (if abCtxMode b ∧ !abWrkv b then [0, 3] else [0, 1, 2, 3]) ++ (if abStats b then [4] else [])
  | 2 => List.range 9
  | 0x11 => if abWrkv b then [] else [0]
  | _ => []

/-- The header breaks no rule of 07 R178. HEADS and OUTFMT count for the opcodes that use them. -/
def abHeaderOk (b : List Nat) : Bool :=
  let o := abOpc b
  attnOpcs.contains o && decide (fieldAt b 1 1 < 32) && zeroBytes b 6 2 && zeroBytes b 0x1E 2 &&
  zeroBytes b 0x28 24 && decide (fieldAt b 0x20 8 < 2 ^ 44) &&
  (decide (2 < o) || decide (1 ≤ abHeads b ∧ abHeads b ≤ 4)) &&
  (decide (o ≠ 1) || [6, 7, 8, 0xA].contains (fieldAt b 3 1)) &&
  (decide (o ≠ 2) || !abCtxMode b) &&
  (if o = 1 ∧ abCtxMode b then decide (1 ≤ abCount b ∧ abCount b ≤ 256 ∧ fieldAt b 0x20 8 % 8 = 0)
   else if o = 0x11 then decide (1 ≤ abCount b ∧ abCount b ≤ 16)
   else if o = 0x12 then decide (abCount b ≤ 4)
   else decide (abCount b = 0)) &&
  (decide (o < 0x10) || decide (abCtx b ≤ 4103)) && (decide (o ≠ 0x13) || decide (abCtx2 b ≤ 4103)) &&
  (List.range 9).all (fun i => (abSlots b).contains i || zeroBytes b (0x40 + 0x40 * i) 64)

/-- Descriptor slot `i`. -/
def Eng.slot (b : List Nat) (i : Nat) : Eng Desc :=
  match parseDesc ((b.drop (0x40 + 0x40 * i)).take 64) with
  | .ok d => pure d
  | .error e => throw (if e = errFormat then .format else .badCommand)

/-- Row `r` of a tensor as encodings. -/
def Eng.row (u : Nat) (d : Desc) (r : Nat) : Eng (List Nat) := do
  let b ← Eng.read u (d.row r) d.rowBytes
  return (List.range d.d0).map (elemAt d.fmt b)

/-- All rows of a tensor. -/
def Eng.rows (u : Nat) (d : Desc) : Eng (List (List Nat)) := Eng.collect (Eng.row u d) d.rows 0

/-- Write encodings to row `r`. -/
def Eng.putRow (u : Nat) (d : Desc) (r : Nat) (es : List Nat) : Eng Unit := Eng.write u (d.row r) (packElems d.fmt es)

def isFp8 (f : Fmt) : Bool := decide (f = .e4m3 ∨ f = .e5m2)

/-- Q, K and V share a format code, BF16 or FP8 (07 R177). -/
def attnFmts (q k v : Fmt) : Bool := decide (q = .bf16 ∧ k = .bf16 ∧ v = .bf16) || (isFp8 q && isFp8 k && isFp8 v)

/-- Shape of Q, O and dO, and of K and V in dense mode (07 R179). -/
def attnShape (d : Desc) (dim rows heads : Nat) : Bool :=
  decide (d.rank = 3 ∧ d.d0 = dim ∧ d.d1 = rows ∧ d.d2 = heads)

/-! The fused arithmetic (07 R177, R191). -/

/-- Lists in pieces of 64. -/
def chunks64 {α : Type} : Nat → List α → List (List α)
  | 0, _ => []
  | n + 1, l => if l.isEmpty then [] else l.take 64 :: chunks64 n (l.drop 64)

/-- What a row holds between blocks: m, l and o. -/
structure AttnAcc where
  m : Nat
  l : Nat
  o : List Nat
  deriving DecidableEq, Repr

def f32NegInf : Nat := 0xFF800000
def f32Max (a b : Nat) : Nat := (exactBits fp32 ((fp32.decode a).maximum (fp32.decode b))).1
def f32Exp (a : Nat) : Nat := (vexp fp32 (fp32.decode a)).1
def f32Rcp (a : Nat) : Nat := (vrcp fp32 (fp32.decode a)).1

/-- The score of a query and a key. -/
def attnScore (scale : Nat) (q k : List Num) : Nat := f32Mul (blockSum q k).1 scale

/-- One block of keys: `ks` pairs each score with the value row. -/
def attnBlock (acc : AttnAcc) (ks : List (Nat × List Num)) : AttnAcc :=
  let mb := (ks.map (·.1)).foldl f32Max f32NegInf
  let m2 := f32Max acc.m mb
  if m2 = f32NegInf then acc
  else
    let a := if acc.m = f32NegInf then 0 else f32Exp (f32Sub acc.m m2)
    let p := ks.map (fun (s, _) => f32Exp (f32Sub s m2))
    let sum := (treeReduce Fl32.add 6 (p.map (fun x => { v := x }))).v
    let pn := p.map fp32.decode
    { m := m2, l := f32Add (f32Mul acc.l a) sum,
      o := (List.range acc.o.length).zip acc.o |>.map (fun (c, oc) =>
        f32Add (f32Mul oc a) (blockSum pn (ks.map (fun (_, v) => v.getD c (.fin false 0 0)))).1) }

/-- One output row: `seen` keys count, later ones are masked. -/
def attnRow (scale : Nat) (q : List Num) (keys vals : List (List Num)) (seen : Nat) : AttnAcc :=
  let ks := ((List.range keys.length).zip (keys.zip vals)).map (fun (j, k, v) =>
    (if j < seen then attnScore scale q k else f32NegInf, v))
  (chunks64 (ks.length + 1) ks).foldl attnBlock { m := f32NegInf, l := 0, o := List.replicate q.length 0 }

/-- The row as it leaves the engine, in FP32. -/
def attnOut (a : AttnAcc) : List Nat :=
  a.o.map (fun o => if fp32.decode a.l = .fin false 0 (fp32.emin - 23) then 0 else f32Mul o (f32Rcp a.l))

/-- The keys that query row `k` of `n` sees, of `keys`. -/
def attnSeen (causal : Bool) (keys n k : Nat) : Nat := if causal then keys + k + 1 - n else keys

def decRow (f : Fmt) (es : List Nat) : List Num := es.map f.read

/-- Write an output row and its statistics. -/
def attnPut (u : Nat) (o : Desc) (st : Option Desc) (r : Nat) (a : AttnAcc) : Eng Unit := do
  Eng.putRow u o r ((attnOut a).map (fun x => (toFmtBits o.fmt .rne false (fp32.decode x)).1))
  match st with
  | some d => Eng.putRow u d r [a.m, a.l]
  | none => pure ()

/-- Count multiply-accumulates and finished blocks of 64 keys (07 R195, 12 R341). -/
def Eng.attnCount (u rows keys d heads per : Nat) : Eng Unit := do
  let s ← get
  let s := s.setF (ATTN_MAC_CNT u) cnt64 (s.getF (ATTN_MAC_CNT u) cnt64 + per * rows * keys * d * heads)
  set (s.progress u (rows * heads * ((keys + 63) / 64)))

/-- FWD in dense mode. -/
def fwdDense (u : Nat) (b : List Nat) : Eng Nat := do
  let q ← Eng.slot b 0
  let k ← Eng.slot b 1
  let v ← Eng.slot b 2
  let o ← Eng.slot b 3
  let h := abHeads b
  Eng.need (attnShape q q.d0 q.d1 h && decide (q.d0 ≤ 128 ∧ q.d1 ≤ 65536) && attnShape k q.d0 k.d1 h &&
    decide (k.d1 ≤ 65536) && attnShape v q.d0 k.d1 h && attnShape o q.d0 q.d1 h) .badCommand
  Eng.need (attnFmts q.fmt k.fmt v.fmt && decide (Fmt.ofCode (fieldAt b 3 1) = some o.fmt)) .format
  let st ← if abStats b then do
      let d ← Eng.slot b 4
      Eng.need (attnShape d 2 q.d1 h) .badCommand
      Eng.need (decide (d.fmt = .fp32)) .format
      pure (some d)
    else pure none
  let qs ← Eng.rows u q
  let ks ← Eng.rows u k
  let vs ← Eng.rows u v
  Eng.for (fun r => do
    let hd := r / q.d1
    let keys := ((ks.drop (hd * k.d1)).take k.d1).map (decRow k.fmt)
    let vals := ((vs.drop (hd * k.d1)).take k.d1).map (decRow v.fmt)
    attnPut u o st r (attnRow (abScale b) (decRow q.fmt (qs.getD r [])) keys vals
      (attnSeen (abCausal b) k.d1 q.d1 (r % q.d1)))) q.rows 0
  Eng.attnCount u q.d1 k.d1 q.d0 h 2
  return 0

/-! FWD over contexts (07 R180). -/

def parseCtxEnts (l : List Nat) (n : Nat) : List CtxEnt :=
  (List.range n).map (fun i =>
    { ctx := fieldAt l (8 * i) 2, nq := fieldAt l (8 * i + 2) 2, gen := fieldAt l (8 * i + 4) 4 })

/-- An entry keeps 07 R180. -/
def ctxEntOk (e : CtxEnt) : Bool := decide (e.ctx ≤ 4103 ∧ 1 ≤ e.nq ∧ e.nq ≤ 64)

/-- Rows of keys that an entry sees. -/
def ctxKeys (b : List Nat) (x : Ctx) : Nat := if abTent b then x.tlen else x.len

/-- Byte offset in a row of head `h`'s key or value. -/
def headOff (b : List Nat) (val : Bool) (h : Nat) : Nat :=
  fieldAt b (if val then 0x1A else 0x18) 2 + h * fieldAt b 0x1C 2

/-- Keys or values of head `h` over rows `0 … n − 1` of a context. -/
def Eng.ctxRows (u : Nat) (b : List Nat) (x : Ctx) (q : Desc) (val : Bool) (h n : Nat) : Eng (List (List Num)) :=
  Eng.collect (fun r => do
    let s ← get
    let bs ← Eng.poolRead u (s.rowAddrOf x r + headOff b val h) q.rowBytes
    return ((List.range q.d0).map (elemAt q.fmt bs)).map q.fmt.read) n 0

/-- Write the keys and values of an entry's query rows into its last key rows (WRKV). -/
def Eng.wrkv (u : Nat) (b : List Nat) (x : Ctx) (q : Desc) (ks vs : List (List Nat))
    (heads row0 nq : Nat) : Eng Unit :=
  Eng.for (fun i => do
    let h := i / nq
    let j := i % nq
    let ke := ks.getD (row0 + j + h * q.d1) []
    let ve := vs.getD (row0 + j + h * q.d1) []
    let s ← get
    let a := s.rowAddrOf x (ctxKeys b x - nq + j)
    Eng.poolWrite u (a + headOff b false h) (packElems q.fmt ke)
    Eng.poolWrite u (a + headOff b true h) (packElems q.fmt ve)) (heads * nq) 0

/-- Row number of the first query of each entry. -/
def entStarts : Nat → List CtxEnt → List (Nat × CtxEnt)
  | _, [] => []
  | r, e :: t => (r, e) :: entStarts (r + e.nq) t

/-- The static checks of FWD over contexts: slots and list. -/
def fwdCtxSetup (u : Nat) (b : List Nat) : Eng (List CtxEnt) := do
  let q ← Eng.slot b 0
  let o ← Eng.slot b 3
  let h := abHeads b
  Eng.need (attnShape q q.d0 q.d1 h && decide (q.d0 ≤ 128 ∧ q.d1 ≤ 65536) && attnShape o q.d0 q.d1 h) .badCommand
  Eng.need (attnFmts q.fmt q.fmt q.fmt && decide (Fmt.ofCode (fieldAt b 3 1) = some o.fmt)) .format
  if abWrkv b then
    let k ← Eng.slot b 1
    let v ← Eng.slot b 2
    Eng.need (attnShape k q.d0 q.d1 h && attnShape v q.d0 q.d1 h) .badCommand
    Eng.need (decide (k.fmt = q.fmt ∧ v.fmt = q.fmt)) .format
  if abStats b then
    let d ← Eng.slot b 4
    Eng.need (attnShape d 2 q.d1 h) .badCommand
    Eng.need (decide (d.fmt = .fp32)) .format
  let l ← Eng.read u (fieldAt b 0x20 8) (8 * abCount b)
  let es := parseCtxEnts l (abCount b)
  Eng.need (es.all ctxEntOk && decide ((es.map (·.nq)).foldl (· + ·) 0 = q.d1)) .badCommand
  return es

/-- Every key and value span lies in the row, and WRKV finds rows enough. -/
def State.spansOk (s : State) (b : List Nat) (q : Desc) (e : CtxEnt) : Bool :=
  let x := s.ctxOf e.ctx
  (List.range (abHeads b)).all (fun h =>
    decide (headOff b false h + q.rowBytes ≤ s.ctxRow x.kind ∧ headOff b true h + q.rowBytes ≤ s.ctxRow x.kind)) &&
  (!abWrkv b || decide (e.nq ≤ ctxKeys b x))

/-- FWD over granted contexts. -/
def fwdCtx (u : Nat) (b : List Nat) (es : List CtxEnt) : Eng Nat := do
  let q ← Eng.slot b 0
  let o ← Eng.slot b 3
  let st ← if abStats b then do let d ← Eng.slot b 4; pure (some d) else pure none
  let s ← get
  Eng.need (es.all (s.spansOk b q)) .badCommand
  Eng.need (es.all (fun e => s.poolOk u (s.ctxOf e.ctx) false && (!abWrkv b || s.poolOk u (s.ctxOf e.ctx) true))) .access
  let starts := entStarts 0 es
  let rows := fun (i : Nat) => do let d ← Eng.slot b i; Eng.rows u d
  let qs ← Eng.rows u q
  let ks ← if abWrkv b then rows 1 else pure []
  let vs ← if abWrkv b then rows 2 else pure []
  if abWrkv b then
    Eng.for (fun i => do
      let (r0, e) := starts.getD i (0, { ctx := 0, nq := 1, gen := 0 })
      let s ← get
      Eng.wrkv u b (s.ctxOf e.ctx) q ks vs (abHeads b) r0 e.nq) starts.length 0
  Eng.for (fun i => do
    let (r0, e) := starts.getD (i / abHeads b) (0, { ctx := 0, nq := 1, gen := 0 })
    let h := i % abHeads b
    let s ← get
    let x := s.ctxOf e.ctx
    let n := ctxKeys b x
    let keys ← Eng.ctxRows u b x q false h n
    let vals ← Eng.ctxRows u b x q true h n
    Eng.for (fun j => do
      let r := r0 + j + h * q.d1
      attnPut u o st r (attnRow (abScale b) (decRow q.fmt (qs.getD r [])) keys vals
        (attnSeen (abCausal b) n e.nq j))) e.nq 0
    Eng.attnCount u e.nq n q.d0 1 2) (starts.length * abHeads b) 0
  return 0

/-! BWD (07 R191). -/

/-- A sum over indices: exact within aligned blocks of 64, block sums added in ascending order. -/
def blockedSum (as bs : List Num) : Nat :=
  ((chunks64 (as.length + 1) (as.zip bs)).foldl (fun acc c => f32Add acc (blockSum (c.map (·.1)) (c.map (·.2))).1) 0)

def bwdCmdRun (u : Nat) (b : List Nat) : Eng Nat := do
  let q ← Eng.slot b 0
  let k ← Eng.slot b 1
  let v ← Eng.slot b 2
  let o ← Eng.slot b 3
  let st ← Eng.slot b 4
  let dO ← Eng.slot b 5
  let dq ← Eng.slot b 6
  let dk ← Eng.slot b 7
  let dv ← Eng.slot b 8
  let h := abHeads b
  Eng.need (attnShape q q.d0 q.d1 h && decide (q.d0 ≤ 128 ∧ q.d1 ≤ 65536) && attnShape k q.d0 k.d1 h &&
    decide (k.d1 ≤ 65536) && attnShape v q.d0 k.d1 h && attnShape o q.d0 q.d1 h && attnShape st 2 q.d1 h &&
    attnShape dO q.d0 q.d1 h && attnShape dq q.d0 q.d1 h && attnShape dk q.d0 k.d1 h && attnShape dv q.d0 k.d1 h)
    .badCommand
  let outOk := fun (f : Fmt) => isFp8 f || decide (f = .bf16 ∨ f = .fp32)
  Eng.need (attnFmts q.fmt k.fmt v.fmt && outOk o.fmt && outOk dO.fmt &&
    decide (st.fmt = .fp32 ∧ dq.fmt = .fp32 ∧ dk.fmt = .fp32 ∧ dv.fmt = .fp32)) .format
  let qs ← Eng.rows u q
  let ks ← Eng.rows u k
  let vs ← Eng.rows u v
  let os ← Eng.rows u o
  let ss ← Eng.rows u st
  let gs ← Eng.rows u dO
  let n := q.d1
  let m := k.d1
  let sc := abScale b
  Eng.for (fun hd => do
    let part := fun (l : List (List Nat)) (c : Nat) (f : Fmt) => ((l.drop (hd * c)).take c).map (decRow f)
    let q' := part qs n q.fmt
    let k' := part ks m k.fmt
    let v' := part vs m v.fmt
    let o' := part os n o.fmt
    let g' := part gs n dO.fmt
    let s' := (ss.drop (hd * n)).take n
    let pm : List (List Nat) := (List.range n).map (fun i => (List.range m).map (fun j =>
      let st := s'.getD i []
      let l := st.getD 1 0
      if fp32.decode l = .fin false 0 (fp32.emin - 23) then 0
      else
        let s := if j < attnSeen (abCausal b) m n i then attnScore sc (q'.getD i []) (k'.getD j []) else f32NegInf
        f32Mul (f32Exp (f32Sub s (st.getD 0 0))) (f32Rcp l)))
    let ds : List (List Nat) := (List.range n).map (fun i =>
      let di := (blockSum (g'.getD i []) (o'.getD i [])).1
      (List.range m).map (fun j =>
        f32Mul ((pm.getD i []).getD j 0) (f32Sub (blockSum (g'.getD i []) (v'.getD j [])).1 di)))
    let col := fun (x : List (List Num)) (c : Nat) => x.map (fun r => r.getD c (.fin false 0 0))
    let colN := fun (x : List (List Nat)) (j : Nat) => x.map (fun r => fp32.decode (r.getD j 0))
    Eng.for (fun i => Eng.putRow u dq (i + hd * n) ((List.range q.d0).map (fun c =>
      f32Mul sc (blockedSum ((ds.getD i []).map fp32.decode) (col k' c))))) n 0
    Eng.for (fun j => do
      Eng.putRow u dk (j + hd * m) ((List.range q.d0).map (fun c => f32Mul sc (blockedSum (colN ds j) (col q' c))))
      Eng.putRow u dv (j + hd * m) ((List.range q.d0).map (fun c => blockedSum (colN pm j) (col g' c)))) m 0) h 0
  Eng.attnCount u n m q.d0 h 5
  return 0

/-! Context operations (07 R187). -/

/-- The bits of the result that describe a context (07 R181). -/
def ctxResult (x : Ctx) : Nat := x.gen * 2 ^ 32 + x.len * 65536 + (x.tlen - x.len) * 4096

/-- The generation and the kind that an operation requires of context `n`. -/
def State.ctxVerdict (s : State) (n gen : Nat) (kinds : List Nat) : Option EErr :=
  let x := s.ctxOf n
  if x.kind = 0 ∨ x.gen ≠ gen then some .stale
  else if !kinds.contains x.kind then some .kind
  else none

/-- What a context command, as opposed to FWD, requires at the grant. -/
def State.opVerdict (s : State) (u : Nat) (b : List Nat) : Option EErr :=
  let n := abCtx b
  let gen := fieldAt b 0x10 4
  if s.foreignTable u then some .kind
  else
    match abOpc b with
    | 0x10 => if s.ctxSplit ≤ n ∧ n < 4096 ∧ (s.ctxOf n).kind = 0 then none else some .kind
    | 0x11 => s.ctxVerdict n gen (if abTent b then [2] else [1, 2])
    | 0x13 =>
      match s.ctxVerdict n gen [2] with
      | some e => some e
      | none => s.ctxVerdict (abCtx2 b) (fieldAt b 0x14 4) [2]
    | _ => s.ctxVerdict n gen [2]

/-- A context with one row more: in a full TRACK context it pushes the oldest out. -/
def Ctx.grown (x : Ctx) (cap : Nat) (tent : Bool) : Ctx :=
  let x := if x.tlen < cap then { x with tlen := x.tlen + 1 } else { x with start := (x.start + 1) % cap }
  if tent then x else { x with len := x.tlen }

/-- Write rows at the end of a context, one at a time; the context as it is then. -/
def Eng.appendRows (u : Nat) (tent : Bool) (x : Ctx) (data : List (List Nat)) : Eng Ctx :=
  Eng.fold (fun x row => do
    let s ← get
    let x := x.grown (s.ctxCap x.kind) tent
    Eng.poolWrite u (s.rowAddrOf x (x.tlen - 1)) (byteList row)
    return x) x data

/-- CTX_APPEND. -/
def ctxAppendRun (u : Nat) (b : List Nat) : Eng Nat := do
  let s ← get
  let n := abCtx b
  let x := s.ctxOf n
  let rows := abCount b
  if abTent b then
    Eng.need (decide (x.tlen + rows ≤ x.len + 4)) .draft
    Eng.need (decide (x.tlen + rows ≤ s.ctxCap 2)) .full
  else
    Eng.need (decide (x.tlen = x.len)) .draft
    Eng.need (decide (x.kind = 1 ∨ x.len + rows ≤ s.ctxCap 2)) .full
  let row := s.ctxRow x.kind
  let data ← if abWrkv b then pure (List.replicate rows (List.replicate row 0)) else do
    let d ← Eng.slot b 0
    Eng.need (decide (d.fmt = .int8)) .format
    Eng.need (decide (d.d0 = row ∧ d.d1 = rows ∧ d.d2 = 1 ∧ d.d3 = 1)) .badCommand
    Eng.rows u d
  let x ← Eng.appendRows u (abTent b) x data
  modify (fun s => s.setCtx n x)
  return 0

/-- CTX_COMMIT. -/
def ctxCommitRun (b : List Nat) : Eng Nat := do
  let s ← get
  let n := abCtx b
  let x := s.ctxOf n
  Eng.need (decide (abCount b ≤ x.tlen - x.len)) .draft
  let len := x.len + abCount b
  set (s.setCtx n (if len < x.tlen then { x with len := len, tlen := len, gen := (x.gen + 1) % 2 ^ 32 }
    else { x with len := len }))
  return 0

/-- CTX_FORK. -/
def ctxForkRun (u : Nat) (b : List Nat) : Eng Nat := do
  let s ← get
  let x := s.ctxOf (abCtx b)
  let y := s.ctxOf (abCtx2 b)
  Eng.need (decide (x.tlen = x.len)) .draft
  Eng.need (s.poolOk u x false) .access
  let y' := { y with len := x.len, tlen := x.len, start := 0, gen := (y.gen + 1) % 2 ^ 32 }
  Eng.for (fun r => do
    let s ← get
    let d ← Eng.poolRead u (s.rowAddrOf x r) (s.ctxRow 2)
    Eng.poolWrite u (s.rowAddrOf y' r) (byteList d)) x.len 0
  modify (fun s => s.setCtx (abCtx2 b) y')
  return 0

/-- The effect of a granted context operation. -/
def ctxOpRun (u : Nat) (b : List Nat) : Eng Nat :=
  match abOpc b with
  | 0x10 => do modify (fun s => s.bindCtx (abCtx b) 2 0); return 0
  | 0x11 => ctxAppendRun u b
  | 0x12 => ctxCommitRun b
  | 0x13 => ctxForkRun u b
  | _ => do modify (fun s => s.freeCtx (abCtx b)); return 0

/-- End a context operation: the result describes CTX as it stands. -/
def State.ctxOpEnd (s : State) (u : Nat) (b : List Nat) (status : Nat) : State :=
  s.engEnd u status (ctxResult (s.ctxOf (abCtx b)))

/-- Run a command whose registrations are all granted: FWD over contexts, or a context operation. Generations and kinds are
those of now, the contexts those that the set-up read (07 R186). -/
def State.ctxRun (s : State) (u : Nat) (c : CtxCmd) : State :=
  let b := c.blk
  if abOpc b = 1 then
    let verdict := fun (i : Nat) =>
      match c.names[i]? with
      | none => none
      | some e => if s.foreignTable u then some EErr.kind else s.ctxVerdict e.ctx e.gen [1, 2, 3]
    match (List.range c.names.length).findSome? (fun i => (verdict i).map (fun e => (i, e))) with
    | some (i, e) => s.engEnd u (e.code u) (i * 65536)
    | none => s.engRun u (fwdCtx u b c.names)
  else
    match s.opVerdict u b with
    | some e => s.ctxOpEnd u b (e.code u)
    | none =>
      match (ctxOpRun u b).run s with
      | .ok _ s => s.ctxOpEnd u b 0
      | .error e s => s.ctxOpEnd u b (e.code u)

/-- Readers are FWD without WRKV (07 R186). -/
def abWriter (b : List Nat) : Bool := decide (abOpc b ≠ 1) || abWrkv b

/-- Ask the homes that are left, and run the command once all have granted. -/
def State.ctxAdvance (s : State) (u : Nat) (c : CtxCmd) : State :=
  let (s, homes, ok) := s.askHomes u (abWriter c.blk) (c.names.map (·.ctx)) c.homes
  if ok then s.ctxRun u c else { s with ctxCmds := Tab.insert s.ctxCmds u { c with homes := homes } }

/-- What a command of block `b` names: the entries of its context list, or the contexts of its header. -/
def attnNames (u : Nat) (b : List Nat) : Eng (List CtxEnt) := do
  Eng.need (abHeaderOk b) .badCommand
  if abOpc b = 1 ∧ abCtxMode b then fwdCtxSetup u b
  else
    let x : CtxEnt := { ctx := abCtx b, gen := fieldAt b 0x10 4 }
    return if abOpc b = 0x13 then [x, { ctx := abCtx2 b, gen := fieldAt b 0x14 4 }] else if 0x10 ≤ abOpc b then [x] else []

def isAttn (u : Nat) : Bool := decide (48 ≤ u ∧ u < 52)

/-- The command in progress on engine `u` is one of opcode `opc`, or of no opcode that exists. -/
def State.engTakes (s : State) (it : WorkItem) (opcs : List Nat) (opc : Nat) : Bool :=
  decide (s.engOpc it = opc) || !opcs.contains (s.engOpc it)

/-- Engine `u` runs the command of opcode `opc` that it has in progress, or registers for it. -/
def attnCmd (opc u : Nat) (s : State) : State :=
  match s.engItem u with
  | none => s
  | some it =>
    if !isAttn u || !s.engTakes it attnOpcs opc || (Tab.find s.ctxCmds u).isSome then s
    else
      match (Eng.block u it.prog 640).run s with
      | .error e s => s.engEnd u (e.code u) 0
      | .ok b s =>
        match (attnNames u b).run s with
        | .error e s => if 0x10 ≤ abOpc b ∧ abOpc b ≤ 0x14 then s.ctxOpEnd u b (e.code u) else s.engEnd u (e.code u) 0
        | .ok names s =>
          if names = [] then s.engRun u (if abOpc b = 1 then fwdDense u b else bwdCmdRun u b)
          else s.ctxAdvance u { blk := b, names := names, homes := s.homesOf (names.map (·.ctx)) }

def execFwd (u : Nat) (s : State) : Host.Outcome State Fault Refusal := .next (attnCmd 1 u s)
def execBwd (u : Nat) (s : State) : Host.Outcome State Fault Refusal := .next (attnCmd 2 u s)
def execCtxBind (u : Nat) (s : State) : Host.Outcome State Fault Refusal := .next (attnCmd 0x10 u s)
def execCtxAppend (u : Nat) (s : State) : Host.Outcome State Fault Refusal := .next (attnCmd 0x11 u s)
def execCtxCommit (u : Nat) (s : State) : Host.Outcome State Fault Refusal := .next (attnCmd 0x12 u s)
def execCtxFork (u : Nat) (s : State) : Host.Outcome State Fault Refusal := .next (attnCmd 0x13 u s)
def execCtxRelease (u : Nat) (s : State) : Host.Outcome State Fault Refusal := .next (attnCmd 0x14 u s)

/-- The registrations of Attention engine `u` that wait are granted, and its command goes on (07 R186). -/
def contextGrant (u : Nat) (s : State) : State :=
  match s.engItem u, Tab.find s.ctxCmds u with
  | some _, some c =>
    if regsGrantable u [] s.ctxRegs then
      ({ s with ctxCmds := Tab.erase s.ctxCmds u }.grantCtx u).ctxAdvance u c
    else s
  | _, _ => s

/-! Registers (07 R195 to R197). -/

/-- No context of kind TRACK or PLAN is bound. -/
def State.ctxIdle (s : State) : Bool := s.ctx.all (fun (_, x) => decide (x.kind ≠ 1 ∧ x.kind ≠ 2))

/-- ATTN_CFG_WRITE: a write of ATTN_CFG (`pool` false) or ATTN_POOL of engine `u`. Fields outside their range
leave the register unchanged. -/
def attnCfgWrite (who : Who) (u : Nat) (pool : Bool) (w : Nat) (s : State) : State :=
  if who ≠ .islandA then s.refuseAccess
  else if !isAttn u || !s.ctxIdle then s
  else if pool then
    if (apPAGES.of w + 1) % 4 ≠ 0 then s else s.loadF (ATTN_POOL u) [apPAGES, apPOOL] w
  else if acSPLIT.of w > 4096 ∨ acSPLIT.of w % 4 ≠ 0 ∨ acLROWT.of w < 6 ∨ acLROWT.of w > 16 ∨ acLROWP.of w < 6 ∨
      acLROWP.of w > 16 then s
  else s.loadF (ATTN_CFG u) [acSPLIT, acCAPT, acLROWT, acCAPP, acLROWP] w

def execAttnCfgWrite (who : Who) (u : Nat) (pool : Bool) (w : Nat) (s : State) : Host.Outcome State Fault Refusal :=
  .next (attnCfgWrite who u pool w s)

/-- The 64 bytes of a context entry (07 R184). -/
def ctxBytes (x : Ctx) : List Nat :=
  bytesOf 4 x.gen ++ bytesOf 2 x.len ++ bytesOf 2 x.tlen ++ bytesOf 2 x.start ++ bytesOf 1 x.kind ++
  bytesOf 1 x.pages.length ++ bytesOf 4 x.trackId ++ bytesOf 16 0 ++
  (List.range 16).flatMap (fun i => bytesOf 2 (x.pages.getD i 0))

/-- ATTN_CTX_SEL: capture an entry of this replica. -/
def attnCtxSel (who : Who) (u w : Nat) (s : State) : State :=
  let ok := match who with
    | .islandA => true
    | .runtime p => decide (s.attnHolder = some p)
    | _ => false
  if !ok then s.refuseAccess
  else if !isAttn u then s
  else
    let b := ctxBytes (s.ctxAt u (asCTX.of w))
    let s := s.setF (ATTN_CTX_SEL u) asCTX (asCTX.of w)
    (List.range 8).foldl (fun s i => s.setF (ATTN_CTX_D u i) cnt64 (fieldAt b (8 * i) 8)) s

def execAttnCtxSel (who : Who) (u w : Nat) (s : State) : Host.Outcome State Fault Refusal :=
  .next (attnCtxSel who u w s)

end Sys2Proof.Machine
end

