-- ==== Sys2Proof/Machine/Real.lean ====
section
/-! DEFINITION. Arithmetic of one format on encodings, and the real functions that the spec bounds or defines up to
rounding: sine, cosine, arc tangent, rotations (07 R193; 08 R216 to R231; 09 R241, R256 to R261; log 82). -/

namespace Sys2Proof.Machine

/-! Arithmetic of one format, on encodings. -/

def FFmt.add (f : FFmt) (a b : Nat) : Nat := (addNum f (f.decode a) (f.decode b)).1
def FFmt.minus (f : FFmt) (a b : Nat) : Nat := (addNum f (f.decode a) (f.decode b).negate).1
def FFmt.mul (f : FFmt) (a b : Nat) : Nat := (mulRound f (f.decode a) (f.decode b)).1
def FFmt.div (f : FFmt) (a b : Nat) : Nat := (divRound f (f.decode a) (f.decode b)).1
def FFmt.sqrt (f : FFmt) (a : Nat) : Nat := (sqrtRound f (f.decode a)).1
def FFmt.lt (f : FFmt) (a b : Nat) : Bool := (f.decode a).lt (f.decode b)
def FFmt.le (f : FFmt) (a b : Nat) : Bool := f.lt a b || (f.decode a).eqv (f.decode b)
def FFmt.neg (f : FFmt) (a : Nat) : Nat := (a + 2 ^ (f.ew + f.mw)) % 2 ^ (f.ew + f.mw + 1)
def FFmt.abs (f : FFmt) (a : Nat) : Nat := a % 2 ^ (f.ew + f.mw)
def FFmt.min (f : FFmt) (a b : Nat) : Nat := if f.lt b a then b else a
def FFmt.clamp (f : FFmt) (a lo hi : Nat) : Nat := if f.lt a lo then lo else if f.lt hi a then hi else a
/-- The value nearest to `n / d`. -/
def FFmt.rat (f : FFmt) (n : Int) (d : Nat) : Nat := (divRound f (ofSigned n 0) (ofSigned d 0)).1
/-- An FP32 value in the format. -/
def FFmt.of32 (f : FFmt) (v : Nat) : Nat := (roundNum f (fp32.decode v)).1
def FFmt.sign (f : FFmt) (a : Nat) : Int := if f.lt 0 a then 1 else if f.lt a 0 then -1 else 0
/-- A sum from left to right. -/
def FFmt.sum (f : FFmt) (l : List Nat) : Nat := l.foldl f.add 0

/-- The floor of a finite value. -/
def FFmt.floor (f : FFmt) (a : Nat) : Option Int :=
  match f.decode a with
  | .fin n m e => some (if 0 ≤ e then signInt n (m * 2 ^ e.toNat) else signInt n m / 2 ^ (-e).toNat)
  | _ => none

/-- The ceiling of a finite value. -/
def FFmt.ceil (f : FFmt) (a : Nat) : Option Int := (f.floor (f.neg a)).map (fun v => -v)

/-- A binary64 value in FP32. -/
def to32 (v : Nat) : Nat := f32OfNum (fp64.decode v)

/-! Values up to rounding. -/

/-- The encoding `d` representable values above `b` (below for negative `d`); NaN, infinity and zero stay. -/
def FFmt.step (f : FFmt) (b : Nat) (d : Int) : Nat :=
  match f.decode b with
  | .fin n m _ =>
    if m = 0 then b
    else
      let v := signInt n (f.abs b) + d
      f.signed (decide (v < 0)) v.natAbs
  | _ => b

/-- A value whose definition the spec gives and whose rounding it does not: the exact one rounded to nearest, moved by a
free number of at most eight representable values (log 82). `tag` and `args` say which value it is. -/
def FFmt.near (f : FFmt) (tag : Nat) (args : List Nat) (x : Num) : Nat :=
  f.step (roundNum f x).1 ((Config.slack tag args % 17 : Nat) - 8)

/-- An FP32 value near a binary64 one. -/
def near32 (tag : Nat) (args : List Nat) (x : Nat) : Nat := fp32.near tag args (fp64.decode x)
/-- A binary64 value near another. -/
def near64 (tag : Nat) (args : List Nat) (x : Nat) : Nat := fp64.near tag args (fp64.decode x)

/-- FP32 values of a tag near binary64 ones. -/
def nearAll (tag : Nat) (args l : List Nat) : List Nat := l.zipIdx.map (fun (v, i) => near32 tag (i :: args) v)

/-- The candidate `c` lies within one unit in the last place of the exact value `v * 2^-p`. -/
def FFmt.withinUlp (f : FFmt) (c : Nat) (v : Int) (p : Nat) : Bool :=
  match f.decode c with
  | .fin n m e =>
    let u := max (floorLog2 v.natAbs (-(p : Int))) f.emin - f.mw
    let k := Min.min (Min.min e u) (-(p : Int))
    decide ((signInt n m * 2 ^ (e - k).toNat - v * 2 ^ (-(p : Int) - k).toNat).natAbs ≤ 2 ^ (u - k).toNat)
  | _ => false

/-- A value that the spec holds to 1 unit in the last place: a free one of those nearest to `v * 2^-p` (08 R220). -/
def FFmt.ulp1 (f : FFmt) (tag : Nat) (args : List Nat) (v : Int) (p : Nat) : Nat :=
  let r := (roundNum f (ofSigned v (-(p : Int)))).1
  let c := f.step r ((Config.slack tag args % 3 : Nat) - 1)
  if f.withinUlp c v p then c else r

/-! Fixed point: `v` at `p` fraction bits stands for `v / 2^p`. -/

def fxMul (p : Nat) (a b : Int) : Int := a * b / 2 ^ p
def fxDiv (p : Nat) (a b : Int) : Int := a * 2 ^ p / b

/-- `n` terms of the arc tangent's series from the term of index `k`, whose power is `w`; `t2` is the square. -/
def atanTerms (p : Nat) (t2 : Int) : Nat → Nat → Int → Int
  | 0, _, _ => 0
  | n + 1, k, w => w / (2 * k + 1 : Nat) - atanTerms p t2 n (k + 1) (fxMul p w t2)

/-- π by Machin's formula. -/
def piFx (p : Nat) : Int :=
  let inv := fun (d : Nat) => atanTerms p (2 ^ p / (d * d : Nat)) (p / 4 + 2) 0 (2 ^ p / (d : Int))
  16 * inv 5 - 4 * inv 239

/-- `n` terms of a series whose term `w` of degree `k` is followed by `-w x² / ((k + 1)(k + 2))`. -/
def trigTerms (p : Nat) (x2 : Int) : Nat → Nat → Int → Int
  | 0, _, _ => 0
  | n + 1, k, w => w - trigTerms p x2 n (k + 2) (fxMul p w x2 / ((k + 1) * (k + 2) : Nat))

/-- Sine, or cosine, of a finite number, with its fraction bits. -/
def trigFx (cos : Bool) (n : Bool) (m : Nat) (e : Int) : Int × Nat :=
  let p := 260 + e.natAbs
  let pi := piFx p
  let r := signInt n (m * 2 ^ (e + p).toNat) % (2 * pi)
  let r := if pi < r then r - 2 * pi else r
  (trigTerms p (fxMul p r r) (p / 8 + 20) (if cos then 0 else 1) (if cos then 2 ^ p else r), p)

/-- The arc tangent of `t`, 0 ≤ t ≤ 1: the argument is halved three times. -/
def atanFx (p : Nat) (t : Int) : Int :=
  let half := fun (t : Int) => fxDiv p t (2 ^ p + isqrt ((2 ^ p + fxMul p t t).toNat * 2 ^ p))
  let u := half (half (half t))
  8 * atanTerms p (fxMul p u u) (p / 5 + 4) 0 u

/-- The angle of the point `(x, y)` in −π to π, integers of one scale. -/
def atan2Fx (p : Nat) (y x : Int) : Int :=
  let ay : Int := y.natAbs
  let ax : Int := x.natAbs
  let a := if ax = 0 ∧ ay = 0 then 0
    else if ay ≤ ax then atanFx p (fxDiv p ay ax)
    else piFx p / 2 - atanFx p (fxDiv p ax ay)
  let a := if x < 0 then piFx p - a else a
  if y < 0 then -a else a

/-! Sine, cosine and arc tangent of the engines (FP32) and of the islands' code (binary64). -/

/-- Sine or cosine. FP32 is held to 1 unit in the last place (08 R220); of binary64 the spec gives no bound (log 82). -/
def FFmt.trig (f : FFmt) (cos : Bool) (a : Nat) : Nat :=
  match f.decode a with
  | .fin n m e =>
    let (v, p) := trigFx cos n m e
    if f.mw = 23 then f.ulp1 (cos.toNat) [a] v p else f.near (cos.toNat) [a] (ofSigned v (-(p : Int)))
  | _ => f.nanBits false

def FFmt.sin (f : FFmt) (a : Nat) : Nat := f.trig false a
def FFmt.cos (f : FFmt) (a : Nat) : Nat := f.trig true a

/-- The arc tangent of two values (08 R231). -/
def FFmt.atan2 (f : FFmt) (y x : Nat) : Nat :=
  match f.decode y, f.decode x with
  | .fin ny my ey, .fin nx mx ex =>
    let e := Min.min ey ex
    let p := 260 + (ey - ex).natAbs
    f.near 2 [y, x] (ofSigned (atan2Fx p (signInt ny (my * 2 ^ (ey - e).toNat)) (signInt nx (mx * 2 ^ (ex - e).toNat))) (-(p : Int)))
  | _, _ => f.nanBits false

/-! Vectors and rotations in binary64. -/

/-- The length of a vector. -/
def norm64 (l : List Nat) : Nat := fp64.sqrt (fp64.sum (l.map (fun x => fp64.mul x x)))

/-- The unit quaternion (w, x, y, z) of a rotation vector. -/
def quatOf (r : List Nat) : List Nat :=
  let a := norm64 r
  let h := fp64.mul (fp64.rat 1 2) a
  let k := if fp64.lt 0 a then fp64.div (fp64.sin h) a else fp64.rat 1 2
  fp64.cos h :: r.map (fun x => fp64.mul k x)

/-- The product of two quaternions. -/
def quatMul (p q : List Nat) : List Nat :=
  let g := fun (i j : Nat) => fp64.mul (p.getD i 0) (q.getD j 0)
  [fp64.minus (fp64.minus (fp64.minus (g 0 0) (g 1 1)) (g 2 2)) (g 3 3),
   fp64.minus (fp64.sum [g 0 1, g 1 0, g 2 3]) (g 3 2),
   fp64.minus (fp64.sum [g 0 2, g 2 0, g 3 1]) (g 1 3),
   fp64.minus (fp64.sum [g 0 3, g 3 0, g 1 2]) (g 2 1)]

/-- The inverse of a unit quaternion. -/
def quatInv (q : List Nat) : List Nat := q.getD 0 0 :: (q.drop 1).map fp64.neg

/-- The rotation vector of a unit quaternion, of the angle in 0 to π. -/
def rotVec (q : List Nat) : List Nat :=
  let q := if fp64.lt (q.getD 0 0) 0 then q.map fp64.neg else q
  let v := (q.drop 1).take 3
  let n := norm64 v
  let k := if fp64.lt 0 n then fp64.div (fp64.mul (fp64.rat 2 1) (fp64.atan2 n (q.getD 0 0))) n else fp64.rat 2 1
  v.map (fun x => fp64.mul k x)

/-- A point and heading (x, y, th) given in the frame of pose `old`, in the frame of pose `new` (09 R258). -/
def moveFrame (old new pt : List Nat) : List Nat :=
  let g := fun (l : List Nat) (i : Nat) => l.getD i 0
  let turn := fun (a x y : Nat) =>
    (fp64.minus (fp64.mul x (fp64.cos a)) (fp64.mul y (fp64.sin a)), fp64.add (fp64.mul x (fp64.sin a)) (fp64.mul y (fp64.cos a)))
  let w := turn (g old 2) (g pt 0) (g pt 1)
  let n := turn (fp64.neg (g new 2)) (fp64.minus (fp64.add (g old 0) w.1) (g new 0))
    (fp64.minus (fp64.add (g old 1) w.2) (g new 1))
  let r := [n.1, n.2, fp64.minus (fp64.add (g pt 2) (g old 2)) (g new 2)]
  r.zipIdx.map (fun (v, i) => near64 3 (i :: old ++ new ++ pt) v)

/-- Linear interpolation between two values at the fraction `n / d` (09 R258). -/
def lerp (a b n d : Nat) : Nat :=
  near64 4 [a, b, n, d] (fp64.add a (fp64.mul (fp64.minus b a) (fp64.rat n d)))

end Sys2Proof.Machine
end

