-- ==== Sys2Proof/Machine/GridEngine.lean ====
section
/-! DEFINITION. The Grid engines: LIFT, SCATTER, RASTER, and the sectors of the vehicle frame (08 R215 to R223). -/

namespace Sys2Proof.Machine

/-! Sectors (08 R216). -/

/-- The boundary direction of sector `s`: cosine and sine rounded to binary64, over `2^-55`. -/
def sectorDir (s : Nat) : Int × Int :=
  let c0 : Int := 8834128446708912 * 4
  let c1 : Int := 7489212472271267 * 4
  let c2 : Int := 5004131788810440 * 4
  let c3 : Int := 7028869612283403
  [(c0, -c3), (c0, c3), (c1, c2), (c2, c1), (c3, c0), (-c3, c0), (-c2, c1), (-c1, c2), (-c0, c3), (-c0, -c3),
   (-c1, -c2), (-c2, -c1), (-c3, -c0), (c3, -c0), (c2, -c1), (c1, -c2)].getD s (c0, -c3)

/-- A finite number as an integer over `2^e`, where `e` is at most its exponent. -/
def numOver (e : Int) : Num → Int
  | .fin n m k => signInt n (m * 2 ^ (k - e).toNat)
  | _ => 0

def Num.expOf : Num → Int
  | .fin _ _ k => k
  | _ => 0

/-- The sector of a point: counter-clockwise of or on its own boundary, and clockwise of the next. -/
def sectorOf (x y : Num) : Nat :=
  let e := min x.expOf y.expOf
  let px := numOver e x
  let py := numOver e y
  let cross := fun (s : Nat) => (sectorDir (s % 16)).1 * py - (sectorDir (s % 16)).2 * px
  if px = 0 ∧ py = 0 then 0
  else ((List.range 16).find? (fun s => decide (0 ≤ cross s ∧ cross (s + 1) < 0))).getD 0

/-! The command block (08 R217). -/

def isGrid (u : Nat) : Bool := decide (52 ≤ u ∧ u < 56)

def gbOpc (b : List Nat) : Nat := fieldAt b 0 1
def gbRow0 (b : List Nat) : Nat := fieldAt b 2 2
def gbRows (b : List Nat) : Nat := fieldAt b 4 2
def gbOut (b : List Nat) : Nat := fieldAt b 8 8
def gbCh0 (b : List Nat) : Nat := fieldAt b 0x14 1
def gbNch (b : List Nat) : Nat := fieldAt b 0x15 1
def gbIn (b : List Nat) : Nat := fieldAt b 0x18 8
def gbIn2 (b : List Nat) : Nat := fieldAt b 0x20 8

/-- OUTFMT of LIFT and SCATTER. -/
def gbFmt (b : List Nat) : Fmt := if fieldAt b 1 1 = 1 then .int8 else .e4m3

/-- The header breaks no rule beside formats. -/
def gridHeaderOk (b : List Nat) : Bool :=
  let o := gbOpc b
  decide (1 ≤ o ∧ o ≤ 3) && decide (gbRow0 b + gbRows b ≤ (if o = 3 then 1024 else 512)) && zeroBytes b 6 2 &&
  addrField b 8 64 && (decide (o = 1) || zeroBytes b 0x10 4) &&
  (if o = 3 then decide (gbCh0 b + gbNch b ≤ 128 ∧ gbNch b = 0)
   else decide (1 ≤ gbNch b ∧ gbCh0 b + gbNch b ≤ 128) && (decide (o = 1) || decide (gbNch b = 5))) &&
  zeroBytes b 0x16 2 && addrField b 0x18 1 && addrField b 0x20 1 && (decide (o = 3) || zeroBytes b 0x20 8) &&
  zeroBytes b 0x28 24

/-- OUTFMT is one the opcode permits. -/
def gridFmtOk (b : List Nat) : Bool :=
  if gbOpc b = 3 then decide (fieldAt b 1 1 = 0) else decide (fieldAt b 1 1 = 1 ∨ fieldAt b 1 1 = 6)

/-- An FP32 encoding of `n / d` for `d` a power of two. -/
def f32Of (n : Int) (e : Int) : Nat := f32OfNum (ofSigned n e)

/-- Convert an FP32 value to a feature byte (RNE, saturating). -/
def gridByte (f : Fmt) (v : Nat) : Nat := (toFmtBits f .rne false (fp32.decode v)).1

/-- Write the feature bytes of one cell. -/
def gridCell (u : Nat) (b : List Nat) (r c : Nat) (l : List Nat) : Eng Unit :=
  Eng.write u (gbOut b + (r * 256 + c) * 128 + gbCh0 b) (byteList l)

/-- A row of the output is finished (08 R223, 12 R341). -/
def Eng.gridRow (u : Nat) : Eng Unit :=
  modify (fun s => (s.setF (GRID_STATUS u) gsROWS (s.getF (GRID_STATUS u) gsROWS + 1)).progress u 1)

def Eng.gridCount (u n : Nat) : Eng Unit :=
  modify (fun s => s.setF (GRID_SAMPLE_CNT u) cnt64 (s.getF (GRID_SAMPLE_CNT u) cnt64 + n))

/-! LIFT (08 R218). -/

/-- A geometry entry: R row-major, t, FX, FY, CX, CY. -/
def geomAt (g : List Nat) (cam i : Nat) : Nat := fieldAt g (64 * cam + 4 * i) 4

/-- Camera coordinates of a vehicle-frame point: `(q0, q1, q2)` of 08 R218. -/
def liftPoint (g : List Nat) (cam x y z : Nat) : List Nat :=
  let d := [f32Sub x (geomAt g cam 9), f32Sub y (geomAt g cam 10), f32Sub z (geomAt g cam 11)]
  (List.range 3).map (fun i =>
    f32Add (f32Add (f32Mul (geomAt g cam i) (d.getD 0 0)) (f32Mul (geomAt g cam (3 + i)) (d.getD 1 0)))
      (f32Mul (geomAt g cam (6 + i)) (d.getD 2 0)))

/-- The floor of a non-negative FP32 value. -/
def f32Floor (v : Nat) : Nat :=
  match fp32.decode v with
  | .fin false m e => roundUnits .rtz m e 0
  | _ => 0

/-- 0.1 as an FP32 constant. -/
def f32Tenth : Nat := 0x3DCCCCCD

/-- Where a sample falls in a camera's map: column, row and the two fractions, where it counts. -/
def liftSample (b g : List Nat) (cam x y z : Nat) : Option (Nat × Nat × Nat × Nat) :=
  let q := liftPoint g cam x y z
  let q2 := q.getD 2 0
  let fw := fieldAt b 0x44 2
  let fh := fieldAt b 0x46 2
  let u := f32Add (f32Mul (geomAt g cam 12) (f32Div (q.getD 0 0) q2)) (geomAt g cam 14)
  let v := f32Add (f32Mul (geomAt g cam 13) (f32Div (q.getD 1 0) q2)) (geomAt g cam 15)
  if f32Lt q2 f32Tenth || !(f32Le 0 u && f32Le u (f32OfInt (fw - 1)) && f32Le 0 v && f32Le v (f32OfInt (fh - 1))) then
    none
  else
    let x0 := min (f32Floor u) (fw - 2)
    let y0 := min (f32Floor v) (fh - 2)
    some (x0, y0, f32Sub u (f32OfInt x0), f32Sub v (f32OfInt y0))

/-- The bilinear value of the taps (x0, y0), (x0 + 1, y0), (x0, y0 + 1), (x0 + 1, y0 + 1) at two fractions, up to rounding: the
order of its operations stands in a model that is not part of the specification (log 82). -/
def bilinear (taps : List Nat) (fx fy : Nat) : Nat :=
  let t := fun (i : Nat) => fp64.of32 (taps.getD i 0)
  let mix := fun (a b f : Nat) => fp64.add (fp64.mul a (fp64.minus (fp64.rat 1 1) f)) (fp64.mul b f)
  let x := fp64.of32 fx
  near32 9 (fx :: fy :: taps) (mix (mix (t 0) (t 1) x) (mix (t 2) (t 3) x) (fp64.of32 fy))

/-- The channels of one tap as FP32 encodings. -/
def Eng.liftTap (u : Nat) (b : List Nat) (cam x y : Nat) : Eng (List Nat) := do
  let f : Fmt := if fieldAt b 0x43 1 = 6 then .e4m3 else .bf16
  let n := gbNch b
  let size := f.bits / 8
  let l ← Eng.read u (gbIn b + cam * fieldAt b 0x48 4 + (y * fieldAt b 0x44 2 + x) * n * size) (n * size)
  return (List.range n).map (fun i => f32OfNum (f.read (elemAt f l i)))

/-- One sample added to the sums of a cell. -/
def Eng.liftAdd (u : Nat) (b g : List Nat) (x y : Nat) (acc : List Nat × Nat) (cam h : Nat) :
    Eng (List Nat × Nat) := do
  match liftSample b g cam x y (fieldAt b (0x50 + 4 * h) 4) with
  | none => return acc
  | some (x0, y0, fx, fy) =>
    let t00 ← Eng.liftTap u b cam x0 y0
    let t10 ← Eng.liftTap u b cam (x0 + 1) y0
    let t01 ← Eng.liftTap u b cam x0 (y0 + 1)
    let t11 ← Eng.liftTap u b cam (x0 + 1) (y0 + 1)
    return ((List.range (gbNch b)).map (fun i =>
      f32Add (acc.1.getD i 0) (bilinear [t00.getD i 0, t10.getD i 0, t01.getD i 0, t11.getD i 0] fx fy)),
      acc.2 + 1)

/-- The cameras and heights that may contribute to a cell, in order. -/
def liftTerms (b : List Nat) (sec : Nat) : List (Nat × Nat) :=
  (List.range 16).flatMap (fun cam =>
    if bit (fieldAt b 0x40 2) cam ∧ bit (fieldAt b (0x80 + 2 * cam) 2) sec then
      (List.range (fieldAt b 0x42 1)).map (fun h => (cam, h))
    else [])

/-- One cell of LIFT: its bytes and the samples used. -/
def Eng.liftCell (u : Nat) (b g : List Nat) (r c : Nat) : Eng (List Nat × Nat) := do
  let x := ofSigned (2 * (r : Int) - 191) (-2)
  let y := ofSigned (2 * (c : Int) - 255) (-2)
  let sec := sectorOf x y
  let (acc, n) ← Eng.fold (fun a (p : Nat × Nat) => Eng.liftAdd u b g (f32OfNum x) (f32OfNum y) a p.1 p.2)
    (List.replicate (gbNch b) 0, 0) (liftTerms b sec)
  let f := gbFmt b
  return (acc.map (fun v =>
    if n = 0 then 0 else gridByte f (f32Div (f32Div v (f32OfInt n)) (fieldAt b 0x10 4))), n)

def liftParamsOk (b : List Nat) : Bool :=
  let nz := fieldAt b 0x42 1
  let e := fun o => decide (2 ≤ fieldAt b o 2 ∧ fieldAt b o 2 ≤ 1024)
  decide (1 ≤ nz ∧ nz ≤ 8) && e 0x44 && e 0x46 && zeroBytes b 0x4C 4 && zeroBytes b (0x50 + 4 * nz) (32 - 4 * nz) &&
  addrField b 0x70 1 && zeroBytes b 0x78 8 && zeroBytes b 0xA0 96

def liftRun (u : Nat) (b : List Nat) : Eng Nat := do
  Eng.need (liftParamsOk b) .badCommand
  Eng.need (gridFmtOk b && decide (fieldAt b 0x43 1 = 6 ∨ fieldAt b 0x43 1 = 8)) .format
  let g ← Eng.read u (fieldAt b 0x70 8) 1024
  let cells ← Eng.collect (fun i => Eng.liftCell u b g (gbRow0 b + i / 256) (i % 256)) (gbRows b * 256) 0
  let used := (cells.map (·.2)).foldl (· + ·) 0
  Eng.for (fun i => do
    gridCell u b (gbRow0 b + i / 256) (i % 256) (cells.getD i ([], 0)).1
    if i % 256 = 255 then Eng.gridRow u) (gbRows b * 256) 0
  Eng.gridCount u used
  return used * 2 ^ 32

/-! SCATTER (08 R219). -/

/-- A point in the vehicle frame: x, y, z and intensity as FP32. -/
structure ScPoint where
  x : Nat
  y : Nat
  z : Nat
  i : Nat
  deriving DecidableEq, Repr

/-- `R·q + t`, summing in ascending index. -/
def scMove (b : List Nat) (q : List Nat) : ScPoint :=
  let r := fun k => fieldAt b (0x48 + 4 * k) 4
  let p := fun k =>
    f32Add (f32Add (f32Add (f32Mul (r (3 * k)) (q.getD 0 0)) (f32Mul (r (3 * k + 1)) (q.getD 1 0)))
      (f32Mul (r (3 * k + 2)) (q.getD 2 0))) (r (9 + k))
  { x := p 0, y := p 1, z := p 2, i := q.getD 3 0 }

/-- The floor of `2 * v + off` for a finite FP32 value, none for NaN and infinity. -/
def halfCell (v : Nat) (off : Int) : Option Int :=
  match fp32.decode v with
  | .fin n m e =>
    let w := if e + 1 ≥ 0 then signInt n (m * 2 ^ (e + 1).toNat) else signInt n m / 2 ^ (-(e + 1)).toNat
    some (w + off)
  | _ => none

/-- The cell of a point, where the point counts. -/
def scCell (b : List Nat) (p : ScPoint) : Option (Nat × Nat) :=
  match halfCell p.x 96, halfCell p.y 128 with
  | some r, some c =>
    if (gbRow0 b : Int) ≤ r ∧ r < (gbRow0 b + gbRows b : Nat) ∧ 0 ≤ c ∧ c < 256 ∧
       f32Le (fieldAt b 0x78 4) p.z ∧ f32Le p.z (fieldAt b 0x7C 4) ∧ !(fp32.decode p.i).isNaN
    then some (r.toNat, c.toNat) else none
  | _, _ => none

/-- The five features of the points of a cell, in ascending point index (08 R219). -/
def scFeatures (l : List ScPoint) : List Nat :=
  match l with
  | [] => [0, 0, 0, 0, 0]
  | p :: t =>
    let n := f32OfInt l.length
    let z := fun (f : Num → Num → Num) => t.foldl (fun a q => f32OfNum (f (fp32.decode a) (fp32.decode q.z))) p.z
    let mean := fun (g : ScPoint → Nat) => f32Div (l.foldl (fun a q => f32Add a (g q)) 0) n
    [n, z Num.maximum, z Num.minimum, mean (·.z), mean (·.i)]

def scatterParamsOk (b : List Nat) : Bool :=
  decide (1 ≤ fieldAt b 0x40 4 ∧ fieldAt b 0x40 4 ≤ 262144) && zeroBytes b 0x44 4 && zeroBytes b 0x94 108

def scatterRun (u : Nat) (b : List Nat) : Eng Nat := do
  Eng.need (scatterParamsOk b) .badCommand
  Eng.need (gridFmtOk b) .format
  let n := fieldAt b 0x40 4
  let raw ← Eng.read u (gbIn b) (16 * n)
  let pts := (List.range n).map (fun i =>
    scMove b ((List.range 4).map (fun k => fieldAt raw (16 * i + 4 * k) 4)))
  let placed := pts.filterMap (fun p => (scCell b p).map (fun c => (c, p)))
  Eng.for (fun i => do
    let r := gbRow0 b + i / 256
    let c := i % 256
    let here := (placed.filter (fun (k, _) => decide (k = (r, c)))).map (·.2)
    let fs := scFeatures here
    gridCell u b r c ((List.range 5).map (fun k =>
      if here.isEmpty then 0 else gridByte (gbFmt b) (f32Div (fs.getD k 0) (fieldAt b (0x80 + 4 * k) 4))))
    if c = 255 then Eng.gridRow u) (gbRows b * 256) 0
  Eng.gridCount u placed.length
  return placed.length * 2 ^ 32 + min 65535 (n - placed.length) * 65536

/-! RASTER (08 R220). -/

/-- The centre of a cell on one axis: `ORIGIN + (i + 0.5) * 0.25`, in FP32. -/
def rasterAxis (origin i : Nat) : Nat := f32Add origin (f32Of (2 * i + 1) (-3))

/-- `|v| ≤ w`. -/
def f32Within (v w : Nat) : Bool := f32Le (v % 2 ^ 31) w

/-- Object `k` of the list covers a point. -/
def rasterHit (objs : List Nat) (x y k : Nat) : Bool :=
  let f := fun i => fieldAt objs (32 * k + 4 * i) 4
  let dx := f32Sub x (f 0)
  let dy := f32Sub y (f 1)
  let sn := fp32.sin (f 2)
  let cs := fp32.cos (f 2)
  f32Within (f32Add (f32Mul dx cs) (f32Mul dy sn)) (f 3) &&
  f32Within (f32Add (f32Mul (dx ^^^ 0x80000000) sn) (f32Mul dy cs)) (f 4)

/-- Cell `(r, c)` is occupied. -/
def rasterOcc (b bm objs : List Nat) (r c : Nat) : Bool :=
  bit (bm.getD (r * 64 + c / 8) 0) (c % 8) ||
  (List.range (fieldAt b 0x48 2)).any
    (rasterHit objs (rasterAxis (fieldAt b 0x40 4) r) (rasterAxis (fieldAt b 0x44 4) c))

/-- The distance value of cell `(r, c)` from the occupied cells. -/
def rasterValue (occ : List (Nat × Nat)) (r c : Nat) : Nat :=
  let d := fun (p : Nat × Nat) => ((p.1 : Int) - r).natAbs ^ 2 + ((p.2 : Int) - c).natAbs ^ 2
  match occ with
  | [] => 255
  | p :: t => min 255 (isqrt (25 * t.foldl (fun m q => min m (d q)) (d p) / 4))

def rasterParamsOk (b : List Nat) : Bool := decide (fieldAt b 0x48 2 ≤ 4096) && zeroBytes b 0x4A 182

def rasterRun (u : Nat) (b : List Nat) : Eng Nat := do
  Eng.need (rasterParamsOk b) .badCommand
  Eng.need (gridFmtOk b) .format
  let bm ← Eng.read u (gbIn b) 65536
  let objs ← Eng.read u (gbIn2 b) (32 * fieldAt b 0x48 2)
  Eng.need ((List.range (fieldAt b 0x48 2)).all (fun k => zeroBytes objs (32 * k + 20) 12)) .badCommand
  let occ := (List.range 1024).flatMap (fun r => (List.range 512).filterMap (fun c =>
    if rasterOcc b bm objs r c then some (r, c) else none))
  Eng.for (fun i => do
    let r := gbRow0 b + i
    Eng.write u (gbOut b + r * 512) (byteList ((List.range 512).map (rasterValue occ r)))
    Eng.gridRow u) (gbRows b) 0
  Eng.gridCount u (gbRows b * 512)
  return occ.length * 2 ^ 32

/-- The command of opcode `opc` that Grid engine `u` has in progress. -/
def gridCmd (opc u : Nat) (s : State) : State :=
  match s.engItem u with
  | none => s
  | some it =>
    if !isGrid u || !s.engTakes it [1, 2, 3] opc then s
    else
      let s := (s.setF (GRID_STATUS u) gsROWS 0).setF (GRID_STATUS u) gsOPC (s.engOpc it)
      s.engRun u (do
        let b ← Eng.block u it.prog 256
        Eng.need (gridHeaderOk b) .badCommand
        match gbOpc b with
        | 1 => liftRun u b
        | 2 => scatterRun u b
        | _ => rasterRun u b)

def execLift (u : Nat) (s : State) : Host.Outcome State Fault Refusal := .next (gridCmd 1 u s)
def execScatter (u : Nat) (s : State) : Host.Outcome State Fault Refusal := .next (gridCmd 2 u s)
def execRaster (u : Nat) (s : State) : Host.Outcome State Fault Refusal := .next (gridCmd 3 u s)

end Sys2Proof.Machine
end

