-- ==== Sys2Proof/Machine/PlanOps.lean ====
section
/-! DEFINITION. The vehicle description, the expansion of primitive tokens and the sweep of a trajectory's discs,
for both number formats in which they are computed (09 R239 to R242, R247, R256). -/

namespace Sys2Proof.Machine

def TSt.map (h : Nat → Nat) (s : TSt) : TSt :=
  { x := h s.x, y := h s.y, th := h s.th, v := h s.v, a := h s.a, k := h s.k, g := h s.g }

/-! The vehicle description (09 R239). -/

/-- Offset and range, over 1000, of each field. -/
def vehRanges : List (Nat × Int × Int) :=
  [(0x08, 2500, 7000), (0x0C, 3000, 16000), (0x10, -1500, 1500), (0x14, 10, 300), (0x18, 1, 200), (0x1C, 50, 1000),
   (0x20, 100, 3000), (0x24, 500, 8000), (0x28, 500, 5000), (0x2C, 500, 10000), (0x30, 100, 1400),
   (0x34, 1000, 36000), (0x38, 0, 1000)]

/-- A value lies in a range of FP32 bounds. -/
def vehIn (v : Nat) (lo hi : Int) : Bool := f32Le (fp32.rat lo 1000) v && f32Le v (fp32.rat hi 1000)

/-- A vehicle description of 256 bytes keeps R239. -/
def vehicleOk (b : List Nat) : Bool :=
  decide (fieldAt b 0 4 = 0x56454844 ∧ fieldAt b 4 2 = 1 ∧ fieldAt b 0xFC 4 = crc32c (b.take 0xFC)) &&
  vehRanges.all (fun (o, lo, hi) => vehIn (fieldAt b o 4) lo hi) &&
  (vehIn (fieldAt b 0x3C 4) 4000 30000 || (fp32.decode (fieldAt b 0x3C 4)).eqv (fp32.decode 0)) &&
  (List.range 16).all (fun i => vehIn (fieldAt b (0x40 + 8 * i) 4) (-20000) 20000 &&
    vehIn (fieldAt b (0x44 + 8 * i) 4) 300 2000)

/-- A field of the vehicle description in the format. -/
def veh (f : FFmt) (b : List Nat) (o : Nat) : Nat := f.of32 (fieldAt b o 4)

/-- KD, the effective curvature-rate limit. -/
def vehKD (f : FFmt) (b : List Nat) : Nat := f.min (veh f b 0x18) (f.div (veh f b 0x1C) (veh f b 0x08))

/-- HANDOVER_T in ms. -/
def handoverMs (b : List Nat) : Nat :=
  let v := fieldAt b 0x3C 4
  if (fp32.decode v).eqv (fp32.decode 0) then 10000
  else ((fp32.floor (f32Mul v (f32OfInt 1000))).getD 10000).toNat

/-! Expansion (09 R240, R241). -/

/-- The substep of 0.02 s. -/
def FFmt.h (f : FFmt) : Nat := f.rat 1 50

/-- The articulation after one substep at speed `v` and curvature `k`. -/
def gStep (f : FFmt) (b : List Nat) (v k g : Nat) : Nat :=
  let l2 := veh f b 0x0C
  f.add g (f.mul f.h (f.minus (f.mul v k)
    (f.div (f.add (f.mul v (f.sin g)) (f.mul (f.mul (f.mul (veh f b 0x10) v) k) (f.cos g))) l2)))

/-- Position and heading after one substep. -/
def moveStep (f : FFmt) (t : TSt) (v k : Nat) : TSt :=
  { t with x := f.add t.x (f.mul (f.mul f.h v) (f.cos t.th)), y := f.add t.y (f.mul (f.mul f.h v) (f.sin t.th)),
           th := f.add t.th (f.mul (f.mul f.h v) k) }

/-- One substep of a token: the new state and whether it marks LIMIT. -/
def subStep (f : FFmt) (b : List Nat) (tok : Nat) (t : TSt) : TSt × Bool :=
  let ai := tok / 256 % 16
  let ki := tok / 8 % 32
  let kd0 := vehKD f b
  let int := fun (n : Int) => f.rat n 1
  let at_ := if ai < 8 then f.div (f.mul (f.neg (veh f b 0x24)) (int (8 - ai))) (int 8)
    else f.div (f.mul (veh f b 0x20) (int (ai - 8))) (int 7)
  let j := f.div (f.mul (veh f b 0x2C) (int (tok % 8 + 1))) (int 8)
  let a := f.add t.a (f.clamp (f.minus at_ t.a) (f.mul (f.neg j) f.h) (f.mul j f.h))
  let v := f.add t.v (f.mul a f.h)
  let (v, a) := if f.le v 0 then (0, 0) else (v, a)
  let vmax := veh f b 0x34
  let (v, a) := if f.le vmax v then (vmax, f.min a 0) else (v, a)
  let kd := if ki = 31 then
      let m := f.min kd0 (f.div (f.abs t.k) f.h)
      if f.sign t.k = 1 then f.neg m else if f.sign t.k = -1 then m else 0
    else f.div (f.mul kd0 (int ((ki : Int) - 15))) (int 15)
  let keq := f.div (f.sin t.g) (f.minus (veh f b 0x0C) (f.mul (veh f b 0x10) (f.cos t.g)))
  let kd := if f.le (veh f b 0x30) (f.abs t.g) ∧ f.sign (f.minus t.k keq) = f.sign t.g then
      f.clamp (f.div (f.minus keq t.k) f.h) (f.neg kd0) kd0
    else kd
  let kmax := veh f b 0x14
  let k := f.clamp (f.add t.k (f.mul kd f.h)) (f.neg kmax) kmax
  let g := gStep f b v k t.g
  let t := moveStep f t v k
  ({ t with v := v, a := a, k := k, g := g },
   f.lt (veh f b 0x30) (f.abs g) || f.lt (veh f b 0x28) (f.mul (f.mul v v) (f.abs k)))

/-- `n` substeps; LIMIT is gathered. -/
def subSteps (f : FFmt) (b : List Nat) (tok : Nat) : Nat → TSt × Bool → TSt × Bool
  | 0, p => p
  | n + 1, (t, l) =>
    let (t', l') := subStep f b tok t
    subSteps f b tok n (t', l || l')

/-- The states of a token: five, each after five substeps, with its LIMIT mark. -/
def tokenStates (f : FFmt) (b : List Nat) (tok : Nat) : Nat → TSt → List (TSt × Bool)
  | 0, _ => []
  | n + 1, t =>
    let p := subSteps f b tok 5 (t, false)
    p :: tokenStates f b tok n p.1

/-- The last state of a list, or the one given. -/
def lastState (t : TSt) (l : List (TSt × Bool)) : TSt := (l.getLast?.map (·.1)).getD t

/-- The states of a token sequence from a start state (09 R241). -/
def expandTokens (f : FFmt) (b : List Nat) : List Nat → TSt → List (TSt × Bool)
  | [], _ => []
  | tok :: toks, t =>
    let l := tokenStates f b tok 5 t
    l ++ expandTokens f b toks (lastState t l)

/-! The sweep (09 R247, R256). -/

/-- How one checker lays out its grid: cells per metre, rows, columns, the allowance over 100, the origin. -/
structure Sweep where
  fmt : FFmt
  perM : Nat
  rows : Nat
  cols : Nat
  allow : Nat
  gx : Nat
  gy : Nat
  /-- The plan frame in the grid frame: origin and heading. -/
  ox : Nat
  oy : Nat
  oh : Nat
  vlim : Nat
  range : Nat

/-- A point of the plan frame in the grid frame. -/
def Sweep.place (w : Sweep) (x y : Nat) : Nat × Nat :=
  let f := w.fmt
  (f.minus (f.add w.ox (f.mul x (f.cos w.oh))) (f.mul y (f.sin w.oh)),
   f.add (f.add w.oy (f.mul x (f.sin w.oh))) (f.mul y (f.cos w.oh)))

/-- The cell of a point, where it lies in the grid. -/
def Sweep.cell (w : Sweep) (x y : Nat) : Option (Nat × Nat) :=
  let f := w.fmt
  let p := w.place x y
  let idx := fun v o => f.floor (f.mul (f.rat w.perM 1) (f.minus v o))
  match idx p.1 w.gx, idx p.2 w.gy with
  | some r, some c =>
    if 0 ≤ r ∧ r < w.rows ∧ 0 ≤ c ∧ c < w.cols then some (r.toNat, c.toNat) else none
  | _, _ => none

/-- The discs of a state: centre and threshold, tractor first, then trailer. -/
def Sweep.discs (w : Sweep) (b : List Nat) (t : TSt) : List (Nat × Nat × Int) :=
  let f := w.fmt
  let c := f.cos t.th
  let s := f.sin t.th
  let th2 := f.minus t.th t.g
  let c2 := f.cos th2
  let s2 := f.sin th2
  let e := veh f b 0x10
  let l2 := veh f b 0x0C
  let ax := f.minus (f.add t.x (f.mul e c)) (f.mul l2 c2)
  let ay := f.minus (f.add t.y (f.mul e s)) (f.mul l2 s2)
  (List.range 16).map (fun i =>
    let o := veh f b (0x40 + 8 * i)
    let thr := f.mul (f.rat 10 1)
      (f.add (f.add (veh f b (0x44 + 8 * i)) (veh f b 0x38)) (f.rat w.allow 100))
    let lim := (f.ceil thr).getD 0
    if i < 6 then (f.add t.x (f.mul o c), f.add t.y (f.mul o s), lim)
    else (f.add ax (f.mul o c2), f.add ay (f.mul o s2), lim))

/-- The layers that hold for state `i`. -/
def sweepLayers (i : Nat) : Nat × Nat := (min 7 ((i + 1) / 10), min 7 (min 7 ((i + 1) / 10) + 1))

/-- The discs of a state against a grid: whether one collides, with D_MIN so far and the D values. -/
def sweepDiscs {m : Type → Type} [Monad m] (look : Nat → Nat → Nat → m Nat) (k0 k1 : Nat) :
    List ((Nat × Nat) × Int) → Option Nat → List Nat → m (Bool × Option Nat × List Nat)
  | [], dm, ds => pure (false, dm, ds)
  | ((r, c), lim) :: rest, dm, ds => do
    let a ← look k0 r c
    let b ← look k1 r c
    let d := min a b
    let dm := some (match dm with | some x => min x d | none => d)
    if (d : Int) < lim then pure (true, dm, ds ++ [d]) else sweepDiscs look k0 k1 rest dm (ds ++ [d])

/-- What the sweep of one trajectory gives: status (09 R249), first failing state, D_MIN, the D values of each
state. -/
structure Swept where
  status : Nat := 0
  first : Nat := 0xFF
  dMin : Option Nat := none
  ds : List (List Nat) := []
  deriving DecidableEq, Repr

/-- The checks of 09 R247 on states from index `i` on. -/
def sweepStates {m : Type → Type} [Monad m] (look : Nat → Nat → Nat → m Nat) (w : Sweep) (b : List Nat) :
    List (TSt × Bool) → Nat → Swept → m Swept
  | [], _, acc => pure acc
  | (t, lim) :: rest, i, acc =>
    let f := w.fmt
    let cells := (w.discs b t).map (fun (x, y, l) => (w.cell x y, l))
    if lim then pure { acc with status := 2, first := i }
    else if f.lt w.vlim t.v then pure { acc with status := 3, first := i }
    else if f.lt w.range (w.place t.x t.y).1 then pure { acc with status := 4, first := i }
    else if cells.any (fun (c, _) => c.isNone) then pure { acc with status := 5, first := i }
    else do
      let (k0, k1) := sweepLayers i
      let (hit, dm, ds) ← sweepDiscs look k0 k1
        (cells.filterMap (fun (c, l) => c.map (fun p => (p, l)))) acc.dMin []
      let acc := { acc with dMin := dm, ds := acc.ds ++ [ds] }
      if hit then pure { acc with status := 1, first := i } else sweepStates look w b rest (i + 1) acc

/-- A token sequence keeps R240. -/
def tokensOk (toks : List Nat) : Bool := toks.all (fun t => decide (t < 4096))

end Sys2Proof.Machine
end

