-- ==== Sys2Proof/Machine/JobImage.lean ====
section
/-! DEFINITION. Glibor images: the header, the tables, and the admission checks (10 R285 to R290; 11 R303). -/

namespace Sys2Proof.Machine

/-! The tables (10 R286). -/

def imUnits (im : List Nat) : Nat := fieldAt im 0x13 1
def imPlaces (im : List Nat) : Nat := fieldAt im 0x12 1
def placeSize (im : List Nat) : Nat := 32 + 16 * imUnits im
def placeAt (im : List Nat) (k : Nat) : Nat := fieldAt im 0x24 4 + k * placeSize im

def unitRec (im : List Nat) (o : Nat) : UnitRec :=
  { slot := fieldAt im o 1, pages := fieldAt im (o + 1) 1, div := fieldAt im (o + 2) 1,
    spadOff := fieldAt im (o + 4) 4, spadLen := fieldAt im (o + 8) 4, ctxOff := fieldAt im (o + 12) 4 }

def imPlacement (im : List Nat) (k : Nat) : Placement :=
  { modes := fieldAt im (placeAt im k) 1, reserve := bit (fieldAt im (placeAt im k + 1) 1) 0,
    units := (List.range (imUnits im)).map (fun i => unitRec im (placeAt im k + 32 + 16 * i)) }

def imMem (im : List Nat) : List MemRec :=
  (List.range (fieldAt im 0x18 2)).map (fun i =>
    let o := fieldAt im 0x28 4 + 16 * i
    { base := fieldAt im o 8, len := fieldAt im (o + 8) 4, perm := fieldAt im (o + 12) 1 })

def imQueues (im : List Nat) : List QRec :=
  (List.range (fieldAt im 0x1A 2)).map (fun i =>
    let o := fieldAt im 0x2C 4 + 16 * i
    let f := fieldAt im (o + 3) 1
    { lunit := fieldAt im o 1, lidx := fieldAt im (o + 1) 1, ldepth := fieldAt im (o + 2) 1, cq := bit f 0,
      pmode := f / 2 % 2, prio := f / 4 % 4, irq := bit f 4, ring := fieldAt im (o + 4) 8,
      backup := fieldAt im (o + 12) 2, cplMax := fieldAt im (o + 14) 2 })

def imWins (im : List Nat) : List WinRec :=
  (List.range (fieldAt im 0x1C 2)).map (fun i =>
    let o := fieldAt im 0x30 4 + 8 * i
    let f := fieldAt im (o + 3) 1
    { lunit := fieldAt im o 1, win := fieldAt im (o + 1) 1, lanes := fieldAt im (o + 2) 1, seals := bit f 0,
      gtokEn := bit f 1, gtok := fieldAt im (o + 4) 1 })

def imSlots (im : List Nat) : List SlotRec :=
  (List.range (fieldAt im 0x20 2)).map (fun i =>
    let o := fieldAt im 0x34 4 + 8 * i
    { lunit := fieldAt im o 1, start := fieldAt im (o + 2) 2, len := fieldAt im (o + 4) 2 })

def imBars (im : List Nat) : List BarRec :=
  (List.range (fieldAt im 0x1E 1)).map (fun i =>
    let o := fieldAt im 0x38 4 + 16 * i
    { bid := fieldAt im o 1, members := fieldAt im (o + 8) 8 })

/-- The group table begins at the first multiple of 64 at or after BAR_OFF + 16 × NBAR (11 R303). -/
def groupTable (im : List Nat) : Nat := (fieldAt im 0x38 4 + 16 * fieldAt im 0x1E 1 + 63) / 64 * 64

def imGroup (im : List Nat) (i : Nat) : GroupRec :=
  let o := groupTable im + 64 * i
  { size := fieldAt im o 1, members := (List.range (min 3 (fieldAt im o 1))).map (fun k => fieldAt im (o + 3 + k) 1),
    targets := (List.range (fieldAt im (o + 1) 1)).map (fun t =>
      { lunit := fieldAt im (o + 8 + 2 * t) 1, win := fieldAt im (o + 9 + 2 * t) 1 % 16,
        alt := bit (fieldAt im (o + 9 + 2 * t) 1) 7 }),
    cks := (List.range (fieldAt im (o + 2) 1)).map (fun k =>
      (fieldAt im (o + 0x18 + 8 * k) 4, fieldAt im (o + 0x1C + 8 * k) 4)) }

def imGroups (im : List Nat) : List GroupRec := (List.range (fieldAt im 0x1F 1)).map (imGroup im)

/-- Where the program segments begin: after every table, at a multiple of 64. -/
def segBase (im : List Nat) : Nat :=
  let ends := [fieldAt im 0x24 4 + imPlaces im * placeSize im, fieldAt im 0x28 4 + 16 * fieldAt im 0x18 2,
    fieldAt im 0x2C 4 + 16 * fieldAt im 0x1A 2, fieldAt im 0x30 4 + 8 * fieldAt im 0x1C 2,
    fieldAt im 0x34 4 + 8 * fieldAt im 0x20 2, groupTable im + 64 * fieldAt im 0x1F 1,
    if bit (fieldAt im 0x16 2) 0 then fieldAt im 0x3C 4 + 256 else 0]
  (ends.foldl max 128 + 63) / 64 * 64

/-- The segments of the logical units that hold pages, in order, from offset `o`: logical unit and offset. -/
def imSegs (im : List Nat) : List (UnitRec × Nat) → Nat → List (Nat × Nat)
  | [], _ => []
  | (u, i) :: rest, o =>
    if u.pages = 0 then imSegs im rest o
    else (i, o) :: imSegs im rest (o + 64 + (fieldAt im (o + 8) 4 + 63) / 64 * 64)

def imSegments (im : List Nat) : List (Nat × Nat) :=
  imSegs im ((imPlacement im 0).units.zip (List.range (imUnits im))) (segBase im)

/-! Check 1 (10 R285, R288; 11 R303). -/

/-- A table of `n` bytes at offset `o` lies in the image, at a multiple of 64. -/
def tableOk (im : List Nat) (o n : Nat) : Bool := decide (o % 64 = 0 ∧ (n = 0 ∨ (128 ≤ o ∧ o + n ≤ im.length)))

def imHeaderOk (im : List Nat) : Bool :=
  let f := fieldAt im
  decide (f 0 4 = 0x474C4249 ∧ f 4 2 = 1 ∧ f 8 4 = im.length ∧ 128 ≤ im.length) &&
  decide (f 0xC 4 = crc32c (im.take 0xC ++ [0, 0, 0, 0] ++ im.drop 0x10)) &&
  decide (f 0x10 1 < 8 ∧ f 0x11 1 < 3 ∧ 1 ≤ f 0x12 1 ∧ f 0x12 1 ≤ 4 ∧ 1 ≤ f 0x13 1 ∧ f 0x13 1 ≤ 63) &&
  decide (f 0x16 2 < 4 ∧ f 0x1E 1 ≤ 64 ∧ f 0x1F 1 ≤ 64 ∧ f 0x22 2 = 0) && zeroBytes im 0x50 48 &&
  tableOk im (f 0x24 4) (imPlaces im * placeSize im) && tableOk im (f 0x28 4) (16 * f 0x18 2) &&
  tableOk im (f 0x2C 4) (16 * f 0x1A 2) && tableOk im (f 0x30 4) (8 * f 0x1C 2) &&
  tableOk im (f 0x34 4) (8 * f 0x20 2) && tableOk im (f 0x38 4) (16 * f 0x1E 1) &&
  tableOk im (groupTable im) (64 * f 0x1F 1) &&
  (if bit (f 0x16 2) 0 then tableOk im (f 0x3C 4) 256 else decide (f 0x3C 4 = 0)) &&
  (bit (f 0x16 2) 1 || (zeroBytes im 0x40 8 && zeroBytes im 0x48 8))

def imPlaceOk (im : List Nat) (k : Nat) : Bool :=
  let o := placeAt im k
  let prim := (imPlacement im 0).units
  decide (fieldAt im o 1 < 16 ∧ fieldAt im (o + 1) 1 < 2) && zeroBytes im (o + 2) 30 &&
  (List.range (imUnits im)).all (fun i =>
    let r := unitRec im (o + 32 + 16 * i)
    let p := prim.getD i r
    decide (r.slot < 64 ∧ r.pages ≤ 64 ∧ fieldAt im (o + 32 + 16 * i + 3) 1 = 0 ∧
      r.spadOff = p.spadOff ∧ r.spadLen = p.spadLen ∧ (p.slot < 48 ∨ (r.pages = 0 ∧ r.spadLen = 0))) &&
    decide (r.spadOff % 64 = 0 ∧ r.spadLen % 64 = 0 ∧ (r.ctxOff = 0xFFFFFFFF ∨ r.ctxOff % 64 = 0)))

/-- A window of the image that may be a release target of `size` members. -/
def targetWin (im : List Nat) (size lu w : Nat) : Bool :=
  (imWins im).any (fun x => decide (x.lunit = lu ∧ x.win = w ∧ size ≤ x.lanes))

def imGroupOk (im : List Nat) (i : Nat) : Bool :=
  let g := imGroup im i
  let o := groupTable im + 64 * i
  let raw := (List.range 3).map (fun k => fieldAt im (o + 3 + k) 1)
  decide (1 ≤ g.size ∧ g.size ≤ 3 ∧ 1 ≤ g.targets.length ∧ g.targets.length ≤ 8 ∧ g.cks.length ≤ 4) &&
  (decide (g.size ≠ 1) || decide (g.cks.length = 0)) && (raw.drop g.size).all (fun m => decide (m = 0xFF)) &&
  g.members.all (fun m => decide (m < imUnits im) &&
    decide (((imPlacement im 0).units.getD m (unitRec im 0)).slot < 48)) && decide (g.members.Nodup) &&
  zeroBytes im (o + 6) 2 && zeroBytes im (o + 0x38) 8 &&
  g.targets.all (fun t =>
    if t.lunit = 0xFF then decide (t.win = fieldAt im 0x10 1) && !t.alt
    else targetWin im g.size t.lunit t.win && (!t.alt || targetWin im g.size t.lunit (t.win + 1))) &&
  g.cks.all (fun (a, n) => decide (a % 64 = 0 ∧ n % 64 = 0 ∧ a + n ≤ spadSize)) &&
  decide ((g.cks.map (·.2)).foldl (· + ·) 0 ≤ spadSize)

/-- Each of `n` entries of `size` bytes of the table whose offset stands at `off` passes `f` at its offset. -/
def tableAll (im : List Nat) (off n size : Nat) (f : Nat → Bool) : Bool :=
  (List.range n).all (fun i => f (fieldAt im off 4 + size * i))

/-- The reserved bits and bytes of the tables are zero (10 R286). -/
def imReservedOk (im : List Nat) : Bool :=
  tableAll im 0x28 (fieldAt im 0x18 2) 16 (fun o => zeroBytes im (o + 13) 3) &&
  tableAll im 0x2C (fieldAt im 0x1A 2) 16 (fun o => decide (fieldAt im (o + 3) 1 < 32)) &&
  tableAll im 0x30 (fieldAt im 0x1C 2) 8 (fun o => decide (fieldAt im (o + 3) 1 < 4) && zeroBytes im (o + 5) 3) &&
  tableAll im 0x34 (fieldAt im 0x20 2) 8 (fun o => zeroBytes im (o + 1) 1 && zeroBytes im (o + 6) 2) &&
  tableAll im 0x38 (fieldAt im 0x1E 1) 16 (fun o => zeroBytes im (o + 1) 7)

/-- A ring lies in main memory or a common store (10 R268). -/
def ringPlaceOk (q : QRec) : Bool :=
  match place q.ring (2 ^ q.ldepth * 64) with
  | .main | .cs _ => true
  | _ => false

/-- Check 1: no field of the image is wrong. -/
def imageFormOk (im : List Nat) : Bool :=
  imHeaderOk im && (List.range (imPlaces im)).all (imPlaceOk im) && imReservedOk im &&
  (imMem im).all (fun m => decide (m.base % 64 = 0 ∧ m.base < 2 ^ 44 ∧ m.perm < 4)) &&
  (imQueues im).all (fun q => decide (q.lunit < imUnits im ∧ 4 ≤ q.ldepth ∧ q.ldepth ≤ 16 ∧ q.ring % 64 = 0 ∧
    q.ring < 2 ^ 44 ∧ (q.backup = 0xFFFF ∨ q.backup < fieldAt im 0x1A 2)) && ringPlaceOk q) &&
  (imWins im).all (fun w => decide (w.lunit < imUnits im ∧ w.win < 16 ∧ 1 ≤ w.lanes ∧ w.lanes ≤ 3 ∧ w.gtok < 16 ∧
    ((imPlacement im 0).units.getD w.lunit (unitRec im 0)).slot < 48)) &&
  (imSlots im).all (fun t => decide (t.lunit < imUnits im ∧ 1 ≤ t.len ∧ t.start + t.len ≤ 25000)) &&
  (imBars im).all (fun b => decide (b.bid < 64 ∧ b.members % 2 ^ 63 < 2 ^ imUnits im)) &&
  (List.range (fieldAt im 0x1F 1)).all (imGroupOk im) &&
  decide (((imGroups im).filter (fun g => decide (2 ≤ g.size))).length ≤ 16) &&
  (imSegments im).all (fun (_, o) => decide (o + 64 ≤ im.length ∧ o + 64 + fieldAt im (o + 8) 4 ≤ im.length) &&
    segmentOk (fun a n => fieldAt im (o + a) n))

/-! What admitted jobs hold (10 R289). -/

/-- The job indices in use. -/
def State.admitted (s : State) : List Nat :=
  (s.jobs.map (·.1)).filter (fun j => decide (s.jobState j ≠ jFree ∧ s.jobState j ≠ jWithdrawn))

/-- The placements whose needs a job holds: the primary, the reserved fallbacks, the one in force. -/
def heldPlaces (pls : List Placement) (inForce : Nat) : List Placement :=
  ((pls.zip (List.range pls.length)).filter (fun (p, i) => decide (i = 0) || p.reserve || decide (i = inForce))).map
    (·.1)

def State.jobHeld (s : State) (j : Nat) : List Placement :=
  heldPlaces (s.job j).places (s.getF (JOB_STAT j) jsPLACE)

def maxOf (l : List Nat) : Nat := l.foldl max 0
def sumOf (l : List Nat) : Nat := l.foldl (· + ·) 0

/-- The units of a placement on slot `c`. -/
def Placement.on (p : Placement) (c : Nat) : List UnitRec := p.units.filter (fun u => decide (u.slot = c))

/-- hold(c, pages) and hold(c, scratchpad) of a list of placements. -/
def holdPages (pls : List Placement) (c : Nat) : Nat := maxOf (pls.map (fun p => sumOf ((p.on c).map (·.pages))))
def holdSpad (pls : List Placement) (c : Nat) : Nat := maxOf (pls.map (fun p => sumOf ((p.on c).map (·.spadLen))))

/-- The slots that a list of placements uses. -/
def slotsOf (pls : List Placement) : List Nat := (pls.flatMap (fun p => p.units.map (·.slot))).eraseDups

/-- The slot of a logical unit in a placement. -/
def Placement.slotOf (p : Placement) (lu : Nat) : Nat := ((p.units[lu]?).map (·.slot)).getD 63

/-- The length of a BLOTTER entry (12 R347). -/
def blotterLen (u : Nat) : Nat := if u < 48 then 100 else if 56 ≤ u ∧ u < 60 then 150 else 60

/-- Two stretches of a frame meet. -/
def meets (a n b m : Nat) : Bool := decide (a < b + m ∧ b < a + n)

/-- How admission refuses: the code, the placement, the entry or logical unit, the shortfall. -/
structure Refused where
  code : Nat
  place : Nat := 0
  entry : Nat := 0
  short : Nat := 0
  deriving DecidableEq, Repr

abbrev Adm := Except Refused Unit

def adm (ok : Bool) (code : Nat) (place : Nat := 0) (entry : Nat := 0) (short : Nat := 0) : Adm :=
  if ok then .ok () else .error { code := code, place := place, entry := entry, short := short }

/-- Check every element of a list with its index. -/
def admAll {α : Type} (f : Nat → α → Adm) : Nat → List α → Adm
  | _, [] => .ok ()
  | i, a :: t =>
    match f i a with
    | .ok () => admAll f (i + 1) t
    | .error e => .error e

/-- The lowest base of `n` contiguous free pages of a program store. -/
def freeBase (used : List (Nat × Nat)) (n : Nat) : Option Nat :=
  (List.range (65 - n)).find? (fun b => used.all (fun (x, l) => decide (b + n ≤ x ∨ x + l ≤ b)))

/-- The program ranges that the jobs of a list hold on cell `c`. -/
def State.rangesOn (s : State) (js : List Nat) (c : Nat) : List (Nat × Nat) :=
  js.flatMap (fun j => ((s.job j).pbase.filter (fun (u, _) => decide (u = c))).map (·.2))

/-- The total of a budget that partition `p` holds over the jobs of a list. -/
def State.partSum (s : State) (js : List Nat) (p : Nat) (f : Nat → Nat) : Nat :=
  sumOf ((js.filter (fun j => decide (s.getF (JOB_STAT j) jsPART = p))).map f)

/-- What a list of placements holds of the entries at logical units `lus`: per unit the largest need, summed (10 R289). -/
def entriesOf (pls : List Placement) (lus : List Nat) : Nat :=
  sumOf ((slotsOf pls).map (fun c => maxOf (pls.map (fun p => (lus.filter (fun i => decide (p.slotOf i = c))).length))))

def pagesOf (pls : List Placement) : Nat := sumOf ((slotsOf pls).map (holdPages pls))
def spadOf (pls : List Placement) : Nat := sumOf ((slotsOf pls).map (holdSpad pls))

/-- Entries that the schedule of a unit needs for busy stretches (10 R280): one each, and an idle one in each
gap. -/
def schedGaps : Nat → List (Nat × Nat) → Nat
  | e, [] => if e < 25000 then 1 else 0
  | e, (a, n) :: t => (if e < a then 2 else 1) + schedGaps (a + n) t

/-- Insert a stretch in ascending order of START. -/
def insertAt {α : Type} (x : Nat × Nat × α) : List (Nat × Nat × α) → List (Nat × Nat × α)
  | [] => [x]
  | y :: t => if x.1 < y.1 then x :: y :: t else y :: insertAt x t

def sortAt {α : Type} (l : List (Nat × Nat × α)) : List (Nat × Nat × α) := l.foldl (fun a x => insertAt x a) []

/-- Stretches of one job that overlap, in ascending order of START, become one. -/
def mergeOwn (l : List (Nat × Nat × Nat)) : List (Nat × Nat × Nat) :=
  (l.foldl (fun acc (b, m, k) => match acc with
    | (a, n, j) :: t => if j = k ∧ b < a + n then (a, max n (b + m - a), j) :: t else (b, m, k) :: acc
    | [] => [(b, m, k)]) []).reverse

/-- How many µs two stretches share. -/
def sharedUs (a n b m : Nat) : Nat := min (a + n) (b + m) - max a b

/-- The stretches of unit `u` that other jobs or its BLOTTER entry hold. -/
def State.busyOn (s : State) (js : List Nat) (u : Nat) : List (Nat × Nat) :=
  (js.flatMap (fun j => (s.jobHeld j).flatMap (fun p =>
    ((s.job j).slots.filter (fun t => decide (p.slotOf t.lunit = u))).map (fun t => (t.start, t.len))))).eraseDups ++
  ((List.range 16).filter (fun e => s.flag (SCHED u e) scV && s.flag (SCHED u e) scBLOTTER)).map (fun e =>
    (s.getF (SCHED u e) scSTART, blotterLen u))

/-- What an image asks for, as a job. -/
def imJob (im : List Nat) : Job :=
  { imageId := fieldAt im 6 2, cls := fieldAt im 0x11 1,
    stall := if fieldAt im 0x14 2 = 0 then 2000 else fieldAt im 0x14 2, attn := bit (fieldAt im 0x16 2) 1,
    vehicle := bit (fieldAt im 0x16 2) 0, places := (List.range (imPlaces im)).map (imPlacement im), mem := imMem im,
    queues := imQueues im, wins := imWins im, slots := imSlots im, bars := imBars im, groups := imGroups im,
    segs := (imSegments im).map (fun (i, o) => (i,
      fieldAt im (o + 0xC) 4 - fieldAt im (o + 0x14) 1 * 4096,
      (List.range (fieldAt im (o + 8) 4 / 8)).map (fun k => fieldAt im (o + 64 + 8 * k) 8))) }

/-- A unit is in service, unfenced and unquarantined under the present conditions (10 R293). -/
def State.usable (s : State) (u : Nat) : Bool :=
  let q : Quar := Tab.get {} s.quar u
  decide (u < 63) && decide (s.unitState u < stFenced) && !q.all && !q.holds

/-- Placement `k` of a job; an empty one where it has none. -/
def Job.placeNo (x : Job) (k : Nat) : Placement := (x.places[k]?).getD { modes := 0, reserve := false, units := [] }

/-- What admission of placement `k` counts as the job's own: the primary, the reserved fallbacks and this placement (log 78). -/
def Job.mineAt (x : Job) (k : Nat) : List Placement :=
  let h := heldPlaces x.places 0
  if h.contains (x.placeNo k) then h else x.placeNo k :: h

/-- Checks 6 to 12 of placement `k` of job `x` of partition `part` (10 R288, R289) beside the jobs `js`, where the job itself holds the
placements `mine`. -/
def State.admPlace (s : State) (js : List Nat) (x : Job) (part k : Nat) (mine : List Placement) : Adm := do
  let p := x.placeNo k
  let prim := x.placeNo 0
  let units := p.units.zip (List.range p.units.length)
  let d := PDESC part
  admAll (fun i (u : UnitRec) => adm
    (bit (s.getF (d + 8) pdUNITS) u.slot && decide (u.slot < 63 ∧ s.unitState u.slot < stFenced) &&
      !(Tab.get {} s.quar u.slot : Quar).all && decide (kindOf u.slot = kindOf (prim.slotOf i)) &&
      units.all (fun (v, m) =>
        decide (m = i ∨ v.div = 0 ∨ v.div ≠ u.div ∨ dieOf v.slot ≠ dieOf u.slot))) 6 k i) 0 p.units
  let pages := fun c => holdPages mine c + sumOf (js.map (fun j => holdPages (s.jobHeld j) c))
  admAll (fun i (u : UnitRec) => adm
    (decide (pages u.slot ≤ 64) && (freeBase (s.rangesOn js u.slot) (holdPages mine u.slot)).isSome)
    7 k i (pages u.slot - 64)) 0 p.units
  let all := pagesOf mine + s.partSum js part (fun j => pagesOf (s.jobHeld j))
  adm (decide (all ≤ s.getF (d + 16) pdPAGES)) 7 k 0 (all - s.getF (d + 16) pdPAGES)
  let spad := fun c => holdSpad mine c + sumOf (js.map (fun j => holdSpad (s.jobHeld j) c))
  let others := fun c => js.flatMap (fun j => (s.jobHeld j).flatMap (fun q => q.on c))
  admAll (fun i (u : UnitRec) => adm
    (decide (spad u.slot ≤ spadSize ∧ u.spadOff + u.spadLen ≤ spadSize) &&
      (others u.slot).all (fun v => decide (u.spadLen = 0 ∨ v.spadLen = 0) ||
        !meets u.spadOff u.spadLen v.spadOff v.spadLen) &&
      units.all (fun (v, m) => decide (m = i ∨ v.slot ≠ u.slot ∨ u.spadLen = 0 ∨ v.spadLen = 0) ||
        !meets u.spadOff u.spadLen v.spadOff v.spadLen)) 8 k i (spad u.slot - spadSize)) 0 p.units
  let all := spadOf mine + s.partSum js part (fun j => spadOf (s.jobHeld j))
  adm (decide (all ≤ s.getF (d + 24) pdSPAD)) 8 k 0 (all - s.getF (d + 24) pdSPAD)
  admAll (fun i (u : UnitRec) => adm
    (decide (48 ≤ u.slot) || decide (u.ctxOff ≠ 0xFFFFFFFF ∧ u.ctxOff + imageSize ≤ spadSize) &&
        (others u.slot).all (fun v => decide (v.ctxOff ≠ 0xFFFFFFFF)) &&
        (p.on u.slot).all (fun v => decide (v.ctxOff ≠ 0xFFFFFFFF)) ||
      (decide ((others u.slot).length = 0) && decide ((p.on u.slot).length = 1))) 9 k i) 0 p.units
  admAll (fun i (w : WinRec) => adm
    (js.all (fun j => (s.jobHeld j).all (fun q => (s.job j).wins.all (fun y =>
      decide (q.slotOf y.lunit ≠ p.slotOf w.lunit ∨ y.win ≠ w.win)))) &&
      (x.wins.take i).all (fun y => decide (p.slotOf y.lunit ≠ p.slotOf w.lunit ∨ y.win ≠ w.win))) 10 k i) 0 x.wins
  let all := entriesOf mine (x.wins.map (·.lunit)) + s.partSum js part (fun j => entriesOf (s.jobHeld j) ((s.job j).wins.map (·.lunit)))
  adm (decide (all ≤ s.getF (d + 16) pdWINDOWS)) 10 k 0 (all - s.getF (d + 16) pdWINDOWS)
  admAll (fun i (q : QRec) => adm
    (decide (p.slotOf q.lunit ≠ 63) && js.all (fun j => (s.jobHeld j).all (fun r =>
      (s.job j).queues.all (fun y => decide (r.slotOf y.lunit ≠ p.slotOf q.lunit ∨ y.lidx ≠ q.lidx)))) &&
      (x.queues.take i).all (fun y => decide (p.slotOf y.lunit ≠ p.slotOf q.lunit ∨ y.lidx ≠ q.lidx))) 11 k i)
    0 x.queues
  let all := entriesOf mine (x.queues.map (·.lunit)) + s.partSum js part (fun j => entriesOf (s.jobHeld j) ((s.job j).queues.map (·.lunit)))
  adm (decide (all ≤ s.getF (d + 16) pdQUEUES)) 11 k 0 (all - s.getF (d + 16) pdQUEUES)
  admAll (fun i (t : SlotRec) =>
    let u := p.slotOf t.lunit
    let own := mergeOwn (sortAt ((x.slots.filter (fun y => decide (p.slotOf y.lunit = u))).map (fun y => (y.start, y.len, 0))))
    let busy := s.busyOn js u
    let met := sumOf (busy.map (fun (a, n) => sharedUs t.start t.len a n))
    let need := schedGaps 0 ((sortAt (own ++ busy.map (fun (a, n) => (a, n, 0)))).map (fun (a, n, _) => (a, n)))
    adm (decide (met = 0 ∧ need ≤ 16)) 12 k i (if met = 0 then need - 16 else met)) 0 x.slots

/-- Words `c` and `q` are the ATTN_CFG and ATTN_POOL in force (07 R195). -/
def State.attnSame (s : State) (c q : Nat) : Bool :=
  [acSPLIT, acCAPT, acLROWT, acCAPP, acLROWP].all (fun f => decide (s.getF (ATTN_CFG 48) f = f.of c)) &&
  [apPAGES, apPOOL].all (fun f => decide (s.getF (ATTN_POOL 48) f = f.of q))

/-- Attention geometry that R185 and R195 accept. -/
def State.poolFits (s : State) (im : List Nat) : Bool :=
  let c := fieldAt im 0x40 8
  let q := fieldAt im 0x48 8
  let rows := fun cap row => (cap + 1) * 2 ^ row
  let pg := fun n => (n + 65535) / 65536
  let t := rows (acCAPT.of c) (acLROWT.of c)
  let p := rows (acCAPP.of c) (acLROWP.of c)
  let pages := apPAGES.of q + 1
  let split := acSPLIT.of c
  !bit (fieldAt im 0x16 2) 1 ||
  (decide (split ≤ 4096 ∧ split % 4 = 0 ∧ 6 ≤ acLROWT.of c ∧ acLROWT.of c ≤ 16 ∧ 6 ≤ acLROWP.of c ∧
      acLROWP.of c ≤ 16 ∧ t ≤ 2 ^ 20 ∧ p ≤ 2 ^ 20 ∧ pages % 4 = 0) &&
    decide ((split / 4 + 2) * pg t + (4096 - split) / 4 * pg p ≤ pages / 4) &&
    (match place (apPOOL.of q * 65536) (pages * 65536) with
     | .main | .cs _ => s.rgnOk 65 (fieldAt im 0x10 1) false (apPOOL.of q * 65536) (pages * 65536) &&
        s.rgnOk 65 (fieldAt im 0x10 1) true (apPOOL.of q * 65536) (pages * 65536)
     | _ => false) &&
    (s.ctx.all (fun (_, x) => decide (x.kind ≠ 1 ∧ x.kind ≠ 2)) || s.attnSame c q))

/-- The ring of a queue lies in the region table of partition `part` (10 R268). -/
def State.ringOk (s : State) (part : Nat) (q : QRec) : Bool :=
  s.rgnOk 65 part false q.ring (2 ^ q.ldepth * 64) && s.rgnOk 65 part true q.ring (2 ^ q.ldepth * 64)

/-- All checks of an image that came through the queue of partition `qp` in a request that names partition `rp` (10 R288). -/
def State.admCheck (s : State) (qp rp : Nat) (im : List Nat) : Adm := do
  adm (imageFormOk im) 1
  let part := fieldAt im 0x10 1
  let d := PDESC part
  let x := imJob im
  let js := s.admitted
  adm (decide (part = qp ∧ rp = qp ∧ s.getF SEC_STATUS scLIFE ≠ 4 ∧ s.getF d pdVALID = 1 ∧ s.getF d pdCLASS = x.cls)) 2
  let mineN := (js.filter (fun j => decide (s.getF (JOB_STAT j) jsPART = part))).length
  adm (decide (js.length < 255 ∧ mineN < s.getF d pdMAXJOBS)) 3 0 0 1
  adm (!x.vehicle || vehicleOk ((im.drop (fieldAt im 0x3C 4)).take 256)) 4
  admAll (fun i (m : MemRec) => adm
    ((!bit m.perm 0 || s.rgnOk 65 part false m.base m.len) && (!bit m.perm 1 || s.rgnOk 65 part true m.base m.len) &&
      js.all (fun j => (s.job j).mem.all (fun y => decide (y.len = 0 ∨ m.len = 0) ||
        !meets m.base m.len y.base y.len))) 5 0 i) 0 x.mem
  admAll (fun i (q : QRec) => adm (s.ringOk part q) 5 0 i) 0 x.queues
  admAll (fun _ k => s.admPlace js x part k (x.mineAt k)) 0 (List.range x.places.length)
  admAll (fun i (b : BarRec) => adm
    (js.all (fun j => (s.job j).bars.all (fun y => decide (y.bid ≠ b.bid))) &&
      (x.bars.take i).all (fun y => decide (y.bid ≠ b.bid))) 13 0 i) 0 x.bars
  let bars := x.bars.length + s.partSum js part (fun j => (s.job j).bars.length)
  adm (decide (bars ≤ s.getF d pdBARRIERS)) 13 0 0 (bars - s.getF d pdBARRIERS)
  let ng := (x.groups.filter (fun g => decide (2 ≤ g.size))).length
  let used := (List.range 16).filter (fun g => s.flag (RG_CFG g) rcV)
  let usedP := used.filter (fun g => decide (s.getF (RG_CFG g) rcPART = part))
  adm (decide (ng + used.length ≤ 16 ∧ ng + usedP.length ≤ s.getF d pdGROUPS) &&
    (decide (ng = 0) || decide (s.getF RED_STATUS rdCMPOK ≠ 0))) 14 0 0
    (max (ng + used.length - 16) (ng + usedP.length - s.getF d pdGROUPS))
  adm (s.poolFits im) 15
  admAll (fun i (q : QRec) => adm (!q.cq || decide (q.cplMax ≤ 2 ^ q.ldepth)) 16 0 i (q.cplMax - 2 ^ q.ldepth)) 0
    x.queues
  admAll (fun i (p : Placement) => adm (decide (i = 0 ∨ p.modes ≠ 0)) 17 i) 0 x.places
  admAll (fun i (q : QRec) => adm
    (decide (q.backup = 0xFFFF) ||
      (match x.queues[q.backup]?, x.places[0]? with
       | some b, some p => decide (b.lunit ≠ q.lunit ∧ b.pmode = 0 ∧
          kindOf (p.slotOf b.lunit) = kindOf (p.slotOf q.lunit))
       | _, _ => false)) 17 0 i) 0 x.queues

end Sys2Proof.Machine
end

