-- ==== Sys2Proof/Machine/JobOps.lean ====
section
/-! DEFINITION. Admission, withdrawal, restart and moves of jobs, backups and suspects (10 R287, R291 to R300). -/

namespace Sys2Proof.Machine

/-! Requests that island A serves (10 R277, R287; 12 R361). -/

/-- Island A, or B, serves its duties: it is not failed (12 R332). -/
def State.islandServes (s : State) (b : Bool) : Bool := !s.flag ISL_STATUS (if b then isBFAIL else isAFAIL)

/-- The next entry of a queue of slot 63 whose TYPE is wanted, while it can be read. -/
def State.request (s : State) (q : Nat) (want : Nat → Bool) : Option (List Nat) :=
  let n := s.qNext q
  if !s.qEn q || s.qIsCq q || decide (n = s.qTailOf q) || s.readFails 65 (s.qPart q) (s.qEntryAddr q n) 64 then none
  else
    let b := s.qEntry q n
    if want (fieldAt b 0 1) then some b else none

/-- Take the next entry. -/
def State.takeRequest (s : State) (q : Nat) : State := s.setF (qPtr q) qNEXT (s.qNext q + 1)

/-- Answer the entry taken last: a completion with STATUS 0, then HEAD advances (10 R275, R287). -/
def State.answer (s : State) (q : Nat) (b : List Nat) (result : Nat) : State :=
  let n := s.qNext q + 2 ^ 32 - 1
  let it := parseItem q (n % 2 ^ 32) 0xFF s.now b
  let x : IslPlan := Tab.get {} s.plan.isl 0
  let c := it.cplq
  let s :=
    if c = 0xFFFF then s
    else if s.cqServes c q then
      s.pushCq c (cplBytes 63 { item := { it with copy := 0 }, result := result } false 0 x.seq ((s.now - x.at_) / 1000))
        .island
    else s.event 10
  s.setF (qPtr q) qHEAD (s.qNext q)

/-- The zero bytes of a request of 10 R287 are zero. -/
def admReqOk (b : List Nat) : Bool :=
  decide (fieldAt b 3 1 = 0) && zeroBytes b 6 2 && zeroBytes b 0x10 24 && zeroBytes b 0x30 16

/-! Grants (10 R289, R291). -/

/-- Put a program segment of 8-byte words at byte `dest` of the program store of cell `c` (03 R67). -/
def State.putProgram (s : State) (c dest : Nat) (ws : List Nat) : State :=
  let x := s.cell c
  let len := 8 * ws.length
  let prog := (ws.zip (List.range ws.length)).foldl (fun p (w, i) => Tab.set 0 p (dest / 8 + i) (BitVec.ofNat 64 w)) x.prog
  let pages := (List.range 64).filter (fun k => decide (dest < (k + 1) * 4096 ∧ k * 4096 < dest + len))
  let s := s.setCell c { x with prog := prog }
  let s := { s with ecc := s.ecc.filter (fun (k, _) =>
    !(decide (progWord c (dest / 8) ≤ k ∧ k < progWord c ((dest + len) / 8)))) }
  s.setF (UNIT_PVALID c) pvalidPAGES (pages.foldl setBit (s.getF (UNIT_PVALID c) pvalidPAGES))

/-- The pages of a placement's units before logical unit `i` on the same cell. -/
def Placement.pagesBefore (p : Placement) (i : Nat) : Nat :=
  let c := p.slotOf i
  sumOf (((p.units.take i).filter (fun u => decide (u.slot = c))).map (·.pages))

/-- Load the programs of a placement of job `j` into its ranges. -/
def State.loadPrograms (s : State) (j : Nat) (p : Placement) : State :=
  (s.job j).segs.foldl (fun s (i, dest, ws) =>
    let c := p.slotOf i
    match (s.job j).pbase.find? (fun (u, _) => decide (u = c)) with
    | some (_, b, _) => if c < 48 then s.putProgram c ((b + p.pagesBefore i) * 4096 + dest) ws else s
    | none => s) s

/-- PBASE of job `j` on cell `c`. -/
def Job.baseOn (x : Job) (c : Nat) : Nat :=
  match x.pbase.find? (fun (u, _) => decide (u = c)) with
  | some (_, b, _) => b
  | none => 0

/-- The program ranges of a job that holds the placements `pls`, beside the jobs `js`: a range that it has and
that is long enough stays, others take the lowest free base. -/
def State.chooseRanges (s : State) (js : List Nat) (x : Job) (pls : List Placement) : List (Nat × Nat × Nat) :=
  ((slotsOf pls).filter (fun c => decide (c < 48 ∧ 0 < holdPages pls c))).filterMap (fun c =>
    let n := holdPages pls c
    match x.pbase.find? (fun (u, _, m) => decide (u = c ∧ n ≤ m)) with
    | some r => some r
    | none => (freeBase (s.rangesOn js c) n).map (fun b => (c, b, n)))

/-- The windows that a list of placements of job `j` holds: slot and index. -/
def State.windowsOf (s : State) (j : Nat) (pls : List Placement) : List (Nat × Nat) :=
  pls.flatMap (fun p => (s.job j).wins.map (fun w => (p.slotOf w.lunit, w.win)))

/-- Grant the windows of a placement (05 R129); one that the job has already begins a new round where it is open (10 R294). -/
def State.grantWindows (s : State) (j : Nat) (p : Placement) (has : List (Nat × Nat)) : State :=
  (s.job j).wins.foldl (fun s w =>
    let c := p.slotOf w.lunit
    let a := winCtl c w.win
    if has.contains (c, w.win) then
      let s := s.setF a winOWNER ((s.job j).baseOn c)
      if s.flag a winOPEN then s.winRound c w.win else s
    else
    let s := [winLIMIT, winBASE, winOPEN, winMODE].foldl (fun s f => s.setF a f 0) s
    let s := s.setF a winPART (s.getF (JOB_STAT j) jsPART)
    let s := s.setF a winLANES w.lanes
    let s := s.setF a winSEAL (b2n w.seals)
    let s := s.setF a winGTOKEN (b2n w.gtokEn)
    let s := s.setF a winGTOK w.gtok
    let s := s.setF a winOWNER ((s.job j).baseOn c)
    (s.setF a winOWNV 1).winRound c w.win) s

/-- Grant a queue at `q` to job `j`; HEAD, NEXT and TAIL stay, and no entry of it counts as pushed by island A. -/
def State.grantQueue (s : State) (j q : Nat) (r : QRec) : State :=
  let c := qCtl q
  let s := { s with qIsland := s.qIsland.filter (fun (k, _) => decide (k / 65536 ≠ q)) }
  let s := s.setF (qRing q) qLDEPTH r.ldepth
  let s := s.setF (qRing q) qBASE (r.ring / 64)
  let s := s.setF c qRDRV 0
  let s := s.setF c qJIDX j
  let s := s.setF c qPART (s.getF (JOB_STAT j) jsPART)
  let s := s.setF c qIRQEN (b2n r.irq)
  let s := s.setF c qPRIO r.prio
  let s := s.setF c qPMODE r.pmode
  let s := s.setF c qCQ (b2n r.cq)
  s.setF c qEN 1

/-- The slots of a mask over logical units; bit 63 names the application cores (03 R65). -/
def Placement.slotMask (p : Placement) (m : Nat) : Nat :=
  (if bit m 63 then 2 ^ 63 else 0) ||| ((List.range p.units.length).filter (fun i => bit m i)).foldl (fun a i => setBit a (p.slotOf i)) 0

/-- Write the barriers of job `j` for a placement: a fresh phase, not broken (03 R60, R64, R65). -/
def State.grantBarriers (s : State) (j : Nat) (p : Placement) : State :=
  (s.job j).bars.foldl (fun s b =>
    let s := (List.range 8).foldl (fun s p =>
      if s.getF (BAR_HART p) bhLAST = b.bid + 1 then s.setF (BAR_HART p) bhBROKEN 0 else s) s
    s.setBarrier b.bid { members := p.slotMask b.members, owner := s.getF (JOB_STAT j) jsPART }) s

/-- One release target: V, ALT, SLOT, WIN (11 R303, R329). -/
def State.writeTarget (s : State) (a : Nat) (p : Placement) (t : Option TgtRec) : State :=
  match t with
  | none => s.setF a rtV 0
  | some t =>
    let s := s.setF a rtALT (b2n t.alt)
    let s := s.setF a rtSLOT (if t.lunit = 0xFF then 63 else p.slotOf t.lunit)
    (s.setF a rtWIN t.win).setF a rtV 1

/-- The mailbox window of a partition as the admission of the job that names it sets it (09 R254). -/
def State.grantMailbox (s : State) (part mask : Nat) : State :=
  let a := winCtl 63 part
  let s := [(winBASE, 0), (winLIMIT, 24), (winLANES, 3), (winMODE, 0), (winSEAL, 1), (winGTOKEN, 0), (winPART, part),
    (winOPEN, 1)].foldl (fun s (f, v) => s.setF a f v) s
  (s.setF (winMask 63 part) winMASK mask).winRound 63 part

/-- The lowest comparison unit in service (11 R304). -/
def State.cmpUnit (s : State) : Nat := ((List.range 5).find? (fun c => bit (s.getF RED_STATUS rdCMPOK) c)).getD 0

/-- Form group number `g` of job `j` from group-table entry `e` in placement `p` (11 R303, R329). -/
def State.formGroup (s : State) (j g : Nat) (e : GroupRec) (p : Placement) : State :=
  let part := s.getF (JOB_STAT j) jsPART
  let cmp := s.cmpUnit
  let m := fun i => p.slotOf (e.members.getD i 0)
  let c := RG_CFG g
  let s := [(rcV, 1), (rcKIND, 0), (rcTRIAD, b2n (decide (e.size = 3))), (rcCMP, cmp), (rcJIDX, j), (rcPART, part),
    (rcM0, m 0), (rcM1, m 1), (rcM2, if e.size = 3 then m 2 else 0)].foldl (fun s (f, v) => s.setF c f v) s
  let st := RG_STAT g
  let s := [(rsLASTCKID, 0), (rsHIST, 0), (rsOUTCOME, 0), (rsODD, 0), (rsDETACHED, 0), (rsPRESENT, 2 ^ e.size - 1),
    (rsSTATE, 1)].foldl (fun s (f, v) => s.setF st f v) s
  let s := (List.range 8).foldl (fun s t => s.writeTarget (RG_TGT g t) p e.targets[t]?) s
  let s := (List.range e.size).foldl (fun s i =>
    [(rgDETACHED, 0), (rgPOS, i), (rgCMP, cmp), (rgRG, g), (rgV, 1)].foldl (fun s (f, v) => s.setF (UNIT_RG (m i)) f v) s)
    s
  { s with groups := Tab.set {} s.groups g { cks := e.cks } }

/-- Members of a group that are present and attached. -/
def State.attached (s : State) (g : Nat) : List Nat :=
  (List.range 3).filter (fun p => bit (s.getF (RG_STAT g) rsPRESENT) p && !bit (s.getF (RG_STAT g) rsDETACHED) p)

/-- Cause 3 of 12 R355: a group of a class-D job runs with fewer than three members present and attached. -/
def State.groupCause (s : State) : State :=
  s.setCause 3 ((List.range 16).any (fun g =>
    s.flag (RG_CFG g) rcV && !s.flag (RG_CFG g) rcKIND && decide (s.classOf (s.getF (RG_CFG g) rcPART) = 0) &&
    decide ((s.attached g).length < 3)))

/-- Groups and solo targets of job `j` in placement `p`: `nos` are the group numbers by table entry. -/
def State.grantGroups (s : State) (j : Nat) (nos : List Nat) (p : Placement) : State :=
  let x := s.job j
  let s := (x.groups.zip nos).foldl (fun s (e, g) =>
    if 2 ≤ e.size then s.formGroup j g e p
    else
      (List.range 8).foldl (fun s t => s.writeTarget (SOLO_TGT (p.slotOf (e.members.getD 0 0)) t) p e.targets[t]?) s) s
  let part := s.getF (JOB_STAT j) jsPART
  let names := x.groups.filter (fun e => e.targets.any (fun t => decide (t.lunit = 0xFF)))
  let mask := (names.flatMap (·.members)).foldl (fun a i => setBit a (p.slotOf i)) 0
  (if names = [] then s else s.grantMailbox part mask).groupCause

/-- The group numbers of the entries of a group table: the lowest FREE ones in order, 0xFF for SIZE 1. -/
def groupNumbers : List GroupRec → List Nat → List Nat
  | [], _ => []
  | e :: t, free =>
    if 2 ≤ e.size then free.headD 0xFF :: groupNumbers t free.tail else 0xFF :: groupNumbers t free

/-! The schedule (10 R280). -/

/-- The entries that fill a unit's schedule from the sorted stretches `(start, length, job)`: JIDX 0x100 marks a
BLOTTER entry; gaps are idle. -/
def fillSched : Nat → List (Nat × Nat × Nat) → List (Nat × Nat)
  | e, [] => if e < 25000 then [(e, 0xFF)] else []
  | e, (a, n, j) :: t => (if e < a then [(e, 0xFF)] else []) ++ (a, j) :: fillSched (a + n) t

/-- Write the schedule of unit `u` from what the admitted jobs' placements in force ask for, keeping its BLOTTER
entry; one that has none gets it at the end of the frame (10 R280; log 79). -/
def State.writeSched (s : State) (u : Nat) : State :=
  let busy := s.admitted.flatMap (fun j =>
    match s.placement j with
    | some p => ((s.job j).slots.filter (fun t => decide (p.slotOf t.lunit = u))).map (fun t => (t.start, t.len, j))
    | none => [])
  let blot := ((List.range 16).filter (fun e => s.flag (SCHED u e) scV && s.flag (SCHED u e) scBLOTTER)).map (fun e =>
    (s.getF (SCHED u e) scSTART, blotterLen u, 0x100))
  let blot := if blot = [] then [(25000 - blotterLen u, blotterLen u, 0x100)] else blot
  let l := fillSched 0 (mergeOwn (sortAt (busy ++ blot)))
  (List.range 16).foldl (fun s e =>
    match l[e]? with
    | some (a, j) =>
      [(scV, 1), (scBLOTTER, b2n (decide (j = 0x100))), (scJIDX, if j = 0x100 then 0xFF else j), (scSTART, a)].foldl
        (fun s (f, v) => s.setF (SCHED u e) f v) s
    | none => s.setF (SCHED u e) scV 0) s

/-- Write ENABLE of every cell of a placement. -/
def State.enableUnits (s : State) (p : Placement) : State :=
  (p.units.map (·.slot)).foldl (fun s c => if c < 48 then s.setF (UNIT_CTRL c) ctrlENABLE 1 else s) s

/-- The job-statistics counters of a job index return to zero; the block names its job (17 R462). -/
def State.clearStats (s : State) (j : Nat) : State :=
  let t : State := { s with regs := s.regs.filter (fun (k, _) => !(decide (JOB_ST j 0 * 64 ≤ k ∧ k < JOB_ST (j + 1) 0 * 64))) }
  t.setF (JOB_ST j 0) jtCOUNT (s.getF (JOB_STAT j) jsJOBID)

/-- Island A sets the geometry of words `c` and `q` in all four engines where it differs from the one in force: the contexts of
Blotter are released before and bound again after it (07 R195). -/
def State.setGeometry (s : State) (c q : Nat) : State :=
  if s.attnSame c q then s
  else
    let s := blotCtxs.foldl (fun s n => if (s.ctxOf n).kind = 0 then s else s.freeCtx n) s
    let s := [48, 49, 50, 51].foldl (fun s u => attnCfgWrite .islandA u true q (attnCfgWrite .islandA u false c s)) s
    blotCtxs.foldl (fun s n => s.bindCtx n 3 0) s

/-- Grant everything that image `im` asks for, as job index `j` of partition `part` (10 R291). -/
def State.grantJob (s : State) (j part : Nat) (im : List Nat) : State :=
  let x := imJob im
  let pls := heldPlaces x.places 0
  let js := s.admitted
  let s := s.dirChange
  let nos := groupNumbers x.groups ((List.range 16).filter (fun g => !s.flag (RG_CFG g) rcV))
  let x := { x with pbase := s.chooseRanges js x pls, groupNo := nos }
  let s := s.setF (JOB_STAT j) jsJOBID (x.imageId * 65536 + part * 256 + j)
  let s := s.setF (JOB_STAT j) jsPART part
  let s := s.setF (JOB_STAT j) jsPLACE 0
  let s := (s.setF (JOB_STAT j) jsSTATE jLoading).clearStats j
  let s := s.setJob j x
  let s := pls.reverse.foldl (fun s p => s.loadPrograms j p) s
  let s := pls.foldl (fun s p => s.grantWindows j p []) s
  match x.places[0]? with
  | none => s
  | some p =>
    let s := x.queues.foldl (fun s r => s.grantQueue j (p.slotOf r.lunit * 256 + r.lidx) r) s
    let s := s.grantBarriers j p
    let s := (s.grantGroups j nos p).enableUnits p
    let s := (slotsOf [p]).foldl (fun s u => s.writeSched u) s
    let s := if x.attn then s.setGeometry (fieldAt im 0x40 8) (fieldAt im 0x48 8) else s
    if x.vehicle then { s with plan := { s.plan with vehicle := (im.drop (fieldAt im 0x3C 4)).take 256 } } else s

/-- The lowest job index without a job. -/
def State.freeJob (s : State) : Option Nat :=
  (List.range 255).find? (fun j => decide (s.jobState j = jFree ∨ s.jobState j = jWithdrawn))

/-- The bytes of the image at `a`, where island A can read them; none otherwise. -/
def State.imageAt (s : State) (part a : Nat) : List Nat :=
  let ok := fun n => (match place a n with
    | .main | .cs _ => !s.outOfService (place a n) && !s.readFails 65 part a n
    | _ => false)
  if !ok 128 then []
  else
    let n := fieldAt (s.readBytes 65 part a 128) 8 4
    if ok n then s.readBytes 65 part a n else []

/-- ADMIT: island A answers the next request of partition `p`, where it asks for admission or has an unknown
TYPE (10 R287, R288). -/
def admitCmd (p t : Nat) (s : State) : State :=
  let s := s.at t
  let q := 63 * 256 + p
  if p ≥ 8 ∨ !s.islandServes false then s
  else
    match s.request q (fun ty => decide (ty ≠ 0x11 ∧ ty ≠ 0x12)) with
    | none => s
    | some b =>
      let s := s.takeRequest q
      let im := s.imageAt p (fieldAt b 8 8)
      let ok := decide (fieldAt b 0 1 = 0x10) && admReqOk b && decide (fieldAt b 1 1 = 0)
      let r := if !ok then .error { code := 1 } else
        s.admCheck p (fieldAt b 2 1) im
      match r, s.freeJob with
      | .error e, _ =>
        (s.sil1 378 e.code).answer q b
          (e.code + e.place % 4 * 256 + e.entry % 65536 * 65536 + min e.short 0xFFFFFFFF * 2 ^ 32)
      | .ok (), none => (s.sil1 378 3).answer q b (3 + 2 ^ 32)
      | .ok (), some j =>
        let s := s.grantJob j p im
        s.answer q b (s.getF (JOB_STAT j) jsJOBID * 2 ^ 32)

def execAdmitJob (p t : Nat) (s : State) : Host.Outcome State Fault Refusal := .next (admitCmd p t s)

/-! Withdrawal and restart (10 R291, R292). -/

/-- Job `j` gives up its work item on unit `u` as at a JOB_RESET, also where its slot is over, and posts no completion of it; a unit that
leaves the job keeps nothing of it. -/
def State.dropWork (s : State) (j u : Nat) (leaves : Bool) : State :=
  let own := decide (s.ownJob u = j)
  let area := (s.ctxArea j u).isSome
  let s := if !own then s else if s.ctrlClosed u then s.abandon u else s.jobReset u
  let x := s.unit u
  let held := if leaves then Tab.erase x.held j
    else if own || !area then x.held
    else Tab.insert x.held j { Tab.get {} x.held j with abandoned := true }
  s.setUnit u { x with binds := Tab.erase x.binds j, comps := x.comps.filter (fun c => decide (c.item.jidx ≠ j)), held := held }

/-- Free every group of job `j` and the solo targets of its units. -/
def State.freeGroups (s : State) (j : Nat) (p : Placement) : State :=
  let gs := (s.job j).groupNo.filter (fun g => decide (g < 16))
  let s := (slotsOf [p]).foldl (fun s c =>
    let s := if s.flag (UNIT_RG c) rgV ∧ gs.contains (s.getF (UNIT_RG c) rgRG) then
        (s.setF (UNIT_RG c) rgV 0).setF (UNIT_RG c) rgDETACHED 0 else s
    (List.range 8).foldl (fun s t => s.setF (SOLO_TGT c t) rtV 0) s) s
  gs.foldl (fun s g =>
    let s := (s.setF (RG_CFG g) rcV 0).setF (RG_STAT g) rsSTATE 0
    let s := s.setF (RG_STAT g) rsPRESENT 0
    let s := (List.range 8).foldl (fun s t => s.setF (RG_TGT g t) rtV 0) s
    { s with groups := Tab.erase s.groups g }.groupCause) s

/-- Stop job `j`, disable its queues and free every grant (10 R291). -/
def State.releaseJob (s : State) (j : Nat) : State :=
  let x := s.job j
  let held := s.jobHeld j
  let s := s.dirChange
  match s.placement j with
  | none => (s.setJobState j jWithdrawn).setJob j {}
  | some p =>
    let s := (slotsOf [p]).foldl (fun s u => s.dropWork j u true) s
    let s := x.queues.foldl (fun s r => s.setF (qCtl (p.slotOf r.lunit * 256 + r.lidx)) qEN 0) s
    let s := held.foldl (fun s q => x.wins.foldl (fun s w =>
      let a := winCtl (q.slotOf w.lunit) w.win
      (s.setF a winOPEN 0).setF a winOWNV 0) s) s
    let s := x.bars.foldl (fun s b => s.setBarrier b.bid { Barrier.reset with broken := (s.barrier b.bid).broken }) s
    let s := s.freeGroups j p
    let s := (s.setJobState j jWithdrawn).setJob j {}
    (slotsOf [p]).foldl (fun s u => s.writeSched u) s

/-- Why a WITHDRAW or RESTART of job `j` by partition `p` is refused (10 R288). -/
def State.jobRefused (s : State) (p : Nat) (b : List Nat) : Option Nat :=
  let j := fieldAt b 1 1
  let st := s.jobState j
  if !admReqOk b || decide (fieldAt b 8 8 ≠ 0) then some 1
  else if j = 0xFF ∨ st = jFree ∨ st = jWithdrawn ∨ s.getF (JOB_STAT j) jsPART ≠ p ∨ fieldAt b 2 1 ≠ p then some 0x13
  else if st = jLoading ∨ st = jMoving then some 0x12
  else none

/-- A request of partition `p` about a job: `f` is what it does where nothing refuses it. -/
def State.jobRequest (s : State) (p ty : Nat) (f : Nat → State → State) : State :=
  let q := 63 * 256 + p
  if p ≥ 8 ∨ !s.islandServes false then s
  else
    match s.request q (fun x => decide (x = ty)) with
    | none => s
    | some b =>
      let s := s.takeRequest q
      match s.jobRefused p b with
      | some c => (s.sil1 378 c).answer q b c
      | none =>
        let j := fieldAt b 1 1
        let id := s.getF (JOB_STAT j) jsJOBID
        (f j s).answer q b (id * 2 ^ 32)

def withdrawCmd (p t : Nat) (s : State) : State := (s.at t).jobRequest p 0x11 (fun j s => s.releaseJob j)

def execWithdraw (p t : Nat) (s : State) : Host.Outcome State Fault Refusal := .next (withdrawCmd p t s)

/-- Step 2 of a RESTART: each open window of the job begins a new round. -/
def State.reopenWindows (s : State) (j : Nat) (p : Placement) : State :=
  (s.job j).wins.foldl (fun s w =>
    let c := p.slotOf w.lunit
    if s.flag (winCtl c w.win) winOPEN then s.winRound c w.win else s) s

/-- NEXT := HEAD in every queue of the job. -/
def State.rewindQueues (s : State) (j : Nat) (p : Placement) : State :=
  (s.job j).queues.foldl (fun s r =>
    let q := p.slotOf r.lunit * 256 + r.lidx
    s.setF (qPtr q) qNEXT (s.qHead q)) s

/-- RESTART of job `j` (10 R292). -/
def State.restartJob (s : State) (j : Nat) : State :=
  match s.placement j with
  | none => s
  | some p =>
    let s := s.setJobState j jRestarting
    let s := (slotsOf [p]).foldl (fun s u => s.dropWork j u false) s
    let s := (s.reopenWindows j p).rewindQueues j p
    let s := s.setJobState j jRunning
    s.jobNotice j 3

def restartCmd (p t : Nat) (s : State) : State := (s.at t).jobRequest p 0x12 (fun j s => s.restartJob j)

def execRestart (p t : Nat) (s : State) : Host.Outcome State Fault Refusal := .next (restartCmd p t s)

/-! Moves (10 R293 to R296). -/

/-- The current mode as bit of MODES: THROUGHPUT, INTEGRITY, ENDURANCE, COOLANT_LOSS. -/
def State.mode (s : State) : Nat := s.getF CLK_STATUS ckMODE

/-- Placement `k` of job `j` may take the job now (10 R293). -/
def State.placeQualifies (s : State) (j k : Nat) : Bool :=
  let x := s.job j
  match x.places[k]? with
  | none => false
  | some p =>
    bit p.modes s.mode && p.units.all (fun u => s.usable u.slot) &&
    (match s.admPlace (s.admitted.filter (fun i => decide (i ≠ j))) x (s.getF (JOB_STAT j) jsPART) k [p] with
     | .ok () => true
     | .error _ => false)

/-- The first fallback that qualifies. -/
def State.fallbackFor (s : State) (j : Nat) : Option Nat :=
  ((List.range (s.job j).places.length).drop 1).find? (fun k => s.placeQualifies j k)

/-- Queues leave their units for their counterparts in one update: each counterpart takes over ring and pointers, the queue forwards to
it, and so does every queue that forwarded to the queue (10 R294). `l` names queue, counterpart and table entry. -/
def State.moveQueues (s0 : State) (j : Nat) (l : List (Nat × Nat × QRec)) : State :=
  let l := l.filter (fun (a, b, _) => decide (a ≠ b))
  let s := l.foldl (fun s (a, b, r) =>
    let s := s.grantQueue j b r
    let s := s.setF (qPtr b) qHEAD (s0.qHead a)
    let s := s.setF (qPtr b) qNEXT (s0.qHead a)
    let s := s.setF (qTail b) qTAIL (s0.qTailOf a)
    { s with qIsland := (List.range (s0.qDepth a)).foldl (fun m i =>
        Tab.set false m (65536 * b + i) (Tab.get false s0.qIsland (65536 * a + i))) s.qIsland }) s0
  let s := (List.range 16384).foldl (fun s q =>
    match l.find? (fun (a, _, _) => decide (s.flag (qCtl q) qRDRV ∧ s0.getF (qCtl q) qREDIRECT = a)) with
    | some (_, b, _) => s.setF (qCtl q) qREDIRECT b
    | none => s) s
  l.foldl (fun s (a, b, _) =>
    if l.any (fun (_, d, _) => decide (d = a)) then s
    else ((s.setF (qCtl a) qREDIRECT b).setF (qCtl a) qRDRV 1).setF (qCtl a) qEN 0) s

/-- The schedule written for unit `u` takes effect at once (10 R280). -/
def State.schedNow (s : State) (u : Nat) : State :=
  let s := s.setUnit u { s.unit u with sched := s.schedOf u }
  s.slotSwitch u (s.entryNow u)

/-- The entry `b` but for its copy index (10 R298). -/
def sansCopy (b : List Nat) : List Nat := b.set 1 (fieldAt b 1 1 % 4 + fieldAt b 1 1 / 16 * 16)

/-- The queue takes its items again: NEXT := HEAD. A copy that ran is passed over, and its item may have another (10 R294, R301). -/
def State.takeAgain (s : State) (q : Nat) : State :=
  let h := s.qHead q
  let e := s.qEntry q h
  if s.qNext q ≠ h ∧ Tab.get false s.qIsland (65536 * q + h % s.qDepth q) ∧ fieldAt e 1 1 / 4 % 4 ≠ 0 then
    let gone := fun (c : Nat × Nat) => decide (sansCopy (s.qEntry c.1 c.2) = sansCopy e)
    { (s.setF (qPtr q) qHEAD (h + 1)).setF (qPtr q) qNEXT (h + 1) with
      sup := { s.sup with copies := s.sup.copies.filter (fun c => !gone c) } }
  else s.setF (qPtr q) qNEXT h

/-- Free the windows of job `j` that are in `old` and not in `new`. -/
def State.freeWindows (s : State) (old new : List (Nat × Nat)) : State :=
  (old.filter (fun w => !new.contains w)).foldl (fun s (c, n) => (s.setF (winCtl c n) winOPEN 0).setF (winCtl c n) winOWNV 0) s

/-- UNIT_CTRL of the cells that job `j` is on shows its program range. -/
def State.showRanges (s : State) (j : Nat) : State :=
  (s.job j).pbase.foldl (fun s (c, b, n) =>
    if s.jobOf c = j then (s.setF (UNIT_CTRL c) ctrlPBASE b).setF (UNIT_CTRL c) ctrlPLEN n else s) s

/-- The placements whose needs the job holds once it has moved to placement `k`: those with RESERVE and this one. -/
def Job.movedTo (x : Job) (k : Nat) : List Placement :=
  ((x.places.zip (List.range x.places.length)).filter (fun (p, i) => p.reserve || decide (i = k))).map (·.1)

/-- Steps 4 to 6 of a move of job `j` to placement `k` (10 R294). -/
def State.movePlace (s : State) (j k : Nat) (old new : Placement) : State :=
  let js := s.admitted.filter (fun i => decide (i ≠ j))
  let had := s.jobHeld j
  let x := s.job j
  let pls := x.movedTo k
  let has := s.windowsOf j had
  let qs := x.queues.map (fun r => (old.slotOf r.lunit * 256 + r.lidx, new.slotOf r.lunit * 256 + r.lidx, r))
  let qs := qs.map (fun (a, b, r) => (a, b, { r with ring := s.getF (qRing a) qBASE * 64 }))
  let s := qs.foldl (fun s (a, _, _) => s.takeAgain a) s
  let s := (slotsOf [new]).foldl (fun s u => if (slotsOf [old]).contains u then s else s.unitReset u) s
  let s := s.setF (JOB_STAT j) jsPLACE k
  let free := (List.range 16).filter (fun g => !s.flag (RG_CFG g) rcV)
  let s := s.setJob j { x with pbase := s.chooseRanges js x pls, groupNo := groupNumbers x.groups free }
  let s := s.loadPrograms j new
  let s := (s.freeWindows has (s.windowsOf j pls)).grantWindows j new has
  let s := s.moveQueues j qs
  let s := (s.grantBarriers j new).grantGroups j (s.job j).groupNo new
  let s := (s.enableUnits new).showRanges j
  let us := (slotsOf [old] ++ slotsOf [new]).eraseDups
  let s := us.foldl (fun s u => s.writeSched u) s
  let s := us.foldl (fun s u => s.schedNow u) s
  let s := (slotsOf [old]).foldl (fun s u =>
    if (s.unit u).holder = j ∧ !(slotsOf [new]).contains u then s.setUnit u { s.unit u with holder := 0xFF, heldState := 0 }
    else s) s
  s.setJobState j jRunning

/-- Island A withdraws a job for which no fallback qualifies (10 R296); a job of class D raises reason 0x43
(12 R358). -/
def State.loseJob (s : State) (j : Nat) : State :=
  let part := s.getF (JOB_STAT j) jsPART
  let im := (s.job j).imageId
  let s := (s.releaseJob j).jobNotice j 2
  if s.classOf part = 0 then
    ({ s with sup := { s.sup with lost := s.sup.lost ++ [(im, part)] } }).raiseSafe 3
  else s

/-- Capacity left job `j`: it moves, or is withdrawn (10 R293, R294, R296). -/
def State.moveJob (s : State) (j : Nat) : State :=
  if s.jobState j = jFree ∨ s.jobState j = jWithdrawn ∨ s.jobState j = jMoving then s
  else
    match s.placement j with
    | none => s
    | some old =>
      match s.fallbackFor j with
      | none => s.loseJob j
      | some k =>
        match (s.job j).places[k]? with
        | none => s
        | some new =>
          let s := (slotsOf [old]).foldl (fun s u => s.dropWork j u (!(slotsOf [new]).contains u)) s
          let s := s.freeGroups j old
          let s := ((s.setJobState j jMoving).jobNotice j 1).dirChange
          s.movePlace j k old new

/-! Backups and suspects (10 R298, R300). -/

/-- The job and table entry that grant queue `q`. -/
def State.queueRec (s : State) (q : Nat) : Option (Nat × QRec) :=
  let j := s.getF (qCtl q) qJIDX
  match s.placement j with
  | none => none
  | some p =>
    ((s.job j).queues.find? (fun r => decide (p.slotOf r.lunit * 256 + r.lidx = q))).map (fun r => (j, r))

/-- BACKUP_LAUNCH at `t`: island A pushes a copy of item `n` of queue `q` to its backup queue (10 R298). -/
def backupLaunch (q n t : Nat) (s : State) : State :=
  let s := s.at t
  if q ≥ 16128 ∨ !s.islandServes false ∨ !(decide (subMod 32 n (s.qHead q) < s.qOcc q)) then s
  else
    match s.queueRec q with
    | none => s
    | some (j, r) =>
      match (s.job j).queues[r.backup]?, s.placement j with
      | some b, some p =>
        let e := s.qEntry q n
        let it := parseItem q n j s.now e
        let v := p.slotOf b.lunit
        let isl : IslPlan := Tab.get {} s.plan.isl 0
        let d := subMod 16 isl.seq it.dlSeq
        let us := (s.now - isl.at_) / 1000
        let due := if d < 2 ^ 15 then it.dlUs ≤ d * 25000 + us + it.margin
          else it.dlUs + (2 ^ 16 - d) * 25000 ≤ us + it.margin
        if !it.repl || decide (it.dlUs = 0xFFFF) || !decide due || !s.usable v || s.sup.copies.contains (q, n) then s
        else
          let copy := e.set 1 (fieldAt e 1 1 % 4 + 4 * 1)
          let (s, _) := s.push (v * 256 + b.lidx) copy .island
          { (s.event 11).jobCount j (0x1C0 + 56) with sup := { s.sup with copies := s.sup.copies ++ [(q, n)] } }
      | _, _ => s

def execBackupLaunch (q n t : Nat) (s : State) : Host.Outcome State Fault Refusal := .next (backupLaunch q n t s)

/-- The total of the last-arrival histogram of slot `u` (13 R369). -/
def State.arrivals (s : State) (u : Nat) : Nat :=
  sumOf ((List.range 64).map (fun b => Tab.get 0 s.sil.hist (64 * (142 + u) + b)))

/-- The other members of the barriers that slot `u` belongs to. -/
def State.peers (s : State) (u : Nat) : List Nat :=
  (List.range 63).filter (fun v => decide (v ≠ u) &&
    (List.range 64).any (fun b => bit (s.barrier b).members u && bit (s.barrier b).members v))

/-- SUSPECT_EVALUATION at `t` (10 R300): every unit's rise in the last second against the mean of its peers. -/
def suspectEvaluation (t : Nat) (s : State) : State :=
  let s := s.at t
  if !s.islandServes false then s
  else
    let rise := fun u => s.arrivals u - (s.unit u).lastTotal
    let rises := (List.range 63).map rise
    (List.range 63).foldl (fun s' u =>
      let ps := s.peers u
      let f := rises.getD u 0
      let sum := sumOf (ps.map (fun v => rises.getD v 0))
      let high := decide (16 < f ∧ ps ≠ [] ∧ 2 * sum < f * ps.length)
      let x := s'.unit u
      let o := if high then min 3 (x.overRun + 1) else 0
      let n := if high then 0 else min 60 (x.underRun + 1)
      let s' := s'.setUnit u { x with lastTotal := s.arrivals u, overRun := o, underRun := n }
      if o = 3 then s'.setF (UNIT_PART u) upSUSPECT 1
      else if n = 60 then s'.setF (UNIT_PART u) upSUSPECT 0
      else s') s

def execSuspectEvaluation (t : Nat) (s : State) : Host.Outcome State Fault Refusal := .next (suspectEvaluation t s)

end Sys2Proof.Machine
end

