-- ==== Sys2Proof/Machine/ClockOps.lean ====
section
/-! DEFINITION. Modes and dividers (01 R21 to R24; 18 R468, R470). -/

namespace Sys2Proof.Machine

/-- CLK_ARITH divider of a mode. -/
def modeDiv (m : Nat) : Nat := [4, 4, 5, 8].getD m 4

/-- Power cap of a mode, 0.1 W. -/
def modeCap (m : Nat) : Nat := [2800, 2200, 1600, 600].getD m 2200

/-- The divider one step slower, and one step faster. -/
def slower (d : Nat) : Nat := if d ≤ 4 then 5 else if d = 5 then 6 else 8
def faster (d : Nat) : Nat := if 8 ≤ d then 6 else if d = 6 then 5 else 4

/-- The guest's draw at VBUS in 0.1 W, at most 16.3 W (01 R24). -/
def State.guestDraw (s : State) : Nat :=
  if s.getF GST_STATUS gtSTATE = 3 then min 163 (s.getF GST_STATUS gtPOWER / 92) else 0

/-- The cap of the mode in force with the guest's allowance. -/
def State.setCap (s : State) : State := s.setF PWR_STATUS pwCAP (modeCap s.mode + s.guestDraw)

/-- The divider in force is the largest of the three (18 R468). -/
def State.setDivider (s : State) : State :=
  s.setF CLK_STATUS ckDIV (max (modeDiv s.mode) (max (s.getF CLK_STATUS ckTHERM) (s.getF CLK_STATUS ckPWR)))

/-- Mode `m` is in force: cap and integrity cause 0 (12 R355). -/
def State.inMode (s : State) (m : Nat) : State :=
  ((s.setF CLK_STATUS ckMODE m).setCap).setCause 0 (decide (m = 0 ∨ m = 3))

/-- A mode change is accepted; it takes effect at the first frame-start event at or after `t` (18 R470). -/
def State.askMode (s : State) (m t : Nat) : State :=
  let s := (s.setF CLK_STATUS ckPEND 1).setF CLK_STATUS ckPENDMODE m
  { s with pow := { s.pow with modeAt := t } }

/-- Drop a pending mode change. -/
def State.dropMode (s : State) : State := (s.setF CLK_STATUS ckPEND 0).setF CLK_STATUS ckPENDMODE 0

/-- Jobs whose placement excludes the mode in force move (10 R293). -/
def State.excludeModes (s : State) : State :=
  s.admitted.foldl (fun s j =>
    match s.placement j with
    | some p => if bit p.modes s.mode then s else s.moveJob j
    | none => s) s

/-! Core rails (18 R465, R469, R487). -/

/-- Voltage of a divider step before trim, mV. -/
def stepVolt (d : Nat) : Nat := if d ≤ 4 then 700 else if d = 5 then 640 else if d = 6 then 600 else 550

/-- The die whose trim a core rail takes: monitors 5 to 21 are dies 0 to 16; 22, the application cores, is die 16. -/
def railDie (n : Nat) : Nat := min 16 (n - 5)

/-- Target of core rail `n` for divider `d` with `k` trim steps; never above 0.76 V. -/
def railTarget (d k : Nat) : Nat := min 760 (stepVolt d + 5 * k)

/-- The trim of a die once the pending steps are in force. -/
def State.trimAfter (s : State) (d : Nat) : Nat := Tab.get (s.getF (TRIM d) tmSTEPS) s.pow.trimNext d

/-- The divider once every pending change is in force. -/
def State.divAfter (s : State) : Nat :=
  let m := if s.flag CLK_STATUS ckPEND then s.getF CLK_STATUS ckPENDMODE else s.mode
  max (modeDiv m) (max (s.pow.thermNext.getD (s.getF CLK_STATUS ckTHERM)) (s.pow.pwrNext.getD (s.getF CLK_STATUS ckPWR)))

/-- Each core rail takes the larger of what the divider in force and the one to come need. -/
def State.setRails (s : State) : State :=
  ((List.range 18).map (fun i => i + 5)).foldl (fun (s : State) n =>
    let d := railDie n
    s.setF (PWR_MON n) pmTARGET (max (railTarget (s.getF CLK_STATUS ckDIV) (s.getF (TRIM d) tmSTEPS))
      (railTarget s.divAfter (s.trimAfter d)))) s

/-- What a frame-start event brings to clocks: divider steps, a mode change that is due, trims (18 R468, R470,
R487). No rail is below the voltage of the divider that comes into force: a rise that has not begun comes with it. -/
def State.clockEvent (s : State) : State :=
  let s := if s.pow.thermNext.isSome ∨ s.pow.pwrNext.isSome ∨ s.pow.trimNext ≠ [] ∨ s.flag CLK_STATUS ckPEND then s.setRails else s
  let s := match s.pow.thermNext with
    | some d => s.setF CLK_STATUS ckTHERM d
    | none => s
  let s := match s.pow.pwrNext with
    | some d => s.setF CLK_STATUS ckPWR d
    | none => s
  let s : State := s.pow.trimNext.foldl (fun (s : State) (d, n) => s.setF (TRIM d) tmSTEPS n) s
  let s : State := { s with pow := { s.pow with thermNext := none, pwrNext := none, trimNext := [] } }
  let due := s.flag CLK_STATUS ckPEND && decide (s.pow.modeAt ≤ s.now)
  let s := if due then (s.inMode (s.getF CLK_STATUS ckPENDMODE)).dropMode else s
  let s := s.setDivider
  if due then s.excludeModes else s

end Sys2Proof.Machine
end

