-- ==== Sys2Proof/Machine/TriggerCmds.lean ====
section
/-! DEFINITION. The trigger generator, camera-echo configuration and stream watch (08 R199 to R211). -/

namespace Sys2Proof.Machine

def fsFields : List FD := [fsWIDTH, fsPHASE, fsLDIV, fsPOL, fsEN]
def lsFields : List FD := [lsWIDTH, lsOFFSET, fsLDIV, fsPOL, fsEN]

/-- What is written comes into force (08 R203); SLAVED of RIG_CTRL shows it (17 R459). -/
def State.applyTrig (s : State) : State :=
  { s.setF RIG_CTRL rigSLAVED (s.getF TRIG_CTRL tgMODE) with trig := { s.trig with
      slaved := s.flag TRIG_CTRL tgMODE, ref := s.getF TRIG_CTRL tgREFCH,
      fs := (List.range 16).foldl (fun m n => Tab.set 0 m n (s.wordF (TRIG_FS_CFG n) fsFields)) s.trig.fs,
      ls := (List.range 8).foldl (fun m n => Tab.set 0 m n (s.wordF (TRIG_LS_CFG n) lsFields)) s.trig.ls } }

/-- The word in force of an FSYNC channel. -/
def State.fsWord (s : State) (n : Nat) : Nat := Tab.get 0 s.trig.fs n

def State.cam (s : State) (n : Nat) : CamRt := Tab.get {} s.cams n
def State.setCam (s : State) (n : Nat) (x : CamRt) : State := { s with cams := Tab.set {} s.cams n x }

/-- A verdict other than USE is counted (08 R207): 0 SKIP, 1 EXCLUDED, 2 ABSENT. -/
def State.countVerdict (s : State) (n k : Nat) : State := s.sil1 379 (3 * n + k)

/-- The previous pulse of channel `n` goes without a frame (08 R207). -/
def State.absentVerdict (s : State) (n : Nat) : State :=
  let a := CAM_ECHO_STAT n
  let x := s.cam n
  let k := x.absent + 1
  let s := s.setCam n { x with absent := k }
  let s := (s.setF a cesVERDICT 3).countVerdict n 2
  if !s.flag (CAM_ECHO_CFG n) ceEN then s
  else
    let s := if 2 ≤ k then s.setF a cesSYNC 0 else s
    if s.flag a cesSYNC then s else s.setF a cesRUN 0

/-- The pulse that begins at `t` on a channel of word `w` whose WIDTH is `width` (08 R201, R204). -/
def pulseAt (t width w : Nat) : Pulse :=
  { start := t, stop := t + us (if width = 0 then 100 else min 1000 width), low := decide (fsPOL.of w = 1) }

/-- A pulse that runs at `t` ends then. -/
def Pulse.cut (t : Nat) (p : Pulse) : Pulse := { p with stop := min p.stop (max p.start t) }

/-- FSYNC channel `n` pulses: the pulse carries SEQ (08 R201). -/
def State.pulse (s : State) (n : Nat) : State :=
  let s : State := { s with trig := { s.trig with
    fsLast := Tab.insert s.trig.fsLast n (pulseAt s.now (fsWIDTH.of (s.fsWord n)) (s.fsWord n)) } }
  let x := s.cam n
  let s := if x.pulse.isSome ∧ !x.used then s.absentVerdict n else s
  s.setCam n { s.cam n with pulse := some (s.getF (TRIG_FS_SEQ n) fsSEQ), used := false }

/-- Channel `n` in a frame with REF_SEQ `r` (08 R200): the reference channel fires always, its sequence advances
whether or not it pulses. -/
def State.fireFs (s : State) (r n : Nat) : State :=
  let w := s.fsWord n
  let ref := decide (n = s.trig.ref)
  let fires := ref || decide ((r + fsPHASE.of w) % 2 ^ fsLDIV.of w = 0)
  let s' := if fires && decide (fsEN.of w = 1) then s.pulse n else s
  if fires && (ref || decide (fsEN.of w = 1)) then s'.setF (TRIG_FS_SEQ n) fsSEQ (s.getF (TRIG_FS_SEQ n) fsSEQ + 1) else s'

/-- LSYNC channel `n` in a frame with REF_SEQ `r`: its pulse is due OFFSET µs later (08 R202). -/
def State.fireLs (s : State) (r n : Nat) : State :=
  let w := Tab.get 0 s.trig.ls n
  if fsEN.of w = 1 ∧ r % 2 ^ fsLDIV.of w = 0 then
    { s with trig := { s.trig with lsDue := Tab.insert s.trig.lsDue n (s.now + us (min 24999 (lsOFFSET.of w))) } }
  else s

/-- A camera's new pose takes effect (07 R193). -/
def State.applyPoses (s : State) : State :=
  if s.cal.next = [] then s
  else { s with cal := { s.cal with poses := s.cal.next.foldl (fun m (c, p) => Tab.set [] m c p) s.cal.poses, next := [],
                                    changes := (s.cal.changes + 1) % 2 ^ 32 } }

/-- The certified candidates of the frame that ends go to their extreme record (13 R372); commands whose second engine has not
followed are no longer compared. -/
def State.countCertified (s : State) : State :=
  let n := s.plan.certified.foldl (fun n (_, k) => n + k) 0
  let s' : State := { s with plan := { s.plan with certified := [], checks := [] } }
  if s.plan.certified = [] then s' else s'.extreme 71 n

/-- Frames in a row in which every unit in service was ALIGNED (12 R358). -/
def State.countAligned (s : State) : State :=
  let ok := (List.range 63).all (fun u => decide (stFenced ≤ s.unitState u) || s.flag (UNIT_PART u) upALIGNED)
  { s with sup := { s.sup with alignedFrames := if ok then min 40 (s.sup.alignedFrames + 1) else 0 } }

/-- The trigger generator emits a frame-start event now (08 R199 to R203). -/
def State.emitEvent (s : State) : State :=
  let s := s.countCertified.countAligned.applyTrig
  let r := s.getF (TRIG_FS_SEQ s.trig.ref) fsSEQ
  let s := (List.range 16).foldl (fun s n => s.fireFs r n) s
  let s := (List.range 8).foldl (fun s n => s.fireLs r n) s
  let s := ((s.setF TRIG_STATUS tsREFSEQ r).setF TRIG_STATUS tsRUNNING 1).setF TRIG_STATUS tsHELD 0
  let s := { s with trig := { s.trig with lastEvent := some s.now }, nextIdRead := s.getF TRK_NEXT_ID tkNEXT }
  ((s.applyPoses).wire 21).clockEvent

/-- 25 ms have passed since the last event, or none was emitted since ENABLE was set. -/
def State.eventFree (s : State) : Bool :=
  match s.trig.lastEvent with
  | none => true
  | some e => decide (e + ms 25 ≤ s.now)

/-- FRAME_START_EVENT at `t`, in mode FREE. -/
def frameStartEvent (t : Nat) (s : State) : State :=
  let s := s.at t
  if s.flag TRIG_CTRL tgENABLE && !s.trig.slaved && s.eventFree then s.emitEvent else s

def execFrameStartEvent (t : Nat) (s : State) : Host.Outcome State Fault Refusal := .next (frameStartEvent t s)

/-- LSYNC_PULSE of channel `n` at `t` (08 R202). -/
def lsyncPulse (n t : Nat) (s : State) : State :=
  let s := s.at t
  match Tab.find s.trig.lsDue n with
  | none => s
  | some d =>
    if s.now < d then s
    else
      let w := Tab.get 0 s.trig.ls n
      { s with trig := { s.trig with lsDue := Tab.erase s.trig.lsDue n,
                                     lsLast := Tab.insert s.trig.lsLast n (pulseAt d (lsWIDTH.of w) w) } }

def execLsyncPulse (n t : Nat) (s : State) : Host.Outcome State Fault Refusal := .next (lsyncPulse n t s)

/-- A write of the RW fields of TRIG_CTRL: at once while ENABLE is 0 or where it sets ENABLE; clearing ENABLE stops
events and pulses (08 R203). -/
def State.writeTrigCtrl (s : State) (w : Nat) : State :=
  let was := s.flag TRIG_CTRL tgENABLE
  let s := s.loadF TRIG_CTRL [tgREFCH, tgMODE, tgENABLE] w
  if was then
    if tgENABLE.of w = 1 then s
    else
      let s := s.setF TRIG_STATUS tsHELD 0
      ({ s with trig := { s.trig with lsDue := [], fsLast := s.trig.fsLast.map (fun (x : Nat × Pulse) => (x.1, x.2.cut s.now)),
                                      lsLast := s.trig.lsLast.map (fun (x : Nat × Pulse) => (x.1, x.2.cut s.now)) } }).applyTrig
  else
    let s := s.applyTrig
    if tgENABLE.of w = 1 then
      { s.setF TRIG_STATUS tsRUNNING 0 with trig := { s.trig with lastEvent := none } }
    else s

/-- A STEP: the event at once where 25 ms have passed, else held; one while another is held is ignored. -/
def State.stepTrig (s : State) : State :=
  if !s.flag TRIG_CTRL tgENABLE || !s.trig.slaved || s.flag TRIG_STATUS tsHELD then s
  else if s.eventFree then s.emitEvent
  else s.setF TRIG_STATUS tsHELD 1

/-- STEP: a write of TRIG_CTRL at `t` (08 R203). -/
def stepCmd (who : Who) (w t : Nat) (s : State) : State :=
  let s := s.at t
  if who ≠ .islandA then s.refuseAccess
  else
    let s := s.writeTrigCtrl w
    if tgSTEP.of w = 1 then s.stepTrig else s

def execStep (who : Who) (w t : Nat) (s : State) : Host.Outcome State Fault Refusal := .next (stepCmd who w t s)

/-- HELD_STEP_EVENT at `t`. -/
def heldStepEvent (t : Nat) (s : State) : State :=
  let s := s.at t
  if s.flag TRIG_STATUS tsHELD && s.flag TRIG_CTRL tgENABLE && s.trig.slaved && s.eventFree then s.emitEvent else s

def execHeldStepEvent (t : Nat) (s : State) : Host.Outcome State Fault Refusal := .next (heldStepEvent t s)

/-- A write of TRIG_FS_CFG or TRIG_LS_CFG at `a`: an LDIV above 4 leaves that field; at once while ENABLE is 0. -/
def State.writeTrigCfg (s : State) (a : Nat) (fs : List FD) (w : Nat) : State :=
  let s := s.loadF a (fs.filter (fun f => decide (f ≠ fsLDIV ∨ fsLDIV.of w ≤ 4))) w
  if s.flag TRIG_CTRL tgENABLE then s else s.applyTrig

/-- TRIG_FS_SEQ_WRITE (08 R203). -/
def trigFsSeqWrite (who : Who) (n w : Nat) (s : State) : State :=
  if who ≠ .islandA then s.refuseAccess
  else if n ≥ 16 ∨ fsEN.of (s.fsWord n) = 1 then s
  else s.setF (TRIG_FS_SEQ n) fsSEQ (fsSEQ.of w)

def execTrigFsSeqWrite (who : Who) (n w : Nat) (s : State) : Host.Outcome State Fault Refusal :=
  .next (trigFsSeqWrite who n w s)

/-- ECHO_CFG_WRITE (08 R208). -/
def echoCfgWrite (who : Who) (n w : Nat) (s : State) : State :=
  if who ≠ .islandA then s.refuseAccess
  else if n ≥ 16 then s
  else
    let s := s.loadF (CAM_ECHO_CFG n) [ceBYTE, ceORDER, ceEN] w
    if ceEN.of w = 1 then (s.setF (CAM_ECHO_STAT n) cesSYNC 0).setF (CAM_ECHO_STAT n) cesRUN 0 else s

def execEchoCfgWrite (who : Who) (n w : Nat) (s : State) : Host.Outcome State Fault Refusal :=
  .next (echoCfgWrite who n w s)

/-! Stream watch (08 R210, R211). -/

/-- PERIOD of stream `n` in µs. -/
def State.strmPeriod (s : State) (n : Nat) : Nat :=
  let p := s.getF (STRM_CFG n) scfPERIOD
  if 1000 ≤ p ∧ p ≤ 1000000 then p else 1000000

/-- The newest sample of stream `n` lies more than 2 × PERIOD back on its port's clock. -/
def State.strmOld (s : State) (n : Nat) : Bool :=
  let x : StrmRt := Tab.get {} s.strms n
  decide (x.ingress + 2 * us (s.strmPeriod n) < s.portTime x.port)

/-- STREAM_STALE of stream `n` at `t`. -/
def streamStale (n t : Nat) (s : State) : State :=
  let s := s.at t
  if n < 16 ∧ s.flag (STRM_CFG n) scfEN ∧ s.flag (STRM_STAT n) sstSEEN ∧ s.strmOld n then s.setF (STRM_STAT n) sstSTALE 1
  else s

def execStreamStale (n t : Nat) (s : State) : Host.Outcome State Fault Refusal := .next (streamStale n t s)

/-- A write of STRM_CFG: setting EN begins the watch without a sample; another PERIOD judges the newest one anew. -/
def State.writeStrmCfg (s : State) (n w : Nat) : State :=
  let was := s.flag (STRM_CFG n) scfEN
  let s := s.loadF (STRM_CFG n) [scfPERIOD, scfRING, scfEN] w
  if scfEN.of w = 1 ∧ !was then (s.setF (STRM_STAT n) sstSEEN 0).setF (STRM_STAT n) sstSTALE 1
  else if was ∧ scfEN.of w = 1 ∧ s.flag (STRM_STAT n) sstSEEN then s.setF (STRM_STAT n) sstSTALE (b2n (s.strmOld n))
  else s

/-- A sample of the stream at ring `r` arrives with full ingress time `g` at port `p`: gaps are counted (08 R210;
13 R369, R372). -/
def State.strmSample (s : State) (r p g : Nat) : State :=
  (List.range 16).foldl (fun s n =>
    if !s.flag (STRM_CFG n) scfEN || decide (s.getF (STRM_CFG n) scfRING ≠ r) then s
    else
      let x : StrmRt := Tab.get {} s.strms n
      let s := if s.flag (STRM_STAT n) sstSEEN then
          let gap := g - x.ingress
          (s.sil1 (238 + n) (min 63 (gap * 16 / us (s.strmPeriod n)))).extreme (53 + n) (gap / 1000)
        else s
      let s := { s with strms := Tab.set {} s.strms n { port := p, ingress := g } }
      let s := (s.setF (STRM_STAT n) sstARRIVAL g).setF (STRM_STAT n) sstSEEN 1
      s.setF (STRM_STAT n) sstSTALE 0) s

end Sys2Proof.Machine
end

