-- ==== Sys2Proof/Machine/CameraCmds.lean ====
section
/-! DEFINITION. Camera receivers (19 R491 to R495; 08 R205 to R207). -/

namespace Sys2Proof.Machine

def camPitch (s : State) (n : Nat) : Nat := (s.getF (CAM_CFG n) ccWIDTH * 2 + 63) / 64 * 64
def camSlotLen (s : State) (n : Nat) : Nat := 0x1040 + s.getF (CAM_CFG n) ccHEIGHT * camPitch s n
/-- Where slot `i` of camera ring `n` lies (19 R493). -/
def camSlot (s : State) (n i : Nat) : Nat := s.getF (CAM_RING n) crBASE * 64 + i * camSlotLen s n

/-- A receiver takes frames: it is enabled and the device is not in replay mode (17 R459). -/
def State.camOn (s : State) (n : Nat) : Bool :=
  decide (n < 16) && s.flag (CAM_CFG n) ccEN && !s.flag RIG_CTRL rigREPLAY

/-- Write bytes of the ring, where the region table of PART permits it: true where it refuses. -/
def State.camWrite (s : State) (n a : Nat) (bs : List Nat) : State × Bool :=
  let p := s.getF (CAM_CFG n) ccPART
  if !s.canWrite 65 p a bs.length then (s.refuseAccess, true)
  else ((s.writeMem 65 p a (byteList bs)).1, false)

/-- The 64 bytes of a camera slot header (19 R493). -/
def camHeader (s : State) (n st : Nat) (f : CamFrame) (flags : Nat) : List Nat :=
  bytesOf 4 0x43524E47 ++ bytesOf 2 1 ++ bytesOf 1 n ++ bytesOf 1 st ++ bytesOf 2 (min f.lines 0xFFFF) ++
  bytesOf 2 (min f.bad 0xFFFF) ++ bytesOf 2 (f.expect.getD 0) ++ bytesOf 2 (f.echo.getD 0) ++ bytesOf 1 f.verdict ++
  bytesOf 1 flags ++ bytesOf 1 (s.getF (CAM_CFG n) ccDT) ++ bytesOf 1 0 ++ bytesOf 2 (s.getF (CAM_CFG n) ccWIDTH) ++
  bytesOf 2 (s.getF (CAM_CFG n) ccHEIGHT) ++ bytesOf 4 (camPitch s n) ++ bytesOf 2 f.lastRef ++ bytesOf 2 f.lastUs ++
  bytesOf 2 f.emb ++ bytesOf 30 0

/-- FLAGS of a frame: ECHO_V, SHORT, LONG, NO_FE. -/
def camFlags (f : CamFrame) (short noFe : Bool) : Nat :=
  b2n f.echo.isSome + 2 * b2n short + 4 * b2n f.long + 16 * b2n noFe

/-- Bring the header of the slot up to date. -/
def State.camPutHeader (s : State) (n st : Nat) (f : CamFrame) (short noFe : Bool) : State × Bool :=
  s.camWrite n (camSlot s n f.slot) (camHeader s n st f (camFlags f short noFe))

/-- The frame in reception is dropped (19 R495): counted; its slot reads ABANDONED; its pulse is left without a
frame. -/
def State.camDrop (s : State) (n : Nat) : State :=
  let x := s.cam n
  let s := match x.frame with
    | some f => (s.camPutHeader n 3 f false false).1
    | none => s
  let s := s.setF (CAM_DROP n) cnt64 (s.getF (CAM_DROP n) cnt64 + 1)
  let s := s.setF (CAM_STAT n) csSTATE 1
  s.setCam n { x with frame := none, used := false }

/-- The verdict on an echo (08 R206): `none` for a missing one. Its code, SYNC and RUN after it. -/
def echoVerdict (sync : Bool) (run : Nat) (d : Option Int) : Nat × Bool × Nat :=
  match sync, d with
  | true, some d => if d = 0 then (0, true, 0) else if d = 1 ∨ d = -1 then (1, true, 0) else (2, false, 0)
  | true, none => (2, false, 0)
  | false, some d => if d = 0 then if run < 7 then (2, false, run + 1) else (2, true, 0) else (2, false, 0)
  | false, none => (2, false, 0)

/-- The signed difference of two 16-bit sequences. -/
def signed16 (a b : Nat) : Int := let d := subMod 16 a b; if d < 2 ^ 15 then d else (d : Int) - 2 ^ 16

/-- Give the frame in reception its verdict, with the echo read or none (08 R205 to R207). -/
def State.giveVerdict (s : State) (n : Nat) (echo : Option Nat) : State :=
  let x := s.cam n
  let a := CAM_ECHO_STAT n
  match x.frame with
  | none => s
  | some f =>
    if !s.flag (CAM_ECHO_CFG n) ceEN then
      let v := if f.expect.isSome then 0 else 2
      let s := if f.expect.isSome then s.setF a cesSYNC 1 else s.countVerdict n 1
      (s.setF a cesVERDICT v).setCam n { x with absent := 0, frame := some { f with verdict := v } }
    else
      let d := match echo, f.expect with
        | some e, some p => some (signed16 e p)
        | _, _ => none
      let (v, sy, r) := echoVerdict (s.flag a cesSYNC) (s.getF a cesRUN) d
      let s := match echo with
        | some e => s.setF a cesECHO e
        | none => s
      let s := ((s.setF a cesSYNC (b2n sy)).setF a cesRUN r).setF a cesVERDICT v
      let s := if v = 0 then s else s.countVerdict n (v - 1)
      s.setCam n { x with absent := 0, frame := some { f with verdict := v, echo := echo } }

/-- The frame in reception ends: without an embedded line it takes its verdict now, then the header is written,
STATE last (19 R493, R494). -/
def State.camEnd (s : State) (n : Nat) (noFe : Bool) : State :=
  let s := match (s.cam n).frame with
    | some f => if f.verdict = 0xFF then s.giveVerdict n none else s
    | none => s
  let x := s.cam n
  match x.frame with
  | none => s
  | some f =>
    match s.camPutHeader n 2 f (decide (f.lines < s.getF (CAM_CFG n) ccHEIGHT)) noFe with
    | (s, true) => s.camDrop n
    | (s, false) => ((s.setF (CAM_STAT n) csSTATE 1).setCam n { x with frame := none }).imgShort (camSlot s n f.slot)

/-- CSI_FRAME_START on receiver `n` at `t`. -/
def csiFrameStart (n vc t : Nat) (s : State) : State :=
  let s := s.at t
  if !s.camOn n || decide (vc ≠ s.getF (CAM_CFG n) ccVC) then s
  else
    let s := if (s.cam n).frame.isSome then s.camEnd n true else s
    let x := s.cam n
    let a := camSlot s n x.next
    if s.slotHeld a then s.camDrop n
    else
      let f : CamFrame := { slot := x.next, expect := x.pulse, lastAt := s.now }
      let s := s.setCam n { x with frame := some f, used := x.used || x.pulse.isSome,
                                   next := (x.next + 1) % (s.getF (CAM_RING n) crNSLOT + 1) }
      let s := match x.pulse with
        | some e => s.setF (CAM_ECHO_STAT n) cesEXPECT e
        | none => s
      let s := ((s.setF (CAM_STAT n) csSLOT f.slot).setF (CAM_STAT n) csLINES 0).setF (CAM_STAT n) csSTATE 2
      match s.camPutHeader n 1 f false false with
      | (s, true) => s.camDrop n
      | (s, false) => s.imgSeen a

def execCsiFrameStart (n vc t : Nat) (s : State) : Host.Outcome State Fault Refusal := .next (csiFrameStart n vc t s)

/-- The echo in the bytes of an embedded-data line (08 R205). -/
def State.echoIn (s : State) (n : Nat) (data : List Nat) : Option Nat :=
  let o := s.getF (CAM_ECHO_CFG n) ceBYTE
  match data[o]?, data[o + 1]? with
  | some a, some b => some (if s.flag (CAM_ECHO_CFG n) ceORDER then a % 256 * 256 + b % 256 else a % 256 + b % 256 * 256)
  | _, _ => none

/-- CSI_EMBEDDED_DATA: bytes are stored up to 4,096 in all; the first packet yields echo and verdict. -/
def csiEmbeddedData (n vc : Nat) (data : List Nat) (t : Nat) (s : State) : State :=
  let s := s.at t
  if !s.camOn n || decide (vc ≠ s.getF (CAM_CFG n) ccVC) then s
  else
    match (s.cam n).frame with
    | none => s
    | some f =>
      let keep := data.take (4096 - f.emb)
      match s.camWrite n (camSlot s n f.slot + 0x40 + f.emb) keep with
      | (s, true) => s.camDrop n
      | (s, false) =>
        let s := s.setCam n { s.cam n with
          frame := some { f with emb := f.emb + keep.length, hasEmb := true, lastAt := s.now } }
        let s := if f.hasEmb then s else s.giveVerdict n (s.echoIn n data)
        match (s.cam n).frame with
        | none => s
        | some f =>
          match s.camPutHeader n 1 f false false with
          | (s, true) => s.camDrop n
          | (s, false) => s

def execCsiEmbeddedData (n vc : Nat) (data : List Nat) (t : Nat) (s : State) : Host.Outcome State Fault Refusal :=
  .next (csiEmbeddedData n vc data t s)

/-- The bits of a pixel code that are kept: RAW10 and RAW12 have 10 and 12, others 16 (19 R493). -/
def pixelMask (dt : Nat) : Nat := if dt = 0x2B then 1024 else if dt = 0x2C then 4096 else 65536

/-- The stored bytes of a line: `2 × width` bytes of pixels, missing ones zero, then zeros to the pitch. -/
def lineBytes (dt width pitch : Nat) (data : List Nat) : List Nat :=
  ((List.range width).flatMap (fun i =>
    bytesOf 2 ((data.getD (2 * i) 0 % 256 + data.getD (2 * i + 1) 0 % 256 * 256) % pixelMask dt))) ++
  List.replicate (pitch - 2 * width) 0

/-- CSI_LINE: a packet of data type `dt` with its pixels as they are stored; `ok` says that header ECC and CRC
hold. -/
def csiLine (n vc dt : Nat) (data : List Nat) (ok : Bool) (t : Nat) (s : State) : State :=
  let s := s.at t
  let c := CAM_CFG n
  if !s.camOn n || decide (vc ≠ s.getF c ccVC) || decide (dt ≠ s.getF c ccDT) then s
  else
    match (s.cam n).frame with
    | none => s
    | some f =>
      if s.getF c ccHEIGHT ≤ f.lines then s.setCam n { s.cam n with frame := some { f with long := true, lastAt := s.now } }
      else
        let w := s.getF c ccWIDTH
        let bad := !ok || decide (data.length ≠ 2 * w)
        let a := camSlot s n f.slot
        match s.camWrite n (a + 0x1040 + f.lines * camPitch s n) (lineBytes dt w (camPitch s n) data) with
        | (s, true) => s.camDrop n
        | (s, false) =>
          let s := if bad then s.event 23 else s
          let f := { f with lines := f.lines + 1, bad := f.bad + b2n bad, lastAt := s.now, lastRef := s.frameSeq 60,
                            lastUs := s.slotUs 60 }
          let s := (s.setCam n { s.cam n with frame := some f }).setF (CAM_STAT n) csLINES (min f.lines 0xFFFF)
          match s.camPutHeader n 1 f false false with
          | (s, true) => s.camDrop n
          | (s, false) => s.imgSeen a

def execCsiLine (n vc dt : Nat) (data : List Nat) (ok : Bool) (t : Nat) (s : State) : Host.Outcome State Fault Refusal :=
  .next (csiLine n vc dt data ok t s)

/-- CSI_FRAME_END. -/
def csiFrameEnd (n vc t : Nat) (s : State) : State :=
  let s := s.at t
  if !s.camOn n || decide (vc ≠ s.getF (CAM_CFG n) ccVC) then s else s.camEnd n false

def execCsiFrameEnd (n vc t : Nat) (s : State) : Host.Outcome State Fault Refusal := .next (csiFrameEnd n vc t s)

/-- FRAME_END_TIMEOUT: 50 ms after the last packet. -/
def frameEndTimeout (n t : Nat) (s : State) : State :=
  let s := s.at t
  match (s.cam n).frame with
  | some f => if s.camOn n ∧ f.lastAt + ms 50 ≤ s.now then s.camEnd n true else s
  | none => s

def execFrameEndTimeout (n t : Nat) (s : State) : Host.Outcome State Fault Refusal := .next (frameEndTimeout n t s)

/-- Clearing EN abandons the frame in reception: no verdict, its pulse ends ABSENT (19 R492, R514). -/
def State.camOff (s : State) (n : Nat) : State :=
  let x := s.cam n
  let s := match x.frame with
    | some f => ((s.camPutHeader n 3 f false false).1).setCam n { x with frame := none, used := false }
    | none => s
  (s.setF (CAM_CFG n) ccEN 0).setF (CAM_STAT n) csSTATE 0

/-- CAM_CFG_WRITE (19 R492). -/
def camCfgWrite (who : Who) (n w : Nat) (s : State) : State :=
  let dt := ccDT.of w
  let dtOk := decide (dt = 0x2B ∨ dt = 0x2C ∨ dt = 0x2E ∨ dt = 0x1E)
  if who ≠ .islandA then s.refuseAccess
  else if n ≥ 16 then s
  else if s.flag (CAM_CFG n) ccEN then if ccEN.of w = 1 then s else s.camOff n
  else
    let s := s.loadF (CAM_CFG n) ([ccHEIGHT, ccWIDTH, ccVC, ccPART, ccLANES, ccLMAP, ccPINV, ccEN] ++
      (if dtOk then [ccDT] else [])) w
    if ccEN.of w = 1 then (s.setF (CAM_STAT n) csSTATE 1).setCam n { s.cam n with next := 0, frame := none } else s

def execCamCfgWrite (who : Who) (n w : Nat) (s : State) : Host.Outcome State Fault Refusal :=
  .next (camCfgWrite who n w s)

/-- A write of CAM_RING: ignored while EN is 1; NSLOTM1 of 0 leaves that field. -/
def State.writeCamRing (s : State) (n w : Nat) : State :=
  if s.flag (CAM_CFG n) ccEN then s
  else s.loadF (CAM_RING n) ([crBASE] ++ (if crNSLOT.of w = 0 then [] else [crNSLOT])) w

end Sys2Proof.Machine
end

