-- ==== Sys2Proof/Machine/NetCmds.lean ====
section
/-! DEFINITION. Ring groups, Ethernet ports and stream rings (19 R490, R496 to R502, R510). -/

namespace Sys2Proof.Machine

/-! Interrupt causes and controllers (19 R490, R510). -/

/-- A source of the APLIC is raised while IRQ and IRQ_EN of its block share a bit. -/
def State.irqLevel (s : State) (b src : Nat) : State :=
  let on := decide (s.getF (b + 0x10) irqBITS &&& s.getF (b + 0x18) irqEN ≠ 0)
  { s with aplic := if on then setBit s.aplic src else clrBit s.aplic src }

/-- Cause `k` of an interface block. -/
def State.irq (s : State) (b src k : Nat) : State :=
  (s.setF (b + 0x10) irqBITS (setBit (s.getF (b + 0x10) irqBITS) k)).irqLevel b src

/-- Who may write a controller of partition `p`. -/
def ctrlWriter (who : Who) (p : Nat) : Bool :=
  match who with
  | .islandA => true
  | .runtime q => decide (q = p)
  | _ => false

def State.port (s : State) (p : Nat) : PortRt := Tab.get {} s.ports p
def State.setPort (s : State) (p : Nat) (x : PortRt) : State := { s with ports := Tab.set {} s.ports p x }
def State.portPart (s : State) (p : Nat) : Nat := s.cfg.portPart.getD p 0

/-- The partition of a ring group's controller. -/
def State.groupPart (s : State) (g : Nat) : Nat :=
  if g < 12 then s.portPart (g % 6) else s.cfg.canPart.getD ((g - 12) % 2) 0

/-! Ring groups. -/

def grpLen (g : Nat) : Nat := if g < 12 then 64 else 128
def State.grpDepth (s : State) (g : Nat) : Nat := 2 ^ s.getF (RING_GROUP g) qLDEPTH
def State.grpHead (s : State) (g : Nat) : Nat := s.getF (RING_GROUP g + 16) qHEAD
def State.grpNext (s : State) (g : Nat) : Nat := s.getF (RING_GROUP g + 16) qNEXT
def State.grpTail (s : State) (g : Nat) : Nat := s.getF (RING_GROUP g + 24) qTAIL
def State.setGrpHead (s : State) (g v : Nat) : State := s.setF (RING_GROUP g + 16) qHEAD v
def State.setGrpNext (s : State) (g v : Nat) : State := s.setF (RING_GROUP g + 16) qNEXT v
/-- Where entry `n` lies. -/
def State.grpAddr (s : State) (g n : Nat) : Nat :=
  s.getF (RING_GROUP g) qBASE * 64 + n % s.grpDepth g * grpLen g
def State.grpEntry (s : State) (g n : Nat) : List Nat := s.readBytes 65 (s.groupPart g) (s.grpAddr g n) (grpLen g)
/-- Write an entry back, where the region table permits it. -/
def State.putEntry (s : State) (g n : Nat) (b : List Nat) : State :=
  let a := s.grpAddr g n
  if s.canWrite 65 (s.groupPart g) a b.length then (s.writeMem 65 (s.groupPart g) a (byteList b)).1 else s.refuseAccess

/-- RING_DOORBELL: a DB write sets TAIL as an SW doorbell does (10 R270); one that breaks its rules is dropped. -/
def ringDoorbell (who : Who) (g w : Nat) (s : State) : State :=
  let v := w % 2 ^ 32
  if g ≥ 16 then s
  else if !ctrlWriter who (s.groupPart g) then s.refuseAccess
  else if newer 32 (s.grpTail g) v ∨ s.grpDepth g < subMod 32 v (s.grpHead g) then s.event 9
  else s.setF (RING_GROUP g + 24) qTAIL v

def execRingDoorbell (who : Who) (g w : Nat) (s : State) : Host.Outcome State Fault Refusal := .next (ringDoorbell who g w s)

/-! Gates (19 R499). -/

/-- Nanoseconds to the end of entry `i` of a list that began in its cycle at `at_`, cut at the cycle's end; the last
entry holds until then. -/
def entryEnd (gcl : List (Nat × Nat)) (i at_ cycle : Nat) : Nat :=
  if gcl.length ≤ i + 1 then cycle else min cycle (at_ + (gcl.getD i (0, 0)).1)

/-- How long class `tc` stays open from `at_` within the cycle, over at most `n` entries. -/
def openFor (gcl : List (Nat × Nat)) (cycle tc : Nat) : Nat → Nat → Nat → Nat
  | 0, _, _ => 0
  | n + 1, i, at_ =>
    if !bit (gcl.getD i (0, 0xFF)).2 tc then 0
    else
      let e := entryEnd gcl i at_ cycle
      if e < cycle then (e - at_) + openFor gcl cycle tc n (i + 1) e
      else (e - at_) + openFor gcl cycle tc n 0 0

/-- Time in ns for which the gate of class `tc` of port `p` stays open; `none` for ever. -/
def State.gateLeft (s : State) (p tc : Nat) : Option Nat :=
  let x := s.port p
  if !x.qbvOn || x.gcl.all (fun e => bit e.2 tc) then none
  else
    let into := s.portTime p - x.entryAt
    some (openFor x.gcl x.cycle tc (2 * x.gcl.length + 2) x.idx (x.entryAt - x.cycleAt) - into)

/-- Mb/s of a SPEED code. -/
def speedMbps (v : Nat) : Nat := [0, 1000, 2500, 5000, 10000].getD v 0

/-- The time of a frame of `n` bytes without FCS on the wire, preamble included. -/
def frameNs (n speed : Nat) : Nat := (n + 12) * 8000 / max 1 (speedMbps speed)

/-! Transmission (19 R498). -/

/-- The descriptor can be sent. -/
def txOk (d : List Nat) : Bool :=
  let f := fieldAt d
  let n := f 8 2
  let fl := f 0xB 1
  decide (f 0 8 < 2 ^ 44 ∧ f 0 8 % 8 = 0 ∧ 60 ≤ n ∧ n ≤ 9018 ∧ f 0xA 1 < 8 ∧ fl < 16) && zeroBytes d 0x12 6 &&
  zeroBytes d 0x20 32 && (!bit fl 0 || decide (f 0xC 2 + 8 ≤ n)) &&
  (!bit fl 1 || decide (f 0x10 2 ≤ f 0xE 2 ∧ f 0xE 2 + 4 ≤ n))

/-- Put bytes into a frame at an offset. -/
def putAt (l : List Nat) (o : Nat) (b : List Nat) : List Nat := l.take o ++ b ++ l.drop (o + b.length)

/-- The frame that leaves: stamp, then CRC. -/
def txFrame (d frame : List Nat) (time : Nat) : List Nat :=
  let f := fieldAt d
  let fl := f 0xB 1
  let x := if bit fl 0 then putAt frame (f 0xC 2) (bytesOf 8 time) else frame
  if bit fl 1 then putAt x (f 0xE 2) (bytesOf 4 (crc32c ((x.take (f 0xE 2)).drop (f 0x10 2)))) else x

/-- Entries from `h` on that are done advance HEAD. -/
def State.skipDone (g : Nat) : Nat → State → List Nat → State × List Nat
  | 0, s, early => (s, early)
  | n + 1, s, early =>
    let h := s.grpHead g
    if early.contains h then State.skipDone g n (s.setGrpHead g (h + 1)) (early.erase h) else (s, early)

/-- A transmit descriptor is done: written back, HEAD passes every one that is done. -/
def State.txDone (s : State) (p n : Nat) (d : List Nat) (flags time : Nat) (sent : Option (List Nat)) : State :=
  let s := s.putEntry p n (putAt (putAt d 0xB [flags]) 0x18 (bytesOf 8 time))
  let x := s.port p
  let (s, early) := State.skipDone p (s.grpDepth p) s (x.early ++ [n])
  let s := s.setPort p { s.port p with early := early, sent := sent.getD x.sent }
  (if newer 32 (n + 1) (s.grpNext p) then s.setGrpNext p (n + 1) else s).irq (PORT p) (9 + p) 0

/-- The descriptors that wait on port `p`, oldest first, with those that cannot be sent at once. -/
def State.txWaiting (s : State) (p : Nat) : List (Nat × List Nat) :=
  let h := s.grpHead p
  ((List.range (subMod 32 (s.grpTail p) h)).map (fun i => (h + i) % 2 ^ 32)).filterMap (fun n =>
    if (s.port p).early.contains n then none else some (n, s.grpEntry p n))

/-- The highest open class that has a frame which ends before its gate closes. -/
def State.txPick (s : State) (p : Nat) (l : List (Nat × List Nat)) : Option (Nat × List Nat) :=
  match l.find? (fun (_, d) => !txOk d) with
  | some x => some x
  | none =>
    [7, 6, 5, 4, 3, 2, 1, 0].findSome? (fun tc =>
      match l.find? (fun (_, d) => decide (fieldAt d 0xA 1 = tc)) with
      | none => none
      | some (n, d) =>
        match s.gateLeft p tc with
        | none => some (n, d)
        | some left =>
          if frameNs (fieldAt d 8 2) (s.getF (PORT p) psSPEED) ≤ left then some (n, d) else none)

/-- ETH_TRANSMIT on port `p` at `t`. -/
def ethTransmit (p t : Nat) (s : State) : State :=
  let s := s.at t
  if p ≥ 6 ∨ !s.flag (PORT p) psLINK then s
  else
    match s.txPick p (s.txWaiting p) with
    | none => s
    | some (n, d) =>
      let a := fieldAt d 0 8
      let len := fieldAt d 8 2
      let part := s.portPart p
      let fl := fieldAt d 0xB 1
      if !txOk d || !s.canRead 65 part a len || s.readFails 65 part a len then s.txDone p n d (fl % 4 + 12) 0 none
      else
        let time := s.portTime p % 2 ^ 64
        s.txDone p n d (fl % 4 + 4) time (some (txFrame d (s.readBytes 65 part a len) time))

def execEthTransmit (p t : Nat) (s : State) : Host.Outcome State Fault Refusal := .next (ethTransmit p t s)

/-! Reception (19 R498, R500). -/

/-- VLAN identifier and offset of the first byte after the EtherType. -/
def frameVlan (f : List Nat) : Nat × Nat :=
  if f.getD 12 0 = 0x81 ∧ f.getD 13 0 = 0 then (f.getD 14 0 % 16 * 256 + f.getD 15 0, 18) else (0, 14)

/-- The destination address as QCI_F holds it: first byte on the wire in bits [47:40]. -/
def frameDmac (f : List Nat) : Nat := (f.take 6).foldl (fun a b => a * 256 + b) 0

/-- The lowest matching filter. -/
def State.qciMatch (s : State) (p : Nat) (f : List Nat) : Option Nat :=
  (List.range 64).find? (fun k => s.flag (QCI_F p k) qfV && decide (s.getF (QCI_F p k) qfDMAC = frameDmac f) &&
    decide (s.getF (QCI_F p k) qfVID = (frameVlan f).1))

/-- The flow meter of filter `k`: a bucket of CBS KiB that fills at CIR kb/s; the frame takes its bits or is beyond
it. -/
def State.meter (s : State) (p k bits : Nat) : State × Bool :=
  let cir := s.getF (QCI_M p k) qmCIR
  if cir = 0 then (s, true)
  else
    let cap := s.getF (QCI_M p k) qmCBS * 8192
    let x := s.port p
    let now := s.portTime p
    let have_ := match Tab.find x.meters k with
      | some (v, at_) => min cap (v + cir * (now - at_) / 1000000)
      | none => cap
    let ok := decide (bits ≤ have_)
    (s.setPort p { x with meters := Tab.insert x.meters k (if ok then have_ - bits else have_, now) }, ok)

/-- A frame is dropped and counted. -/
def State.portDrop (s : State) (p : Nat) : State := s.setF (PORT_DROP p) cnt64 (s.getF (PORT_DROP p) cnt64 + 1)

/-- A frame that no filter sends to a stream ring fills the descriptor at NEXT. -/
def State.rxFill (s : State) (p m : Nat) (f : List Nat) : State :=
  let g := 6 + p
  let n := s.grpNext g
  if n = s.grpTail g then (s.portDrop p).irq (PORT p) (9 + p) 2
  else
    let d := s.grpEntry g n
    let a := fieldAt d 0 8
    let part := s.portPart p
    let keep := f.take (fieldAt d 8 2)
    let aOk := decide (a < 2 ^ 44 ∧ a % 8 = 0) && (decide (keep.length = 0) || s.canWrite 65 part a keep.length)
    let s := if aOk then (s.writeMem 65 part a (byteList keep)).1 else s
    let err := !aOk || decide (keep.length < f.length)
    let d := putAt (putAt d 8 (bytesOf 2 f.length ++ [m, fieldAt d 0xB 1 % 4 + 4 + 8 * b2n err])) 0x18
      (bytesOf 8 (s.portTime p % 2 ^ 64))
    (((s.putEntry g n d).setGrpNext g (n + 1)).setGrpHead g (n + 1)).irq (PORT p) (9 + p) 1

/-! Stream rings (19 R501, R502). -/

def State.rxRing (s : State) (r : Nat) : RxRing := Tab.get {} s.rxRings r
def State.setRxRing (s : State) (r : Nat) (x : RxRing) : State := { s with rxRings := Tab.set {} s.rxRings r x }
def rxSlotLen (s : State) (r : Nat) : Nat := s.getF (RXR_FMT r) rxSLOTK * 1024
def rxSlot (s : State) (r i : Nat) : Nat := s.getF (RXR_CFG r) rxBASE * 64 + i * rxSlotLen s r

/-- The 64 bytes of a stream slot header. -/
def rxHeader (r p st len nfr cap ingress : Nat) : List Nat :=
  bytesOf 4 0x53524E47 ++ bytesOf 2 1 ++ [st, p] ++ bytesOf 4 len ++ bytesOf 2 nfr ++ [r, 0] ++ bytesOf 8 cap ++
  bytesOf 8 ingress ++ bytesOf 32 0

/-- A write of the ring, checked by the region table of the port's partition. -/
def State.rxWrite (s : State) (p a : Nat) (b : List Nat) : State × Bool :=
  let part := s.portPart p
  if s.canWrite 65 part a b.length then ((s.writeMem 65 part a (byteList b)).1, true) else (s.refuseAccess, false)

/-- The FILLING slot becomes INCOMPLETE: the first word of its header is written, the rest stays. -/
def State.rxSpoil (s : State) (r p : Nat) : State :=
  let x := s.rxRing r
  match x.filling with
  | none => s
  | some (i, cap, nfr, len) =>
    (s.rxWrite p (rxSlot s r i) ((rxHeader r p 3 len nfr cap 0).take 8)).1.setRxRing r { x with filling := none }

/-- Store one frame of capture time `cap` in ring `r`. -/
def State.rxStore (s : State) (r p cap : Nat) (body : List Nat) : State :=
  let x := s.rxRing r
  if x.dead = some cap then s
  else
    let same := match x.filling with
      | some (_, c, _, _) => decide (c = cap)
      | none => false
    let s := if same then s else s.rxSpoil r p
    let x := s.rxRing r
    let (i, nfr, len) := match x.filling with
      | some (i, _, n, l) => (i, n, l)
      | none => (x.next, 0, 0)
    let nxt := if same then x.next else (i + 1) % 2 ^ s.getF (RXR_CFG r) rxLNSLOT
    let a := rxSlot s r i
    let rec_ := bytesOf 4 body.length ++ body ++ List.replicate ((64 - (4 + body.length) % 64) % 64) 0
    let ing := s.portTime p % 2 ^ 64
    let x := { x with next := nxt, dead := none, filling := some (i, cap, nfr, len) }
    let fail := fun (s : State) => (s.rxSpoil r p).setRxRing r { (s.rxSpoil r p).rxRing r with dead := some cap }
    let s := s.setRxRing r x
    if rxSlotLen s r < 0x40 + len + rec_.length then fail s
    else
      match s.rxWrite p a (rxHeader r p 1 len nfr cap ing) with
      | (s, false) => fail s
      | (s, true) =>
        match s.rxWrite p (a + 0x40 + len) rec_ with
        | (s, false) => fail s
        | (s, true) =>
          let n := nfr + 1
          let l := len + rec_.length
          if n < s.getF (RXR_FMT r) rxFRAMES then
            (s.rxWrite p a (rxHeader r p 1 l n cap ing)).1.setRxRing r { x with filling := some (i, cap, n, l) }
          else
            ((s.rxWrite p a (rxHeader r p 2 l n cap ing)).1.setRxRing r { x with filling := none }).strmSample r p
              (s.portTime p)

/-- A frame for stream ring `r`; nothing is written in replay mode (17 R459). -/
def State.rxStream (s : State) (r p : Nat) (f : List Nat) : State :=
  let o := (frameVlan f).2
  let body := f.drop o
  let c := s.getF (RXR_FMT r) rxCAPOFF
  if !s.flag (RXR_CFG r) rxEN || s.flag RIG_CTRL rigREPLAY then s
  else if body.length < c + 8 then s.portDrop p
  else
    let b := (body.drop c).take 8
    let cap := if s.flag (RXR_FMT r) rxCAPBE then leOf b.reverse else leOf b
    s.rxStore r p cap body

/-- ETH_RECEIVE on port `p` at `t`: a frame without its FCS, and whether the FCS holds. -/
def ethReceive (p : Nat) (frame : List Nat) (fcsOk : Bool) (t : Nat) (s : State) : State :=
  let s := s.at t
  let f := frame.map (fun b => b % 256)
  let n := f.length
  if p ≥ 6 ∨ !s.flag (PORT p) psLINK then s
  else if !fcsOk ∨ n < 60 ∨ 9018 < n then s.portDrop p
  else
    match s.qciMatch p f with
    | none => s.rxFill p 0xFF f
    | some k =>
      if s.getF (QCI_M p k) qmSDU < n then s.portDrop p
      else
        match s.meter p k (8 * n) with
        | (s, false) => s.portDrop p
        | (s, true) =>
          let r := s.getF (QCI_M p k) qmRING
          if r < 32 then s.rxStream r p f else s.rxFill p k f

def execEthReceive (p : Nat) (frame : List Nat) (fcsOk : Bool) (t : Nat) (s : State) :
    Host.Outcome State Fault Refusal := .next (ethReceive p frame fcsOk t s)

/-! Port time, link, lists (19 R497, R499). -/

/-- AS_SYNC of a port; the island ports 6 and 7 have no register. -/
def State.setSync (s : State) (p v : Nat) : State :=
  if p ≥ 6 ∨ s.getF (PORT p) psASSYNC = v then s else (s.setF (PORT p) psASSYNC v).irq (PORT p) (9 + p) 4

/-- GPTP_SYNC: the gPTP instance of port `p` sets its time at `t`. -/
def gptpSync (p time t : Nat) (s : State) : State :=
  let s := s.at t
  if p ≥ 8 ∨ (p < 6 ∧ !s.flag (PORT p) psLINK) then s
  else (s.setPort p { s.port p with base := time % 2 ^ 64, at_ := s.now }).setSync p 1

def execGptpSync (p time t : Nat) (s : State) : Host.Outcome State Fault Refusal := .next (gptpSync p time t s)

/-- SYNC_LOSS: port time runs on from its last correction. -/
def syncLoss (p t : Nat) (s : State) : State := (s.at t).setSync p 0

def execSyncLoss (p t : Nat) (s : State) : Host.Outcome State Fault Refusal := .next (syncLoss p t s)

/-- ETH_LINK_CHANGE: SPEED is 1 on SGMII, 2 to 4 on USXGMII; at link-up port time restarts from zero. -/
def ethLinkChange (p : Nat) (up : Bool) (speed t : Nat) (s : State) : State :=
  let s := s.at t
  let ok := if p < 4 then decide (2 ≤ speed ∧ speed ≤ 4) else decide (speed = 1)
  if p ≥ 6 ∨ (up ∧ !ok) ∨ s.flag (PORT p) psLINK = up then s
  else
    let s := (s.setF (PORT p) psLINK (b2n up)).setF (PORT p) psSPEED (if up then speed else 0)
    let s := if up then s.setPort p { s.port p with base := 0, at_ := s.now } else s
    (s.setSync p 0).irq (PORT p) (9 + p) 3

def execEthLinkChange (p : Nat) (up : Bool) (speed t : Nat) (s : State) : Host.Outcome State Fault Refusal :=
  .next (ethLinkChange p up speed t s)

/-- QBV_CTL_WRITE: an admin list becomes pending. A number of entries or a cycle out of its range leaves its
field. -/
def qbvCtlWrite (who : Who) (p w : Nat) (s : State) : State :=
  let n := qvNGCL.of w
  let c := qvCYCLE.of w
  if p ≥ 6 then s
  else if !ctrlWriter who (s.portPart p) then s.refuseAccess
  else
    let s := s.loadF (QBV_CTL p) ([qvEN] ++ (if 1 ≤ n ∧ n ≤ 256 then [qvNGCL] else []) ++
      (if 1000 ≤ c ∧ c ≤ 1000000000 then [qvCYCLE] else [])) w
    s.setF (QBV_CTL p) qvPENDING 1

def execQbvCtlWrite (who : Who) (p w : Nat) (s : State) : Host.Outcome State Fault Refusal := .next (qbvCtlWrite who p w s)

/-- QBV_LIST_IN_FORCE: the first cycle start at or after QBV_BASE. -/
def qbvListInForce (p t : Nat) (s : State) : State :=
  let s := s.at t
  let base := s.getF (QBV_BASE p) rw64
  let now := s.portTime p
  if p ≥ 6 ∨ !s.flag (QBV_CTL p) qvPENDING ∨ now < base then s
  else
    let c := s.getF (QBV_CTL p) qvCYCLE
    let start := base + (now - base) / c * c
    let gcl := (List.range (s.getF (QBV_CTL p) qvNGCL)).map (fun e =>
      (s.getF (QBV_GCL p e) gcINTERVAL, s.getF (QBV_GCL p e) gcGATES))
    let s := s.setPort p { s.port p with qbvOn := s.flag (QBV_CTL p) qvEN, gcl := gcl, cycle := c, idx := 0,
                                         entryAt := start, cycleAt := start }
    (s.setF (QBV_CTL p) qvPENDING 0).irq (PORT p) (9 + p) 5

def execQbvListInForce (p t : Nat) (s : State) : Host.Outcome State Fault Refusal := .next (qbvListInForce p t s)

/-- GATE_CONTROL_ENTRY: the interval of the entry in force has ended. -/
def gateControlEntry (p t : Nat) (s : State) : State :=
  let s := s.at t
  let x := s.port p
  let e := entryEnd x.gcl x.idx (x.entryAt - x.cycleAt) x.cycle
  if p ≥ 6 ∨ !x.qbvOn ∨ s.portTime p < x.cycleAt + e then s
  else if e < x.cycle then s.setPort p { x with idx := x.idx + 1, entryAt := x.cycleAt + e }
  else s.setPort p { x with idx := 0, entryAt := x.cycleAt + x.cycle, cycleAt := x.cycleAt + x.cycle }

def execGateControlEntry (p t : Nat) (s : State) : Host.Outcome State Fault Refusal := .next (gateControlEntry p t s)

end Sys2Proof.Machine
end

