-- ==== Sys2Proof/Machine/RedOps.lean ====
section
/-! DEFINITION. Redundancy groups: deposits, outcomes, resynchronisation, loss of members, switches
(11 R302 to R330). -/

namespace Sys2Proof.Machine

def State.group (s : State) (g : Nat) : Group := Tab.get {} s.groups g
def State.setGroup (s : State) (g : Nat) (x : Group) : State := { s with groups := Tab.set {} s.groups g x }

/-- The slot or AP index at position `p` of group `g`. -/
def State.memberOf (s : State) (g p : Nat) : Nat := s.getF (RG_CFG g) (if p = 0 then rcM0 else if p = 1 then rcM1 else rcM2)

def State.isAp (s : State) (g : Nat) : Bool := s.flag (RG_CFG g) rcKIND
def State.isTriad (s : State) (g : Nat) : Bool := s.flag (RG_CFG g) rcTRIAD

/-- The group exists and is not faulty. -/
def State.groupLive (s : State) (g : Nat) : Bool :=
  decide (g < 16) && s.flag (RG_CFG g) rcV &&
  decide (s.getF (RG_STAT g) rsSTATE = 1 ∨ s.getF (RG_STAT g) rsSTATE = 2)

/-! Failures and quarantine (12 R352, R353). -/

/-- The bins of entry `e` that hold, over both failure histograms. -/
def popCount (n m : Nat) : Nat := ((List.range n).filter (fun i => bit m i)).length

/-- Bin a failure of entry `e` of the quarantine table at its last evaluation: a bin whose count reaches 3, or 2
while the unit is SUSPECT, is quarantined, and eight bins quarantine the unit under every bin. -/
def State.binFailure (s : State) (e : Nat) : State :=
  let q : Quar := Tab.get {} s.quar e
  let h := if e < 64 then 2 * e else 126 + 2 * (e - 64)
  let s := s.sil1 (h + q.bin / 64) (q.bin % 64)
  let n := Tab.get 0 s.sil.hist (64 * (h + q.bin / 64) + q.bin % 64)
  let limit := if e < 63 ∧ s.flag (UNIT_PART e) upSUSPECT then 2 else 3
  if n < limit then s
  else
    let m := setBit q.mask q.bin
    let s := if !q.all ∧ 8 ≤ popCount 128 m then s.dirChange else s
    { s with quar := Tab.set {} s.quar e { q with mask := m, all := q.all || decide (8 ≤ popCount 128 m) } }

/-- A mismatch of the member at position `p` (11 R315, R316). -/
def State.mismatch (s : State) (g p : Nat) : State :=
  s.binFailure ((if s.isAp g then 64 else 0) + s.memberOf g p)

/-! Releases (11 R312, R322). -/

/-- Release checkpoint `ckid` of group `g` with lead `lead`. -/
def State.releaseGroup (s : State) (g ckid lead : Nat) : State :=
  let s := s.setF (RG_STAT g) rsLASTCKID ckid
  if s.isAp g then
    [(rpCKID, ckid), (rpPOS, lead), (rpBANK, ckid % 2), (rpVALID, 1)].foldl (fun s (f, v) => s.setF (RG_APREC g) f v) s
  else
    (List.range 8).foldl (fun s t =>
      s.sendRelease (64 + s.getF (RG_CFG g) rcCMP) (s.getF (RG_CFG g) rcPART) (RG_TGT g t) lead ckid) s

/-- Set or clear ENABLE of the member at position `p`. -/
def State.memberEnable (s : State) (g p v : Nat) : State :=
  if s.isAp g then s
  else
    let c := s.memberOf g p
    if s.unitState c < stFenced then s.setF (UNIT_CTRL c) ctrlENABLE v else s

/-- Hold the AP_CKPT write of the lead of an application-core group incomplete, or let it complete (17 R456). -/
def State.holdCkpt (s : State) (g p : Nat) (on : Bool) : State :=
  if s.isAp g then
    let m := s.ap.ckptHeld
    { s with ap := { s.ap with ckptHeld := if on then setBit m (s.memberOf g p) else clrBit m (s.memberOf g p) } }
  else s

/-- Island A sets ENABLE again in the held members but those of a list. -/
def State.freeHeld (s : State) (g : Nat) (keep : List Nat) : State :=
  let x := s.group g
  let s := ((List.range 3).filter (fun p => bit x.held p && !keep.contains p)).foldl (fun s p => s.memberEnable g p 1) s
  s.setGroup g { x with held := ((List.range 3).filter (fun p => bit x.held p && keep.contains p)).foldl setBit 0 }

/-- The switch of group `g` ends: done, or failed with a code. -/
def State.switchEnd (s : State) (g fail : Nat) : State :=
  let s := (s.setF (RG_SWITCH g) rwFAIL fail).setF (RG_SWITCH g) rwSTATUS (if fail = 0 then 2 else 3)
  s.setGroup g { s.group g with op := 0, joined := [], tries := 0 }

/-- The resynchronisation of group `g` is abandoned (11 R317); a switch's second abandoned copy fails it. -/
def State.abandonCopy (s : State) (g : Nat) : State :=
  let x := s.group g
  match x.copy with
  | none => s
  | some (lead, _) =>
    let s := (s.setGroup g { x with copy := none, tries := x.tries + 1 }).memberEnable g lead 1
    let s := s.holdCkpt g lead false
    let s := s.setF (RG_STAT g) rsSTATE 1
    if x.op ≠ 0 ∧ 2 ≤ x.tries + 1 then s.switchEnd g 7 else s

/-- The group becomes faulty (11 R318): nothing more is released, a pending switch fails, capacity leaves the job. -/
def State.groupFaulty (s : State) (g : Nat) : State :=
  let s := s.abandonCopy g
  let s := s.freeHeld g []
  let s := if (s.group g).op ≠ 0 then s.switchEnd g 6 else s
  let s := (s.setGroup g { s.group g with cmp := none }).setF (RG_STAT g) rsSTATE 3
  if s.isAp g then s else s.moveJob (s.getF (RG_CFG g) rcJIDX)

/-- Detach the member at position `p`. -/
def State.detach (s : State) (g p : Nat) : State :=
  let s := s.setF (RG_STAT g) rsDETACHED (setBit (s.getF (RG_STAT g) rsDETACHED) p)
  let s := if s.isAp g then s else s.setF (UNIT_RG (s.memberOf g p)) rgDETACHED 1
  s.groupCause

/-- The odd member that waits for a resynchronisation: present and detached. -/
def State.oddOf (s : State) (g : Nat) : Option Nat :=
  (List.range 3).find? (fun p => bit (s.getF (RG_STAT g) rsPRESENT) p && bit (s.getF (RG_STAT g) rsDETACHED) p)

/-- Step 3 of a resynchronisation (11 R317): the attached members but the lead go on, the odd member gets a
JOB_RESET and takes nothing; steps 4 and 5 are RESYNC. -/
def State.beginCopy (s : State) (g lead odd : Nat) : State :=
  let s := s.freeHeld g [lead]
  let s := s.memberEnable g odd 0
  let s := if s.isAp g then s else
    let c := s.memberOf g odd
    if s.unitState c < stFenced then s.jobReset c else s
  let s := s.holdCkpt g lead true
  (s.setGroup g { s.group g with copy := some (lead, odd) }).setF (RG_STAT g) rsSTATE 2

/-- The group-table entry of SIZE 1 that names logical unit `lu` of job `j`. -/
def State.soloEntry (s : State) (j lu : Nat) : Option GroupRec :=
  (s.job j).groups.find? (fun e => decide (e.size = 1 ∧ e.members.getD 0 0xFF = lu))

/-- A SPLIT at a release: both members leave the group, whose number is freed; each former cell gets its solo
targets (11 R320, R324, R325). -/
def State.splitGroup (s : State) (g : Nat) : State :=
  let s := s.freeHeld g []
  let ms := [s.memberOf g 0, s.memberOf g 1]
  let j := s.getF (RG_CFG g) rcJIDX
  let ap := s.isAp g
  let s := ms.foldl (fun s m =>
    if ap then s.setF (AP_STAT m) apGROUPED 0
    else
      let s := (s.setF (UNIT_RG m) rgV 0).setF (UNIT_RG m) rgDETACHED 0
      match s.placement j with
      | none => s
      | some p =>
        let e := (p.units.findIdx? (fun u => decide (u.slot = m))).bind (fun lu => s.soloEntry j lu)
        (List.range 8).foldl (fun s t => s.writeTarget (SOLO_TGT m t) p ((e.map (·.targets)).getD [])[t]?) s) s
  let s := (s.setF (RG_CFG g) rcV 0).setF (RG_STAT g) rsSTATE 0
  let s := s.setF (RG_STAT g) rsPRESENT 0
  let s := (List.range 8).foldl (fun s t => s.setF (RG_TGT g t) rtV 0) s
  let s := s.setJob j (let x := s.job j; { x with groupNo := x.groupNo.map (fun n => if n = g then 0xFF else n) })
  let s := s.switchEnd g 0
  { s with groups := Tab.erase s.groups g }.groupCause

/-- A GROW at a release: the joiner takes position 2, detached until the copy has ended (11 R320). -/
def State.growGroup (s : State) (g lead : Nat) : State :=
  let b := s.getF (RG_SWITCH g) rwUNITB
  let s := (s.setF (RG_CFG g) rcM2 b).setF (RG_CFG g) rcTRIAD 1
  let s := s.setF (RG_STAT g) rsPRESENT (setBit (s.getF (RG_STAT g) rsPRESENT) 2)
  let s := if s.isAp g then s.setF (AP_STAT b) apGROUPED 1 else
    [(rgPOS, 2), (rgCMP, s.getF (RG_CFG g) rcCMP), (rgRG, g), (rgV, 1)].foldl (fun s (f, v) => s.setF (UNIT_RG b) f v) s
  (s.detach g 2).beginCopy g lead 2

/-- What a release brings beside the outputs: a pending switch, or the copy into a member detached before it. -/
def State.afterRelease (s : State) (g lead : Nat) (odd : Option Nat) : State :=
  match (s.group g).op, odd with
  | 1, _ => s.splitGroup g
  | 3, none => s.growGroup g lead
  | _, some o => s.beginCopy g lead o
  | _, none => s.freeHeld g []

/-! Outcomes (11 R311, R315, R316). -/

/-- The expected positions whose deposit is not there: the odd members of a close (11 R311); the highest shows (log 86). -/
def Comparison.absent (c : Comparison) (expected : List Nat) : List Nat :=
  expected.filter (fun p => !c.deposits.any (fun d => decide (d.1 = p)))

/-- Close the comparison with an outcome; `withheld` sets the newest bit of HIST. -/
def State.closeCmp (s : State) (g outcome : Nat) (withheld : Bool) : State :=
  let x := s.group g
  match x.cmp with
  | none => s
  | some c =>
    let got := c.deposits.map (·.1)
    let miss := ((List.range 3).filter (fun p => bit (s.getF (RG_STAT g) rsPRESENT) p && !got.contains p)).foldl setBit 0
    let s := s.setGroup g { x with cmp := none, closed := some c.ckid, missing := miss, erred := 0 }
    let s := s.setF (RG_STAT g) rsOUTCOME outcome
    let s := (c.absent (s.attached g)).foldl (fun s p => s.setF (RG_STAT g) rsODD p) s
    let s := s.setF (RG_STAT g) rsHIST (s.getF (RG_STAT g) rsHIST * 2 + b2n withheld)
    if withheld then s.event 31 else s

/-- Withhold: the outcome's members are charged, and two set bits of HIST make the group faulty. -/
def State.withhold (s : State) (g outcome : Nat) (charged : List Nat) : State :=
  let s := s.closeCmp g outcome true
  let s := charged.foldl (fun s p => s.mismatch g p) s
  let s := s.freeHeld g []
  if 2 ≤ popCount 16 (s.getF (RG_STAT g) rsHIST) then s.groupFaulty g else s

/-- The lowest position whose deposit another one equals, with that signature. -/
def agreeing (l : List (Nat × Nat)) : Option (Nat × Nat) :=
  [0, 1, 2].findSome? (fun p =>
    match l.find? (fun d => decide (d.1 = p)) with
    | some d => if l.any (fun e => decide (e.1 ≠ p ∧ e.2 = d.2)) then some d else none
    | none => none)

/-- A Pair whose member at position `odd` erred (11 R315): the other leads the resynchronisation. -/
def State.pairError (s : State) (g odd : Nat) : State :=
  let lead := 1 - odd
  let s := s.closeCmp g 6 true
  let s := (s.mismatch g odd).setF (RG_STAT g) rsODD odd
  let s := s.detach g odd
  if 2 ≤ popCount 16 (s.getF (RG_STAT g) rsHIST) then s.groupFaulty g
  else (s.memberEnable g lead 0).beginCopy g lead odd

/-- Judge the open comparison; `over` says that t_LATE has ended. -/
def State.judge (s : State) (g : Nat) (atEnd : Bool) : State :=
  let x := s.group g
  match x.cmp with
  | none => s
  | some c =>
    let ex := s.attached g
    let ds := c.deposits.filter (fun d => ex.contains d.1)
    let got := ds.map (·.1)
    let full := atEnd || ex.all (fun p => got.contains p || bit x.erred p)
    let odd0 := s.oddOf g
    if !s.isTriad g then
      if !full then s
      else
        match agreeing ds with
        | some (lead, _) => ((s.releaseGroup g c.ckid lead).closeCmp g 1 false).afterRelease g lead odd0
        | none =>
          match ex.find? (fun p => bit x.erred p) with
          | some p => if got = [] then s else s.pairError g p
          | none => if got.length = 2 then s.withhold g 3 ex else s.withhold g 4 ex
    else
      let (s, c) :=
        match c.lead, agreeing ds with
        | none, some (lead, _) =>
          let c := { c with lead := some lead }
          ((s.releaseGroup g c.ckid lead).setGroup g { x with cmp := some c }, c)
        | _, _ => (s, c)
      if !full then s
      else
        match c.lead, agreeing ds with
        | some lead, some (_, v) =>
          match ex.find? (fun p => !ds.contains (p, v)) with
          | none => (s.closeCmp g 1 false).afterRelease g lead odd0
          | some p =>
            let s := ((s.closeCmp g 2 false).setF (RG_STAT g) rsODD p).mismatch g p
            (s.detach g p).afterRelease g lead odd0
        | _, _ => s.withhold g 5 got

/-- A comparison whose t_LATE has ended is closed before a later deposit is judged (11 R310, R330). -/
def State.closeLate (s : State) (g : Nat) : State :=
  match (s.group g).cmp with
  | some c => if s.groupLive g ∧ c.openedAt + ms 1 < s.now then s.judge g true else s
  | none => s

/-- DEPOSIT_ARRIVAL at `t`: message `n` is a deposit that reaches its comparison unit (11 R310, R314). -/
def depositArrival (n t : Nat) (s : State) : State :=
  let s := s.at t
  match s.nextMsg n 3 with
  | some m =>
    match m.body with
    | .deposit g ckid sig pos =>
      let s := s.dropMsg n
      let s := if 80 ≤ m.src then s.setF (AP_CKPT (m.src - 80)) acSTATUS 2 else s
      let s := s.closeLate g
      let x := s.group g
      let here := decide (s.memberOf g pos = (if 80 ≤ m.src then m.src - 80 else m.src))
      if (m.src < 64 ∧ s.fencedAt m.dst m.src) ∨ !s.groupLive g ∨ !here ∨ !bit (s.getF (RG_STAT g) rsPRESENT) pos then s
      else if bit (s.getF (RG_STAT g) rsDETACHED) pos then s
      else
        let due := (s.oddOf g).isSome || decide (x.op = 3)
        let s := if due && x.copy.isNone then
            (s.memberEnable g pos 0).setGroup g { x with held := setBit x.held pos } else s
        let x := s.group g
        match x.cmp with
        | some c =>
          if c.deposits.any (fun d => decide (d.1 = pos)) then s
          else
            let v := if c.ckid = ckid then sig else 2 ^ 64 + pos
            (s.setGroup g { x with cmp := some { c with deposits := c.deposits ++ [(pos, v)] } }).judge g false
        | none =>
          if x.closed = some ckid ∧ bit x.missing pos then
            (s.event 12).setGroup g { x with missing := clrBit x.missing pos }
          else if !s.isTriad g && (s.oddOf g).isSome then
            match s.oddOf g, x.copy with
            | some o, none => s.beginCopy g pos o
            | _, _ => s
          else
            (s.setGroup g { x with cmp := some { ckid := ckid, openedAt := s.now, deposits := [(pos, sig)] },
                                   missing := 0 }).judge g false
    | _ => s
  | none => s

def execDepositArrival (n t : Nat) (s : State) : Host.Outcome State Fault Refusal := .next ((depositArrival n t s).settle (s.msgSrc n))

/-- COMPARISON_TIMEOUT at `t`: t_LATE of 1 ms has ended (11 R310, R311). -/
def comparisonTimeout (g t : Nat) (s : State) : State :=
  let s := s.at t
  match (s.group g).cmp with
  | some c => if s.groupLive g ∧ c.openedAt + ms 1 ≤ s.now then s.judge g true else s
  | none => s

def execComparisonTimeout (g t : Nat) (s : State) : Host.Outcome State Fault Refusal := .next (comparisonTimeout g t s)

/-- The member at position `p` is in ERROR, or halted. -/
def State.memberErred (s : State) (g p : Nat) : Bool :=
  if s.isAp g then s.flag (AP_STAT (s.memberOf g p)) apFAILED else decide (s.unitState (s.memberOf g p) = stError)

/-- MEMBER_ERROR_NOTICE (11 R311). -/
def memberErrorNotice (g pos : Nat) (s : State) : State :=
  let x := s.group g
  let had := match x.cmp with
    | some c => c.deposits.any (fun d => decide (d.1 = pos))
    | none => false
  if !s.groupLive g || !(s.attached g).contains pos || !s.memberErred g pos || had || bit x.erred pos then s
  else
    let s := s.setGroup g { x with erred := setBit x.erred pos }
    if !s.isTriad g && (s.attached g).all (fun p => bit (setBit x.erred pos) p) then s.groupFaulty g
    else s.judge g false

def execMemberErrorNotice (g pos : Nat) (s : State) : Host.Outcome State Fault Refusal :=
  .next (memberErrorNotice g pos s)

/-! Loss of members (11 R318) and of capacity (10 R293). -/

/-- The member at position `p` of group `g` is lost. -/
def State.memberLost (s : State) (g p : Nat) : State :=
  if !s.groupLive g || !bit (s.getF (RG_STAT g) rsPRESENT) p then s
  else
    let x := s.group g
    let s := match x.copy with
      | some (a, b) => if a = p ∨ b = p then s.abandonCopy g else s
      | none => s
    let s := s.setF (RG_STAT g) rsPRESENT (clrBit (s.getF (RG_STAT g) rsPRESENT) p)
    let s := s.setF (RG_STAT g) rsDETACHED (clrBit (s.getF (RG_STAT g) rsDETACHED) p)
    let s := if s.isAp g then s.setF (AP_STAT (s.memberOf g p)) apGROUPED 0 else s
    let s := s.groupCause
    if !s.isTriad g || decide ((s.attached g).length < 2) then s.groupFaulty g else s.judge g false

/-- Capacity leaves the jobs that unit `u` serves: the survivors of a group go on where they can. -/
def State.capacityLost (s : State) (u : Nat) : State :=
  (s.admitted.filter (fun j => (s.jobSlots j).contains u)).foldl (fun s j =>
    let g := s.getF (UNIT_RG u) rgRG
    if u < 48 ∧ s.flag (UNIT_RG u) rgV ∧ s.flag (RG_CFG g) rcV ∧ !s.isAp g ∧ s.getF (RG_CFG g) rcJIDX = j then
      s.memberLost g (s.getF (UNIT_RG u) rgPOS)
    else s.moveJob j) s

/-! Resynchronisation (11 R317, R323). -/

/-- The queues of a job on one slot, as local index and record. -/
def State.queuesOn (s : State) (j c : Nat) : List QRec :=
  match s.placement j with
  | some p => (s.job j).queues.filter (fun r => decide (p.slotOf r.lunit = c))
  | none => []

/-- Step 4 for cells: ranges, state image and JOB_RESET. The odd cell keeps its own program range. -/
def State.copyCell (s : State) (lead odd : Nat) (cks : List (Nat × Nat)) : State :=
  let s := cks.foldl (fun s (o, n) =>
    s.store (spadBase odd + o) (byteList (s.bytes (spadBase lead + o) n))) s
  let im := s.imageBytes lead 3
  let base := s.getF (UNIT_CTRL odd) ctrlPBASE
  let len := s.getF (UNIT_CTRL odd) ctrlPLEN
  let s := (s.loadImage odd (fun o n => fieldAt im o n) stStopped).jobReset odd
  (s.setF (UNIT_CTRL odd) ctrlPBASE base).setF (UNIT_CTRL odd) ctrlPLEN len

/-- The odd member's TAIL has come as far as the lead's HEAD in every corresponding queue. -/
def State.queuesReady (s : State) (j lead odd : Nat) : Bool :=
  (s.queuesOn j odd).all (fun r =>
    !newer 32 (s.qHead (lead * 256 + r.lidx)) (s.qTailOf (odd * 256 + r.lidx)))

/-- Step 5: the pointers of the odd member's queues follow the lead's. -/
def State.alignQueues (s : State) (j lead odd : Nat) : State :=
  (s.queuesOn j odd).foldl (fun s r =>
    let h := s.qHead (lead * 256 + r.lidx)
    let q := odd * 256 + r.lidx
    (s.setF (qPtr q) qHEAD h).setF (qPtr q) qNEXT h) s

/-- The odd member is aligned and attached. -/
def State.attach (s : State) (g lead odd : Nat) : State :=
  let s := s.setF (RG_STAT g) rsDETACHED (clrBit (s.getF (RG_STAT g) rsDETACHED) odd)
  let s := if s.isAp g then s else s.setF (UNIT_RG (s.memberOf g odd)) rgDETACHED 0
  let s := ((s.memberEnable g lead 1).memberEnable g odd 1).holdCkpt g lead false
  let s := s.setGroup g { s.group g with copy := none, held := 0 }
  let s := if (s.group g).op = 2 ∨ (s.group g).op = 3 then s.switchEnd g 0 else s
  (s.setF (RG_STAT g) rsSTATE 1).groupCause

/-- The state range of the member at position `p` of an application-core group: base and length in bytes. -/
def State.apState (s : State) (g p : Nat) : Nat × Nat :=
  let n := s.getF (RG_APSS g) raSLEN * 0x10000
  (s.getF (RG_APSS g) raSBASE * 0x10000 + p * n, n)

/-- Steps 3 to 5 for application cores (11 R323, 17 R456). -/
def State.copyPair (s : State) (g lead odd : Nat) : State :=
  let (a, n) := s.apState g lead
  let (b, _) := s.apState g odd
  let s := s.store b (byteList (s.bytes a n))
  let m := s.memberOf g odd
  { s with ap := { s.ap with
      starts := Tab.insert s.ap.starts (2 * m) (s.getF (AP_RESYNC_PC m) apPC, b, s.getF (RG_APREC g) rpCKID) } }

/-- Form the Pair of a JOIN whose solos have reached their boundary (11 R320). -/
def State.joinGroup (s : State) (g : Nat) : State :=
  let a := s.getF (RG_SWITCH g) rwUNITA
  let b := s.getF (RG_SWITCH g) rwUNITB
  let j := s.jobOf a
  match s.placement j with
  | none => s.switchEnd g 3
  | some p =>
    let lu := fun c => p.units.findIdx? (fun u => decide (u.slot = c))
    let e := (s.job j).groups.find? (fun e => decide (2 ≤ e.size) &&
      (match lu a, lu b with
       | some x, some y => e.members.contains x && e.members.contains y
       | _, _ => false))
    match e, lu a, lu b with
    | some e, some x, some y =>
      let k := s.group g
      let s := s.formGroup j g { e with size := 2, members := [x, y] } p
      let s := s.setGroup g { k with cks := e.cks }
      (s.detach g 1).beginCopy g 0 1
    | _, _, _ => s.switchEnd g 3

/-- The same for two application-core pairs (11 R324). -/
def State.joinPairs (s : State) (g : Nat) : State :=
  let a := s.getF (RG_SWITCH g) rwUNITA
  let b := s.getF (RG_SWITCH g) rwUNITB
  let s := [(rcV, 1), (rcKIND, 1), (rcTRIAD, 0), (rcCMP, 4), (rcJIDX, 0xFF), (rcPART, s.getF (AP_CFG a) apPARTA),
    (rcM0, a), (rcM1, b), (rcM2, 0)].foldl (fun s (f, v) => s.setF (RG_CFG g) f v) s
  let s := [(rsLASTCKID, 0), (rsHIST, 0), (rsOUTCOME, 0), (rsODD, 0), (rsDETACHED, 0), (rsPRESENT, 3), (rsSTATE, 1)].foldl
    (fun s (f, v) => s.setF (RG_STAT g) f v) s
  let s := (s.setF (AP_STAT a) apGROUPED 1).setF (AP_STAT b) apGROUPED 1
  (s.detach g 1).beginCopy g 0 1

/-- The group number is one that the configuration store gives to application cores. -/
def State.apGroup (s : State) (g : Nat) : Bool := decide (16 ≤ s.getF (RG_APST g) raLLANE)

/-- RESYNC of group `g` (11 R317): a JOIN whose boundary is reached first forms its Pair; then steps 4 and 5. A lead
that is not IDLE with its last item behind it keeps the copy waiting; one that cannot lead abandons it. -/
def resync (g : Nat) (s : State) : State :=
  let x := s.group g
  let s := if x.op = 2 ∧ x.joined.length = 2 ∧ x.copy = none then
      if s.apGroup g then s.joinPairs g else s.joinGroup g else s
  let x := s.group g
  match x.copy with
  | none => s
  | some (lead, odd) =>
    if !s.groupLive g then s
    else if s.isAp g then (s.copyPair g lead odd).attach g lead odd
    else
      let a := s.memberOf g lead
      let b := s.memberOf g odd
      let j := s.getF (RG_CFG g) rcJIDX
      if s.unitState a ≥ stError ∨ s.unitState b ≥ stFenced then s.abandonCopy g
      else if s.unitState a ≠ stIdle then s
      else
        let s := s.copyCell a b x.cks
        if !s.queuesReady j a b then s.abandonCopy g
        else (s.alignQueues j a b).attach g lead odd

def execResync (g : Nat) (s : State) : Host.Outcome State Fault Refusal := .next (resync g s)

/-! Switch requests (11 R319, R320, R324). -/

/-- Who may write RG_SWITCH: island A, and the runtime of the group's partition, or of any partition while the
number is FREE. -/
def State.switchRight (s : State) (who : Who) (g : Nat) : Bool :=
  match who with
  | .islandA => true
  | .runtime p => !s.flag (RG_CFG g) rcV || decide (s.getF (RG_CFG g) rcPART = p)
  | _ => false

/-- A request with OP `op`: rights, the fields, then `f`, which answers why it fails, 0 where it is accepted. -/
def State.switchReq (s : State) (who : Who) (g w op : Nat) (f : State → Nat) : State :=
  if g ≥ 16 then s
  else if !s.switchRight who g then s.refuseAccess
  else if rwOP.of w ≠ op ∨ s.getF (RG_SWITCH g) rwSTATUS = 1 then s
  else
    let s := s.loadF (RG_SWITCH g) [rwUNITA, rwUNITB] w
    let c := f s
    if c ≠ 0 then s.switchEnd g c
    else ((s.setF (RG_SWITCH g) rwFAIL 0).setF (RG_SWITCH g) rwSTATUS 1).setGroup g
      { s.group g with op := op, joined := [], tries := 0 }

/-- The group is no Pair in NORMAL: why a SPLIT or GROW fails. -/
def State.notPair (s : State) (g : Nat) : Nat :=
  if !s.flag (RG_CFG g) rcV then 2
  else if s.getF (RG_STAT g) rsSTATE = 3 then 6
  else if s.isTriad g ∨ s.getF (RG_STAT g) rsSTATE ≠ 1 then 2 else 0

def splitCmd (who : Who) (g w : Nat) (s : State) : State := s.switchReq who g w 1 (fun s => s.notPair g)

def execSplit (who : Who) (g w : Nat) (s : State) : Host.Outcome State Fault Refusal := .next (splitCmd who g w s)

/-- A cell of job `j` that may join a group. -/
def State.joinerOk (s : State) (j c : Nat) : Bool :=
  decide (c < 48) && (s.jobSlots j).contains c && s.usable c && !s.flag (UNIT_RG c) rgV

/-- A pair that may join an application-core group of partition `p`. -/
def State.pairOk (s : State) (p m : Nat) : Bool :=
  decide (m < 8 ∧ s.getF (AP_STAT m) apMODE = 1 ∧ s.getF (AP_CFG m) apPARTA = p) &&
  !s.flag (AP_STAT m) apGROUPED && !s.flag (AP_STAT m) apQUAR && !s.flag (AP_STAT m) apFAILED

/-- The job that grants cell `c`. -/
def State.jobWith (s : State) (c : Nat) : Option Nat := s.admitted.find? (fun j => (s.jobSlots j).contains c)

/-- Why a JOIN fails. -/
def State.joinFail (s : State) (who : Who) (g : Nat) : Nat :=
  let a := s.getF (RG_SWITCH g) rwUNITA
  let b := s.getF (RG_SWITCH g) rwUNITB
  let mine := fun p => match who with
    | .runtime q => decide (p = q)
    | _ => true
  if s.flag (RG_CFG g) rcV then 2
  else if s.apGroup g then
    let p := s.getF (AP_CFG a) apPARTA
    if !mine p then 1 else if a = b ∨ !s.pairOk p a ∨ !s.pairOk p b then 3 else 0
  else
    match s.jobWith a with
    | none => if a < 8 ∧ b < 8 ∧ (s.jobWith b).isNone then 5 else 3
    | some j =>
      let p := s.getF (JOB_STAT j) jsPART
      let used := (List.range 16).filter (fun h => s.flag (RG_CFG h) rcV && decide (s.getF (RG_CFG h) rcPART = p))
      if !mine p then 1
      else if a = b ∨ !s.joinerOk j a ∨ !s.joinerOk j b then 3
      else if s.getF (PDESC p) pdGROUPS ≤ used.length then 5
      else 0

def joinCmd (who : Who) (g w : Nat) (s : State) : State := s.switchReq who g w 2 (fun s => s.joinFail who g)

def execJoin (who : Who) (g w : Nat) (s : State) : Host.Outcome State Fault Refusal := .next (joinCmd who g w s)

/-- Every release target of the group has LANES of 3. -/
def State.lanesThree (s : State) (g : Nat) : Bool :=
  (List.range 8).all (fun t =>
    let a := RG_TGT g t
    !s.flag a rtV ||
    (let k := fun n => decide (s.getF (winCtl (s.getF a rtSLOT) n) winLANES = 3)
     k (s.getF a rtWIN) && (!s.flag a rtALT || k (s.getF a rtWIN + 1))))

/-- Why a GROW fails. -/
def State.growFail (s : State) (g : Nat) : Nat :=
  let b := s.getF (RG_SWITCH g) rwUNITB
  let c := s.notPair g
  if c ≠ 0 then c
  else if s.isAp g then if s.pairOk (s.getF (RG_CFG g) rcPART) b then 0 else 3
  else if !s.joinerOk (s.getF (RG_CFG g) rcJIDX) b then 3
  else if !s.lanesThree g then 4 else 0

def growCmd (who : Who) (g w : Nat) (s : State) : State := s.switchReq who g w 3 (fun s => s.growFail g)

def execGrow (who : Who) (g w : Nat) (s : State) : Host.Outcome State Fault Refusal := .next (growCmd who g w s)

/-! Application-core checkpoints (11 R321, R324; 17 R456). -/

/-- The group and position of pair `p`. -/
def State.pairGroup (s : State) (p : Nat) : Option (Nat × Nat) :=
  (List.range 16).findSome? (fun g =>
    if s.flag (RG_CFG g) rcV ∧ s.isAp g then
      ((List.range 3).find? (fun i => bit (s.getF (RG_STAT g) rsPRESENT) i && decide (s.memberOf g i = p))).map (fun i => (g, i))
    else none)

/-- The signature of the first `n` lines of a lane at `a`, each with its lane-0 address from `b` (11 R306, R321). -/
def State.laneSig (s : State) (a b n : Nat) : Nat :=
  (List.range n).foldl (fun v i => (v + lineSig (b + 64 * i) (s.bytes (a + 64 * i) 64)) % 2 ^ 64) 0

/-- Sign and deposit the checkpoint that AP_CKPT of pair `p` names. -/
def State.signLane (s : State) (p g pos : Nat) : State :=
  let a := AP_CKPT p
  let ckid := s.getF a acCKID
  let n := s.getF a acLINES
  let l := 2 ^ s.getF (RG_APST g) raLLANE
  let base := s.getF (RG_APST g) raBASE * 0x10000
  let src := base + (2 * pos + ckid % 2) * l
  let part := s.getF (RG_CFG g) rcPART
  if l < 64 * n ∨ !s.canRead 64 part src (64 * n) ∨ s.readFails 64 part src (64 * n) then s.setF a acSTATUS 3
  else
    let v := s.laneSig src (base + ckid % 2 * l) n
    let s := (s.setF a acSTATUS 1).setF (AP_SIG p) sigSIG v
    s.send { src := 80 + p, part := part, tag := 0, dst := 68, body := .deposit g ckid v pos }

/-- A write of AP_CKPT by an ungrouped pair marks the boundary of a JOIN that names it (11 R324). -/
def State.joinMarkPair (s : State) (p : Nat) : State :=
  (List.range 16).foldl (fun s g =>
    let x := s.group g
    let w := RG_SWITCH g
    if x.op = 2 ∧ s.apGroup g ∧ (s.getF w rwUNITA = p ∨ s.getF w rwUNITB = p) ∧ !x.joined.contains p then
      s.setGroup g { x with joined := x.joined ++ [p] }
    else s) s

/-- AP_CKPT_WRITE (11 R321, R329). The lead of a resynchronisation makes none: its last one is held incomplete until
step 5 (17 R456). -/
def apCkptWrite (who : Who) (p w : Nat) (s : State) : State :=
  let right := match who with
    | .islandA => true
    | .runtime q => decide (s.getF (AP_CFG p) apPARTA = q)
    | _ => false
  if p ≥ 8 then s
  else if !right then s.refuseAccess
  else
    match s.pairGroup p with
    | none =>
      let s := s.loadF (AP_CKPT p) [acLINES, acCKID] w
      if acLINES.of w = 0 then s else s.joinMarkPair p
    | some (g, pos) =>
      if bit s.ap.ckptHeld p then s
      else
        let s := s.loadF (AP_CKPT p) [acLINES, acCKID] w
        if acLINES.of w = 0 ∨ !s.groupLive g then s else s.signLane p g pos

def execApCkptWrite (who : Who) (p w : Nat) (s : State) : Host.Outcome State Fault Refusal :=
  .next (apCkptWrite who p w s)

/-- LATENT_OVERDUE at `t` (11 R328): the seconds since the last passing injection test. -/
def latentOverdue (t : Nat) (s : State) : State :=
  let s := s.at t
  let n := s.testSecs
  let s := s.setF RED_STATUS rdSECS n
  if 86400 ≤ n then (s.setF RED_STATUS rdOVERDUE 1).setCause 1 true else s

def execLatentOverdue (t : Nat) (s : State) : Host.Outcome State Fault Refusal := .next (latentOverdue t s)

end Sys2Proof.Machine
end

