-- ==== Sys2Proof/Machine/AppCores.lean ====
section
/-! DEFINITION. Application cores and replay rigs (17 R444 to R463). -/

namespace Sys2Proof.Machine

/-! Harts (17 R444, R447, R448, R453). -/

/-- The partition of hart `h`: that of the pair's core, and of the pair while it is locked. -/
def State.hartPart (s : State) (h : Nat) : Nat :=
  if h % 2 = 1 ∧ s.getF (AP_STAT (h / 2)) apMODE = 0 then s.getF (AP_CFG (h / 2)) apPARTB
  else s.getF (AP_CFG (h / 2)) apPARTA

/-- Core `h` is a hart: not the second core of a pair in lockstep, nor of a halted pair. -/
def State.isHart (s : State) (h : Nat) : Bool :=
  decide (h < 16) && !(decide (h % 2 = 1 ∧ s.getF (AP_STAT (h / 2)) apMODE ≠ 0)) && !bit s.ap.halted (h / 2)

def State.comb (s : State) (h : Nat) : Comb := Tab.get {} s.ap.comb h
def State.setComb (s : State) (h : Nat) (x : Comb) : State :=
  { s with ap := { s.ap with comb := Tab.set {} s.ap.comb h x } }

/-- The combining buffer of hart `h` empties: its words leave as 8-byte writes in ascending order. -/
def State.combEmpty (s : State) (h : Nat) : State :=
  let x := s.comb h
  x.words.foldl (fun s (k, v) => swTailWrite (.runtime (s.hartPart h)) x.q (8 * k) (bytesOf 8 v) s) (s.setComb h {})

/-- COMBINE_BUFFER_EMIT: hart `h` executes FENCE or stores outside the doorbells (`out`), or stores `v` at byte offset
`off` of doorbell `q`; eight words of one doorbell leave as one push (17 R447). -/
def combineBufferEmit (h : Nat) (out : Bool) (q off v : Nat) (s : State) : State :=
  if !s.isHart h then s
  else if out then s.combEmpty h
  else if q ≥ 16384 ∨ off % 8 ≠ 0 ∨ 64 ≤ off then s
  else
    let s := if (s.comb h).q = q then s else s.combEmpty h
    let x := s.comb h
    let x : Comb := { q := q, words := Tab.insert x.words (off / 8) (v % 2 ^ 64) }
    if x.words.length < 8 then s.setComb h x
    else pushCmd (.runtime (s.hartPart h)) q (x.words.flatMap (fun (_, v) => bytesOf 8 v)) (s.setComb h {})

def execCombineBufferEmit (h : Nat) (out : Bool) (q off v : Nat) (s : State) : Host.Outcome State Fault Refusal :=
  .next (combineBufferEmit h out q off v s)

/-- The time counter of the cores: 100 MHz since island A released them (17 R448). -/
def State.hartTime (s : State) : Nat := (s.now - s.ap.timeAt) / 10 % 2 ^ 64

/-- The machine timer interrupt of hart `h` is pending where its counter has reached MTIMECMP. -/
def State.timerLevel (s : State) (h : Nat) : State :=
  let on := decide (s.getF (MTIMECMP h) mtCMP ≤ s.hartTime)
  { s with ap := { s.ap with mtip := if on then setBit s.ap.mtip h else clrBit s.ap.mtip h } }

/-- MACHINE_TIMER_COMPARE of hart `h` at `t`. -/
def machineTimerCompare (h t : Nat) (s : State) : State :=
  let s := s.at t
  if h < 16 then s.timerLevel h else s

def execMachineTimerCompare (h t : Nat) (s : State) : Host.Outcome State Fault Refusal := .next (machineTimerCompare h t s)

/-! Split and locked pairs (17 R453 to R455). -/

/-- Why a REQ of pair `p` fails; `hart` writes it, in M mode where `m` holds. -/
def State.pairRefused (s : State) (p hart : Nat) (m : Bool) : Option Nat :=
  if !m || decide (hart / 2 ≠ p ∨ (hart % 2 = 1 ∧ s.getF (AP_STAT p) apMODE ≠ 0)) then some 1
  else if s.flag (AP_STAT p) apGROUPED then some 2
  else none

/-- The pending identities of the files of hart `h` are cleared. -/
def State.clearFiles (s : State) (h : Nat) : State :=
  { s with imsic := s.imsic.filter (fun (k, _) => !decide (5 * h * 256 ≤ k ∧ k < (5 * h + 5) * 256)) }

/-- LOCK: REQ 1 of pair `p` by `hart`; `parked` says whether core 2p + 1 is parked (17 R454). -/
def lockCmd (p hart : Nat) (m parked : Bool) (s : State) : State :=
  if p ≥ 8 then s
  else
    let a := AP_STAT p
    match s.pairRefused p hart m with
    | some k => s.setF a apREQFAIL k
    | none =>
      if s.getF a apMODE ≠ 0 ∨ !parked then s.setF a apREQFAIL 3
      else if s.flag a apFAILED then s.setF a apREQFAIL 4
      else
        let s := (s.clearFiles (2 * p + 1)).setComb (2 * p + 1) {}
        let s := { s with ap := { s.ap with starts := Tab.erase s.ap.starts (2 * p + 1), mtip := clrBit s.ap.mtip (2 * p + 1) } }
        (s.setF a apREQFAIL 0).setF a apMODE 1

def execLock (p hart : Nat) (m parked : Bool) (s : State) : Host.Outcome State Fault Refusal :=
  .next (lockCmd p hart m parked s)

/-- AP_SPLIT: REQ 2 of pair `p` by `hart`: core 2p + 1 starts at AP_SPLIT_PC with a0 = 2p + 1. -/
def apSplit (p hart : Nat) (m : Bool) (s : State) : State :=
  if p ≥ 8 then s
  else
    let a := AP_STAT p
    match s.pairRefused p hart m with
    | some k => s.setF a apREQFAIL k
    | none =>
      if s.flag a apFAILED then s.setF a apREQFAIL 4
      else if s.getF a apMODE = 0 then s.setF a apREQFAIL 0
      else
        let h := 2 * p + 1
        let s := { s with ap := { s.ap with starts := Tab.insert s.ap.starts h (s.getF (AP_SPLIT_PC p) apPC, h, 0) } }
        ((s.setF a apREQFAIL 0).setF a apMODE 0).timerLevel h

def execApSplit (p hart : Nat) (m : Bool) (s : State) : Host.Outcome State Fault Refusal := .next (apSplit p hart m s)

/-- LOCKSTEP_MISMATCH of pair `p`: both cores halt, FAILED is set, source 1 + p is raised; island A bins a failure; a
member of a group is lost (17 R455; 11 R318). -/
def lockstepMismatch (p : Nat) (s : State) : State :=
  if p ≥ 8 ∨ s.getF (AP_STAT p) apMODE = 0 ∨ s.flag (AP_STAT p) apFAILED then s
  else
    let s := { s with ap := { s.ap with halted := setBit s.ap.halted p } }
    let s := ((s.setF (AP_STAT p) apFAILED 1).wire (1 + p)).binFailure (64 + p)
    match s.pairGroup p with
    | some (g, pos) => s.memberLost g pos
    | none => s

def execLockstepMismatch (p : Nat) (s : State) : Host.Outcome State Fault Refusal := .next (lockstepMismatch p s)

/-! Replay rigs (17 R459, R460). -/

/-- Who may write RIG_CTRL and RIG_INJ. -/
def State.rigWriter (s : State) (who : Who) : Bool :=
  match who with
  | .pcie => true
  | .runtime p => decide (p = s.cfg.pciePart)
  | _ => false

/-- RIG_STEP: a write of RIG_CTRL at `t`. -/
def rigStep (who : Who) (w t : Nat) (s : State) : State :=
  let s := s.at t
  if !s.rigWriter who then s.refuseAccess
  else if rigSTEP.of w = 1 ∧ s.flag RIG_CTRL rigREPLAY then s.stepTrig
  else s

def execRigStep (who : Who) (w t : Nat) (s : State) : Host.Outcome State Fault Refusal := .next (rigStep who w t s)

/-- An injection ends: 0 for done, else why it failed. -/
def State.injEnd (s : State) (k : Nat) : State :=
  (s.setF RIG_INJ injSTATUS (if k = 0 then 2 else 3)).setF RIG_INJ injFAIL k

/-- Commit the next slot of camera ring `n`: its header reads ENDED and INJECTED (19 R493). -/
def State.injCam (s : State) (n : Nat) : State :=
  if n ≥ 16 ∨ !s.flag (CAM_CFG n) ccEN then s.injEnd 2
  else
    let x := s.cam n
    let a := camSlot s n x.next
    let h := s.readBytes 65 (s.getF (CAM_CFG n) ccPART) a 64
    if s.slotHeld a then s.injEnd 3
    else if fieldAt h 0 4 ≠ 0x43524E47 ∨ fieldAt h 4 2 ≠ 1 ∨ fieldAt h 6 1 ≠ n then s.injEnd 4
    else
      match s.camWrite n a (putAt (putAt h 7 [2]) 0x11 [fieldAt h 0x11 1 ||| 8]) with
      | (s, true) => s.injEnd 1
      | (s, false) =>
        let s := (s.setF (CAM_STAT n) csLINES (fieldAt h 8 2)).setF (CAM_STAT n) csSLOT x.next
        let s := s.setCam n { x with next := (x.next + 1) % (s.getF (CAM_RING n) crNSLOT + 1), used := true, absent := 0 }
        (s.imgSeen a).injEnd 0

/-- Commit the next slot of receive ring `r`: its header reads COMPLETE (19 R502). -/
def State.injRing (s : State) (r : Nat) : State :=
  if r ≥ 32 ∨ !s.flag (RXR_CFG r) rxEN then s.injEnd 2
  else
    let x := s.rxRing r
    let a := rxSlot s r x.next
    let h := s.readBytes 65 s.cfg.pciePart a 64
    let p := fieldAt h 7 1
    if fieldAt h 0 4 ≠ 0x53524E47 ∨ fieldAt h 4 2 ≠ 1 ∨ fieldAt h 0xE 1 ≠ r ∨ 6 ≤ p ∨ rxSlotLen s r < 0x40 + fieldAt h 8 4 then
      s.injEnd 4
    else
      match s.rxWrite p a (putAt h 6 [2]) with
      | (s, false) => s.injEnd 1
      | (s, true) =>
        let s := s.setRxRing r { x with next := (x.next + 1) % 2 ^ s.getF (RXR_CFG r) rxLNSLOT }
        (s.strmSample r p (s.portTime p)).injEnd 0

/-- RIG_INJ: a write of RIG_INJ at `t`. -/
def rigInj (who : Who) (w t : Nat) (s : State) : State :=
  let s := s.at t
  if s.getF RIG_INJ injSTATUS = 1 then s
  else if !s.rigWriter who ∨ !s.flag RIG_CTRL rigREPLAY then if injGO.of w = 1 then s.injEnd 1 else s.refuseAccess
  else
    let s := s.loadF RIG_INJ [injCAM, injRING] w
    if injGO.of w = 0 then s
    else if injCAM.of w = 1 then s.injCam (injRING.of w)
    else s.injRing (injRING.of w)

def execRigInj (who : Who) (w t : Nat) (s : State) : Host.Outcome State Fault Refusal := .next (rigInj who w t s)

end Sys2Proof.Machine
end

