-- ==== Sys2Proof/Machine/BusCmds.lean ====
section
/-! DEFINITION. CAN FD channels, odometry, PCIe (19 R504 to R507, R510; 17 R458). -/

namespace Sys2Proof.Machine

/-! CAN FD (19 R506). -/

def canLens : List Nat := [0, 1, 2, 3, 4, 5, 6, 7, 8, 12, 16, 20, 24, 32, 48, 64]

/-- An entry holds an ISO CAN FD frame. -/
def canEntryOk (b : List Nat) : Bool :=
  let id := fieldAt b 0 4
  bit id 30 && (bit id 29 || decide (id % 2 ^ 29 < 2048)) && canLens.contains (fieldAt b 4 1) &&
  decide (fieldAt b 5 1 < 4) && zeroBytes b 6 58

/-- CAN_TRANSMIT on channel `c`: the entry at NEXT is sent, or marked ERR. -/
def canTransmit (c t : Nat) (s : State) : State :=
  let s := s.at t
  let g := 12 + c
  let n := s.grpNext g
  if c ≥ 2 ∨ !s.flag (CAN_CFG c) cnEN ∨ n = s.grpTail g then s
  else
    let b := s.grpEntry g n
    let ok := canEntryOk b && s.canRead 65 (s.groupPart g) (s.grpAddr g n) 128 &&
      !s.readFails 65 (s.groupPart g) (s.grpAddr g n) 128
    let s := s.putEntry g n (putAt b 5 [1 + 2 * b2n (!ok)])
    let s := if ok then s.setPort (8 + c) { s.port (8 + c) with
      sent := b.take 5 ++ (b.drop 64).take (fieldAt b 4 1) } else s
    ((s.setGrpNext g (n + 1)).setGrpHead g (n + 1)).irq (CANB c) (15 + c) 0

def execCanTransmit (c t : Nat) (s : State) : Host.Outcome State Fault Refusal := .next (canTransmit c t s)

/-- Some valid filter takes the identifier. -/
def State.canTakes (s : State) (c id : Nat) (ide : Bool) : Bool :=
  (List.range 32).any (fun k =>
    let a := CANF c k
    s.flag a cfV && (s.flag a cfIDE == ide) &&
    decide ((id ^^^ s.getF a cfID) &&& s.getF a cfMASK = 0))

/-- CAN_RECEIVE: a frame that a filter takes goes into the receive ring, or is lost where that is empty. -/
def canReceive (c id : Nat) (ide brs : Bool) (data : List Nat) (t : Nat) (s : State) : State :=
  let s := s.at t
  let g := 14 + c
  let n := s.grpNext g
  let id := id % 2 ^ (if ide then 29 else 11)
  if c ≥ 2 ∨ !s.flag (CAN_CFG c) cnEN ∨ !canLens.contains data.length ∨ !s.canTakes c id ide then s
  else if n = s.grpTail g then s.irq (CANB c) (15 + c) 2
  else
    let b := bytesOf 4 (id + 2 ^ 29 * b2n ide + 2 ^ 30 + 2 ^ 31 * b2n brs) ++ [data.length, 1] ++ bytesOf 58 0 ++
      data.map (fun x => x % 256) ++ List.replicate (64 - data.length) 0
    (((s.putEntry g n b).setGrpNext g (n + 1)).setGrpHead g (n + 1)).irq (CANB c) (15 + c) 1

def execCanReceive (c id : Nat) (ide brs : Bool) (data : List Nat) (t : Nat) (s : State) :
    Host.Outcome State Fault Refusal := .next (canReceive c id ide brs data t s)

/-- CAN_BUS_OFF: the channel clears EN. -/
def canBusOff (c t : Nat) (s : State) : State :=
  let s := s.at t
  if c ≥ 2 ∨ !s.flag (CAN_CFG c) cnEN then s else (s.setF (CAN_CFG c) cnEN 0).irq (CANB c) (15 + c) 4

def execCanBusOff (c t : Nat) (s : State) : Host.Outcome State Fault Refusal := .next (canBusOff c t s)

/-- CAN_ERROR_PASSIVE. -/
def canErrorPassive (c t : Nat) (s : State) : State :=
  let s := s.at t
  if c ≥ 2 ∨ !s.flag (CAN_CFG c) cnEN then s else s.irq (CANB c) (15 + c) 3

def execCanErrorPassive (c t : Nat) (s : State) : Host.Outcome State Fault Refusal := .next (canErrorPassive c t s)

/-! Odometry (19 R505). -/

def State.odoOf (s : State) (b : Bool) : OdoRt := Tab.get {} s.odo (b2n b)
def State.setOdo (s : State) (b : Bool) (x : OdoRt) : State := { s with odo := Tab.set {} s.odo (b2n b) x }


/-- Speed in m/s, negative in reverse, acceleration and yaw rate as the island integrates them (binary64). -/
def OdoRt.rates (x : OdoRt) : List Nat :=
  let v := fp64.rat (x.speed * 1000) (256 * 3600)
  [if bit x.flags 1 then fp64.neg v else v, fp64.rat (signedOf 16 x.accel) 1000, fp64.rat (signedOf 16 x.yaw) 10000]

/-- The pose integrated up to now (log 20). -/
def OdoRt.poseAt (x : OdoRt) (now : Nat) : List Nat := Config.odoPose x.pose x.rates (now - x.at_)

/-- Speed below 0.1 m/s. -/
def slowSpeed (v : Nat) : Bool := decide (v * 10 * 1000 < 256 * 3600)

/-- ODOMETRY_FRAME: island A's or B's channel 1 receives 16 bytes at `t`. A frame with VALID 0 moves SEQ alone (log 21). -/
def odometryFrame (b : Bool) (bytes : List Nat) (t : Nat) (s : State) : State :=
  let s := s.at t
  let x := s.odoOf b
  let f := fieldAt (bytes.map (fun v => v % 256))
  let seq := f 0 1
  let fresh := match x.seq with
    | none => true
    | some q => newer 8 seq q
  if bytes.length ≠ 16 ∨ f 0xC 4 ≠ crc32c ((bytes.map (fun v => v % 256)).take 12) ∨ !fresh then s
  else if f 1 1 % 2 = 0 then s.setOdo b { x with seq := some seq }
  else
    let speed := f 2 2
    s.setOdo b { seq := some seq, flags := f 1 1, speed := speed, accel := f 4 2, yaw := f 6 2, artic := f 8 2, at_ := s.now,
                 stale := false, pose := x.poseAt s.now,
                 slowSince := if slowSpeed speed then (match x.slowSince with | some u => some u | none => some s.now)
                   else none }

def execOdometryFrame (b : Bool) (bytes : List Nat) (t : Nat) (s : State) : Host.Outcome State Fault Refusal :=
  .next (odometryFrame b bytes t s)

/-- ODOMETRY_STALE: 50 ms without an accepted frame; island A writes FLC_ODO with V = 0. -/
def odometryStale (b : Bool) (t : Nat) (s : State) : State :=
  let s := s.at t
  let x := s.odoOf b
  if x.at_ + ms 50 ≤ s.now then
    let s := s.setOdo b { x with stale := true }
    if b ∨ !s.islandServes false then s else s.setF FLC_ODO foV 0
  else s

def execOdometryStale (b : Bool) (t : Nat) (s : State) : Host.Outcome State Fault Refusal := .next (odometryStale b t s)

/-! PCIe (19 R507; 17 R458). -/

/-- PCIE_LINK_CHANGE. -/
def pcieLinkChange (up : Bool) (gen width t : Nat) (s : State) : State :=
  let s := s.at t
  if up ∧ !(decide (1 ≤ gen ∧ gen ≤ 5) && [1, 2, 4, 8].contains width) then s
  else
    let s := (s.setF PCIEB pcGEN (if up then gen else 0)).setF PCIEB pcWIDTH (if up then width else 0)
    (s.setF PCIEB pcEP (b2n s.cfg.epMode)).irq PCIEB 18 0

def execPcieLinkChange (up : Bool) (gen width t : Nat) (s : State) : Host.Outcome State Fault Refusal :=
  .next (pcieLinkChange up gen width t s)

/-- PCIE_CFGA_GO: a write of PCIE_CFGA with GO, in root-complex mode; `resp` is what the addressed function answers
to a read, all ones where none is there. -/
def pcieCfgaGo (who : Who) (w resp : Nat) (s : State) : State :=
  if !ctrlWriter who s.cfg.pciePart then s.refuseAccess
  else
    let s := s.loadF PCIE_CFGA [pgOP, pgBUS, pgDEV, pgFN, pgREG] w
    if pgGO.of w = 0 ∨ s.cfg.epMode then s
    else
      let v := if s.getF PCIEB pcGEN = 0 then 0xFFFFFFFF else resp
      let s := if pgOP.of w = 0 then s.setF PCIE_CFGD pdDATA v else
        s.setPort 10 { s.port 10 with sent := bytesOf 4 (w % 2 ^ 32) ++ bytesOf 4 (s.getF PCIE_CFGD pdDATA) }
      (s.setF PCIE_CFGA pgDONE 1).irq PCIEB 18 2

def execPcieCfgaGo (who : Who) (w resp : Nat) (s : State) : Host.Outcome State Fault Refusal := .next (pcieCfgaGo who w resp s)

/-- APERTURE_ACCESS: a hart's access at offset `off` of the aperture goes to the downstream device; a read changes
nothing in the device. -/
def apertureAccess (who : Who) (off : Nat) (wr : Bool) (bytes : List Nat) (s : State) : State :=
  let right := match who with
    | .runtime p => decide (p = s.cfg.pciePart)
    | _ => false
  if !right || s.cfg.epMode || decide (0x10000 < off + bytes.length) then s.refuseAccess
  else
    s.setPort 10 { s.port 10 with
      sent := [b2n wr] ++ bytesOf 8 (s.getF PCIE_WBASE pwBASE * 0x10000 + off) ++
        (if wr then bytes.map (fun b => b % 256) else bytesOf 2 bytes.length) }

def execApertureAccess (who : Who) (off : Nat) (wr : Bool) (bytes : List Nat) (s : State) :
    Host.Outcome State Fault Refusal := .next (apertureAccess who off wr bytes s)

end Sys2Proof.Machine
end

