-- ==== Sys2Proof/Machine/CheckEngine.lean ====
section
/-! DEFINITION. The Check engines (09 R246 to R251). -/

namespace Sys2Proof.Machine

def isCheck (u : Nat) : Bool := decide (56 ≤ u ∧ u < 60)

/-- The command block is well formed (09 R246). -/
def checkBlockOk (b : List Nat) : Bool :=
  decide (fieldAt b 0 1 = 1 ∧ fieldAt b 1 1 < 2 ∧ 1 ≤ fieldAt b 2 2 ∧ fieldAt b 2 2 ≤ 4096) && zeroBytes b 4 4 &&
  addrField b 8 64 && addrField b 0x10 1 && zeroBytes b 0x1C 4 && addrField b 0x20 1 && addrField b 0x28 64 &&
  zeroBytes b 0x4C 52

/-- The candidate-set header is well formed (09 R243). -/
def candHeaderOk (h : List Nat) : Bool :=
  decide (fieldAt h 0 4 = 0x43534554 ∧ fieldAt h 4 2 = 1) && zeroBytes h 8 8 && zeroBytes h 0x30 16

/-- Read bytes 0x08 to 0x0F of the grid header: STALE unless VALID is 1 and VERSION is the one expected
(09 R245). -/
def Eng.gridHeader (u grid gver : Nat) : Eng Unit := do
  let l ← Eng.read u (grid + 8) 8
  Eng.need (decide (fieldAt l 0 4 = gver ∧ fieldAt l 4 1 = 1)) .stale

/-- The byte of layer `k` at a cell of the grid buffer. -/
def Eng.gridByte (u grid k r c : Nat) : Eng Nat := do
  let l ← Eng.read u (grid + 0x40 + k * 524288 + r * 512 + c) 1
  return l.getD 0 0

def candTokens (e : List Nat) : List Nat := (List.range 16).map (fun i => fieldAt e (2 * i) 2)

/-- One term of the comfort sum at a state with the acceleration and curvature before it (09 R248). -/
def comfortTerm (t : TSt) (a0 k0 : Nat) : Nat :=
  let da := f32Sub t.a a0
  let dk := f32Mul (f32Mul t.v t.v) (f32Sub t.k k0)
  f32Add (f32Mul da da) (f32Mul dk dk)

/-- The comfort sum in ascending states. -/
def comfortSum : List TSt → Nat → Nat → Nat → Nat
  | [], _, _, c => c
  | t :: ts, a0, k0, c => comfortSum ts t.a t.k (f32Add c (comfortTerm t a0 k0))

/-- The cost of a passing candidate (09 R248). -/
def Eng.candCost (u : Nat) (b h : List Nat) (w : Sweep) (sts : List TSt) (ds : List (List Nat)) : Eng Nat := do
  let tenth := fp32.rat 1 10
  let p := sts.foldl (fun a t => f32Add a (f32Mul t.v tenth)) 0
  let c := comfortSum sts (fieldAt h 0x14 4) (fieldAt h 0x18 4) 0
  let q := ds.foldl (fun a l => l.foldl (fun a d =>
    let x := f32Sub (fieldAt b 0x40 4) (f32Mul tenth (f32OfInt d))
    f32Add a (if f32Lt 0 x then x else 0)) a) 0
  let r ← Eng.fold (fun a (t : TSt) => do
    match w.cell t.x t.y with
    | some (row, col) =>
      let v ← Eng.gridByte u (fieldAt b 0x10 8) 8 row col
      return f32Add a (f32OfInt v)
    | none => return f32Add a (f32OfInt (Config.ruleOutside t.x t.y % 256 : Nat))) 0 sts
  return f32Sub (f32Add (f32Add (f32Mul (fieldAt b 0x34 4) c) (f32Mul (fieldAt b 0x38 4) r))
    (f32Mul (fieldAt b 0x3C 4) q)) (f32Mul (fieldAt b 0x30 4) p)

/-- A candidate is examined (09 R251, 12 R341). -/
def Eng.candDone (u : Nat) : Eng Unit :=
  modify (fun s =>
    let s := s.setF (CHK_STATUS u) ckDONE (s.getF (CHK_STATUS u) ckDONE + 1)
    (s.setF (CHK_CAND_CNT u) cnt64 (s.getF (CHK_CAND_CNT u) cnt64 + 1)).progress u 1)

/-- Check one candidate: its 16-byte result and whether it passes (09 R247 to R249). -/
def Eng.candidate (u : Nat) (b h v e : List Nat) (w : Sweep) : Eng (List Nat × Bool) := do
  let toks := candTokens e
  let start : TSt := { v := fieldAt h 0x10 4, a := fieldAt h 0x14 4, k := fieldAt h 0x18 4, g := fieldAt h 0x1C 4 }
  let sts := expandTokens fp32 v toks start
  let r ← if tokensOk toks then sweepStates (Eng.gridByte u (fieldAt b 0x10 8)) w v sts 0 {}
    else pure { status := 6 }
  let cost ← if r.status = 0 ∧ fieldAt b 1 1 = 1 then Eng.candCost u b h w (sts.map (·.1)) r.ds else pure 0
  Eng.candDone u
  return (bytesOf 2 (fieldAt e 0x20 2) ++ bytesOf 1 r.status ++ bytesOf 1 r.first ++ bytesOf 4 cost ++
    bytesOf 1 (match r.dMin with | some d => d | none => Config.dMinNone) ++ bytesOf 7 0, decide (r.status = 0))

/-- The candidates from index `i` on as far as no error stops them: their results, and the error. -/
def Eng.candidates (u : Nat) (b h v : List Nat) (es : List (List Nat)) (w : Sweep) :
    Nat → Nat → Eng (List (List Nat × Bool) × Option EErr)
  | 0, _ => pure ([], none)
  | n + 1, i => do
    match ← (Eng.candidate u b h v (es.getD i []) w).tried with
    | .error e => pure ([], some e)
    | .ok r =>
      let (l, e) ← Eng.candidates u b h v es w n (i + 1)
      return (r :: l, e)

/-- Engine `u` has completed the command of block `b` with OK, results `rs`, candidate set at `cs`. Where an engine of another
base die completed the same command but for OUT in this frame, the results are compared: each candidate that differs is binned
for both engines, and those that agree and pass are certified (09 R252; 12 R352). -/
def State.certify (s : State) (u cs : Nat) (b : List Nat) (rs : List (List Nat × Bool)) : State :=
  let key := b.take 0x28 ++ b.drop 0x30
  match s.plan.checks.find? (fun (v, k, _) => decide (dieOf v ≠ dieOf u ∧ k = key)) with
  | none => { s with plan := { s.plan with checks := Tab.insert s.plan.checks u (key, rs) } }
  | some (v, _, old) =>
    let pairs := rs.zip old
    let good := (pairs.filter (fun (a, b) => decide (a = b) && a.2)).length
    let s := (pairs.filter (fun (a, b) => decide (a ≠ b))).foldl (fun s _ => ((s.event 16).binFailure v).binFailure u) s
    { s with plan := { s.plan with checks := Tab.erase s.plan.checks v, certified := Tab.insert s.plan.certified cs good } }

/-- A CHECK command of the block at `a`: the error that ends it and the upper bits of its result. Results are held until the
second header read has passed (09 R250). -/
def checkRun (u a : Nat) : Eng (Option EErr × Nat) := do
  let b ← Eng.block u a 128
  Eng.need (checkBlockOk b) .badCommand
  let v ← Eng.read u (fieldAt b 0x20 8) 256
  Eng.need (vehicleOk v) .badVehicle
  let n := fieldAt b 2 2
  let cs := fieldAt b 8 8
  let h ← Eng.read u cs 64
  Eng.need (candHeaderOk h) .badCommand
  let es ← Eng.collect (fun i => Eng.read u (cs + 64 + 64 * i) 64) n 0
  Eng.need (es.all (fun e => zeroBytes e 0x28 24)) .badCommand
  let grid := fieldAt b 0x10 8
  Eng.gridHeader u grid (fieldAt b 0x18 4)
  let g ← Eng.read u (grid + 0x10) 8
  let w : Sweep :=
    { fmt := fp32, perM := 4, rows := 1024, cols := 512, allow := 18, gx := fieldAt g 0 4, gy := fieldAt g 4 4,
      ox := fieldAt h 0x20 4, oy := fieldAt h 0x24 4, oh := fieldAt h 0x28 4, vlim := fieldAt b 0x44 4,
      range := fieldAt b 0x48 4 }
  let (rs, stop) ← Eng.candidates u b h v es w n 0
  let high := (rs.filter (·.2)).length * 2 ^ 48 + rs.length * 2 ^ 32
  match stop with
  | some e => return (some e, high)
  | none =>
    match ← (do
      Eng.gridHeader u grid (fieldAt b 0x18 4)
      Eng.for (fun i => Eng.write u (fieldAt b 0x28 8 + 16 * i) (byteList (rs.getD i ([], false)).1)) n 0 : Eng Unit).tried with
    | .error e => return (some e, high)
    | .ok _ =>
      modify (fun s => if s.flag (UNIT_PART u) upBLOTTER then s else s.certify u cs b rs)
      return (none, high)

/-- CHECK: the engine runs the command it has in progress. -/
def checkCmd (u : Nat) (s : State) : State :=
  match s.engItem u with
  | none => s
  | some it =>
    if !isCheck u then s
    else
      match (checkRun u it.prog).run (s.setF (CHK_STATUS u) ckDONE 0) with
      | .ok (none, high) s => s.engEnd u 0 high
      | .ok (some e, high) s => s.engEnd u (e.code u) high
      | .error e s => s.engEnd u (e.code u) 0

def execCheck (u : Nat) (s : State) : Host.Outcome State Fault Refusal := .next (checkCmd u s)

end Sys2Proof.Machine
end

