-- ==== Sys2Proof/Machine/Sha512.lean ====
section
/-! DEFINITION. SHA-512 (FIPS 180-4), which images, stores, reports and packages are checked with (15 R400 to R412). -/

namespace Sys2Proof.Machine

/-- The largest number of `b` more bits, above `r`, whose `k`-th power is at most `n`. -/
def rootUp (k n : Nat) : Nat → Nat → Nat
  | 0, r => r
  | b + 1, r => rootUp k n b (if (r + 2 ^ b) ^ k ≤ n then r + 2 ^ b else r)

/-- The first 64 bits of the fraction of the `k`-th root of `p`. -/
def rootFraction (k p : Nat) : Nat := rootUp k (p * 2 ^ (64 * k)) 70 0 % 2 ^ 64

/-- The primes below `n`. -/
def primesBelow (n : Nat) : List Nat :=
  (List.range n).filter (fun p => decide (2 ≤ p) && (List.range p).all (fun d => decide (d < 2 ∨ p % d ≠ 0)))

/-- The round constants: the fractions of the cube roots of the first 80 primes. -/
def shaK : List Nat := (primesBelow 410).map (rootFraction 3)

/-- The initial hash value: the fractions of the square roots of the first eight primes. -/
def shaInit : List Nat := (primesBelow 20).map (rootFraction 2)

/-- Rotate right in 64 bits. -/
def rotr (n x : Nat) : Nat := (x / 2 ^ n + x * 2 ^ (64 - n)) % 2 ^ 64

/-- Extend a message schedule, newest word first, by `n` words. -/
def shaExtend : Nat → List Nat → List Nat
  | 0, w => w
  | n + 1, w =>
    let a := w.getD 1 0
    let b := w.getD 14 0
    let s1 := rotr 19 a ^^^ rotr 61 a ^^^ (a / 2 ^ 6)
    let s0 := rotr 1 b ^^^ rotr 8 b ^^^ (b / 2 ^ 7)
    shaExtend n ((s1 + w.getD 6 0 + s0 + w.getD 15 0) % 2 ^ 64 :: w)

/-- One round with constant plus schedule word `kw`. -/
def shaRound (h : List Nat) (kw : Nat) : List Nat :=
  match h with
  | [a, b, c, d, e, f, g, x] =>
    let s1 := rotr 14 e ^^^ rotr 18 e ^^^ rotr 41 e
    let ch := (e &&& f) ^^^ ((2 ^ 64 - 1 - e) &&& g)
    let t1 := x + s1 + ch + kw
    let s0 := rotr 28 a ^^^ rotr 34 a ^^^ rotr 39 a
    let mj := (a &&& b) ^^^ (a &&& c) ^^^ (b &&& c)
    [(t1 + s0 + mj) % 2 ^ 64, a, b, c, (d + t1) % 2 ^ 64, e, f, g]
  | _ => h

/-- The big-endian value of bytes. -/
def beOf (l : List Nat) : Nat := l.foldl (fun v b => 256 * v + b) 0

/-- One block of 128 bytes. -/
def shaBlock (h b : List Nat) : List Nat :=
  let w := ((List.range 16).map (fun i => beOf ((b.drop (8 * i)).take 8))).reverse
  let r := (List.zipWith (· + ·) shaK (shaExtend 64 w).reverse).foldl shaRound h
  List.zipWith (fun x y => (x + y) % 2 ^ 64) h r

/-- The first `n` blocks. -/
def shaBlocks : Nat → List Nat → List Nat → List Nat
  | 0, h, _ => h
  | n + 1, h, b => shaBlocks n (shaBlock h b) (b.drop 128)

/-- The digest of a message: 64 bytes. -/
def sha512 (m : List Nat) : List Nat :=
  let pad := (239 - m.length % 128) % 128
  let b := m ++ [0x80] ++ List.replicate pad 0 ++ (bytesOf 16 (8 * m.length)).reverse
  (shaBlocks (b.length / 128) shaInit b).flatMap (fun x => (bytesOf 8 x).reverse)

end Sys2Proof.Machine
end

