-- ==== Sys2Proof/Machine/PlanCheck.lean ====
section
/-! DEFINITION. The islands' check of a slot: grid copy, selection messages, carried trajectories, the Drydown and the
choice of the trajectory (09 R253 to R262; 12 R335). -/

namespace Sys2Proof.Machine

/-- t_SEL_DL and t_REC of a mode, in ns (09 R264). -/
def tSelDl (m : Nat) : Nat := if m = 3 then us 107300 else if m = 2 then us 77300 else us 69300
def tRec (m : Nat) : Nat := if m = 3 then ms 110 else if m = 2 then ms 80 else ms 72

def State.islPlan (s : State) (b : Bool) : IslPlan := Tab.get {} s.plan.isl (b2n b)
def State.setIslPlan (s : State) (b : Bool) (x : IslPlan) : State :=
  { s with plan := { s.plan with isl := Tab.set {} s.plan.isl (b2n b) x } }

/-- Frame-start events between the trigger of a slot and its t_SEL_DL. -/
def State.slotFrames (s : State) : Nat := tSelDl s.mode / ms 25
/-- The trigger due in the record slot of island `b`, and the instant of the slot's plan time 0. -/
def State.slotSeq (s : State) (b : Bool) : Nat := subMod 16 (s.islPlan b).seq s.slotFrames
def State.slotTime (s : State) (b : Bool) : Nat := (s.islPlan b).at_ + tRec s.mode - s.slotFrames * ms 25

/-! The grid copy (09 R245, R255). -/

/-- An island can read `[a, a + n)`. -/
def State.islandReads (s : State) (a n : Nat) : Bool :=
  (match place a n with
   | .main | .cs _ => !s.outOfService (place a n)
   | _ => false) && !s.uncorrectable a n

/-- Layer `l` of the buffer at `a` in cells of 1.0 m: the smallest of 4 × 4 cells, the largest in layer 8. -/
def State.coarse (s : State) (a l : Nat) : List Nat :=
  (List.range 32768).map (fun i =>
    let vs := (List.range 16).map (fun k =>
      (s.byte (a + 0x40 + l * 524288 + (4 * (i / 128) + k / 4) * 512 + 4 * (i % 128) + k % 4)).toNat)
    if l = 8 then vs.foldl max 0 else vs.foldl min 255)

/-- The grid that the publication block names, where the reader rule holds. -/
def State.gridCopy (s : State) : Option GridCopy :=
  let pub := s.cfg.pubBlock
  if !s.islandReads pub 32 then none
  else
    let w := s.le pub 8
    let v := w % 2 ^ 32
    let k := w / 2 ^ 32
    let a := s.le (pub + 8 + 8 * k) 8
    if 3 ≤ k ∨ !s.islandReads a 4718656 ∨ s.le (a + 8) 4 ≠ v ∨ s.le (a + 0xC) 1 ≠ 1 then none
    else some { version := v, ox := s.le (a + 0x10) 4, oy := s.le (a + 0x14) 4, layers := (List.range 9).map (s.coarse a) }

/-- The grid that island `b` uses: the one published now, else the one it formed before. -/
def State.islandGrid (s : State) (b : Bool) : Option GridCopy :=
  match s.gridCopy with
  | some g => some g
  | none => (s.islPlan b).grid

/-! The islands' checker (09 R256, R259). -/

/-- V_LIMIT of a capability level, FP32. -/
def vLimit (veh_ : List Nat) (cap : Nat) : Nat :=
  if cap = 0 then fieldAt veh_ 0x34 4
  else if cap = 1 then fp32.rat 16666667 1000000
  else if cap ≤ 3 then fp32.rat 11111111 1000000
  else 0

/-- The sweep of an island over its grid, with limits in binary64. -/
def islandSweep (g : Option GridCopy) (origin : List Nat) (vlim range : Nat) : Sweep :=
  { fmt := fp64, perM := 1, rows := 256, cols := 128, allow := 71,
    gx := fp64.of32 (match g with | some g => g.ox | none => fp32.rat (-48) 1),
    gy := fp64.of32 (match g with | some g => g.oy | none => fp32.rat (-64) 1),
    ox := fp64.of32 (origin.getD 0 0), oy := fp64.of32 (origin.getD 1 0), oh := fp64.of32 (origin.getD 2 0),
    vlim := vlim, range := range }

/-- A cell of the island's grid. -/
def gridLook (g : Option GridCopy) (k r c : Nat) : Id Nat :=
  match g with
  | some g => (g.layers.getD k []).getD (r * 128 + c) 0
  | none => Config.noGrid k r c % 256

/-- VLIM and RANGE of a level, binary64. -/
def levelLimits (veh_ : List Nat) (cap : Nat) : Nat × Nat :=
  if cap = 0 then (fp64.of32 (fieldAt veh_ 0x34 4), fp64.rat 208 1)
  else if cap = 1 then (fp64.rat 16666667 1000000, fp64.rat 120 1)
  else (fp64.rat 11111111 1000000, fp64.rat 80 1)

/-- A trajectory passes the island's checker under the limits of level `cap`. -/
def islandPasses (g : Option GridCopy) (origin veh_ : List Nat) (cap : Nat) (l : List (TSt × Bool)) : Bool :=
  let lim := levelLimits veh_ cap
  let r : Swept := Id.run (sweepStates (gridLook g) (islandSweep g origin lim.1 lim.2) veh_ l 0 {})
  decide (r.status = 0)

/-- The first state with a disc in collision or outside the grid, whatever its speed and place. -/
def firstHit (g : Option GridCopy) (origin veh_ : List Nat) (l : List TSt) : Option Nat :=
  let inf := fp64.infBits false
  let r : Swept := Id.run (sweepStates (gridLook g) (islandSweep g origin inf inf) veh_ (l.map (fun t => (t, false))) 0 {})
  if r.status = 0 then none else some r.first

/-! Selection messages (09 R253, R254). -/

/-- A selection message for a trigger that is due is valid. -/
def selOk (m : List Nat) (due : Nat → Bool) : Bool :=
  decide (fieldAt m 0 4 = 0x53454C4D ∧ fieldAt m 4 2 = 1 ∧
    fieldAt m 0x3C 4 = crc32c (m.take 0x3C ++ (m.drop 0x40).take 320)) && due (fieldAt m 6 2)

def selQueue (p : Nat) : Nat := 63 * 256 + 24 + p

/-- The trigger whose selection is due in the slot of island `b`: that of the slot; in the first slot of a new mode any newer than
that of the selection emitted last (09 R253, R264). -/
def State.selDue (s : State) (b : Bool) (n : Nat) : Bool :=
  let x := s.islPlan b
  match x.mode, x.last with
  | some m, some r => if m = s.mode then decide (n = s.slotSeq b) else decide (2 ≤ r.source) || newer 16 n r.refSeq
  | some m, none => decide (m ≠ s.mode) || decide (n = s.slotSeq b)
  | none, _ => decide (n = s.slotSeq b)

/-- The instant of t_SEL_DL in the slot of island `b`. -/
def State.selTime (s : State) (b : Bool) : Nat := s.slotTime b + tSelDl s.mode - tRec s.mode

/-- The messages that the waiting notices name, none for one that island `b` discards, in the order of the partitions and of
arrival: a message is due, valid, and came by t_SEL_DL. -/
def State.selections (s : State) (b : Bool) : List (Option (List Nat)) :=
  (List.range 8).flatMap (fun p =>
    let q := selQueue p
    (List.range (s.qOcc q)).map (fun i =>
      let n := (s.qHead q + i) % 2 ^ 32
      let e := s.qEntry q n
      let m := s.bytes (fieldAt e 16 8) 384
      if fieldAt e 0 4 = 0x534E4F54 ∧ selOk m (s.selDue b) ∧ Tab.get 0 s.plan.selAt (65536 * p + n % 65536) ≤ s.selTime b
      then some m else none))

/-- The message for the slot: of several valid ones the newest, and of one trigger the last. -/
def lastSome : List (Option (List Nat)) → Option (List Nat)
  | [] => none
  | x :: l => match lastSome l, x with
    | some m, some m' => if newer 16 (fieldAt m' 6 2) (fieldAt m 6 2) then some m' else some m
    | some m, none => some m
    | none, x => x

/-- The notices are popped. -/
def State.popSelections (s : State) : State :=
  (List.range 8).foldl (fun s p =>
    let q := selQueue p
    (s.setF (qPtr q) qHEAD (s.qTailOf q)).setF (qPtr q) qNEXT (s.qTailOf q)) s

/-- Trajectory `i` of a message (binary64). -/
def selStates (veh_ m : List Nat) (i : Nat) : List (TSt × Bool) :=
  expandTokens fp64 veh_ ((List.range 16).map (fun k => fieldAt m (0x40 + 40 * i + 2 * k) 2))
    { v := fp64.of32 (fieldAt m 0x10 4), a := fp64.of32 (fieldAt m 0x14 4), k := fp64.of32 (fieldAt m 0x18 4),
      g := fp64.of32 (fieldAt m 0x1C 4) }

/-- The first selected candidate that passes, by rank. -/
def firstSel (g : Option GridCopy) (origin veh_ m : List Nat) (cap : Nat) : Option Nat :=
  (List.range (min 8 (fieldAt m 0xC 1))).find? (fun i =>
    tokensOk ((List.range 16).map (fun k => fieldAt m (0x40 + 40 * i + 2 * k) 2)) &&
    islandPasses g origin veh_ cap (selStates veh_ m i))

/-! The carried trajectory (09 R258). -/

def TSt.toList (t : TSt) : List Nat := [t.x, t.y, t.th, t.v, t.a, t.k, t.g]
def TSt.ofList (l : List Nat) : TSt :=
  { x := l.getD 0 0, y := l.getD 1 0, th := l.getD 2 0, v := l.getD 3 0, a := l.getD 4 0, k := l.getD 5 0, g := l.getD 6 0 }

/-- A state in the new plan frame. -/
def TSt.moved (t : TSt) (old new : List Nat) : TSt :=
  let p := moveFrame old new [t.x, t.y, t.th]
  { t with x := p.getD 0 0, y := p.getD 1 0, th := p.getD 2 0 }

/-- The chord's factor `sin h / h` of an arc of half-angle `h`. -/
def sinc64 (h : Nat) : Nat := if (fp64.decode h).eqv (fp64.decode 0) then fp64.rat 1 1 else fp64.div (fp64.sin h) h

/-- `ns` beyond the last old state: its curvature, −2.0 m/s² until standstill, up to rounding. -/
def TSt.beyond (t : TSt) (ns : Nat) : TSt :=
  let f := fp64
  let time := f.min (f.rat ns 1000000000) (f.div t.v (f.rat 2 1))
  let v := f.minus t.v (f.mul (f.rat 2 1) time)
  let go := f.lt (f.rat ns 1000000000) (f.div t.v (f.rat 2 1))
  let arc := f.minus (f.mul t.v time) (f.mul time time)
  let half := f.div (f.mul t.k arc) (f.rat 2 1)
  let chord := f.mul arc (sinc64 half)
  let near := fun (i x : Nat) => near64 14 (i :: ns :: [t.x, t.y, t.th, t.v, t.k, t.g]) x
  { x := near 0 (f.add t.x (f.mul chord (f.cos (f.add t.th half)))),
    y := near 1 (f.add t.y (f.mul chord (f.sin (f.add t.th half)))), th := near 2 (f.add t.th (f.mul t.k arc)),
    v := if go then near 3 v else 0, a := if go then f.rat (-2) 1 else 0, k := t.k, g := Config.coastArtic [t.v, t.k, t.g] ns }

/-- The old states (binary64, in the new frame) read `d` ns later than a new plan time. -/
def carriedStates (old : List TSt) (d : Nat) : List TSt :=
  (List.range 80).map (fun i =>
    let t := (i + 1) * 100000000 + d
    let j := t / 100000000 - 1
    let f := t % 100000000
    if t = 8000000000 then old.getD 79 {}
    else if 79 ≤ j then (old.getD 79 {}).beyond (t - 8000000000)
    else TSt.ofList (((old.getD j {}).toList.zip (old.getD (j + 1) {}).toList).map (fun (a, b) => lerp a b f 100000000)))

/-! The Drydown (09 R260 to R262). -/

/-- Speed, acceleration and arc length after `t` s at a constant jerk. -/
def jerkMove (jerk t : Nat) (p : Nat × Nat × Nat) : Nat × Nat × Nat :=
  let f := fp64
  let j2 := f.div (f.mul jerk (f.mul t t)) (f.rat 2 1)
  (f.add (f.add p.1 (f.mul p.2.1 t)) j2, f.add p.2.1 (f.mul jerk t),
   f.add (f.add p.2.2 (f.mul p.1 t)) (f.add (f.div (f.mul p.2.1 (f.mul t t)) (f.rat 2 1))
     (f.div (f.mul jerk (f.mul t (f.mul t t))) (f.rat 6 1))))

/-- Phases of a speed profile, each a jerk and a duration, run for `t` s: none once they are over. -/
def runPhases : List (Nat × Nat) → Nat → Nat × Nat × Nat → Option (Nat × Nat × Nat)
  | [], _, _ => none
  | (j, d) :: l, t, p =>
    if fp64.le t d then some (jerkMove j t p) else runPhases l (fp64.minus t d) (jerkMove j d p)

/-- The phases of the Drydown's profile from speed `v` and acceleration `a` with the limit `dd` (09 R261): deceleration ramps at
2.0 m/s³ to its peak, holds there, and ramps back so that speed and acceleration reach zero together. The peak is `dd`, or what
the speed allows: from acceleration zero √(2 v), in general √(2 v + a²/2) (log 85). -/
def ddPhases (v a dd : Nat) : List (Nat × Nat) :=
  let f := fp64
  let two := f.rat 2 1
  let peak := f.min dd (f.sqrt (f.add (f.mul two v) (f.div (f.mul a a) two)))
  let gap := f.add a peak
  let t1 := f.div (f.abs gap) two
  let t3 := f.div peak two
  let rest := f.minus (f.add v (f.mul (f.div (f.minus a peak) two) t1)) (f.mul (f.div peak two) t3)
  let t2 := if f.lt 0 rest ∧ f.lt 0 peak then f.div rest peak else 0
  [(if f.lt gap 0 then two else f.neg two, t1), (0, t2), (two, t3)]

/-- Speed, acceleration and arc length of the Drydown after `n` substeps, up to rounding (log 82). -/
def ddProfile (v a dd n : Nat) : Nat × Nat × Nat :=
  match runPhases (ddPhases v a dd) (fp64.rat n 50) (v, a, 0) with
  | none => (0, 0, 0)
  | some p =>
    if fp64.le p.1 0 then (0, 0, 0)
    else
      let near := fun (i x : Nat) => near64 15 [i, v, a, dd, n] x
      (near 0 p.1, near 1 p.2.1, near 2 p.2.2)

/-- The curvature of a path of 32 points at 8 m at an arc length: that of its end beyond the last point (09 R260). -/
def pathCurv (path : List (Nat × Nat)) (s : Nat) : Nat := Config.pathCurvature path (fp64.min s (fp64.rat 248 1))

/-- One substep of 0.02 s along a path whose curvature at an arc length is `curv`. -/
def ddSub (b : List Nat) (v0 a0 dd : Nat) (curv : Nat → Nat) (n : Nat) (t : TSt) : TSt :=
  let f := fp64
  let p := ddProfile v0 a0 dd n
  if p.1 = 0 then { t with v := 0, a := 0 }
  else
    let lim := f.mul (vehKD f b) f.h
    let k := f.add t.k (f.clamp (f.minus (curv p.2.2) t.k) (f.neg lim) lim)
    { moveStep f t p.1 k with v := p.1, a := p.2.1, k := k, g := gStep f b p.1 k t.g }

/-- `n` states of the Drydown, each after five substeps. -/
def ddStates (b : List Nat) (v0 a0 dd : Nat) (curv : Nat → Nat) : Nat → Nat → TSt → List TSt
  | 0, _, _ => []
  | n + 1, m, t =>
    let t := (List.range 5).foldl (fun t i => ddSub b v0 a0 dd curv (m + i + 1) t) t
    t :: ddStates b v0 a0 dd curv n (m + 5) t

/-- Dd: the smaller of 3.5 m/s² and DEC_MAX. -/
def ddLimit (b : List Nat) : Nat := fp64.min (fp64.rat 7 2) (veh fp64 b 0x24)

/-- The speed that island `b` expects at `t` from its odometry, the curvature and articulation now. -/
def State.speedAt (s : State) (b : Bool) (t : Nat) : Nat :=
  let x := s.odoOf b
  Config.odoSpeed (x.rates.getD 0 0) (x.rates.getD 1 0) (t - x.at_)
def State.curvNow (s : State) (b : Bool) : Nat :=
  let r := (s.odoOf b).rates
  Config.curvatureOf (r.getD 0 0) (r.getD 2 0)
def State.articNow (s : State) (b : Bool) : Nat := fp64.rat (signedOf 16 (s.odoOf b).artic) 10000

/-- `n` states of a Drydown of island `b` for the slot at `t` along a path. -/
def State.drydownOn (s : State) (b : Bool) (t n : Nat) (curv : Nat → Nat) : List TSt :=
  let veh_ := s.plan.vehicle
  let v := s.speedAt b t
  ddStates veh_ v ((s.odoOf b).rates.getD 1 0) (ddLimit veh_) curv n 0 { v := v, k := s.curvNow b, g := s.articNow b }

/-- An island's own Drydown at constant current curvature. -/
def State.ownDrydown (s : State) (b : Bool) (t : Nat) : List TSt := s.drydownOn b t 80 (fun _ => s.curvNow b)

/-- Deceleration and jerk within 1 % of their bounds. -/
def ddBounds : List TSt → Bool
  | a :: b :: l =>
    fp64.le (fp64.rat (-3535) 1000) a.a && fp64.le (fp64.abs (fp64.minus b.a a.a)) (fp64.rat 202 1000) && ddBounds (b :: l)
  | [a] => fp64.le (fp64.rat (-3535) 1000) a.a
  | [] => true

/-- Island B takes island A's Drydown for the slot at `t`: bounds and continuity. -/
def State.ddTaken (s : State) (t : Nat) (l : List TSt) : Bool :=
  ddBounds l && decide (l.length = 80) &&
  fp64.le (fp64.abs (fp64.minus (l.getD 0 {}).v (s.speedAt true (t + ms 100)))) (fp64.rat 1 2)

/-- The Drydown of a record of island `b`, and whether it is island A's: island B checks island A's while it has emitted
since the cold start; otherwise an island uses its own (09 R262; 12 R335, R339). -/
def State.recordDrydown (s : State) (b : Bool) (t : Nat) : List TSt × Bool :=
  match b, s.plan.drydown with
  | false, some l => (l, true)
  | false, none => (s.ownDrydown false t, true)
  | true, some l =>
    if !s.plan.handed && s.flag ISL_STATUS isEMITTER && s.ddTaken t l then (l, true) else (s.ownDrydown true t, false)
  | true, none => (s.ownDrydown true t, false)

/-! The choice (09 R257, R259, R266). -/

/-- A record with the Drydown `dd` (binary64), island A's where `own` says so; its cover against the grid (09 R262, R265). -/
def Record.withDrydown (r : Record) (g : Option GridCopy) (origin veh_ : List Nat) (dd : List TSt) (own : Bool) : Record :=
  let cover := match firstHit g origin veh_ dd with
    | some i => i * 100
    | none => 8000
  let dd32 := dd.map (fun t => t.map to32)
  { r with ddSrc := b2n (!own), ddCover := fp32.rat cover 1000, dd := dd32, traj := if r.source = 3 then dd32 else r.traj }

/-- What an island finds for a slot: the record, whether a selection passed step 1 or 2, and level 4 after it. -/
structure SlotChoice where
  rec_ : Record
  passed : Bool
  held : Option Nat
  origin : List Nat

/-- Island `b`'s record for its slot, with the message that it uses. -/
def State.chooseSlot (s : State) (b : Bool) (msg : Option (List Nat)) : SlotChoice :=
  let x := s.islPlan b
  let veh_ := s.plan.vehicle
  let g := s.islandGrid b
  let t := s.slotTime b
  let pose := (s.odoOf b).poseAt t
  let origin := match msg with
    | some m => [fieldAt m 0x20 4, fieldAt m 0x24 4, fieldAt m 0x28 4]
    | none => Config.carryOrigin x.origin x.zeroPose pose
  let old : Record := x.last.getD {}
  let level := match msg with
    | some m => min 3 (fieldAt m 0xD 1)
    | none => min 3 old.capability
  let cap := max level (if s.mode = 3 then 2 else 0)
  let sel : Option (Nat × List TSt) := match msg with
    | some m => (firstSel g origin veh_ m cap).map (fun i => (i, (selStates veh_ m i).map (·.1)))
    | none => none
  let oldStates := old.traj.map (fun t => (t.map fp64.of32).moved x.zeroPose pose)
  let carried := carriedStates oldStates (t - x.zeroAt)
  let carry := sel.isNone && x.last.isSome && decide (old.source ≤ 2 ∧ old.carry < 4) &&
    islandPasses g origin veh_ cap (carried.map (fun t => (t, false)))
  let slow := match (s.odoOf b).slowSince with
    | some u => decide (u + sec 1 ≤ s.now)
    | none => false
  let held := match s.plan.held with
    | some r => if slow && sel.isSome && decide (39 ≤ s.safe.passes) then none else some r
    | none => if sel.isNone && !carry then some 5 else none
  let (dd, src) := s.recordDrydown b t
  let why := match msg with
    | none => 2
    | some m => if bit (fieldAt m 0xE 2) 0 then 9 else if fieldAt m 0xC 1 = 0 then 3 else 4
  let base : Record :=
    { capability := if held.isSome then 4 else cap, gridVersion := (g.map (·.version)).getD 0, refSeq := (match msg, sel with
        | some m, some _ => fieldAt m 6 2
        | _, _ => s.slotSeq b), vLimit := vLimit veh_ (if held.isSome then 4 else cap),
      carry := if sel.isSome then 0 else old.carry }
  let rec_ := match held, sel with
    | some r, _ => { base with source := 3, reason := r }
    | none, some (i, l) => { base with source := min 1 i, reason := min 1 i, traj := l.map (fun (t : TSt) => t.map to32) }
    | none, none => { base with source := 2, reason := why, carry := old.carry + 1, traj := carried.map (fun (t : TSt) => t.map to32) }
  { rec_ := rec_.withDrydown g origin veh_ dd src, passed := sel.isSome, held := held, origin := origin }

/-- The sequence that island `b` will claim next. -/
def State.nextSeq (s : State) (b : Bool) : Nat :=
  match (s.islPlan b).last with
  | some r => (r.seq + 1) % 2 ^ 32
  | none => (s.getF EMIT_CLAIM ecSEQ + 1) % 2 ^ 32

/-- Island `b` prepares its record, or shadow record, for the slot. -/
def State.prepare (s : State) (b : Bool) (msg : Option (List Nat)) : State × SlotChoice :=
  let c := s.chooseSlot b msg
  let x := s.islPlan b
  (s.setIslPlan b { x with grid := s.islandGrid b, slot := some c.rec_, want := s.nextSeq b, slotAt := s.slotTime b,
                           origin := c.origin, got := none, waits := false, mode := some s.mode, checked := some x.seq }, c)

/-- The island that emits: true for island B. -/
def State.emitter (s : State) : Bool := s.flag ISL_STATUS isEMITTER

/-- The slot of island `b` in its frame is still to be checked, and its t_SEL_DL has come (09 R253, R264). -/
def State.checkDue (s : State) (b : Bool) : Bool :=
  s.islandServes b && decide ((s.islPlan b).checked ≠ some (s.islPlan b).seq) && decide (s.selTime b ≤ s.now)

/-- A Drydown is kept while an island that serves has a slot to check in this frame. -/
def State.dropDrydown (s : State) : State :=
  if [false, true].any (fun b => s.islandServes b && decide ((s.islPlan b).checked ≠ some (s.islPlan b).seq)) then s
  else { s with plan := { s.plan with drydown := none } }

/-- FINAL_CHECK at `t`, where it is due: the other island builds its shadow record first, without popping; the emitter
checks, counts what it discards, and pops. -/
def finalCheck (t : Nat) (s : State) : State :=
  let s := s.at t
  let e := s.emitter
  let s' := if s.checkDue (!e) then (s.prepare (!e) (lastSome (s.selections (!e)))).1 else s
  if s.checkDue e then
    let l := s.selections e
    let msg := lastSome l
    let (s', c) := s'.prepare e msg
    let s' := (l.filter (·.isNone)).foldl (fun s _ => s.event 17) s'.popSelections
    let s' := match msg with
      | some m => if bit (fieldAt m 0xE 2) 0 then s'.event 32 else s'
      | none => s'
    let s' := s'.slotPassed c.passed
    ({ s' with plan := { s'.plan with held := c.held } }).dropDrydown
  else s'.dropDrydown

def execFinalCheck (t : Nat) (s : State) : Host.Outcome State Fault Refusal := .next (finalCheck t s)

/-! DRYDOWN_COMPUTE (09 R260). -/

def basisQueue (p : Nat) : Nat := 63 * 256 + 16 + p

/-- A Drydown basis of 576 bytes is valid. -/
def basisOk (b : List Nat) : Bool :=
  decide (fieldAt b 0 4 = 0x44444253 ∧ fieldAt b 4 2 = 1 ∧ fieldAt b 0x3C 4 = crc32c (b.take 0x3C ++ b.drop 0x40))

/-- The bases that wait in full at a queue: nine entries each. -/
def State.basesAt (s : State) (q : Nat) : List (List Nat) :=
  (List.range (s.qOcc q / 9)).map (fun i =>
    (List.range 9).flatMap (fun k => s.qEntry q ((s.qHead q + 9 * i + k) % 2 ^ 32)))

/-- Island A takes the bases that wait and keeps the newest valid one. -/
def State.takeBases (s : State) (pose : List Nat) : State :=
  (List.range 8).foldl (fun s p =>
    let q := basisQueue p
    let l := s.basesAt q
    let h := (s.qHead q + 9 * l.length) % 2 ^ 32
    let s := (s.setF (qPtr q) qHEAD h).setF (qPtr q) qNEXT h
    l.foldl (fun s b => if basisOk b then { s with plan := { s.plan with basis := b, basisPose := pose } } else s) s) s

/-- The 32 points of a path of a basis, in the plan frame of `pose`. -/
def basisPath (b : List Nat) (o : Nat) (old pose : List Nat) : List (Nat × Nat) :=
  (List.range 32).map (fun i =>
    let p := moveFrame old pose [fp64.of32 (fieldAt b (o + 8 * i) 4), fp64.of32 (fieldAt b (o + 8 * i + 4) 4), 0]
    (p.getD 0 0, p.getD 1 0))

/-- Island A's Drydown reaches a record that island `b` has prepared and not sent (09 R260, R262). -/
def State.takeDrydown (s : State) (b : Bool) : State :=
  let x := s.islPlan b
  match x.slot with
  | none => s
  | some r =>
    let (dd, own) := s.recordDrydown b x.slotAt
    s.setIslPlan b { x with slot := some (r.withDrydown x.grid x.origin s.plan.vehicle dd own) }

/-- DRYDOWN_COMPUTE at `t`: lane or shoulder, for the slot of this frame where it comes by t_REC − 1.0 ms, else for the next. -/
def drydownCompute (t : Nat) (s : State) : State :=
  let s := s.at t
  if !s.islandServes false then s
  else
    let inTime := decide (s.now + ms 1 ≤ s.slotTime false)
    let at_ := s.slotTime false + (if inTime then 0 else ms 25)
    let pose := (s.odoOf false).poseAt at_
    let s := s.takeBases pose
    let b := s.plan.basis
    let x := s.islPlan false
    let g := s.islandGrid false
    let origin := Config.carryOrigin x.origin x.zeroPose pose
    let dd := if b = [] then s.ownDrydown false at_
      else
        let lane := basisPath b 64 s.plan.basisPose pose
        let shoulder := basisPath b 320 s.plan.basisPose pose
        let side := decide (fieldAt b 0xC 1 = 1) &&
          (firstHit g origin s.plan.vehicle (s.drydownOn false at_ 800 (pathCurv shoulder))).isNone
        s.drydownOn false at_ 80 (pathCurv (if side then shoulder else lane))
    let s := s.setIslPlan false { x with grid := g }
    let s : State := { s with plan := { s.plan with drydown := some dd } }
    if inTime then ((s.takeDrydown false).takeDrydown true).dropDrydown else s

def execDrydownCompute (t : Nat) (s : State) : Host.Outcome State Fault Refusal := .next (drydownCompute t s)

end Sys2Proof.Machine
end

