-- ==== Sys2Proof/Machine/RecordCmds.lean ====
section
/-! DEFINITION. Trajectory records: emission, shadow records and hand-over, status frames, slot timing (09 R254, R259,
R264 to R267; 12 R335 to R340, R356, R359). -/

namespace Sys2Proof.Machine

/-! The record as bytes (09 R265). -/

/-- The 28 bytes of a state. -/
def stateBytes (t : TSt) : List Nat := t.toList.flatMap (bytesOf 4)

/-- The states of one field: 80, the last one repeated or zero where fewer are held. -/
def trajBytes (l : List TSt) : List Nat := (List.range 80).flatMap (fun i => stateBytes (l.getD i (l.getLast?.getD {})))

/-- The 4,548 bytes of a record. -/
def recordBytes (r : Record) : List Nat :=
  let b := bytesOf 4 0x54524A52 ++ bytesOf 2 1 ++ [r.source, r.capability] ++ bytesOf 4 r.seq ++ bytesOf 4 r.gridVersion ++
    bytesOf 8 r.outTime ++ [b2n r.valid, r.reason, r.emitter, r.carry, r.integrity, r.ddSrc] ++ bytesOf 2 r.refSeq ++
    bytesOf 4 r.vLimit ++ bytesOf 4 r.ddCover ++ bytesOf 24 0 ++ trajBytes r.traj ++ trajBytes r.dd
  b ++ bytesOf 4 (crc32c b)

/-- The states at offset `o` of a record. -/
def trajOf (b : List Nat) (o : Nat) : List TSt :=
  (List.range 80).map (fun i => TSt.ofList ((List.range 7).map (fun k => fieldAt b (o + 28 * i + 4 * k) 4)))

/-- A record from its bytes. -/
def recordOf (b : List Nat) : Record :=
  { source := fieldAt b 6 1, capability := fieldAt b 7 1, seq := fieldAt b 8 4, gridVersion := fieldAt b 0xC 4,
    outTime := fieldAt b 0x10 8, valid := decide (fieldAt b 0x18 1 = 1), reason := fieldAt b 0x19 1,
    emitter := fieldAt b 0x1A 1, carry := fieldAt b 0x1B 1, integrity := fieldAt b 0x1C 1, ddSrc := fieldAt b 0x1D 1,
    refSeq := fieldAt b 0x1E 2, vLimit := fieldAt b 0x20 4, ddCover := fieldAt b 0x24 4, traj := trajOf b 0x40,
    dd := trajOf b 0x900 }

/-- A complete record with a good CRC. -/
def recordOk (b : List Nat) : Bool :=
  decide (b.length = 4548 ∧ fieldAt b 0 4 = 0x54524A52 ∧ fieldAt b 4 2 = 1 ∧ fieldAt b 0x11C0 4 = crc32c (b.take 0x11C0))

/-! The datagram (09 R265; 19 R503). -/

/-- A number in network byte order. -/
def netBytes (n v : Nat) : List Nat := (bytesOf n v).reverse

/-- The ones' complement checksum of an IPv4 header of 20 bytes. -/
def ipCheck (h : List Nat) : Nat :=
  let sum := (List.range 10).foldl (fun a i => a + h.getD (2 * i) 0 * 256 + h.getD (2 * i + 1) 0) 0
  let fold := fun v => v % 65536 + v / 65536
  65535 - fold (fold sum)

/-- The header of a fragment: `n` bytes of the datagram at `8 * off`, of identification `id`; `more` follow. -/
def ipHeader (net : IslNet) (id n off : Nat) (more : Bool) : List Nat :=
  let h := fun c => [0x45, net.dscp % 64 * 4] ++ netBytes 2 (20 + n) ++ netBytes 2 id ++ netBytes 2 (8192 * b2n more + off) ++
    [net.ttl % 256, 17] ++ netBytes 2 c ++ netBytes 4 net.src ++ netBytes 4 net.dst
  h (ipCheck (h 0))

/-- The four IPv4 packets of a record: a UDP datagram without a checksum, in fragments of 1,480 bytes. -/
def recordPackets (net : IslNet) (seq : Nat) (payload : List Nat) : List (List Nat) :=
  let udp := netBytes 2 net.srcPort ++ netBytes 2 net.dstPort ++ netBytes 2 (8 + payload.length) ++ netBytes 2 0 ++ payload
  (List.range 4).map (fun i =>
    let part := (udp.drop (1480 * i)).take 1480
    ipHeader net (seq % 65536) part.length (185 * i) (decide (i < 3)) ++ part)

/-! Claims and emission (12 R337). -/

/-- The island has failed (12 R333). -/
def State.islandFailed (s : State) (b : Bool) : Bool := !s.islandServes b

/-- A claim of `n` is accepted: the next sequence, or as a takeover the last one where its claimant has failed. -/
def State.claimOk (s : State) (takeover : Bool) (n : Nat) : Bool :=
  let cur := s.getF EMIT_CLAIM ecSEQ
  if takeover then decide (n = cur) && s.islandFailed (s.flag EMIT_CLAIM ecBY) else decide (n = (cur + 1) % 2 ^ 32)

/-- A record as it leaves island `b` now with sequence `n` (09 R266; 12 R356). -/
def State.outRecord (s : State) (b : Bool) (n : Nat) (r : Record) : Record :=
  let safe := s.flag SAFE_STATUS safSAFE
  let r : Record := { r with seq := n, outTime := s.portTime (6 + b2n b) % 2 ^ 64, valid := !safe, emitter := b2n b,
                             integrity := s.getF SAFE_STATUS safINTEGRITY }
  if safe then { r with source := 3, reason := s.getF SAFE_STATUS safREASON, traj := r.dd } else r

/-- The interval between successive records and DD_COVER go to their extreme records (13 R372). -/
def State.recordExtremes (s : State) (b : Bool) (r : Record) : State :=
  let x := s.islPlan b
  let s := if x.last.isSome then s.extreme 69 ((s.now - x.leftAt) / 1000) else s
  s.extreme 70 ((fp32.floor (f32Add (f32Mul r.ddCover (f32OfInt 1000)) (fp32.rat 1 2))).getD 0)

/-- The record `r` has left island `b`: what it remembers, the count of CAPABILITY 3, the reason of level 4; the first valid
one ends a warm reset (12 R362). -/
def State.recordLeft (s : State) (b : Bool) (r : Record) : State :=
  let x := s.islPlan b
  let s := s.recordExtremes b r
  let s := s.setIslPlan b { x with slot := none, waits := false, last := some r, leftAt := s.now, zeroAt := x.slotAt,
                                   zeroPose := (s.odoOf b).poseAt x.slotAt }
  let m := recordBytes r
  let s := s.setPort (6 + b2n b)
    { s.port (6 + b2n b) with sent := m, packets := recordPackets (s.cfg.nets.getD (b2n b) {}) r.seq m }
  let s := if r.valid then { s with sup := { s.sup with warmSince := none } } else s
  { s with plan := { s.plan with
      level3 := if r.capability = 3 then some (s.plan.level3.getD s.now) else none,
      held := s.plan.held.map (fun _ => 8) } }

/-- Island `b` claims and sends the record of its slot; a rejected claim discards it. Whether it was sent. -/
def State.sendRecord (s : State) (b takeover : Bool) : State × Bool :=
  let x := s.islPlan b
  match x.slot with
  | none => (s, false)
  | some r =>
    if !s.claimOk takeover x.want then ((s.setIslPlan b { x with slot := none }).event 18, false)
    else
      let s := ((s.setF EMIT_CLAIM ecSEQ x.want).setF EMIT_CLAIM ecBY (b2n b)).setF EMIT_CLAIM ecTAKEOVER (b2n takeover)
      let s := if s.safeMayEnd then s.endSafe else s
      (s.recordLeft b (s.outRecord b x.want r), true)

/-- The emitting island reopens each mailbox window that is open (09 R254). -/
def State.reopenMailbox (s : State) : State :=
  (List.range 8).foldl (fun s p => if s.flag (winCtl 63 p) winOPEN then s.winRound 63 p else s) s

/-- The slot of island `b` may leave now: at t_REC, or no more than 0.5 ms earlier (09 R264). -/
def State.emitDue (s : State) (b : Bool) : Bool := decide ((s.islPlan b).slotAt ≤ s.now + us 500)

/-- RECORD_EMIT at `t`. -/
def recordEmit (t : Nat) (s : State) : State :=
  let s := s.at t
  if s.islandServes s.emitter && s.emitDue s.emitter then (s.sendRecord s.emitter false).1.reopenMailbox else s

def execRecordEmit (t : Nat) (s : State) : Host.Outcome State Fault Refusal := .next (recordEmit t s)

/-- HANDOVER_TIMEOUT at `t`: CAPABILITY has been 3 in every record for HANDOVER_T (09 R259). -/
def handoverTimeout (t : Nat) (s : State) : State :=
  let s := s.at t
  match s.plan.level3, s.plan.held with
  | some u, none =>
    if u + ms (handoverMs s.plan.vehicle) ≤ s.now then { s with plan := { s.plan with held := some 6 } } else s
  | _, _ => s

def execHandoverTimeout (t : Nat) (s : State) : Host.Outcome State Fault Refusal := .next (handoverTimeout t s)

/-! Hand-over (12 R336 to R339). -/

/-- PEER_RECORD_RECEIVE: island `b`'s port receives a datagram of its peer at `t`. -/
def peerRecordReceive (b : Bool) (bytes : List Nat) (t : Nat) (s : State) : State :=
  let s := s.at t
  let m := bytes.map (fun v => v % 256)
  if !s.islandServes b ∨ !recordOk m then s
  else
    let x := s.islPlan b
    let r := recordOf m
    s.setIslPlan b { x with got := some r.seq, last := some r, leftAt := s.now, zeroAt := x.slotAt,
                            zeroPose := (s.odoOf b).poseAt x.slotAt }

def execPeerRecordReceive (b : Bool) (bytes : List Nat) (t : Nat) (s : State) : Host.Outcome State Fault Refusal :=
  .next (peerRecordReceive b bytes t s)

/-- Island `b` takes emission over: its shadow leaves, the hand-over is counted, cause 2 holds until the next cold
start. -/
def State.handOver (s : State) (b takeover : Bool) : State :=
  match s.sendRecord b takeover with
  | (s, false) => s
  | (s, true) =>
    let s := ((s.setF ISL_STATUS isEMITTER (b2n b)).event 26).setCause 2 true
    { s with plan := { s.plan with handed := true } }

/-- The peer of island `b` is declared failed: where `b` waits for its record, which has not arrived, it takes the claim over, up to
2.8 ms after t_REC. -/
def State.takeOver (s : State) (b : Bool) : State :=
  let x := s.islPlan b
  if s.islandServes b ∧ x.waits ∧ s.emitter ≠ b ∧ x.got ≠ some x.want ∧ s.now ≤ x.slotAt + us 2800 then s.handOver b true else s

/-- HANDOVER_DECISION at `t`, 0.2 ms after t_REC: the first row of 12 R338 that applies. -/
def handoverDecision (t : Nat) (s : State) : State :=
  let s := s.at t
  let b := !s.emitter
  let x := s.islPlan b
  let cur := s.getF EMIT_CLAIM ecSEQ
  if !s.islandServes b ∨ x.slot.isNone ∨ s.now < x.slotAt + us 200 then s
  else if x.got = some x.want then s.setIslPlan b { x with slot := none }
  else if x.want = (cur + 1) % 2 ^ 32 then s.handOver b false
  else if x.want = cur then
    if s.islandFailed (!b) then s.handOver b true else s.setIslPlan b { x with waits := true }
  else s

def execHandoverDecision (t : Nat) (s : State) : Host.Outcome State Fault Refusal := .next (handoverDecision t s)

/-- LOST_MIRROR_COPY at `t`: t_REC + 2.8 ms of a claimed record that has not arrived. -/
def lostMirrorCopy (t : Nat) (s : State) : State :=
  let s := s.at t
  let b := !s.emitter
  let x := s.islPlan b
  if s.islandServes b ∧ x.waits ∧ x.slotAt + us 2800 ≤ s.now then
    let done := s.setIslPlan b { x with waits := false, slot := none }
    if x.got = some x.want then done else if s.islandFailed (!b) then s.takeOver b else done.event 19
  else s

def execLostMirrorCopy (t : Nat) (s : State) : Host.Outcome State Fault Refusal := .next (lostMirrorCopy t s)

/-! Status frames (09 R267; 12 R357). -/

/-- The 64 bytes of a status frame of island `b` now. -/
def State.statusBytes (s : State) (b : Bool) : List Nat :=
  let x := s.islPlan b
  let r : Record := x.last.getD {}
  let m := [b2n b, s.getF ISL_STATUS isEMITTER, r.capability, b2n r.valid, r.reason,
      b2n (if b then s.safe.pinB else s.safe.pinA), r.integrity, r.carry] ++ bytesOf 4 r.seq ++ bytesOf 4 r.gridVersion ++
    bytesOf 4 (if x.last.isSome then (s.now - x.leftAt) / 1000 else 0) ++ bytesOf 4 r.ddCover ++ bytesOf 4 r.vLimit ++
    [r.ddSrc] ++ bytesOf 31 0
  m ++ bytesOf 4 (crc32c m)

/-- STATUS_FRAME of island `b` at `t`: it leaves on channel 0 as a CAN FD frame (FDF) with bit-rate switching (BRS) under the
configured identifier, in the form of a CAN entry's ID, LEN and DATA (19 R506). -/
def statusFrame (b : Bool) (t : Nat) (s : State) : State :=
  let s := s.at t
  if !s.islandServes b then s
  else
    let p := 12 + b2n b
    let s := s.setPort p { s.port p with sent := bytesOf 4 (s.cfg.statusIds.getD (b2n b) 0 % 2048 + 3 * 2 ^ 30) ++ [64] ++ s.statusBytes b }
    { s with safe := { s.safe with extra := clrBit s.safe.extra (b2n b) } }

def execStatusFrame (b : Bool) (t : Nat) (s : State) : Host.Outcome State Fault Refusal := .next (statusFrame b t s)

/-! Slot timing (12 R331, R340). -/

/-- The offset of an event at `now` from the nearest frame instant of an island. -/
def frameOffset (at_ now : Nat) : Nat × Int :=
  let k := (now - at_ + us 12500) / ms 25
  (k, (now : Int) - (at_ : Int) - (k : Int) * (ms 25 : Int))

/-- An island's frame moves by `k` periods and a correction of at most 1.0 ms towards `x`. -/
def IslPlan.slew (p : IslPlan) (k : Nat) (x : Int) : IslPlan :=
  let c := max (-(ms 1 : Int)) (min (ms 1 : Int) x)
  { p with at_ := ((p.at_ : Int) + (k : Int) * (ms 25 : Int) + c).toNat, offset := x - c }

/-- ISLAND_FRAME_REALIGN of island `b` at `t`: the forwarded event arrives, or it is missing and the island goes on at
25 ms of its own clock. -/
def islandFrameRealign (b got : Bool) (t : Nat) (s : State) : State :=
  let s := s.at t
  let p := s.islPlan b
  if !s.islandServes b then s
  else if got then
    let seq := s.getF TRIG_STATUS tsREFSEQ
    let (k, x) := frameOffset p.at_ s.now
    if !p.synced || decide (x.natAbs ≤ us 500) then
      s.setIslPlan b { p with at_ := s.now, seq := seq, synced := true, offset := 0 }
    else s.setIslPlan b { p.slew k x with seq := seq }
  else if !p.synced || decide (s.now < p.at_ + ms 25) then s
  else s.setIslPlan b { p.slew 1 p.offset with seq := (p.seq + 1) % 65536 }

def execIslandFrameRealign (b got : Bool) (t : Nat) (s : State) : Host.Outcome State Fault Refusal :=
  .next (islandFrameRealign b got t s)

end Sys2Proof.Machine
end

