-- ==== Sys2Proof/Machine/GoldenOps.lean ====
section
/-! DEFINITION. Golden work: what a BLOTTER entry runs on each unit, and how its item passes the queues (12 R347, R349, R350). -/

namespace Sys2Proof.Machine

/-! The coverage sequence (12 R349). -/

/-- A rounding mode of CVT, without the random word of SR. -/
inductive CvtMode where
  | rne | rtz | sr
  deriving DecidableEq, Repr

/-- An operation that a pattern exercises. -/
inductive Exercise where
  | tmma (m n k : Nat) (a b : Fmt) (nanScale : Bool)
  | vector (f : Fmt) (saturating : Bool)
  | vexp | vrcp | vrsq
  | vdw (f : Fmt) (kernel g : Nat)
  | maxpool | rstat | rnorm
  | cvt (src dst : Fmt) (mode : CvtMode)
  | mxConversion
  deriving DecidableEq, Repr

/-- Every format, in the order of its code. -/
def allFmts : List Fmt := (List.range 12).filterMap Fmt.ofCode

/-- The TMMA that every pattern includes, with walking-one operands. -/
def walkingOnes : Exercise := .tmma 128 64 256 .int8 .int8 false

/-- A TMMA of the walking-one size on one format. -/
def tmmaOf (f : Fmt) : Exercise := .tmma 128 64 256 f f false

/-- CVT between every pair of formats. -/
def cvtPairs (modes : List CvtMode) : List Exercise :=
  modes.flatMap (fun r => allFmts.flatMap (fun a => (allFmts.filter (fun b => decide (a ≠ b))).map (fun b => .cvt a b r)))

/-- Pattern `b` of the coverage sequence, beside its TMMA with walking-one operands. Where the table names no size, the TMMA has
that of the walking-one TMMA; the operands stand in the Blotter ROM (log 87). -/
def coverage : Nat → List Exercise
  | 0 => [tmmaOf .int4]
  | 1 => [.tmma 128 64 4096 .int8 .int8 false]
  | 2 => [tmmaOf .int16]
  | 3 => [.tmma 128 64 256 .mxfp4 .mxfp4 true]
  | 4 => [tmmaOf .mxfp6]
  | 5 => [tmmaOf .e4m3]
  | 6 => [tmmaOf .e5m2, .tmma 128 64 256 .e4m3 .e5m2 false]
  | 7 => [tmmaOf .bf16]
  | 8 => [tmmaOf .fp16]
  | 9 => [.vector .fp32 false, .vector .gf24 false, .vexp, .vrcp, .vrsq]
  | 10 => [.vector .int32 true]
  | 11 => [.vdw .int8 7 4]
  | 12 => [.vdw .bf16 7 4, .maxpool]
  | 13 => [.rstat, .rnorm]
  | 14 => cvtPairs [.rne, .rtz]
  | _ => cvtPairs [.sr] ++ [.mxConversion]

/-- The whole of pattern `b`. -/
def pattern (b : Nat) : List Exercise := walkingOnes :: coverage b

/-- The golden work of unit `u` at position `k` of its coverage sequence (12 R347). -/
def goldenOf (u k : Nat) : Golden :=
  if u < 48 then .cell (k % 16)
  else if u < 52 then .attn (4096 + k % 8) (decide (k % 2 = 1))
  else if u < 56 then .grid (k % 3)
  else if u < 60 then .check
  else if u < 62 then .image (k % 4)
  else .track

/-! The golden item (12 R347). -/

/-- The Blotter feed of unit `u`, and the Blotter completion queue (10 R277). -/
def feedOf (u : Nat) : Nat := 63 * 256 + 64 + u
def blotterCq : Nat := 63 * 256 + 128

/-- The 64 bytes of the golden work item of unit `u`. -/
def goldenItem (u : Nat) : List Nat :=
  [1, 0, 0, 0xFF] ++ bytesOf 2 blotterCq ++ bytesOf 2 0 ++ bytesOf 8 (if u < 48 then 0 else Config.goldenBlock u % 2 ^ 44) ++
    bytesOf 16 0 ++ bytesOf 2 0xFFFF ++ bytesOf 30 0

/-- Island A takes the completions of the Blotter queue. -/
def State.serveBlotter (s : State) : State := s.setF (qPtr blotterCq) qHEAD (s.qTailOf blotterCq)

/-- The unit takes the golden item from its feed, completes it and island A takes the completion; an entry without an item, which a
full or closed feed leaves, has no completion. -/
def State.runGolden (s : State) (u status : Nat) : State × Bool :=
  let q := feedOf u
  if s.qEn q && decide (s.qNext q ≠ s.qTailOf q) then
    let n := s.qNext q
    let it := parseItem q n 0xFF s.now (s.qEntry q n)
    let s := s.setF (qPtr q) qNEXT (n + 1)
    let served := s.cqServes it.cplq q
    ((s.postCpl u { item := it, status := status }).serveBlotter, served)
  else (s, false)

/-- Golden work of unit `u` at position `k` of its coverage sequence: pushed to its feed, taken, completed, compared. What it leaves
in UNIT_PROGRESS, and the status that a failing item posts, are open (log 22); `ok` says that output and completion are the golden ones (12 R350). -/
def State.golden (s : State) (u k : Nat) (ok : Bool) : State :=
  let s := { s with sup := { s.sup with golden := Tab.set none s.sup.golden u (some (goldenOf u k)),
                                        goldenPos := Tab.set 0 s.sup.goldenPos u k } }
  let s := (s.push (feedOf u) (goldenItem u) .island).1
  let (n, s) := s.fresh (2 ^ 32)
  let (st, s) := s.fresh 6
  let (s, done) := s.runGolden u (if ok then 0 else st)
  let s := s.progress u n
  if ok && done then s else s.binFailure u

end Sys2Proof.Machine
end

