-- ==== Sys2Proof/Machine/Supervision.lean ====
section
/-! DEFINITION. Island supervision: heartbeats and island failure, the failure detector and fences, Blotter, conditional
quarantine (12 R331 to R334, R341 to R355; 05 R128, R136). -/

namespace Sys2Proof.Machine

/-! Fences (12 R342 to R345). -/

/-- The ports that hold a copy of the fence mask (05 R136, 11 R314): scratchpads, the mailbox, comparison units. -/
def fencePorts : List Nat := List.range 48 ++ [63, 64, 65, 66, 67, 68]

/-- Set or clear the fence bit of slot `u` in every port. -/
def State.fenceBits (s : State) (u : Nat) (on : Bool) : State :=
  fencePorts.foldl (fun s p => { s with portFence := Tab.set false s.portFence (128 * p + u) on }) s

/-- The device event of a fence with a cause: STALL, FAULT, IMMEDIATE. -/
def fenceEvent (cause : Nat) : Nat := 12 + cause

/-- What unit `u` was about to post is discarded; an engine's command is abandoned (06 R172, 07 R198, 08 R236). -/
def State.fenceUnit (s : State) (u : Nat) : State :=
  let s := s.setUnit u { s.unit u with comps := [] }
  let s := if u < 48 then s else s.abandon u
  if 48 ≤ u ∧ u < 52 then s.attnLeave u else if u = 62 then s.trkReset else s

/-- Fence unit `u` with a cause (12 R343). -/
def State.fence (s : State) (u cause : Nat) : State :=
  if 63 ≤ u ∨ s.flag (UNIT_FENCE u) fnFENCE then s
  else
    let s := (s.setF (UNIT_FENCE u) fnFENCE 1).setF (UNIT_FENCE u) fnCAUSE cause
    let s := s.setUnitState u stFenced
    let s := (s.fenceBits u true).fenceUnit u
    let s := (List.range 64).foldl (fun s b => if bit (s.barrier b).members u then s.barBreak b else s) s
    let s := (s.setF (UNIT_FENCE u) fnDONE 1).dirChange
    (s.capacityLost u).event (fenceEvent cause)

/-- Who writes UNIT_FENCE: island A, and island B while island A has failed. -/
def State.fenceWriter (s : State) (who : Who) : Bool :=
  match who with
  | .islandA => true
  | .islandB => s.islandFailed false
  | _ => false

/-- FENCE: a write of FENCE; a fault that the island attributes to the unit. -/
def fenceCmd (who : Who) (u : Nat) (s : State) : State :=
  if u ≥ 63 then s else if !s.fenceWriter who then s.refuseAccess else s.fence u 3

def execFence (who : Who) (u : Nat) (s : State) : Host.Outcome State Fault Refusal := .next (fenceCmd who u s)

/-- UNIT_INTERNAL_FAULT: the unit's own hardware reports a fault, and the island that serves fences it. -/
def unitInternalFault (u : Nat) (s : State) : State :=
  if s.islandServes false ∨ s.islandServes true then s.fence u 2 else s

def execUnitInternalFault (u : Nat) (s : State) : Host.Outcome State Fault Refusal := .next (unitInternalFault u s)

/-- Entry `e` of the quarantine table holds under every bin (12 R353). -/
def State.quarAll (s : State) (e : Nat) : State :=
  let q : Quar := Tab.get {} s.quar e
  if q.all then s else ({ s with quar := Tab.set {} s.quar e { q with all := true } }).dirChange

/-- UNIT_REINIT: island A resets a fenced unit and runs the sixteen patterns; `pass` says that all passed (12 R345). -/
def unitReinit (u : Nat) (pass : Bool) (s : State) : State :=
  if u ≥ 63 ∨ !s.islandServes false ∨ !s.flag (UNIT_FENCE u) fnDONE then s
  else
    let s := s.unitReset u
    if pass then { s with sup := { s.sup with reinit := Tab.set false s.sup.reinit u true } } else s.quarAll u

def execUnitReinit (u : Nat) (pass : Bool) (s : State) : Host.Outcome State Fault Refusal := .next (unitReinit u pass s)

/-- UNFENCE: a write of UNFENCE lifts the fence after a passing re-initialisation; the unit serves later admissions. -/
def unfenceCmd (who : Who) (u : Nat) (s : State) : State :=
  if u ≥ 63 then s
  else if !s.fenceWriter who then s.refuseAccess
  else if !s.flag (UNIT_FENCE u) fnFENCE ∨ !Tab.get false s.sup.reinit u then s
  else
    let s := { s with sup := { s.sup with reinit := Tab.set false s.sup.reinit u false } }
    let s := ((s.setF (UNIT_FENCE u) fnFENCE 0).setF (UNIT_FENCE u) fnDONE 0).setF (UNIT_FENCE u) fnCAUSE 0
    let s := (s.fenceBits u false).dirChange
    let s := if s.unitState u = stFenced then s.setUnitState u stIdle else s
    if 48 ≤ u ∧ u < 52 then s.attnReturn u else if u = 62 then s.trkReturn else s

def execUnfence (who : Who) (u : Nat) (s : State) : Host.Outcome State Fault Refusal := .next (unfenceCmd who u s)

/-! The failure detector (12 R342). -/

/-- A sample of unit `u` finds pending work. -/
def State.pendingWork (s : State) (u : Nat) : Bool :=
  let j := s.jobOf u
  decide (j ≠ 0xFF) && !s.flag (UNIT_PART u) upBLOTTER && decide (s.jobState j = jRunning) &&
  (decide (s.unitState u = stRunning) || (decide (s.unitState u = stIdle) && (s.pickQueue u).isSome))

/-- The stall limit of a unit in ns; STALL_LIMIT 0 acts as 2,000 (03 R78). -/
def State.stallLimit (s : State) (u : Nat) : Nat :=
  let l := s.getF (UNIT_CTRL u) ctrlSTALL
  us (if u < 48 ∧ l ≠ 0 then l else 2000)

/-- Sample one unit now. -/
def State.sampleUnit (s : State) (u : Nat) : State :=
  let x : Stall := Tab.get {} s.sup.stall u
  let n := s.getF (UNIT_PROGRESS u) prCOUNT
  let y : Stall :=
    if n ≠ x.count then { count := n, stall := 0, at_ := s.now }
    else { x with stall := if s.pendingWork u then x.stall + (s.now - x.at_) else x.stall, at_ := s.now }
  let s := { s with sup := { s.sup with stall := Tab.set {} s.sup.stall u y } }
  if s.pendingWork u ∧ s.stallLimit u ≤ y.stall then s.fence u 1 else s

/-- FAILURE_DETECTOR_SAMPLE at `t`, by island A, or by island B while island A has failed. -/
def failureDetectorSample (t : Nat) (s : State) : State :=
  let s := s.at t
  if s.islandServes false ∨ s.islandServes true then (List.range 63).foldl (fun s u => s.sampleUnit u) s else s

def execFailureDetectorSample (t : Nat) (s : State) : Host.Outcome State Fault Refusal := .next (failureDetectorSample t s)

/-! Blotter (12 R346 to R351). -/

/-- A unit can run golden work for island A. -/
def State.blotterReady (s : State) (u : Nat) : Bool :=
  decide (u < 63) && s.islandServes false && decide (s.unitState u < stFenced)

/-- BLOTTER_ENTRY of unit `u` at `t`: the golden item of REF_SEQ, between saving and restoring what it uses (12 R348, R349). -/
def blotterEntry (u t : Nat) (ok : Bool) (s : State) : State :=
  let s := s.at t
  if s.blotterReady u ∧ s.flag (UNIT_PART u) upBLOTTER then s.golden u (s.frameSeq u) ok else s

def execBlotterEntry (u t : Nat) (ok : Bool) (s : State) : Host.Outcome State Fault Refusal := .next (blotterEntry u t ok s)

/-- BLOTTER_EXTRA of a suspect unit in an idle stretch, at most four in a frame; each advances the coverage sequence
(12 R351). -/
def blotterExtra (u t : Nat) (ok : Bool) (s : State) : State :=
  let s := s.at t
  let (f, n) := Tab.get (0, 0) s.sup.extras u
  let n := if f = s.frameSeq u then n else 0
  if s.blotterReady u ∧ s.flag (UNIT_PART u) upSUSPECT ∧ !s.flag (UNIT_PART u) upBLOTTER ∧ s.jobOf u = 0xFF ∧ n < 4 then
    ({ s with sup := { s.sup with extras := Tab.set (0, 0) s.sup.extras u (s.frameSeq u, n + 1) } }).golden u
      (Tab.get 0 s.sup.goldenPos u + 1) ok
  else s

def execBlotterExtra (u t : Nat) (ok : Bool) (s : State) : Host.Outcome State Fault Refusal := .next (blotterExtra u t ok s)

/-! Conditional quarantine (12 R352 to R354). -/

/-- The die of an entry of the quarantine table, in the order of 13 R369. -/
def entryDie (e : Nat) : Nat := if e < 48 then 4 + e / 4 else if e < 60 then (e - 48) % 4 else 16

/-- Sensor `i` of die `d` in 0.1 °C, none where it is invalid (18 R489). -/
def State.sensor (s : State) (d i : Nat) : Option Int :=
  let v := s.getF (THERM d (i / 4)) (thS (i % 4))
  if v = 0x8000 then none else some (signedOf 16 v)

/-- The larger of two readings. -/
def maxOpt : Option Int → Option Int → Option Int
  | some a, some b => some (max a b)
  | some a, none => some a
  | none, b => b

/-- The hottest valid sensor of die `d`. -/
def State.hottest (s : State) (d : Nat) : Option Int := (List.range 8).foldl (fun m i => maxOpt m (s.sensor d i)) none

/-- The temperature bin of a reading in 0.1 °C. -/
def tempBin (t : Int) : Nat := min 15 ((t + 400) / 100).toNat

/-- The entry of unit or pair `e` falls in a quarantined bin. -/
def Quar.inBin (q : Quar) (b : Nat) : Bool := q.all || bit q.mask b

/-- The pair APp enters or leaves a quarantined condition (17 R455). -/
def State.pairQuar (s : State) (p : Nat) (on : Bool) : State :=
  let s := (s.setF (AP_STAT p) apQUAR (b2n on)).wire (1 + p)
  if !on then s
  else match s.pairGroup p with
    | some (g, pos) => (s.memberLost g pos).setF (AP_STAT p) apGROUPED 0
    | none => s

/-- Entry `e` enters a quarantined condition, or leaves it. -/
def State.quarEdge (s : State) (e : Nat) (on : Bool) : State :=
  if 64 ≤ e then s.pairQuar (e - 64) on
  else
    let s := if 48 ≤ e ∧ e < 52 then (if on then s.attnLeave e else s.attnReturn e) else s
    if on then s.capacityLost e else s

/-- QUARANTINE_EVALUATION of entry `e` at `t`, whose datapath was active in `busy` of the `total` cycles of the last
1 ms. A die without a valid sensor leaves the temperature bin open (log 23). -/
def quarantineEvaluation (e busy total t : Nat) (s : State) : State :=
  let s := s.at t
  if 72 ≤ e ∨ e = 63 ∨ !s.islandServes false then s
  else
    let (tb, s) := match s.hottest (entryDie e) with
      | some v => (tempBin v, s)
      | none => s.fresh 16
    let q : Quar := Tab.get {} s.quar e
    let b := 8 * tb + min 7 (8 * busy / max 1 total)
    let hit := q.inBin b
    let enters := hit && q.hit && !q.holds
    let ends := !hit && q.holds && decide (q.heldAt + sec 1 ≤ s.now)
    let q' := { q with bin := b, hit := hit, holds := (q.holds || enters) && !ends, heldAt := if hit then s.now else q.heldAt }
    let s := { s with quar := Tab.set {} s.quar e q' }
    if enters then s.quarEdge e true else if ends then s.quarEdge e false else s

def execQuarantineEvaluation (e busy total t : Nat) (s : State) : Host.Outcome State Fault Refusal :=
  .next (quarantineEvaluation e busy total t s)

/-- QUAR_SEL: a write captures one entry (12 R366). -/
def quarSel (who : Who) (w : Nat) (s : State) : State :=
  let ok := match who with
    | .islandA => true
    | .runtime _ => true
    | _ => false
  if !ok then s.refuseAccess
  else
    let e := qsENTRY.of w
    let q : Quar := if e = 63 ∨ 72 ≤ e then {} else Tab.get {} s.quar e
    let s := (s.setF QUAR_SEL qsENTRY e).setF QUAR_D0 qdMASK (q.mask % 2 ^ 64)
    let s := (s.setF QUAR_D1 qdMASK (q.mask / 2 ^ 64)).setF QUAR_D2 qdBIN q.bin
    (s.setF QUAR_D2 qdHOLDS (b2n q.holds)).setF QUAR_D2 qdALL (b2n q.all)

def execQuarSel (who : Who) (w : Nat) (s : State) : Host.Outcome State Fault Refusal := .next (quarSel who w s)

/-! Island failure (12 R333, R334, R338). -/

def State.isl (s : State) (b : Bool) : IslRt := Tab.get {} s.sup.isl (b2n b)
def State.setIsl (s : State) (b : Bool) (x : IslRt) : State :=
  { s with sup := { s.sup with isl := Tab.set {} s.sup.isl (b2n b) x } }

/-- The SAFE_STATE output of an island. -/
def State.setPin (s : State) (b on : Bool) : State :=
  { s with safe := if b then { s.safe with pinB := on } else { s.safe with pinA := on } }

/-- A reset of island A consumes the outstanding nonces (13 R377, 15 R411). -/
def State.dropNonces (s : State) : State :=
  let s := [SIL_NONCE0, SIL_NONCE1, SEC_NONCE 0, SEC_NONCE 1].foldl (fun s a => s.setF a silNONCE 0) s
  { s with ident := { s.ident with nonce := none, silNonce := none } }

/-- Island `b` fails: its output is asserted, its heartbeat stops, its processor is held in reset; the peer takes a claim
over that it waits for. -/
def State.failIsland (s : State) (b : Bool) : State :=
  if s.islandFailed b then s
  else
    let x := s.isl b
    let s := (s.setF ISL_STATUS (if b then isBFAIL else isAFAIL) 1).setF ISL_STATUS (if b then isBOK else isAOK) 0
    let s := s.setIsl b { x with failedAt := some s.now, fails := x.fails + 1 }
    let s := ((s.setPin b true).event (if b then 25 else 24)).setCause 2 true
    let s := s.setIslPlan b { s.islPlan b with slot := none, waits := false, synced := false }
    let s := if b then s else s.dropNonces
    s.takeOver (!b)

/-- ISLAND_HARDWARE_FAIL of island `b` at `t`: lockstep mismatch, clock fault, or its firmware's own order. -/
def islandHardwareFail (b : Bool) (t : Nat) (s : State) : State := (s.at t).failIsland b

def execIslandHardwareFail (b : Bool) (t : Nat) (s : State) : Host.Outcome State Fault Refusal :=
  .next (islandHardwareFail b t s)

/-- HEARTBEAT_LOSS: island `b` has seen no edge of its peer for 2.5 ms at `t`. -/
def heartbeatLoss (b : Bool) (t : Nat) (s : State) : State :=
  let s := s.at t
  if s.islandServes b ∧ (s.isl (!b)).edgeAt + us 2500 ≤ s.now then s.failIsland (!b) else s

def execHeartbeatLoss (b : Bool) (t : Nat) (s : State) : Host.Outcome State Fault Refusal := .next (heartbeatLoss b t s)

/-! The supervision cycle (12 R333, R355, R358; 11 R328; 13 R374). -/

/-- A class-D job that was lost runs again (12 R358). -/
def State.jobRuns (s : State) (im part : Nat) : Bool :=
  s.admitted.any (fun j => decide ((s.job j).imageId = im ∧ s.getF (JOB_STAT j) jsPART = part ∧ s.jobState j = jRunning))

/-- Every job of the start configuration is RUNNING. -/
def State.startRuns (s : State) : Bool := s.cfg.start.all (fun (part, im) => s.jobRuns im part)

/-- Reasons whose condition has ended are cleared: START and WARM_RESET, FSE_MISSED, JOB_LOST. -/
def State.clearReasons (s : State) : State :=
  let s := { s with sup := { s.sup with lost := s.sup.lost.filter (fun (im, part) => !s.jobRuns im part) } }
  let s := if s.startRuns then (s.clearSafe 0).clearSafe 1 else s
  let s := if 40 ≤ s.sup.alignedFrames then s.clearSafe 2 else s
  if s.sup.lost = [] then s.clearSafe 3 else s

/-- Causes 5 and 6: comparison units in service, fallbacks of class-D jobs. -/
def State.judgeCauses (s : State) : State :=
  let s := s.setCause 5 (decide (popCount 5 (s.getF RED_STATUS rdCMPOK) < 2))
  s.setCause 6 (s.admitted.any (fun j =>
    decide (s.classOf (s.getF (JOB_STAT j) jsPART) = 0 ∧ s.jobState j = jRunning) && (s.fallbackFor j).isNone))

/-- Jobs with a unit that has gone out of service lose its capacity (10 R293). -/
def State.sweepOut (s : State) : State :=
  (List.range 63).foldl (fun s u =>
    if s.unitState u = stOut ∧ s.admitted.any (fun j => (s.jobSlots j).contains u) then s.capacityLost u else s) s

/-- The recorder's copy of island A's local seconds; the seconds since the injection test. -/
def State.stampSec (s : State) : State :=
  (s.setF SIL_TIME silSEC s.localSec).setF RED_STATUS rdSECS s.testSecs

/-- ISLAND_SUPERVISION_CYCLE of island `b` at `t`: HEARTBEAT toggles while the self-tests pass. -/
def islandSupervisionCycle (b : Bool) (t : Nat) (pass : Bool) (s : State) : State :=
  let s := s.at t
  if !s.islandServes b then s
  else
    let f := if b then isHBB else isHBA
    let s := if pass then (s.setF ISL_STATUS f (1 - s.getF ISL_STATUS f)).setIsl b { s.isl b with edgeAt := s.now } else s
    let s := s.setF ISL_STATUS (if b then isBOK else isAOK) 1
    if b then (if s.islandFailed false then s.clearReasons else s)
    else s.stampSec.clearReasons.judgeCauses.sweepOut

def execIslandSupervisionCycle (b : Bool) (t : Nat) (pass : Bool) (s : State) : Host.Outcome State Fault Refusal :=
  .next (islandSupervisionCycle b t pass s)

/-- JOB_LOST: class-D job `j` has stayed FAULTED for 100 ms at `t` (12 R358). -/
def jobLost (j t : Nat) (s : State) : State :=
  let s := s.at t
  let part := s.getF (JOB_STAT j) jsPART
  if j < 255 ∧ s.jobState j = jFaulted ∧ s.classOf part = 0 ∧ (s.job j).faultedAt + ms 100 ≤ s.now then
    ({ s with sup := { s.sup with lost := s.sup.lost ++ [((s.job j).imageId, part)] } }).raiseSafe 3
  else s

def execJobLost (j t : Nat) (s : State) : Host.Outcome State Fault Refusal := .next (jobLost j t s)

/-! WORD_TEST (05 R128; 10 R293). -/

/-- WORD_TEST of the word at `a`: a cell that goes out of service takes its capacity from its jobs. -/
def wordTestCmd (a : Nat) (pass : Bool) (s : State) : State :=
  let s' := wordTest a pass s
  match place (a / 8 * 8) 8 with
  | .spad c => if s'.unitState c = stOut ∧ s.unitState c ≠ stOut then s'.capacityLost c else s'
  | _ => s'

def execWordTest (a : Nat) (pass : Bool) (s : State) : Host.Outcome State Fault Refusal := .next (wordTestCmd a pass s)

end Sys2Proof.Machine
end

