-- ==== Sys2Proof/Machine/StoreOps.lean ====
section
/-! DEFINITION. Two-bank stores and what the device keeps in them (15 R405 to R408; 07 R194; 12 R354; 13 R379). -/

namespace Sys2Proof.Machine

/-! Banks (15 R406, R407). -/

/-- The bank a write goes to (true: bank 1): the one that is not current, on a NOR device that works. -/
def State.writeBank (s : State) (id : Nat) : Bool :=
  let x := s.storeAt id
  if onNor id && bit s.ident.norFailed 0 then true
  else if onNor id && bit s.ident.norFailed 1 then false
  else x.current.isSome && !x.odd

/-- The sequence number of a write: one above the current, 1 where no bank is valid. -/
def State.writeSeq (s : State) (id : Nat) : Nat :=
  match (s.storeAt id).current with
  | some b => (b.seq + 1) % 2 ^ 32
  | none => 1

/-- Set a bank of a store. -/
def State.setBank (s : State) (id : Nat) (odd : Bool) (b : Option Bank) : State :=
  let x : Store := Tab.get {} s.stores id
  { s with stores := Tab.set {} s.stores id (if odd then { x with b1 := b } else { x with b0 := b }) }

/-- A write of `v` that passes every check: it becomes the current bank. -/
def State.putStore (s : State) (id : Nat) (v : StoreVal) : State :=
  s.setBank id (s.writeBank id) (some { seq := s.writeSeq id, val := v })

/-- A write that fails: its bank is invalid, the failure is counted (15 R407). -/
def State.failStore (s : State) (id : Nat) : State :=
  let s := (s.setBank id (s.writeBank id) none).event 30
  if id = 4 then s.setF SIL_STATUS silSTOREFAIL 1 else s

/-- The write in progress of a store. -/
def State.writing (s : State) (id : Nat) : Option StoreVal := (Tab.get ({} : Store) s.stores id).wr
def State.setWriting (s : State) (id : Nat) (v : Option StoreVal) : State :=
  { s with stores := Tab.set {} s.stores id { Tab.get ({} : Store) s.stores id with wr := v } }

/-- A NOR device fails (15 R408). -/
def State.norFail (s : State) (k : Nat) : State :=
  ({ s with ident := { s.ident with norFailed := setBit s.ident.norFailed k } }).setF SEC_STATUS scNORFAIL 1

/-- STORE_WRITE of store `id`: the write that has begun ends. `res` 1 says that its read-back fails, 2 that the NOR device
of its bank fails, anything else that it passes. -/
def storeWrite (id res : Nat) (s : State) : State :=
  match s.writing id with
  | none => s
  | some v =>
    let s := s.setWriting id none
    if res = 1 then (s.failStore id)
    else if res = 2 ∧ onNor id then (s.failStore id).norFail (b2n (s.writeBank id))
    else if onNor id ∧ s.ident.norFailed = 3 then s.failStore id
    else
      let s := s.putStore id v
      if id = 4 then s.setF SIL_STATUS silSTOREFAIL 0 else s

def execStoreWrite (id res : Nat) (s : State) : Host.Outcome State Fault Refusal := .next (storeWrite id res s)

/-- A reset or power loss ends every write in progress: its bank is invalid (15 R407, R421). -/
def State.cutWrites (s : State) : State :=
  s.stores.foldl (fun (s : State) (id, x) =>
    if x.wr.isSome then (s.setBank id (s.writeBank id) none).setWriting id none else s) s

/-- Neither bank's sequence number is newer (15 R406). -/
def Store.seqFault (x : Store) : Bool :=
  match x.b0, x.b1 with
  | some a, some b => !newer 32 a.seq b.seq && !newer 32 b.seq a.seq
  | _, _ => false

/-- The sequence faults of the stores that a start reads are counted. -/
def State.seqFaults (s : State) (ids : List Nat) : State :=
  (ids.filter (fun id => (s.storeAt id).seqFault)).foldl (fun s _ => s.noBin) s

/-! What the stores hold. -/

/-- The clear record and FREEZE_LOSS in the order of their registers (13 R379). -/
def silRegs : List (Nat × FD) :=
  [(SIL_STATUS, silLOSS), (SIL_CLR1, silCLRCOUNT), (SIL_CLR1, silKEYID), (SIL_CLR2, silSCOPE), (SIL_CLR2, silENTRY),
   (SIL_CLR0, silCLRPC), (SIL_CLR0, silCLRSEC)]

/-- The Sillage image now. -/
def State.silImage (s : State) : StoreVal := .sil { sil := s.sil, regs := silRegs.map (fun (a, f) => s.getF a f) }

/-- The quarantine table now. -/
def State.quarTable (s : State) : Tab (Nat × Bool) :=
  (s.quar.map (fun (e, q) => (e, (q.mask, q.all)))).filter (fun (_, q) => decide (q ≠ (0, false)))

/-- The calibration payload now: remaining lives as they stand (07 R194). -/
def State.calVal (s : State) : StoreVal :=
  .calib ((List.range 16).map (fun c => s.cfg.eol.getD c [0, 0, 0, 0, 0, 0])) (s.cal.next.foldl (fun m (c, p) => Tab.set [] m c p) s.cal.poses)
    (s.cal.list.map (fun (c, l) => (c, (l.filter (fun e => decide (s.now < e.ends))).map (fun e => (e.angle, e.len, e.ends - s.now)))))
    ((List.range 17).foldl (fun m d => Tab.set 0 m d (Tab.get (s.getF (TRIM d) tmSTEPS) s.pow.trimNext d)) [])

/-- A payload to load at a start: the shutdown buffer's, where it holds one (18 R476), else the store's. -/
def State.loadVal (s : State) (id : Nat) : Option StoreVal :=
  match Tab.find s.shut id with
  | some v => some v
  | none => s.storeVal id

/-- Load the recorder (13 R379). -/
def State.loadSil (s : State) : State :=
  let (i, ok) := match s.loadVal 4 with
    | some (.sil i) => (i, true)
    | _ => (({} : SilImage), false)
  let s := (silRegs.zipIdx).foldl (fun (s : State) ((a, f), n) => s.setF a f (i.regs.getD n 0)) { s with sil := i.sil }
  s.setF SIL_STATUS silLOADED (b2n ok)

/-- Load the quarantine table; no unit is quarantined where there is none (15 R408). -/
def State.loadQuar (s : State) : State :=
  let t := match s.loadVal 3 with
    | some (.quar t) => t
    | _ => []
  let q : Tab Quar := t.foldl (fun (m : Tab Quar) (x : Nat × Nat × Bool) => Tab.set {} m x.1 { mask := x.2.1, all := x.2.2 }) []
  { s with quar := q }

/-- The bytes of a calibration payload, in an order of the model's own (log 29). -/
def calBytes (eol : List (List Nat)) (p : Tab (List Nat)) (l : Tab (List (Nat × Nat × Nat))) (tr : Tab Nat) : List Nat :=
  (List.range 16).flatMap (fun c =>
    let six := fun (x : List Nat) => (List.range 6).flatMap (fun i => bytesOf 4 (x.getD i 0))
    let es := Tab.get [] l c
    six (eol.getD c []) ++ six (Tab.get (eol.getD c []) p c) ++ bytesOf 8 es.length ++
      es.flatMap (fun (a, n, r) => bytesOf 4 a ++ bytesOf 4 n ++ bytesOf 8 r)) ++
  (List.range 17).flatMap (fun d => bytesOf 1 (Tab.get 0 tr d))

/-- Load poses, lists and trims: entries age from now on; the end-of-line poses where there is no store. -/
def State.loadCal (s : State) : State :=
  let (p, l, tr, bs) := match s.loadVal 2 with
    | some (.calib e p l tr) => (p, l, tr, calBytes e p l tr)
    | _ => ([], [], [], [])
  let l : Tab (List CalEnt) := l.map (fun (c, es) => (c, es.map (fun (a, n, r) => { angle := a, len := n, ends := s.now + r })))
  let s := (List.range 17).foldl (fun (s : State) d => s.setF (TRIM d) tmSTEPS (Tab.get 0 tr d)) s
  { s with cal := { s.cal with poses := p, next := [], dirty := false, savedAt := s.now, list := l },
           pow := { s.pow with trimNext := [] }, loadedCal := bs }

/-! Periodic writes. -/

/-- SILLAGE_PERSIST at `t`: every 600 s of island A, after a freeze (13 R376, R379). -/
def sillagePersist (t : Nat) (s : State) : State :=
  let s := s.at t
  if s.islandServes false ∧ !s.flag SIL_CTRL silFREEZE ∧ s.sup.silSavedAt + sec 600 ≤ s.now then
    ({ s with sup := { s.sup with silSavedAt := s.now } }).setWriting 4 (some s.silImage)
  else s

def execSillagePersist (t : Nat) (s : State) : Host.Outcome State Fault Refusal := .next (sillagePersist t s)

/-- QUARANTINE_TABLE_WRITE at `t`: the table has changed since its last write (12 R354). -/
def quarantineTableWrite (t : Nat) (s : State) : State :=
  let s := s.at t
  let v := StoreVal.quar s.quarTable
  let last := match s.writing 3 with
    | some w => some w
    | none => s.storeVal 3
  if s.islandServes false ∧ last ≠ some v ∧ (last.isSome ∨ s.quarTable ≠ []) then s.setWriting 3 (some v) else s

def execQuarantineTableWrite (t : Nat) (s : State) : Host.Outcome State Fault Refusal := .next (quarantineTableWrite t s)

/-- CALIBRATION_STORE_WRITE at `t`: every 10 minutes while a change is unwritten (07 R194). -/
def calibrationStoreWrite (t : Nat) (s : State) : State :=
  let s := s.at t
  if s.islandServes false ∧ s.cal.dirty ∧ s.cal.savedAt + sec 600 ≤ s.now then
    ({ s with cal := { s.cal with dirty := false, savedAt := s.now } }).setWriting 2 (some s.calVal)
  else s

def execCalibrationStoreWrite (t : Nat) (s : State) : Host.Outcome State Fault Refusal := .next (calibrationStoreWrite t s)

/-! Calibration updates (07 R192, R193). -/

/-- The pose of a camera that the next update starts from. -/
def State.poseOf (s : State) (c : Nat) : List Nat :=
  match Tab.find s.cal.next c, Tab.find s.cal.poses c with
  | some p, _ => p
  | none, some p => p
  | none, none => s.cfg.eol.getD c [0, 0, 0, 0, 0, 0]

/-- The entries of a camera's list that are alive. -/
def State.calList (s : State) (c : Nat) : List CalEnt :=
  (Tab.get [] s.cal.list c).filter (fun e => decide (s.now < e.ends))

/-- A term of `f`: what is left of a limit over a length, none where the length is zero; never negative. -/
def calTerm (limit used len : Nat) : Option Nat :=
  if len % 2 ^ 31 = 0 then none
  else
    let left := f32Sub limit used
    some (f32Div (if f32Lt left 0 then 0 else left) len)

/-- The smaller of two terms, where the second is there. -/
def calMin (a : Nat) : Option Nat → Nat
  | some b => if f32Lt b a then b else a
  | none => a

/-- An update is well formed: CAM, reserved bytes, finite values (07 R192). -/
def calOk (b : List Nat) : Bool :=
  decide (fieldAt b 0 1 < 16) && zeroBytes b 1 7 && zeroBytes b 0x20 32 &&
  (List.range 6).all (fun i => (fp32.decode (fieldAt b (8 + 4 * i) 4)).isFin)

/-- The length of a vector (07 R193, up to rounding: log 82). -/
def norm3 (v : List Nat) : Nat := near32 10 v (norm64 (v.map fp64.of32))

/-- A pose of six values, a rotation vector and a translation (log 84), after R := exp(ω)·R and t := t + Δt (07 R193). -/
def poseMove (p d : List Nat) : List Nat :=
  let x := p.map fp64.of32
  let y := d.map fp64.of32
  let r := rotVec (quatMul (quatOf (y.take 3)) (quatOf (x.take 3)))
  nearAll 11 (p ++ d) (r ++ (List.range 3).map (fun i => fp64.add (x.getD (3 + i) 0) (y.getD (3 + i) 0)))

/-- The angle and the length by which two poses differ. -/
def poseDiff (p q : List Nat) : Nat × Nat :=
  let x := p.map fp64.of32
  let y := q.map fp64.of32
  let r := rotVec (quatMul (quatOf (x.take 3)) (quatInv (quatOf (y.take 3))))
  let t := (List.range 3).map (fun i => fp64.minus (x.getD (3 + i) 0) (y.getD (3 + i) 0))
  (near32 12 (p ++ q) (norm64 r), near32 13 (p ++ q) (norm64 t))

/-- Apply an update of 64 bytes: the state after it, STATUS and `f`. -/
def State.calApply (s : State) (b : List Nat) : State × Nat × Nat :=
  let c := fieldAt b 0 1
  let v := fun o => (List.range 3).map (fun i => fieldAt b (o + 4 * i) 4)
  let l := s.calList c
  let one := fp32.rat 1 1
  if !calOk b then (s, 4, 0)
  else if l.any (fun e => decide (s.now + sec 3590 < e.ends)) then (s, 2, 0)
  else
    let an := norm3 (v 8)
    let ln := norm3 (v 0x14)
    let f := calMin (calMin one (calTerm 0x3B64C388 (l.foldl (fun x e => f32Add x e.angle) 0) an))
      (calTerm 0x3CA3D70A (l.foldl (fun x e => f32Add x e.len) 0) ln)
    let sc := fun o => (v o).map (fun x => f32Mul f x)
    let p := poseMove (s.poseOf c) (sc 8 ++ sc 0x14)
    let (da, dl) := poseDiff p (s.cfg.eol.getD c [0, 0, 0, 0, 0, 0])
    if f32Lt 0x3D0EFA35 da ∨ f32Lt 0x3E4CCCCD dl then (s, 3, f)
    else
      let e : CalEnt := { angle := f32Mul f an, len := f32Mul f ln, ends := s.now + sec 3600 }
      ({ s with cal := { s.cal with next := Tab.set [] s.cal.next c p, list := Tab.set [] s.cal.list c (l ++ [e]), dirty := true } },
        (if f = one then 0 else 1), f)

/-- The completion of the update that partition `p`'s calibration queue `q` gave last, to the partition's notice queue (log 25). -/
def State.calCompletion (s : State) (p q result : Nat) : State :=
  let x : IslPlan := Tab.get {} s.plan.isl 0
  let it := parseItem q ((s.qNext q + 2 ^ 32 - 1) % 2 ^ 32) 0xFF s.now []
  s.pushCq (63 * 256 + 40 + p) (cplBytes 63 { item := it, result := result } false 0 x.seq ((s.now - x.at_) / 1000)) .island

/-- CALIBRATION_UPDATE: island A takes the next update of partition `p` at `t`. -/
def calibrationUpdate (p t : Nat) (s : State) : State :=
  let s := s.at t
  let q := 63 * 256 + 8 + p
  if 8 ≤ p ∨ !s.islandServes false then s
  else match s.request q (fun _ => true) with
    | none => s
    | some b =>
      let (s, st, f) := (s.takeRequest q).calApply b
      let s := if 2 ≤ st then s.event 20 else if st = 1 then s.event 21 else s
      let s := { s with cal := { s.cal with results := Tab.set 0 s.cal.results p (st + f * 2 ^ 32) } }
      (s.calCompletion p q (st + f * 2 ^ 32)).setF (qPtr q) qHEAD (s.qNext q)

def execCalibrationUpdate (p t : Nat) (s : State) : Host.Outcome State Fault Refusal := .next (calibrationUpdate p t s)

end Sys2Proof.Machine
end

