-- ==== Sys2Proof/Machine/FirmwareOps.lean ====
section
/-! DEFINITION. Signed firmware images, boot selection and trust lists (15 R397, R401 to R403). -/

namespace Sys2Proof.Machine

/-- The largest LENGTH of a target (15 R401). -/
def imageMax (target : Nat) : Nat := (if target = 3 then 0x3000000 else if target = 4 then 0x180000 else 0x300000) - 0x2000

/-- Bytes of the image that begins `b`. -/
def imageLen (b : List Nat) : Nat := 0x2000 + fieldAt b 0xC 4

/-- The header of an image for `target` (15 R402, check 1). -/
def imageHeadOk (b : List Nat) (target : Nat) : Bool :=
  decide (fieldAt b 0 4 = 0x5647494D ∧ fieldAt b 4 2 = 1 ∧ fieldAt b 6 1 = target ∧ fieldAt b 7 1 ≤ 1 ∧ fieldAt b 8 4 ≤ 63 ∧
    fieldAt b 0xC 4 ≤ imageMax target ∧ imageLen b ≤ b.length) &&
  zeroBytes b 0x18 40 && zeroBytes b 0x80 128 && zeroBytes b 0x185 3 && zeroBytes b 0x20C 4 && zeroBytes b 0x1E43 445

/-- The image that begins `b` passes every check for `target` (15 R402), with the fused floors. -/
def imageOk402 (floor : Tab Nat) (b : List Nat) (target : Nat) : Bool :=
  let ec := slice b 0x100 133
  let pq := slice b 0x210 2592
  imageHeadOk b target &&
  decide (sha512 (ec ++ pq) = (List.range 64).map (Config.anchorByte target)) &&
  Config.ecdsaOk ec (slice b 0 256) (slice b 0x188 132) &&
  Config.mldsaOk pq (slice b 0 256) (slice b 0xC30 4627) &&
  decide (Tab.get 0 floor target ≤ fieldAt b 8 4 ∧ slice b 0x40 64 = sha512 (slice b 0x2000 (fieldAt b 0xC 4)))

def State.firmwareOk (s : State) (b : List Nat) (target : Nat) : Bool := imageOk402 s.ident.floor b target

/-- The store that holds the selector of a target, and the place of the preferred bank in it (15 R408). -/
def selStore (target : Nat) : Nat × Nat := if target = 1 then (0x13, 1) else if target = 2 then (0x20, 0) else (0x06, 0)

/-- The preferred bank of a target: bank A where its selector is not valid. -/
def State.preferred (s : State) (target : Nat) : Nat := (s.storeNums (selStore target).1).getD (selStore target).2 0 % 2

/-- Bank `k` of a target. -/
def State.fwBank (s : State) (target k : Nat) : List Nat := Tab.get [] s.ident.fw (2 * target + k)
def State.setFwBank (s : State) (target k : Nat) (b : List Nat) : State :=
  { s with ident := { s.ident with fw := Tab.set [] s.ident.fw (2 * target + k) b } }

/-- The image that a target boots: the preferred bank's, the other one's where that fails (15 R403). -/
def State.bootImage (s : State) (target : Nat) : Option (List Nat) :=
  let p := s.preferred target
  if s.firmwareOk (s.fwBank target p) target then some (s.fwBank target p)
  else if s.firmwareOk (s.fwBank target (1 - p)) target then some (s.fwBank target (1 - p))
  else none

/-- An image with FLOOR has booted: the fused floor of its target rises (15 R402). -/
def State.raiseFloor (s : State) (target : Nat) (b : List Nat) : State :=
  if fieldAt b 7 1 % 2 = 1 then
    { s with ident := { s.ident with floor := Tab.set 0 s.ident.floor target (max (Tab.get 0 s.ident.floor target) (fieldAt b 8 4)) } }
  else s

/-- A target boots; whether it did. -/
def State.boot (s : State) (target : Nat) : State × Bool :=
  match s.bootImage target with
  | some b => (({ s with ident := { s.ident with running := Tab.set [] s.ident.running target b } }).raiseFloor target b, true)
  | none => (s, false)

/-! Trust lists (15 R397). -/

/-- The public key that a trust list of 144-byte entries gives key `id` for USE bit `use`. -/
def trustKey (l : List Nat) (id use : Nat) : Option (List Nat) :=
  (List.range (l.length / 144)).findSome? (fun i =>
    let e := slice l (144 * i) 144
    if fieldAt e 0 4 = id ∧ bit (fieldAt e 4 1) use then some (slice e 8 133) else none)

/-- The key identifiers of a trust list. -/
def trustIds (l : List Nat) : List Nat := (List.range (l.length / 144)).map (fun i => fieldAt l (144 * i) 4)

/-- A customer trust list is laid out as stated and grants USE [3:0] alone. -/
def customerOk (l : List Nat) : Bool :=
  decide (l.length % 144 = 0) &&
  (List.range (l.length / 144)).all (fun i =>
    let e := slice l (144 * i) 144
    decide (fieldAt e 4 1 < 16) && zeroBytes e 5 3 && zeroBytes e 141 3)

/-- The key that either list gives `id` for a USE. -/
def State.trusted (s : State) (id use : Nat) : Option (List Nat) :=
  match trustKey (s.storeNums 0x15) id use with
  | some k => some k
  | none => if use < 4 then trustKey (s.storeNums 0x14) id use else none

/-- A fresh 128-bit random value. -/
def State.random (s : State) : List Nat × State :=
  let (a, s) := s.fresh (2 ^ 64)
  let (b, s) := s.fresh (2 ^ 64)
  (bytesOf 8 a ++ bytesOf 8 b, s)

end Sys2Proof.Machine
end

