-- ==== Sys2Proof/Machine/FlaconCmds.lean ====
section
/-! DEFINITION. The Flacon: measurement, seal, workshop sessions, signed records, mailbox (14 R381 to R395). -/

namespace Sys2Proof.Machine

def State.setFlc (s : State) (f : Flacon → Flacon) : State := { s with flc := f s.flc }
def State.setM (s : State) (f : Measure → Measure) : State := s.setFlc (fun x => { x with m := f x.m })

/-- A write of the measuring store (14 R386). -/
def State.flcSave (s : State) : State := s.setFlc (fun x => { x with saved := x.m })

/-- Seconds since the VANA power-on. -/
def State.flcSec (s : State) : Nat := min 0xFFFFFFFF ((s.now - s.flc.onAt) / sec 1)

/-- The active firmware image. -/
def State.flcImage (s : State) : List Nat :=
  let b := Tab.get [] s.flc.banks s.flc.m.bank
  b.take (imageLen b)

/-- The software checksum. -/
def State.swcrc (s : State) : Nat := crc32c s.flcImage

/-- Bits 7:0 of FLAGS (14 R393). -/
def State.flcFlags (s : State) : Nat :=
  let x := s.flc
  b2n x.m.distSat + 2 * b2n x.m.broken + 4 * b2n x.impl + 8 * b2n (decide (x.m.sealCount = 0xFFFFFFFF)) +
  16 * b2n x.lineFault + 32 * b2n x.overrange + 64 * b2n x.m.logFull + 128 * b2n x.stale

/-! Measurement (14 R383 to R385, R392). -/

/-- One counted pulse: the distance accumulates. -/
def Measure.pulse (m : Measure) : Measure :=
  let a := m.acc + 1000
  let d := m.dist + a / m.k
  if 0xFFFFFFFF < d then { m with acc := a % m.k, dist := 0xFFFFFFFF, distSat := true } else { m with acc := a % m.k, dist := d }

/-- An edge now is less than 20 µs after the last counted one: it does not follow 10 µs high and 10 µs low (14 R383). -/
def State.pulseEarly (s : State) : Bool :=
  match s.flc.pulses.getLast? with
  | some p => decide (s.now < p + us 20)
  | none => false

/-- FLC_PULSE: a rising edge at `t`, which the counter hardware counts or ignores; the store is written after every 10 m. -/
def flcPulse (t : Nat) (s : State) : State :=
  let s := s.at t
  if !s.flc.on || s.pulseEarly then s
  else
    let d := s.flc.m.dist
    let s := s.setM Measure.pulse
    let s := s.setFlc (fun x => { x with pulses := x.pulses.filter (fun p => decide (s.now < p + sec 1)) ++ [s.now] })
    if s.flc.m.dist / 10 = d / 10 then s else s.flcSave

def execFlcPulse (t : Nat) (s : State) : Host.Outcome State Fault Refusal := .next (flcPulse t s)

/-- LINE_FAULT: the bias monitor sets or clears it at `t`. -/
def lineFault (on : Bool) (t : Nat) (s : State) : State :=
  let s := s.at t
  if s.flc.on then s.setFlc (fun x => { x with lineFault := on }) else s

def execLineFault (on : Bool) (t : Nat) (s : State) : Host.Outcome State Fault Refusal := .next (lineFault on t s)

/-- SPEED_UPDATE at `t`. -/
def speedUpdate (t : Nat) (s : State) : State :=
  let s := s.at t
  if !s.flc.running then s
  else
    let ps := s.flc.pulses.filter (fun p => decide (s.now < p + sec 1))
    let n := ps.length
    s.setFlc (fun x => { x with pulses := ps, speed := min 65535 (n * 921600 / x.m.k), overrange := decide (25000 < n) })

def execSpeedUpdate (t : Nat) (s : State) : Host.Outcome State Fault Refusal := .next (speedUpdate t s)

/-- The sample of FLC_ODO: a new sequence, or stale after 1 s without one. -/
def State.sampleOdo (s : State) : State :=
  let q := s.getF FLC_ODO foSEQ
  s.setFlc (fun x =>
    if q ≠ x.odoSeq then { x with odoSeq := q, odoAt := s.now, stale := false }
    else { x with stale := x.stale || decide (x.odoAt + sec 1 ≤ s.now) })

/-- PLAUSIBILITY_SAMPLE at `t`: 100 samples out of the bound set IMPLAUSIBLE, 600 within it clear it. Without valid
odometry nothing is evaluated and both runs end. -/
def plausibilitySample (t : Nat) (s : State) : State :=
  let s := s.at t
  if !s.flc.running then s
  else
    let s := s.sampleOdo
    let odo := s.getF FLC_ODO foSPEED
    let ok := s.flag FLC_ODO foV && !s.flc.stale
    let d := ((s.flc.speed : Int) - (odo : Int)).natAbs
    let beyond := decide (max 10240 odo < 10 * d)
    let out := ok && beyond && decide (1280 < s.flc.speed ∧ 1280 < odo)
    s.setFlc (fun x =>
      let b := if out then min 100 (x.bad + 1) else 0
      let g := if ok && !beyond then min 600 (x.good + 1) else 0
      { x with bad := b, good := g, impl := (x.impl || decide (b = 100)) && !decide (g = 600) })

def execPlausibilitySample (t : Nat) (s : State) : Host.Outcome State Fault Refusal := .next (plausibilitySample t s)

/-- FLC_ODO_WRITE: island A alone writes FLC_ODO (14 R394). -/
def flcOdoWrite (who : Who) (w : Nat) (s : State) : State :=
  if who ≠ .islandA then s.refuseAccess else s.loadF FLC_ODO [foV, foSEQ, foSPEED] w

def execFlcOdoWrite (who : Who) (w : Nat) (s : State) : Host.Outcome State Fault Refusal := .next (flcOdoWrite who w s)

/-! The mailbox (14 R394). -/

/-- The 64 bytes of log entry `n`. -/
def FlcLog.bytes (e : FlcLog) (n : Nat) : List Nat :=
  bytesOf 4 n ++ bytesOf 4 e.seal_ ++ [e.type] ++ bytesOf 3 0 ++ bytesOf 4 e.key ++ bytesOf 4 e.kOld ++ bytesOf 4 e.kNew ++
  bytesOf 4 e.dist ++ bytesOf 4 e.fpc ++ bytesOf 4 e.fsec ++ bytesOf 4 e.swcrc ++ bytesOf 24 0

/-- The session as the mailbox shows it. -/
def State.showChal (s : State) : State :=
  let c := s.flc.chal.getD (List.replicate 16 0)
  let s := (s.setF (FLC_CHAL 0) cnt64 (leOf (c.take 8))).setF (FLC_CHAL 1) cnt64 (leOf (c.drop 8))
  s.setF FLC_STATUS flSESSION (b2n s.flc.chal.isSome)

/-- The Flacon answers beyond its link. -/
def State.flcUp (s : State) : Bool := s.flc.on && s.flc.running && s.flag FLC_STATUS flLINKOK

/-- What one refresh of the mirror writes. -/
def State.mirror (s : State) : State :=
  let x := s.flc
  let s := ((s.setF FLC_STATUS flFSEC s.flcSec).setF FLC_STATUS flLOGUSED x.m.log.length).setF FLC_STATUS flFLAGS s.flcFlags
  let s := (s.setF FLC_STATUS flRUNNING 1).showChal
  let s := ((s.setF FLC_MEAS flDIST x.m.dist).setF FLC_MEAS flSPEED x.speed).setF FLC_MEAS flMSEQ (s.getF FLC_MEAS flMSEQ + 1)
  let s := (s.setF FLC_CAL flSEAL x.m.sealCount).setF FLC_CAL flK x.m.k
  let s := ((s.setF FLC_SWID cnt64 (fieldAt s.flcImage 0x10 8)).setF FLC_SWCRC flSWCRC s.swcrc).setF FLC_FPC flFPC x.m.fpc
  let s := s.putBytes (flcBase + 0x40) (byteList (sha512 s.flcImage))
  let s := s.putBytes (flcBase + 0x1000) (byteList ((List.range 1024).map (Config.keyPageByte 1)))
  s.putBytes (flcBase + 0x10000) (byteList (x.m.log.zipIdx.flatMap (fun (e, n) => e.bytes n)))

/-- MIRROR_REFRESH at `t`. -/
def mirrorRefresh (t : Nat) (s : State) : State :=
  let s := s.at t
  if s.flcUp then s.mirror else s

def execMirrorRefresh (t : Nat) (s : State) : Host.Outcome State Fault Refusal := .next (mirrorRefresh t s)

/-! Requests (14 R388, R393, R394). -/

/-- The request buffer. -/
def State.flcBuf (s : State) : List Nat := s.bytes (flcBase + 0x400) 256

/-- A request ends: done, or failed with a code. -/
def State.flcEnd (s : State) (fail : Nat) : State :=
  (s.setF FLC_REQ frFAIL fail).setF FLC_REQ frSTATUS (if fail = 0 then 2 else 3)

/-- Who may write FLC_REQ and the request buffer. -/
def flcWriter (who : Who) : Bool :=
  match who with
  | .islandA | .islandB | .runtime _ => true
  | _ => false

/-- The session closes; an image transfer is abandoned. -/
def State.flcClose (s : State) : State := (s.setFlc (fun x => { x with chal := none, transfer := none })).showChal

/-- A session that has seen no command for 600 s closes (14 R388). -/
def State.flcExpire (s : State) : State :=
  if s.flc.chal.isSome ∧ s.flc.cmdAt + sec 600 ≤ s.now then s.flcClose else s

/-- A write of FLC_REQ with OP `op` at `t`: rights, a Flacon that answers, then `f`. -/
def State.flcOp (s : State) (who : Who) (w op t : Nat) (f : State → State) : State :=
  let s := (s.at t).flcExpire
  if !flcWriter who then s.refuseAccess
  else if frOP.of w ≠ op ∨ s.getF FLC_REQ frSTATUS = 1 then s
  else if !s.flcUp then s.flcEnd 11
  else f s

/-- The 256 bytes of a signed record without its signature, and with it (14 R393). -/
def State.flcRecord (s : State) (nonce : List Nat) : List Nat :=
  let x := s.flc
  let m := bytesOf 4 0x464C4352 ++ bytesOf 2 1 ++ bytesOf 2 s.flcFlags ++ bytesOf 4 x.rseq ++ bytesOf 4 x.m.dist ++
    bytesOf 2 x.speed ++ bytesOf 2 0 ++ bytesOf 4 x.m.k ++ bytesOf 4 x.m.sealCount ++ bytesOf 4 x.m.fpc ++ bytesOf 4 s.flcSec ++
    bytesOf 4 s.swcrc ++ nonce ++ bytesOf 4 x.m.log.length ++ bytesOf 4 0
  m ++ (List.range 132).map (fun i => Config.flcSig s.free m i % 256) ++ bytesOf 60 0

/-- SIGN. -/
def signCmd (who : Who) (w t : Nat) (s : State) : State :=
  s.flcOp who w 1 t (fun s =>
    let s := s.setFlc (fun x => { x with rseq := (x.rseq + 1) % 2 ^ 32 })
    let s := s.putBytes (flcBase + 0x800) (byteList (s.flcRecord (s.flcBuf.take 16)))
    ({ s with free := s.free + 1 }).flcEnd 0)

def execSign (who : Who) (w t : Nat) (s : State) : Host.Outcome State Fault Refusal := .next (signCmd who w t s)

/-- A fresh challenge. -/
def State.newChal (s : State) : State :=
  let (c, s) := s.random
  (s.setFlc (fun x => { x with chal := some c })).showChal

/-- OPEN. -/
def openSession (who : Who) (w t : Nat) (s : State) : State :=
  s.flcOp who w 2 t (fun s => ((s.setFlc (fun x => { x with cmdAt := s.now })).newChal).flcEnd 0)

def execOpenSession (who : Who) (w t : Nat) (s : State) : Host.Outcome State Fault Refusal := .next (openSession who w t s)

/-- CLOSE. -/
def closeSession (who : Who) (w t : Nat) (s : State) : State :=
  s.flcOp who w 4 t (fun s => if s.flc.chal.isNone then s.flcEnd 2 else s.flcClose.flcEnd 0)

def execCloseSession (who : Who) (w t : Nat) (s : State) : Host.Outcome State Fault Refusal := .next (closeSession who w t s)

/-- SESSION_TIMEOUT at `t`: 600 s without a command. -/
def sessionTimeout (t : Nat) (s : State) : State := (s.at t).flcExpire

def execSessionTimeout (t : Nat) (s : State) : Host.Outcome State Fault Refusal := .next (sessionTimeout t s)

/-- A log entry of the event that has just been applied. -/
def State.flcLog (s : State) (type key kOld : Nat) : State :=
  let m := s.flc.m
  let e : FlcLog := { seal_ := m.sealCount, type := type, key := key, kOld := kOld, kNew := m.k, dist := m.dist, fpc := m.fpc,
                      fsec := s.flcSec, swcrc := s.swcrc }
  s.setM (fun m => { m with log := m.log ++ [e] })

/-- An applied workshop command: seal counter, log, one write (14 R390). -/
def State.flcApplied (s : State) (type key kOld : Nat) : State :=
  ((s.setM (fun m => { m with sealCount := satInc 0xFFFFFFFF m.sealCount })).flcLog type key kOld).flcSave

/-- The FAIL code of a workshop command in the order of the codes; zero for none (14 R389, R390, R394). -/
def State.flcCheck (s : State) (b : List Nat) : Nat :=
  let cmd := fieldAt b 6 1
  let k := fieldAt b 0xC 4
  match s.flc.chal with
  | none => 2
  | some c =>
    if fieldAt b 0 4 ≠ 0x464C5743 ∨ fieldAt b 4 2 ≠ 1 ∨ cmd < 1 ∨ 3 < cmd ∨ fieldAt b 7 1 ≠ 0 ∨ !zeroBytes b 0x30 16 ∨
        !zeroBytes b 0xC4 60 then 3
    else if slice b 0x10 16 ≠ (List.range 16).map (fun i => Config.flcIdByte i % 256) then 4
    else if slice b 0x20 16 ≠ c then 5
    else match Config.workshopKeys.find? (fun (i, _) => decide (i = fieldAt b 8 4)) with
      | none => 6
      | some (_, key) =>
        if !Config.ecdsaOk key (slice b 0 64) (slice b 0x40 132) then 7
        else if s.flc.m.sealCount = 0xFFFFFFFF then 8
        else if 1008 ≤ s.flc.m.log.length then 9
        else if (cmd = 1 ∧ (k < 1000 ∨ 750000 < k)) ∨ (cmd = 2 ∧ k ≠ 0) then 10
        else 0

/-- A COMMAND request whose CMD is `cmd`: checked, applied by `f`, its challenge replaced. The row of SET_K also takes a
command whose CMD is reserved. -/
def State.flcCommand (s : State) (who : Who) (w t cmd : Nat) (f : State → List Nat → State) : State :=
  let b := s.flcBuf
  let c := fieldAt b 6 1
  if c ≠ cmd ∧ (cmd ≠ 1 ∨ (1 ≤ c ∧ c ≤ 3)) then s.at t
  else
    s.flcOp who w 3 t (fun s =>
      let fail := s.flcCheck b
      let s := if fail = 0 then f s b else s
      let s := if fail = 2 then s else (s.setFlc (fun x => { x with cmdAt := s.now })).newChal
      s.flcEnd fail)

/-- SET_K. -/
def setK (who : Who) (w t : Nat) (s : State) : State :=
  s.flcCommand who w t 1 (fun s b =>
    let old := s.flc.m.k
    let k := fieldAt b 0xC 4
    (s.setM (fun m => { m with acc := m.acc * k / old, k := k })).flcApplied 1 (fieldAt b 8 4) old)

def execSetK (who : Who) (w t : Nat) (s : State) : Host.Outcome State Fault Refusal := .next (setK who w t s)

/-- RESEAL. -/
def resealCmd (who : Who) (w t : Nat) (s : State) : State :=
  s.flcCommand who w t 2 (fun s b =>
    (s.setM (fun m => { m with broken := false })).flcApplied 2 (fieldAt b 8 4) s.flc.m.k)

def execReseal (who : Who) (w t : Nat) (s : State) : Host.Outcome State Fault Refusal := .next (resealCmd who w t s)

/-- FW_UPDATE opens an image transfer. -/
def fwUpdate (who : Who) (w t : Nat) (s : State) : State :=
  s.flcCommand who w t 3 (fun s b =>
    (s.setFlc (fun x => { x with transfer := some { crc := fieldAt b 0xC 4, key := fieldAt b 8 4, need := none } })).setF
      FLC_REQ frBLOCKS 0)

def execFwUpdate (who : Who) (w t : Nat) (s : State) : Host.Outcome State Fault Refusal := .next (fwUpdate who w t s)

/-- The image transfer is abandoned with a code. -/
def State.dropTransfer (s : State) (fail : Nat) : State := (s.setFlc (fun x => { x with transfer := none })).flcEnd fail

/-- The last block of a transfer has arrived: CRC, signatures, selection (14 R391). -/
def State.flcLast (s : State) (tr : Transfer) : State :=
  let k := 1 - s.flc.m.bank
  let b := Tab.get [] s.flc.banks k
  let i := b.take (imageLen b)
  if crc32c i ≠ tr.crc ∨ !s.firmwareOk i 4 then s.dropTransfer 10
  else
    let s := s.setFlc (fun x => { x with transfer := none })
    ((s.setM (fun m => { m with bank := k })).flcApplied 3 tr.key s.flc.m.k).flcEnd 0

/-- BLOCK. -/
def blockCmd (who : Who) (w t : Nat) (s : State) : State :=
  s.flcOp who w 5 t (fun s =>
    match s.flc.transfer with
    | none => s.flcEnd 12
    | some tr =>
      let n := s.getF FLC_REQ frBLOCKS
      let k := 1 - s.flc.m.bank
      let old := Tab.get [] s.flc.banks k
      let new := old.take (256 * n) ++ s.flcBuf ++ old.drop (256 * n + 256)
      let s := (s.setFlc (fun x => { x with banks := Tab.set [] x.banks k new })).setF FLC_REQ frBLOCKS (n + 1)
      let need := if n + 1 = 32 then some ((imageLen new + 255) / 256) else tr.need
      if n + 1 = 32 ∧ imageMax 4 < fieldAt new 0xC 4 then s.dropTransfer 10
      else if need = some (n + 1) then s.flcLast tr
      else (s.setFlc (fun x => { x with transfer := some { tr with need := need } })).flcEnd 0)

def execBlock (who : Who) (w t : Nat) (s : State) : Host.Outcome State Fault Refusal := .next (blockCmd who w t s)

/-! Debug openings, power and restarts (14 R382, R386, R387). -/

/-- A debug opening at the Flacon: the session closes, the seal is broken, counted and logged. -/
def State.flcDebug (s : State) : State :=
  let s := s.flcClose
  let s := s.setM (fun m => { m with sealCount := satInc 0xFFFFFFFF m.sealCount, broken := true })
  let s := if s.flc.m.log.length < 1024 then s.flcLog 4 0 s.flc.m.k else s.setM (fun m => { m with logFull := true })
  s.flcSave

/-- DEBUG_OPEN_SEAL at `t`. -/
def debugOpenSeal (t : Nat) (s : State) : State :=
  let s := s.at t
  if s.flc.on ∧ s.flc.running then s.flcDebug else s

def execDebugOpenSeal (t : Nat) (s : State) : Host.Outcome State Fault Refusal := .next (debugOpenSeal t s)

/-- The Flacon's processor starts from its ROM: a session is closed, a request ends idle, the active image is verified. -/
def State.flcRestart (s : State) : State :=
  let ok := s.firmwareOk s.flcImage 4
  let s := s.flcClose
  let s := ((s.setF FLC_REQ frSTATUS 0).setF FLC_REQ frFAIL 0).setF FLC_STATUS flRUNNING 0
  let s := s.setFlc (fun x => { x with running := ok, speed := 0, overrange := false, impl := false, stale := false, bad := 0,
                                       good := 0, odoAt := s.now })
  if ok then s.raiseFloor 4 s.flcImage else s

/-- FLACON_POWER_ON: VANA rises at `t`. -/
def flaconPowerOn (t : Nat) (s : State) : State :=
  let s := s.at t
  if s.flc.on then s
  else
    let s := s.setFlc (fun x => { x with on := true, m := { x.saved with fpc := satInc 0xFFFFFFFF x.saved.fpc }, onAt := s.now,
                                         pulses := [], rseq := 0, lineFault := false })
    s.flcSave.flcRestart

def execFlaconPowerOn (t : Nat) (s : State) : Host.Outcome State Fault Refusal := .next (flaconPowerOn t s)

/-- VANA_FALL at `t`: the write of the measuring store completes and the Flacon loses its power. -/
def vanaFall (t : Nat) (s : State) : State :=
  let s := s.at t
  if !s.flc.on then s
  else
    let s := (s.flcSave.setFlc (fun x => { x with on := false, running := false, chal := none, transfer := none }))
    s.setF FLC_STATUS flRUNNING 0

def execVanaFall (t : Nat) (s : State) : Host.Outcome State Fault Refusal := .next (vanaFall t s)

end Sys2Proof.Machine
end

