-- ==== Sys2Proof/Machine/SecurityCmds.lean ====
section
/-! DEFINITION. Authorised acts: freezing and clearing Sillage (13 R375 to R380), the security block (15 R396 to R421), the
return of an island (12 R334). -/

namespace Sys2Proof.Machine

/-- Who may write the Sillage and security blocks: the islands and privileged application cores. -/
def privileged (who : Who) : Bool := flcWriter who

/-! Freezing (13 R376). -/

/-- FREEZE: a write of SIL_CTRL at `t`; a write of 1 restarts the 100 ms. -/
def freezeCmd (who : Who) (w t : Nat) (s : State) : State :=
  let s := s.at t
  if !privileged who then s.refuseAccess
  else
    let s := s.loadF SIL_CTRL [silFREEZE] w
    if silFREEZE.of w = 1 then { s with sup := { s.sup with freezeAt := s.now } } else s

def execFreeze (who : Who) (w t : Nat) (s : State) : Host.Outcome State Fault Refusal := .next (freezeCmd who w t s)

/-- FREEZE_TIMEOUT at `t`, by the recorder's own timer. -/
def freezeTimeout (t : Nat) (s : State) : State :=
  let s := s.at t
  if s.flag SIL_CTRL silFREEZE ∧ s.sup.freezeAt + ms 100 ≤ s.now then s.setF SIL_CTRL silFREEZE 0 else s

def execFreezeTimeout (t : Nat) (s : State) : Host.Outcome State Fault Refusal := .next (freezeTimeout t s)

/-! Nonces (13 R377; 15 R399, R411). -/

/-- Show a nonce in two registers, zero where there is none. -/
def State.showNonce (s : State) (a : Nat) (n : Option (List Nat)) : State :=
  let n := n.getD (List.replicate 16 0)
  (s.setF a silNONCE (leOf (n.take 8))).setF (a + 8) silNONCE (leOf (n.drop 8))

def State.setSilNonce (s : State) (n : Option (List Nat)) : State :=
  ({ s with ident := { s.ident with silNonce := n }, sup := { s.sup with silNonceAt := s.now } }).showNonce SIL_NONCE0 n
def State.setSecNonce (s : State) (n : Option (List Nat)) : State :=
  ({ s with ident := { s.ident with nonce := n }, sup := { s.sup with secNonceAt := s.now } }).showNonce (SEC_NONCE 0) n

/-- A nonce that is 600 s old is consumed (13 R377; 15 R411). -/
def State.expireSil (s : State) : State :=
  if s.ident.silNonce.isSome ∧ s.sup.silNonceAt + sec 600 ≤ s.now then s.setSilNonce none else s
def State.expireSec (s : State) : State :=
  if s.ident.nonce.isSome ∧ s.sup.secNonceAt + sec 600 ≤ s.now then s.setSecNonce none else s

/-- An operation of SIL_AUTH or SEC_REQ at register `a` ends. -/
def State.authEnd (s : State) (a fail : Nat) : State := (s.setF a silFAIL fail).setF a silSTATUS (if fail = 0 then 2 else 3)

/-- An operation that needs a random value while TRNG_OK is 0 (15 R399). -/
def State.trngFail (s : State) (a : Nat) : State := s.noBin.authEnd a 12

/-- A write of SIL_AUTH with OP `op` at `t`: rights, ADDR, an island A that serves, then `f`. -/
def State.silOp (s : State) (who : Who) (w op t : Nat) (f : State → State) : State :=
  let s := (s.at t).expireSil
  if !privileged who then s.refuseAccess
  else if silOP.of w ≠ op ∨ s.getF SIL_AUTH silSTATUS = 1 then s
  else
    let s := s.setF SIL_AUTH silADDR (silADDR.of w)
    if !s.islandServes false then s.authEnd SIL_AUTH 9 else f s

/-- NONCE_REQUEST. -/
def nonceRequest (who : Who) (w t : Nat) (s : State) : State :=
  s.silOp who w 1 t (fun s =>
    if !s.flag SEC_STATUS scTRNG then (s.setSilNonce none).trngFail SIL_AUTH
    else
      let (n, s) := s.random
      (s.setSilNonce (some n)).authEnd SIL_AUTH 0)

def execNonceRequest (who : Who) (w t : Nat) (s : State) : Host.Outcome State Fault Refusal := .next (nonceRequest who w t s)

/-- NONCE_EXPIRY at `t`: 600 s after it was drawn. -/
def nonceExpiry (t : Nat) (s : State) : State := (s.at t).expireSil

def execNonceExpiry (t : Nat) (s : State) : Host.Outcome State Fault Refusal := .next (nonceExpiry t s)

/-- SEC_NONCE_EXPIRY at `t`. -/
def secNonceExpiry (t : Nat) (s : State) : State := (s.at t).expireSec

def execSecNonceExpiry (t : Nat) (s : State) : Host.Outcome State Fault Refusal := .next (secNonceExpiry t s)

/-- TRNG_HEALTH_FAIL and TRNG_HEALTH_PASS at `t`. -/
def trngHealth (ok : Bool) (t : Nat) (s : State) : State := (s.at t).setF SEC_STATUS scTRNG (b2n ok)
def execTrngHealthFail (t : Nat) (s : State) : Host.Outcome State Fault Refusal := .next (trngHealth false t s)
def execTrngHealthPass (t : Nat) (s : State) : Host.Outcome State Fault Refusal := .next (trngHealth true t s)

/-! Authorisations and tokens (13 R377, R378; 15 R411). -/

/-- FAIL 2 to 7 of an authorisation or token of 256 bytes, zero for none: `head` says that its first eight bytes are well
formed, `use` is the USE bit its key needs. -/
def State.tokenFail (s : State) (b : List Nat) (nonce : Option (List Nat)) (head : Bool) (use : Nat) : Nat :=
  match nonce with
  | none => 2
  | some n =>
    if !head ∨ !zeroBytes b 0xC 4 ∨ !zeroBytes b 0x30 16 ∨ !zeroBytes b 0xC4 60 then 3
    else if slice b 0x10 16 ≠ deviceId then 4
    else if slice b 0x20 16 ≠ n then 5
    else match s.trusted (fieldAt b 8 4) use with
      | none => 6
      | some k => if Config.ecdsaOk k (slice b 0 64) (slice b 0x40 132) then 0 else 7

/-- SCOPE and ENTRY of a clear authorisation. -/
def clearEntryOk (b : List Nat) : Bool :=
  let e := fieldAt b 7 1
  if fieldAt b 6 1 = 0 then decide (e = 0) else decide (fieldAt b 6 1 = 1 ∧ (e ≤ 62 ∨ (64 ≤ e ∧ e ≤ 71)))

/-- The FAIL code of a clear authorisation. -/
def State.clearFail (s : State) (b : List Nat) : Nat :=
  let head := decide (fieldAt b 0 4 = 0x53434C52 ∧ fieldAt b 4 2 = 1) && clearEntryOk b
  let f := s.tokenFail b s.ident.silNonce head (fieldAt b 6 1)
  if f ≠ 0 then f else if s.flag SIL_CTRL silFREEZE then 8 else 0

/-- Empty the histograms `h` to `h + n - 1`: bins and saturated flags. -/
def Sillage.drop (x : Sillage) (h n : Nat) : Sillage :=
  let keep := fun (k : Nat) => decide (k < 64 * h ∨ 64 * (h + n) ≤ k)
  { x with hist := x.hist.filter (fun (k, _) => keep k), sat := x.sat.filter (fun (k, _) => keep k) }

/-- The first failure histogram of an entry of the quarantine table (13 R369). -/
def failHist (e : Nat) : Nat := if e < 64 then 2 * e else 126 + 2 * (e - 64)

/-- What a passing clear does at its one instant (13 R378). -/
def State.clearNow (s : State) (scope entry key : Nat) : State :=
  let s : State :=
    if scope = 0 then { s with sil := { s.sil.drop 142 370 with ext := [] } }.setF SIL_STATUS silLOSS 0
    else
      let q : Quar := Tab.get {} s.quar entry
      let s := { s with sil := s.sil.drop (failHist entry) 2, quar := Tab.set {} s.quar entry { q with mask := 0, all := false } }
      if q.all then s.dirChange else s
  let s := s.setF SIL_CLR1 silCLRCOUNT (satInc 0xFFFFFFFF (s.getF SIL_CLR1 silCLRCOUNT))
  let s := (s.setF SIL_CLR1 silKEYID key).setF SIL_CLR2 silSCOPE scope
  let s := (s.setF SIL_CLR2 silENTRY entry).setF SIL_CLR0 silCLRPC (s.getF SIL_TIME silPC)
  s.setF SIL_CLR0 silCLRSEC (s.getF SIL_TIME silSEC)

/-- SILLAGE_CLEAR. A refused quarantine clear quarantines its entry under every bin (12 R353). An authorisation that
island A cannot read is not permitted. -/
def sillageClear (who : Who) (w t : Nat) (s : State) : State :=
  s.silOp who w 2 t (fun s =>
    let a := s.getF SIL_AUTH silADDR * 64
    let b := s.bytes a 256
    let f := if s.islandReads a 256 then s.clearFail b else 1
    let s := s.setSilNonce none
    let scope := fieldAt b 6 1
    let entry := fieldAt b 7 1
    if f = 0 then
      let s := s.clearNow scope entry (fieldAt b 8 4)
      let s := s.setWriting 4 (some s.silImage)
      (if scope = 1 then s.setWriting 3 (some (.quar s.quarTable)) else s).authEnd SIL_AUTH 0
    else
      let s := if 4 ≤ f ∧ f ≤ 7 ∧ scope = 1 then s.quarAll entry else s
      (s.event 29).authEnd SIL_AUTH f)

def execSillageClear (who : Who) (w t : Nat) (s : State) : Host.Outcome State Fault Refusal := .next (sillageClear who w t s)

/-! Lifecycle (15 R408, R410). -/

/-- The lifecycle: the fuses, then the store; FIELD where it is not valid. -/
def State.lifecycle (s : State) : Nat :=
  if s.ident.retired then 4
  else match s.storeNums 0x11 with
    | l :: _ => if l = 0 ∧ s.ident.left then 2 else l
    | [] => 2

/-- The pending erase: the marker's TARGET, 0 where the marker is not valid, none where nothing is pending. -/
def State.pendingErase (s : State) : Option Nat :=
  match s.storeNums 0x12 with
  | p :: t :: _ => if p = 1 then some t else none
  | _ => some 0

/-- Stores 0x01 and 0x10 are valid and provisioned. -/
def State.provisioned (s : State) : Bool :=
  (match s.storeVal 1 with
   | some (.config _) => true
   | _ => false) && decide (s.storeNums 0x10 = [1, 1, 1])

/-- SEC_STATUS as the stores say. -/
def State.showSec (s : State) : State :=
  ((s.setF SEC_STATUS scLIFE s.lifecycle).setF SEC_STATUS scPROV (b2n s.provisioned)).setF SEC_STATUS scERASE
    (b2n s.pendingErase.isSome)

/-- Both banks of a store are gone. -/
def State.wipeStore (s : State) (id : Nat) : State := { s with stores := Tab.erase s.stores id }

/-- Steps 4 to 6 of the erase-first sequence (15 R414), and the wrapped keys rewritten empty. A marker that is not valid
names no TARGET: the lifecycle stays (log 26). -/
def State.eraseAll (s : State) (target : Nat) : State :=
  let s := ((s.wipeStore 0x10).wipeStore 0x14).putStore 0x10 (.data [1, 1, 0])
  let s := s.wipeStore 5
  let s := if target = 0 then s else s.putStore 0x11 (.data [target])
  let s := if target = 4 then { s with ident := { s.ident with retired := true } } else s
  (s.putStore 0x12 (.data [0, target])).showSec

/-- Island A's ROM completes a pending erase. -/
def State.romErase (s : State) : State :=
  match s.pendingErase with
  | some t => s.eraseAll t
  | none => s

/-- Debug access opens once the Flacon has acknowledged (14 R387); whether it did. -/
def State.openDebug (s : State) : State × Bool :=
  if s.flcUp then ((s.flcDebug.setF SEC_STATUS scDEBUG 1).raiseSafe 8, true) else (s, false)

/-- Debug access at a start: it opens in MANUFACTURE, DEVELOPMENT and SERVICE_OPEN, and is closed otherwise (15 R410;
12 R358). -/
def State.startDebug (s : State) : State :=
  let s := s.setF SEC_STATUS scDEBUG 0
  let l := s.getF SEC_STATUS scLIFE
  if l = 2 then s.clearSafe 8
  else if l = 4 then s
  else
    let s := s.openDebug.1
    if l = 3 then s.raiseSafe 8 else s

/-! SEC_REQ (15 R420). -/

/-- A write of SEC_REQ with OP `op` at `t`: rights, then ADDR, then `f`. -/
def State.secOp (s : State) (who : Who) (w op t : Nat) (f : State → State) : State :=
  let s := (s.at t).expireSec
  if !privileged who then s.refuseAccess
  else if srOP.of w ≠ op ∨ !s.islandServes false then s
  else if s.getF SEC_REQ srSTATUS = 1 then
    (if s.ident.update ∧ (op = 2 ∨ op = 3) then s.setF SEC_REQ srFAIL 11 else s)
  else f (s.setF SEC_REQ srADDR (srADDR.of w))

/-- ADDR of SEC_REQ. -/
def State.secAddr (s : State) : Nat := s.getF SEC_REQ srADDR * 64

/-- NONCE. -/
def nonceCmd (who : Who) (w t : Nat) (s : State) : State :=
  s.secOp who w 1 t (fun s =>
    if !s.flag SEC_STATUS scTRNG then (s.setSecNonce none).trngFail SEC_REQ
    else
      let (n, s) := s.random
      (s.setSecNonce (some n)).authEnd SEC_REQ 0)

def execNonce (who : Who) (w t : Nat) (s : State) : Host.Outcome State Fault Refusal := .next (nonceCmd who w t s)

/-- The FAIL code of an unlock or retire token. -/
def State.unlockFail (s : State) (b : List Nat) : Nat :=
  let tg := fieldAt b 6 1
  let head := decide (fieldAt b 0 4 = 0x554E4C4B ∧ fieldAt b 4 2 = 1 ∧ (tg = 3 ∨ tg = 4) ∧ fieldAt b 7 1 = 0)
  let f := s.tokenFail b s.ident.nonce head (if tg = 3 then 2 else 3)
  if f ≠ 0 then f
  else if (tg = 3 ∧ s.lifecycle ≠ 2) ∨ s.lifecycle = 4 then 8 else 0

/-- UNLOCK: `cut` says that a reset of island A strikes after step 3; the erase then waits for the next start. -/
def unlockCmd (who : Who) (w : Nat) (cut : Bool) (t : Nat) (s : State) : State :=
  s.secOp who w 2 t (fun s =>
    let a := s.secAddr
    let b := s.bytes a 256
    let f := if s.islandReads a 256 then s.unlockFail b else 1
    let s := s.setSecNonce none
    let tg := fieldAt b 6 1
    if f ≠ 0 then s.authEnd SEC_REQ f
    else if !s.flcUp then s.authEnd SEC_REQ 9
    else
      let s := (s.flcDebug.putStore 0x12 (.data [1, tg])).setF SEC_STATUS scERASE 1
      if cut then s.setF SEC_REQ srSTATUS 1
      else
        let s := s.eraseAll tg
        let s := if tg = 3 then (s.setF SEC_STATUS scDEBUG 1).raiseSafe 8 else s.setF SEC_STATUS scDEBUG 0
        s.authEnd SEC_REQ 0)

def execUnlock (who : Who) (w : Nat) (cut : Bool) (t : Nat) (s : State) : Host.Outcome State Fault Refusal :=
  .next (unlockCmd who w cut t s)

/-! Provisioning (15 R412). -/

/-- The sections of a package body as (type, data); none where one is malformed. -/
def sections : Nat → List Nat → Option (List (Nat × List Nat))
  | 0, b => if b = [] then some [] else none
  | n + 1, b =>
    if b = [] then some []
    else
      let l := fieldAt b 4 4
      let pad := (8 + l + 63) / 64 * 64
      let ty := fieldAt b 0 2
      if b.length < pad ∨ fieldAt b 2 2 ≠ 0 ∨ ty < 1 ∨ 3 < ty ∨ !zeroBytes b (8 + l) (pad - 8 - l) then none
      else (sections n (b.drop pad)).map (fun r => (ty, slice b 8 l) :: r)

/-- The data of the first section of a type. -/
def sectionOf (l : List (Nat × List Nat)) (ty : Nat) : Option (List Nat) := (l.find? (fun (k, _) => decide (k = ty))).map (·.2)

/-- What a package holds: trust list, configuration, secrets. -/
structure Package where
  trust : List Nat
  config : List Nat
  secrets : List Nat

/-- FAIL of a package, or what it holds. `h` are the 448 bytes of its header, `body` its body. A package whose body does
not have its digest, or whose sections are malformed or missing, is malformed; secrets that do not open have no valid
signature (log 26). -/
def State.package (s : State) (h body : List Nat) : Except Nat Package :=
  let tg := fieldAt h 6 1
  match s.ident.nonce with
  | none => .error 2
  | some n =>
    if fieldAt h 0 4 ≠ 0x50524F56 ∨ fieldAt h 4 2 ≠ 1 ∨ tg < 1 ∨ 2 < tg ∨ fieldAt h 7 1 ≠ 0 ∨ !zeroBytes h 0xF5 11 ∨
        !zeroBytes h 0x184 60 ∨ slice h 0x30 64 ≠ sha512 body then .error 3
    else match sections (body.length / 64 + 1) body with
      | none => .error 3
      | some secs =>
        match sectionOf secs 1, sectionOf secs 2 with
        | some tr, some cf =>
          let factory := s.storeNums 0x15
          if !customerOk tr ∨ (trustIds tr).any (fun i => (trustIds factory).contains i) then .error 3
          else if slice h 0x10 16 ≠ deviceId then .error 4
          else if slice h 0x20 16 ≠ n then .error 5
          else match trustKey factory (fieldAt h 8 4) 4 with
            | none => .error 6
            | some k =>
              let sec := match sectionOf secs 3 with
                | none => some []
                | some d => Config.openSecrets (slice h 0x70 133) d
              match Config.ecdsaOk k (slice h 0 256) (slice h 0x100 132), sec with
              | true, some x =>
                let from_ := s.lifecycle
                if (from_ = 0) ∨ (from_ = 1 ∧ tg = 2) ∨ (from_ = 3 ∧ tg = 2) then .ok { trust := tr, config := cf, secrets := x }
                else .error 8
              | _, _ => .error 7
        | _, _ => .error 3

/-- PROVISION: a verified package is written whole; it takes effect at the next start. -/
def provisionCmd (who : Who) (w t : Nat) (s : State) : State :=
  s.secOp who w 3 t (fun s =>
    let a := s.secAddr
    let h := s.bytes a 448
    let len := fieldAt h 0xC 4
    let ok := s.islandReads a 448 && s.islandReads (a + 0x1C0) len
    let r := if ok then s.package h (s.bytes (a + 0x1C0) len) else .error 1
    let s := s.setSecNonce none
    match r with
    | .error f => s.authEnd SEC_REQ f
    | .ok p =>
      if !s.flag SEC_STATUS scTRNG then s.trngFail SEC_REQ
      else if s.ident.norFailed = 3 then s.authEnd SEC_REQ 13
      else
        let s := ((s.putStore 0x10 (.data [1, 1, 1])).putStore 5 (.data p.secrets)).putStore 0x14 (.data p.trust)
        let s := (s.putStore 1 (.config p.config)).putStore 0x11 (.data [fieldAt h 6 1])
        ({ s with ident := { s.ident with left := true } }).authEnd SEC_REQ 0)

def execProvision (who : Who) (w t : Nat) (s : State) : Host.Outcome State Fault Refusal := .next (provisionCmd who w t s)

/-! Attestation (15 R400). -/

/-- The 640 bytes of a report for a nonce. -/
def State.report (s : State) (nonce : List Nat) : List Nat :=
  let run := fun (t : Nat) => Tab.get [] s.ident.running t
  let m := bytesOf 4 0x41545452 ++ bytesOf 2 1 ++ [s.getF SEC_STATUS scLIFE, s.getF SAFE_STATUS safINTEGRITY] ++
    bytesOf 4 (s.getF SIL_TIME silPC) ++ bytesOf 4 (s.getF SIL_TIME silSEC) ++ deviceId ++ nonce ++
    (List.range 22).map revision ++ bytesOf 10 0 ++
    [1, 2, 3].flatMap (fun t => bytesOf 8 (fieldAt (run t) 0x10 8)) ++ bytesOf 4 (s.getF FLC_SWCRC flSWCRC) ++
    bytesOf 4 (s.getF FLC_CAL flSEAL) ++ bytesOf 16 0 ++
    [1, 2, 3].flatMap (fun t => sha512 ((run t).take (imageLen (run t)))) ++ sha512 (s.storeNums 0x14) ++ sha512 s.configRaw
  m ++ (List.range 132).map (fun i => Config.idkSig s.free m i % 256) ++ bytesOf 60 0

/-- ATTEST. -/
def attestCmd (who : Who) (w t : Nat) (s : State) : State :=
  s.secOp who w 4 t (fun s =>
    let a := s.secAddr
    if !s.islandReads a 16 ∨ !s.islandReads (a + 0x40) 640 then s.authEnd SEC_REQ 1
    else if (s.storeNums 0x10).getD 0 0 ≠ 1 then s.authEnd SEC_REQ 13
    else
      let s := s.store (a + 0x40) (byteList (s.report (s.bytes a 16)))
      ({ s with free := s.free + 1 }).authEnd SEC_REQ 0)

def execAttest (who : Who) (w t : Nat) (s : State) : Host.Outcome State Fault Refusal := .next (attestCmd who w t s)

/-! Firmware update (15 R409). -/

def State.progressFw (s : State) (phase bytes : Nat) : State :=
  (s.setF SEC_FWU_PROG fwPHASE phase).setF SEC_FWU_PROG fwBYTES bytes

/-- Write the selector of a target naming bank `k`. -/
def State.selectBank (s : State) (target k : Nat) : State :=
  let (id, n) := selStore target
  s.putStore id (.data (if n = 0 then [k] else [(s.storeNums id).getD 0 0, k]))

/-- FIRMWARE_UPDATE: `upto` is the last phase that is reached before a reset strikes, 7 where none does. -/
def firmwareUpdate (who : Who) (w upto t : Nat) (s : State) : State :=
  s.secOp who w 6 t (fun s =>
    let a := s.secAddr
    let h := s.bytes a 0x2000
    let tg := fieldAt h 6 1
    let len := imageLen h
    let k := 1 - s.preferred tg
    let ok := s.islandReads a 0x2000 && s.islandReads a len
    let s := ((s.setF SEC_FWU_PROG fwTARGET tg).setF SEC_FWU_PROG fwINTER 0).progressFw 1 0
    if !ok then s.authEnd SEC_REQ 1
    else if tg < 1 ∨ 3 < tg ∨ !s.firmwareOk (s.bytes a len) tg then s.authEnd SEC_REQ 10
    else if onNor (selStore tg).1 ∧ (s.ident.norFailed = 3 ∨ bit s.ident.norFailed k) then s.authEnd SEC_REQ 13
    else
      let img := s.bytes a len
      let s := if 4 ≤ upto then s.setFwBank tg k img else if 2 ≤ upto then s.setFwBank tg k [] else s
      let (part, s) := if upto = 3 then s.fresh (fieldAt h 0xC 4 + 1) else (if 4 ≤ upto then fieldAt h 0xC 4 else 0, s)
      let s := (if 7 ≤ upto then s.selectBank tg k else s).progressFw (max 1 (min 7 upto)) part
      if 7 ≤ upto then s.authEnd SEC_REQ 0
      else ({ s with ident := { s.ident with update := true } }).setF SEC_REQ srSTATUS 1)

def execFirmwareUpdate (who : Who) (w upto t : Nat) (s : State) : Host.Outcome State Fault Refusal :=
  .next (firmwareUpdate who w upto t s)

/-- A reset ends what SEC_REQ has in progress (15 R421). -/
def State.secReset (s : State) : State :=
  let s := if s.getF SEC_REQ srSTATUS = 1 then s.setF SEC_REQ srSTATUS 0 else s
  if s.ident.update then ({ s with ident := { s.ident with update := false } }).setF SEC_FWU_PROG fwINTER 1 else s

/-! The return of an island (12 R334). -/

/-- Island `b` boots from its ROM; it stays failed where no image verifies (15 R403). -/
def State.islandBoot (s : State) (b : Bool) : State :=
  let s := if b then s else (s.romErase.secReset).showSec
  let s := s.seqFaults (if b then [0x20] else [0x10, 0x11, 0x12, 0x13, 0x14, 0x15])
  match s.boot (if b then 2 else 1) with
  | (s, true) =>
    let s := (s.setF ISL_STATUS (if b then isBFAIL else isAFAIL) 0).setF ISL_STATUS (if b then isBOK else isAOK) 1
    let s := s.setIsl b { s.isl b with edgeAt := s.now, failedAt := none }
    s.setPin b (s.flag SAFE_STATUS safSAFE)
  | (s, false) =>
    let s := s.failIsland b
    s.setIsl b { s.isl b with failedAt := none }

/-- ISLAND_REBOOT of island `b` at `t`: 10 ms after its first failure of the power cycle. -/
def islandReboot (b : Bool) (t : Nat) (s : State) : State :=
  let s := s.at t
  match (s.isl b).failedAt with
  | none => s
  | some f => if s.islandFailed b ∧ f + ms 10 ≤ s.now ∧ (s.isl b).fails < 2 then s.islandBoot b else s

def execIslandReboot (b : Bool) (t : Nat) (s : State) : Host.Outcome State Fault Refusal := .next (islandReboot b t s)

end Sys2Proof.Machine
end

