-- ==== Sys2Proof/Machine/LinkCmds.lean ====
section
/-! DEFINITION. Zwinis Links: packets, retry, training and routes, bonds, loop-back (16 R422 to R435, R441). -/

namespace Sys2Proof.Machine

def State.dir (s : State) (l d : Nat) : LinkDir := Tab.get {} s.links.dirs (2 * l + d)
def State.setDir (s : State) (l d : Nat) (x : LinkDir) : State :=
  { s with links := { s.links with dirs := Tab.set {} s.links.dirs (2 * l + d) x } }
def State.lkState (s : State) (l : Nat) : Nat := s.getF (LNK_STAT l) lkSTATE
def State.setLkState (s : State) (l v : Nat) : State := s.setF (LNK_STAT l) lkSTATE v

/-! Packets (16 R423 to R427). -/

/-- Bits of a packet's header. -/
def hdrBits (b : List Nat) (lo n : Nat) : Nat := leOf (b.take 16) / 2 ^ lo % 2 ^ n

/-- CLASS of a TYPE, none for a reserved one. -/
def pktClass (ty : Nat) : Option Nat := if ty < 4 then some 0 else if ty < 6 then some 1 else [2, 3][ty - 6]?

/-- Payload bytes of a packet. -/
def pktLen (b : List Nat) : Nat :=
  let ty := hdrBits b 0 4
  if ty = 1 ∨ ty = 4 then hdrBits b 40 8 + 1 else if ty = 3 then 16 else if ty = 6 then 8 else 0

def pktSeq (b : List Nat) : Nat := hdrBits b 22 12

/-- A sequenced packet of a defined TYPE with its CLASS, no reserved bit or subtype, its length and its CRC. -/
def pktOk (b : List Nat) : Bool :=
  let ty := hdrBits b 0 4
  let n := 16 + pktLen b
  decide (b.length = n + 4 ∧ pktClass ty = some (hdrBits b 4 2) ∧ ty < 7 ∧ hdrBits b 39 1 = 0 ∧ hdrBits b 112 16 = 0 ∧
    (if ty = 6 then hdrBits b 108 4 < 5 else hdrBits b 108 4 = 0) ∧ leOf (b.drop n) = crc32 (b.take n))

/-- Header and data credits of a packet. -/
def pktCredits (b : List Nat) : Nat × Nat := (1, (pktLen b + 63) / 64)

/-- The transmitter may send a new packet: fewer than 64 are unacknowledged and its class has the credits. -/
def LinkDir.maySend (x : LinkDir) (b : List Nat) : Bool :=
  let c := hdrBits b 4 2
  decide (x.unacked.length < 64 ∧ (pktCredits b).1 ≤ Tab.get 0 x.hdr c ∧ (pktCredits b).2 ≤ Tab.get 0 x.dat c)

/-- The first transmission of a packet. -/
def LinkDir.send (x : LinkDir) (b : List Nat) (now : Nat) : LinkDir :=
  let c := hdrBits b 4 2
  { x with next := (x.next + 1) % 4096, unacked := x.unacked ++ [(x.next, b)],
           hdr := Tab.set 0 x.hdr c (Tab.get 0 x.hdr c - (pktCredits b).1),
           dat := Tab.set 0 x.dat c (Tab.get 0 x.dat c - (pktCredits b).2),
           ackAt := if x.unacked = [] then now else x.ackAt }

/-- The receiver takes a packet: accepted, or discarded with one NAK until the expected number comes (16 R429). -/
def LinkDir.receive (x : LinkDir) (b : List Nat) (ok : Bool) : LinkDir :=
  let c := hdrBits b 4 2
  if ok && decide (pktSeq b = x.expect) then
    let r := Tab.get (0, 0) x.returned c
    { x with expect := (x.expect + 1) % 4096, discard := false, passed := x.passed + 1,
             returned := Tab.set (0, 0) x.returned c ((r.1 + (pktCredits b).1) % 256, (r.2 + (pktCredits b).2) % 4096) }
  else if x.discard then x
  else { x with discard := true, nak := some x.expect }

/-- A packet under another sequence number. -/
def renumber (b : List Nat) (seq : Nat) : List Nat :=
  let h := leOf (b.take 16)
  let m := bytesOf 16 (h - pktSeq b * 2 ^ 22 + seq % 4096 * 2 ^ 22) ++ (b.drop 16).take (pktLen b)
  m ++ bytesOf 4 (crc32 m)

/-- Two packets go from one source to one destination in one class. -/
def samePair (a b : List Nat) : Bool :=
  decide (hdrBits a 14 8 = hdrBits b 14 8 ∧ hdrBits a 6 8 = hdrBits b 6 8 ∧ hdrBits a 4 2 = hdrBits b 4 2)

/-- A new packet and what goes before it (16 R433): the first of the re-injected packets goes, and leaves them; one of their pairs is
held back until they have gone. -/
def LinkDir.passFirst (x : LinkDir) (b : List Nat) : Option LinkDir :=
  match x.first with
  | [] => some x
  | p :: rest =>
    if b = renumber p x.next then some { x with first := rest }
    else if (p :: rest).any (samePair b) then none else some x

/-! The guest's packets (16 R438). -/

/-- `[a, a + n)` lies in an open guest window. -/
def State.inGuestWindow (s : State) (a n : Nat) : Bool :=
  (List.range 16).any (fun w =>
    let b := s.getF (GST_WIN w) gwBASE * 0x10000
    s.flag (GST_WIN w) gwV && decide (b ≤ a ∧ a + n ≤ b + s.getF (GST_WIN w) gwLEN * 0x10000))

/-- What a packet of the guest does once the I/O die has accepted it (16 R438): an admitted guest reads what its partition may read,
writes inside an open window that the region table lets it write, and pushes through doorbells in its partition's name; every other
request is refused. -/
def State.guestPacket (s : State) (b : List Nat) : State :=
  let a := hdrBits b 64 44
  let p := s.getF GST_PARAM gpPART
  let data := (b.drop 16).take (pktLen b)
  if s.getF GST_STATUS gtSTATE ≠ 3 then s
  else match hdrBits b 0 4 with
    | 0 =>
      let n := hdrBits b 40 8 + 1
      if s.canRead 65 p a n then s.noteRead 65 p a n else s.refuseAccess
    | 1 =>
      if bellBase ≤ a ∧ a < bellBase + 0x100000 then
        (if data.length = 8 then swTailWrite (.user p) ((a - bellBase) / 64) (a % 64) data s
         else pushCmd (.user p) ((a - bellBase) / 64) data s)
      else if s.inGuestWindow a data.length && s.canWrite 65 p a data.length then (s.writeMem 65 p a (byteList data)).1
      else s.refuseAccess
    | 2 => s.refuseAccess
    | 3 => s.refuseAccess
    | _ => s

/-- PACKET_RECEIVE in direction `d` of link `l`: the packet that the transmitter sent arrives, `bad` with a transmission
error. A packet with the transmitter's next number is sent for the first time with this (log 27). On a port in loop-back, `bad` is
a bit error of its PRBS-31 stream (16 R435, R441). -/
def packetReceive (l d : Nat) (bytes : List Nat) (bad : Bool) (t : Nat) (s : State) : State :=
  let s := s.at t
  let b := bytes.map (fun v => v % 256)
  if 12 ≤ l ∨ 2 ≤ d then s
  else if s.lkState l = 5 then
    (if bad then s.setF (LNK_TEST l) ltERRORS (satInc 0xFFFFFFFF (s.getF (LNK_TEST l) ltERRORS)) else s)
  else if s.lkState l ≠ 2 ∨ hdrBits b 0 4 = 7 then s
  else
    let x := s.dir l d
    let new := decide (pktSeq b = x.next)
    match (if new then (if x.maySend b then x.passFirst b else none) else some x) with
    | none => s
    | some y =>
      let z := if new then y.send b s.now else y
      let ok := pktOk b && !bad
      let s := s.setDir l d (z.receive b ok)
      if l = 10 ∧ d = 0 ∧ ok ∧ pktSeq b = z.expect then s.guestPacket b else s

def execPacketReceive (l d : Nat) (bytes : List Nat) (bad : Bool) (t : Nat) (s : State) : Host.Outcome State Fault Refusal :=
  .next (packetReceive l d bytes bad t s)

/-! Acknowledgements, replays, credits (16 R429). -/

/-- The unacknowledged packets behind `seq`, where it is one of them. -/
def ackUpTo (seq : Nat) : List (Nat × List Nat) → Option (List (Nat × List Nat))
  | [] => none
  | (n, _) :: t => if n = seq then some t else ackUpTo seq t

/-- ACK_RECEIVE: every packet up to `seq` is acknowledged. -/
def ackReceive (l d seq t : Nat) (s : State) : State :=
  let s := s.at t
  let x := s.dir l d
  match ackUpTo seq x.unacked with
  | some rest => s.setDir l d { x with unacked := rest, rounds := 0, ackAt := s.now }
  | none => s

def execAckReceive (l d seq t : Nat) (s : State) : Host.Outcome State Fault Refusal := .next (ackReceive l d seq t s)

/-- A replay round: counted; the eighth in succession starts a retrain. -/
def State.replayRound (s : State) (l d : Nat) : State :=
  let x := s.dir l d
  let s := s.setDir l d { x with rounds := x.rounds + 1, ackAt := s.now }
  let s := (s.setF (LNK_RETRY l) cnt64 (s.getF (LNK_RETRY l) cnt64 + 1)).sil1 377 (2 * l + d)
  if 8 ≤ x.rounds + 1 then s.setLkState l 3 else s

/-- NAK_RECEIVE: the transmitter replays from `seq`. -/
def nakReceive (l d seq t : Nat) (s : State) : State :=
  let s := s.at t
  if l < 12 ∧ d < 2 ∧ s.lkState l = 2 ∧ (s.dir l d).unacked.any (fun (n, _) => decide (n = seq)) then s.replayRound l d else s

def execNakReceive (l d seq t : Nat) (s : State) : Host.Outcome State Fault Refusal := .next (nakReceive l d seq t s)

/-- REPLAY_TIMEOUT: no ACK has advanced for 2 µs. -/
def replayTimeout (l d t : Nat) (s : State) : State :=
  let s := s.at t
  let x := s.dir l d
  if l < 12 ∧ d < 2 ∧ s.lkState l = 2 ∧ x.unacked ≠ [] ∧ x.ackAt + us 2 ≤ s.now then s.replayRound l d else s

def execReplayTimeout (l d t : Nat) (s : State) : Host.Outcome State Fault Refusal := .next (replayTimeout l d t s)

/-- Take the cumulative counts of class `c`. -/
def LinkDir.credit (x : LinkDir) (c h n : Nat) : LinkDir :=
  let o := Tab.get (0, 0) x.taken c
  { x with hdr := Tab.set 0 x.hdr c (Tab.get 0 x.hdr c + subMod 8 h o.1),
           dat := Tab.set 0 x.dat c (Tab.get 0 x.dat c + subMod 12 n o.2),
           taken := Tab.set (0, 0) x.taken c (h % 256, n % 4096) }

/-- CREDIT_RECEIVE: cumulative header and data counts of the three classes; their places in the packet are not given. -/
def creditReceive (l d : Nat) (hs ds : List Nat) (s : State) : State :=
  if 12 ≤ l ∨ 2 ≤ d ∨ s.lkState l ≠ 2 then s
  else s.setDir l d ((List.range 3).foldl (fun x c => x.credit c (hs.getD c 0) (ds.getD c 0)) (s.dir l d))

def execCreditReceive (l d : Nat) (hs ds : List Nat) (s : State) : Host.Outcome State Fault Refusal :=
  .next (creditReceive l d hs ds s)

/-! Training, width, routes (16 R430 to R433). -/

/-- Lane groups per direction. -/
def linkGroups (l : Nat) : Nat := if l < 4 then 8 else if l < 8 then 4 else 2

/-- All groups of one half pass: the lower groups have even numbers. -/
def halfOk (l bad par : Nat) : Bool := (List.range (linkGroups l)).all (fun g => decide (g % 2 ≠ par) || !bit bad g)

/-- The width of a direction with faulty groups `bad`; one that is at half width stays there. -/
def trainWidth (l bad : Nat) (half : Bool) : Nat :=
  if bad % 2 ^ linkGroups l = 0 then (if half then 1 else 2)
  else if halfOk l bad 0 || halfOk l bad 1 then 1 else 0

/-- A link carries traffic. -/
def State.linkUp (s : State) (l : Nat) : Bool := decide (s.lkState l = 2)

/-- The base die that the ring joins to base die `a` in one sense, with the link and its direction: 0–1–3–2–0 in the first sense. -/
def ringStep (a : Nat) (fwd : Bool) : Nat × Nat × Nat :=
  match a, fwd with
  | 0, true => (1, 0, 0)
  | 1, true => (3, 2, 0)
  | 3, true => (2, 3, 1)
  | _, true => (0, 1, 1)
  | 0, false => (2, 1, 0)
  | 2, false => (3, 3, 0)
  | 3, false => (1, 2, 1)
  | _, false => (0, 0, 1)

/-- The hops from base die `a` to base die `b` in one sense, as links and directions. -/
def ringPath (b : Nat) (fwd : Bool) : Nat → Nat → List (Nat × Nat)
  | 0, _ => []
  | n + 1, a => if a = b then [] else let (c, l, d) := ringStep a fwd; (l, d) :: ringPath b fwd n c

/-- The default sense from `a` to `b`: the shorter one; BASE0 and BASE3 through BASE1, BASE1 and BASE2 through BASE0 (16 R432). -/
def ringSense (a b : Nat) : Bool :=
  let n := (ringPath b true 4 a).length
  decide (n = 1) || (decide (n = 2) && decide ((a, b) = (0, 3) ∨ (a, b) = (2, 1)))

/-- Every link of a path is up. -/
def State.pathUp (s : State) (p : List (Nat × Nat)) : Bool := p.all (fun (l, _) => s.linkUp l)

/-- The route from base die `a` to base die `b`: the default way around the ring, or the other one. -/
def State.ringRoute (s : State) (a b : Nat) : Option (List (Nat × Nat)) :=
  let p := ringPath b (ringSense a b) 4 a
  let q := ringPath b (!ringSense a b) 4 a
  if s.pathUp p then some p else if s.pathUp q then some q else none

/-- The route between base die `b` and the I/O die, `inward` towards it: over its own link, or through base die `b xor 1`. -/
def State.ioRoute (s : State) (b : Nat) (inward : Bool) : Option (List (Nat × Nat)) :=
  let c := b ^^^ 1
  if s.linkUp (4 + b) then some [(4 + b, b2n (!inward))]
  else if !s.linkUp (4 + c) then none
  else if inward then (s.ringRoute b c).map (fun p => p ++ [(4 + c, 0)])
  else (s.ringRoute c b).map (fun p => (4 + c, 1) :: p)

/-- Base die `b` reaches the I/O die. -/
def State.baseReaches (s : State) (b : Nat) : Bool := (s.ioRoute b true).isSome

/-- Where a node stands: base die 0 to 3 or what is bonded to it, 4 the I/O die, 5 to 8 the dies of links 8 to 11 (16 R425). -/
def nodeAt (n : Nat) : Nat :=
  if n < 64 then dieOf n
  else if 90 ≤ n ∧ n < 94 then n - 90
  else if 95 ≤ n ∧ n < 99 then n - 95
  else if 86 ≤ n ∧ n < 90 then n - 81
  else 4

/-- The first hop from place `a` towards place `b`. -/
def State.firstHop (s : State) (a b : Nat) : Option (Nat × Nat) :=
  if a = b then none
  else if a < 4 then ((if b < 4 then s.ringRoute a b else s.ioRoute a true).bind (·.head?))
  else if a = 4 then (if b < 4 then (s.ioRoute b false).bind (·.head?) else some (3 + b, 1))
  else some (3 + a, 0)

/-- The place whose transmitter drives direction `d` of link `l` (16 R422). -/
def linkFrom (l d : Nat) : Nat :=
  if l < 4 then ([(0, 1), (0, 2), (1, 3), (2, 3)].map (fun (a, b) => if d = 0 then a else b)).getD l 0
  else if l < 8 then (if d = 0 then l - 4 else 4)
  else if d = 0 then l - 3 else 4

/-- The packets that wait behind a failed link go onto their new routes, in SEQ order, before any later packet of their pairs
(16 R433); those without a route stay. -/
def State.reinject (s : State) (l d : Nat) : State :=
  let x := s.dir l d
  let a := linkFrom l d
  let hop := fun (b : List Nat) => s.firstHop a (nodeAt (hdrBits b 14 8))
  let all := x.unacked ++ x.first.map (fun b => (x.next, b))
  let s := all.foldl (fun s (_, b) =>
    match hop b with
    | some (l', d') => let y := s.dir l' d'; s.setDir l' d' { y with first := y.first ++ [b] }
    | none => s) s
  s.setDir l d { x with unacked := x.unacked.filter (fun (_, b) => (hop b).isNone),
                        first := x.first.filter (fun b => (hop b).isNone) }

/-- The guest is withdrawn with a reason (16 R439): its link is held in reset, its rail is off and out of the cap
(01 R24), its queues are disabled. -/
def State.withdrawGuest (s : State) (reason : Nat) : State :=
  if s.getF GST_STATUS gtSTATE = 5 ∨ s.getF GST_STATUS gtSTATE = 0 then s
  else
    let s := ((s.setF GST_STATUS gtSTATE 5).setF GST_STATUS gtREASON reason).setLkState 10 0
    let s := (s.setF (LNK_STAT 10) (lkWIDTH 0) 0).setF (LNK_STAT 10) (lkWIDTH 1) 0
    let s := (List.range 256).foldl (fun s i => s.setF (GST_QCFG i + 8) qEN 0) s
    let s := (List.range 16).foldl (fun s n => s.setF (GST_WIN n) gwV 0) s
    let s := s.setF (PWR_MON 28) pmON 0
    { s with links := { s.links with guest := { s.links.guest with withdrawn := true } } }.setCap

/-- What follows from the links that are up (16 R432): routes, reason 0x47, LINK_OK. -/
def State.routes (s : State) : State :=
  let s := (List.range 8).foldl (fun s l => s.setF (LNK_STAT l) lkREROUTED (b2n (!s.linkUp l))) s
  let s := if (List.range 4).all s.baseReaches then s else s.raiseSafe 7
  s.setF FLC_STATUS flLINKOK (b2n (s.linkUp 11))

/-- Training of a link ends with the faulty groups it found; `start` says that it is that of a start. -/
def State.trainLink (s : State) (l bad0 bad1 : Nat) (start : Bool) : State :=
  let a := LNK_STAT l
  let w := fun (d bad : Nat) => trainWidth l bad (!start && decide (s.getF a (lkWIDTH d) = 1))
  let w0 := w 0 bad0
  let w1 := w 1 bad1
  let up := decide (w0 ≠ 0 ∧ w1 ≠ 0)
  let s := (s.setF a (lkBAD 0) (bad0 % 2 ^ linkGroups l)).setF a (lkBAD 1) (bad1 % 2 ^ linkGroups l)
  let s := (s.setF a (lkWIDTH 0) (if up then w0 else 0)).setF a (lkWIDTH 1) (if up then w1 else 0)
  let s := s.setLkState l (if up then 2 else 4)
  if start then
    (List.range 2).foldl (fun s d =>
      let cr := fun (c : Nat) => Config.linkCredits (2 * l + d) c
      s.setDir l d { hdr := [(0, (cr 0).1), (1, (cr 1).1), (2, (cr 2).1)], dat := [(0, (cr 0).2), (1, (cr 1).2), (2, (cr 2).2)] }) s
  else
    let s := s.setF a lkRETRAINS (satInc 0xFFFF (s.getF a lkRETRAINS))
    (List.range 2).foldl (fun s d =>
      let s := if (if d = 0 then w0 else w1) = 1 then s.sil1 377 (24 + 2 * l + d) else s
      s.setDir l d { s.dir l d with rounds := 0, ackAt := s.now }) s

/-- A link that went down at run time (16 R432). -/
def State.linkDown (s : State) (l : Nat) : State :=
  let s := s.routes
  if l = 8 then s.failIsland false
  else if l = 9 then s.failIsland true
  else if l = 10 then s.withdrawGuest 8
  else if l < 8 then (s.reinject l 0).reinject l 1
  else s

/-- LINK_RETRAIN of link `l` at `t` finds the faulty groups of each direction: it narrows, goes down, or runs on; each
transmitter replays its buffer. -/
def linkRetrain (l bad0 bad1 t : Nat) (s : State) : State :=
  let s := s.at t
  if 12 ≤ l ∨ (s.lkState l ≠ 2 ∧ s.lkState l ≠ 3) then s
  else
    let s := s.trainLink l bad0 bad1 false
    if s.linkUp l then s.routes else s.linkDown l

def execLinkRetrain (l bad0 bad1 t : Nat) (s : State) : Host.Outcome State Fault Refusal := .next (linkRetrain l bad0 bad1 t s)

/-- FLACON_LINK_RETRY: island A trains link 11 again while it is down. -/
def flaconLinkRetry (bad0 bad1 t : Nat) (s : State) : State :=
  let s := s.at t
  if s.islandServes false ∧ s.lkState 11 = 4 then (s.trainLink 11 bad0 bad1 false).routes else s

def execFlaconLinkRetry (bad0 bad1 t : Nat) (s : State) : Host.Outcome State Fault Refusal := .next (flaconLinkRetry bad0 bad1 t s)

/-- LINK_TEST_MODE: a write of LNK_TEST by island A, or by a debug host while debug access is open. Loop-back needs a link
that is down; MODE 0 trains it again, finding the faulty groups. -/
def linkTestMode (who : Who) (l w bad0 bad1 t : Nat) (s : State) : State :=
  let s := s.at t
  let open_ := s.flag SEC_STATUS scDEBUG
  let ok := match who with
    | .islandA => true
    | .debug => open_
    | _ => false
  let m := ltMODE.of w
  if !ok then s.refuseAccess
  else if 12 ≤ l then s
  else if m = 1 ∨ m = 2 then
    if open_ ∧ (s.lkState l = 4 ∨ s.lkState l = 5) then
      (((s.setF (LNK_TEST l) ltMODE m).setF (LNK_TEST l) ltERRORS 0).setLkState l 5).routes
    else s
  else if m = 0 then
    let s := (s.setF (LNK_TEST l) ltMODE 0).setF (LNK_TEST l) ltERRORS 0
    if s.lkState l = 5 then
      let s := s.trainLink l bad0 bad1 false
      if s.linkUp l then s.routes else s.linkDown l
    else s
  else s

def execLinkTestMode (who : Who) (l w bad0 bad1 t : Nat) (s : State) : Host.Outcome State Fault Refusal :=
  .next (linkTestMode who l w bad0 bad1 t s)

/-! Vertical bonds (16 R434). -/

/-- An access of unit `u` on stream `st` ends with an uncorrectable error (05 R127). -/
def State.accessEnds (s : State) (u : Nat) (st : Strm) : State :=
  if u < 48 then
    match ((s.cell u).stream st).q with
    | e :: _ => s.cellError u errMemory st e.off
    | [] => s
  else if (s.engItem u).isSome then s.engEnd u (EErr.code u .memory) 0 else s

/-- BOND_UNCORRECTABLE of compute die `cd`, whose four cells are `4 cd` to `4 cd + 3`: it ends the access of unit `u`; a
second word within 1 s takes the die out of service. -/
def bondUncorrectable (cd u : Nat) (st : Strm) (t : Nat) (s : State) : State :=
  let s := s.at t
  if 12 ≤ cd then s
  else
    let last := Tab.get none s.links.bonds cd
    let s := s.accessEnds u st
    let s := { s with links := { s.links with bonds := Tab.set none s.links.bonds cd (some s.now) } }
    match last with
    | some l =>
      if s.now < l + sec 1 then
        [0, 1, 2, 3].foldl (fun s i =>
          let c := 4 * cd + i
          if s.unitState c = stOut then s else (s.takeOut (spadBase c)).capacityLost c) s
      else s
    | none => s

def execBondUncorrectable (cd u : Nat) (st : Strm) (t : Nat) (s : State) : Host.Outcome State Fault Refusal :=
  .next (bondUncorrectable cd u st t s)

end Sys2Proof.Machine
end

