-- ==== Sys2Proof/Machine/RegMap.lean ====
section
/-! DEFINITION. A write of a register by its fields' access codes (00 R5, R6; 01 R19). -/

namespace Sys2Proof.Machine

/-- What a write of word `w` does to one field (00 R6). -/
def State.writeF (s : State) (a : Nat) (f : FD) (w : Nat) : State :=
  match f.acc with
  | .rw => s.setF a f (f.of w)
  | .w1c => s.setF a f (s.getF a f - (s.getF a f &&& f.of w))
  | .w1s => s.setF a f (s.getF a f ||| f.of w)
  | .ro | .wo => s

/-- A write of `w` to the register at `a` by its fields' access codes. -/
def State.writeReg (s : State) (a : Nat) (fs : List FD) (w : Nat) : State := fs.foldl (fun s f => s.writeF a f w) s

/-- A write that sets a register whose LDEPTH takes 4 to 16 alone (10 R269, 19 R490). -/
def State.writeRing (s : State) (a w : Nat) : State :=
  s.writeReg a (qBASE :: (if 4 ≤ qLDEPTH.of w ∧ qLDEPTH.of w ≤ 16 then [qLDEPTH] else [])) w

/-- The partition and entry of a region-table register, and whether it is RGN_HI. -/
def rgnAt (a : Nat) : Option (Nat × Nat × Bool) :=
  if RGN_LO 0 0 ≤ a ∧ a < RGN_LO 8 0 ∧ a % 8 = 0 then
    let o := a - RGN_LO 0 0
    some (o / 0x400, o % 0x400 / 0x10, decide (o % 0x10 = 8))
  else none

/-- The queue whose QCFG_PTR stands at `a`. -/
def ptrQueue (a : Nat) : Option Nat :=
  let o := (a - unitBlk 0) % 0x10000
  if unitBlk 0 ≤ a ∧ a < unitBlk 64 ∧ 0x1000 ≤ o ∧ o < 0x5000 ∧ o % 0x40 = 16 then
    some ((a - unitBlk 0) / 0x10000 * 256 + (o - 0x1000) / 0x40)
  else none

/-- Island A writes a word of its start configuration (10 R269, R278; 05 R143). -/
def State.startWord (s : State) (a w : Nat) : State :=
  match rgnAt a, ptrQueue a with
  | some (p, e, false), _ => regionEntryWrite .islandA p e w s
  | _, some q => qcfgHeadWrite .islandA q w s
  | _, none => if (regFields a).contains qLDEPTH then s.writeRing a w else s.writeReg a (regFields a) w

end Sys2Proof.Machine
end

