-- ==== Sys2Proof/Machine/RegCmds.lean ====
section
/-! DEFINITION. REGISTER_WRITE: writes to registers that have no row of their own (00 R5, R6), with the rights that their
chapters give. A write that another row stands for leaves the state as it is here. -/

namespace Sys2Proof.Machine

/-- The element of a series of registers that `a` is. -/
def elem (a base stride count : Nat) : Option Nat :=
  if base ≤ a ∧ a < base + stride * count ∧ (a - base) % stride = 0 then some ((a - base) / stride) else none

/-- Only island A writes: `f`, else the write is refused. -/
def State.byIsland (s : State) (who : Who) (f : State) : State := if who = .islandA then f else s.refuseAccess

/-- UNIT_CTRL without an action bit (03 R78, R81). -/
def State.ctrlWrite (s : State) (who : Who) (u w : Nat) : State :=
  if who ≠ .islandA ∧ !s.isRuntimeOf who u then s.refuseAccess
  else if (ctrlUNIT_RESET.of w = 0 ∧ ctrlJOB_RESET.of w = 0 ∧ ctrlSTOP.of w = 0 ∧ ctrlRESUME.of w = 0) ∧ !s.ctrlClosed u then
    s.ctrlFields who u w
  else s

/-- UNIT_STATUS: its flag bits (03 R78). -/
def State.statusWrite (s : State) (who : Who) (u w : Nat) : State :=
  if who ≠ .islandA ∧ !s.isRuntimeOf who u then s.refuseAccess
  else if u < 48 then s.writeReg (UNIT_STATUS u) [stNSC, stSAT, stUNF, stOVF, stINV] w else s

/-- UNIT_SNAP with OP 0 or a reserved OP (03 R80). -/
def State.snapRegWrite (s : State) (who : Who) (u w : Nat) : State :=
  let op := snapOP.of w
  match s.snapRight who u op with
  | none => s.refuseAccess
  | some _ =>
    if 48 ≤ u ∨ (1 ≤ op ∧ op ≤ 3) then s
    else
      let s := s.setF (UNIT_SNAP u) snapADDR (snapADDR.of w)
      if op = 0 ∨ s.getF (UNIT_SNAP u) snapSTATUS = 1 then s else s.snapEnd u 1

/-- A register of the block of slot `u` at offset `o`; the partition and the use of the queues of slot 63 are fixed (10 R277). -/
def State.unitWrite (s : State) (who : Who) (u o w : Nat) : State :=
  if o = 0 then s.ctrlWrite who u w
  else if o = 8 then s.statusWrite who u w
  else if o = 0x30 then s.snapRegWrite who u w
  else if o < 0x30 then s.byIsland who s
  else if o = 0x38 then (if s.fenceWriter who then s else s.refuseAccess)
  else if o = 0x40 then s.byIsland who (if u < 63 then s.writeReg (UNIT_PART u) [upSUSPECT] w else s)
  else if o = 0x48 then s.byIsland who (if u < 48 then s.writeReg (UNIT_RG u) [rgV, rgDETACHED, rgPOS, rgCMP, rgRG] w else s)
  else if 0x1000 ≤ o ∧ o < 0x5000 then
    let a := unitBlk u + o
    if o % 0x40 = 0 then s.byIsland who (s.writeRing a w)
    else if o % 0x40 = 8 then
      s.byIsland who (s.writeReg a ((regFields a).filter (fun f => decide (u ≠ 63 ∨ (f ≠ qPART ∧ f ≠ qCQ)))) w)
    else if o % 0x40 = 24 then s.byIsland who s
    else s
  else s

/-- CIT entry `n`: island A; a hart for queues of its partition (17 R451). -/
def State.citWrite (s : State) (who : Who) (n w : Nat) : State :=
  let q := citQUEUE.of w
  let ok := match who with
    | .islandA => true
    | .runtime p => decide (s.qPart q = p ∧ (!s.flag (CIT n) citV ∨ s.qPart (s.getF (CIT n) citQUEUE) = p))
    | _ => false
  if ok then s.writeReg (CIT n) [citV, citQUEUE, citHART, citFILE, citEIID] w else s

/-- The pair whose M-mode harts `who` runs on. -/
def State.ofPair (s : State) (who : Who) (p : Nat) : Bool :=
  match who with
  | .runtime q => decide (q = s.getF (AP_CFG p) apPARTA) || (decide (s.getF (AP_STAT p) apMODE = 0) && decide (q = s.getF (AP_CFG p) apPARTB))
  | _ => false

/-- The target of a write to an interrupt file: hart and file (17 R449, R450; AIA: SETEIPNUM at offset 0). -/
def imsicAt (a : Nat) : Option (Nat × Nat) :=
  match elem a 0xF0001090000 0x1000 16 with
  | some h => some (h, 4)
  | none => (elem a 0xF00010C0000 0x1000 64).map (fun k => (k / 4, k % 4))

/-- A register of the application-core block (17 R449 to R460). -/
def State.apWrite (s : State) (who : Who) (a w : Nat) : State :=
  match elem a (AP_CFG 0) 0x20 8, elem a (AP_SPLIT_PC 0) 0x20 8, elem a (AP_RESYNC_PC 0) 0x20 8 with
  | some p, _, _ =>
    if who = .islandA then s.writeReg a [apPARTB, apPARTA] w else if s.ofPair who p then s else s.refuseAccess
  | _, some p, _ => if s.ofPair who p then s.writeReg a [apPC] w else s.refuseAccess
  | _, _, some p => if s.ofPair who p then s.writeReg a [apPC] w else s.refuseAccess
  | none, none, none =>
    match elem a (MTIMECMP 0) 8 16, elem a (CIT 0) 8 1024, imsicAt a with
    | some h, _, _ =>
      if who = .runtime (s.hartPart h) then (s.writeReg a [mtCMP] w).timerLevel h else s.refuseAccess
    | _, some n, _ => s.citWrite who n w
    | _, _, some (h, f) => s.msi h f (w % 256)
    | none, none, none =>
      if a = RIG_CTRL ∨ a = RIG_INJ then
        (if !s.rigWriter who then s.refuseAccess
         else if a = RIG_INJ ∧ injGO.of w = 0 then s.writeReg a [injCAM, injRING] w else s)
      else if apBase ≤ a ∧ a < apBase + 0x9000 then
        (if who = .islandA ∨ flcWriter who then s.writeReg a (regFields a) w else s.refuseAccess)
      else s

/-- The controller of an address of the interface block: its partition, the base of its IRQ registers and its APLIC source
(19 R490, R510; 17 R450). -/
def State.ctrlAt (s : State) (a : Nat) : Option (Nat × Nat × Nat) :=
  if PORT 0 ≤ a ∧ a < PORT 6 then
    let p := (a - PORT 0) / 0x1000
    some (s.portPart p, PORT p, 9 + p)
  else if CANB 0 ≤ a ∧ a < CANB 2 then
    let c := (a - CANB 0) / 0x1000
    some (s.cfg.canPart.getD c 0, CANB c, 15 + c)
  else if UFSB ≤ a ∧ a < UFSB + 0x1000 then some (s.cfg.ufsPart, UFSB, 17)
  else if PCIEB ≤ a ∧ a < PCIEB + 0x1000 then some (s.cfg.pciePart, PCIEB, 18)
  else none

/-- The fields that a write of an interface register carries: values that leave their field are left out (19 R506). -/
def ifFields (a w : Nat) : List FD :=
  if a = CAN_CFG 0 ∨ a = CAN_CFG 1 then
    (if cnNBR.of w ≤ 3 then [cnNBR] else []) ++ (if cnDBR.of w ≤ 3 then [cnDBR] else []) ++ [cnEN]
  else (regFields a).filter (fun f => decide (f ≠ qHEAD))

/-- A register of the interface block (19 R490). -/
def State.ifWrite (s : State) (who : Who) (a w : Nat) : State :=
  match elem a (CAM_RING 0) 0x20 16 with
  | some n => s.byIsland who (s.writeCamRing n w)
  | none =>
    if a < PORT 0 then
      (if RXR_CFG 0 ≤ a ∧ a < RXR_CFG 32 then s.byIsland who (s.writeReg a (regFields a) w) else s.byIsland who s)
    else match s.ctrlAt a with
      | none => s
      | some (part, base, src) =>
        if !ctrlWriter who part then s.refuseAccess
        else if (List.range 6).any (fun p => decide (a = QBV_CTL p)) ∨ a = PCIE_CFGA then s
        else if (List.range 16).any (fun g => decide (a = RING_GROUP g)) then s.writeRing a w
        else
          let s := s.writeReg a (ifFields a w) w
          if a = base + 0x10 ∨ a = base + 0x18 then s.irqLevel base src else s

/-- A register of the trigger generator's block (08 R203, R208, R211). -/
def State.trigWrite (s : State) (a w : Nat) : State :=
  match elem a (STRM_CFG 0) 16 16 with
  | some n => s.writeStrmCfg n w
  | none =>
    if a = TRIG_CTRL then (if tgSTEP.of w = 1 then s else s.writeTrigCtrl w)
    else if (elem a (TRIG_FS_CFG 0) 16 16).isSome then s.writeTrigCfg a fsFields w
    else if (elem a (TRIG_LS_CFG 0) 8 8).isSome then s.writeTrigCfg a lsFields w
    else s

/-- A register of the redundancy block (11 R329): AP_CKPT and RG_SWITCH have rows of their own. -/
def State.redWrite (s : State) (who : Who) (a w : Nat) : State :=
  if (elem a (AP_CKPT 0) 16 8).isSome ∨ (elem a (RG_SWITCH 0) 0x40 16).isSome then s
  else s.byIsland who (s.writeReg a (regFields a) w)

/-- A register of the fabric block (16 R438, R440). -/
def State.linkWrite (s : State) (who : Who) (a w : Nat) : State :=
  if GST_QCFG 0 ≤ a ∧ a < GST_QCFG 256 then
    s.byIsland who
      (if s.getF GST_PARAM gpNQ ≤ (a - GST_QCFG 0) / 0x40 then s
       else if a % 0x40 = 0 then s.writeRing a w else s.writeReg a (regFields a) w)
  else s

/-- A register of the memory controllers' block (05 R143, R149): RGN_HI waits for RGN_LO; fill registers while no fill
runs. -/
def State.mcWrite (s : State) (who : Who) (a w : Nat) : State :=
  match rgnAt a with
  | some (_, _, hi) => s.byIsland who (if hi then s.writeReg a [rgnSIZE, rgnMBASE] w else s)
  | none =>
    let ok := match who with
      | .islandA | .runtime _ => true
      | _ => false
    if a = MC_FILL_ADDR ∨ a = MC_FILL_LEN then
      (if !ok then s.refuseAccess
       else if s.getF MC_FILL_CTRL fillSTATUS = 1 then s else s.writeReg a (regFields a) w)
    else s

/-- The Flacon mailbox (14 R394): the request buffer, FLC_REQ with an OP that starts nothing or is reserved; the mirror. -/
def State.flcWrite (s : State) (who : Who) (a w : Nat) : State :=
  let o := a - flcBase
  if 0x400 ≤ o ∧ o < 0x500 then
    (if flcWriter who then s.putBytes a (byteList (bytesOf 8 w)) else s.refuseAccess)
  else if o = 0x200 then
    (if !flcWriter who then s.refuseAccess
     else if 6 ≤ frOP.of w ∧ s.getF FLC_REQ frSTATUS ≠ 1 then s.flcEnd 1 else s)
  else if o = 0x100 then s
  else if o < 0x80 ∨ (0x800 ≤ o ∧ o < 0x900) ∨ (0x1000 ≤ o ∧ o < 0x1400) ∨ (0x10000 ≤ o ∧ o < 0x20000) then s.refuseAccess
  else s

/-- SIL_AUTH and SEC_REQ with an OP that starts nothing or is reserved (13 R380, 15 R420). -/
def State.authWrite (s : State) (who : Who) (a w op : Nat) (rows : List Nat) : State :=
  if !privileged who then s.refuseAccess
  else if s.getF a silSTATUS = 1 ∨ rows.contains op then s
  else
    let s := s.setF a silADDR (silADDR.of w)
    if op = 0 then s else s.authEnd a 1

/-- REGISTER_WRITE of `w` to the register at `a`. -/
def registerWrite (who : Who) (a w : Nat) (s : State) : State :=
  if place a 8 = .none then s.refuseAccess
  else if a % 8 ≠ 0 ∨ a < unitBlk 0 then s
  else if a < unitBlk 64 then s.unitWrite who ((a - unitBlk 0) / 0x10000) ((a - unitBlk 0) % 0x10000) w
  else if a < ifBase ∧ apBase ≤ a then s.apWrite who a w
  else if (elem a 0xF0001090000 8 0x2000).isSome ∨ (elem a 0xF00010C0000 8 0x8000).isSome then s.apWrite who a w
  else if ifBase ≤ a ∧ a < ifBase + 0x20000 then s.ifWrite who a w
  else if a < clkBase then s
  else if a < silBase then
    (if a = PWR_FAULT then s.byIsland who (s.writeReg a [pfV] w) else s)
  else if a < partBase then
    (if !privileged who then s.refuseAccess
     else if a = SIL_AUTH then s.authWrite who a w (silOP.of w) [1, 2] else s)
  else if a < redBase then
    (if (elem a (JOB_STAT 0) 8 255).isSome then s else s.byIsland who (s.writeReg a (regFields a) w))
  else if a < trigBase then s.redWrite who a w
  else if a < linkBase then
    (if who = .islandA then s.trigWrite a w else s.refuseAccess)
  else if a < mcBase then s.linkWrite who a w
  else if a < flcBase then s.mcWrite who a w
  else if a < secBase then s.flcWrite who a w
  else if a < 0xF0001A00000 then
    (if !privileged who then s.refuseAccess
     else if a = SEC_REQ then s.authWrite who a w (srOP.of w) [1, 2, 3, 4, 6] else s)
  else s

def execRegisterWrite (who : Who) (a w : Nat) (s : State) : Host.Outcome State Fault Refusal := .next (registerWrite who a w s)

end Sys2Proof.Machine
end

