-- ==== Sys2Proof/Machine/ResetOps.lean ====
section
/-! DEFINITION. Resets of the main domain and starts: what a reset keeps, steps 3 to 9 of a start, guest admission
(15 R404; 16 R436, R437; 17 R459; 18 R476 to R480; 11 R326; 12 R362). -/

namespace Sys2Proof.Machine

/-! What is kept (18 R478). -/

/-- Registers that a warm reset keeps: the islands' mailbox, clocks and supplies, the Flacon mailbox, the security block, and
those of a withdrawn guest. -/
def State.keepReg (s : State) (k : Nat) : Bool :=
  let a := k / 64
  decide ((SAFE_STATUS ≤ a ∧ a < BAR_HART 0) ∨ (clkBase ≤ a ∧ a < silBase) ∨ (flcBase ≤ a ∧ a < 0xF0001A00000)) ||
  (s.links.guest.withdrawn && decide (a = GST_STATUS))

/-- The main domain at its reset values: units, engines, links, memory, application cores, recorder, trigger generator and
every register of it. The mode returns to INTEGRITY unless COOLANT_LOSS holds (18 R470). -/
def State.mainReset (s : State) : State :=
  let r : State :=
    { State.reset with
      pending := s.pending, now := s.now, free := s.free, lastFix := s.lastFix, quar := s.quar, safe := s.safe, odo := s.odo,
      nextIdRead := s.nextIdRead, cfg := s.cfg, plan := s.plan, cal := s.cal, stores := s.stores, shut := s.shut,
      ident := s.ident, flc := s.flc,
      regs := s.regs.filter (fun (k, _) => s.keepReg k),
      mem := s.mem.filter (fun (a, _) => decide (flcBase ≤ a ∧ a < secBase)),
      ports := s.ports.filter (fun (p, _) => decide (p = 6 ∨ p = 7 ∨ p = 12 ∨ p = 13)),
      sup := { s.sup with stall := [], reinit := [], copies := [], extras := [], alignedFrames := 0 },
      pow := { s.pow with samples := [], lowSince := none, winSum := 0, winN := 0, released := false },
      links := { guest := { withdrawn := s.links.guest.withdrawn }, tap := s.links.tap } }
  let r := r.dropMode.cutWrites
  let r := if r.mode = 3 then r else r.inMode 1
  let r := [3, 4, 6].foldl (fun (s : State) k => s.setCause k false) r
  (r.showNonce SIL_NONCE0 r.ident.silNonce).setF SIL_TIME silPC (s.getF SIL_TIME silPC)

/-- Registers that a cold reset keeps: the Flacon mailbox, the sequencer's latch and its monitors, and the progress of a
firmware update, which island A records. -/
def coldReg (k : Nat) : Bool :=
  let a := k / 64
  decide ((flcBase ≤ a ∧ a < secBase) ∨ a = PWR_FAULT ∨ (PWR_MON 0 ≤ a ∧ a < PWR_MON 32) ∨ a = SEC_FWU_PROG)

/-- The whole device at its reset values: MRAM, NOR, fuses, the Flacon and the sequencer keep what they hold. -/
def State.coldReset (s : State) : State :=
  let r : State :=
    { State.reset with
      pending := s.pending, now := s.now, free := s.free, stores := s.stores, shut := s.shut, flc := s.flc,
      ident := { s.ident with nonce := none, silNonce := none, running := [] },
      regs := s.regs.filter (fun (k, _) => coldReg k),
      mem := s.mem.filter (fun (a, _) => decide (flcBase ≤ a ∧ a < secBase)),
      pow := { en := s.pow.en, good := s.pow.good, groups := s.pow.groups, groupAt := s.pow.groupAt, offAt := s.pow.offAt,
               tolSince := s.pow.tolSince, refused := s.pow.refused, newFault := s.pow.newFault, fell := s.pow.fell,
               seqOn := s.pow.seqOn, outAt := s.pow.outAt, ageAt := s.now, hold := s.pow.hold &&& 19 },
      sup := { islOnAt := s.now } }
  r.cutWrites

/-! Stores and configuration at a start (15 R404, R408; 18 R476; 10 R278; 12 R346). -/

/-- A store is written at once. -/
def State.saveNow (s : State) (id : Nat) (v : StoreVal) : State :=
  if onNor id ∧ s.ident.norFailed = 3 then s.failStore id else s.putStore id v

/-- Each buffered payload is written to its store; the buffer empties. -/
def State.flushShut (s : State) : State :=
  { s.shut.foldl (fun (s : State) (id, v) => s.saveNow id v) s with shut := [] }

/-- The shares of the partitions sum to at most 63. -/
def State.sharesOk (s : State) (f : FD) : Bool :=
  decide ((List.range 8).foldl (fun n p => n + s.getF (PDESC p) f) 0 ≤ 63)

/-- No valid region of a table covers a part of the Blotter area. -/
def State.regionsOk (s : State) : Bool :=
  s.rgnCur.all (fun (_, o) =>
    decide (rgnVALID.of o.lo = 0) || !s.inBlotter (rgnBASE.of o.lo * 0x10000) (rgnSIZE.of o.hi * 0x10000))

/-- Island A grants the queues of slot 63 (10 R277): partitions and completion queues are fixed, and a queue is in use where the
configuration gives it a ring (log 80). -/
def State.fixQueues (s : State) : State :=
  let used := (List.range 48).map (fun i => (i, i % 8, decide (40 ≤ i))) ++
    (List.range 63).map (fun u => (64 + u, 0, false)) ++ [(128, 0, true)]
  used.foldl (fun s (i, p, cq) =>
    let a := qCtl (63 * 256 + i)
    let s := ((s.setF a qPART p).setF a qCQ (b2n cq)).setF a qJIDX 0xFF
    if s.getF (qRing (63 * 256 + i)) qLDEPTH = 0 then s else s.setF a qEN 1) s

/-- Every unit has its BLOTTER entry (10 R280). -/
def State.blotterEntries (s : State) : State :=
  (List.range 63).foldl (fun s u =>
    if (List.range 16).any (fun e => s.flag (SCHED u e) scV && s.flag (SCHED u e) scBLOTTER) then s else s.writeSched u) s

/-- The partitions whose region table island A refuses (05 R145): an entry of it would not be accepted. -/
def State.refusedTables (s : State) : List Nat :=
  (s.cfg.words.foldl (fun (acc : State × List Nat) (a, w) =>
    let (s, bad) := acc
    let t := s.startWord a w
    match rgnAt a with
    | some (p, e, false) => (t, if (t.rgnEntry p e).lo = [rgnVALID, rgnRD, rgnWR, rgnMIRROR, rgnBASE].foldl (fun n f => n + f.of w * 2 ^ f.lo) 0
        then bad else bad ++ [p])
    | _ => (t, bad)) (s, [])).2

/-- Island A writes descriptors, region tables and the other registers of the configuration, unless it refuses it or the
lifecycle is RETIRED. -/
def State.writeConfig (s : State) : State :=
  let bad := s.refusedTables
  let t : State := s.cfg.words.foldl (fun (s : State) (a, w) =>
    match rgnAt a with
    | some (p, _, _) => if bad.contains p then s else s.startWord a w
    | none => s.startWord a w) s
  let t : State := { t with rgnOld := [] }
  if s.lifecycle ≠ 4 ∧ (s.storeVal 0x11).isSome ∧ t.sharesOk pdFAB ∧ t.sharesOk pdGDDR ∧ t.regionsOk then t else s

/-- The configuration store is loaded. -/
def State.loadConfig (s : State) : State :=
  let raw := match s.storeVal 1 with
    | some (.config raw) => some raw
    | _ => none
  let c : Cfg := match raw with
    | some raw => { Config.cfgOf raw with valid := true }
    | none => {}
  let s : State := { s with cfg := c, loadedCfg := raw.getD [] }
  let s := ((if c.valid then s.writeConfig else s).fixQueues).blotterEntries
  let s : State := (c.apParts.zipIdx).foldl (fun (s : State) ((a, b), p) =>
    (s.setF (AP_CFG p) apPARTA a).setF (AP_CFG p) apPARTB b) s
  s.setF PCIEB pcEP (b2n c.epMode)

/-! Tests of a start. -/

/-- The injection test of the comparison units (11 R326 to R328). -/
def State.injectionTest (s : State) (pass : Nat) : State :=
  let m := pass % 32
  let s := s.setF RED_STATUS rdCMPOK m
  if m = 0 then ((s.setF RED_STATUS rdTESTPASS 0).setCause 5 true).raiseSafe 6
  else
    let s := ((s.setF RED_STATUS rdTESTPASS 1).setF RED_STATUS rdOVERDUE 0).setF RED_STATUS rdSECS 0
    let s : State := { s with sup := { s.sup with testedAt := s.now } }
    ((s.setCause 1 false).setCause 5 (decide (popCount 5 m < 2))).clearSafe 6

/-- GDDR6 channels and common stores after training and the memory test (05 R124, R142); a cell or common store that island A excluded
stays out of service (05 R128; log 9). -/
def State.memoryTest (s : State) (st : Start) : State :=
  let out := fun (e : Nat) => (Tab.get {} s.quar e : Quar).all
  let cs := ((List.range 4).filter (fun b => out (72 + b))).foldl clrBit st.stores
  let s := (s.setF MC_STATUS mcCHOK st.channels).setF MC_STATUS mcCSOK cs
  let s := (List.range 48).foldl (fun s c => if out c then s.setUnitState c stOut else s) s
  let bad := decide (st.channels % 2 ^ 24 ≠ 2 ^ 24 - 1)
  (s.setF MC_STATUS mcDEGRADED (b2n bad)).setCause 4 bad

/-- Every link but the guest's trains (16 R430); an island whose link stays down is failed (16 R432). -/
def State.trainAll (s : State) (bad : List Nat) : State :=
  let s : State := (List.range 12).foldl (fun (s : State) l =>
    if l = 10 then s else s.trainLink l (bad.getD (2 * l) 0) (bad.getD (2 * l + 1) 0) true) s
  let s := s.routes
  let s := if s.linkUp 8 then s else s.failIsland false
  if s.linkUp 9 then s else s.failIsland true

/-! Guest admission (16 R436, R437). -/

/-- A manifest is well formed and names the discovered guest. -/
def manifestOk (m : List Nat) (g : GuestSite) : Bool :=
  decide (m.length = 256 ∧ fieldAt m 0 4 = 0x474D4E46 ∧ fieldAt m 4 2 = 1 ∧ fieldAt m 6 1 < 8 ∧ fieldAt m 7 1 ≤ 16 ∧
    fieldAt m 8 2 = g.vendor % 65536 ∧ fieldAt m 0xA 2 = g.die % 65536 ∧ 1 ≤ fieldAt m 0xC 4 ∧ fieldAt m 0xC 4 ≤ 15000 ∧
    fieldAt m 0x10 2 ≤ 256) && zeroBytes m 0x12 14 && zeroBytes m 0x24 28 && zeroBytes m 0xC4 60

/-- Why a manifest is refused, zero where it is accepted. -/
def State.manifestFail (s : State) (m : List Nat) (g : GuestSite) : Nat :=
  if !manifestOk m g then 3
  else match trustKey (s.storeNums 0x15) (fieldAt m 0x20 4) 4 with
    | none => 4
    | some k =>
      if !Config.ecdsaOk k (slice m 0 64) (slice m 0x40 132) then 4
      else if s.getF (PDESC (fieldAt m 6 1)) pdVALID ≠ 1 ∨ s.getF (PDESC (fieldAt m 6 1)) pdCLASS ≠ 2 then 5
      else if s.lifecycle = 4 then 6
      else 0

/-- The guest is refused with a reason. -/
def State.refuseGuest (s : State) (k : Nat) : State := (s.setF GST_STATUS gtSTATE 4).setF GST_STATUS gtREASON k

/-- Admission at a start, with the faulty lane groups that training finds. -/
def State.admitGuest (s : State) (g : GuestSite) (bad0 bad1 : Nat) : State :=
  let s := s.setF (PWR_MON 28) pmON 1
  if !g.streaming ∨ !(g.x16 || g.x8) ∨ !([4, 8, 16].contains g.rate) then s.refuseGuest 2
  else
    let s := s.trainLink 10 bad0 bad1 true
    if !s.linkUp 10 then s.refuseGuest 1
    else if g.overload then s.refuseGuest 7
    else
      let m := g.manifest.map (fun v => v % 256)
      let f := s.manifestFail m g
      if f ≠ 0 then s.refuseGuest f
      else
        let s := (s.setF GST_PARAM gpVENDOR g.vendor).setF GST_PARAM gpDIE g.die
        let s := (s.setF GST_PARAM gpNQ (fieldAt m 0x10 2)).setF GST_PARAM gpNWIN (fieldAt m 7 1)
        let s := (s.setF GST_PARAM gpPART (fieldAt m 6 1)).setF GST_PARAM gpRATE g.rate
        (s.setF GST_PARAM gpWIDTH (if g.x16 then 2 else 1)).setF GST_STATUS gtSTATE 3

/-- The guest site at a start: a guest that was withdrawn stays so until the next cold start; a module without a guest site
or guest reports ABSENT (00 R2). -/
def State.guestStart (s : State) (st : Start) : State :=
  if s.links.guest.withdrawn ∨ orderCode = 0 then s
  else match st.guest with
    | none => s
    | some g => s.admitGuest g (st.bad.getD 20 0) (st.bad.getD 21 0)

/-! Steps 3 to 9 of a start (15 R404). -/

/-- Replay mode as the configuration names it (17 R459). -/
def State.startReplay (s : State) : State :=
  if !s.cfg.replay then s
  else
    let s := ((s.setF RIG_CTRL rigREPLAY 1).setF RIG_CTRL rigSLAVED 1).setF RIG_CTRL rigSEQ0 s.cfg.seq0
    let s := s.setF (TRIG_FS_SEQ (s.getF TRIG_CTRL tgREFCH)) fsSEQ s.cfg.seq0
    s.writeTrigCtrl (s.getF TRIG_CTRL tgREFCH * 16 + 2 + 1)

/-- The units begin at their reset values; the tables of the Attention engines agree; TRK_NEXT_ID goes on ahead of what
island A last read (08 R230). -/
def State.startUnits (s : State) (warm : Bool) : State :=
  let s : State := (List.range 63).foldl (fun (s : State) u => s.setUnit u { s.unit u with frameAt := s.now }) s
  let s : State := s.startAttn
  let s : State := { s with ap := { s.ap with timeAt := s.now } }
  if warm then s.setF TRK_NEXT_ID tkNEXT (idAhead s.nextIdRead) else s

/-- Island A brings the main domain up. `warm` for a warm start, `lost` for one after a loss of VBUS or a cold start, whose
quarantine table and calibration are those last written, `quiet` for a warm reset through RESET_N. -/
def State.bringUp (s : State) (st : Start) (warm lost quiet : Bool) : State :=
  let s := (s.setF CLK_STATUS ckLOCK 1).flushShut
  let s := s.seqFaults [1, 2, 3, 4, 5, 6]
  let s := if lost then s.loadQuar.loadCal else s
  let s := (s.loadSil.setF SIL_TIME silSEC s.localSec).setF SIL_TIME silPC ((s.storeNums 0x13).getD 0 0)
  let s := if quiet then s.event 28 else s
  let s := s.secReset.showSec
  let s := s.trainAll st.bad
  let s := s.loadConfig
  let s := s.startDebug
  let s := (s.memoryTest st).injectionTest st.cmps
  let s : State := st.failing.foldl (fun (s : State) u => if u < 63 then s.binFailure u else s) s
  let s := (s.startUnits warm).guestStart st
  let s : State := s.pow.trimNext.foldl (fun (s : State) (d, n) => s.setF (TRIM d) tmSTEPS n) s
  let s : State := { s with pow := { s.pow with trimNext := [], released := true } }
  (s.setCap.setDivider.setRails).startReplay

/-- RST_STATUS of a start. -/
def State.startCause (s : State) (cause : Nat) (warm : Bool) : State :=
  (s.setF RST_STATUS rtCAUSE cause).setF RST_STATUS rtWARM (b2n warm)

/-! Temperatures (18 R481). -/

/-- Valid sensors of die `d`. -/
def State.validSensors (s : State) (d : Nat) : Nat := ((List.range 8).filter (fun i => (s.sensor d i).isSome)).length

/-- Tj of die `d` in 0.1 °C: its hottest valid sensor; 106 °C for a main-domain die with fewer than four. -/
def State.dieTj (s : State) (d : Nat) : Option Int :=
  if d ≤ 16 ∧ s.validSensors d < 4 then some 1060 else s.hottest d

/-- The device Tj: the largest Tj of dies 0 to 16. -/
def State.deviceTj (s : State) : Int := (List.range 17).foldl (fun m d => max m ((s.dieTj d).getD m)) (-550)

/-! Warm and cold starts. -/

/-- A warm reset begins (12 R362): t_WARM by the last device Tj; `ladder` for step 3 of the recovery ladder, whose reason is
0x41; once begun, another merges with it; a third one within ten minutes of the first asks for a power cycle. -/
def State.beginWarm (s : State) (ladder : Bool) : State :=
  let s := if ladder then s.raiseSafe 1 else s
  if s.sup.warmBegun then s
  else
    let l := (s.sup.warmAt.filter (fun a => decide (s.now < a + sec 600))) ++ [s.now]
    let lim := if s.deviceTj < 250 then sec 10 else sec 6
    let s : State := { s with sup := { s.sup with warmAt := l, warmSince := some s.now, warmLimit := lim, warmBegun := true } }
    if 3 ≤ l.length then s.raiseSafe 10 else s

/-- A warm start: the boot loader verifies, reason 0x47 ends, the main domain comes up. Without island A, or without a boot
loader, the main domain stays at its reset values. -/
def State.warmStart (s : State) (st : Start) (cause : Nat) : State :=
  let s := s.startCause cause true
  let s : State := { s with sup := { s.sup with warmBegun := false } }
  if !s.islandServes false then s
  else match s.boot 3 with
    | (s, false) => s.raiseSafe 0
    | (s, true) => (s.clearSafe 7).bringUp st true (decide (cause = 6)) (decide (cause = 2))

/-- A cold start: the Flacon's processor and both islands boot, the power-cycle count rises, the boot loader verifies, the
main domain comes up unless it is held. -/
def State.coldStart (s : State) (st : Start) (cause : Nat) : State :=
  let s := s.coldReset.startCause cause false
  let s := if s.flc.on then s.flcRestart else s
  let s := (s.islandBoot false).islandBoot true
  if !s.islandServes false ∨ s.pow.hold ≠ 0 then s
  else
    let l := s.storeNums 0x13
    let s := s.putStore 0x13 (.data [satInc 0xFFFFFFFF (l.getD 0 0), l.getD 1 0])
    match s.boot 3 with
    | (s, false) => s
    | (s, true) => s.bringUp st false true false

/-! What holds the main domain (18 R479). -/

/-- Hold `k` begins: the main domain goes to its reset values. `ladder` where the warm reset begins with it. -/
def State.holdMain (s : State) (k : Nat) (ladder : Bool) : State :=
  let s : State := { s with pow := { s.pow with hold := setBit s.pow.hold k } }
  if !s.pow.good then s else (if ladder then s.beginWarm true else s).mainReset

/-- Hold `k` ends; once nothing holds the main domain, a warm start runs. -/
def State.releaseMain (s : State) (st : Start) (k cause : Nat) : State :=
  let s : State := { s with pow := { s.pow with hold := clrBit s.pow.hold k } }
  if s.pow.hold = 0 ∧ s.pow.good then s.warmStart st cause else s

end Sys2Proof.Machine
end

