-- ==== Sys2Proof/Machine/GuestCmds.lean ====
section
/-! DEFINITION. The admitted guest: power, fence, windows; the test port (16 R438 to R442). -/

namespace Sys2Proof.Machine

/-- GUEST_POWER_SAMPLE of `mw` at `t`, every 1 ms while the guest rail is on: a sample above 20 W, or a mean of 100 above
15 W, withdraws the guest; the cap rises with its draw (01 R24). -/
def guestPowerSample (mw t : Nat) (s : State) : State :=
  let s := s.at t
  if s.getF GST_STATUS gtSTATE ≠ 3 then s
  else
    let l := (mw :: s.links.guest.samples).take 100
    let sum := l.foldl (fun n v => n + v) 0
    let s : State := { s with links := { s.links with guest := { s.links.guest with samples := l } } }
    let s := (s.setF GST_STATUS gtPOWER (sum / l.length)).setCap
    if 20000 < mw ∨ (l.length = 100 ∧ 1500000 < sum) then s.withdrawGuest 7 else s

def execGuestPowerSample (mw t : Nat) (s : State) : Host.Outcome State Fault Refusal := .next (guestPowerSample mw t s)

/-- GUEST_FENCE: a write of GST_STATUS. -/
def guestFence (who : Who) (w : Nat) (s : State) : State :=
  if who ≠ .islandA then s.refuseAccess
  else if gtFENCE.of w = 1 then (s.setF GST_STATUS gtFENCE 1).withdrawGuest 9
  else s

def execGuestFence (who : Who) (w : Nat) (s : State) : Host.Outcome State Fault Refusal := .next (guestFence who w s)

/-- GST_WIN_WRITE of window `n` by the runtime of the guest's partition: a window opens inside that partition's writable
regions alone. -/
def gstWinWrite (who : Who) (n w : Nat) (s : State) : State :=
  let part := s.getF GST_PARAM gpPART
  if who ≠ .runtime part ∨ s.getF GST_STATUS gtSTATE ≠ 3 then s.refuseAccess
  else if 16 ≤ n then s
  else
    let len := gwLEN.of w
    if gwV.of w = 1 then
      if n < s.getF GST_PARAM gpNWIN ∧ 1 ≤ len ∧ len ≤ 344064 ∧ s.rgnOk 65 part true (gwBASE.of w * 0x10000) (len * 0x10000) then
        s.writeReg (GST_WIN n) [gwV, gwLEN, gwBASE] w
      else s
    else s.writeReg (GST_WIN n) [gwV, gwLEN, gwBASE] w

def execGstWinWrite (who : Who) (n w : Nat) (s : State) : Host.Outcome State Fault Refusal := .next (gstWinWrite who n w s)

/-! The test access port of the I/O die (16 R442). -/

/-- The next state of a TAP controller. -/
def TapState.next (tms : Bool) : TapState → TapState
  | .reset => if tms then .reset else .idle
  | .idle => if tms then .selDr else .idle
  | .selDr => if tms then .selIr else .capDr
  | .capDr => if tms then .ex1Dr else .shDr
  | .shDr => if tms then .ex1Dr else .shDr
  | .ex1Dr => if tms then .updDr else .pauseDr
  | .pauseDr => if tms then .ex2Dr else .pauseDr
  | .ex2Dr => if tms then .updDr else .shDr
  | .updDr => if tms then .selDr else .idle
  | .selIr => if tms then .reset else .capIr
  | .capIr => if tms then .ex1Ir else .shIr
  | .shIr => if tms then .ex1Ir else .shIr
  | .ex1Ir => if tms then .updIr else .pauseIr
  | .pauseIr => if tms then .ex2Ir else .pauseIr
  | .ex2Ir => if tms then .updIr else .shIr
  | .updIr => if tms then .selDr else .idle

/-- One cycle of TCK: the controller's state acts, then TMS moves it. The instruction register captures 0b0000_0001; every
instruction is BYPASS, whose bit captures 0. -/
def TestPort.clock (x : TestPort) (tms tdi : Bool) : TestPort :=
  let y : TestPort := match x.st with
    | .reset => { x with ir := 0xFF }
    | .capIr => { x with shift := 1 }
    | .shIr => { x with tdo := decide (x.shift % 2 = 1), shift := x.shift / 2 + (if tdi then 128 else 0) }
    | .updIr => { x with ir := x.shift }
    | .capDr => { x with bypass := false }
    | .shDr => { x with tdo := x.bypass, bypass := tdi }
    | _ => x
  { y with st := x.st.next tms }

/-- TCK: while debug access is open, the whole chain lies between TDI and TDO, and what it shifts out is not stated
(log 28). -/
def tckCmd (tms tdi : Bool) (s : State) : State :=
  let x := s.links.tap.clock tms tdi
  let shifts := decide (s.links.tap.st = .shIr ∨ s.links.tap.st = .shDr)
  if s.flag SEC_STATUS scDEBUG && shifts then
    let (v, s) := s.fresh 2
    { s with links := { s.links with tap := { x with tdo := decide (v = 1) } } }
  else { s with links := { s.links with tap := x } }

def execTck (tms tdi : Bool) (s : State) : Host.Outcome State Fault Refusal := .next (tckCmd tms tdi s)

end Sys2Proof.Machine
end

