-- ==== Sys2Proof/Machine/PcieCmds.lean ====
section
/-! DEFINITION. Inbound PCIe requests (17 R452, R458; 13 R369 to R375, R380; 15 R415). -/

namespace Sys2Proof.Machine

/-! Requests. -/

/-- The answer to an inbound request: 0 success, 1 Unsupported Request, 2 the completion of a failed read; the data. It stands
in `PortRt.sent` of port 11. -/
def State.pcieAnswer (s : State) (status : Nat) (data : List Nat) : State :=
  s.setPort 11 { s.port 11 with sent := status :: data }

/-- A refused request. -/
def State.pcieRefuse (s : State) : State := s.refuseAccess.pcieAnswer 1 []

/-- The initiator that inbound requests act as. -/
def State.pcieWho (s : State) : Who := .runtime s.cfg.pciePart

/-- A read of `n` bytes of memory at `a`. -/
def State.pcieRead (s : State) (a n : Nat) : State :=
  let p := s.cfg.pciePart
  if !s.canRead 65 p a n then s.pcieRefuse
  else if s.readFails 65 p a n then (s.countEcc (s.firstBad 65 p a n) true).pcieAnswer 2 []
  else (s.readEffect 65 p a n).pcieAnswer 0 (s.readBytes 65 p a n)

/-- A write of bytes to memory at `a`. -/
def State.pcieWrite (s : State) (a : Nat) (b : List Nat) : State :=
  let p := s.cfg.pciePart
  if s.canWrite 65 p a b.length then (s.writeMem 65 p a (byteList b)).1.pcieAnswer 0 [] else s.pcieRefuse

/-- A BAR0 read: the Sillage block while the configuration sets RIG_READ. -/
def State.bar0Read (s : State) (off n : Nat) : State :=
  let a := dirBase + off
  let r : Reader := { part := s.cfg.pciePart, priv := s.cfg.rigRead }
  if 0x400000 < off + n ∨ !(List.range ((off % 8 + n + 7) / 8)).all (fun i => s.regReadable r (a / 8 * 8 + 8 * i)) then s.pcieRefuse
  else s.pcieAnswer 0 (s.readRegs a n)

/-- One word of a BAR0 write: RIG_CTRL or RIG_INJ. -/
def State.rigWord (s : State) (a w : Nat) : State :=
  if a = RIG_CTRL then rigStep .pcie w s.now s else rigInj .pcie w s.now s

/-- A BAR0 write: to RIG_CTRL and RIG_INJ alone. -/
def State.bar0Write (s : State) (off : Nat) (b : List Nat) : State :=
  let a := dirBase + off
  if RIG_CTRL ≤ a ∧ a + b.length ≤ RIG_INJ + 8 then
    let o := a - RIG_CTRL
    let old := bytesOf 8 (s.wordF RIG_CTRL (regFields RIG_CTRL)) ++ bytesOf 8 (s.wordF RIG_INJ (regFields RIG_INJ))
    let new := old.take o ++ b ++ old.drop (o + b.length)
    let s := if o < 8 then s.rigWord RIG_CTRL (leOf (new.take 8)) else s
    let s := if 8 < o + b.length then s.rigWord RIG_INJ (leOf (new.drop 8)) else s
    s.pcieAnswer 0 []
  else s.pcieRefuse

/-- A BAR2 write: a doorbell (10 R270, R271). -/
def State.bar2Write (s : State) (off : Nat) (b : List Nat) : State :=
  let q := off / 64
  let q2 := if s.flag (qCtl q) qRDRV then s.getF (qCtl q) qREDIRECT else q
  if 0x100000 < off + b.length then s.pcieRefuse
  else if s.qPart q2 ≠ s.cfg.pciePart then s.pcieRefuse
  else if off % 64 = 0 ∧ b.length = 64 then (pushCmd s.pcieWho q b s).pcieAnswer 0 []
  else (swTailWrite s.pcieWho q (off % 64) b s).pcieAnswer 0 []

/-- A BAR2 read: TAIL and HEAD. -/
def State.bar2Read (s : State) (off n : Nat) : State :=
  if 0x100000 < off + n then s.pcieRefuse
  else
    let q := off / 64
    let line := fun (k : Nat) => bytesOf 4 (s.qTailOf (q + k)) ++ bytesOf 4 (s.qHead (q + k)) ++ bytesOf 56 0
    s.pcieAnswer 0 (slice ((List.range ((off % 64 + n + 63) / 64)).flatMap line) (off % 64) n)

/-- PCIE_INBOUND_REQUEST: a read of `len` bytes, or a write of `bytes`, at offset `off` of a BAR in endpoint mode. In
root-complex mode `off` is the address behind the IOMMU, whose translation is not modelled: memory, or an interrupt file
(log 30). -/
def pcieInboundRequest (bar off : Nat) (wr : Bool) (bytes : List Nat) (len : Nat) (s : State) : State :=
  let b := bytes.map (fun v => v % 256)
  let n := if wr then b.length else len
  if n = 0 then s.pcieAnswer 0 []
  else if !s.cfg.epMode then
    (if wr then
       match imsicAt off with
       | some (h, f) => if n = 4 then (s.msi h f (leOf b % 256)).pcieAnswer 0 [] else s.pcieRefuse
       | none => s.pcieWrite off b
     else s.pcieRead off n)
  else match bar with
    | 0 => if wr then s.bar0Write off b else s.bar0Read off n
    | 2 => if wr then s.bar2Write off b else s.bar2Read off n
    | 4 =>
      if s.cfg.bar4Size < off + n then s.pcieRefuse
      else if wr then s.pcieWrite (s.cfg.bar4Base + off) b
      else s.pcieRead (s.cfg.bar4Base + off) n
    | _ => s.pcieRefuse

def execPcieInboundRequest (bar off : Nat) (wr : Bool) (bytes : List Nat) (len : Nat) (s : State) :
    Host.Outcome State Fault Refusal :=
  .next (pcieInboundRequest bar off wr bytes len s)

end Sys2Proof.Machine
end

