-- ==== Sys2Proof/Machine/RequestCmds.lean ====
section
/-! DEFINITION. Runtime requests and the recovery ladder (12 R361, R362; 01 R23; 09 R259). -/

namespace Sys2Proof.Machine

/-- Every byte of a request that no field takes is zero. -/
def reqOk (b : List Nat) : Bool :=
  zeroBytes b 1 1 && zeroBytes b 3 1 && zeroBytes b 6 2 && zeroBytes b 0x10 24 && zeroBytes b 0x30 16

/-- Island A takes the next request of partition `p` at `t` where its TYPE is wanted, and answers it: BAD_REQUEST where `ok`
refuses TYPE and ARG or a byte is wrong, NOT_PERMITTED from a class that may not ask, else what `f` answers. -/
def State.runtimeReq (s : State) (p t : Nat) (want : Nat → Bool) (ok : Nat → Nat → Bool) (anyClass : Bool)
    (f : State → Nat → State × Nat) : State :=
  let s := s.at t
  let q := 63 * 256 + 32 + p
  if 8 ≤ p ∨ !s.islandServes false then s
  else match s.request q want with
    | none => s
    | some b =>
      let s := s.takeRequest q
      let arg := fieldAt b 8 8
      if !reqOk b ∨ fieldAt b 2 1 ≠ p ∨ !ok (fieldAt b 0 1) arg then s.answer q b 0x21
      else if !anyClass ∧ s.classOf p ≠ 0 then s.answer q b 0x20
      else
        let (s, r) := f s arg
        s.answer q b r

/-- A warm reset is in progress until its first valid record. -/
def State.warmRuns (s : State) : Bool := s.sup.warmSince.isSome

/-- MODE; island A answers an unknown TYPE with it. COOLANT_LOSS is in force from its declaration until the mode has
left it. -/
def modeCmd (p t : Nat) (s : State) : State :=
  s.runtimeReq p t (fun ty => decide (ty = 0x20 ∨ ty < 0x20 ∨ 0x25 < ty)) (fun ty a => decide (ty = 0x20 ∧ a ≤ 2)) false
    (fun s m =>
      if m = 0 ∧ s.getF PWR_STATUS pwVBUS < 11500 then (s, 0x22)
      else if s.mode = 3 ∨ 2 ≤ s.getF COOL_STATUS coSTATE ∨ s.warmRuns then (s, 0x23)
      else (s.askMode m (s.now + ms 3), 0))

def execModeRequest (p t : Nat) (s : State) : Host.Outcome State Fault Refusal := .next (modeCmd p t s)

/-- DRYDOWN: level 4 with REASON 0x07. -/
def drydownCmd (p t : Nat) (s : State) : State :=
  s.runtimeReq p t (fun ty => decide (ty = 0x21)) (fun _ a => decide (a = 0)) false
    (fun s _ => ({ s with plan := { s.plan with held := some 7 } }, 0))

def execDrydown (p t : Nat) (s : State) : Host.Outcome State Fault Refusal := .next (drydownCmd p t s)

/-- SAFE_ENTER raises reason 0x49. -/
def safeEnter (p t : Nat) (s : State) : State :=
  s.runtimeReq p t (fun ty => decide (ty = 0x22)) (fun _ a => decide (a = 0)) false (fun s _ => (s.raiseSafe 9, 0))

def execSafeEnter (p t : Nat) (s : State) : Host.Outcome State Fault Refusal := .next (safeEnter p t s)

/-- SAFE_CLEAR ends reason 0x49. -/
def safeClear (p t : Nat) (s : State) : State :=
  s.runtimeReq p t (fun ty => decide (ty = 0x23)) (fun _ a => decide (a = 0)) false (fun s _ => (s.clearSafe 9, 0))

def execSafeClear (p t : Nat) (s : State) : Host.Outcome State Fault Refusal := .next (safeClear p t s)

/-- UNIT_RESET of a unit granted to the partition, which any class may ask for. -/
def unitResetRequest (p t : Nat) (s : State) : State :=
  s.runtimeReq p t (fun ty => decide (ty = 0x24)) (fun _ a => decide (a < 63)) true
    (fun s u => if s.isRuntimeOf (.runtime p) u then (s.unitReset u, 0) else (s, 0x20))

def execUnitResetRequest (p t : Nat) (s : State) : Host.Outcome State Fault Refusal := .next (unitResetRequest p t s)

/-- WARM_RESET: step 3 of the recovery ladder begins; the reset is a WARM_RESET of its own. -/
def warmResetRequest (p t : Nat) (s : State) : State :=
  s.runtimeReq p t (fun ty => decide (ty = 0x25)) (fun _ a => decide (a = 0)) false
    (fun s _ =>
      if s.warmRuns then (s, 0x23) else (s.beginWarm true, 0))

def execWarmResetRequest (p t : Nat) (s : State) : Host.Outcome State Fault Refusal := .next (warmResetRequest p t s)

/-- WARM_RESET by island A at `t`, whatever step of the ladder asks for it: the Sillage image is written, the main domain is
reset and comes up. Where something else holds the main domain, it merges with that reset; a clock fault ends with it. -/
def warmReset (st : Start) (t : Nat) (s : State) : State :=
  let s := s.at t
  if !s.islandServes false ∨ !s.pow.good then s
  else if s.pow.hold ≠ 0 ∧ s.pow.hold ≠ 8 then s
  else
    let s := s.beginWarm true
    let clock := decide (s.pow.hold = 8)
    let s := if clock then s else (s.cutWrites.saveNow 4 s.silImage)
    let s : State := { s with sup := { s.sup with silSavedAt := s.now } }
    s.mainReset.releaseMain st 3 (if clock then 5 else 3)

def execWarmReset (st : Start) (t : Nat) (s : State) : Host.Outcome State Fault Refusal := .next (warmReset st t s)

/-- POWER_CYCLE at `t`: no valid record within t_WARM of a warm reset. -/
def powerCycle (t : Nat) (s : State) : State :=
  let s := s.at t
  match s.sup.warmSince with
  | some b => if b + s.sup.warmLimit ≤ s.now then s.raiseSafe 10 else s
  | none => s

def execPowerCycle (t : Nat) (s : State) : Host.Outcome State Fault Refusal := .next (powerCycle t s)

end Sys2Proof.Machine
end

