-- ==== Sys2Proof/Machine/PowerCmds.lean ====
section
/-! DEFINITION. Supplies, sequencing, shutdown, resets by pin, the power limiter and the core rails (18 R467 to R479;
01 R23). -/

namespace Sys2Proof.Machine

/-! Rails and monitors (18 R472, R475). -/

/-- Target of a rail that no divider moves, mV. -/
def railMv (n : Nat) : Nat :=
  if n = 0 then 12000 else if n = 2 then 5000 else if n < 5 then 3300
  else match n with
    | 23 => 800
    | 24 => 1350
    | 25 | 27 => 1800
    | 26 => 750
    | 28 => 850
    | _ => 900

/-- The rails of a group. -/
def groupRails (g : Nat) : List Nat :=
  if g = 1 then [25, 27] else if g = 2 then [23, 24] else (List.range 18).map (fun i => i + 5) ++ [26]

/-- The operating range of a supply input, mV. -/
def supplyRange (n : Nat) : Nat × Nat := if n = 0 then (9000, 16000) else if n = 2 then (4850, 5150) else (3135, 3465)

/-- Monitor `n` reads `v` below its window, or above it. -/
def State.monLow (s : State) (n v : Nat) : Bool :=
  if n < 5 then decide (v < (supplyRange n).1)
  else decide (v * 100 < s.getF (PWR_MON n) pmTARGET * (if n = 24 then 97 else 95))
def State.monHigh (s : State) (n v : Nat) : Bool :=
  if n < 5 then decide ((supplyRange n).2 < v)
  else decide (s.getF (PWR_MON n) pmTARGET * (if n = 24 then 103 else 105) < v * 100)

/-- Monitor `n` judges a rail that is switched on. -/
def State.watched (s : State) (n : Nat) : Bool := decide (n < 5) || s.flag (PWR_MON n) pmON

/-- Monitor `n` shows its rail outside its window. -/
def State.monOut (s : State) (n : Nat) : Bool := s.flag (PWR_MON n) pmLOW || s.flag (PWR_MON n) pmHIGH

def mainMonitors : List Nat := [0, 1, 2] ++ (List.range 24).map (fun i => i + 5)

/-- Every internal rail of the main domain is off. -/
def State.railsOff (s : State) : State :=
  let s : State := ((List.range 24).map (fun i => i + 5)).foldl (fun (s : State) n => s.setF (PWR_MON n) pmON 0) s
  { s with pow := { s.pow with good := false, seqOn := false, groups := 0 } }

/-! The sequencer (18 R473, R474). -/

/-- A sequencing fault: the first one stays latched; every rail is off. -/
def State.latchFault (s : State) (code supply : Nat) : State :=
  if s.pow.refused then s
  else
    let s := ((s.setF PWR_FAULT pfV 1).setF PWR_FAULT pfCODE code).setF PWR_FAULT pfSUPPLY supply
    ({ s with pow := { s.pow with refused := true, newFault := true, fell := 0 } }).railsOff

/-- Since when supply `n` has been in tolerance. -/
def State.tolFrom (s : State) (n : Nat) : Option Nat := Tab.get none s.pow.tolSince n

/-- Supply `n` has been in tolerance for `d` ns. -/
def State.inTol (s : State) (n d : Nat) : Bool :=
  match s.tolFrom n with
  | some a => decide (a + d ≤ s.now)
  | none => false

/-- The latch clears when PWR_EN has been low for 100 ms; after ORDER and SKEW also VIO and VANA must have fallen. -/
def State.latchClears (s : State) : Bool :=
  decide (s.pow.offAt + ms 100 ≤ s.now ∧ (2 < s.getF PWR_FAULT pfCODE ∨ s.pow.fell = 3))

/-- The rail of the group that is to come which is blamed for a missed t_RAIL: the first whose last sample is below 95 % of its
target, the group's first where none is (log 67). -/
def State.lateRail (s : State) : Nat :=
  let l := groupRails (s.pow.groups + 1)
  (l.find? (fun n => decide (s.getF (PWR_MON n) pmVALUE * 100 < railMv n * 95))).getD (l.headD 0)

/-- PWR_EN_RISE at `t`. -/
def pwrEnRise (t : Nat) (s : State) : State :=
  let s := s.at t
  if s.pow.en then s
  else
    let ok := !s.pow.refused || s.latchClears
    let s : State := { s with pow := { s.pow with en := true, refused := !ok } }
    if !ok then s
    else match (List.range 5).find? (fun n => !s.inTol n (ms 10)) with
      | some n => s.latchFault 3 n
      | none => { s with pow := { s.pow with seqOn := true, groups := 0, groupAt := s.now } }

def execPwrEnRise (t : Nat) (s : State) : Host.Outcome State Fault Refusal := .next (pwrEnRise t s)

/-- The rails of group `g` are on, at their targets. -/
def State.railsOn (s : State) (g : Nat) : State :=
  let on := fun (s : State) (n : Nat) => (s.setF (PWR_MON n) pmTARGET (railMv n)).setF (PWR_MON n) pmON 1
  let s : State := (groupRails g).foldl on s
  let s : State := if g = 1 then [0, 1, 2, 3, 4, 30, 31].foldl on s else s
  let s : State := if g = 1 then (s.setF (PWR_MON 28) pmTARGET (railMv 28)).setF (PWR_MON 29) pmTARGET (railMv 29) else s
  if g = 3 then s.setRails else s

/-- RAIL_GROUP_GOOD at `t`: the next rail group is in tolerance, or missed t_RAIL; after the third, PWR_GOOD rises and the
start runs. -/
def railGroupGood (st : Start) (t : Nat) (s : State) : State :=
  let s := s.at t
  if !s.pow.seqOn then s
  else
    let g := s.pow.groups + 1
    if s.pow.groupAt + ms 10 < s.now then s.latchFault 5 s.lateRail
    else
      let s := s.railsOn g
      let s : State := { s with pow := { s.pow with groups := g, groupAt := s.now } }
      if g < 3 then s
      else
        let s := if s.pow.newFault then s else [pfV, pfCODE, pfSUPPLY].foldl (fun (s : State) f => s.clrF PWR_FAULT f) s
        let s : State := { s with pow := { s.pow with good := true, seqOn := false, newFault := false } }
        if bit s.pow.hold 4 then (s.beginWarm false).releaseMain st 4 6
        else if bit s.pow.hold 0 then s
        else s.coldStart st 0

def execRailGroupGood (st : Start) (t : Nat) (s : State) : Host.Outcome State Fault Refusal := .next (railGroupGood st t s)

/-! The monitors (18 R475). -/

/-- Show sample `v` of monitor `n`. -/
def State.showMon (s : State) (n v : Nat) : State :=
  let w := s.watched n
  let s := s.setF (PWR_MON n) pmVALUE (min v 0xFFFF)
  (s.setF (PWR_MON n) pmLOW (b2n (w && s.monLow n v))).setF (PWR_MON n) pmHIGH (b2n (w && s.monHigh n v))

/-- What the sequencer sees of the five supplies. -/
def State.seqSample (s : State) (v : Nat → Nat) : State :=
  let was := s.pow.tolSince
  let s : State := (List.range 5).foldl (fun (s : State) n =>
    let ok := !(s.monLow n (v n) || s.monHigh n (v n))
    let a := if ok then some ((s.tolFrom n).getD s.now) else none
    { s with pow := { s.pow with tolSince := Tab.set none s.pow.tolSince n a } }) s
  let f := (if v 1 < 300 then setBit s.pow.fell 0 else s.pow.fell)
  let s : State := { s with pow := { s.pow with fell := if v 2 < 300 then setBit f 1 else f } }
  let islands := (s.tolFrom 3).isSome && (s.tolFrom 4).isSome
  let late := fun (a b : Nat) => (Tab.get none was b).isNone && (s.tolFrom b).isSome && s.inTol a (ms 50 + 1)
  if s.pow.en then
    (if s.pow.good ∨ !s.pow.seqOn then s
     else if s.pow.groupAt + ms 10 < s.now then s.latchFault 5 s.lateRail
     else if bit s.pow.hold 4 then s
     else match (List.range 5).find? (fun n => (s.tolFrom n).isNone) with
       | some n => s.latchFault 4 n
       | none => s)
  else if (300 < v 1 ∨ 300 < v 2) ∧ !islands then s.latchFault 1 (if 300 < v 1 then 1 else 2)
  else if late 1 2 then s.latchFault 2 2
  else if late 2 1 then s.latchFault 2 1
  else s

/-- An island whose own monitor is outside its window is failed. -/
def State.judgeIslands (s : State) : State :=
  let s := if s.monOut 3 ∨ s.monOut 30 then s.failIsland false else s
  if s.monOut 4 ∨ s.monOut 31 then s.failIsland true else s

/-- Reason 0x45 from the main-domain monitors. -/
def State.judgeRails (s : State) : State :=
  let out := mainMonitors.any (fun n => s.monOut n)
  let serves := s.islandServes false || s.islandServes true
  let s : State := if out then { s with pow := { s.pow with outAt := s.now } } else s
  if out then (if serves then s.raiseSafe 5 else s)
  else if s.pow.outAt + sec 1 ≤ s.now then s.clearSafe 5 else s

/-- SUPPLY_MONITOR_SAMPLE at `t`: `mv` are the 32 readings in mV. -/
def supplyMonitorSample (mv : List Nat) (t : Nat) (s : State) : State :=
  let s := s.at t
  let v := fun (n : Nat) => mv.getD n 0
  let s := s.setF (PWR_MON 29) pmON (b2n s.flc.on)
  let s : State := (List.range 32).foldl (fun (s : State) n => s.showMon n (v n)) s
  let s := (s.setF PWR_STATUS pwVBUS (min (v 0) 0xFFFF)).seqSample v
  let low := decide (v 0 < 11500)
  let since := if low then some (s.pow.vbusLow.getD s.now) else none
  let s : State := { s with pow := { s.pow with vbusLow := since } }
  let s := if low ∧ s.flag CLK_STATUS ckPEND ∧ s.getF CLK_STATUS ckPENDMODE = 0 then s.dropMode else s
  if !s.pow.good then (if bit s.pow.hold 4 then s.judgeIslands else s)
  else
    let s := s.judgeRails.judgeIslands
    if s.pow.hold ≠ 0 then s
    else (List.range 32).foldl (fun (s : State) n => if s.watched n then s.extreme (21 + n) (v n : Int) else s) s

def execSupplyMonitorSample (mv : List Nat) (t : Nat) (s : State) : Host.Outcome State Fault Refusal :=
  .next (supplyMonitorSample mv t s)

/-- VBUS_LOW_THROUGHPUT at `t`: below 11.5 V for 10 ms in THROUGHPUT, island A returns to INTEGRITY at the next event. -/
def vbusLowThroughput (t : Nat) (s : State) : State :=
  let s := s.at t
  match s.pow.vbusLow with
  | some a =>
    if s.islandServes false ∧ s.mode = 0 ∧ a + ms 10 ≤ s.now ∧ !(s.flag CLK_STATUS ckPEND && decide (s.getF CLK_STATUS ckPENDMODE = 3))
    then s.askMode 1 s.now else s
  | none => s

def execVbusLowThroughput (t : Nat) (s : State) : Host.Outcome State Fault Refusal := .next (vbusLowThroughput t s)

/-! Shutdown and loss (18 R476, R477). -/

/-- What island A puts into the shutdown buffer. -/
def State.shutBuffer (s : State) : Tab StoreVal :=
  (if s.cal.dirty then [(2, s.calVal)] else []) ++ [(3, .quar s.quarTable), (4, s.silImage)]

/-- PWR_EN_FALL at `t`: the orderly shutdown. Before the main domain runs, no store is loaded and none is buffered. -/
def pwrEnFall (t : Nat) (s : State) : State :=
  let s := s.at t
  if !s.pow.en then s
  else
    let s : State := { s with pow := { s.pow with en := false, offAt := s.now } }
    let s := s.setF SIL_CTRL silFREEZE 0
    let s : State := if s.pow.good ∧ s.pow.released ∧ s.islandServes false then { s with shut := s.shutBuffer } else s
    let s := if s.pow.good then s.mainReset else s
    s.railsOff

def execPwrEnFall (t : Nat) (s : State) : Host.Outcome State Fault Refusal := .next (pwrEnFall t s)

/-- VBUS_LOSS at `t`: the main-domain rails collapse; the islands run on and raise reason 0x45. -/
def vbusLoss (t : Nat) (s : State) : State :=
  let s := s.at t
  if !s.pow.en ∨ !s.pow.good then s
  else
    let s := (s.holdMain 4 false).railsOff
    let s : State := { s with pow := { s.pow with outAt := s.now } }
    if s.islandServes false ∨ s.islandServes true then s.raiseSafe 5 else s

def execVbusLoss (t : Nat) (s : State) : Host.Outcome State Fault Refusal := .next (vbusLoss t s)

/-- VBUS_RESTORE at `t`: VBUS and VIO have been in tolerance for 10 ms; the sequencer runs its rail groups again, and a warm
start follows them. -/
def vbusRestore (t : Nat) (s : State) : State :=
  let s := s.at t
  if s.pow.en ∧ bit s.pow.hold 4 ∧ !s.pow.seqOn ∧ s.inTol 0 (ms 10) ∧ s.inTol 1 (ms 10) then
    { s with pow := { s.pow with seqOn := true, groups := 0, groupAt := s.now } }
  else s

def execVbusRestore (t : Nat) (s : State) : Host.Outcome State Fault Refusal := .next (vbusRestore t s)

/-! Reset pins and the clock monitor (18 R467, R479). -/

/-- PORST_N_LOW at `t`: everything is held in reset. -/
def porstNLow (t : Nat) (s : State) : State :=
  let s := s.at t
  let s : State := { s with pow := { s.pow with hold := setBit s.pow.hold 0 } }
  s.coldReset

def execPorstNLow (t : Nat) (s : State) : Host.Outcome State Fault Refusal := .next (porstNLow t s)

/-- PORST_N_RELEASE at `t`: a cold start, once the supplies are there. -/
def porstNRelease (st : Start) (t : Nat) (s : State) : State :=
  let s := s.at t
  if !bit s.pow.hold 0 then s
  else
    let s : State := { s with pow := { s.pow with hold := clrBit s.pow.hold 0 } }
    if s.pow.good then s.coldStart st 1 else s

def execPorstNRelease (st : Start) (t : Nat) (s : State) : Host.Outcome State Fault Refusal := .next (porstNRelease st t s)

/-- RESET_N_LOW at `t`: ignored while PORST_N is low. -/
def resetNLow (t : Nat) (s : State) : State :=
  let s := s.at t
  if bit s.pow.hold 0 ∨ bit s.pow.hold 1 then s else s.holdMain 1 true

def execResetNLow (t : Nat) (s : State) : Host.Outcome State Fault Refusal := .next (resetNLow t s)

/-- RESET_N_RELEASE at `t`. -/
def resetNRelease (st : Start) (t : Nat) (s : State) : State :=
  let s := s.at t
  if bit s.pow.hold 0 ∨ !bit s.pow.hold 1 then s else s.releaseMain st 1 2

def execResetNRelease (st : Start) (t : Nat) (s : State) : Host.Outcome State Fault Refusal := .next (resetNRelease st t s)

/-- CLOCK_FAULT at `t`: the main domain is held; island A raises reason 0x47 and drives a warm reset. -/
def clockFault (t : Nat) (s : State) : State :=
  let s := s.at t
  let s := (s.setF CLK_STATUS ckLOCK 0).holdMain 3 false
  if s.islandServes false then s.raiseSafe 7 else s

def execClockFault (t : Nat) (s : State) : Host.Outcome State Fault Refusal := .next (clockFault t s)

/-! The power limiter and the core rails (18 R469, R471). -/

/-- PWR_DIV after a sample: slower above 90 % of the cap, at most once a second; faster after 5 s below 75 %. -/
def State.limitPower (s : State) (sum : Nat) : State :=
  let cap := s.getF PWR_STATUS pwCAP
  let d := s.pow.pwrNext.getD (s.getF CLK_STATUS ckPWR)
  let rest := match s.pow.pwrAt with
    | some a => decide (a + sec 1 ≤ s.now)
    | none => true
  let low := decide (sum < 75 * cap * 100)
  let since := if low then some (s.pow.lowSince.getD s.now) else none
  let s : State := { s with pow := { s.pow with lowSince := since } }
  if 90 * cap * 100 < sum ∧ d < 8 ∧ rest = true then
    { s with pow := { s.pow with pwrNext := some (slower d), pwrAt := some s.now } }
  else match since with
    | some a =>
      if a + sec 5 ≤ s.now ∧ 4 < d then
        { s with pow := { s.pow with pwrNext := some (faster d), pwrAt := some s.now, lowSince := some s.now } }
      else s
    | none => s

/-- POWER_LIMITER_SAMPLE at `t`: `mw` of J1 power, `ma` of VBUS current; the mean is that of the last 100 samples. -/
def powerLimiterSample (mw ma t : Nat) (s : State) : State :=
  let s := s.at t
  let l := (mw :: s.pow.samples).take 100
  let sum := l.foldl (fun n v => n + v) 0
  let s : State := { s with pow := { s.pow with samples := l, winSum := s.pow.winSum + mw, winN := s.pow.winN + 1 } }
  let s := (s.setF PWR_STATUS pwIBUS (min ma 0xFFFF)).setF PWR_STATUS pwPOWER (min (sum / (100 * l.length)) 0xFFFF)
  if l.length = 100 then s.limitPower sum else s

def execPowerLimiterSample (mw ma t : Nat) (s : State) : Host.Outcome State Fault Refusal :=
  .next (powerLimiterSample mw ma t s)

/-- VOLTAGE_RAMP at `t`: island A raises each core-rail target to what a pending change needs, or lowers it to what the
divider and trim in force need. -/
def voltageRamp (t : Nat) (s : State) : State :=
  let s := s.at t
  if s.islandServes false then s.setRails else s

def execVoltageRamp (t : Nat) (s : State) : Host.Outcome State Fault Refusal := .next (voltageRamp t s)

end Sys2Proof.Machine
end

