-- ==== Sys2Proof/Machine/ThermalCmds.lean ====
section
/-! DEFINITION. Thermal control, coolant loss and ageing (18 R481 to R487). -/

namespace Sys2Proof.Machine

/-! Sensors (18 R481). -/

/-- A reading in 0.1 °C, none where the sensor reports no value (0x8000) or a value outside −55 °C to 150 °C. -/
def reading (v : Nat) : Option Int :=
  let x := signedOf 16 (v % 65536)
  if v % 65536 = 0x8000 ∨ x < -550 ∨ 1500 < x then none else some x

/-- Twice the median of a list, zero for none: the middle value, or the sum of the two middle ones. -/
def median2 (l : List Int) : Int :=
  let m := l.insertionSort (fun a b => a ≤ b)
  m.getD ((l.length - 1) / 2) 0 + m.getD (l.length / 2) 0

/-- Sensor `i` of the eight readings `l`: none where it is invalid. -/
def judgeSensor (l : List Nat) (i : Nat) : Option Int :=
  match reading (l.getD i 0x8000) with
  | none => none
  | some x =>
    let others := ((List.range 8).filter (fun k => decide (k ≠ i))).filterMap (fun k => reading (l.getD k 0x8000))
    if others ≠ [] ∧ 300 < (2 * x - median2 others).natAbs then none else some x

/-- Show the sensors of die `d`; a sensor that has become invalid is counted (log 88). -/
def State.showSensors (s : State) (d : Nat) (l : List Nat) : State :=
  (List.range 8).foldl (fun (s : State) i =>
    match judgeSensor l i with
    | some x => s.setF (THERM d (i / 4)) (thS (i % 4)) (x % 65536).toNat
    | none => (if (s.sensor d i).isSome then s.noBin else s).setF (THERM d (i / 4)) (thS (i % 4)) 0x8000) s

/-- The coldest valid sensor of die `d`. -/
def State.coldest (s : State) (d : Nat) : Option Int :=
  (List.range 8).foldl (fun m i => match m, s.sensor d i with
    | some a, some b => some (min a b)
    | some a, none => some a
    | none, b => b) none

/-- Bin of a temperature in the histograms of 13 R369. -/
def thermBin (x : Int) : Nat := min 63 ((x + 400) / 25).toNat

/-- Sillage: the extremes of each die; once a second, the histogram of its hottest sensor. -/
def State.thermSillage (s : State) : State :=
  let due := decide (s.pow.histAt + sec 1 ≤ s.now)
  let s : State := (List.range 21).foldl (fun (s : State) d =>
    match s.coldest d, s.hottest d with
    | some lo, some hi =>
      let s := (s.extreme d lo).extreme d hi
      if due then s.sil1 (254 + d) (thermBin hi) else s
    | _, _ => s) s
  if due then { s with pow := { s.pow with histAt := s.now } } else s

/-! THERM_DIV and reason 0x44 (18 R482). -/

/-- An instant of a run: the run goes on while `c` holds. -/
def runSince (c : Bool) (old : Option Nat) (now : Nat) : Option Nat := if c then some (old.getD now) else none

/-- A run has lasted `d` ns. -/
def lasted (r : Option Nat) (d now : Nat) : Bool :=
  match r with
  | some a => decide (a + d ≤ now)
  | none => false

/-- No step of THERM_DIV in the last `d` ns. -/
def State.thermRest (s : State) (d : Nat) : Bool :=
  match s.pow.thermAt with
  | some a => decide (a + d ≤ s.now)
  | none => true

/-- A step of THERM_DIV for the next event. -/
def State.thermStep (s : State) (d : Nat) : State :=
  { s with pow := { s.pow with thermNext := some d, thermAt := some s.now } }

/-- Island A's thermal control after a sample with device Tj `tj`. -/
def State.thermControl (s : State) (tj : Int) : State :=
  let d := s.pow.thermNext.getD (s.getF CLK_STATUS ckTHERM)
  let b100 := runSince (decide (tj < 1000)) s.pow.below100 s.now
  let b110 := runSince (decide (tj ≤ 1100)) s.pow.below110 s.now
  let tick := decide (s.pow.msAt + ms 1 ≤ s.now)
  let hot := if tick then (if 1050 ≤ tj then min 10 (s.pow.hot + 1) else 0) else s.pow.hot
  let at' := if tick then s.now else s.pow.msAt
  let s : State := { s with pow := { s.pow with below100 := b100, below110 := b110, hot := hot, msAt := at' } }
  let s := if 1150 < tj then s.raiseSafe 4 else if lasted b110 (sec 10) s.now then s.clearSafe 4 else s
  if tick ∧ hot = 10 ∧ d < 8 ∧ s.thermRest (sec 1) then s.thermStep (slower d)
  else if lasted b100 (sec 5) s.now ∧ 4 < d ∧ s.thermRest (sec 5) then s.thermStep (faster d)
  else s

/-- THERMAL_SAMPLE at `t`: `vals` are the 168 readings, eight for each die. -/
def thermalSample (vals : List Nat) (t : Nat) (s : State) : State :=
  let s := s.at t
  let s : State := (List.range 21).foldl (fun (s : State) d => s.showSensors d ((vals.drop (8 * d)).take 8)) s
  let s := if s.pow.good ∧ s.pow.hold = 0 then s.thermSillage else s
  let s := if s.islandServes false then s.thermControl s.deviceTj else s
  match s.hottest 20 with
  | some x => if 1150 < x then s.withdrawGuest 7 else s
  | none => s

def execThermalSample (vals : List Nat) (t : Nat) (s : State) : Host.Outcome State Fault Refusal :=
  .next (thermalSample vals t s)

/-! Trips (18 R483). -/

/-- THERMAL_TRIP of die `d` at `t`: a main-domain sensor, or an island's own Tj, reads at least 125 °C. -/
def thermalTrip (d t : Nat) (s : State) : State :=
  let s := s.at t
  if d ≤ 16 then (({ s with pow := { s.pow with below100 := none } }).holdMain 2 false).setF RST_STATUS rtCAUSE 4
  else if d = 17 then s.failIsland false
  else if d = 18 then s.failIsland true
  else s

def execThermalTrip (d t : Nat) (s : State) : Host.Outcome State Fault Refusal := .next (thermalTrip d t s)

/-- TRIP_RELEASE at `t`: the device Tj has stayed below 100 °C for 10 s. -/
def tripRelease (st : Start) (t : Nat) (s : State) : State :=
  let s := s.at t
  if bit s.pow.hold 2 ∧ s.islandServes false ∧ lasted s.pow.below100 (sec 10) s.now then
    (s.beginWarm false).releaseMain st 2 4
  else s

def execTripRelease (st : Start) (t : Nat) (s : State) : Host.Outcome State Fault Refusal := .next (tripRelease st t s)

/-! Coolant loss (18 R484, R485). -/

/-- Power `p` differs from `q` by less than 10 %. -/
def near10 (p q : Nat) : Bool := decide (10 * ((p : Int) - (q : Int)).natAbs < q)

/-- The sum of the base dies' Tj in 0.1 °C, from −55 °C each. -/
def State.baseSum (s : State) : Int := (List.range 4).foldl (fun n b => n + (s.dieTj b).getD 0) 0

/-- In 60 s the mean has fallen by 5 °C while power stayed within 10 %: `w` are the windows before, newest first, as
(sum + 4 · 55 °C, mean power). -/
def fell5 (sum pw : Nat) (w : List (Nat × Nat)) : Bool :=
  (List.range (min 60 w.length)).any (fun k =>
    let (s0, p0) := w.getD k (0, 0)
    decide (sum + 200 ≤ s0) && near10 pw p0 && (w.take k).all (fun (_, p) => near10 p p0))

/-- The coolant state after a window that rose by `rise` (0.1 °C, sum of four dies), `like` where its power is like the one
before. -/
def State.coolNext (s : State) (rise : Int) (like : Bool) (sum pw : Nat) (before : List (Nat × Nat)) : State :=
  match s.getF COOL_STATUS coSTATE with
  | 2 =>
    if fell5 sum pw before then
      ({ s with pow := { s.pow with quietSince := some s.now } }).setF COOL_STATUS coSTATE 3
    else s
  | 3 =>
    if 4 < rise then { s with pow := { s.pow with quietSince := some s.now } }
    else if lasted s.pow.quietSince (sec 60) s.now then
      (({ s with pow := { s.pow with quietSince := none } }).setF COOL_STATUS coSTATE 0).askMode 1 (s.now + ms 3)
    else s
  | _ =>
    if 12 < rise ∧ like then
      let n := s.pow.rising + 1
      let s : State := { s with pow := { s.pow with rising := n } }
      if 3 ≤ n then
        (({ s with pow := { s.pow with rising := 0 } }).setF COOL_STATUS coSTATE 2).askMode 3 s.now
      else s.setF COOL_STATUS coSTATE 1
    else ({ s with pow := { s.pow with rising := 0 } }).setF COOL_STATUS coSTATE 0

/-- COOLANT_WINDOW: a window of 1 s ends at `t`. -/
def coolantWindow (t : Nat) (s : State) : State :=
  let s := s.at t
  if !s.islandServes false then s
  else
    let sum := (s.baseSum + 2200).toNat
    let pw := s.pow.winSum / max 1 s.pow.winN
    let before := s.pow.windows
    let s : State := { s with pow := { s.pow with windows := ((sum, pw) :: before).take 61, winSum := 0, winN := 0 } }
    match before with
    | [] => s
    | (s0, p0) :: _ =>
      let rise : Int := (sum : Int) - (s0 : Int)
      (s.setF COOL_STATUS coRISE ((rise * 10 / 4) % 65536).toNat).coolNext rise (near10 pw p0) sum pw before

def execCoolantWindow (t : Nat) (s : State) : Host.Outcome State Fault Refusal := .next (coolantWindow t s)

/-! Ageing (18 R486, R487). -/

/-- AGE of die `d` is measured: the trim that the next event brings, LIMIT. -/
def State.ageDie (s : State) (d age : Nat) : State :=
  let age := min age 0xFFFF
  let s := s.setF (TRIM d) tmAGE age
  if 17 ≤ d then s
  else
    let n := s.trimAfter d
    let s := if n = 12 ∧ 650 ≤ age ∧ !s.flag (TRIM d) tmLIMIT then (s.setF (TRIM d) tmLIMIT 1).noBin else s
    if n < min 12 (age / 50) then
      { s with pow := { s.pow with trimNext := Tab.insert s.pow.trimNext d (n + 1) }, cal := { s.cal with dirty := true } }
    else s

/-- AGEING_MEASURE at `t`: every 3,600 s while the main domain runs; `ages` are the measured falls of the dies in 0.01 %. -/
def ageingMeasure (ages : List Nat) (t : Nat) (s : State) : State :=
  let s := s.at t
  if s.islandServes false ∧ s.pow.good ∧ s.pow.hold = 0 ∧ s.pow.ageAt + sec 3600 ≤ s.now then
    let s : State := { s with pow := { s.pow with ageAt := s.now } }
    (List.range 21).foldl (fun (s : State) d => s.ageDie d (ages.getD d 0)) s
  else s

def execAgeingMeasure (ages : List Nat) (t : Nat) (s : State) : Host.Outcome State Fault Refusal :=
  .next (ageingMeasure ages t s)

end Sys2Proof.Machine
end

