-- ==== Sys2Proof/Machine/FusionOps.lean ====
section
/-! DEFINITION. What the fusion job decides and Sillage counts (08 R213 to R214, R224 to R226): late samples, sector votes and
the capability level. The job is software of the cells; no command of the table reports its decisions, so these are operations
that no command calls (log 60). -/

namespace Sys2Proof.Machine

/-! Late samples (08 R214). -/

/-- A frame of camera `n` whose last line landed at `landed` is late for the selection cut at `cut`: its lateness is counted. -/
def State.cameraSample (s : State) (n landed cut : Nat) : State :=
  if landed ≤ cut then s else s.sil1 (205 + n) (min 63 ((landed - cut) / ms 1))

/-- What a sample of a stream is against the newest selected for a result given out: both capture times in ns. -/
inductive SampleAge where
  | fresh | late | restart
  deriving DecidableEq, Repr

def sampleAge (capture selected : Nat) : SampleAge :=
  if selected ≤ capture then .fresh else if selected - capture ≤ sec 1 then .late else .restart

/-- A sample of stream `n` with its capture time arrives; `selected` is the capture time last selected, `cut` the first cut
that selected a newer sample. A restart of the sensor's clock is counted apart. -/
def State.streamSample (s : State) (n capture selected arrival cut : Nat) : State :=
  match sampleAge capture selected with
  | .fresh => s
  | .late => s.sil1 (221 + n) (min 63 ((arrival - cut) / ms 1))
  | .restart => s.event 22

/-! Sector votes (08 R224, R225). -/

/-- A sensor in one sector in one frame: its index, its rings, its evidence summary, whether its mask has the sector and its
frame or stream is used, and its dissent history with whether it is voted out. -/
structure SectorVote where
  sensor : Nat
  rings : Nat
  evidence : Nat
  present : Bool
  hist : Nat := 0
  out : Bool := false
  deriving DecidableEq, Repr

/-- Two sensors disagree over the rings within both ranges. -/
def SectorVote.disagrees (disT : Nat) (a b : SectorVote) : Bool :=
  decide (disT < popCount 16 ((a.evidence ^^^ b.evidence) % 2 ^ min a.rings b.rings))

/-- The sensor covers the sector. -/
def SectorVote.covers (v : SectorVote) : Bool := v.present && !v.out

/-- The sensor dissents from those that cover the sector: a strict majority of the others, and at least two of them. -/
def SectorVote.dissents (disT : Nat) (all : List SectorVote) (v : SectorVote) : Bool :=
  let cover := all.filter SectorVote.covers
  let others := cover.filter (fun w => decide (w.sensor ≠ v.sensor))
  let n := (others.filter (v.disagrees disT)).length
  v.present && decide (3 ≤ cover.length ∧ 2 ≤ n ∧ others.length < 2 * n)

/-- The sensor after the frame: voted out at 5 dissents of its last 8 frames, readmitted at 1 or none. -/
def SectorVote.next (disT : Nat) (all : List SectorVote) (v : SectorVote) : SectorVote :=
  let h := (2 * v.hist + b2n (v.dissents disT all)) % 256
  { v with hist := h, out := if v.out then decide (1 < popCount 8 h) else decide (5 ≤ popCount 8 h) }

/-- One sector of one frame: every sensor's vote, the vote-outs and readmissions counted (13 R369). -/
def State.sectorFrame (s : State) (disT : Nat) (all : List SectorVote) : State × List SectorVote :=
  let after := all.map (SectorVote.next disT all)
  ((all.zip after).foldl (fun s (a, b) =>
    if a.out = b.out then s else s.sil1 380 (2 * a.sensor + b2n a.out)) s, after)

/-! Capability (08 R226). -/

/-- The level of a sector with `n` covering sensors, of which two disagree in 5 of their last 8 frames where `pair` says so. -/
def sectorLevel (front : Bool) (n : Nat) (pair : Bool) : Nat :=
  let base := if 3 ≤ n then 0 else if n = 2 ∧ !pair then 0 else if 1 ≤ n then 1 else 2
  if front ∧ n < 3 then base + 1 else base

/-- The level in force, and the level that the last frames produced with their number. -/
structure CapRun where
  level : Nat := 0
  made : Nat := 0
  frames : Nat := 0
  deriving DecidableEq, Repr

/-- A frame that produces `p`: a higher level takes effect at once, a lower one once 40 frames in a row have produced it. -/
def CapRun.frame (c : CapRun) (p : Nat) : CapRun :=
  let n := if c.made = p ∧ 0 < c.frames then min 40 (c.frames + 1) else 1
  { level := if c.level ≤ p ∨ n = 40 then p else c.level, made := p, frames := n }

end Sys2Proof.Machine
end

