-- ==== Sys2Proof/Machine/TrackFilter.lean ====
section
/-! DEFINITION. The Track engine's filter (08 R228, R229, R231): prediction, gate distance, update, forecast. Each is computed
in binary64 by its definition and leaves as FP32 up to rounding (log 82). A state is x, y, v_x, v_y, a_x, a_y; a covariance
its 21 upper-triangle values row by row. -/

namespace Sys2Proof.Machine

/-- Where entry `(i, j)` of a symmetric 6 × 6 matrix stands in its upper triangle. -/
def triIdx (i j : Nat) : Nat := min i j * (13 - min i j) / 2 + (max i j - min i j)

/-- Entry `(i, j)`. -/
def triAt (p : List Nat) (i j : Nat) : Nat := p.getD (triIdx i j) 0

/-- A symmetric matrix from its entries. -/
def triOf (g : Nat → Nat → Nat) : List Nat :=
  (List.range 6).flatMap (fun i => (List.range (6 - i)).map (fun k => g i (i + k)))

/-- The factor of the state's entry `i + 2 n` in what entry `i` becomes after `t` s: 1, t, t²/2 by constant acceleration
(`deg` 2), and without the last by constant velocity (`deg` 1). -/
def moveFactor (deg t n : Nat) : Nat :=
  if deg < n then 0 else if n = 0 then fp64.rat 1 1 else if n = 1 then t else fp64.div (fp64.mul t t) (fp64.rat 2 1)

/-- The indices that entry `i` draws on. -/
def moveIdx (i : Nat) : List Nat := (List.range 3).filter (fun n => decide (i + 2 * n < 6))

/-- The state after `t` s. -/
def moveState (deg t : Nat) (x : List Nat) : List Nat :=
  (List.range 6).map (fun i => fp64.sum ((moveIdx i).map (fun n => fp64.mul (moveFactor deg t n) (x.getD (i + 2 * n) 0))))

/-- `t` to the power `n`. -/
def pow64 (t : Nat) : Nat → Nat
  | 0 => fp64.rat 1 1
  | n + 1 => fp64.mul (pow64 t n) t

/-- The process noise of white jerk of spectral density `q` over `t` s between entries `i` and `j`. -/
def jerkNoise (q t i j : Nat) : Nat :=
  let a := i / 2
  let b := j / 2
  let fact := fun (n : Nat) => if n = 2 then 2 else 1
  if i % 2 = j % 2 then
    fp64.div (fp64.mul q (pow64 t (5 - a - b))) (fp64.rat (fact (2 - a) * fact (2 - b) * (5 - a - b) : Nat) 1)
  else 0

/-- The covariance after `t` s with noise `q`. -/
def moveCov (deg q t : Nat) (p : List Nat) : List Nat :=
  triOf (fun i j =>
    fp64.add (fp64.sum ((moveIdx i).flatMap (fun m => (moveIdx j).map (fun n =>
      fp64.mul (fp64.mul (moveFactor deg t m) (moveFactor deg t n)) (triAt p (i + 2 * m) (j + 2 * n))))))
      (jerkNoise q t i j))

/-- A track predicted by `d` frames of 25 ms under constant acceleration with noise from Q_ACC: state, then covariance. -/
def trkPredict (d q : Nat) (x : List Nat) : List Nat :=
  let t := fp64.rat d 40
  let v := x.map fp64.of32
  nearAll 5 (d :: q :: x) (moveState 2 t (v.take 6) ++ moveCov 2 (fp64.of32 q) t (v.drop 6))

/-- The inverse of the symmetric 2 × 2 matrix `(a, b; b, c)`. -/
def inv2 (a b c : Nat) : Nat × Nat × Nat :=
  let det := fp64.minus (fp64.mul a c) (fp64.mul b b)
  (fp64.div c det, fp64.neg (fp64.div b det), fp64.div a det)

/-- S = P + R of a measurement of entries `o` and `o + 1`, with ν; `z` the measured values, `r` r_xx, r_xy, r_yy. -/
structure Innov where
  nu : Nat × Nat
  s : Nat × Nat × Nat

def innov (o : Nat) (x p z r : List Nat) : Innov :=
  { nu := (fp64.minus (z.getD 0 0) (x.getD o 0), fp64.minus (z.getD 1 0) (x.getD (o + 1) 0)),
    s := (fp64.add (triAt p o o) (r.getD 0 0), fp64.add (triAt p o (o + 1)) (r.getD 1 0),
      fp64.add (triAt p (o + 1) (o + 1)) (r.getD 2 0)) }

/-- d² = νᵀS⁻¹ν on position (08 R229). -/
def trkDist (x det : List Nat) : Nat :=
  let v := x.map fp64.of32
  let z := det.map fp64.of32
  let y := innov 0 (v.take 6) (v.drop 6) (z.take 2) (z.drop 4)
  let w := inv2 y.s.1 y.s.2.1 y.s.2.2
  near32 6 (x ++ det) (fp64.sum [fp64.mul (fp64.mul y.nu.1 y.nu.1) w.1,
    fp64.mul (fp64.rat 2 1) (fp64.mul (fp64.mul y.nu.1 y.nu.2) w.2.1), fp64.mul (fp64.mul y.nu.2 y.nu.2) w.2.2])

/-- The minimum-variance update of state and covariance by a measurement of entries `o` and `o + 1`. -/
def measure (o : Nat) (x p z r : List Nat) : List Nat × List Nat :=
  let y := innov o x p z r
  let w := inv2 y.s.1 y.s.2.1 y.s.2.2
  let gain := fun (i : Nat) =>
    let a := triAt p i o
    let b := triAt p i (o + 1)
    (fp64.add (fp64.mul a w.1) (fp64.mul b w.2.1), fp64.add (fp64.mul a w.2.1) (fp64.mul b w.2.2))
  let dot := fun (k : Nat × Nat) (a b : Nat) => fp64.add (fp64.mul k.1 a) (fp64.mul k.2 b)
  ((List.range 6).map (fun i => fp64.add (x.getD i 0) (dot (gain i) y.nu.1 y.nu.2)),
   triOf (fun i j => fp64.minus (triAt p i j) (dot (gain i) (triAt p o j) (triAt p (o + 1) j))))

/-- A track updated with a detection's position, and with its velocity where `vel` says that it is valid. -/
def trkUpdate (x det : List Nat) (vel : Bool) : List Nat :=
  let v := x.map fp64.of32
  let z := det.map fp64.of32
  let a := measure 0 (v.take 6) (v.drop 6) (z.take 2) (z.drop 4)
  let a := if vel then measure 2 a.1 a.2 ((z.drop 2).take 2) ((Config.trkVelNoise det).map fp64.of32) else a
  nearAll 7 (vel.toNat :: x ++ det) (a.1 ++ a.2)

/-- The covariance of a new track: the variance of a velocity that the detection does not give is `p0`. -/
def trkBirthCov (det : List Nat) (vel : Bool) (p0 : Nat) : List Nat :=
  let c := Config.trkBirthCov (vel.toNat :: det) p0
  (List.range 21).map (fun k => if !vel && (decide (k = 11) || decide (k = 15)) then p0 else c.getD k 0)

/-- x, y, v_x, v_y and P_xx, P_yy at the horizon `t` (FP32): constant acceleration to 1.0 s, then constant velocity. -/
def trkForecast (q : Nat) (x : List Nat) (t : Nat) : List Nat :=
  let v := x.map fp64.of32
  let t64 := fp64.of32 t
  let one := fp64.rat 1 1
  let near := fp64.min t64 one
  let st := moveState 2 near (v.take 6)
  let p := moveCov 2 (fp64.of32 q) near (v.drop 6)
  let far := fp64.lt one t64
  let rest := fp64.minus t64 one
  let st := if far then moveState 1 rest st else st
  let c := Config.trkFarCov (q :: x) t
  let p := if far then
      let p := moveCov 1 0 rest p
      [fp64.add (triAt p 0 0) (fp64.of32 c.1), fp64.add (triAt p 1 1) (fp64.of32 c.2)]
    else [triAt p 0 0, triAt p 1 1]
  nearAll 8 (t :: q :: x) (st.take 4 ++ p)

end Sys2Proof.Machine
end

