-- ==== Sys2Proof/Machine/TrackEngine.lean ====
section
/-! DEFINITION. The Track engine: UPDATE, FORECAST, DELETE and its registers (08 R227 to R236). -/

namespace Sys2Proof.Machine

def State.track (s : State) (n : Nat) : Track := Tab.get {} s.tracks n
def State.setTrack (s : State) (n : Nat) (x : Track) : State := { s with tracks := Tab.set {} s.tracks n x }

/-- A field where zero selects a default (08 R227). -/
def orDefault (d v : Nat) : Nat := if v = 0 then d else v

/-! The command block (08 R227). -/

def tbOpc (b : List Nat) : Nat := fieldAt b 0 1
def tbBlotter (b : List Nat) : Bool := bit (fieldAt b 1 1) 0
def tbSeq (b : List Nat) : Nat := fieldAt b 2 2
def tbNdet (b : List Nat) : Nat := fieldAt b 4 2
def tbM (b : List Nat) : Nat := orDefault 3 (fieldAt b 6 1)
def tbN (b : List Nat) : Nat := orDefault 5 (fieldAt b 7 1)
def tbK (b : List Nat) : Nat := orDefault 5 (fieldAt b 8 1)
def tbKT (b : List Nat) : Nat := orDefault 2 (fieldAt b 9 1)
def tbGate (b : List Nat) : Nat := orDefault 0x41135C29 (fieldAt b 0xC 4)
def tbEps (b : List Nat) : Nat := orDefault 0x3C23D70A (fieldAt b 0x10 4)
def tbQAcc (b : List Nat) : Nat := orDefault 0x3F000000 (fieldAt b 0x14 4)
def tbCovMax (b : List Nat) : Nat := orDefault 0x42C80000 (fieldAt b 0x18 4)
def tbP0 (b : List Nat) : Nat := orDefault 0x42C80000 (fieldAt b 0x1C 4)
def tbOut (b : List Nat) : Nat := fieldAt b 0x28 8
def tbInfl (b : List Nat) : Nat := orDefault 0x40000000 (fieldAt b 0x3C 4)

def trackBlockOk (b : List Nat) : Bool :=
  let o := tbOpc b
  decide (1 ≤ o ∧ o ≤ 3) && decide (fieldAt b 1 1 < 2) && decide (tbNdet b ≤ 4096) &&
  decide (tbM b ≤ 8 ∧ tbM b ≤ tbN b ∧ tbN b ≤ 8) && zeroBytes b 0xA 2 && addrField b 0x20 1 && addrField b 0x28 1 &&
  zeroBytes b 0x32 2 && zeroBytes b 0x39 3 && zeroBytes b 0x60 32 &&
  (decide (o ≠ 2) || (decide (1 ≤ fieldAt b 0x38 1 ∧ fieldAt b 0x38 1 ≤ 8) &&
    (List.range (fieldAt b 0x38 1)).all (fun k =>
      let t := fieldAt b (0x40 + 4 * k) 4
      f32Lt 0 t && f32Le t 0x41000000)))

/-- A detection: x, y, vx, vy, r_xx, r_xy, r_yy as FP32, its class, whether the velocity is valid. -/
structure Det where
  v : List Nat
  cls : Nat
  vel : Bool
  deriving DecidableEq, Repr

def parseDet (l : List Nat) (j : Nat) : Det :=
  { v := (List.range 7).map (fun k => fieldAt l (32 * j + 4 * k) 4), cls := fieldAt l (32 * j + 28) 1,
    vel := bit (fieldAt l (32 * j + 29) 1) 0 }

def Det.x (d : Det) : Nat := d.v.getD 0 0
def Det.y (d : Det) : Nat := d.v.getD 1 0
def f32Sector (x y : Nat) : Nat := sectorOf (fp32.decode x) (fp32.decode y)

/-- The neighbouring sectors a point within 2.0 m of a boundary is offered to as well (08 R229). -/
def nearSectors (x y : Num) : List Nat :=
  let s := sectorOf x y
  let e := min (min x.expOf y.expOf) 0
  let px := numOver e x
  let py := numOver e y
  let near := fun (k : Nat) =>
    let d := sectorDir (k % 16)
    decide (((d.1 * py - d.2 * px).natAbs : Int) ≤ 2 * 2 ^ 55 * 2 ^ (-e).toNat)
  (if near s then [(s + 15) % 16] else []) ++ (if near (s + 1) then [(s + 1) % 16] else [])

/-! The auction (08 R229). -/

structure Auction where
  price : Tab Nat := []
  owner : Tab (Option Nat) := []
  parked : List Nat := []
  bids : Nat := 0
  capped : Bool := false
  deriving DecidableEq, Repr

/-- The track that owns detection `j`. -/
def Auction.own (a : Auction) (j : Nat) : Option Nat := Tab.get none a.owner j

/-- The largest value and its detection, lowest on ties. -/
def bestOf : List (Nat × Nat) → Option (Nat × Nat)
  | [] => none
  | (j, v) :: t =>
    match bestOf t with
    | none => some (j, v)
    | some (k, w) => if f32Lt v w then some (k, w) else some (j, v)

/-- Assignment by auction: `ts` the tracks of the sector in ascending index, `ds` its detections, `d2` the gate
distances. -/
def auction (gate eps : Nat) (ts ds : List Nat) (d2 : Nat → Nat → Nat) : Nat → Auction → Auction
  | 0, a => a
  | fuel + 1, a =>
    match ts.find? (fun i => !a.parked.contains i && !ds.any (fun j => decide (a.own j = some i))) with
    | none => a
    | some i =>
      if a.bids = 16384 then { a with capped := true }
      else
        let vals := (ds.filter (fun j => f32Le (d2 i j) gate)).map (fun j =>
          (j, f32Sub (f32Sub gate (d2 i j)) (Tab.get 0 a.price j)))
        match bestOf vals with
        | none => auction gate eps ts ds d2 fuel { a with parked := i :: a.parked }
        | some (j, v1) =>
          let v2 := match bestOf (vals.filter (fun p => decide (p.1 ≠ j))) with
            | some (_, v) => if f32Lt 0 v then v else 0
            | none => 0
          if f32Le v1 0 then auction gate eps ts ds d2 fuel { a with parked := i :: a.parked }
          else
            auction gate eps ts ds d2 fuel
              { a with price := Tab.set 0 a.price j (f32Add (Tab.get 0 a.price j) (f32Add (f32Sub v1 v2) eps)),
                       owner := Tab.set none a.owner j (some i), bids := a.bids + 1 }

/-- What association found: the track of each assigned detection, tracks and detections in excess, flags. -/
structure Assoc where
  pairs : List (Nat × Nat) := []
  exTracks : List Nat := []
  exDets : List Nat := []
  overflow : Bool := false
  bidcap : Bool := false
  bids : Nat := 0
  deriving DecidableEq, Repr

/-- One sector: its tracks `(context, record)` and the detections offered to it. -/
def assocSector (b : List Nat) (tracks : List (Nat × Track)) (dets : List Det) (a : Assoc) (sec : Nat) : Assoc :=
  let ts := (tracks.filter (fun (_, x) => decide (x.sector = sec))).map (·.1)
  let offered := (List.range dets.length).filter (fun j =>
    match dets[j]? with
    | none => false
    | some d =>
      let x := fp32.decode d.x
      let y := fp32.decode d.y
      (decide (sectorOf x y = sec) || (nearSectors x y).contains sec) &&
      !a.pairs.any (fun p => decide (p.2 = j)))
  let t1 := ts.take 256
  let d1 := offered.take 256
  let d2 := fun i j =>
    trkDist ((Tab.get {} tracks i : Track).st ++ (Tab.get {} tracks i : Track).cov) ((dets.getD j { v := [], cls := 0, vel := false }).v)
  let r := auction (tbGate b) (tbEps b) t1 d1 d2 20000 {}
  { pairs := a.pairs ++ d1.filterMap (fun j => (r.own j).map (fun i => (i, j))),
    exTracks := a.exTracks ++ ts.drop 256, exDets := a.exDets ++ offered.drop 256,
    overflow := a.overflow || decide (256 < ts.length) || decide (256 < offered.length),
    bidcap := a.bidcap || r.capped, bids := a.bids + r.bids }

/-! UPDATE (08 R228). -/

/-- The identifier after `v`. -/
def nextId (v : Nat) : Nat := if idExcluded ((v + 1) % 2 ^ 32) then 1 else v + 1

/-- The contexts a command acts on: tracks below 4,096, or the eight of Blotter (08 R232). -/
def trackRange (blot : Bool) : List Nat := if blot then (List.range 8).map (· + 4096) else List.range 4096

/-- Live tracks among a range of contexts. -/
def State.liveTracks (s : State) (blot : Bool) : List (Nat × Track) :=
  s.tracks.filter (fun (n, x) => decide (x.state ≠ 0) && decide ((4096 ≤ n) = (blot = true)))

def shiftHits (h d : Nat) : Nat := if 8 ≤ d then 0 else h * 2 ^ d % 256

def popcount8 (v : Nat) : Nat := (List.range 8).foldl (fun n i => n + v / 2 ^ i % 2) 0

/-- The position left the feature grid. -/
def offGrid (x y : Nat) : Bool :=
  match halfCell x 96, halfCell y 128 with
  | some r, some c => !(decide (0 ≤ r ∧ r < 512 ∧ 0 ≤ c ∧ c < 256))
  | _, _ => true

/-- Steps 2 to 6 on one live track; none where it is deleted. `det` is its detection. -/
def stepTrack (b : List Nat) (d : Nat) (excess : Bool) (det : Option Det) (x : Track) : Option Track :=
  let x := match det with
    | some e =>
      let v := trkUpdate (x.st ++ x.cov) e.v e.vel
      { x with st := v.take 6, cov := (v.drop 6).take 21, hits := shiftHits x.hits d ||| 1, misses := 0,
               lastSeq := tbSeq b, heading := Config.trkHeading v x.heading }
    | none =>
      if excess then x
      else { x with hits := shiftHits x.hits d, misses := min 255 (x.misses + d) }
  let limit := if x.state = 2 then tbK b else tbKT b
  if limit ≤ x.misses || f32Lt (tbCovMax b) (f32Add (x.cov.getD 0 0) (x.cov.getD 6 0)) ||
     offGrid (x.st.getD 0 0) (x.st.getD 1 0) then none
  else if x.state = 1 ∧ tbM b ≤ popcount8 (x.hits % 2 ^ tbN b) then some { x with state := 2 }
  else some x

/-- A tentative track of a detection. -/
def birthTrack (b : List Nat) (id : Nat) (d : Det) : Track :=
  let st := [d.x, d.y] ++ (if d.vel then [d.v.getD 2 0, d.v.getD 3 0] else [0, 0]) ++ [0, 0]
  let cov := trkBirthCov d.v d.vel (tbP0 b)
  { id := id, state := 1, sector := f32Sector d.x d.y, hits := 1, cls := d.cls, lastSeq := tbSeq b, st := st,
    cov := cov, length := (Config.trkClass d.cls).1, width := (Config.trkClass d.cls).2,
    heading := Config.trkHeading (st ++ cov) 0 }

/-- Context `n` can take a birth: its record is FREE, and a track's key-value context is FREE too or among those that this
command releases (07 R187; 08 R228). -/
def State.birthFree (s : State) (blot : Bool) (rel : List Nat) (n : Nat) : Bool :=
  decide ((s.track n).state = 0) && (blot || decide ((s.ctxOf n).kind = 0) || rel.contains n)

/-- Births in ascending detection index: the contexts taken, and whether one found none (NOBIRTH). `rel`: the contexts that
the command releases. -/
def State.births (s : State) (b rel : List Nat) : List Det → State × List (Nat × Nat × Nat) × Bool
  | [] => (s, [], false)
  | d :: t =>
    let blot := tbBlotter b
    let lim := if blot then 4104 else s.ctxSplit
    match (trackRange blot).find? (fun n => decide (n < lim) && s.birthFree blot rel n) with
    | none =>
      let (s, l, _) := s.births b rel t
      (s, l, true)
    | some n =>
      let id := if blot then 0xFFFFFFF8 + (n - 4096) else s.getF TRK_NEXT_ID tkNEXT
      let s := s.setTrack n (birthTrack b id d)
      let s := if blot then s else s.setF TRK_NEXT_ID tkNEXT (nextId id)
      let (s, l, nb) := s.births b rel t
      (s, (n, (if blot then 3 else 1), id) :: l, nb)

/-- The track list: header and one entry per live track (08 R233). -/
def trackEntry (n : Nat) (x : Track) : List Nat :=
  bytesOf 4 x.id ++ bytesOf 2 n ++ bytesOf 1 x.state ++ bytesOf 1 x.sector ++
  (List.range 6).flatMap (fun k => bytesOf 4 (x.st.getD k 0)) ++
  bytesOf 4 (x.cov.getD 0 0) ++ bytesOf 4 (x.cov.getD 1 0) ++ bytesOf 4 (x.cov.getD 6 0) ++
  bytesOf 4 x.length ++ bytesOf 4 x.width ++ bytesOf 4 x.heading ++ bytesOf 1 x.cls ++ bytesOf 1 x.hits ++
  bytesOf 1 x.misses ++ bytesOf 5 0

def trackHeader (seq : Nat) (l : List (Nat × Track)) : List Nat :=
  bytesOf 4 0x544C5354 ++ bytesOf 2 1 ++ bytesOf 2 seq ++ bytesOf 2 l.length ++
  bytesOf 2 (l.filter (fun (_, x) => decide (x.state = 2))).length ++ bytesOf 52 0

/-- The live count in TRK_STATUS (08 R235). -/
def State.showLive (s : State) : State := s.setF TRK_STATUS tkLIVE (s.liveTracks false).length

/-- The upper bits of the result (08 R234). -/
def trackResult (births dels live : Nat) (nobirth overflow bidcap : Bool) : Nat :=
  births * 2 ^ 51 + dels * 2 ^ 38 + live * 2 ^ 25 + b2n nobirth * 2 ^ 24 + b2n overflow * 2 ^ 23 + b2n bidcap * 2 ^ 22

/-- What a command of the Track engine leaves for the Attention engines. -/
structure TrkDone where
  high : Nat := 0
  frees : List Nat := []
  binds : List (Nat × Nat × Nat) := []
  deriving DecidableEq, Repr

/-- UPDATE: the changes of the records and the track list. -/
def updateRun (b : List Nat) (it : WorkItem) : Eng TrkDone := do
  let blot := tbBlotter b
  Eng.need (!blot || decide (it.queue / 256 = 63)) .kind
  let s ← get
  let last := s.getF TRK_STATUS tkLASTSEQ
  let lastV := s.flag TRK_STATUS tkLASTV
  if !blot && lastV && !newer 16 (tbSeq b) last then
    set (s.sil1 237 (min 63 (subMod 16 last (tbSeq b))))
    throw .late
  let raw ← Eng.read 62 (fieldAt b 0x20 8) (32 * tbNdet b)
  let dets := (List.range (tbNdet b)).map (parseDet raw)
  let d := if blot ∨ !lastV then 1 else subMod 16 (tbSeq b) last
  let s ← get
  let pred := (s.liveTracks blot).map (fun (n, x) =>
    let v := trkPredict d (tbQAcc b) (x.st ++ x.cov)
    (n, { x with st := v.take 6, cov := (v.drop 6).take 21,
                 sector := f32Sector (v.getD 0 0) (v.getD 1 0) }))
  let a := (List.range 16).foldl (assocSector b pred dets) {}
  let detOf := fun n => (a.pairs.find? (fun p => decide (p.1 = n))).bind (fun p => dets[p.2]?)
  let stepped := pred.map (fun (n, x) => (n, stepTrack b d (a.exTracks.contains n) (detOf n) x))
  let dels := (stepped.filter (fun (_, x) => x.isNone)).map (·.1)
  let s := stepped.foldl (fun s (n, x) => s.setTrack n (x.getD {})) s
  let free := (List.range dets.length).filter (fun j =>
    !a.pairs.any (fun p => decide (p.2 = j)) && !a.exDets.contains j)
  let (s, born, nobirth) := s.births b dels (free.filterMap (fun j => dets[j]?))
  let s := if blot then s else (s.setF TRK_STATUS tkLASTSEQ (tbSeq b)).setF TRK_STATUS tkLASTV 1
  let s := (s.showLive).setF TRK_BID_CNT cnt64 (s.getF TRK_BID_CNT cnt64 + a.bids)
  let live := s.liveTracks blot
  let s := s.progress 62 live.length
  set (if blot then s else s.extreme 72 live.length)
  Eng.write 62 (tbOut b) (byteList (trackHeader (tbSeq b) live ++ live.flatMap (fun (n, x) => trackEntry n x)))
  return { high := trackResult born.length dels.length live.length nobirth a.overflow a.bidcap, frees := dels,
           binds := born }

/-! FORECAST and DELETE (08 R231). -/

/-- The object entry of a track at a horizon. -/
def forecastEntry (b : List Nat) (t : Nat) (x : Track) : List Nat :=
  let p := trkForecast (tbQAcc b) (x.st ++ x.cov) t
  let g := fun i => p.getD i 0
  let slow := f32Lt (f32Add (f32Mul (g 2) (g 2)) (f32Mul (g 3) (g 3))) 0x3E800000
  let grow := f32Mul (tbInfl b) (f32Sqrt (f32Add (g 4) (g 5)))
  let half := fun v => f32Add (f32Mul v 0x3F000000) grow
  bytesOf 4 (g 0) ++ bytesOf 4 (g 1) ++ bytesOf 4 (if slow then x.heading else fp32.atan2 (g 3) (g 2)) ++
  bytesOf 4 (half x.length) ++ bytesOf 4 (half x.width) ++ bytesOf 12 0

def forecastRun (b : List Nat) : Eng TrkDone := do
  let s ← get
  let l := (s.liveTracks false).filter (fun (_, x) => decide (x.state = 2))
  Eng.for (fun k =>
    Eng.write 62 (tbOut b + k * 131072) (byteList (l.flatMap (fun (_, x) => forecastEntry b (fieldAt b (0x40 + 4 * k) 4) x))))
    (fieldAt b 0x38 1) 0
  return { high := trackResult 0 0 l.length false false false }

def deleteRun (b : List Nat) : Eng TrkDone := do
  let s ← get
  let n := fieldAt b 0x30 2
  let x := s.track n
  Eng.need (decide (n < 4096 ∧ x.state ≠ 0 ∧ x.id = fieldAt b 0x34 4)) .stale
  let s := (s.setTrack n {}).showLive
  set s
  return { high := trackResult 0 1 (s.liveTracks false).length false false false, frees := [n] }

/-- Ask the homes that are left for the deletions and births that are owed; once all have granted they take
effect and the command ends (08 R228, 07 R187). -/
def State.trkAdvance (s : State) (w : TrkWait) : State :=
  let names := w.frees ++ w.binds.map (·.1)
  let (s, homes, ok) := s.askHomes 62 true names w.homes
  if !ok then { s with trkWait := some { w with homes := homes } }
  else
    let s := w.frees.foldl (fun s n => s.freeCtx n) s
    let s := w.binds.foldl (fun s (n, k, id) =>
      if (s.ctxOf n).kind = 0 then s.bindCtx n k (if k = 1 then id else 0) else s) s
    s.engEnd 62 0 w.high

/-- The command of opcode `opc` that the Track engine has in progress. -/
def trackCmd (opc : Nat) (s : State) : State :=
  match s.engItem 62 with
  | none => s
  | some it =>
    if !s.engTakes it [1, 2, 3] opc || s.trkWait.isSome then s
    else
      match (do
        let b ← Eng.block 62 it.prog 128
        Eng.need (trackBlockOk b) .badCommand
        match tbOpc b with
        | 1 => updateRun b it
        | 2 => forecastRun b
        | _ => deleteRun b : Eng TrkDone).run s with
      | .error e s => s.engEnd 62 (e.code 62) 0
      | .ok r s =>
        s.trkAdvance { frees := r.frees, binds := r.binds, high := r.high,
                       homes := s.homesOf (r.frees ++ r.binds.map (·.1)) }

def execUpdate (s : State) : Host.Outcome State Fault Refusal := .next (trackCmd 1 s)
def execForecast (s : State) : Host.Outcome State Fault Refusal := .next (trackCmd 2 s)
def execDeleteTrack (s : State) : Host.Outcome State Fault Refusal := .next (trackCmd 3 s)

/-- The homes grant what the Track engine waits for. -/
def State.trkGrant (s : State) : State :=
  match s.trkWait with
  | none => s
  | some w =>
    if regsGrantable 62 [] s.ctxRegs then ({ s with trkWait := none }.grantCtx 62).trkAdvance w else s

/-- CONTEXT_GRANT: the registrations that engine `u` waits for are granted, and its command goes on: an
Attention engine's, or the Track engine's births and deletions (07 R186, 08 R228). -/
def contextGrantCmd (u : Nat) (s : State) : State := if u = 62 then s.trkGrant else contextGrant u s

def execContextGrant (u : Nat) (s : State) : Host.Outcome State Fault Refusal := .next (contextGrantCmd u s)

/-! Registers (08 R235). -/

/-- TRK_NEXT_ID_WRITE. -/
def trkNextIdWrite (who : Who) (w : Nat) (s : State) : State :=
  if who ≠ .islandA then s.refuseAccess
  else s.setF TRK_NEXT_ID tkNEXT (if idExcluded (tkNEXT.of w) then 1 else tkNEXT.of w)

def execTrkNextIdWrite (who : Who) (w : Nat) (s : State) : Host.Outcome State Fault Refusal :=
  .next (trkNextIdWrite who w s)

/-- The 256 bytes of a track record (08 R233). -/
def trackBytes (x : Track) : List Nat :=
  bytesOf 4 x.id ++ bytesOf 1 x.state ++ bytesOf 1 x.sector ++ bytesOf 1 x.misses ++ bytesOf 1 x.hits ++
  bytesOf 1 x.cls ++ bytesOf 3 0 ++ bytesOf 2 x.lastSeq ++ bytesOf 2 0 ++
  (List.range 6).flatMap (fun k => bytesOf 4 (x.st.getD k 0)) ++
  (List.range 21).flatMap (fun k => bytesOf 4 (x.cov.getD k 0)) ++ bytesOf 4 0 ++
  bytesOf 4 x.length ++ bytesOf 4 x.width ++ bytesOf 4 x.heading ++ bytesOf 116 0

/-- TRK_SEL: capture one record. Island A may write it, and the runtime of the partition in UNIT_PART. -/
def trkSel (who : Who) (w : Nat) (s : State) : State :=
  if who ≠ .islandA ∧ !s.isRuntimeOf who 62 then s.refuseAccess
  else
    let b := trackBytes (s.track (tkCTX.of w))
    let s := s.setF TRK_SEL tkCTX (tkCTX.of w)
    (List.range 32).foldl (fun s i => s.setF (TRK_D i) cnt64 (fieldAt b (8 * i) 8)) s

def execTrkSel (who : Who) (w : Nat) (s : State) : Host.Outcome State Fault Refusal := .next (trkSel who w s)

end Sys2Proof.Machine
end

