-- ==== Sys2Proof/Machine/Dispatch.lean ====
section
/-! DEFINITION. The dispatch: one arm per command (one direct call of its meaning), or its rejection by name. -/

namespace Sys2Proof.Machine

/-- The effect of a command on everything but the queue. -/
def exec (i : Instr) (s : State) : Host.Outcome State Fault Refusal :=
  match i with
  | .nop c => Sys2Proof.Machine.execNop c s
  | .loop c => Sys2Proof.Machine.execLoop c s
  | .br c => Sys2Proof.Machine.execBr c s
  | .call c => Sys2Proof.Machine.execCall c s
  | .ret c => Sys2Proof.Machine.execRet c s
  | .wait c => Sys2Proof.Machine.execWait c s
  | .post c => Sys2Proof.Machine.execPost c s
  | .bar c => Sys2Proof.Machine.execBar c s
  | .barrierRelease c => Sys2Proof.Machine.execBarrierRelease c s
  | .sadd c => Sys2Proof.Machine.execSadd c s
  | .ssub c => Sys2Proof.Machine.execSsub c s
  | .smul c => Sys2Proof.Machine.execSmul c s
  | .sand c => Sys2Proof.Machine.execSand c s
  | .sor c => Sys2Proof.Machine.execSor c s
  | .sxor c => Sys2Proof.Machine.execSxor c s
  | .sshl c => Sys2Proof.Machine.execSshl c s
  | .sshr c => Sys2Proof.Machine.execSshr c s
  | .ssra c => Sys2Proof.Machine.execSsra c s
  | .smin c => Sys2Proof.Machine.execSmin c s
  | .smax c => Sys2Proof.Machine.execSmax c s
  | .sminu c => Sys2Proof.Machine.execSminu c s
  | .smaxu c => Sys2Proof.Machine.execSmaxu c s
  | .saddi c => Sys2Proof.Machine.execSaddi c s
  | .sandi c => Sys2Proof.Machine.execSandi c s
  | .sori c => Sys2Proof.Machine.execSori c s
  | .sxori c => Sys2Proof.Machine.execSxori c s
  | .sshli c => Sys2Proof.Machine.execSshli c s
  | .sshri c => Sys2Proof.Machine.execSshri c s
  | .ssrai c => Sys2Proof.Machine.execSsrai c s
  | .sli c => Sys2Proof.Machine.execSli c s
  | .slui c => Sys2Proof.Machine.execSlui c s
  | .aadd c => Sys2Proof.Machine.execAadd c s
  | .aaddi c => Sys2Proof.Machine.execAaddi c s
  | .amov c => Sys2Proof.Machine.execAmov c s
  | .smova c => Sys2Proof.Machine.execSmova c s
  | .sld c => Sys2Proof.Machine.execSld c s
  | .ald c => Sys2Proof.Machine.execAld c s
  | .streamInstructionBegin c st => Sys2Proof.Machine.execStreamInstructionBegin c st s
  | .streamInstructionComplete c st => Sys2Proof.Machine.execStreamInstructionComplete c st s
  | .postStallRelease c st => Sys2Proof.Machine.execPostStallRelease c st s
  | .tokenStall c st t => Sys2Proof.Machine.execTokenStall c st t s
  | .ldt c ph => Sys2Proof.Machine.execLdt c ph s
  | .ldw c ph => Sys2Proof.Machine.execLdw c ph s
  | .gath c ph => Sys2Proof.Machine.execGath c ph s
  | .tzero c ph => Sys2Proof.Machine.execTzero c ph s
  | .tmma c ph => Sys2Proof.Machine.execTmma c ph s
  | .trd c ph => Sys2Proof.Machine.execTrd c ph s
  | .vadd c ph => Sys2Proof.Machine.execVadd c ph s
  | .vsub c ph => Sys2Proof.Machine.execVsub c ph s
  | .vmul c ph => Sys2Proof.Machine.execVmul c ph s
  | .vfma c ph => Sys2Proof.Machine.execVfma c ph s
  | .vmax c ph => Sys2Proof.Machine.execVmax c ph s
  | .vmin c ph => Sys2Proof.Machine.execVmin c ph s
  | .vexp c ph => Sys2Proof.Machine.execVexp c ph s
  | .vrcp c ph => Sys2Proof.Machine.execVrcp c ph s
  | .vrsq c ph => Sys2Proof.Machine.execVrsq c ph s
  | .vcmp c ph => Sys2Proof.Machine.execVcmp c ph s
  | .vsel c ph => Sys2Proof.Machine.execVsel c ph s
  | .vand c ph => Sys2Proof.Machine.execVand c ph s
  | .vor c ph => Sys2Proof.Machine.execVor c ph s
  | .vxor c ph => Sys2Proof.Machine.execVxor c ph s
  | .vmov c ph => Sys2Proof.Machine.execVmov c ph s
  | .vbcast c ph => Sys2Proof.Machine.execVbcast c ph s
  | .vld c ph => Sys2Proof.Machine.execVld c ph s
  | .vst c ph => Sys2Proof.Machine.execVst c ph s
  | .cvt c ph => Sys2Proof.Machine.execCvt c ph s
  | .cvtv c ph => Sys2Proof.Machine.execCvtv c ph s
  | .rstat c ph => Sys2Proof.Machine.execRstat c ph s
  | .rnorm c ph => Sys2Proof.Machine.execRnorm c ph s
  | .vdw c ph => Sys2Proof.Machine.execVdw c ph s
  | .stt c ph => Sys2Proof.Machine.execStt c ph s
  | .scat c ph => Sys2Proof.Machine.execScat c ph s
  | .wopen c ph => Sys2Proof.Machine.execWopen c ph s
  | .wclose c ph => Sys2Proof.Machine.execWclose c ph s
  | .ckpt c ph => Sys2Proof.Machine.execCkpt c ph s
  | .commit c ph => Sys2Proof.Machine.execCommit c ph s
  | .enq c => Sys2Proof.Machine.execEnq c s
  | .halt c => Sys2Proof.Machine.execHalt c s
  | .snapInstruction c => Sys2Proof.Machine.execSnapInstruction c s
  | .scrub c => Sys2Proof.Machine.execScrub c s
  | .rdfl c => Sys2Proof.Machine.execRdfl c s
  | .clrfl c => Sys2Proof.Machine.execClrfl c s
  | .unitReset who u w => Sys2Proof.Machine.execUnitReset who u w s
  | .jobReset who u w => Sys2Proof.Machine.execJobReset who u w s
  | .stop who u w => Sys2Proof.Machine.execStop who u w s
  | .resume who u w => Sys2Proof.Machine.execResume who u w s
  | .snap who u w => Sys2Proof.Machine.execSnap who u w s
  | .restore who u w => Sys2Proof.Machine.execRestore who u w s
  | .pload who u w => Sys2Proof.Machine.execPload who u w s
  | .workItemTake u t => Sys2Proof.Machine.execWorkItemTake u t s
  | .arrive u => Sys2Proof.Machine.execArrive u s
  | .barHart who p w => Sys2Proof.Machine.execBarHart who p w s
  | .remoteWriteArrival n => Sys2Proof.Machine.execRemoteWriteArrival n s
  | .commitArrival n => Sys2Proof.Machine.execCommitArrival n s
  | .releaseArrival n => Sys2Proof.Machine.execReleaseArrival n s
  | .generationTokenWait c win => Sys2Proof.Machine.execGenerationTokenWait c win s
  | .winCtlOpen who u win w => Sys2Proof.Machine.execWinCtlOpen who u win w s
  | .winCtlClose who u win w => Sys2Proof.Machine.execWinCtlClose who u win w s
  | .winMaskWrite who u win w => Sys2Proof.Machine.execWinMaskWrite who u win w s
  | .eccWriteBack a => Sys2Proof.Machine.execEccWriteBack a s
  | .wordTest a pass => Sys2Proof.Machine.execWordTest a pass s
  | .patrol ch corrected uncorrectable t => Sys2Proof.Machine.execPatrol ch corrected uncorrectable t s
  | .edcRetry ch a mismatches => Sys2Proof.Machine.execEdcRetry ch a mismatches s
  | .regionEntryWrite who p e lo => Sys2Proof.Machine.execRegionEntryWrite who p e lo s
  | .regionEntrySwitch point p e => Sys2Proof.Machine.execRegionEntrySwitch point p e s
  | .fillGo who w => Sys2Proof.Machine.execFillGo who w s
  | .fillDone => Sys2Proof.Machine.execFillDone s
  | .frame u t => Sys2Proof.Machine.execFrame u t s
  | .imageRowProduce u => Sys2Proof.Machine.execImageRowProduce u s
  | .lineTimeout u t => Sys2Proof.Machine.execLineTimeout u t s
  | .fwd u => Sys2Proof.Machine.execFwd u s
  | .bwd u => Sys2Proof.Machine.execBwd u s
  | .ctxBind u => Sys2Proof.Machine.execCtxBind u s
  | .ctxAppend u => Sys2Proof.Machine.execCtxAppend u s
  | .ctxCommit u => Sys2Proof.Machine.execCtxCommit u s
  | .ctxFork u => Sys2Proof.Machine.execCtxFork u s
  | .ctxRelease u => Sys2Proof.Machine.execCtxRelease u s
  | .contextGrant u => Sys2Proof.Machine.execContextGrant u s
  | .attnCfgWrite who u pool w => Sys2Proof.Machine.execAttnCfgWrite who u pool w s
  | .attnCtxSel who u w => Sys2Proof.Machine.execAttnCtxSel who u w s
  | .calibrationUpdate p t => Sys2Proof.Machine.execCalibrationUpdate p t s
  | .calibrationStoreWrite t => Sys2Proof.Machine.execCalibrationStoreWrite t s
  | .frameStartEvent t => Sys2Proof.Machine.execFrameStartEvent t s
  | .lsyncPulse n t => Sys2Proof.Machine.execLsyncPulse n t s
  | .step who w t => Sys2Proof.Machine.execStep who w t s
  | .heldStepEvent t => Sys2Proof.Machine.execHeldStepEvent t s
  | .trigFsSeqWrite who n w => Sys2Proof.Machine.execTrigFsSeqWrite who n w s
  | .echoCfgWrite who n w => Sys2Proof.Machine.execEchoCfgWrite who n w s
  | .streamStale n t => Sys2Proof.Machine.execStreamStale n t s
  | .lift u => Sys2Proof.Machine.execLift u s
  | .scatter u => Sys2Proof.Machine.execScatter u s
  | .raster u => Sys2Proof.Machine.execRaster u s
  | .update => Sys2Proof.Machine.execUpdate s
  | .forecast => Sys2Proof.Machine.execForecast s
  | .deleteTrack => Sys2Proof.Machine.execDeleteTrack s
  | .trkNextIdWrite who w => Sys2Proof.Machine.execTrkNextIdWrite who w s
  | .trkSel who w => Sys2Proof.Machine.execTrkSel who w s
  | .check u => Sys2Proof.Machine.execCheck u s
  | .finalCheck t => Sys2Proof.Machine.execFinalCheck t s
  | .drydownCompute t => Sys2Proof.Machine.execDrydownCompute t s
  | .recordEmit t => Sys2Proof.Machine.execRecordEmit t s
  | .handoverTimeout t => Sys2Proof.Machine.execHandoverTimeout t s
  | .statusFrame b t => Sys2Proof.Machine.execStatusFrame b t s
  | .push who q bytes => Sys2Proof.Machine.execPush who q bytes s
  | .swTailWrite who q off bytes => Sys2Proof.Machine.execSwTailWrite who q off bytes s
  | .qcfgHeadWrite who q w => Sys2Proof.Machine.execQcfgHeadWrite who q w s
  | .completionPush u t => Sys2Proof.Machine.execCompletionPush u t s
  | .unreadableEntry u => Sys2Proof.Machine.execUnreadableEntry u s
  | .slotBoundary u t => Sys2Proof.Machine.execSlotBoundary u t s
  | .frameSelfWrap u t => Sys2Proof.Machine.execFrameSelfWrap u t s
  | .frameStartReceive u seq t => Sys2Proof.Machine.execFrameStartReceive u seq t s
  | .deadlineExpiry u t => Sys2Proof.Machine.execDeadlineExpiry u t s
  | .admitJob p t => Sys2Proof.Machine.execAdmitJob p t s
  | .withdraw p t => Sys2Proof.Machine.execWithdraw p t s
  | .restart p t => Sys2Proof.Machine.execRestart p t s
  | .backupLaunch q n t => Sys2Proof.Machine.execBackupLaunch q n t s
  | .suspectEvaluation t => Sys2Proof.Machine.execSuspectEvaluation t s
  | .depositArrival n t => Sys2Proof.Machine.execDepositArrival n t s
  | .comparisonTimeout g t => Sys2Proof.Machine.execComparisonTimeout g t s
  | .memberErrorNotice g pos => Sys2Proof.Machine.execMemberErrorNotice g pos s
  | .resync g => Sys2Proof.Machine.execResync g s
  | .split who g w => Sys2Proof.Machine.execSplit who g w s
  | .join who g w => Sys2Proof.Machine.execJoin who g w s
  | .grow who g w => Sys2Proof.Machine.execGrow who g w s
  | .apCkptWrite who p w => Sys2Proof.Machine.execApCkptWrite who p w s
  | .latentOverdue t => Sys2Proof.Machine.execLatentOverdue t s
  | .islandSupervisionCycle b t pass => Sys2Proof.Machine.execIslandSupervisionCycle b t pass s
  | .islandHardwareFail b t => Sys2Proof.Machine.execIslandHardwareFail b t s
  | .heartbeatLoss b t => Sys2Proof.Machine.execHeartbeatLoss b t s
  | .islandReboot b t => Sys2Proof.Machine.execIslandReboot b t s
  | .handoverDecision t => Sys2Proof.Machine.execHandoverDecision t s
  | .peerRecordReceive b bytes t => Sys2Proof.Machine.execPeerRecordReceive b bytes t s
  | .islandFrameRealign b got t => Sys2Proof.Machine.execIslandFrameRealign b got t s
  | .failureDetectorSample t => Sys2Proof.Machine.execFailureDetectorSample t s
  | .fence who u => Sys2Proof.Machine.execFence who u s
  | .unfence who u => Sys2Proof.Machine.execUnfence who u s
  | .unitReinit u pass => Sys2Proof.Machine.execUnitReinit u pass s
  | .blotterEntry u t ok => Sys2Proof.Machine.execBlotterEntry u t ok s
  | .blotterExtra u t ok => Sys2Proof.Machine.execBlotterExtra u t ok s
  | .quarantineEvaluation e busy total t => Sys2Proof.Machine.execQuarantineEvaluation e busy total t s
  | .quarantineTableWrite t => Sys2Proof.Machine.execQuarantineTableWrite t s
  | .modeRequest p t => Sys2Proof.Machine.execModeRequest p t s
  | .drydown p t => Sys2Proof.Machine.execDrydown p t s
  | .safeEnter p t => Sys2Proof.Machine.execSafeEnter p t s
  | .safeClear p t => Sys2Proof.Machine.execSafeClear p t s
  | .unitResetRequest p t => Sys2Proof.Machine.execUnitResetRequest p t s
  | .warmResetRequest p t => Sys2Proof.Machine.execWarmResetRequest p t s
  | .warmReset st t => Sys2Proof.Machine.execWarmReset st t s
  | .quarSel who w => Sys2Proof.Machine.execQuarSel who w s
  | .freeze who w t => Sys2Proof.Machine.execFreeze who w t s
  | .freezeTimeout t => Sys2Proof.Machine.execFreezeTimeout t s
  | .nonceRequest who w t => Sys2Proof.Machine.execNonceRequest who w t s
  | .sillageClear who w t => Sys2Proof.Machine.execSillageClear who w t s
  | .nonceExpiry t => Sys2Proof.Machine.execNonceExpiry t s
  | .sillagePersist t => Sys2Proof.Machine.execSillagePersist t s
  | .flcPulse t => Sys2Proof.Machine.execFlcPulse t s
  | .lineFault on t => Sys2Proof.Machine.execLineFault on t s
  | .speedUpdate t => Sys2Proof.Machine.execSpeedUpdate t s
  | .plausibilitySample t => Sys2Proof.Machine.execPlausibilitySample t s
  | .flcOdoWrite who w => Sys2Proof.Machine.execFlcOdoWrite who w s
  | .mirrorRefresh t => Sys2Proof.Machine.execMirrorRefresh t s
  | .sign who w t => Sys2Proof.Machine.execSign who w t s
  | .openSession who w t => Sys2Proof.Machine.execOpenSession who w t s
  | .setK who w t => Sys2Proof.Machine.execSetK who w t s
  | .reseal who w t => Sys2Proof.Machine.execReseal who w t s
  | .fwUpdate who w t => Sys2Proof.Machine.execFwUpdate who w t s
  | .closeSession who w t => Sys2Proof.Machine.execCloseSession who w t s
  | .block who w t => Sys2Proof.Machine.execBlock who w t s
  | .sessionTimeout t => Sys2Proof.Machine.execSessionTimeout t s
  | .debugOpenSeal t => Sys2Proof.Machine.execDebugOpenSeal t s
  | .flaconPowerOn t => Sys2Proof.Machine.execFlaconPowerOn t s
  | .vanaFall t => Sys2Proof.Machine.execVanaFall t s
  | .nonce who w t => Sys2Proof.Machine.execNonce who w t s
  | .unlock who w cut t => Sys2Proof.Machine.execUnlock who w cut t s
  | .provision who w t => Sys2Proof.Machine.execProvision who w t s
  | .attest who w t => Sys2Proof.Machine.execAttest who w t s
  | .firmwareUpdate who w upto t => Sys2Proof.Machine.execFirmwareUpdate who w upto t s
  | .trngHealthFail t => Sys2Proof.Machine.execTrngHealthFail t s
  | .storeWrite id res => Sys2Proof.Machine.execStoreWrite id res s
  | .packetReceive l d bytes bad t => Sys2Proof.Machine.execPacketReceive l d bytes bad t s
  | .ackReceive l d seq t => Sys2Proof.Machine.execAckReceive l d seq t s
  | .nakReceive l d seq t => Sys2Proof.Machine.execNakReceive l d seq t s
  | .creditReceive l d hs ds => Sys2Proof.Machine.execCreditReceive l d hs ds s
  | .replayTimeout l d t => Sys2Proof.Machine.execReplayTimeout l d t s
  | .linkRetrain l bad0 bad1 t => Sys2Proof.Machine.execLinkRetrain l bad0 bad1 t s
  | .bondUncorrectable cd u st t => Sys2Proof.Machine.execBondUncorrectable cd u st t s
  | .linkTestMode who l w bad0 bad1 t => Sys2Proof.Machine.execLinkTestMode who l w bad0 bad1 t s
  | .flaconLinkRetry bad0 bad1 t => Sys2Proof.Machine.execFlaconLinkRetry bad0 bad1 t s
  | .guestPowerSample mw t => Sys2Proof.Machine.execGuestPowerSample mw t s
  | .guestFence who w => Sys2Proof.Machine.execGuestFence who w s
  | .gstWinWrite who n w => Sys2Proof.Machine.execGstWinWrite who n w s
  | .combineBufferEmit h out q off v => Sys2Proof.Machine.execCombineBufferEmit h out q off v s
  | .lock p hart m parked => Sys2Proof.Machine.execLock p hart m parked s
  | .apSplit p hart m => Sys2Proof.Machine.execApSplit p hart m s
  | .lockstepMismatch p => Sys2Proof.Machine.execLockstepMismatch p s
  | .rigStep who w t => Sys2Proof.Machine.execRigStep who w t s
  | .rigInj who w t => Sys2Proof.Machine.execRigInj who w t s
  | .pcieInboundRequest bar off wr bytes len => Sys2Proof.Machine.execPcieInboundRequest bar off wr bytes len s
  | .apertureAccess who off wr bytes => Sys2Proof.Machine.execApertureAccess who off wr bytes s
  | .pcieCfgaGo who w resp => Sys2Proof.Machine.execPcieCfgaGo who w resp s
  | .voltageRamp t => Sys2Proof.Machine.execVoltageRamp t s
  | .powerLimiterSample mw ma t => Sys2Proof.Machine.execPowerLimiterSample mw ma t s
  | .vbusLowThroughput t => Sys2Proof.Machine.execVbusLowThroughput t s
  | .pwrEnRise t => Sys2Proof.Machine.execPwrEnRise t s
  | .railGroupGood st t => Sys2Proof.Machine.execRailGroupGood st t s
  | .supplyMonitorSample mv t => Sys2Proof.Machine.execSupplyMonitorSample mv t s
  | .pwrEnFall t => Sys2Proof.Machine.execPwrEnFall t s
  | .vbusLoss t => Sys2Proof.Machine.execVbusLoss t s
  | .vbusRestore t => Sys2Proof.Machine.execVbusRestore t s
  | .porstNLow t => Sys2Proof.Machine.execPorstNLow t s
  | .porstNRelease st t => Sys2Proof.Machine.execPorstNRelease st t s
  | .resetNLow t => Sys2Proof.Machine.execResetNLow t s
  | .resetNRelease st t => Sys2Proof.Machine.execResetNRelease st t s
  | .clockFault t => Sys2Proof.Machine.execClockFault t s
  | .thermalSample vals t => Sys2Proof.Machine.execThermalSample vals t s
  | .thermalTrip d t => Sys2Proof.Machine.execThermalTrip d t s
  | .tripRelease st t => Sys2Proof.Machine.execTripRelease st t s
  | .coolantWindow t => Sys2Proof.Machine.execCoolantWindow t s
  | .ageingMeasure ages t => Sys2Proof.Machine.execAgeingMeasure ages t s
  | .csiFrameStart n vc t => Sys2Proof.Machine.execCsiFrameStart n vc t s
  | .csiEmbeddedData n vc data t => Sys2Proof.Machine.execCsiEmbeddedData n vc data t s
  | .csiLine n vc dt data ok t => Sys2Proof.Machine.execCsiLine n vc dt data ok t s
  | .csiFrameEnd n vc t => Sys2Proof.Machine.execCsiFrameEnd n vc t s
  | .frameEndTimeout n t => Sys2Proof.Machine.execFrameEndTimeout n t s
  | .camCfgWrite who n w => Sys2Proof.Machine.execCamCfgWrite who n w s
  | .ringDoorbell who g w => Sys2Proof.Machine.execRingDoorbell who g w s
  | .ethTransmit p t => Sys2Proof.Machine.execEthTransmit p t s
  | .ethReceive p frame fcsOk t => Sys2Proof.Machine.execEthReceive p frame fcsOk t s
  | .gptpSync p time t => Sys2Proof.Machine.execGptpSync p time t s
  | .qbvCtlWrite who p w => Sys2Proof.Machine.execQbvCtlWrite who p w s
  | .qbvListInForce p t => Sys2Proof.Machine.execQbvListInForce p t s
  | .odometryFrame b bytes t => Sys2Proof.Machine.execOdometryFrame b bytes t s
  | .odometryStale b t => Sys2Proof.Machine.execOdometryStale b t s
  | .canTransmit c t => Sys2Proof.Machine.execCanTransmit c t s
  | .canReceive c id ide brs data t => Sys2Proof.Machine.execCanReceive c id ide brs data t s
  | .canBusOff c t => Sys2Proof.Machine.execCanBusOff c t s
  | .registerWrite who a w => Sys2Proof.Machine.execRegisterWrite who a w s
  | .syncLoss p t => Sys2Proof.Machine.execSyncLoss p t s
  | .ethLinkChange p up speed t => Sys2Proof.Machine.execEthLinkChange p up speed t s
  | .pcieLinkChange up gen width t => Sys2Proof.Machine.execPcieLinkChange up gen width t s
  | .canErrorPassive c t => Sys2Proof.Machine.execCanErrorPassive c t s
  | .machineTimerCompare h t => Sys2Proof.Machine.execMachineTimerCompare h t s
  | .jobLost j t => Sys2Proof.Machine.execJobLost j t s
  | .powerCycle t => Sys2Proof.Machine.execPowerCycle t s
  | .lostMirrorCopy t => Sys2Proof.Machine.execLostMirrorCopy t s
  | .secNonceExpiry t => Sys2Proof.Machine.execSecNonceExpiry t s
  | .trngHealthPass t => Sys2Proof.Machine.execTrngHealthPass t s
  | .tck tms tdi => Sys2Proof.Machine.execTck tms tdi s
  | .gateControlEntry p t => Sys2Proof.Machine.execGateControlEntry p t s
  | .unitInternalFault u => Sys2Proof.Machine.execUnitInternalFault u s

end Sys2Proof.Machine
end

