-- ==== Sys2Proof/Safety.lean ====
section
/-! DEFINITION. What counts as a safe run, in the terms that the claims use: the canonical form of memory, what a step may not
undo, and the words for an instruction of a cell that runs. -/

namespace Sys2Proof.Machine

/-- The canonical form of memory: addresses strictly rising, no entry that reads as an unlisted address does. -/
def Memory.wf (m : Tab Byte) : Bool := Tab.wf 0 m

/-- The front end of cell `c` begins the word `w`, which is the operation `code`: the cell is RUNNING and not held, the word
stands at FE_PC in its range and is an instruction of which no step is done, and its wait token stands above zero (03 R51, R57,
R58, R66). -/
def State.feRuns (s : State) (c code w : Nat) : Prop :=
  s.feReady c = true ∧ s.fetch c = .ok w ∧ opCode w = code ∧ s.tokOk c w = true ∧ (s.cell c).feSteps = 0

/-- The front end of cell `c` comes to step `k` of the word `w`, the operation `code`; step 0 takes the wait token (03 R56, R57). -/
def State.feAt (s : State) (c code w k : Nat) : Prop :=
  s.feReady c = true ∧ s.fetch c = .ok w ∧ opCode w = code ∧ (k = 0 → s.tokOk c w = true) ∧ (s.cell c).feSteps = k

/-- The state that the operation of word `w` sees: the fetch is counted and the wait token taken. -/
def State.feTaken (s : State) (c w : Nat) : State := (s.fetchCount c).takeTok c w

/-- The state that step `k` of the operation of word `w` sees. -/
def State.feSees (s : State) (c w k : Nat) : State := if k = 0 then s.feTaken c w else s

/-- The state after an operation that took `s` to `t`: the loop-end test and the next offset, progress, the post. -/
def State.feNext (s : State) (c w : Nat) (t : State) : State :=
  ((t.feAdvance c (s.cell c).fePc).progress c 1).fePostOf c w (s.cell c).fePc

/-- The state after an operation that goes to the offset `pc`: the loop-end test of its own word comes first (04 R90). -/
def State.feJump (s : State) (c w pc : Nat) (t : State) : State :=
  ((t.feAdvanceTo c (s.cell c).fePc pc).progress c 1).fePostOf c w (s.cell c).fePc

/-- A stream of cell `c` runs the operation `code`: entry `e`, at place `i` of the queue of stream `st`, is the first that is
not done, it has begun, and the cell is RUNNING, no stop of it pending (03 R55, R56, R74). -/
def State.stRuns (s : State) (c code : Nat) (st : Strm) (i : Nat) (e : QEntry) : Prop :=
  c < 48 ∧ s.cellGoes c = true ∧ st = streamClass (code / 64) ∧
  i = firstOpen ((s.cell c).stream st).q ∧ ((s.cell c).stream st).q[i]? = some e ∧
  e.begun = true ∧ opCode e.word.toNat = code

/-- The operands of the instruction in entry `e` pass the checks of its plan `f`, and each of its steps that is left succeeds (03 R56,
04 R83 to R86). -/
def State.planRuns (s : State) (f : State → QEntry → Except Nat Plan) (e : QEntry) : Bool :=
  match f (s.withDescs e) e with
  | .ok p => (runSteps p.step (p.total - e.steps) s e.steps).2.2 == none
  | .error _ => false

/-- The state after stream `st` has run an instruction to its end, from `s` to `t`: its entry is done, its steps count as
progress. -/
def State.stDone (c : Nat) (st : Strm) (i : Nat) (e : QEntry) (total : Nat) (t : State) : State :=
  let q := (t.cell c).stream st
  (t.setCell c ((t.cell c).setStream st { q with q := q.q.set i { q.q[i]?.getD e with steps := max total e.steps, done := true } })).progress
    c (total - e.steps)

/-- Queue `q` takes a push of 64 bytes: it is in use, of the push mode, and not full (10 R270, R271). -/
def State.qTakes (s : State) (q : Nat) : Bool := s.qEn q && !s.flag (qCtl q) qPMODE && !s.qFull q

/-- A push to `q` is forwarded at most once, and the queue that it reaches takes it (10 R271). -/
def State.qReaches (s : State) (q : Nat) : Bool :=
  (!s.flag (qCtl q) qRDRV || !s.flag (qCtl (s.qTarget q)) qRDRV) && s.qTakes (s.qTarget q)

/-- An engine's computation ends without an error. -/
def Eng.runs {α : Type} (f : Eng α) (s : State) : Bool :=
  match f.run s with
  | .ok _ _ => true
  | .error _ _ => false

/-- What an engine's computation answers, `d` where it errs. -/
def Eng.answer {α : Type} (f : Eng α) (d : α) (s : State) : α :=
  match f.run s with
  | .ok x _ => x
  | .error _ _ => d

/-- The state that an engine's computation leaves. -/
def Eng.after {α : Type} (f : Eng α) (s : State) : State :=
  match f.run s with
  | .ok _ t => t
  | .error _ t => t

/-- The register file of a cell is the same. -/
structure SameFile (x y : Cell) : Prop where
  s : y.s = x.s
  a : y.a = x.a
  v : y.v = x.v
  t : y.t = x.t
  tfp : y.tfp = x.tfp
  tsat : y.tsat = x.tsat

end Sys2Proof.Machine
end

