-- ==== Sys2Proof/WellFormed.lean ====
section
/-! DEFINITION. When a command is well formed: every operand names an agent, a register, a port or a value that the device
has (01 R13, R15; 19). Nothing that `exec` does rests on it. -/

namespace Sys2Proof

/-- A partition is one of eight (10 R278). -/
def Who.ok : Who → Bool
  | .runtime p => decide (p < 8)
  | .user p => decide (p < 8)
  | _ => true

/-- Bytes stand below 256. -/
def bytesOk (l : List Nat) : Bool := l.all (fun b => decide (b < 256))

/-- The guest site answers with a manifest of 256 bytes (16 R436). -/
def GuestSite.ok (g : GuestSite) : Bool := decide (g.manifest.length = 256) && bytesOk g.manifest

/-- A start names lane groups of 12 links, 24 channels, 4 stores, 5 comparison units and 63 units. -/
def Start.ok (st : Start) : Bool :=
  st.bad.all (fun b => decide (b < 2 ^ 8)) && decide (st.channels < 2 ^ 24) && decide (st.stores < 2 ^ 4) &&
  decide (st.cmps < 2 ^ 5) && st.failing.all (fun u => decide (u < 63)) &&
  (match st.guest with
   | some g => g.ok
   | none => true)

/-- Window `n` of slot `u`: 16 in a cell, 8 in the mailbox block (05 R129, 09 R254). -/
def winSlot (u n : Nat) : Bool := (decide (u < 48) && decide (n < 16)) || (decide (u = 63) && decide (n < 8))

/-- The operands of a command are in range. -/
def wellFormed (i : Instr) : Bool :=
  match i with
  | .nop c => decide (c < 48)
  | .loop c => decide (c < 48)
  | .br c => decide (c < 48)
  | .call c => decide (c < 48)
  | .ret c => decide (c < 48)
  | .wait c => decide (c < 48)
  | .post c => decide (c < 48)
  | .bar c => decide (c < 48)
  | .barrierRelease c => decide (c < 48)
  | .sadd c => decide (c < 48)
  | .ssub c => decide (c < 48)
  | .smul c => decide (c < 48)
  | .sand c => decide (c < 48)
  | .sor c => decide (c < 48)
  | .sxor c => decide (c < 48)
  | .sshl c => decide (c < 48)
  | .sshr c => decide (c < 48)
  | .ssra c => decide (c < 48)
  | .smin c => decide (c < 48)
  | .smax c => decide (c < 48)
  | .sminu c => decide (c < 48)
  | .smaxu c => decide (c < 48)
  | .saddi c => decide (c < 48)
  | .sandi c => decide (c < 48)
  | .sori c => decide (c < 48)
  | .sxori c => decide (c < 48)
  | .sshli c => decide (c < 48)
  | .sshri c => decide (c < 48)
  | .ssrai c => decide (c < 48)
  | .sli c => decide (c < 48)
  | .slui c => decide (c < 48)
  | .aadd c => decide (c < 48)
  | .aaddi c => decide (c < 48)
  | .amov c => decide (c < 48)
  | .smova c => decide (c < 48)
  | .sld c => decide (c < 48)
  | .ald c => decide (c < 48)
  | .streamInstructionBegin c st => decide (c < 48) && decide (st ≠ .front)
  | .streamInstructionComplete c st => decide (c < 48) && decide (st ≠ .front)
  | .postStallRelease c _ => decide (c < 48)
  | .tokenStall c _ _ => decide (c < 48)
  | .ldt c _ => decide (c < 48)
  | .ldw c _ => decide (c < 48)
  | .gath c _ => decide (c < 48)
  | .tzero c _ => decide (c < 48)
  | .tmma c _ => decide (c < 48)
  | .trd c _ => decide (c < 48)
  | .vadd c _ => decide (c < 48)
  | .vsub c _ => decide (c < 48)
  | .vmul c _ => decide (c < 48)
  | .vfma c _ => decide (c < 48)
  | .vmax c _ => decide (c < 48)
  | .vmin c _ => decide (c < 48)
  | .vexp c _ => decide (c < 48)
  | .vrcp c _ => decide (c < 48)
  | .vrsq c _ => decide (c < 48)
  | .vcmp c _ => decide (c < 48)
  | .vsel c _ => decide (c < 48)
  | .vand c _ => decide (c < 48)
  | .vor c _ => decide (c < 48)
  | .vxor c _ => decide (c < 48)
  | .vmov c _ => decide (c < 48)
  | .vbcast c _ => decide (c < 48)
  | .vld c _ => decide (c < 48)
  | .vst c _ => decide (c < 48)
  | .cvt c _ => decide (c < 48)
  | .cvtv c _ => decide (c < 48)
  | .rstat c _ => decide (c < 48)
  | .rnorm c _ => decide (c < 48)
  | .vdw c _ => decide (c < 48)
  | .stt c _ => decide (c < 48)
  | .scat c _ => decide (c < 48)
  | .wopen c _ => decide (c < 48)
  | .wclose c _ => decide (c < 48)
  | .ckpt c _ => decide (c < 48)
  | .commit c _ => decide (c < 48)
  | .enq c => decide (c < 48)
  | .halt c => decide (c < 48)
  | .snapInstruction c => decide (c < 48)
  | .scrub c => decide (c < 48)
  | .rdfl c => decide (c < 48)
  | .clrfl c => decide (c < 48)
  | .unitReset who u w => who.ok && decide (u < 63) && decide (w < 2 ^ 64)
  | .jobReset who u w => who.ok && decide (u < 63) && decide (w < 2 ^ 64)
  | .stop who u w => who.ok && decide (u < 63) && decide (w < 2 ^ 64)
  | .resume who u w => who.ok && decide (u < 63) && decide (w < 2 ^ 64)
  | .snap who u w => who.ok && decide (u < 48) && decide (w < 2 ^ 64)
  | .restore who u w => who.ok && decide (u < 48) && decide (w < 2 ^ 64)
  | .pload who u w => who.ok && decide (u < 48) && decide (w < 2 ^ 64)
  | .workItemTake u _ => decide (u < 63)
  | .arrive u => decide (u < 63)
  | .barHart who p w => who.ok && decide (p < 8) && decide (w < 2 ^ 64)
  | .remoteWriteArrival _ => true
  | .commitArrival _ => true
  | .releaseArrival _ => true
  | .generationTokenWait c win => decide (c < 48) && winSlot c win
  | .winCtlOpen who u win w => who.ok && winSlot u win && decide (w < 2 ^ 64)
  | .winCtlClose who u win w => who.ok && winSlot u win && decide (w < 2 ^ 64)
  | .winMaskWrite who u win w => who.ok && winSlot u win && decide (w < 2 ^ 64)
  | .eccWriteBack a => decide (a < 2 ^ 44)
  | .wordTest a _ => decide (a < 2 ^ 44)
  | .patrol ch corrected uncorrectable _ => decide (ch < 24) && corrected.all (fun x => decide (x < 2 ^ 44)) && uncorrectable.all (fun x => decide (x < 2 ^ 44))
  | .edcRetry ch a _ => decide (ch < 24) && decide (a < 2 ^ 44)
  | .regionEntryWrite who p e lo => who.ok && decide (p < 8) && decide (e < 64) && decide (lo < 2 ^ 64)
  | .regionEntrySwitch point p e => decide (point < 66) && decide (p < 8) && decide (e < 64)
  | .fillGo who w => who.ok && decide (w < 2 ^ 64)
  | .fillDone => true
  | .frame u _ => decide (60 ≤ u) && decide (u < 62)
  | .imageRowProduce u => decide (60 ≤ u) && decide (u < 62)
  | .lineTimeout u _ => decide (60 ≤ u) && decide (u < 62)
  | .fwd u => decide (48 ≤ u) && decide (u < 52)
  | .bwd u => decide (48 ≤ u) && decide (u < 52)
  | .ctxBind u => decide (48 ≤ u) && decide (u < 52)
  | .ctxAppend u => decide (48 ≤ u) && decide (u < 52)
  | .ctxCommit u => decide (48 ≤ u) && decide (u < 52)
  | .ctxFork u => decide (48 ≤ u) && decide (u < 52)
  | .ctxRelease u => decide (48 ≤ u) && decide (u < 52)
  | .contextGrant u => decide (u < 63)
  | .attnCfgWrite who u _ w => who.ok && decide (48 ≤ u) && decide (u < 52) && decide (w < 2 ^ 64)
  | .attnCtxSel who u w => who.ok && decide (48 ≤ u) && decide (u < 52) && decide (w < 2 ^ 64)
  | .calibrationUpdate p _ => decide (p < 8)
  | .calibrationStoreWrite _ => true
  | .frameStartEvent _ => true
  | .lsyncPulse n _ => decide (n < 8)
  | .step who w _ => who.ok && decide (w < 2 ^ 64)
  | .heldStepEvent _ => true
  | .trigFsSeqWrite who n w => who.ok && decide (n < 16) && decide (w < 2 ^ 64)
  | .echoCfgWrite who n w => who.ok && decide (n < 16) && decide (w < 2 ^ 64)
  | .streamStale n _ => decide (n < 16)
  | .lift u => decide (52 ≤ u) && decide (u < 56)
  | .scatter u => decide (52 ≤ u) && decide (u < 56)
  | .raster u => decide (52 ≤ u) && decide (u < 56)
  | .update => true
  | .forecast => true
  | .deleteTrack => true
  | .trkNextIdWrite who w => who.ok && decide (w < 2 ^ 64)
  | .trkSel who w => who.ok && decide (w < 2 ^ 64)
  | .check u => decide (56 ≤ u) && decide (u < 60)
  | .finalCheck _ => true
  | .drydownCompute _ => true
  | .recordEmit _ => true
  | .handoverTimeout _ => true
  | .statusFrame _ _ => true
  | .push who q bytes => who.ok && decide (q < 16640) && bytesOk bytes
  | .swTailWrite who q off bytes => who.ok && decide (q < 16640) && decide (off < 2 ^ 44) && bytesOk bytes
  | .qcfgHeadWrite who q w => who.ok && decide (q < 16640) && decide (w < 2 ^ 64)
  | .completionPush u _ => decide (u < 63)
  | .unreadableEntry u => decide (u < 63)
  | .slotBoundary u _ => decide (u < 63)
  | .frameSelfWrap u _ => decide (u < 63)
  | .frameStartReceive u seq _ => decide (u < 63) && decide (seq < 2 ^ 16)
  | .deadlineExpiry u _ => decide (u < 63)
  | .admitJob p _ => decide (p < 8)
  | .withdraw p _ => decide (p < 8)
  | .restart p _ => decide (p < 8)
  | .backupLaunch q _ _ => decide (q < 16384)
  | .suspectEvaluation _ => true
  | .depositArrival _ _ => true
  | .comparisonTimeout g _ => decide (g < 16)
  | .memberErrorNotice g pos => decide (g < 16) && decide (pos < 3)
  | .resync g => decide (g < 16)
  | .split who g w => who.ok && decide (g < 16) && decide (w < 2 ^ 64)
  | .join who g w => who.ok && decide (g < 16) && decide (w < 2 ^ 64)
  | .grow who g w => who.ok && decide (g < 16) && decide (w < 2 ^ 64)
  | .apCkptWrite who p w => who.ok && decide (p < 8) && decide (w < 2 ^ 64)
  | .latentOverdue _ => true
  | .islandSupervisionCycle _ _ _ => true
  | .islandHardwareFail _ _ => true
  | .heartbeatLoss _ _ => true
  | .islandReboot _ _ => true
  | .handoverDecision _ => true
  | .peerRecordReceive _ bytes _ => bytesOk bytes
  | .islandFrameRealign _ _ _ => true
  | .failureDetectorSample _ => true
  | .fence who u => who.ok && decide (u < 63)
  | .unfence who u => who.ok && decide (u < 63)
  | .unitReinit u _ => decide (u < 63)
  | .blotterEntry u _ _ => decide (u < 63)
  | .blotterExtra u _ _ => decide (u < 63)
  | .quarantineEvaluation e _ _ _ => decide (e < 72) && decide (e ≠ 63)
  | .quarantineTableWrite _ => true
  | .modeRequest p _ => decide (p < 8)
  | .drydown p _ => decide (p < 8)
  | .safeEnter p _ => decide (p < 8)
  | .safeClear p _ => decide (p < 8)
  | .unitResetRequest p _ => decide (p < 8)
  | .warmResetRequest p _ => decide (p < 8)
  | .warmReset st _ => st.ok
  | .quarSel who w => who.ok && decide (w < 2 ^ 64)
  | .freeze who w _ => who.ok && decide (w < 2 ^ 64)
  | .freezeTimeout _ => true
  | .nonceRequest who w _ => who.ok && decide (w < 2 ^ 64)
  | .sillageClear who w _ => who.ok && decide (w < 2 ^ 64)
  | .nonceExpiry _ => true
  | .sillagePersist _ => true
  | .flcPulse _ => true
  | .lineFault _ _ => true
  | .speedUpdate _ => true
  | .plausibilitySample _ => true
  | .flcOdoWrite who w => who.ok && decide (w < 2 ^ 64)
  | .mirrorRefresh _ => true
  | .sign who w _ => who.ok && decide (w < 2 ^ 64)
  | .openSession who w _ => who.ok && decide (w < 2 ^ 64)
  | .setK who w _ => who.ok && decide (w < 2 ^ 64)
  | .reseal who w _ => who.ok && decide (w < 2 ^ 64)
  | .fwUpdate who w _ => who.ok && decide (w < 2 ^ 64)
  | .closeSession who w _ => who.ok && decide (w < 2 ^ 64)
  | .block who w _ => who.ok && decide (w < 2 ^ 64)
  | .sessionTimeout _ => true
  | .debugOpenSeal _ => true
  | .flaconPowerOn _ => true
  | .vanaFall _ => true
  | .nonce who w _ => who.ok && decide (w < 2 ^ 64)
  | .unlock who w _ _ => who.ok && decide (w < 2 ^ 64)
  | .provision who w _ => who.ok && decide (w < 2 ^ 64)
  | .attest who w _ => who.ok && decide (w < 2 ^ 64)
  | .firmwareUpdate who w _ _ => who.ok && decide (w < 2 ^ 64)
  | .trngHealthFail _ => true
  | .storeWrite id res => decide (id < 22) && decide (res < 3)
  | .packetReceive l d bytes _ _ => decide (l < 12) && decide (d < 2) && bytesOk bytes
  | .ackReceive l d seq _ => decide (l < 12) && decide (d < 2) && decide (seq < 2 ^ 12)
  | .nakReceive l d seq _ => decide (l < 12) && decide (d < 2) && decide (seq < 2 ^ 12)
  | .creditReceive l d _ _ => decide (l < 12) && decide (d < 2)
  | .replayTimeout l d _ => decide (l < 12) && decide (d < 2)
  | .linkRetrain l bad0 bad1 _ => decide (l < 12) && decide (bad0 < 2 ^ 8) && decide (bad1 < 2 ^ 8)
  | .bondUncorrectable cd u _ _ => decide (cd < 12) && decide (u < 63)
  | .linkTestMode who l w bad0 bad1 _ => who.ok && decide (l < 12) && decide (w < 2 ^ 64) && decide (bad0 < 2 ^ 8) && decide (bad1 < 2 ^ 8)
  | .flaconLinkRetry bad0 bad1 _ => decide (bad0 < 2 ^ 8) && decide (bad1 < 2 ^ 8)
  | .guestPowerSample _ _ => true
  | .guestFence who w => who.ok && decide (w < 2 ^ 64)
  | .gstWinWrite who n w => who.ok && decide (n < 16) && decide (w < 2 ^ 64)
  | .combineBufferEmit h _ q off _ => decide (h < 16) && decide (q < 16384) && decide (off < 2 ^ 44)
  | .lock p hart _ _ => decide (p < 8) && decide (hart < 16)
  | .apSplit p hart _ => decide (p < 8) && decide (hart < 16)
  | .lockstepMismatch p => decide (p < 8)
  | .rigStep who w _ => who.ok && decide (w < 2 ^ 64)
  | .rigInj who w _ => who.ok && decide (w < 2 ^ 64)
  | .pcieInboundRequest bar off _ bytes _ => decide (bar < 6) && decide (off < 2 ^ 44) && bytesOk bytes
  | .apertureAccess who off _ bytes => who.ok && decide (off < 2 ^ 44) && bytesOk bytes
  | .pcieCfgaGo who w _ => who.ok && decide (w < 2 ^ 64)
  | .voltageRamp _ => true
  | .powerLimiterSample _ _ _ => true
  | .vbusLowThroughput _ => true
  | .pwrEnRise _ => true
  | .railGroupGood st _ => st.ok
  | .supplyMonitorSample _ _ => true
  | .pwrEnFall _ => true
  | .vbusLoss _ => true
  | .vbusRestore _ => true
  | .porstNLow _ => true
  | .porstNRelease st _ => st.ok
  | .resetNLow _ => true
  | .resetNRelease st _ => st.ok
  | .clockFault _ => true
  | .thermalSample _ _ => true
  | .thermalTrip d _ => decide (d < 21)
  | .tripRelease st _ => st.ok
  | .coolantWindow _ => true
  | .ageingMeasure _ _ => true
  | .csiFrameStart n vc _ => decide (n < 16) && decide (vc < 4)
  | .csiEmbeddedData n vc data _ => decide (n < 16) && decide (vc < 4) && bytesOk data
  | .csiLine n vc dt data _ _ => decide (n < 16) && decide (vc < 4) && decide (dt < 64) && bytesOk data
  | .csiFrameEnd n vc _ => decide (n < 16) && decide (vc < 4)
  | .frameEndTimeout n _ => decide (n < 16)
  | .camCfgWrite who n w => who.ok && decide (n < 16) && decide (w < 2 ^ 64)
  | .ringDoorbell who g w => who.ok && decide (g < 16) && decide (w < 2 ^ 64)
  | .ethTransmit p _ => decide (p < 6)
  | .ethReceive p frame _ _ => decide (p < 6) && bytesOk frame
  | .gptpSync p _ _ => decide (p < 8)
  | .qbvCtlWrite who p w => who.ok && decide (p < 6) && decide (w < 2 ^ 64)
  | .qbvListInForce p _ => decide (p < 6)
  | .odometryFrame _ bytes _ => bytesOk bytes
  | .odometryStale _ _ => true
  | .canTransmit c _ => decide (c < 2)
  | .canReceive c id _ _ data _ => decide (c < 2) && decide (id < 2 ^ 29) && bytesOk data
  | .canBusOff c _ => decide (c < 2)
  | .registerWrite who a w => who.ok && decide (a < 2 ^ 44) && decide (w < 2 ^ 64)
  | .syncLoss p _ => decide (p < 8)
  | .ethLinkChange p _ _ _ => decide (p < 6)
  | .pcieLinkChange _ _ _ _ => true
  | .canErrorPassive c _ => decide (c < 2)
  | .machineTimerCompare h _ => decide (h < 16)
  | .jobLost j _ => decide (j < 255)
  | .powerCycle _ => true
  | .lostMirrorCopy _ => true
  | .secNonceExpiry _ => true
  | .trngHealthPass _ => true
  | .tck _ _ => true
  | .gateControlEntry p _ => decide (p < 6)
  | .unitInternalFault u => decide (u < 63)

end Sys2Proof
end

