-- ==== Sys2Proof/Certificates/Slice0/Obligations.lean ====
section
/-! DEFINITION. The statements for the provers. A statement that names a list of commands holds for each of them. `State.feRuns`,
`State.stRuns` and the other words for when something runs stand in Safety.lean. -/

open Sys2Proof Sys2Proof.Machine

/-- The step takes the command at the front of the queue (log 4: the queue is the model's own form). -/
def Obligations.StepRunsTheFrontCommand : Prop :=
  ∀ (c : Instr) (rest : List Instr) (s : State), s.pending = c :: rest → step s = exec c { s with pending := rest }

/-- With nothing waiting the device idles (log 4, the model's choice). -/
def Obligations.IdleStepKeepsTheState : Prop :=
  ∀ s : State, s.pending = [] → step s = .next s

/-- Nothing that the device is commanded stops it, and every command keeps the queue, the order of time and the canonical form of
memory. -/
def Obligations.EveryCommandCompletes : Prop :=
  ∀ (c : Instr) (s : State), ∃ t : State, exec c s = .next t ∧ t.pending = s.pending ∧ s.now ≤ t.now ∧
    (Memory.wf s.mem = true → Memory.wf t.mem = true)

/-- Commands are taken first in, first out; no command adds to the queue (log 4: the queue is the model's own form). -/
def Obligations.QueueIsFirstInFirstOut : Prop :=
  ∀ s t : State, step s = .next t → t.pending = s.pending.drop 1

/-- Time never runs back (log 1: the count of nanoseconds is the model's own form). -/
def Obligations.TimeNeverRunsBack : Prop :=
  ∀ s t : State, step s = .next t → s.now ≤ t.now

/-- Memory keeps its one canonical form through every command. -/
def Obligations.MemoryStaysCanonical : Prop :=
  ∀ s t : State, Memory.wf s.mem = true → step s = .next t → Memory.wf t.mem = true

/-- The reset state meets the invariants. -/
def Obligations.ResetMemoryIsCanonical : Prop :=
  Memory.wf State.reset.mem = true ∧ State.reset.pending = [] ∧ State.reset.now = 0 ∧ ∀ a, State.reset.byte a = 0

/-- The operations of CTRL and SYNC that the front end executes itself complete (R89 to R92, R57): each goes on or to its target
after the loop-end test of its word. -/
def Obligations.ControlFlowRuns : Prop :=
  ∀ (s : State) (c w : Nat),
    let tk := s.feTaken c w
    let x := tk.cell c
    let off := (s.cell c).fePc
    let body := bits w 14 0
    let count := if bits w 43 43 = 1 then bits w 37 22 else (x.rS (bits w 42 38)).toNat % 2 ^ 32
    (s.feRuns c (op 0 0) w → exec (.nop c) s = .next (s.feNext c w tk)) ∧
    (s.feRuns c (op 0 1) w → tk.pcOk c ((off + 8 * body : Nat) : Int) = true → count = 0 →
      exec (.loop c) s = .next (s.feJump c w (off + 8 * (body + 1)) tk)) ∧
    (s.feRuns c (op 0 1) w → tk.pcOk c ((off + 8 * body : Nat) : Int) = true → count ≠ 0 → x.loops.length < 8 →
      exec (.loop c) s = .next (s.feJump c w (off + 8) (tk.setCell c { x with
        loops := { start := off + 8, stop := off + 8 * body, remaining := count } :: x.loops }))) ∧
    (s.feRuns c (op 0 2) w → branchTaken (bits w 33 31) (x.rS (bits w 43 39)) (x.rS (bits w 38 34)) = false →
      exec (.br c) s = .next (s.feNext c w tk)) ∧
    (s.feRuns c (op 0 2) w → branchTaken (bits w 33 31) (x.rS (bits w 43 39)) (x.rS (bits w 38 34)) = true →
      tk.pcOk c (dispTarget w off) = true →
      exec (.br c) s = .next (s.feJump c w (dispTarget w off).toNat (tk.setCell c { x with
        loops := loopPop x.loops (dispTarget w off).toNat }))) ∧
    (s.feRuns c (op 0 3) w → x.calls.length < 16 → tk.pcOk c (dispTarget w off) = true →
      exec (.call c) s = .next (s.feJump c w (dispTarget w off).toNat (tk.setCell c { x with calls := (off + 8) :: x.calls }))) ∧
    (∀ pc r, s.feRuns c (op 0 4) w → x.calls = pc :: r →
      exec (.ret c) s = .next (s.feJump c w pc (tk.setCell c { x with calls := r }))) ∧
    (s.feRuns c (op 8 0) w → x.rK (bits w 43 40) ≠ 0 →
      exec (.wait c) s = .next (s.feNext c w (tk.setCell c (x.wK (bits w 43 40) (x.rK (bits w 43 40) - 1))))) ∧
    (s.feRuns c (op 8 1) w → x.rK (bits w 43 40) < 255 →
      exec (.post c) s = .next (s.feNext c w (tk.setCell c (x.wK (bits w 43 40) (x.rK (bits w 43 40) + 1)))))

/-- SCALAR on S registers (R93, R94), SMOVA and RDFL (R120) complete: each ends in a next state in which the destination reads the
result, and everything else is in its place. -/
def Obligations.ScalarResults : Prop :=
  ∀ (s : State) (c w : Nat),
    let x := s.cell c
    let d := bits w 43 39
    let a := x.rS (bits w 38 34)
    let b := x.rS (bits w 33 29)
    let imm : Word := (BitVec.ofNat 32 (bits w 31 0)).signExtend 64
    let wrote := fun (v : Word) (t : State) =>
      (t.cell c).rS d = (if d = 0 then 0 else v) ∧ (∀ q, q ≠ d → (t.cell c).rS q = x.rS q) ∧
      (t.cell c).a = x.a ∧ (t.cell c).v = x.v ∧ (t.cell c).t = x.t ∧
      (∀ e, e ≠ c → SameFile (s.cell e) (t.cell e)) ∧ t.mem = s.mem ∧
      (∀ f ∈ [stINV, stOVF, stUNF, stSAT, stNSC], t.getF (UNIT_STATUS c) f = s.getF (UNIT_STATUS c) f)
    (s.feRuns c (op 1 0) w → ∃ t, exec (.sadd c) s = .next t ∧ wrote (a + b) t) ∧
    (s.feRuns c (op 1 1) w → ∃ t, exec (.ssub c) s = .next t ∧ wrote (a - b) t) ∧
    (s.feRuns c (op 1 2) w → ∃ t, exec (.smul c) s = .next t ∧ wrote (a * b) t) ∧
    (s.feRuns c (op 1 3) w → ∃ t, exec (.sand c) s = .next t ∧ wrote (a &&& b) t) ∧
    (s.feRuns c (op 1 4) w → ∃ t, exec (.sor c) s = .next t ∧ wrote (a ||| b) t) ∧
    (s.feRuns c (op 1 5) w → ∃ t, exec (.sxor c) s = .next t ∧ wrote (a ^^^ b) t) ∧
    (s.feRuns c (op 1 6) w → ∃ t, exec (.sshl c) s = .next t ∧ wrote (a <<< (b.toNat % 64)) t) ∧
    (s.feRuns c (op 1 7) w → ∃ t, exec (.sshr c) s = .next t ∧ wrote (a >>> (b.toNat % 64)) t) ∧
    (s.feRuns c (op 1 8) w → ∃ t, exec (.ssra c) s = .next t ∧ wrote (a.sshiftRight (b.toNat % 64)) t) ∧
    (s.feRuns c (op 1 9) w → ∃ t, exec (.smin c) s = .next t ∧ wrote (if a.toInt ≤ b.toInt then a else b) t) ∧
    (s.feRuns c (op 1 10) w → ∃ t, exec (.smax c) s = .next t ∧ wrote (if a.toInt ≤ b.toInt then b else a) t) ∧
    (s.feRuns c (op 1 11) w → ∃ t, exec (.sminu c) s = .next t ∧ wrote (if a.toNat ≤ b.toNat then a else b) t) ∧
    (s.feRuns c (op 1 12) w → ∃ t, exec (.smaxu c) s = .next t ∧ wrote (if a.toNat ≤ b.toNat then b else a) t) ∧
    (s.feRuns c (op 1 16) w → ∃ t, exec (.saddi c) s = .next t ∧ wrote (a + imm) t) ∧
    (s.feRuns c (op 1 17) w → ∃ t, exec (.sandi c) s = .next t ∧ wrote (a &&& imm) t) ∧
    (s.feRuns c (op 1 18) w → ∃ t, exec (.sori c) s = .next t ∧ wrote (a ||| imm) t) ∧
    (s.feRuns c (op 1 19) w → ∃ t, exec (.sxori c) s = .next t ∧ wrote (a ^^^ imm) t) ∧
    (s.feRuns c (op 1 20) w → ∃ t, exec (.sshli c) s = .next t ∧ wrote (a <<< (imm.toNat % 64)) t) ∧
    (s.feRuns c (op 1 21) w → ∃ t, exec (.sshri c) s = .next t ∧ wrote (a >>> (imm.toNat % 64)) t) ∧
    (s.feRuns c (op 1 22) w → ∃ t, exec (.ssrai c) s = .next t ∧ wrote (a.sshiftRight (imm.toNat % 64)) t) ∧
    (s.feRuns c (op 1 23) w → ∃ t, exec (.sli c) s = .next t ∧ wrote (imm) t) ∧
    (s.feRuns c (op 1 24) w → ∃ t, exec (.slui c) s = .next t ∧ wrote ((a.extractLsb' 0 32).zeroExtend 64 + (BitVec.ofNat 64 (bits w 31 0) <<< 32)) t) ∧
    (s.feRuns c (op 1 35) w → ∃ t, exec (.smova c) s = .next t ∧ wrote ((x.rA (bits w 38 34)).zeroExtend 64) t) ∧
    (s.feRuns c (op 14 3) w → ∃ t, exec (.rdfl c) s = .next t ∧ wrote (BitVec.ofNat 64 (s.flagBits c + x.tsat * 2 ^ 8)) t)

/-- The A-register forms of SCALAR complete (R93, R94; 03 R49): AADD and AADDI keep the kind of value, AMOV copies, SLD and ALD load
the 8 bytes that the cell may read. -/
def Obligations.AddressRegisterResults : Prop :=
  ∀ (s : State) (c w : Nat),
    let tk := s.feTaken c w
    let x := tk.cell c
    let d := bits w 43 39
    let va := (x.rA (bits w 38 34)).toNat
    let b := (x.rS (bits w 33 29)).toNat
    let imm := ((BitVec.ofNat 32 (bits w 31 0)).signExtend 64 : Word).toNat
    let toA := fun (n : Nat) => s.feNext c w (tk.setCell c (x.wA d (BitVec.ofNat 48 n)))
    (s.feRuns c (op 1 32) w → va < 2 ^ 44 → exec (.aadd c) s = .next (toA ((va + b) % 2 ^ 44))) ∧
    (s.feRuns c (op 1 32) w → 2 ^ 47 ≤ va → va < 2 ^ 47 + 2 ^ 24 →
      exec (.aadd c) s = .next (toA (2 ^ 47 + (va - 2 ^ 47 + b) % 2 ^ 24))) ∧
    (s.feRuns c (op 1 33) w → va < 2 ^ 44 → exec (.aaddi c) s = .next (toA ((va + imm) % 2 ^ 44))) ∧
    (s.feRuns c (op 1 33) w → 2 ^ 47 ≤ va → va < 2 ^ 47 + 2 ^ 24 →
      exec (.aaddi c) s = .next (toA (2 ^ 47 + (va - 2 ^ 47 + imm) % 2 ^ 24))) ∧
    (s.feRuns c (op 1 34) w → exec (.amov c) s = .next (toA (x.rS (bits w 38 34)).toNat)) ∧
    (∀ l, va < 2 ^ 44 → (va + imm) % 2 ^ 44 % 8 = 0 → tk.cellRead c .read ((va + imm) % 2 ^ 44) 8 = .ok l →
      let r := tk.noteRead c (tk.partOf c) ((va + imm) % 2 ^ 44) 8
      (s.feRuns c (op 1 40) w →
        exec (.sld c) s = .next (s.feNext c w (r.setCell c ((r.cell c).wS d (BitVec.ofNat 64 (leOf l)))))) ∧
      (s.feRuns c (op 1 41) w →
        exec (.ald c) s = .next (s.feNext c w (r.setCell c ((r.cell c).wA d (BitVec.ofNat 48 (leOf l)))))))

/-- The other front-end instructions complete (03 R56, R61, R69, R75; 04 R119, R120). -/
def Obligations.SystemInstructionResults : Prop :=
  ∀ (s : State) (c w : Nat),
    let tk := s.feTaken c w
    let x := tk.cell c
    let off := (s.cell c).fePc
    let bar := bits w 43 38
    let waits := tk.setCell c { x with bar := .waiting bar, barOff := off }
    let ea := (x.rA (bits w 29 26)).toNat
    let q := (bits w 43 30 + (x.rS (bits w 25 21)).toNat % 2 ^ 14) % 16384
    (s.feRuns c (op 8 2) w → tk.drained c = true → bit (tk.barrier bar).members c = true →
      (tk.barrier bar).owner = tk.partOf c → (tk.barrier bar).broken = false →
      exec (.bar c) s = .next (s.feNext c w (waits.arrive bar c (tk.partOf c)).1)) ∧
    (∀ l, let r := tk.noteRead c (tk.partOf c) ea 64
      s.feRuns c (op 11 0) w → ea < 2 ^ 44 → ea % 64 = 0 → tk.cellRead c .read ea 64 = .ok l →
      r.qReaches q = true → r.qPart (r.qTarget q) = tk.partOf c → isFeed (r.qTarget q) = false →
      exec (.enq c) s = .next (s.feNext c w (r.qAppend (r.qTarget q) l false))) ∧
    (s.feRuns c (op 14 0) w → tk.drained c = true → Tab.find (tk.unit c).binds (tk.itemJob c) = none →
      exec (.halt c) s = .next (s.feNext c w (tk.setUnitState c stIdle))) ∧
    (∀ it, s.feRuns c (op 14 0) w → tk.drained c = true → Tab.find (tk.unit c).binds (tk.itemJob c) = some it →
      exec (.halt c) s = .next (s.feNext c w (((tk.setUnitState c stIdle).setUnit c
        { tk.unit c with binds := Tab.erase (tk.unit c).binds (tk.itemJob c) }).postCpl c { item := it, status := 0 }))) ∧
    (∀ k, let u := s.feSees c w k
      let dst := ((u.cell c).rA (bits w 43 40)).toNat
      let im := ((u.setCell c { u.cell c with feSteps := 0 }).feAdvance c off).imageBytes c 1
      let p := u.putImage c dst k im
      s.feAt c (op 14 1) w k → u.drained c = true → dst < 2 ^ 44 → dst % 64 = 0 → u.imagePlace c dst = .ok () → p.2 = 0 →
      (k < 4 → exec (.snapInstruction c) s = .next ((p.1.setCell c { p.1.cell c with feSteps := k + 1 }).progress c 1)) ∧
      (4 ≤ k → exec (.snapInstruction c) s = .next (s.feNext c w (p.1.setCell c { p.1.cell c with feSteps := 0 })))) ∧
    (∀ k base len, let u := s.feSees c w k
      let n := max 1 ((len + 0x1FFFF) / 0x20000)
      let t := u.store (spadBase c + base + 0x20000 * k) (List.replicate (min 0x20000 (len - 0x20000 * k)) 0)
      s.feAt c (op 14 2) w k → u.drained c = true →
      ((u.cell c).rS (bits w 43 39)).toNat = base + len * 2 ^ 32 → base % 64 = 0 → len % 64 = 0 → base + len ≤ spadSize →
      (k + 1 < n → exec (.scrub c) s = .next ((t.setCell c { t.cell c with feSteps := k + 1 }).progress c 1)) ∧
      (n ≤ k + 1 → exec (.scrub c) s = .next (s.feNext c w (t.setCell c { t.cell c with feSteps := 0 })))) ∧
    (s.feRuns c (op 14 4) w → ∃ t, exec (.clrfl c) s = .next t ∧
      ∀ i, i < 5 → ∀ f, [stINV, stOVF, stUNF, stSAT, stNSC][i]? = some f →
        t.getF (UNIT_STATUS c) f = if bit w i then 0 else s.getF (UNIT_STATUS c) f)

/-- Delivery (03 R53 to R55). -/
def Obligations.StreamDelivery : Prop :=
  ∀ (s : State) (c w : Nat),
    let st := streamOf w
    let q := (s.cell c).stream st
    let delivers := fun code => s.feReady c = true ∧ s.fetch c = .ok w ∧ opCode w = code ∧
      q.q.length < (if st = .load then 64 else 32)
    let queued := ((s.fetchCount c).setCell c ((s.cell c).setStream st
      { q with q := q.q ++ [{ word := BitVec.ofNat 64 w, off := (s.cell c).fePc, ops := bindOps (s.cell c) w }] })).feAdvance c
        (s.cell c).fePc
    (delivers (op 2 0) → exec (.ldt c .deliver) s = .next queued) ∧
    (delivers (op 2 1) → exec (.ldw c .deliver) s = .next queued) ∧
    (delivers (op 3 0) → exec (.stt c .deliver) s = .next queued) ∧
    (delivers (op 3 1) → exec (.scat c .deliver) s = .next queued) ∧
    (delivers (op 4 0) → exec (.tzero c .deliver) s = .next queued) ∧
    (delivers (op 4 1) → exec (.tmma c .deliver) s = .next queued) ∧
    (delivers (op 4 2) → exec (.trd c .deliver) s = .next queued) ∧
    (delivers (op 5 0) → exec (.vadd c .deliver) s = .next queued) ∧
    (delivers (op 5 1) → exec (.vsub c .deliver) s = .next queued) ∧
    (delivers (op 5 2) → exec (.vmul c .deliver) s = .next queued) ∧
    (delivers (op 5 3) → exec (.vfma c .deliver) s = .next queued) ∧
    (delivers (op 5 4) → exec (.vmax c .deliver) s = .next queued) ∧
    (delivers (op 5 5) → exec (.vmin c .deliver) s = .next queued) ∧
    (delivers (op 5 6) → exec (.vexp c .deliver) s = .next queued) ∧
    (delivers (op 5 7) → exec (.vrcp c .deliver) s = .next queued) ∧
    (delivers (op 5 8) → exec (.vrsq c .deliver) s = .next queued) ∧
    (delivers (op 5 9) → exec (.vcmp c .deliver) s = .next queued) ∧
    (delivers (op 5 10) → exec (.vsel c .deliver) s = .next queued) ∧
    (delivers (op 5 11) → exec (.vand c .deliver) s = .next queued) ∧
    (delivers (op 5 12) → exec (.vor c .deliver) s = .next queued) ∧
    (delivers (op 5 13) → exec (.vxor c .deliver) s = .next queued) ∧
    (delivers (op 5 14) → exec (.vmov c .deliver) s = .next queued) ∧
    (delivers (op 5 15) → exec (.vbcast c .deliver) s = .next queued) ∧
    (delivers (op 5 16) → exec (.vld c .deliver) s = .next queued) ∧
    (delivers (op 5 17) → exec (.vst c .deliver) s = .next queued) ∧
    (delivers (op 6 0) → exec (.vdw c .deliver) s = .next queued) ∧
    (delivers (op 7 0) → exec (.rstat c .deliver) s = .next queued) ∧
    (delivers (op 7 1) → exec (.rnorm c .deliver) s = .next queued) ∧
    (delivers (op 9 0) → exec (.wopen c .deliver) s = .next queued) ∧
    (delivers (op 9 1) → exec (.wclose c .deliver) s = .next queued) ∧
    (delivers (op 10 0) → exec (.ckpt c .deliver) s = .next queued) ∧
    (delivers (op 10 1) → exec (.commit c .deliver) s = .next queued) ∧
    (delivers (op 12 0) → exec (.cvt c .deliver) s = .next queued) ∧
    (delivers (op 12 1) → exec (.cvtv c .deliver) s = .next queued) ∧
    (delivers (op 13 0) → exec (.gath c .deliver) s = .next queued)

/-- Running to the end (03 R55, R56). -/
def Obligations.StreamInstructionsRun : Prop :=
  ∀ (s : State) (c i : Nat) (st : Strm) (e : QEntry),
    let runs := fun code f => s.stRuns c code st i e ∧ s.planRuns f e = true
    let checks := fun (f : State → QEntry → Except Nat Plan) p => f (s.withDescs e) e = .ok p
    let fin := fun (p : Plan) => State.stDone c st i e p.total (runSteps p.step (p.total - e.steps) s e.steps).1
    (runs (op 2 0) (planLdt c) → ∃ p, checks (planLdt c) p ∧ exec (.ldt c .run) s = .next (fin p)) ∧
    (runs (op 2 1) (planLdw c) → ∃ p, checks (planLdw c) p ∧ exec (.ldw c .run) s = .next (fin p)) ∧
    (runs (op 3 0) (planStt c) → ∃ p, checks (planStt c) p ∧ exec (.stt c .run) s = .next (fin p)) ∧
    (runs (op 3 1) (planScat c) → ∃ p, checks (planScat c) p ∧ exec (.scat c .run) s = .next (fin p)) ∧
    (runs (op 4 0) (planTzero c) → ∃ p, checks (planTzero c) p ∧ exec (.tzero c .run) s = .next (fin p)) ∧
    (runs (op 4 1) (planTmma c) → ∃ p, checks (planTmma c) p ∧ exec (.tmma c .run) s = .next (fin p)) ∧
    (runs (op 4 2) (planTrd c) → ∃ p, checks (planTrd c) p ∧ exec (.trd c .run) s = .next (fin p)) ∧
    (runs (op 5 0) (planVadd c) → ∃ p, checks (planVadd c) p ∧ exec (.vadd c .run) s = .next (fin p)) ∧
    (runs (op 5 1) (planVsub c) → ∃ p, checks (planVsub c) p ∧ exec (.vsub c .run) s = .next (fin p)) ∧
    (runs (op 5 2) (planVmul c) → ∃ p, checks (planVmul c) p ∧ exec (.vmul c .run) s = .next (fin p)) ∧
    (runs (op 5 3) (planVfma c) → ∃ p, checks (planVfma c) p ∧ exec (.vfma c .run) s = .next (fin p)) ∧
    (runs (op 5 4) (planVmax c) → ∃ p, checks (planVmax c) p ∧ exec (.vmax c .run) s = .next (fin p)) ∧
    (runs (op 5 5) (planVmin c) → ∃ p, checks (planVmin c) p ∧ exec (.vmin c .run) s = .next (fin p)) ∧
    (runs (op 5 6) (planVexp c) → ∃ p, checks (planVexp c) p ∧ exec (.vexp c .run) s = .next (fin p)) ∧
    (runs (op 5 7) (planVrcp c) → ∃ p, checks (planVrcp c) p ∧ exec (.vrcp c .run) s = .next (fin p)) ∧
    (runs (op 5 8) (planVrsq c) → ∃ p, checks (planVrsq c) p ∧ exec (.vrsq c .run) s = .next (fin p)) ∧
    (runs (op 5 9) (planVcmp c) → ∃ p, checks (planVcmp c) p ∧ exec (.vcmp c .run) s = .next (fin p)) ∧
    (runs (op 5 10) (planVsel c) → ∃ p, checks (planVsel c) p ∧ exec (.vsel c .run) s = .next (fin p)) ∧
    (runs (op 5 11) (planVand c) → ∃ p, checks (planVand c) p ∧ exec (.vand c .run) s = .next (fin p)) ∧
    (runs (op 5 12) (planVor c) → ∃ p, checks (planVor c) p ∧ exec (.vor c .run) s = .next (fin p)) ∧
    (runs (op 5 13) (planVxor c) → ∃ p, checks (planVxor c) p ∧ exec (.vxor c .run) s = .next (fin p)) ∧
    (runs (op 5 14) (planVmov c) → ∃ p, checks (planVmov c) p ∧ exec (.vmov c .run) s = .next (fin p)) ∧
    (runs (op 5 15) (planVbcast c) → ∃ p, checks (planVbcast c) p ∧ exec (.vbcast c .run) s = .next (fin p)) ∧
    (runs (op 5 16) (planVld c) → ∃ p, checks (planVld c) p ∧ exec (.vld c .run) s = .next (fin p)) ∧
    (runs (op 5 17) (planVst c) → ∃ p, checks (planVst c) p ∧ exec (.vst c .run) s = .next (fin p)) ∧
    (runs (op 6 0) (planVdw c) → ∃ p, checks (planVdw c) p ∧ exec (.vdw c .run) s = .next (fin p)) ∧
    (runs (op 7 0) (planRstat c) → ∃ p, checks (planRstat c) p ∧ exec (.rstat c .run) s = .next (fin p)) ∧
    (runs (op 7 1) (planRnorm c) → ∃ p, checks (planRnorm c) p ∧ exec (.rnorm c .run) s = .next (fin p)) ∧
    (runs (op 9 0) (planWopen c) → ∃ p, checks (planWopen c) p ∧ exec (.wopen c .run) s = .next (fin p)) ∧
    (runs (op 9 1) (planWclose c) → ∃ p, checks (planWclose c) p ∧ exec (.wclose c .run) s = .next (fin p)) ∧
    (runs (op 10 0) (planCkpt c) → ∃ p, checks (planCkpt c) p ∧ exec (.ckpt c .run) s = .next (fin p)) ∧
    (runs (op 10 1) (planCommit c) → ∃ p, checks (planCommit c) p ∧ exec (.commit c .run) s = .next (fin p)) ∧
    (runs (op 12 0) (planCvt c) → ∃ p, checks (planCvt c) p ∧ exec (.cvt c .run) s = .next (fin p)) ∧
    (runs (op 12 1) (planCvtv c) → ∃ p, checks (planCvtv c) p ∧ exec (.cvtv c .run) s = .next (fin p)) ∧
    (runs (op 13 0) (planGath c) → ∃ p, checks (planGath c) p ∧ exec (.gath c .run) s = .next (fin p))

/-- One step (03 R56, R74). -/
def Obligations.StreamStepTakesOneStep : Prop :=
  ∀ (s t : State) (c i : Nat) (st : Strm) (e : QEntry) (p : Plan),
    let steps := fun code f => s.stRuns c code st i e ∧ f (s.withDescs e) e = .ok p ∧ e.steps < p.total ∧
      p.step s e.steps = .ok (t, 0)
    let q := (t.cell c).stream st
    let after := (t.setCell c ((t.cell c).setStream st { q with
      q := q.q.set i { q.q[i]?.getD e with steps := e.steps + 1, done := decide (p.total = e.steps + 1) } })).progress c 1
    (steps (op 2 0) (planLdt c) → exec (.ldt c .step) s = .next after) ∧
    (steps (op 2 1) (planLdw c) → exec (.ldw c .step) s = .next after) ∧
    (steps (op 3 0) (planStt c) → exec (.stt c .step) s = .next after) ∧
    (steps (op 3 1) (planScat c) → exec (.scat c .step) s = .next after) ∧
    (steps (op 4 0) (planTzero c) → exec (.tzero c .step) s = .next after) ∧
    (steps (op 4 1) (planTmma c) → exec (.tmma c .step) s = .next after) ∧
    (steps (op 4 2) (planTrd c) → exec (.trd c .step) s = .next after) ∧
    (steps (op 5 0) (planVadd c) → exec (.vadd c .step) s = .next after) ∧
    (steps (op 5 1) (planVsub c) → exec (.vsub c .step) s = .next after) ∧
    (steps (op 5 2) (planVmul c) → exec (.vmul c .step) s = .next after) ∧
    (steps (op 5 3) (planVfma c) → exec (.vfma c .step) s = .next after) ∧
    (steps (op 5 4) (planVmax c) → exec (.vmax c .step) s = .next after) ∧
    (steps (op 5 5) (planVmin c) → exec (.vmin c .step) s = .next after) ∧
    (steps (op 5 6) (planVexp c) → exec (.vexp c .step) s = .next after) ∧
    (steps (op 5 7) (planVrcp c) → exec (.vrcp c .step) s = .next after) ∧
    (steps (op 5 8) (planVrsq c) → exec (.vrsq c .step) s = .next after) ∧
    (steps (op 5 9) (planVcmp c) → exec (.vcmp c .step) s = .next after) ∧
    (steps (op 5 10) (planVsel c) → exec (.vsel c .step) s = .next after) ∧
    (steps (op 5 11) (planVand c) → exec (.vand c .step) s = .next after) ∧
    (steps (op 5 12) (planVor c) → exec (.vor c .step) s = .next after) ∧
    (steps (op 5 13) (planVxor c) → exec (.vxor c .step) s = .next after) ∧
    (steps (op 5 14) (planVmov c) → exec (.vmov c .step) s = .next after) ∧
    (steps (op 5 15) (planVbcast c) → exec (.vbcast c .step) s = .next after) ∧
    (steps (op 5 16) (planVld c) → exec (.vld c .step) s = .next after) ∧
    (steps (op 5 17) (planVst c) → exec (.vst c .step) s = .next after) ∧
    (steps (op 6 0) (planVdw c) → exec (.vdw c .step) s = .next after) ∧
    (steps (op 7 0) (planRstat c) → exec (.rstat c .step) s = .next after) ∧
    (steps (op 7 1) (planRnorm c) → exec (.rnorm c .step) s = .next after) ∧
    (steps (op 9 0) (planWopen c) → exec (.wopen c .step) s = .next after) ∧
    (steps (op 9 1) (planWclose c) → exec (.wclose c .step) s = .next after) ∧
    (steps (op 10 0) (planCkpt c) → exec (.ckpt c .step) s = .next after) ∧
    (steps (op 10 1) (planCommit c) → exec (.commit c .step) s = .next after) ∧
    (steps (op 12 0) (planCvt c) → exec (.cvt c .step) s = .next after) ∧
    (steps (op 12 1) (planCvtv c) → exec (.cvtv c .step) s = .next after) ∧
    (steps (op 13 0) (planGath c) → exec (.gath c .step) s = .next after)

/-- The VECTOR class (04 R106, 02 R28, R30, R44). -/
def Obligations.VectorResults : Prop :=
  ∀ (s : State) (c n : Nat) (e : QEntry),
    let w := e.word.toNat
    let x := s.cell c
    let f := (Fmt.ofCode (bits w 23 20)).getD .fp32
    let va := fun l => x.rV (bits w 38 34) l
    let vb := fun l => x.rV (bits w 33 29) l
    let vc := fun l => x.rV (bits w 28 24) l
    -- a lane whose elements are `g` of the elements of the sources
    let each := fun (g : Nat → Nat → Nat → Nat) (l : Nat) =>
      laneOf f ((List.range f.perLane).map (fun h => g (laneElem f (va l) h) (laneElem f (vb l) h) (laneElem f (vc l) h)))
    let num := fun (gi : Int → Int → Int → Int) (gf : FFmt → Machine.Num → Machine.Num → Machine.Num → Nat × Flags) =>
      each (fun a b d => if f = .int32 then twos 32 (clampInt 32 (gi (signedOf 32 a) (signedOf 32 b) (signedOf 32 d))).1
        else (gf f.layout (f.read a) (f.read b) (f.read d)).1)
    let runs := fun code => s.stRuns c code .vector n e ∧ e.steps = 0
    -- `lane` in Vd, the rest as before, memory as in `m`
    let wrote := fun (m : State) (lane : Nat → Nat) (t : State) =>
      (∀ l, l < 64 → (t.cell c).rV (bits w 43 39) l = lane l % 2 ^ 32) ∧
      (∀ r l, l < 64 → r ≠ bits w 43 39 → (t.cell c).rV r l = x.rV r l) ∧
      (t.cell c).s = x.s ∧ (t.cell c).a = x.a ∧ (t.cell c).t = x.t ∧ (∀ d, d ≠ c → t.cell d = s.cell d) ∧ t.mem = m.mem
    (runs (op 5 0) → ∃ t, exec (.vadd c .run) s = .next t ∧ wrote s (num (fun a b _ => a + b) (fun f a b _ => addNum f a b)) t) ∧
    (runs (op 5 1) → ∃ t, exec (.vsub c .run) s = .next t ∧
      wrote s (num (fun a b _ => a - b) (fun f a b _ => addNum f a b.negate)) t) ∧
    (runs (op 5 2) → ∃ t, exec (.vmul c .run) s = .next t ∧ wrote s (num (fun a b _ => a * b) (fun f a b _ => mulRound f a b)) t) ∧
    (runs (op 5 3) → ∃ t, exec (.vfma c .run) s = .next t ∧
      wrote s (num (fun a b d => a * b + d) (fun f a b d => fmaRound f a b d)) t) ∧
    (runs (op 5 4) → ∃ t, exec (.vmax c .run) s = .next t ∧
      wrote s (num (fun a b _ => max a b) (fun f a b _ => roundNum f (a.maximum b))) t) ∧
    (runs (op 5 5) → ∃ t, exec (.vmin c .run) s = .next t ∧
      wrote s (num (fun a b _ => min a b) (fun f a b _ => roundNum f (a.minimum b))) t) ∧
    (runs (op 5 6) → ∃ t, exec (.vexp c .run) s = .next t ∧ wrote s (num (fun a _ _ => a) (fun f a _ _ => vexp f a)) t) ∧
    (runs (op 5 7) → ∃ t, exec (.vrcp c .run) s = .next t ∧ wrote s (num (fun a _ _ => a) (fun f a _ _ => vrcp f a)) t) ∧
    (runs (op 5 8) → ∃ t, exec (.vrsq c .run) s = .next t ∧ wrote s (num (fun a _ _ => a) (fun f a _ _ => vrsq f a)) t) ∧
    (runs (op 5 9) → ∃ t, exec (.vcmp c .run) s = .next t ∧ wrote s (fun l =>
      let m := fun h => if vcmpHolds (bits w 2 0) (f.read (laneElem f (va l) h)) (f.read (laneElem f (vb l) h)) then 1 else 0
      if f = .bf16 ∨ f = .fp16 then m 0 * 0xFFFF + m 1 * 0xFFFF * 2 ^ 16 else m 0 * 0xFFFFFFFF) t) ∧
    (runs (op 5 10) → ∃ t, exec (.vsel c .run) s = .next t ∧ wrote s (fun l => if vc l = 0 then vb l else va l) t) ∧
    (runs (op 5 11) → ∃ t, exec (.vand c .run) s = .next t ∧ wrote s (fun l => va l &&& vb l) t) ∧
    (runs (op 5 12) → ∃ t, exec (.vor c .run) s = .next t ∧ wrote s (fun l => va l ||| vb l) t) ∧
    (runs (op 5 13) → ∃ t, exec (.vxor c .run) s = .next t ∧ wrote s (fun l => va l ^^^ vb l) t) ∧
    (runs (op 5 14) → ∃ t, exec (.vmov c .run) s = .next t ∧ wrote s va t) ∧
    (runs (op 5 15) → ∃ t, exec (.vbcast c .run) s = .next t ∧ wrote s (fun _ => e.ops.getD 0 0) t) ∧
    (∀ a b, vecAddr c e = .ok a → e.descs = [] → s.cellRead c .own a 256 = .ok b → runs (op 5 16) →
      ∃ t, exec (.vld c .run) s = .next t ∧ wrote (s.noteRead c (s.partOf c) a 256) (fun l => fieldAt b (4 * l) 4) t) ∧
    (∀ a, let put := s.cellWrite c 0 a (byteList ((List.range 64).flatMap (fun l => bytesOf 4 (va l))))
      vecAddr c e = .ok a → put.2 = false → runs (op 5 17) →
      exec (.vst c .run) s = .next (State.stDone c .vector n e 1 put.1))

/-- TZERO (04 R103). -/
def Obligations.TileZeroing : Prop :=
  ∀ (s : State) (c i : Nat) (e : QEntry), let w := e.word.toNat
    let k := bits w 43 41
    s.stRuns c (op 4 0) .tensor i e → e.steps = 0 → ∃ t, exec (.tzero c .run) s = .next t ∧
      (∀ m n, m < 128 → n < 64 → (t.cell c).rT k m n = 0) ∧
      (∀ q m n, m < 128 → n < 64 → q ≠ k → (t.cell c).rT q m n = (s.cell c).rT q m n) ∧
      bit (t.cell c).tfp k = decide (bits w 40 40 = 1) ∧ bit (t.cell c).tsat k = false ∧
      (∀ q, q ≠ k → bit (t.cell c).tfp q = bit (s.cell c).tfp q ∧ bit (t.cell c).tsat q = bit (s.cell c).tsat q) ∧ t.mem = s.mem

/-- The tensor stream on tiles (04 R104; 02 R39 to R42). -/
def Obligations.TensorTileResults : Prop :=
  ∀ (s t : State) (c j : Nat) (e : QEntry) (a b : Desc) (p : Plan), let k := bits e.word.toNat 43 41
    let u := s.withDescs e
    u.desc c (e.op 0) (e.op 2) = .ok a → u.desc c (e.op 1) (e.op 3) = .ok b → planTmma c u e = .ok p → p.step s j = .ok (t, 0) →
      (∀ m n x y, m < a.d1 → n < b.d1 → s.readSeg c .own a m (64 * j) 64 = .ok x → s.readSeg c .own b n (64 * j) 64 = .ok y →
        (t.cell c).rT k m n = (tmmaCell a.fmt.isInt a.fmt b.fmt ((s.cell c).rT k m n) x y).1 % 2 ^ 32) ∧
      (∀ q m n, m < 128 → n < 64 → q ≠ k → (t.cell c).rT q m n = (s.cell c).rT q m n)

/-- Windows and checkpoints as a cell commands them (04 R116 to R118). -/
def Obligations.WindowInstructionResults : Prop :=
  ∀ (s : State) (c i : Nat) (e : QEntry),
    let w := e.word.toNat
    let n := bits w 43 40
    let done := State.stDone c .store i e 1
    e.steps = 0 →
    (∀ base limit, s.stRuns c (op 9 0) .store i e → s.winGranted c n = true → e.op 0 = base + limit * 2 ^ 32 → base % 64 = 0 →
      limit % 64 = 0 → base < limit → limit ≤ spadSize →
      s.winRangeOk c n (base / 64) (limit / 64) (s.getF (winCtl c n) winLANES) (bits w 29 28) = true →
      exec (.wopen c .run) s = .next (done ((((((((s.setF (winCtl c n) winBASE (base / 64)).setF (winCtl c n) winLIMIT (limit / 64)).setF
        (winCtl c n) winPART (s.partOf c)).setF (winCtl c n) winMODE (bits w 29 28)).setF (winCtl c n) winOPEN 1).setF
        (winMask c n) winMASK (e.op 1))).winRound c n))) ∧
    (s.stRuns c (op 9 1) .store i e → s.winGranted c n = true →
      exec (.wclose c .run) s = .next (done (s.setF (winCtl c n) winOPEN 0))) ∧
    (∀ d k, s.stRuns c (op 10 1) .store i e → d < 48 → k < 16 → e.op 0 = d + 64 * k + 1024 →
      exec (.commit c .run) s = .next (done (s.send { src := c, part := s.partOf c, tag := s.laneTag c, dst := d, ins := e.ins, body := .commit k }))) ∧
    (s.stRuns c (op 10 0) .store i e → s.flag (UNIT_RG c) rgV = true →
      exec (.ckpt c .run) s = .next (done ((s.send { src := c, part := s.partOf c, tag := 0, dst := 64 + s.getF (UNIT_RG c) rgCMP, ins := e.ins, body := .deposit (s.getF (UNIT_RG c) rgRG) (bits w 43 28) (s.getF (UNIT_SIG c) sigSIG) (s.getF (UNIT_RG c) rgPOS) }).setF
        (UNIT_SIG c) sigSIG 0))) ∧
    (s.stRuns c (op 10 0) .store i e → s.flag (UNIT_RG c) rgV = false →
      exec (.ckpt c .run) s = .next (done ((((List.range 8).foldl
        (fun s t => s.sendRelease c (s.partOf c) (SOLO_TGT c t) 0 (bits w 43 28)) s).joinMark c).setF (UNIT_SIG c) sigSIG 0)))

/-- The life of a stream instruction around its steps (03 R52 to R61, R72; 04 R83, R118). -/
def Obligations.StreamControlResults : Prop :=
  ∀ (s : State) (c : Nat) (st : Strm),
    let x := s.cell c
    let q := x.stream st
    s.cellGoes c = true → c < 48 →
    (∀ e, let i := firstOpen q.q
      let w := e.word.toNat
      let tk := s.takeTok c w
      let ds := tk.readDescs c e
      let u := ds.foldl (fun s d => s.noteRead c (s.partOf c) d.1 64) tk
      let n := (u.cell c).storeSeq + 1
      q.q[i]? = some e → e.begun = false → q.stall = none → (opCode w = op 10 0 → i = 0) → s.tokOk c w = true → encOk w = true →
      streamOf w = st →
      exec (.streamInstructionBegin c st) s = .next (u.setCell c { (u.cell c).setStream st
        { q with q := q.q.set i { e with begun := true, ins := if st = .store then n else 0, descs := ds } } with
          storeSeq := if st = .store then n else (u.cell c).storeSeq })) ∧
    (∀ e r, let w := e.word.toNat
      q.q = e :: r → e.done = true → q.stall = none → (st = .store → s.answered c e.ins = true) → e.bad = 0 →
      (insP w = 0 → exec (.streamInstructionComplete c st) s = .next (s.dequeue c st e.off)) ∧
      (insP w = 1 → x.rK (insPTOK w) < 255 → exec (.streamInstructionComplete c st) s = .next ((s.post c (insPTOK w)).dequeue c st e.off)) ∧
      (insP w = 1 → x.rK (insPTOK w) = 255 →
        exec (.streamInstructionComplete c st) s = .next (s.setCell c (x.setStream st { q with stall := some s.now })))) ∧
    (∀ k off since, s.stalledPost c st = some (k, off, since) → x.rK k < 255 →
      exec (.postStallRelease c st) s = .next (if st = .front then (s.post c k).setCell c { (s.post c k).cell c with feStall := none }
        else (s.post c k).dequeue c st off)) ∧
    (∀ k off since t first rest k' off', s.stalledPost c st = some (k, off, since) → x.rK k = 255 → s.now ≤ t →
      since + us (if s.getF (UNIT_CTRL c) ctrlSTALL = 0 then 2000 else s.getF (UNIT_CTRL c) ctrlSTALL) ≤ t →
      s.stalledSince c since = first :: rest → s.stalledPost c first = some (k', off', since) →
      exec (.tokenStall c st t) s = .next ((if rest = [] then s.at t else (s.at t).setF (UNIT_STATUS c) stMULTI 1).cellError c errStall
        first off')) ∧
    (∀ b, x.bar = .released b → exec (.barrierRelease c) s = .next (s.setCell c { x with bar := .none }))

/-- Commands on UNIT_CTRL and UNIT_SNAP (03 R67, R74 to R76, R78, R80, R81). -/
def Obligations.UnitControlResults : Prop :=
  ∀ (s : State) (who : Who) (u w : Nat),
    let may := who = .islandA ∨ s.isRuntimeOf who u = true
    let f := s.ctrlFields who u w
    let e := f.endSteps u
    (u < 63 → ctrlUNIT_RESET.of w = 1 → exec (.unitReset .islandA u w) s = .next (s.unitReset u) ∧
      (u < 48 → (s.unitReset u).cell u = { Cell.reset with prog := (s.cell u).prog, storeSeq := (s.cell u).storeSeq } ∧
        (s.unitReset u).unitState u = (if s.unitState u = stFenced ∨ s.unitState u = stOut then s.unitState u else stIdle))) ∧
    (may → u < 63 → ctrlJOB_RESET.of w = 1 → ctrlUNIT_RESET.of w = 0 → s.ctrlClosed u = false →
      exec (.jobReset who u w) s = .next (f.jobReset u)) ∧
    (may → u < 48 → ctrlSTOP.of w = 1 → ctrlUNIT_RESET.of w = 0 → ctrlJOB_RESET.of w = 0 → s.unitState u = stRunning →
      exec (.stop who u w) s = .next (if e.unitState u = stRunning then e.setUnitState u stStopped else e)) ∧
    (may → u < 48 → ctrlRESUME.of w = 1 → ctrlUNIT_RESET.of w = 0 → ctrlJOB_RESET.of w = 0 → ctrlSTOP.of w = 0 → s.unitState u = stStopped →
      exec (.resume who u w) s = .next ((f.setCell u { s.cell u with idleStop := false }).setUnitState u
        (if (s.cell u).idleStop then stIdle else stRunning))) ∧
    (let a := snapADDR.of w * 64
     let s1 := s.setF (UNIT_SNAP u) snapADDR (snapADDR.of w)
     u < 48 → s.getF (UNIT_SNAP u) snapSTATUS ≠ 1 →
     (let e := s1.endSteps u
      let im := byteList (e.imageBytes u 0)
      let body := e.writeMem u (e.partOf u) (a + 64) (im.drop 64)
      let head := body.1.writeMem u (body.1.partOf u) a (im.take 64)
      may → snapOP.of w = 1 → s.unitState u < stFenced → s1.snapPlaceOk who u a imageSize true = true → e.unitState u < stFenced →
      (e.asking u = false → (e.unit u).pend = [] → body.2 = false → head.2 = false →
        exec (.snap who u w) s = .next (head.1.snapEnd u 0)) ∧
      (e.asking u = true → exec (.snap who u w) s =
        .next (((e.setUnit u { e.unit u with pend := (e.unit u).pend ++ [.snap who a] }).setF (UNIT_SNAP u) snapFAIL 0).setF
          (UNIT_SNAP u) snapSTATUS 1))) ∧
     (let img := s1.loadImage u (s1.rdAt a) stStopped
      let id := s1.le (a + 0x10) 4
      snapOP.of w = 2 → s.unitState u = stIdle ∨ s.unitState u = stStopped →
      s1.snapPlaceOk .islandA u a imageSize false = true → s1.readFails u (s1.partOf u) a imageSize = false →
      s1.le a 4 = imageMagic → s1.le (a + 4) 2 = 1 → imageOk (s1.rdAt a) = true →
      exec (.restore .islandA u w) s = .next ((img.setCell u { img.cell u with
        idleStop := decide (id = 0), runs := if id = 0 then none else some id }).snapEnd u 0)) ∧
     (let rd := s1.rdAt a
      let len := rd 8 4
      let dest := rd 0xC 4
      let pages := (List.range 64).filter (fun k => decide (dest < (k + 1) * 4096 ∧ k * 4096 < dest + len))
      snapOP.of w = 3 → s1.snapPlaceOk .islandA u a 64 false = true → s1.readFails u (s1.partOf u) a 64 = false → segmentOk rd = true →
      s1.snapPlaceOk .islandA u a (64 + len) false = true → s1.segmentFits u dest len (rd 0x14 1) (rd 0x15 1) = true →
      s1.readFails u (s1.partOf u) a (64 + len) = false → crc32c (s1.bytes (a + 64) len) = rd 0x10 4 →
      ∃ t, exec (.pload .islandA u w) s = .next t ∧ (∀ i, i < len / 8 → Tab.get 0 (t.cell u).prog (dest / 8 + i) = BitVec.ofNat 64 (rd (64 + 8 * i) 8)) ∧
        t.getF (UNIT_PVALID u) pvalidPAGES = pages.foldl setBit (s.getF (UNIT_PVALID u) pvalidPAGES) % 2 ^ 64 ∧
        t.getF (UNIT_SNAP u) snapSTATUS = 2))

/-- Arrivals (03 R60 to R65). -/
def Obligations.BarrierArrivals : Prop :=
  (∀ (s : State) (b slot p : Nat), let x := s.barrier b
    bit x.members slot = true → x.owner = p → x.broken = false → bit x.arrived slot = false → x.held = [] →
    ∃ t, s.arrive b slot p = (t, .arrived) ∧
      (setBit x.arrived slot ≠ x.members → t = s.setBarrier b { x with arrived := setBit x.arrived slot }) ∧
      (setBit x.arrived slot = x.members →
        (t.barrier b).arrived = 0 ∧ (t.barrier b).lastSlot = slot ∧ (t.barrier b).lastValid = true ∧
        ∀ c, c < 48 → (s.cell c).bar = .waiting b → (t.cell c).bar = .released b)) ∧
  (∀ (s : State) (u : Nat) (it : WorkItem), let b := it.prog % 64
    48 ≤ u → u < 63 → s.unitState u = stRunning → s.itemOf u = some it → it.type = 4 → s.unacked u = false →
    bit (s.barrier b).members u = true → (s.barrier b).owner = s.partOf u → (s.barrier b).broken = false →
    exec (.arrive u) s = .next (((s.arrive b u (s.partOf u)).1.setUnitState u stIdle).endItem u 0 id)) ∧
  (∀ (s : State) (who : Who) (p w : Nat), let b := bhBID.of w
    who = .runtime p ∨ who = .user p → p < 8 →
    bit (s.barrier b).members 63 = true → (s.barrier b).owner = p → (s.barrier b).broken = false →
    exec (.barHart who p w) s = .next ((((s.arrive b 63 p).1.setF (BAR_HART p) bhREFUSED 0).setF (BAR_HART p) bhLAST (b + 1)).setF
      (BAR_HART p) bhBROKEN 0))

/-- What arrives (05 R131 to R136). -/
def Obligations.ArrivalsAtWindows : Prop :=
  ∀ (s : State) (n : Nat) (m : Msg),
    (∀ a bs, let w := (s.judgeWrite m a bs.length).1
      let off := m.tag * s.laneLen m.dst w
      let d := s.dropMsg n
      let d := if s.getF (winCtl m.dst w) winMODE = 1 then d.setWinHold m.dst w { s.winHold m.dst w with
          written := (s.winHold m.dst w).written.insert (((winOffset m.dst a).2 + off) / 64) } else d
      let put := d.writeWords (a + off) bs
      s.nextMsg n 0 = some m → m.body = .write a bs → (s.judgeWrite m a bs.length).2 = 0 →
      exec (.remoteWriteArrival n) s = .next ((if put.2 then put.1.tell m.src m.ins (memErr (a + off)) else put.1).settle m.src)) ∧
    (∀ w, s.nextMsg n 1 = some m → m.body = .commit w → s.judgeCommit m w = 0 → (s.winHold m.dst w).wait = none →
      exec (.commitArrival n) s = .next (((s.dropMsg n).winAdvanceOr m.dst w m.tag m.src m.ins).settle m.src)) ∧
    (∀ w lane, s.nextMsg n 2 = some m → m.body = .release w lane → s.fencedAt m.dst m.src = false →
      s.getF (winCtl m.dst w) winMODE ≠ 2 → s.flag (winCtl m.dst w) winOPEN = true → lane < s.getF (winCtl m.dst w) winLANES →
      s.flag (winStat m.dst w) winSEALED = false → (s.winHold m.dst w).wait = none →
      exec (.releaseArrival n) s = .next ((s.dropMsg n).winAdvanceOr m.dst w lane 64 0)) ∧
    (∀ c w lane src ins, (s.winHold c w).wait = some (lane, src, ins) → (s.cell c).rK (s.getF (winCtl c w) winGTOK) < 255 →
      exec (.generationTokenWait c w) s = .next (s.winAdvance c w lane))

/-- Window registers (05 R129, R130; 09 R254). -/
def Obligations.WindowRegisterWrites : Prop :=
  ∀ (s : State) (who : Who) (u win w : Nat), (u < 48 ∧ win < 16) ∨ (u = 63 ∧ win < 8) →
    (who = .islandA ∨ (who = .islandB ∧ u = 63) →
      (winOPEN.of w = 1 → winLANES.of w ≠ 0 → winMODE.of w ≠ 3 →
        s.winRangeOk u win (winBASE.of w) (winLIMIT.of w) (winLANES.of w) (winMODE.of w) = true →
        exec (.winCtlOpen who u win w) s = .next ((s.loadF (winCtl u win) winCtlFields w).winRound u win)) ∧
      (winOPEN.of w = 0 → winLANES.of w ≠ 0 → winMODE.of w ≠ 3 →
        exec (.winCtlClose who u win w) s = .next (s.loadF (winCtl u win) winCtlFields w)) ∧
      exec (.winMaskWrite who u win w) s = .next (s.setF (winMask u win) winMASK w)) ∧
    (∀ p, who = .runtime p → exec (.winCtlOpen who u win w) s = .next s.refuseAccess ∧
      exec (.winCtlClose who u win w) s = .next s.refuseAccess ∧ exec (.winMaskWrite who u win w) s = .next s.refuseAccess)

/-- Writes to queues (10 R269 to R271, R277). -/
def Obligations.QueueRegisterResults : Prop :=
  ∀ (s : State) (q p : Nat),
    let q' := s.qTarget q
    let admits := fun (who : Who) => who = .islandA ∨ (who = .runtime p ∨ who = .user p) ∧ isFeed q' = false
    q < 16640 →
    ((s.flag (qCtl q) qRDRV = true → s.flag (qCtl q') qRDRV = false) → s.qEn q' = true → s.qPart q' = p →
      (∀ who l, admits who → l.length = 64 → s.flag (qCtl q') qPMODE = false →
        (s.qFull q' = false → exec (.push who q l) s = .next (s.qAppend q' l (decide (who = .islandA)))) ∧
        (s.qFull q' = true → exec (.push who q l) s = .next ((s.setF (qCtl q') qOVERRUN 1).event 9))) ∧
      (∀ l r, l.length = 64 → r ≠ p → exec (.push (.runtime r) q l) s = .next s.refuseAccess) ∧
      (∀ who l, let v := leOf (l.take 4)
        let t := s.qTailOf q'
        admits who → l.length = 8 → s.flag (qCtl q') qPMODE = true → newer 32 t v = false →
        subMod 32 v (s.qHead q') ≤ s.qDepth q' →
        exec (.swTailWrite who q 0 l) s = .next ({ s with
          qIsland := (List.range (subMod 32 v t)).foldl (fun m i => Tab.set false m (65536 * q' + (t + i) % s.qDepth q') false)
            s.qIsland }.setF (qTail q') qTAIL v))) ∧
    (∀ w who, who = .islandA ∨ (who = .runtime p ∧ s.qPart q = p ∧ s.qIsCq q = true) →
      let v := qHEAD.of w
      newer 32 (s.qHead q) v = false → newer 32 v (s.qTailOf q) = false → subMod 32 v (s.qHead q) ≠ 2 ^ 31 →
      subMod 32 (s.qTailOf q) v ≠ 2 ^ 31 → exec (.qcfgHeadWrite who q w) s = .next (s.setF (qPtr q) qHEAD v))

/-- Work items (10 R272 to R275; 03 R68). -/
def Obligations.WorkTakenAndCompleted : Prop :=
  ∀ (s : State) (u t : Nat),
    let s1 := s.at t
    (∀ q it, let n := s1.qNext q
      let a := s1.qEntryAddr q n
      s1.mayTake u = true → s1.pickQueue u = some q → s1.readFails 65 (s1.qPart q) a 64 = false →
      it = parseItem q n (s1.jobOf u) s1.now (s1.qEntry q n) →
      let s2 := (s1.noteRead 65 (s1.qPart q) a 64).setF (qPtr q) qNEXT (n + 1)
      s2.badItem u q it (s1.qEntry q n) = false → (it.cut && s2.pastDeadline u it) = false →
      let s3 := s2.setUnit u { s2.unit u with binds := Tab.insert (s2.unit u).binds (s1.jobOf u) it, told := 0 }
      exec (.workItemTake u t) s = .next (if u < 48 then s3.startCell u it
        else if it.type = 1 then (s3.setUnitState u stRunning).setBusy u 1 else s3.setUnitState u stRunning)) ∧
    (∀ it, u < 48 → ((s.startCell u it).cell u).fePc = it.prog ∧ ((s.startCell u it).cell u).rA 0 = BitVec.ofNat 48 it.arg ∧
      ((s.startCell u it).cell u).rS 1 = BitVec.ofNat 64 it.cslot ∧ ((s.startCell u it).cell u).k = [] ∧
      ((s.startCell u it).cell u).load.q = [] ∧ ((s.startCell u it).cell u).loops = [] ∧ (s.startCell u it).unitState u = stRunning) ∧
    (∀ q, let n := s.qNext q
      let a := s.qEntryAddr q n
      s.mayTake u = true → s.pickQueue u = some q → s.readFails 65 (s.qPart q) a 64 = true →
      let s2 := ((s.countEcc a true).setF (qPtr q) qNEXT (n + 1)).setF (qPtr q) qHEAD (n + 1)
      exec (.unreadableEntry u) s = .next ((s2.event 33).notice (s2.qPart q) (s2.jobState (s2.getF (qCtl q) qJIDX)) (s2.getF (qCtl q) qJIDX) 4
        (s2.getF (JOB_STAT (s2.getF (qCtl q) qJIDX)) jsJOBID) n q)) ∧
    (∀ p rest, (s1.unit u).comps = p :: rest → s1.unacked u = false → s1.unitState u ≠ stFenced →
      let s2 := (s1.setUnit u { s1.unit u with comps := rest, told := 0 }).dropRegs u
      let s2 : State := { s2 with imgs := Tab.erase s2.imgs u }
      let p' := toldCpl u (s1.unit u).told { p with errMulti := s2.getF (UNIT_STATUS u) stMULTI }
      let s3 := s2.postCpl u p'
      exec (.completionPush u t) s = .next (if p'.status = 1 ∧ ¬(u < 48 ∧ s3.flag (UNIT_RG u) rgV = true) then s3.jobFault p'.item.jidx else s3))

/-- The frame schedule (10 R280 to R284, 03 R77). -/
def Obligations.ScheduleResults : Prop :=
  ∀ (s : State) (u t : Nat), u < 63 →
    let s1 := s.at t
    let x := s1.unit u
    let m := s1.getF (UNIT_PART u) upMISSED
    exec (.slotBoundary u t) s = .next (s1.slotSwitch u (s1.entryNow u)) ∧
    (∀ e, u < 48 → (s1.unit u).pend = [] → s1.unitState u < stFenced → s1.entryNow u = e →
      (s1.jobOf u ≠ (if e.blotter then 0xFF else e.jidx) ∨ s1.flag (UNIT_PART u) upBLOTTER ≠ e.blotter) →
      (s1.endSteps u).asking u = false → ((s1.endSteps u).unit u).pend = [] →
      exec (.slotBoundary u t) s = .next ((s1.endSteps u).switchCell u e)) ∧
    (s1.trig.slaved = false → x.frameAt + 25000000 + 1000 ≤ s1.now →
      let s2 := (({ s1 with now := x.frameAt + 25000000 } : State).beginFrame u (s1.frameSeq u + 1))
      let s3 := (((({ s2 with now := s1.now } : State).setF (UNIT_PART u) upALIGNED 0).setF (UNIT_PART u) upMISSED (min 3 (m + 1))).event 4)
      exec (.frameSelfWrap u t) s = .next (if m + 1 = 3 then s3.raiseSafe 2 else s3)) ∧
    (∀ seq, x.frameAt + 25000000 ≤ s1.now + 1000 → s1.now ≤ x.frameAt + 25000000 + 1000 →
      exec (.frameStartReceive u seq t) s = .next (((s1.beginFrame u seq).setF (UNIT_PART u) upALIGNED 1).setF (UNIT_PART u) upMISSED 0)) ∧
    (∀ seq, (s1.now + 1000 < x.frameAt + 25000000 ∨ x.frameAt + 25000000 + 1000 < s1.now) → m = 0 → s1.trig.slaved = false →
      exec (.frameStartReceive u seq t) s = .next (s1.event 5)) ∧
    (let due := x.binds.filter (fun b => b.2.cut && s1.pastDeadline u b.2)
     s1.unitState u < stFenced →
     (48 ≤ u → due.any (fun b => decide (b.1 = s1.itemJob u)) = true → exec (.deadlineExpiry u t) s = .next (s1.cutEngine u 4)) ∧
     (u < 48 → exec (.deadlineExpiry u t) s = .next (due.foldl (fun s b => s.cutCell u b.1) s1)) ∧
     (∀ j it, j ≠ s1.itemJob u → Tab.find x.binds j = some it →
       ((s1.cutCell u j).unit u).comps = x.comps ++ [{ item := it, status := 4 }]) ∧
     (∀ it, let e := s1.endSteps u
       Tab.find (e.unit u).binds (s1.itemJob u) = some it →
       ((s1.cutCell u (s1.itemJob u)).unit u).comps = ((e.jobReset u).unit u).comps ++ [{ item := it, status := 4 }]))

/-- Maintenance of memory (05 R126 to R128, R140 to R150). The pattern that a tested word is left with is the model's choice (log 15), and
is not stated. -/
def Obligations.MemoryMaintenanceResults : Prop :=
  ∀ (s : State),
    (∀ a, Tab.get 0 s.ecc (a / 8) = 3 → ∃ t, exec (.eccWriteBack a) s = .next t ∧ Tab.get 0 t.ecc (a / 8) = 0 ∧ t.mem = s.mem) ∧
    (∀ a c, Tab.get 0 s.ecc (a / 8) = 2 → place (a / 8 * 8) 8 = .spad c → c < 48 → s.unitState c ≠ stOut →
      (s.takeOut (a / 8 * 8)).unitState c = stOut ∧ exec (.wordTest a false) s = .next ((s.takeOut (a / 8 * 8)).capacityLost c)) ∧
    (∀ a c, Tab.get 0 s.ecc (a / 8) = 2 → place (a / 8 * 8) 8 = .spad c → s.unitState c ≠ stOut →
      ∃ t, exec (.wordTest a true) s = .next t ∧ Tab.get 0 t.ecc (a / 8) = 0) ∧
    (∀ ch a t, a < mainSize → channelOf a = ch → Tab.get 0 s.ecc (a / 8) = 1 →
      exec (.patrol ch [a] [] t) s = .next { (s.at t).countEcc a false with ecc := Tab.set 0 ((s.at t).countEcc a false).ecc (a / 8) 0 } ∧
      exec (.patrol ch [] [a] t) s = .next { (s.at t).countEcc a true with ecc := Tab.set 0 ((s.at t).countEcc a true).ecc (a / 8) 2 }) ∧
    (∀ ch a, ch < 24 → channelOf a = ch → a < mainSize → exec (.edcRetry ch a 1) s = .next (s.sil1 376 ch) ∧
      (s.edc.contains (a / 64) = false → exec (.edcRetry ch a 4) s =
        .next { ((s.sil1 376 ch).sil1 376 ch).sil1 376 ch with edc := s.edc ++ [a / 64] })) ∧
    (∀ p e lo, p < 8 → e < 64 → let low := [rgnVALID, rgnRD, rgnWR, rgnMIRROR, rgnBASE].foldl (fun w f => w + f.of lo * 2 ^ f.lo) 0
      let o : RgnOld := { lo := low, hi := s.wordF (RGN_HI p e) [rgnSIZE, rgnMBASE] }
      s.rgnAccept p e o = true → ∃ t, exec (.regionEntryWrite .islandA p e lo) s = .next t ∧ Tab.get {} t.rgnCur (p * 64 + e) = o ∧
        (∀ pt, pt < 66 → t.rgn pt p e = s.rgn pt p e) ∧
        (∀ pt, pt < 66 → ∃ r, exec (.regionEntrySwitch pt p e) t = .next r ∧ r.rgn pt p e = (o.lo, o.hi) ∧
          ∀ pt', pt' < 66 → pt' ≠ pt → r.rgn pt' p e = t.rgn pt' p e)) ∧
    (∀ who w, who = .islandA ∨ (∃ p, who = .runtime p) → fillGO.of w = 1 → s.getF MC_FILL_CTRL fillSTATUS ≠ 1 →
      let a := s.getF MC_FILL_ADDR fillADDR * 64
      let n := s.getF MC_FILL_LEN fillLEN * 64
      n ≠ 0 → s.fillOk who a n = true → s.outOfService (place a n) = false → s.fillOut a n = false →
      exec (.fillGo who w) s = .next (((s.fresh (n / 64)).2.fillLines (s.fresh (n / 64)).1).fillStat 1 0)) ∧
    (s.getF MC_FILL_CTRL fillSTATUS = 1 → s.getF MC_FILL_ADDR fillADDR + s.getF MC_FILL_LEN fillLEN < 2 ^ fillADDR.w → ∃ t, exec .fillDone s = .next t ∧ t.getF MC_FILL_CTRL fillSTATUS = 2 ∧ t.getF MC_FILL_LEN fillLEN = 0 ∧
      ∀ i, i < 64 * s.getF MC_FILL_LEN fillLEN → t.byte (s.getF MC_FILL_ADDR fillADDR * 64 + i) = 0)

/-- The trigger generator and the stream watch (08 R199 to R211). -/
def Obligations.TriggerResults : Prop :=
  ∀ (s : State) (t : Nat),
    let s1 := s.at t
    (s1.flag TRIG_CTRL tgENABLE = true → s1.trig.slaved = false → s1.eventFree = true → exec (.frameStartEvent t) s = .next s1.emitEvent) ∧
    (s1.flag TRIG_STATUS tsHELD = true → s1.flag TRIG_CTRL tgENABLE = true → s1.trig.slaved = true → s1.eventFree = true →
      exec (.heldStepEvent t) s = .next s1.emitEvent) ∧
    (∀ w, let s2 := s1.writeTrigCtrl w
      tgSTEP.of w = 1 → s2.flag TRIG_CTRL tgENABLE = true → s2.trig.slaved = true → s2.flag TRIG_STATUS tsHELD = false →
      exec (.step .islandA w t) s = .next (if s2.eventFree then s2.emitEvent else s2.setF TRIG_STATUS tsHELD 1)) ∧
    (∀ n d, Tab.find s1.trig.lsDue n = some d → d ≤ s1.now → let w := Tab.get 0 s1.trig.ls n
      let p : Pulse := { start := d, stop := d + us (if lsWIDTH.of w = 0 then 100 else min 1000 (lsWIDTH.of w)), low := decide (fsPOL.of w = 1) }
      exec (.lsyncPulse n t) s = .next { s1 with trig := { s1.trig with
        lsDue := Tab.erase s1.trig.lsDue n, lsLast := Tab.insert s1.trig.lsLast n p } }) ∧
    (∀ n w, n < 16 → fsEN.of (s.fsWord n) = 0 → exec (.trigFsSeqWrite .islandA n w) s = .next (s.setF (TRIG_FS_SEQ n) fsSEQ (fsSEQ.of w))) ∧
    (∀ n w, n < 16 → ceEN.of w = 1 → ∃ r, exec (.echoCfgWrite .islandA n w) s = .next r ∧ r.getF (CAM_ECHO_CFG n) ceEN = 1 ∧
      r.getF (CAM_ECHO_CFG n) ceBYTE = ceBYTE.of w ∧ r.getF (CAM_ECHO_CFG n) ceORDER = ceORDER.of w ∧
      r.getF (CAM_ECHO_STAT n) cesSYNC = 0 ∧ r.getF (CAM_ECHO_STAT n) cesRUN = 0) ∧
    (∀ n, let x : StrmRt := Tab.get {} s1.strms n
      n < 16 → s1.flag (STRM_CFG n) scfEN = true → s1.flag (STRM_STAT n) sstSEEN = true → x.ingress + 2000 * s1.strmPeriod n < s1.portTime x.port →
      exec (.streamStale n t) s = .next (s1.setF (STRM_STAT n) sstSTALE 1)) ∧
    (let x := s1.countCertified.countAligned.applyTrig
     s1.emitEvent.getF TRIG_STATUS tsREFSEQ = x.getF (TRIG_FS_SEQ x.trig.ref) fsSEQ % 2 ^ 16 ∧
     s1.emitEvent.getF TRIG_STATUS tsRUNNING = 1 ∧ s1.emitEvent.getF TRIG_STATUS tsHELD = 0 ∧ bit s1.emitEvent.aplic 21 = true)

/-- Camera receivers (19 R491 to R495, 08 R205 to R207). The frame's own header and end stand in `camPutHeader`, `camEnd`. -/
def Obligations.CameraReceiverResults : Prop :=
  ∀ (s : State) (n t : Nat),
    let s1 := s.at t
    let x := s1.cam n
    let vc := s1.getF (CAM_CFG n) ccVC
    let w := s1.getF (CAM_CFG n) ccWIDTH
    let dt := s1.getF (CAM_CFG n) ccDT
    s1.camOn n = true →
    (let f : CamFrame := { slot := x.next, expect := x.pulse, lastAt := s1.now }
     let s2 := s1.setCam n { x with frame := some f, used := x.used || x.pulse.isSome, next := (x.next + 1) % (s1.getF (CAM_RING n) crNSLOT + 1) }
     let s3 := match x.pulse with | some e => s2.setF (CAM_ECHO_STAT n) cesEXPECT e | none => s2
     let s4 := ((s3.setF (CAM_STAT n) csSLOT x.next).setF (CAM_STAT n) csLINES 0).setF (CAM_STAT n) csSTATE 2
     let r := s4.camPutHeader n 1 f false false
     x.frame = none → s1.slotHeld (camSlot s1 n x.next) = false → r.2 = false →
     exec (.csiFrameStart n vc t) s = .next (r.1.imgSeen (camSlot s1 n x.next))) ∧
    (∀ data f, let keep := data.take (4096 - f.emb)
      let put := s1.camWrite n (camSlot s1 n f.slot + 0x40 + f.emb) keep
      let g := { f with emb := f.emb + keep.length, hasEmb := true, lastAt := put.1.now }
      let s2 := put.1.setCam n { put.1.cam n with frame := some g }
      let s3 := if f.hasEmb then s2 else s2.giveVerdict n (s2.echoIn n data)
      let r := s3.camPutHeader n 1 ((s3.cam n).frame.getD g) false false
      x.frame = some f → put.2 = false → r.2 = false → exec (.csiEmbeddedData n vc data t) s = .next r.1) ∧
    (∀ data f ok, let good := ok && decide (data.length = 2 * w)
      let put := s1.camWrite n (camSlot s1 n f.slot + 0x1040 + f.lines * camPitch s1 n) (lineBytes dt w (camPitch s1 n) data)
      let s2 := if good then put.1 else put.1.event 23
      let f' := { f with lines := f.lines + 1, bad := f.bad + (if good then 0 else 1), lastAt := s2.now, lastRef := s2.frameSeq 60,
                         lastUs := s2.slotUs 60 }
      let r := ((s2.setCam n { s2.cam n with frame := some f' }).setF (CAM_STAT n) csLINES (min f'.lines 0xFFFF)).camPutHeader n 1 f' false false
      x.frame = some f → f.lines < s1.getF (CAM_CFG n) ccHEIGHT → put.2 = false → r.2 = false →
      exec (.csiLine n vc dt data ok t) s = .next (r.1.imgSeen (camSlot s1 n f.slot))) ∧
    (x.frame ≠ none → exec (.csiFrameEnd n vc t) s = .next (s1.camEnd n false)) ∧
    (∀ f, x.frame = some f → f.lastAt + 50000000 ≤ s1.now → exec (.frameEndTimeout n t) s = .next (s1.camEnd n true)) ∧
    (∀ f, let r := s1.camPutHeader n 2 f (decide (f.lines < s1.getF (CAM_CFG n) ccHEIGHT)) false
      x.frame = some f → f.verdict ≠ 0xFF → r.2 = false →
      s1.camEnd n false = ((r.1.setF (CAM_STAT n) csSTATE 1).setCam n { x with frame := none }).imgShort
        (camSlot ((r.1.setF (CAM_STAT n) csSTATE 1).setCam n { x with frame := none }) n f.slot)) ∧
    (∀ v, ccEN.of v = 0 → s.flag (CAM_CFG n) ccEN = true → n < 16 → exec (.camCfgWrite .islandA n v) s = .next (s.camOff n) ∧ (s.camOff n).getF (CAM_CFG n) ccEN = 0) ∧
    (∀ (z : State) v, z.flag (CAM_CFG n) ccEN = false → ccEN.of v = 1 → ∃ r, exec (.camCfgWrite .islandA n v) z = .next r ∧
      r.getF (CAM_CFG n) ccEN = 1 ∧ r.getF (CAM_STAT n) csSTATE = 1 ∧ (r.cam n).next = 0 ∧ (r.cam n).frame = none)

/-- FRAME, row production and the line timeout of engines 60 and 61 (06 R161, R162, R168, R169). -/
def Obligations.ImageEngineResults : Prop :=
  ∀ (s : State) (u t : Nat) (it : WorkItem), u = 60 ∨ u = 61 →
    (let s0 := ((s.at t).setF (IMG_STATUS u) igLINES 0).setF (IMG_STATUS u) igROWS 0
     let f : Eng (ImgRun × List Nat) := do let r ← imgSetup u it.prog; let h ← imgHeader u r; return (r, h)
     let x := f.answer ({ blk := [], prof := [], mesh := [] }, []) s0
     let s1 := f.after s0
     let s2 := { s1 with imgs := Tab.insert s1.imgs u { x.1 with lastLine := s1.now } }.setF (IMG_STATUS u) igCAM (fieldAt x.2 6 1)
     (s.at t).engItem u = some it → Tab.find s.imgs u = none → f.runs s0 = true → x.1.isShort x.2 = false →
     exec (.frame u t) s = .next s2 ∧ Tab.find s2.imgs u = some { x.1 with lastLine := s1.now } ∧ s2.slotHeld x.1.frame = true ∧
       s2.getF (IMG_STATUS u) igCAM = fieldAt x.2 6 1 % 2 ^ igCAM.w) ∧
    (∀ r, s.engItem u = some it → Tab.find s.imgs u = some r → (imgHeader u r).runs s = true →
      let h := (imgHeader u r).answer [] s
      let s1 := (imgHeader u r).after s
      let r' := (imgRow u r h).answer r s1
      let s2 := (imgRow u r h).after s1
      let s3 := { s2 with imgs := Tab.insert s2.imgs u r' }
      r.isShort h = false → linesNeeded r.needs ≤ fieldAt h 8 2 → (imgRow u r h).runs s1 = true →
      exec (.imageRowProduce u) s = .next (if r'.ys.length = r.outH then s3.imgEnd u r' 0 h else s3)) ∧
    (∀ r y, let s1 := s.imgRowDone u r y
      Tab.find s1.imgs u = some { r with ys := r.ys ++ [y] } ∧ s1.mem = s.mem ∧
      s1.getF (IMG_STATUS u) igROWS = (r.ys.length + 1) % 2 ^ igROWS.w ∧
      s1.getF (IMG_PIX_CNT u) cnt64 = (s.getF (IMG_PIX_CNT u) cnt64 + r.outW) % 2 ^ 64) ∧
    (∀ r, s.engItem u = some it → Tab.find s.imgs u = some r → (imgHeader u r).runs s = true →
      r.isShort ((imgHeader u r).answer [] s) = true →
      exec (.imageRowProduce u) s = .next (((imgHeader u r).after s).imgEnd u r 4 ((imgHeader u r).answer [] s))) ∧
    (∀ r, (s.at t).engItem u = some it → Tab.find s.imgs u = some r → (imgHeader u r).runs (s.at t) = true →
      let h := (imgHeader u r).answer [] (s.at t)
      let s1 := (imgHeader u r).after (s.at t)
      r.isShort h = false → fieldAt h 8 2 < r.inH → r.lastLine + r.timeout ≤ s1.now →
      exec (.lineTimeout u t) s = .next (s1.imgEnd u r 5 h))

/-- FWD, BWD, the context operations, grants and registers of the Attention engines (07 R178 to R181, R184 to R187, R191, R195). -/
def Obligations.AttentionEngineResults : Prop :=
  ∀ (s : State) (u w : Nat) (it : WorkItem),
    let takes := fun (opc : Nat) => s.engItem u = some it ∧ 48 ≤ u ∧ u < 52 ∧ s.engOpc it = opc ∧ Tab.find s.ctxCmds u = none
    (let b := (Eng.block u it.prog 640).answer [] s
     let s1 := (Eng.block u it.prog 640).after s
     let names := (attnNames u b).answer [] s1
     let s2 := (attnNames u b).after s1
     let ok := (Eng.block u it.prog 640).runs s = true ∧ (attnNames u b).runs s1 = true
     (takes 1 → ok → abOpc b = 1 → names = [] → (fwdDense u b).runs s2 = true →
       exec (.fwd u) s = .next (((fwdDense u b).after s2).engEnd u 0 ((fwdDense u b).answer 0 s2))) ∧
     (takes 2 → ok → abOpc b = 2 → names = [] → (bwdCmdRun u b).runs s2 = true →
       exec (.bwd u) s = .next (((bwdCmdRun u b).after s2).engEnd u 0 ((bwdCmdRun u b).answer 0 s2))) ∧
     (let ns := names.map (·.ctx)
      let g := s2.askHomes u (abWriter b) ns (s2.homesOf ns)
      let s3 := g.1
      names ≠ [] → g.2.2 = true → ok →
      (takes 1 → abOpc b = 1 → s3.foreignTable u = false → (∀ e ∈ names, s3.ctxVerdict e.ctx e.gen [1, 2, 3] = none) →
        (fwdCtx u b names).runs s3 = true →
        exec (.fwd u) s = .next (((fwdCtx u b names).after s3).engEnd u 0 ((fwdCtx u b names).answer 0 s3))) ∧
      (s3.opVerdict u b = none →
        (takes 0x10 → abOpc b = 0x10 → exec (.ctxBind u) s = .next ((s3.bindCtx (abCtx b) 2 0).ctxOpEnd u b 0)) ∧
        (takes 0x14 → abOpc b = 0x14 → exec (.ctxRelease u) s = .next ((s3.freeCtx (abCtx b)).ctxOpEnd u b 0)) ∧
        (let x := s3.ctxOf (abCtx b)
         takes 0x12 → abOpc b = 0x12 → abCount b ≤ x.tlen - x.len →
         exec (.ctxCommit u) s = .next ((s3.setCtx (abCtx b) (if x.len + abCount b < x.tlen
           then { x with len := x.len + abCount b, tlen := x.len + abCount b, gen := (x.gen + 1) % 2 ^ 32 }
           else { x with len := x.len + abCount b })).ctxOpEnd u b 0)) ∧
        (takes 0x11 → abOpc b = 0x11 → (ctxAppendRun u b).runs s3 = true →
          exec (.ctxAppend u) s = .next (((ctxAppendRun u b).after s3).ctxOpEnd u b 0)) ∧
        (takes 0x13 → abOpc b = 0x13 → (ctxForkRun u b).runs s3 = true →
          exec (.ctxFork u) s = .next (((ctxForkRun u b).after s3).ctxOpEnd u b 0))))) ∧
    (∀ c, s.engItem u = some it → u ≠ 62 → Tab.find s.ctxCmds u = some c → regsGrantable u [] s.ctxRegs = true →
      exec (.contextGrant u) s = .next (({ s with ctxCmds := Tab.erase s.ctxCmds u }.grantCtx u).ctxAdvance u c)) ∧
    (∀ c, s.trkWait = some c → regsGrantable 62 [] s.ctxRegs = true →
      exec (.contextGrant 62) s = .next (({ s with trkWait := none }.grantCtx 62).trkAdvance c)) ∧
    (48 ≤ u → u < 52 → s.ctxIdle = true → acSPLIT.of w ≤ 4096 → acSPLIT.of w % 4 = 0 → 6 ≤ acLROWT.of w → acLROWT.of w ≤ 16 →
      6 ≤ acLROWP.of w → acLROWP.of w ≤ 16 →
      ∃ t, exec (.attnCfgWrite .islandA u false w) s = .next t ∧
        ∀ f ∈ [acSPLIT, acCAPT, acLROWT, acCAPP, acLROWP], t.getF (ATTN_CFG u) f = f.of w) ∧
    (48 ≤ u → u < 52 → s.ctxIdle = true → (apPAGES.of w + 1) % 4 = 0 →
      ∃ t, exec (.attnCfgWrite .islandA u true w) s = .next t ∧ ∀ f ∈ [apPAGES, apPOOL], t.getF (ATTN_POOL u) f = f.of w) ∧
    (48 ≤ u → u < 52 → ∃ t, exec (.attnCtxSel .islandA u w) s = .next t ∧ t.getF (ATTN_CTX_SEL u) asCTX = asCTX.of w ∧
      ∀ i, i < 8 → t.getF (ATTN_CTX_D u i) cnt64 = fieldAt (ctxBytes (s.ctxAt u (asCTX.of w))) (8 * i) 8)

/-- LIFT, SCATTER, RASTER, UPDATE, FORECAST, DELETE, CHECK, TRK_NEXT_ID and TRK_SEL (08 R217, R227, R228, R230, R231, R235; 09 R246, R250). -/
def Obligations.GridTrackCheckResults : Prop :=
  ∀ (s : State) (u w : Nat) (it : WorkItem),
    (52 ≤ u → u < 56 → s.engItem u = some it →
      let s0 := (s.setF (GRID_STATUS u) gsROWS 0).setF (GRID_STATUS u) gsOPC (s.engOpc it)
      let b := (Eng.block u it.prog 256).answer [] s0
      let s1 := (Eng.block u it.prog 256).after s0
      (Eng.block u it.prog 256).runs s0 = true → gridHeaderOk b = true → s.engOpc it = gbOpc b →
      (gbOpc b = 1 → (liftRun u b).runs s1 = true → exec (.lift u) s = .next (((liftRun u b).after s1).engEnd u 0 ((liftRun u b).answer 0 s1))) ∧
      (gbOpc b = 2 → (scatterRun u b).runs s1 = true →
        exec (.scatter u) s = .next (((scatterRun u b).after s1).engEnd u 0 ((scatterRun u b).answer 0 s1))) ∧
      (gbOpc b = 3 → (rasterRun u b).runs s1 = true →
        exec (.raster u) s = .next (((rasterRun u b).after s1).engEnd u 0 ((rasterRun u b).answer 0 s1)))) ∧
    (let s0 := s.setF (CHK_STATUS u) ckDONE 0
     let x := (checkRun u it.prog).answer (none, 0) s0
     56 ≤ u → u < 60 → s.engItem u = some it → (checkRun u it.prog).runs s0 = true → x.1 = none →
     exec (.check u) s = .next (((checkRun u it.prog).after s0).engEnd u 0 x.2)) ∧
    (s.engItem 62 = some it → s.trkWait = none →
      let b := (Eng.block 62 it.prog 128).answer [] s
      let s1 := (Eng.block 62 it.prog 128).after s
      let done := fun (f : Eng TrkDone) =>
        let r := f.answer {} s1
        let s2 := f.after s1
        if r.frees = [] ∧ r.binds = [] then s2.engEnd 62 0 r.high
        else s2.trkAdvance { frees := r.frees, binds := r.binds, high := r.high, homes := s2.homesOf (r.frees ++ r.binds.map (·.1)) }
      (Eng.block 62 it.prog 128).runs s = true → trackBlockOk b = true → s.engOpc it = tbOpc b →
      (tbOpc b = 1 → (updateRun b it).runs s1 = true → exec .update s = .next (done (updateRun b it))) ∧
      (tbOpc b = 2 → (forecastRun b).runs s1 = true → exec .forecast s = .next (done (forecastRun b))) ∧
      (tbOpc b = 3 → (deleteRun b).runs s1 = true → exec .deleteTrack s = .next (done (deleteRun b)))) ∧
    (∃ t, exec (.trkNextIdWrite .islandA w) s = .next t ∧
      t.getF TRK_NEXT_ID tkNEXT = (if tkNEXT.of w = 0 ∨ 0xFFFFFFF8 ≤ tkNEXT.of w then 1 else tkNEXT.of w)) ∧
    (∃ t, exec (.trkSel .islandA w) s = .next t ∧ t.getF TRK_SEL tkCTX = tkCTX.of w ∧
      ∀ i, i < 32 → t.getF (TRK_D i) cnt64 = fieldAt (trackBytes (s.track (tkCTX.of w))) (8 * i) 8)

/-- FINAL_CHECK, DRYDOWN_COMPUTE, RECORD_EMIT, HANDOVER_TIMEOUT and STATUS_FRAME (09 R253, R254, R257, R259, R260, R265 to R267; 12 R337, R356). -/
def Obligations.PlanningResults : Prop :=
  ∀ (s0 : State) (t : Nat) (b : Bool), let s := s0.at t
    (let e := s.emitter
     let s1 := if s.checkDue (!e) then (s.prepare (!e) (lastSome (s.selections (!e)))).1 else s
     let c := s1.chooseSlot e (lastSome (s.selections e))
     s.checkDue e = true → ∃ t2, exec (.finalCheck t) s0 = .next t2 ∧ (t2.islPlan e).slot = some c.rec_ ∧ (t2.islPlan e).want = s1.nextSeq e ∧
       t2.plan.held = c.held ∧ (s.islandServes (!e) = false ∨ s.checkDue (!e) = true → t2.plan.drydown = none) ∧
       t2.safe.passes = (if c.passed then min 40 (s.safe.passes + 1) else 0) ∧
       ∀ p, p < 8 → t2.getF (qPtr (selQueue p)) qHEAD = s.qTailOf (selQueue p) % 2 ^ qHEAD.w) ∧
    (let inTime := decide (s.now + ms 1 ≤ s.slotTime false)
     let at_ := s.slotTime false + (if inTime then 0 else ms 25)
     let pose := (s.odoOf false).poseAt at_
     let s1 := s.takeBases pose
     let x := s1.islPlan false
     s.islandServes false = true → ∃ t2 l, exec (.drydownCompute t) s0 = .next t2 ∧ l.length = 80 ∧ t2.plan.basis = s1.plan.basis ∧
       (s1.plan.basis = [] → l = s1.ownDrydown false at_) ∧ (inTime = false ∨ x.checked ≠ some x.seq → t2.plan.drydown = some l) ∧
       ∀ r, inTime = true → x.slot = some r →
         (t2.islPlan false).slot = some (r.withDrydown (s1.islandGrid false) x.origin s1.plan.vehicle l true)) ∧
    (∀ r, let e := s.emitter
     let n := (s.islPlan e).want
     let s1 := ((s.setF EMIT_CLAIM ecSEQ n).setF EMIT_CLAIM ecBY (b2n e)).setF EMIT_CLAIM ecTAKEOVER 0
     let s2 := if s1.safeMayEnd then s1.endSafe else s1
     s.islandServes e = true → s.emitDue e = true → (s.islPlan e).slot = some r → n = (s.getF EMIT_CLAIM ecSEQ + 1) % 2 ^ 32 →
     ∃ t2 r2, exec (.recordEmit t) s0 = .next t2 ∧ (t2.port (6 + b2n e)).sent = recordBytes r2 ∧
       (t2.port (6 + b2n e)).packets = recordPackets (s.cfg.nets.getD (b2n e) {}) n (recordBytes r2) ∧ (t2.islPlan e).last = some r2 ∧
       (t2.islPlan e).slot = none ∧ r2.seq = n ∧ r2.emitter = b2n e ∧ r2.capability = r.capability ∧ t2.getF EMIT_CLAIM ecSEQ = n ∧
       t2.getF EMIT_CLAIM ecBY = b2n e ∧ (s2.flag SAFE_STATUS safSAFE = true → r2.valid = false ∧ r2.source = 3 ∧ r2.traj = r.dd ∧
         r2.reason = s2.getF SAFE_STATUS safREASON) ∧
       (s2.flag SAFE_STATUS safSAFE = false → r2.valid = true ∧ r2.source = r.source ∧ r2.traj = r.traj ∧ r2.reason = r.reason)) ∧
    (∀ u, s.plan.level3 = some u → s.plan.held = none → u + ms (handoverMs s.plan.vehicle) ≤ s.now →
      exec (.handoverTimeout t) s0 = .next { s with plan := { s.plan with held := some 6 } }) ∧
    (s.islandServes b = true → ∃ t2, exec (.statusFrame b t) s0 = .next t2 ∧
      (t2.port (12 + b2n b)).sent = bytesOf 4 (s.cfg.statusIds.getD (b2n b) 0 % 2048 + 3 * 2 ^ 30) ++ [64] ++ s.statusBytes b)

/-- CALIBRATION_UPDATE, the periodic writes and STORE_WRITE (07 R192, R193, R194; 12 R354; 13 R379; 15 R406, R407). -/
def Obligations.CalibrationAndStoreResults : Prop :=
  ∀ (s0 : State) (t p id : Nat), let s := s0.at t
    (∀ b, let q := 63 * 256 + 8 + p
     let s1 := s.takeRequest q
     let r := s1.calApply b
     p < 8 → s.islandServes false = true → s.request q (fun _ => true) = some b →
     ∃ t2, exec (.calibrationUpdate p t) s0 = .next t2 ∧ Tab.get 0 t2.cal.results p = r.2.1 + r.2.2 * 2 ^ 32 ∧ t2.cal.next = r.1.cal.next ∧
       t2.cal.list = r.1.cal.list ∧ t2.getF (qPtr q) qHEAD = (s.qNext q + 1) % 2 ^ qNEXT.w % 2 ^ qHEAD.w ∧
       (calOk b = false → r.2.1 = 4 ∧ t2.cal.next = s.cal.next) ∧
       (calOk b = true → (s1.calList (fieldAt b 0 1)).any (fun e => decide (s.now + sec 3590 < e.ends)) = true → r.2.1 = 2 ∧ t2.cal.next = s.cal.next)) ∧
    (s.islandServes false = true → s.cal.dirty = true → s.cal.savedAt + sec 600 ≤ s.now →
     ∃ t2, exec (.calibrationStoreWrite t) s0 = .next t2 ∧ t2.writing 2 = some s.calVal ∧ t2.cal.dirty = false ∧ t2.cal.savedAt = s.now) ∧
    (s.islandServes false = true → s.flag SIL_CTRL silFREEZE = false → s.sup.silSavedAt + sec 600 ≤ s.now →
     ∃ t2, exec (.sillagePersist t) s0 = .next t2 ∧ t2.writing 4 = some s.silImage ∧ t2.sup.silSavedAt = s.now) ∧
    (s.islandServes false = true → s.writing 3 = none → s.storeVal 3 ≠ some (.quar s.quarTable) → s.quarTable ≠ [] →
     ∃ t2, exec (.quarantineTableWrite t) s0 = .next t2 ∧ t2.writing 3 = some (.quar s.quarTable)) ∧
    (∀ v, s.writing id = some v → s.ident.norFailed ≠ 3 →
     ∃ t2, exec (.storeWrite id 0) s = .next t2 ∧ t2.storeVal id = some v ∧ t2.writing id = none ∧
       (t2.storeAt id).current.map Bank.seq = some (s.writeSeq id) ∧ ∀ j, j ≠ id → t2.storeAt j = s.storeAt j) ∧
    (∀ v, s.writing id = some v → s.ident.norFailed = 0 →
     ∃ t2, exec (.storeWrite id 1) s = .next t2 ∧ t2.storeVal id = s.storeVal id ∧ t2.writing id = none)

/-- ADMIT, WITHDRAW, RESTART, BACKUP_LAUNCH, SUSPECT_EVALUATION (10 R287 to R292, R298, R300), JOB_LOST (12 R358). -/
def Obligations.JobResults : Prop :=
  ∀ (s0 : State) (p t : Nat), let s := s0.at t
    (∀ b j, let q := 63 * 256 + p
     let s1 := s.takeRequest q
     let im := s1.imageAt p (fieldAt b 8 8)
     p < 8 → s.islandServes false = true → s.request q (fun ty => decide (ty ≠ 0x11 ∧ ty ≠ 0x12)) = some b → fieldAt b 0 1 = 0x10 →
     admReqOk b = true → fieldAt b 1 1 = 0 → s1.admCheck p (fieldAt b 2 1) im = .ok () →
     s1.freeJob = some j →
     exec (.admitJob p t) s0 = .next ((s1.grantJob j p im).answer q b ((s1.grantJob j p im).getF (JOB_STAT j) jsJOBID * 2 ^ 32)) ∧
       (s1.grantJob j p im).jobState j ≠ jFree ∧ (s1.grantJob j p im).getF (JOB_STAT j) jsPART = p) ∧
    (∀ b, let q := 63 * 256 + p
     let s1 := s.takeRequest q
     let j := fieldAt b 1 1
     p < 8 → s.islandServes false = true → s1.jobRefused p b = none →
     (s.request q (fun ty => decide (ty = 0x11)) = some b →
       exec (.withdraw p t) s0 = .next ((s1.releaseJob j).answer q b (s1.getF (JOB_STAT j) jsJOBID * 2 ^ 32)) ∧
       (s1.releaseJob j).jobState j = jWithdrawn) ∧
     (s.request q (fun ty => decide (ty = 0x12)) = some b → (s1.placement j).isSome = true →
       exec (.restart p t) s0 = .next ((s1.restartJob j).answer q b (s1.getF (JOB_STAT j) jsJOBID * 2 ^ 32)) ∧
       (s1.restartJob j).jobState j = jRunning)) ∧
    (∀ q n j r k pl, let it := parseItem q n j s.now (s.qEntry q n)
     let isl : IslPlan := Tab.get {} s.plan.isl 0
     let d := subMod 16 isl.seq it.dlSeq
     let us := (s.now - isl.at_) / 1000
     q < 16128 → s.islandServes false = true → subMod 32 n (s.qHead q) < s.qOcc q → s.queueRec q = some (j, r) →
     (s.job j).queues[r.backup]? = some k → s.placement j = some pl → it.repl = true → it.dlUs ≠ 0xFFFF →
     (if d < 2 ^ 15 then it.dlUs ≤ d * 25000 + us + it.margin else it.dlUs + (2 ^ 16 - d) * 25000 ≤ us + it.margin) →
     s.usable (pl.slotOf k.lunit) = true → s.sup.copies.contains (q, n) = false →
     ∃ t2, exec (.backupLaunch q n t) s0 = .next t2 ∧ t2.sup.copies = s.sup.copies ++ [(q, n)] ∧
       t2 = { ((s.push (pl.slotOf k.lunit * 256 + k.lidx) ((s.qEntry q n).set 1 (fieldAt (s.qEntry q n) 1 1 % 4 + 4)) .island).1.event 11).jobCount j (0x1C0 + 56)
              with sup := t2.sup }) ∧
    (s.islandServes false = true → ∃ t2, exec (.suspectEvaluation t) s0 = .next t2 ∧ ∀ u, u < 63 →
      let rise := fun v => s.arrivals v - (s.unit v).lastTotal
      let high := decide (16 < rise u ∧ s.peers u ≠ [] ∧ 2 * sumOf ((s.peers u).map rise) < rise u * (s.peers u).length)
      let o := if high then min 3 ((s.unit u).overRun + 1) else 0
      let n := if high then 0 else min 60 ((s.unit u).underRun + 1)
      (t2.unit u).overRun = o ∧ (t2.unit u).underRun = n ∧ (t2.unit u).lastTotal = s.arrivals u ∧
      t2.getF (UNIT_PART u) upSUSPECT = (if o = 3 then 1 else if n = 60 then 0 else s.getF (UNIT_PART u) upSUSPECT)) ∧
    (∀ j, j < 255 → s.jobState j = jFaulted → s.classOf (s.getF (JOB_STAT j) jsPART) = 0 → (s.job j).faultedAt + ms 100 ≤ s.now →
      ∃ t2, exec (.jobLost j t) s0 = .next t2 ∧ t2.sup.lost = s.sup.lost ++ [((s.job j).imageId, s.getF (JOB_STAT j) jsPART)] ∧
        bit (t2.getF SAFE_STATUS safACTIVE) 3 = true ∧ t2.getF SAFE_STATUS safSAFE = 1 ∧ t2.safe.pinA = true ∧ t2.safe.pinB = true)

/-- ISLAND_SUPERVISION_CYCLE, ISLAND_HARDWARE_FAIL, HEARTBEAT_LOSS, ISLAND_REBOOT, PEER_RECORD_RECEIVE, HANDOVER_DECISION,
LOST_MIRROR_COPY and ISLAND_FRAME_REALIGN (12 R331, R333, R334, R336 to R340). -/
def Obligations.IslandResults : Prop :=
  ∀ (s0 : State) (b : Bool) (t : Nat), let s := s0.at t
    let failed := fun (x : Bool) (t2 : State) =>
      t2.getF ISL_STATUS (if x then isBFAIL else isAFAIL) = 1 ∧ t2.getF ISL_STATUS (if x then isBOK else isAOK) = 0 ∧
      (if x then t2.safe.pinB else t2.safe.pinA) = true ∧ (t2.isl x).fails = (s.isl x).fails + 1 ∧ (t2.isl x).failedAt = some s.now ∧
      bit (t2.getF INTEG_CAUSE icCAUSE) 2 = true
    (∀ pass, s.islandServes b = true → ∃ t2, exec (.islandSupervisionCycle b t pass) s0 = .next t2 ∧
      t2.getF ISL_STATUS (if b then isBOK else isAOK) = 1 ∧
      t2.getF ISL_STATUS (if b then isHBB else isHBA) = (if pass then 1 - s.getF ISL_STATUS (if b then isHBB else isHBA)
        else s.getF ISL_STATUS (if b then isHBB else isHBA))) ∧
    (s.islandServes b = true → ∃ t2, exec (.islandHardwareFail b t) s0 = .next t2 ∧ failed b t2) ∧
    (s.islandServes b = true → s.islandServes (!b) = true → (s.isl (!b)).edgeAt + us 2500 ≤ s.now →
      ∃ t2, exec (.heartbeatLoss b t) s0 = .next t2 ∧ failed (!b) t2) ∧
    (∀ f, (s.isl b).failedAt = some f → s.islandServes b = false → f + ms 10 ≤ s.now → (s.isl b).fails < 2 →
      let s1 := (if b then s else (s.romErase.secReset).showSec).seqFaults (if b then [0x20] else [0x10, 0x11, 0x12, 0x13, 0x14, 0x15])
      exec (.islandReboot b t) s0 = .next (s.islandBoot b) ∧
      ((s1.boot (if b then 2 else 1)).2 = true → (s.islandBoot b).islandServes b = true)) ∧
    (∀ bytes, let m := bytes.map (fun v => v % 256)
     s.islandServes b = true → recordOk m = true → ∃ t2, exec (.peerRecordReceive b bytes t) s0 = .next t2 ∧
      (t2.islPlan b).got = some (recordOf m).seq ∧ (t2.islPlan b).last = some (recordOf m)) ∧
    (∀ r, let e := !s.emitter
     let x := s.islPlan e
     let cur := s.getF EMIT_CLAIM ecSEQ
     s.islandServes e = true → x.slot = some r → x.slotAt + us 200 ≤ s.now →
     (x.got = some x.want → exec (.handoverDecision t) s0 = .next (s.setIslPlan e { x with slot := none })) ∧
     (x.got ≠ some x.want → x.want = (cur + 1) % 2 ^ 32 → ∃ t2, exec (.handoverDecision t) s0 = .next t2 ∧ t2.emitter = e ∧
        t2.getF EMIT_CLAIM ecBY = b2n e ∧ t2.plan.handed = true ∧ bit (t2.getF INTEG_CAUSE icCAUSE) 2 = true) ∧
     (x.got ≠ some x.want → x.want ≠ (cur + 1) % 2 ^ 32 → x.want = cur → s.islandFailed (!e) = false →
        exec (.handoverDecision t) s0 = .next (s.setIslPlan e { x with waits := true })) ∧
     (x.waits = true → x.slotAt + us 2800 ≤ s.now → x.got = some x.want ∨ s.islandFailed (!e) = false →
        ∃ t2, exec (.lostMirrorCopy t) s0 = .next t2 ∧ (t2.islPlan e).waits = false ∧ (t2.islPlan e).slot = none)) ∧
    (let p := s.islPlan b
     s.islandServes b = true → (p.synced = false ∨ (frameOffset p.at_ s.now).2.natAbs ≤ us 500) →
     exec (.islandFrameRealign b true t) s0 = .next (s.setIslPlan b
       { p with at_ := s.now, seq := s.getF TRIG_STATUS tsREFSEQ, synced := true, offset := 0 }))

/-- FENCE, UNIT_INTERNAL_FAULT, FAILURE_DETECTOR_SAMPLE, UNIT_REINIT, UNFENCE, BLOTTER_ENTRY, BLOTTER_EXTRA,
QUARANTINE_EVALUATION and QUAR_SEL (12 R342 to R345, R348, R351 to R353, R366). -/
def Obligations.DetectorResults : Prop :=
  ∀ (s0 : State) (u t : Nat), let s := s0.at t
    let fenced := fun (cause : Nat) (t2 : State) => t2.unitState u = stFenced ∧ t2.flag (UNIT_FENCE u) fnFENCE = true ∧
      t2.flag (UNIT_FENCE u) fnDONE = true ∧ t2.getF (UNIT_FENCE u) fnCAUSE = cause ∧
      ∀ p ∈ fencePorts, Tab.get false t2.portFence (128 * p + u) = true
    (u < 63 → s0.flag (UNIT_FENCE u) fnFENCE = false → ∃ t2, exec (.fence .islandA u) s0 = .next t2 ∧ fenced 3 t2) ∧
    (u < 63 → s0.flag (UNIT_FENCE u) fnFENCE = false → s0.islandServes false = true → ∃ t2, exec (.unitInternalFault u) s0 = .next t2 ∧ fenced 2 t2) ∧
    (s.islandServes false = true → exec (.failureDetectorSample t) s0 = .next ((List.range 63).foldl (fun s u => s.sampleUnit u) s)) ∧
    (let x : Stall := Tab.get {} s.sup.stall u
     u < 63 → s.getF (UNIT_PROGRESS u) prCOUNT = x.count → s.pendingWork u = true → s.stallLimit u ≤ x.stall + (s.now - x.at_) →
     s.flag (UNIT_FENCE u) fnFENCE = false → fenced 1 (s.sampleUnit u)) ∧
    (∀ pass, u < 63 → s0.islandServes false = true → s0.flag (UNIT_FENCE u) fnDONE = true →
      exec (.unitReinit u pass) s0 = .next (if pass then
          { s0.unitReset u with sup := { (s0.unitReset u).sup with reinit := Tab.set false (s0.unitReset u).sup.reinit u true } }
        else (s0.unitReset u).quarAll u)) ∧
    (u < 63 → s0.flag (UNIT_FENCE u) fnFENCE = true → Tab.get false s0.sup.reinit u = true → s0.unitState u = stFenced →
      ∃ t2, exec (.unfence .islandA u) s0 = .next t2 ∧ t2.flag (UNIT_FENCE u) fnFENCE = false ∧ t2.flag (UNIT_FENCE u) fnDONE = false ∧
        t2.unitState u = stIdle ∧ ∀ p ∈ fencePorts, Tab.get false t2.portFence (128 * p + u) = false) ∧
    (∀ ok, s.blotterReady u = true → s.flag (UNIT_PART u) upBLOTTER = true → exec (.blotterEntry u t ok) s0 = .next (s.golden u (s.frameSeq u) ok)) ∧
    (∀ ok, let fn := Tab.get (0, 0) s.sup.extras u
     let n := if fn.1 = s.frameSeq u then fn.2 else 0
     s.blotterReady u = true → s.flag (UNIT_PART u) upSUSPECT = true → s.flag (UNIT_PART u) upBLOTTER = false → s.jobOf u = 0xFF → n < 4 →
      exec (.blotterExtra u t ok) s0 = .next (({ s with sup := { s.sup with extras := Tab.set (0, 0) s.sup.extras u (s.frameSeq u, n + 1) } }).golden u
        (Tab.get 0 s.sup.goldenPos u + 1) ok)) ∧
    (∀ k ok, Tab.get 0 (s.golden u k ok).sup.goldenPos u = k ∧ Tab.get none (s.golden u k ok).sup.golden u = some (goldenOf u k)) ∧
    (∀ busy total v, let q : Quar := Tab.get {} s.quar u
     let k := 8 * tempBin v + min 7 (8 * busy / max 1 total)
     u < 63 → s.islandServes false = true → s.hottest (entryDie u) = some v → q.hit = q.inBin k → ∃ t2, exec (.quarantineEvaluation u busy total t) s0 = .next t2 ∧
       (Tab.get {} t2.quar u : Quar).bin = k ∧ (Tab.get {} t2.quar u : Quar).hit = q.inBin k ∧
       ((Tab.get {} t2.quar u : Quar).holds = true ↔ q.inBin k = true ∨ (q.holds = true ∧ s.now < q.heldAt + sec 1))) ∧
    (∀ w, let e := qsENTRY.of w
     let q : Quar := Tab.get {} s0.quar e
     e < 72 → e ≠ 63 → ∃ t2, exec (.quarSel .islandA w) s0 = .next t2 ∧ t2.getF QUAR_SEL qsENTRY = e ∧
       t2.getF QUAR_D0 qdMASK = q.mask % 2 ^ 64 ∧ t2.getF QUAR_D1 qdMASK = q.mask / 2 ^ 64 % 2 ^ 64 ∧ t2.flag QUAR_D2 qdHOLDS = q.holds ∧
       t2.flag QUAR_D2 qdALL = q.all)

/-- DEPOSIT_ARRIVAL, COMPARISON_TIMEOUT, MEMBER_ERROR_NOTICE, RESYNC, SPLIT, JOIN, GROW, AP_CKPT_WRITE and LATENT_OVERDUE
(11 R310, R311, R315, R317, R319 to R321, R328). -/
def Obligations.RedundancyResults : Prop :=
  ∀ (s0 : State) (t g n p : Nat), let s := s0.at t
    (∀ m ckid sig pos, s.nextMsg n 3 = some m → m.body = .deposit g ckid sig pos → m.src < 48 → s.fencedAt m.dst m.src = false →
      s.groupLive g = true → s.isAp g = false → s.memberOf g pos = m.src → pos ∈ s.attached g → s.oddOf g = none → (s.group g).op = 0 →
      (((s.group g).cmp = none → (s.group g).missing = 0 → (∃ q ∈ s.attached g, q ≠ pos ∧ bit (s.group g).erred q = false) →
        exec (.depositArrival n t) s0 = .next (((s.dropMsg n).setGroup g
          { s.group g with cmp := some { ckid := ckid, openedAt := s.now, deposits := [(pos, sig)] }, missing := 0 }).settle m.src)) ∧
       (∀ o v, s.isTriad g = false → s.attached g = [0, 1] → (s.group g).cmp = some { ckid := ckid, openedAt := o, deposits := [(1 - pos, v)] } → s.now ≤ o + ms 1 →
        (v = sig → ∃ t2 : State, exec (.depositArrival n t) s0 = .next (t2.settle m.src) ∧ t2.getF (RG_STAT g) rsOUTCOME = 1 ∧
          t2.getF (RG_STAT g) rsLASTCKID = ckid % 2 ^ 16 ∧ t2.getF (RG_STAT g) rsHIST = s.getF (RG_STAT g) rsHIST * 2 % 2 ^ 16 ∧
          (t2.group g).cmp = none ∧ (t2.group g).closed = some ckid) ∧
        (v ≠ sig → s.getF (RG_STAT g) rsHIST = 0 → ∃ t2 : State, exec (.depositArrival n t) s0 = .next (t2.settle m.src) ∧ t2.getF (RG_STAT g) rsOUTCOME = 3 ∧
          t2.getF (RG_STAT g) rsHIST = 1 ∧ t2.getF (RG_STAT g) rsLASTCKID = s.getF (RG_STAT g) rsLASTCKID ∧ (t2.group g).cmp = none)))) ∧
    (∀ c, (s.group g).cmp = some c → s.groupLive g = true → c.openedAt + ms 1 ≤ s.now →
      exec (.comparisonTimeout g t) s0 = .next (s.judge g true)) ∧
    (s0.groupLive g = true → p ∈ s0.attached g → s0.memberErred g p = true → bit (s0.group g).erred p = false →
      (∀ c, (s0.group g).cmp = some c → ∀ d ∈ c.deposits, d.1 ≠ p) → (∃ q ∈ s0.attached g, q ≠ p ∧ bit (s0.group g).erred q = false) →
      exec (.memberErrorNotice g p) s0 = .next ((s0.setGroup g { s0.group g with erred := setBit (s0.group g).erred p }).judge g false)) ∧
    (∀ lead odd, let a := s0.memberOf g lead
     let b := s0.memberOf g odd
     let s1 := s0.copyCell a b (s0.group g).cks
     (s0.group g).op ≠ 2 → (s0.group g).copy = some (lead, odd) → s0.groupLive g = true → s0.isAp g = false → s0.unitState a = stIdle →
     s0.unitState b < stFenced → s1.queuesReady (s0.getF (RG_CFG g) rcJIDX) a b = true →
     ∃ t2, exec (.resync g) s0 = .next t2 ∧ t2 = (s1.alignQueues (s0.getF (RG_CFG g) rcJIDX) a b).attach g lead odd ∧
       t2.getF (RG_STAT g) rsSTATE = 1 ∧ (t2.group g).copy = none ∧ bit (t2.getF (RG_STAT g) rsDETACHED) odd = false) ∧
    (∀ w, let s1 := s0.loadF (RG_SWITCH g) [rwUNITA, rwUNITB] w
      let begun := fun (op : Nat) => ((s1.setF (RG_SWITCH g) rwFAIL 0).setF (RG_SWITCH g) rwSTATUS 1).setGroup g
        { s1.group g with op := op, joined := [], tries := 0 }
      g < 16 → s0.getF (RG_SWITCH g) rwSTATUS ≠ 1 →
      (rwOP.of w = 1 → s1.notPair g = 0 → exec (.split .islandA g w) s0 = .next (begun 1)) ∧
      (rwOP.of w = 2 → s1.joinFail .islandA g = 0 → exec (.join .islandA g w) s0 = .next (begun 2)) ∧
      (rwOP.of w = 3 → s1.growFail g = 0 → exec (.grow .islandA g w) s0 = .next (begun 3)) ∧
      (begun 1).getF (RG_SWITCH g) rwSTATUS = 1 ∧ (begun 1).getF (RG_SWITCH g) rwFAIL = 0 ∧
      (begun 1).getF (RG_SWITCH g) rwUNITA = rwUNITA.of w ∧ (begun 1).getF (RG_SWITCH g) rwUNITB = rwUNITB.of w) ∧
    (∀ w k pos, let s1 := s0.loadF (AP_CKPT p) [acLINES, acCKID] w
     let l := 2 ^ s0.getF (RG_APST k) raLLANE
     let base := s0.getF (RG_APST k) raBASE * 0x10000
     let src := base + (2 * pos + acCKID.of w % 2) * l
     let part := s0.getF (RG_CFG k) rcPART
     p < 8 → s0.pairGroup p = some (k, pos) → bit s0.ap.ckptHeld p = false → acLINES.of w ≠ 0 → s0.groupLive k = true → 64 * acLINES.of w ≤ l →
     s1.canRead 64 part src (64 * acLINES.of w) = true → s1.readFails 64 part src (64 * acLINES.of w) = false →
     ∃ t2 v, exec (.apCkptWrite .islandA p w) s0 = .next t2 ∧ v = s1.laneSig src (base + acCKID.of w % 2 * l) (acLINES.of w) ∧
       t2.getF (AP_CKPT p) acSTATUS = 1 ∧ t2.getF (AP_SIG p) sigSIG = v ∧
       t2.msgs = s0.msgs ++ [{ src := 80 + p, part := part, tag := 0, dst := 68, body := .deposit k (acCKID.of w) v pos }]) ∧
    (let n := min 0xFFFFFFFF ((s.now - s.sup.testedAt) / sec 1)
     ∃ t2, exec (.latentOverdue t) s0 = .next t2 ∧ t2.getF RED_STATUS rdSECS = n % 2 ^ rdSECS.w ∧
       (86400 ≤ n → t2.getF RED_STATUS rdOVERDUE = 1 ∧ bit (t2.getF INTEG_CAUSE icCAUSE) 1 = true) ∧
       (n < 86400 → t2.getF RED_STATUS rdOVERDUE = s.getF RED_STATUS rdOVERDUE))

/-- MODE, DRYDOWN, SAFE_ENTER, SAFE_CLEAR, UNIT_RESET, WARM_RESET as requests, and the reset itself (12 R361, R362). -/
def Obligations.RequestResults : Prop :=
  ∀ (s0 : State) (p t : Nat) (b : List Nat), let s := s0.at t
    let q := 63 * 256 + 32 + p
    let s1 := s.takeRequest q
    let arg := fieldAt b 8 8
    let asks := fun (ty : Nat) => p < 8 ∧ s.islandServes false = true ∧ reqOk b = true ∧ fieldAt b 2 1 = p ∧ fieldAt b 0 1 = ty
    (asks 0x20 → s.request q (fun ty => decide (ty = 0x20 ∨ ty < 0x20 ∨ 0x25 < ty)) = some b → s1.classOf p = 0 → arg ≤ 2 →
      (arg = 0 → 11500 ≤ s1.getF PWR_STATUS pwVBUS) → s1.mode ≠ 3 → s1.getF COOL_STATUS coSTATE < 2 → s1.warmRuns = false →
      exec (.modeRequest p t) s0 = .next ((s1.askMode arg (s1.now + ms 3)).answer q b 0)) ∧
    (asks 0x21 → s.request q (fun ty => decide (ty = 0x21)) = some b → s1.classOf p = 0 → arg = 0 →
      ∃ t2, exec (.drydown p t) s0 = .next t2 ∧ t2 = State.answer { s1 with plan := { s1.plan with held := some 7 } } q b 0 ∧ t2.plan.held = some 7) ∧
    (asks 0x22 → s.request q (fun ty => decide (ty = 0x22)) = some b → s1.classOf p = 0 → arg = 0 →
      exec (.safeEnter p t) s0 = .next ((s1.raiseSafe 9).answer q b 0) ∧ bit ((s1.raiseSafe 9).getF SAFE_STATUS safACTIVE) 9 = true) ∧
    (asks 0x23 → s.request q (fun ty => decide (ty = 0x23)) = some b → s1.classOf p = 0 → arg = 0 →
      exec (.safeClear p t) s0 = .next ((s1.clearSafe 9).answer q b 0) ∧ bit ((s1.clearSafe 9).getF SAFE_STATUS safACTIVE) 9 = false) ∧
    (asks 0x24 → s.request q (fun ty => decide (ty = 0x24)) = some b → arg < 63 → s1.isRuntimeOf (.runtime p) arg = true →
      exec (.unitResetRequest p t) s0 = .next ((s1.unitReset arg).answer q b 0)) ∧
    (asks 0x25 → s.request q (fun ty => decide (ty = 0x25)) = some b → s1.classOf p = 0 → arg = 0 → s1.warmRuns = false →
      exec (.warmResetRequest p t) s0 = .next ((s1.beginWarm true).answer q b 0) ∧ bit ((s1.beginWarm true).getF SAFE_STATUS safACTIVE) 1 = true) ∧
    (∀ st, let s2 := s.beginWarm true
     let s3 := s2.cutWrites.saveNow 4 s2.silImage
     s.islandServes false = true → s.pow.good = true → s.pow.hold = 0 →
      exec (.warmReset st t) s0 = .next (State.releaseMain (State.mainReset { s3 with sup := { s3.sup with silSavedAt := s.now } }) st 3 3))

/-- FREEZE, FREEZE_TIMEOUT, NONCE_REQUEST, NONCE_EXPIRY, SEC_NONCE_EXPIRY, TRNG_HEALTH_FAIL and PASS, SILLAGE_CLEAR
(13 R376 to R378, R380; 15 R399, R411). -/
def Obligations.SillageControlResults : Prop :=
  ∀ (s0 : State) (w t : Nat), let s := s0.at t
    (∀ who, flcWriter who = true → ∃ t2, exec (.freeze who w t) s0 = .next t2 ∧ t2.getF SIL_CTRL silFREEZE = silFREEZE.of w ∧
      (silFREEZE.of w = 1 → t2.sup.freezeAt = s.now)) ∧
    (s.flag SIL_CTRL silFREEZE = true → s.sup.freezeAt + ms 100 ≤ s.now →
      ∃ t2, exec (.freezeTimeout t) s0 = .next t2 ∧ t2.flag SIL_CTRL silFREEZE = false) ∧
    (silOP.of w = 1 → s.getF SIL_AUTH silSTATUS ≠ 1 → s.islandServes false = true →
      ∃ t2, exec (.nonceRequest .islandA w t) s0 = .next t2 ∧ t2.getF SIL_AUTH silADDR = silADDR.of w ∧
        (s.flag SEC_STATUS scTRNG = true → ∃ n, t2.ident.silNonce = some n ∧ n.length = 16 ∧ t2.getF SIL_NONCE0 silNONCE = leOf (n.take 8) % 2 ^ 64 ∧
          t2.sup.silNonceAt = s.now ∧ t2.getF SIL_AUTH silSTATUS = 2) ∧
        (s.flag SEC_STATUS scTRNG = false → t2.ident.silNonce = none ∧ t2.getF SIL_AUTH silSTATUS = 3 ∧ t2.getF SIL_AUTH silFAIL = 12)) ∧
    (∀ n, s.ident.silNonce = some n → s.sup.silNonceAt + sec 600 ≤ s.now →
      ∃ t2, exec (.nonceExpiry t) s0 = .next t2 ∧ t2.ident.silNonce = none ∧ t2.getF SIL_NONCE0 silNONCE = 0) ∧
    (∀ n, s.ident.nonce = some n → s.sup.secNonceAt + sec 600 ≤ s.now →
      ∃ t2, exec (.secNonceExpiry t) s0 = .next t2 ∧ t2.ident.nonce = none ∧ t2.getF (SEC_NONCE 0) silNONCE = 0) ∧
    exec (.trngHealthFail t) s0 = .next (s.setF SEC_STATUS scTRNG 0) ∧ exec (.trngHealthPass t) s0 = .next (s.setF SEC_STATUS scTRNG 1) ∧
    (let a := silADDR.of w * 64
     let s1 := s.expireSil.setF SIL_AUTH silADDR (silADDR.of w)
     let b := s1.bytes a 256
     let f := s1.clearFail b
     silOP.of w = 2 → s.getF SIL_AUTH silSTATUS ≠ 1 → s.islandServes false = true → s1.islandReads a 256 = true →
      ∃ t2, exec (.sillageClear .islandA w t) s0 = .next t2 ∧ t2.ident.silNonce = none ∧
        (f = 0 → t2.getF SIL_AUTH silSTATUS = 2 ∧ t2.getF SIL_CLR1 silKEYID = fieldAt b 8 4 % 2 ^ silKEYID.w ∧
          t2.getF SIL_CLR1 silCLRCOUNT = min 0xFFFFFFFF (s.getF SIL_CLR1 silCLRCOUNT + 1) ∧
          (fieldAt b 6 1 = 0 → t2.sil.ext = [] ∧ (∀ h k, 142 ≤ h → h < 512 → k < 64 → Tab.get 0 t2.sil.hist (64 * h + k) = 0)) ∧
          (fieldAt b 6 1 = 1 → (Tab.get {} t2.quar (fieldAt b 7 1) : Quar).mask = 0 ∧ (Tab.get {} t2.quar (fieldAt b 7 1) : Quar).all = false)) ∧
        (f ≠ 0 → t2.getF SIL_AUTH silSTATUS = 3 ∧ t2.getF SIL_AUTH silFAIL = f % 2 ^ silFAIL.w))

/-- FLC_PULSE, LINE_FAULT, SPEED_UPDATE, PLAUSIBILITY_SAMPLE, FLC_ODO_WRITE, MIRROR_REFRESH, DEBUG_OPEN_SEAL, FLACON_POWER_ON and
VANA_FALL (14 R382 to R387, R392, R394). -/
def Obligations.FlaconMeasureResults : Prop :=
  ∀ (s0 : State) (w t : Nat), let s := s0.at t
    let m := s.flc.m
    (s.flc.on = true → s.pulseEarly = true → exec (.flcPulse t) s0 = .next s) ∧
    (s.flc.on = true → s.pulseEarly = false → ∃ t2, exec (.flcPulse t) s0 = .next t2 ∧ t2.flc.m.acc = (m.acc + 1000) % m.k ∧
      t2.flc.m.dist = min 0xFFFFFFFF (m.dist + (m.acc + 1000) / m.k) ∧
      t2.flc.m.distSat = (m.distSat || decide (0xFFFFFFFF < m.dist + (m.acc + 1000) / m.k)) ∧ t2.flc.pulses.length ≤ s.flc.pulses.length + 1 ∧
      s.now ∈ t2.flc.pulses ∧ t2.flc.saved = (if t2.flc.m.dist / 10 = m.dist / 10 then s.flc.saved else t2.flc.m)) ∧
    (∀ on, s.flc.on = true → exec (.lineFault on t) s0 = .next { s with flc := { s.flc with lineFault := on } }) ∧
    (let n := (s.flc.pulses.filter (fun p => decide (s.now < p + sec 1))).length
     s.flc.running = true → ∃ t2, exec (.speedUpdate t) s0 = .next t2 ∧ t2.flc.speed = min 65535 (n * 921600 / m.k) ∧
      t2.flc.overrange = decide (25000 < n) ∧ t2.flc.m = m) ∧
    (let s1 := s.sampleOdo
     let odo := s.getF FLC_ODO foSPEED
     let d := ((s.flc.speed : Int) - (odo : Int)).natAbs
     s.flc.running = true → s.flag FLC_ODO foV = true → s1.flc.stale = false →
     ∃ t2, exec (.plausibilitySample t) s0 = .next t2 ∧
      (10 * d ≤ max 10240 odo → t2.flc.bad = 0 ∧ t2.flc.good = min 600 (s.flc.good + 1) ∧ t2.flc.impl = (s.flc.impl && decide (s.flc.good + 1 < 600))) ∧
      (max 10240 odo < 10 * d → 1280 < s.flc.speed → 1280 < odo →
        t2.flc.bad = min 100 (s.flc.bad + 1) ∧ t2.flc.good = 0 ∧ t2.flc.impl = (s.flc.impl || decide (99 ≤ s.flc.bad)))) ∧
    (∃ t2, exec (.flcOdoWrite .islandA w) s0 = .next t2 ∧ ∀ f ∈ [foV, foSEQ, foSPEED], t2.getF FLC_ODO f = f.of w) ∧
    (∀ who, who ≠ Who.islandA → exec (.flcOdoWrite who w) s0 = .next s0.refuseAccess) ∧
    (s.flcUp = true → ∃ t2, exec (.mirrorRefresh t) s0 = .next t2 ∧ t2.getF FLC_MEAS flMSEQ = (s.getF FLC_MEAS flMSEQ + 1) % 2 ^ flMSEQ.w ∧
      t2.getF FLC_MEAS flDIST = m.dist % 2 ^ 32 ∧ t2.getF FLC_CAL flK = m.k % 2 ^ flK.w ∧ t2.getF FLC_STATUS flFLAGS = s.flcFlags % 2 ^ flFLAGS.w ∧
      t2.getF FLC_STATUS flFSEC = s.flcSec) ∧
    (s.flc.on = true → s.flc.running = true → ∃ t2, exec (.debugOpenSeal t) s0 = .next t2 ∧ t2.flc.m.broken = true ∧ t2.flc.chal = none ∧
      t2.flc.m.sealCount = satInc 0xFFFFFFFF m.sealCount ∧ t2.flc.saved = t2.flc.m ∧
      t2.flc.m.log.length = (if m.log.length < 1024 then m.log.length + 1 else m.log.length)) ∧
    (s.flc.on = false → ∃ t2, exec (.flaconPowerOn t) s0 = .next t2 ∧ t2.flc.on = true ∧ t2.flc.m = { s.flc.saved with fpc := satInc 0xFFFFFFFF s.flc.saved.fpc } ∧
      t2.flc.saved = t2.flc.m ∧ t2.flc.pulses = [] ∧ t2.flc.chal = none) ∧
    (s.flc.on = true → ∃ t2, exec (.vanaFall t) s0 = .next t2 ∧ t2.flc.on = false ∧ t2.flc.running = false ∧ t2.flc.saved = m)

/-- SIGN, OPEN, CLOSE, SESSION_TIMEOUT, SET_K, RESEAL, FW_UPDATE and BLOCK (14 R388 to R391, R393, R394). -/
def Obligations.FlaconCommandResults : Prop :=
  ∀ (s0 : State) (w t : Nat), let s := (s0.at t).flcExpire
    let asks := fun (op : Nat) => frOP.of w = op ∧ s.getF FLC_REQ frSTATUS ≠ 1 ∧ s.flcUp = true
    (asks 1 → ∃ t2, exec (.sign .islandA w t) s0 = .next t2 ∧ t2.flc.rseq = (s.flc.rseq + 1) % 2 ^ 32 ∧ t2.getF FLC_REQ frSTATUS = 2 ∧
      t2.bytes (flcBase + 0x800) 4 = bytesOf 4 0x464C4352 ∧ t2.bytes (flcBase + 0x808) 4 = bytesOf 4 ((s.flc.rseq + 1) % 2 ^ 32) ∧
      t2.bytes (flcBase + 0x80C) 4 = bytesOf 4 s.flc.m.dist) ∧
    (asks 2 → ∃ t2 c, exec (.openSession .islandA w t) s0 = .next t2 ∧ t2.flc.chal = some c ∧ t2.flc.cmdAt = s.now ∧
      t2.getF FLC_STATUS flSESSION = 1 ∧ t2.getF FLC_REQ frSTATUS = 2) ∧
    (asks 4 → s.flc.chal.isSome = true → ∃ t2, exec (.closeSession .islandA w t) s0 = .next t2 ∧ t2.flc.chal = none ∧ t2.flc.transfer = none ∧
      t2.getF FLC_STATUS flSESSION = 0 ∧ t2.getF FLC_REQ frSTATUS = 2) ∧
    ((s0.at t).flc.chal.isSome = true → (s0.at t).flc.cmdAt + sec 600 ≤ (s0.at t).now → exec (.sessionTimeout t) s0 = .next (s0.at t).flcClose) ∧
    (let b := s0.flcBuf
     let f := s.flcCheck b
     let went := fun (t2 : State) => t2.flc.chal.isSome = true ∧ t2.flc.cmdAt = s.now ∧ (f = 0 → t2.getF FLC_REQ frSTATUS = 2) ∧
       (f ≠ 0 → t2.getF FLC_REQ frSTATUS = 3 ∧ t2.getF FLC_REQ frFAIL = f % 2 ^ frFAIL.w ∧ t2.flc.m = s.flc.m)
     let counted := fun (t2 : State) => t2.flc.m.sealCount = satInc 0xFFFFFFFF s.flc.m.sealCount ∧
       t2.flc.m.log.length = s.flc.m.log.length + 1 ∧ t2.flc.saved = t2.flc.m
     asks 3 → s.flc.chal.isSome = true →
     (fieldAt b 6 1 = 1 → ∃ t2, exec (.setK .islandA w t) s0 = .next t2 ∧ went t2 ∧
       (f = 0 → counted t2 ∧ t2.flc.m.k = fieldAt b 0xC 4 ∧ t2.flc.m.acc = s.flc.m.acc * fieldAt b 0xC 4 / s.flc.m.k)) ∧
     (fieldAt b 6 1 = 2 → ∃ t2, exec (.reseal .islandA w t) s0 = .next t2 ∧ went t2 ∧ (f = 0 → counted t2 ∧ t2.flc.m.broken = false)) ∧
     (fieldAt b 6 1 = 3 → ∃ t2, exec (.fwUpdate .islandA w t) s0 = .next t2 ∧ went t2 ∧
       (f = 0 → t2.flc.transfer = some { crc := fieldAt b 0xC 4, key := fieldAt b 8 4, need := none } ∧ t2.getF FLC_REQ frBLOCKS = 0))) ∧
    (∀ tr, let n := s.getF FLC_REQ frBLOCKS
     asks 5 → s.flc.transfer = some tr → n + 1 ≠ 32 → tr.need ≠ some (n + 1) →
      ∃ t2, exec (.block .islandA w t) s0 = .next t2 ∧ t2.getF FLC_REQ frBLOCKS = (n + 1) % 2 ^ frBLOCKS.w ∧ t2.getF FLC_REQ frSTATUS = 2 ∧
        t2.flc.transfer = some tr ∧ t2.flc.m = s.flc.m)

/-- NONCE, UNLOCK, PROVISION, ATTEST and FIRMWARE_UPDATE (15 R399, R400, R409, R411, R412, R414, R420). -/
def Obligations.SecurityResults : Prop :=
  ∀ (s0 : State) (w t : Nat), let s := (s0.at t).expireSec
    let s1 := s.setF SEC_REQ srADDR (srADDR.of w)
    let a := srADDR.of w * 64
    let asks := fun (op : Nat) => srOP.of w = op ∧ s.islandServes false = true ∧ s.getF SEC_REQ srSTATUS ≠ 1
    (asks 1 → ∃ t2, exec (.nonce .islandA w t) s0 = .next t2 ∧
      (s.flag SEC_STATUS scTRNG = true → ∃ n, t2.ident.nonce = some n ∧ n.length = 16 ∧ t2.sup.secNonceAt = s.now ∧ t2.getF SEC_REQ srSTATUS = 2) ∧
      (s.flag SEC_STATUS scTRNG = false → t2.ident.nonce = none ∧ t2.getF SEC_REQ srFAIL = 12)) ∧
    (∀ cut, let b := s1.bytes a 256
     let f := s1.unlockFail b
     asks 2 → s1.islandReads a 256 = true → s1.flcUp = true →
      ∃ t2, exec (.unlock .islandA w cut t) s0 = .next t2 ∧ t2.ident.nonce = none ∧
        (f ≠ 0 → t2.getF SEC_REQ srSTATUS = 3 ∧ t2.getF SEC_REQ srFAIL = f % 2 ^ srFAIL.w ∧ t2.stores = s.stores) ∧
        (f = 0 → cut = true → t2.pendingErase = some (fieldAt b 6 1) ∧ t2.getF SEC_REQ srSTATUS = 1 ∧ t2.flag SEC_STATUS scERASE = true) ∧
        (f = 0 → cut = false → t2.lifecycle = fieldAt b 6 1 ∧ t2.pendingErase = none ∧ t2.storeNums 0x10 = [1, 1, 0] ∧
          t2.getF SEC_REQ srSTATUS = 2)) ∧
    (let h := s1.bytes a 448
     let r := s1.package h (s1.bytes (a + 0x1C0) (fieldAt h 0xC 4))
     asks 3 → s1.islandReads a 448 = true → s1.islandReads (a + 0x1C0) (fieldAt h 0xC 4) = true → s.flag SEC_STATUS scTRNG = true → s.ident.norFailed = 0 →
      ∃ t2, exec (.provision .islandA w t) s0 = .next t2 ∧ t2.ident.nonce = none ∧
        (∀ f, r = .error f → t2.stores = s.stores ∧ (f ≠ 0 → t2.getF SEC_REQ srSTATUS = 3)) ∧
        (∀ p, r = .ok p → t2.storeVal 1 = some (.config p.config) ∧ t2.storeNums 0x14 = p.trust ∧ t2.storeNums 0x11 = [fieldAt h 6 1] ∧
          t2.storeNums 0x10 = [1, 1, 1] ∧ t2.ident.left = true ∧ t2.getF SEC_REQ srSTATUS = 2)) ∧
    (asks 4 → s1.islandReads a 16 = true → s1.islandReads (a + 0x40) 640 = true → (s.storeNums 0x10).getD 0 0 = 1 →
      ∃ t2, exec (.attest .islandA w t) s0 = .next t2 ∧ t2.getF SEC_REQ srSTATUS = 2 ∧ t2.bytes (a + 0x40) 4 = bytesOf 4 0x41545452 ∧
        t2.bytes (a + 0x40 + 0x20) 16 = s1.bytes a 16 ∧ ∀ x, x < a + 0x40 ∨ a + 0x40 + 640 ≤ x → t2.byte x = s.byte x) ∧
    (let h := s1.bytes a 0x2000
     let tg := fieldAt h 6 1
     let img := s1.bytes a (imageLen h)
     asks 6 → s1.islandReads a 0x2000 = true → s1.islandReads a (imageLen h) = true → s.ident.norFailed = 0 →
      ∃ t2, exec (.firmwareUpdate .islandA w 7 t) s0 = .next t2 ∧
        ((tg < 1 ∨ 3 < tg ∨ s1.firmwareOk img tg = false) → t2.getF SEC_REQ srSTATUS = 3 ∧ t2.getF SEC_REQ srFAIL = 10 ∧ t2.ident.fw = s.ident.fw) ∧
        (1 ≤ tg → tg ≤ 3 → s1.firmwareOk img tg = true → t2.getF SEC_REQ srSTATUS = 2 ∧ t2.fwBank tg (1 - s1.preferred tg) = img ∧
          t2.preferred tg = 1 - s1.preferred tg ∧ t2.getF SEC_FWU_PROG fwPHASE = 7))

/-- PACKET_RECEIVE, ACK_RECEIVE, NAK_RECEIVE, CREDIT_RECEIVE, REPLAY_TIMEOUT, LINK_RETRAIN, FLACON_LINK_RETRY, LINK_TEST_MODE
and BOND_UNCORRECTABLE (16 R427 to R435, R441; that a packet's first transmission happens with its first arrival is log 27). -/
def Obligations.LinkResults : Prop :=
  ∀ (s0 : State) (l d t : Nat), let s := s0.at t
    let x := s.dir l d
    (∀ bs bad, let b := bs.map (fun v => v % 256)
      let ok := pktOk b && !bad
      let y := (x.passFirst b).getD x
      let z := (y.send b s.now).receive b ok
      l < 12 → d < 2 → s.lkState l = 2 → hdrBits b 0 4 ≠ 7 → pktSeq b = x.next → x.maySend b = true → (x.passFirst b).isSome = true → x.expect = pktSeq b →
      exec (.packetReceive l d bs bad t) s0 = .next (if l = 10 ∧ d = 0 ∧ ok then (s.setDir l d z).guestPacket b else s.setDir l d z) ∧
        z.next = (x.next + 1) % 4096 ∧ z.unacked = x.unacked ++ [(x.next, b)] ∧
        (ok = true → z.expect = (x.expect + 1) % 4096 ∧ z.passed = x.passed + 1) ∧
        (ok = false → z.expect = x.expect ∧ z.passed = x.passed ∧ z.discard = true ∧ (x.discard = false → z.nak = some x.expect))) ∧
    (∀ seq rest, ackUpTo seq x.unacked = some rest →
      ∃ t2, exec (.ackReceive l d seq t) s0 = .next t2 ∧ (t2.dir l d).unacked = rest ∧ (t2.dir l d).rounds = 0) ∧
    (∀ seq, l < 12 → d < 2 → s.lkState l = 2 → x.unacked.any (fun (n, _) => decide (n = seq)) = true →
      exec (.nakReceive l d seq t) s0 = .next (s.replayRound l d)) ∧
    (l < 12 → d < 2 → s.lkState l = 2 → x.unacked ≠ [] → x.ackAt + us 2 ≤ s.now → exec (.replayTimeout l d t) s0 = .next (s.replayRound l d)) ∧
    (let t2 := s.replayRound l d
     (t2.dir l d).rounds = x.rounds + 1 ∧ t2.getF (LNK_RETRY l) cnt64 = (s.getF (LNK_RETRY l) cnt64 + 1) % 2 ^ 64 ∧
      t2.lkState l = (if 7 ≤ x.rounds then 3 else s.lkState l)) ∧
    (∀ hs ds c, c < 3 → l < 12 → d < 2 → s0.lkState l = 2 →
      ∃ t2, exec (.creditReceive l d hs ds) s0 = .next t2 ∧
        Tab.get 0 (t2.dir l d).hdr c = Tab.get 0 (s0.dir l d).hdr c + subMod 8 (hs.getD c 0) (Tab.get (0, 0) (s0.dir l d).taken c).1 ∧
        Tab.get 0 (t2.dir l d).dat c = Tab.get 0 (s0.dir l d).dat c + subMod 12 (ds.getD c 0) (Tab.get (0, 0) (s0.dir l d).taken c).2) ∧
    (∀ b0 b1, let n := 2 ^ linkGroups l
      l < 12 → (s.lkState l = 2 ∨ s.lkState l = 3) → s.getF (LNK_STAT l) (lkWIDTH 0) = 2 → s.getF (LNK_STAT l) (lkWIDTH 1) = 2 →
      b0 % n = 0 → b1 % n = 0 →
      ∃ t2, exec (.linkRetrain l b0 b1 t) s0 = .next t2 ∧ t2.lkState l = 2 ∧ t2.getF (LNK_STAT l) (lkWIDTH 0) = 2 ∧
        t2.getF (LNK_STAT l) (lkWIDTH 1) = 2 ∧ t2.getF (LNK_STAT l) lkRETRAINS = satInc 0xFFFF (s.getF (LNK_STAT l) lkRETRAINS)) ∧
    (∀ b0 b1, l < 8 → (s.lkState l = 2 ∨ s.lkState l = 3) → trainWidth l b0 (decide (s.getF (LNK_STAT l) (lkWIDTH 0) = 1)) = 0 →
      ∃ t2, exec (.linkRetrain l b0 b1 t) s0 = .next t2 ∧ t2.lkState l = 4 ∧ t2.getF (LNK_STAT l) (lkWIDTH 0) = 0 ∧
        t2.getF (LNK_STAT l) (lkWIDTH 1) = 0 ∧ t2.getF (LNK_STAT l) lkREROUTED = 1) ∧
    (s.islandServes false = true → s.lkState 11 = 4 →
      ∃ t2, exec (.flaconLinkRetry 0 0 t) s0 = .next t2 ∧ t2.lkState 11 = 2 ∧ t2.getF FLC_STATUS flLINKOK = 1) ∧
    (∀ w, (ltMODE.of w = 1 ∨ ltMODE.of w = 2) → l < 12 → s.flag SEC_STATUS scDEBUG = true → s.lkState l = 4 →
      ∃ t2, exec (.linkTestMode .islandA l w 0 0 t) s0 = .next t2 ∧ t2.lkState l = 5 ∧ t2.getF (LNK_TEST l) ltMODE = ltMODE.of w ∧
        t2.getF (LNK_TEST l) ltERRORS = 0) ∧
    (∀ cd u st last, cd < 12 → Tab.get none s.links.bonds cd = some last → (s.accessEnds u st).now < last + sec 1 →
      let s1 := s.accessEnds u st
      exec (.bondUncorrectable cd u st t) s0 = .next ([4 * cd, 4 * cd + 1, 4 * cd + 2, 4 * cd + 3].foldl
        (fun r c => if r.unitState c = stOut then r else (r.takeOut (spadBase c)).capacityLost c)
        { s1 with links := { s1.links with bonds := Tab.set none s1.links.bonds cd (some s1.now) } })) ∧
    (∀ cd u st, cd < 12 → Tab.get none s.links.bonds cd = none → let s1 := s.accessEnds u st
      exec (.bondUncorrectable cd u st t) s0 = .next { s1 with links := { s1.links with bonds := Tab.set none s1.links.bonds cd (some s1.now) } })

/-- GUEST_POWER_SAMPLE, GUEST_FENCE, GST_WIN_WRITE and TCK (16 R438 to R442; 01 R24; the open chain's TDO is log 28). -/
def Obligations.GuestAndTestResults : Prop :=
  ∀ (s0 : State) (t : Nat), let s := s0.at t
    (∀ mw, let l := (mw :: s.links.guest.samples).take 100
      let sum := l.foldl (fun n v => n + v) 0
      let s1 : State := { s with links := { s.links with guest := { s.links.guest with samples := l } } }
      s.getF GST_STATUS gtSTATE = 3 → mw ≤ 20000 → ¬ (l.length = 100 ∧ 1500000 < sum) →
      exec (.guestPowerSample mw t) s0 = .next ((s1.setF GST_STATUS gtPOWER (sum / l.length)).setCap)) ∧
    (∀ mw, s.getF GST_STATUS gtSTATE = 3 → 20000 < mw →
      ∃ t2, exec (.guestPowerSample mw t) s0 = .next t2 ∧ t2.getF GST_STATUS gtSTATE = 5 ∧ t2.getF GST_STATUS gtREASON = 7 ∧
        t2.lkState 10 = 0 ∧ t2.getF (PWR_MON 28) pmON = 0 ∧ t2.links.guest.withdrawn = true) ∧
    (∀ w, gtFENCE.of w = 1 → s0.getF GST_STATUS gtSTATE = 3 →
      ∃ t2, exec (.guestFence .islandA w) s0 = .next t2 ∧ t2.getF GST_STATUS gtSTATE = 5 ∧ t2.getF GST_STATUS gtREASON = 9 ∧
        t2.getF GST_STATUS gtFENCE = 1 ∧ ∀ n < 16, t2.getF (GST_WIN n) gwV = 0) ∧
    (∀ n w, let part := s0.getF GST_PARAM gpPART
      n < 16 → s0.getF GST_STATUS gtSTATE = 3 → gwV.of w = 1 → n < s0.getF GST_PARAM gpNWIN → 1 ≤ gwLEN.of w → gwLEN.of w ≤ 344064 →
      s0.rgnOk 65 part true (gwBASE.of w * 0x10000) (gwLEN.of w * 0x10000) = true →
      ∃ t2, exec (.gstWinWrite (.runtime part) n w) s0 = .next t2 ∧ t2.getF (GST_WIN n) gwV = 1 ∧
        t2.getF (GST_WIN n) gwBASE = gwBASE.of w ∧ t2.getF (GST_WIN n) gwLEN = gwLEN.of w) ∧
    (∀ tms tdi, let x := s0.links.tap
      ∃ t2, exec (.tck tms tdi) s0 = .next t2 ∧ t2.links.tap.st = x.st.next tms ∧
        (x.st = .shDr → t2.links.tap.bypass = tdi ∧ (s0.flag SEC_STATUS scDEBUG = false → t2.links.tap.tdo = x.bypass)) ∧
        (x.st = .updIr → t2.links.tap.ir = x.shift) ∧ (x.st = .reset → t2.links.tap.ir = 0xFF)) ∧
    (∀ tms, let f := s0.fresh 2
      s0.flag SEC_STATUS scDEBUG = true → s0.links.tap.st = .shDr →
      ∃ t2, exec (.tck tms true) s0 = .next t2 ∧ t2.links.tap.tdo = decide (f.1 = 1) ∧ t2.free = f.2.free)

/-- COMBINE_BUFFER_EMIT, MACHINE_TIMER_COMPARE, LOCK, AP_SPLIT and LOCKSTEP_MISMATCH (17 R447, R448, R453 to R455). -/
def Obligations.AppCoreResults : Prop :=
  ∀ (s : State) (h p : Nat),
    (∀ q off v, let x : Comb := { q := q, words := Tab.insert (s.comb h).words (off / 8) (v % 2 ^ 64) }
      s.isHart h = true → q < 16384 → off % 8 = 0 → off < 64 → (s.comb h).q = q →
      (x.words.length < 8 → exec (.combineBufferEmit h false q off v) s = .next (s.setComb h x)) ∧
      (8 ≤ x.words.length → exec (.combineBufferEmit h false q off v) s =
        .next (pushCmd (.runtime (s.hartPart h)) q (x.words.flatMap (fun (_, v) => bytesOf 8 v)) (s.setComb h {})))) ∧
    (s.isHart h = true → exec (.combineBufferEmit h true 0 0 0) s = .next ((s.comb h).words.foldl
      (fun r w => swTailWrite (.runtime (r.hartPart h)) (s.comb h).q (8 * w.1) (bytesOf 8 w.2) r) (s.setComb h {}))) ∧
    (∀ t, h < 16 → ∃ t2, exec (.machineTimerCompare h t) s = .next t2 ∧
      (bit t2.ap.mtip h = true ↔ (s.at t).getF (MTIMECMP h) mtCMP ≤ ((s.at t).now - s.ap.timeAt) / 10 % 2 ^ 64)) ∧
    (p < 8 → s.getF (AP_STAT p) apMODE = 0 → s.flag (AP_STAT p) apGROUPED = false → s.flag (AP_STAT p) apFAILED = false →
      ∃ t2, exec (.lock p (2 * p) true true) s = .next t2 ∧ t2.getF (AP_STAT p) apMODE = 1 ∧ t2.getF (AP_STAT p) apREQFAIL = 0 ∧
        (t2.comb (2 * p + 1)).words = [] ∧ bit t2.ap.mtip (2 * p + 1) = false) ∧
    (p < 8 → s.getF (AP_STAT p) apMODE = 1 → s.flag (AP_STAT p) apGROUPED = false → s.flag (AP_STAT p) apFAILED = false →
      ∃ t2, exec (.apSplit p (2 * p) true) s = .next t2 ∧ t2.getF (AP_STAT p) apMODE = 0 ∧ t2.getF (AP_STAT p) apREQFAIL = 0 ∧
        Tab.find t2.ap.starts (2 * p + 1) = some (s.getF (AP_SPLIT_PC p) apPC, 2 * p + 1, 0)) ∧
    (p < 8 → exec (.lock p h false true) s = .next (s.setF (AP_STAT p) apREQFAIL 1) ∧
      exec (.apSplit p h false) s = .next (s.setF (AP_STAT p) apREQFAIL 1)) ∧
    (let s1 : State := { s with ap := { s.ap with halted := setBit s.ap.halted p } }
     let s2 := ((s1.setF (AP_STAT p) apFAILED 1).wire (1 + p)).binFailure (64 + p)
     p < 8 → s.getF (AP_STAT p) apMODE ≠ 0 → s.flag (AP_STAT p) apFAILED = false →
      exec (.lockstepMismatch p) s = .next (match s2.pairGroup p with | some (g, pos) => s2.memberLost g pos | none => s2))

/-- RIG_STEP, RIG_INJ, PCIE_INBOUND_REQUEST and APERTURE_ACCESS (17 R451, R452, R458 to R460). -/
def Obligations.RigAndPcieResults : Prop :=
  ∀ (s0 : State) (t : Nat), let s := s0.at t
    (∀ w, rigSTEP.of w = 1 → s.flag RIG_CTRL rigREPLAY = true → exec (.rigStep .pcie w t) s0 = .next s.stepTrig) ∧
    (∀ w, let s1 := s.loadF RIG_INJ [injCAM, injRING] w
      s.getF RIG_INJ injSTATUS ≠ 1 → s.flag RIG_CTRL rigREPLAY = true → injGO.of w = 1 → injCAM.of w = 1 → injRING.of w < 16 →
      s1.flag (CAM_CFG (injRING.of w)) ccEN = false →
      ∃ t2, exec (.rigInj .pcie w t) s0 = .next t2 ∧ t2.getF RIG_INJ injSTATUS = 3 ∧ t2.getF RIG_INJ injFAIL = 2) ∧
    (∀ w n, let s1 := s.loadF RIG_INJ [injCAM, injRING] w
      let a := camSlot s1 n (s1.cam n).next
      let h := s1.readBytes 65 (s1.getF (CAM_CFG n) ccPART) a 64
      let h2 := putAt (putAt h 7 [2]) 0x11 [fieldAt h 0x11 1 ||| 8]
      s.getF RIG_INJ injSTATUS ≠ 1 → s.flag RIG_CTRL rigREPLAY = true → injGO.of w = 1 → injCAM.of w = 1 → injRING.of w = n → n < 16 →
      s1.flag (CAM_CFG n) ccEN = true → s1.slotHeld a = false → fieldAt h 0 4 = 0x43524E47 → fieldAt h 4 2 = 1 → fieldAt h 6 1 = n →
      (s1.camWrite n a h2).2 = false →
      ∃ t2, exec (.rigInj .pcie w t) s0 = .next t2 ∧ t2.getF RIG_INJ injSTATUS = 2 ∧ t2.getF RIG_INJ injFAIL = 0 ∧
        fieldAt h2 7 1 = 2) ∧
    (∀ off n, let a := dirBase + off
      let r : Reader := { part := s0.cfg.pciePart, priv := s0.cfg.rigRead }
      n ≠ 0 → s0.cfg.epMode = true → off + n ≤ 0x400000 →
      (List.range ((off % 8 + n + 7) / 8)).all (fun i => s0.regReadable r (a / 8 * 8 + 8 * i)) = true →
      exec (.pcieInboundRequest 0 off false [] n) s0 = .next (s0.pcieAnswer 0 (s0.readRegs a n))) ∧
    (∀ off b, b ≠ [] → s0.cfg.epMode = true → dirBase + off < RIG_CTRL →
      exec (.pcieInboundRequest 0 off true b 0) s0 = .next (s0.refuseAccess.pcieAnswer 1 [])) ∧
    (∀ off n, let a := s0.cfg.bar4Base + off
      n ≠ 0 → s0.cfg.epMode = true → off + n ≤ s0.cfg.bar4Size → s0.canRead 65 s0.cfg.pciePart a n = true →
      s0.readFails 65 s0.cfg.pciePart a n = false →
      exec (.pcieInboundRequest 4 off false [] n) s0 =
        .next ((s0.readEffect 65 s0.cfg.pciePart a n).pcieAnswer 0 (s0.readBytes 65 s0.cfg.pciePart a n))) ∧
    (∀ off b, let a := s0.cfg.bar4Base + off
      let b2 := b.map (fun v => v % 256)
      b ≠ [] → s0.cfg.epMode = true → off + b.length ≤ s0.cfg.bar4Size → s0.canWrite 65 s0.cfg.pciePart a b.length = true →
      exec (.pcieInboundRequest 4 off true b 0) s0 = .next ((s0.writeMem 65 s0.cfg.pciePart a (byteList b2)).1.pcieAnswer 0 [])) ∧
    (∀ q b, let b2 := b.map (fun v => v % 256)
      let q2 := if s0.flag (qCtl q) qRDRV then s0.getF (qCtl q) qREDIRECT else q
      q < 16384 → b.length = 64 → s0.cfg.epMode = true → s0.qPart q2 = s0.cfg.pciePart →
      exec (.pcieInboundRequest 2 (64 * q) true b 0) s0 = .next ((pushCmd (.runtime s0.cfg.pciePart) q b2 s0).pcieAnswer 0 [])) ∧
    (∀ off wr bytes, s0.cfg.epMode = false → off + bytes.length ≤ 0x10000 →
      exec (.apertureAccess (.runtime s0.cfg.pciePart) off wr bytes) s0 = .next (s0.setPort 10 { s0.port 10 with
        sent := [b2n wr] ++ bytesOf 8 (s0.getF PCIE_WBASE pwBASE * 0x10000 + off) ++
          (if wr then bytes.map (fun b => b % 256) else bytesOf 2 bytes.length) }))

/-- CAN_TRANSMIT, CAN_RECEIVE, CAN_BUS_OFF, CAN_ERROR_PASSIVE, ODOMETRY_FRAME, ODOMETRY_STALE, PCIE_LINK_CHANGE and
PCIE_CFGA_GO (19 R504 to R507; 17 R458; the integrated pose is log 20, a frame with VALID 0 is log 21). -/
def Obligations.BusAndOdometryResults : Prop :=
  ∀ (s0 : State) (c t : Nat), let s := s0.at t
    (let g := 12 + c
     let n := s.grpNext g
     let b := s.grpEntry g n
     c < 2 → s.flag (CAN_CFG c) cnEN = true → n ≠ s.grpTail g →
     (canEntryOk b = true → s.canRead 65 (s.groupPart g) (s.grpAddr g n) 128 = true →
       s.readFails 65 (s.groupPart g) (s.grpAddr g n) 128 = false →
       let s1 := s.putEntry g n (putAt b 5 [1])
       exec (.canTransmit c t) s0 = .next ((((s1.setPort (8 + c) { s1.port (8 + c) with
         sent := b.take 5 ++ (b.drop 64).take (fieldAt b 4 1) }).setGrpNext g (n + 1)).setGrpHead g (n + 1)).irq (CANB c) (15 + c) 0)) ∧
     (canEntryOk b = false → exec (.canTransmit c t) s0 =
       .next ((((s.putEntry g n (putAt b 5 [3])).setGrpNext g (n + 1)).setGrpHead g (n + 1)).irq (CANB c) (15 + c) 0))) ∧
    (∀ id ide brs data, let g := 14 + c
      let n := s.grpNext g
      let id2 := id % 2 ^ (if ide then 29 else 11)
      c < 2 → s.flag (CAN_CFG c) cnEN = true → data.length ∈ canLens → s.canTakes c id2 ide = true →
      (n ≠ s.grpTail g → exec (.canReceive c id ide brs data t) s0 = .next ((((s.putEntry g n
        (bytesOf 4 (id2 + 2 ^ 29 * b2n ide + 2 ^ 30 + 2 ^ 31 * b2n brs) ++ [data.length, 1] ++ bytesOf 58 0 ++
          data.map (fun x => x % 256) ++ List.replicate (64 - data.length) 0)).setGrpNext g (n + 1)).setGrpHead g (n + 1)).irq (CANB c) (15 + c) 1)) ∧
      (n = s.grpTail g → exec (.canReceive c id ide brs data t) s0 = .next (s.irq (CANB c) (15 + c) 2))) ∧
    (c < 2 → s.flag (CAN_CFG c) cnEN = true →
      exec (.canBusOff c t) s0 = .next ((s.setF (CAN_CFG c) cnEN 0).irq (CANB c) (15 + c) 4) ∧
      exec (.canErrorPassive c t) s0 = .next (s.irq (CANB c) (15 + c) 3)) ∧
    (∀ isl bytes, let x := s.odoOf isl
      let b := bytes.map (fun v => v % 256)
      bytes.length = 16 → fieldAt b 0xC 4 = crc32c (b.take 12) → (∀ q, x.seq = some q → newer 8 (fieldAt b 0 1) q = true) →
      (fieldAt b 1 1 % 2 = 1 → ∃ t2, exec (.odometryFrame isl bytes t) s0 = .next t2 ∧ let y := t2.odoOf isl
        y.seq = some (fieldAt b 0 1) ∧ y.flags = fieldAt b 1 1 ∧ y.speed = fieldAt b 2 2 ∧ y.accel = fieldAt b 4 2 ∧ y.yaw = fieldAt b 6 2 ∧
        y.artic = fieldAt b 8 2 ∧ y.at_ = s.now ∧ y.stale = false ∧ y.pose = Config.odoPose x.pose x.rates (s.now - x.at_)) ∧
      (fieldAt b 1 1 % 2 = 0 → exec (.odometryFrame isl bytes t) s0 = .next (s.setOdo isl { x with seq := some (fieldAt b 0 1) }))) ∧
    (∀ isl, (s.odoOf isl).at_ + ms 50 ≤ s.now →
      let s1 := s.setOdo isl { s.odoOf isl with stale := true }
      exec (.odometryStale isl t) s0 = .next (if isl = true ∨ s.islandServes false = false then s1 else s1.setF FLC_ODO foV 0)) ∧
    (∀ gen width, 1 ≤ gen → gen ≤ 5 → width ∈ [1, 2, 4, 8] →
      exec (.pcieLinkChange true gen width t) s0 =
        .next ((((s.setF PCIEB pcGEN gen).setF PCIEB pcWIDTH width).setF PCIEB pcEP (b2n s.cfg.epMode)).irq PCIEB 18 0)) ∧
    exec (.pcieLinkChange false 0 0 t) s0 = .next ((((s.setF PCIEB pcGEN 0).setF PCIEB pcWIDTH 0).setF PCIEB pcEP (b2n s.cfg.epMode)).irq PCIEB 18 0) ∧
    (∀ w resp, let s1 := s0.loadF PCIE_CFGA [pgOP, pgBUS, pgDEV, pgFN, pgREG] w
      s0.cfg.epMode = false → pgGO.of w = 1 → pgOP.of w = 0 →
      exec (.pcieCfgaGo (.runtime s0.cfg.pciePart) w resp) s0 = .next
        (((s1.setF PCIE_CFGD pdDATA (if s1.getF PCIEB pcGEN = 0 then 0xFFFFFFFF else resp)).setF PCIE_CFGA pgDONE 1).irq PCIEB 18 2)) ∧
    (∀ w resp, let s1 := s0.loadF PCIE_CFGA [pgOP, pgBUS, pgDEV, pgFN, pgREG] w
      s0.cfg.epMode = false → pgGO.of w = 1 → pgOP.of w = 1 →
      exec (.pcieCfgaGo (.runtime s0.cfg.pciePart) w resp) s0 = .next (((s1.setPort 10 { s1.port 10 with
        sent := bytesOf 4 (w % 2 ^ 32) ++ bytesOf 4 (s1.getF PCIE_CFGD pdDATA) }).setF PCIE_CFGA pgDONE 1).irq PCIEB 18 2))

/-- RING_DOORBELL, ETH_TRANSMIT, ETH_RECEIVE, GPTP_SYNC, SYNC_LOSS, ETH_LINK_CHANGE, QBV_CTL_WRITE, QBV_LIST_IN_FORCE and
GATE_CONTROL_ENTRY (19 R496 to R502). -/
def Obligations.EthernetResults : Prop :=
  ∀ (s0 : State) (p t : Nat), let s := s0.at t
    (∀ who g w, g < 16 → ctrlWriter who (s0.groupPart g) = true → newer 32 (s0.grpTail g) (w % 2 ^ 32) = false →
      subMod 32 (w % 2 ^ 32) (s0.grpHead g) ≤ s0.grpDepth g →
      ∃ t2, exec (.ringDoorbell who g w) s0 = .next t2 ∧ t2.grpTail g = w % 2 ^ 32 ∧ t2.grpHead g = s0.grpHead g) ∧
    (∀ n d, let a := fieldAt d 0 8
      let len := fieldAt d 8 2
      let time := s.portTime p % 2 ^ 64
      p < 6 → s.flag (PORT p) psLINK = true → s.txPick p (s.txWaiting p) = some (n, d) →
      (txOk d = true → s.canRead 65 (s.portPart p) a len = true → s.readFails 65 (s.portPart p) a len = false →
        exec (.ethTransmit p t) s0 = .next (s.txDone p n d (fieldAt d 0xB 1 % 4 + 4) time
          (some (txFrame d (s.readBytes 65 (s.portPart p) a len) time)))) ∧
      (txOk d = false ∨ s.canRead 65 (s.portPart p) a len = false ∨ s.readFails 65 (s.portPart p) a len = true → exec (.ethTransmit p t) s0 = .next (s.txDone p n d (fieldAt d 0xB 1 % 4 + 12) 0 none))) ∧
    (∀ frame ok, let f := frame.map (fun b => b % 256)
      p < 6 → s.flag (PORT p) psLINK = true →
      (ok = false ∨ frame.length < 60 ∨ 9018 < frame.length → ∃ t2, exec (.ethReceive p frame ok t) s0 = .next t2 ∧
        t2.getF (PORT_DROP p) cnt64 = (s.getF (PORT_DROP p) cnt64 + 1) % 2 ^ 64) ∧
      (ok = true → 60 ≤ frame.length → frame.length ≤ 9018 →
        (s.qciMatch p f = none → exec (.ethReceive p frame ok t) s0 = .next (s.rxFill p 0xFF f)) ∧
        (∀ k, s.qciMatch p f = some k → frame.length ≤ s.getF (QCI_M p k) qmSDU →
          let m := s.meter p k (8 * frame.length)
          let ring := s.getF (QCI_M p k) qmRING
          exec (.ethReceive p frame ok t) s0 =
            .next (if m.2 then (if ring < 32 then m.1.rxStream ring p f else m.1.rxFill p k f) else m.1.portDrop p)))) ∧
    (∀ time, p < 6 → s.flag (PORT p) psLINK = true →
      ∃ t2, exec (.gptpSync p time t) s0 = .next t2 ∧ t2.portTime p = time % 2 ^ 64 ∧ t2.getF (PORT p) psASSYNC = 1) ∧
    (p < 6 → ∃ t2, exec (.syncLoss p t) s0 = .next t2 ∧ t2.getF (PORT p) psASSYNC = 0 ∧ t2.portTime p = s.portTime p) ∧
    (∀ speed, p < 6 → (if p < 4 then 2 ≤ speed ∧ speed ≤ 4 else speed = 1) → s.flag (PORT p) psLINK = false →
      ∃ t2, exec (.ethLinkChange p true speed t) s0 = .next t2 ∧ t2.getF (PORT p) psLINK = 1 ∧ t2.getF (PORT p) psSPEED = speed ∧
        t2.getF (PORT p) psASSYNC = 0 ∧ t2.portTime p = 0) ∧
    (∀ w, p < 6 → 1 ≤ qvNGCL.of w → qvNGCL.of w ≤ 256 → 1000 ≤ qvCYCLE.of w → qvCYCLE.of w ≤ 1000000000 →
      ∃ t2, exec (.qbvCtlWrite (.runtime (s0.portPart p)) p w) s0 = .next t2 ∧ t2.getF (QBV_CTL p) qvPENDING = 1 ∧
        t2.getF (QBV_CTL p) qvNGCL = qvNGCL.of w ∧ t2.getF (QBV_CTL p) qvCYCLE = qvCYCLE.of w ∧ t2.getF (QBV_CTL p) qvEN = qvEN.of w) ∧
    (let base := s.getF (QBV_BASE p) rw64
     let c := s.getF (QBV_CTL p) qvCYCLE
     p < 6 → s.flag (QBV_CTL p) qvPENDING = true → base ≤ s.portTime p →
      ∃ t2, exec (.qbvListInForce p t) s0 = .next t2 ∧ t2.getF (QBV_CTL p) qvPENDING = 0 ∧
        (t2.port p).cycleAt = base + (s.portTime p - base) / c * c ∧ (t2.port p).idx = 0 ∧
        (t2.port p).gcl = (List.range (s.getF (QBV_CTL p) qvNGCL)).map (fun e =>
          (s.getF (QBV_GCL p e) gcINTERVAL, s.getF (QBV_GCL p e) gcGATES))) ∧
    (let x := s.port p
     let e := entryEnd x.gcl x.idx (x.entryAt - x.cycleAt) x.cycle
     p < 6 → x.qbvOn = true → x.cycleAt + e ≤ s.portTime p →
      (e < x.cycle → exec (.gateControlEntry p t) s0 = .next (s.setPort p { x with idx := x.idx + 1, entryAt := x.cycleAt + e })) ∧
      (x.cycle ≤ e → exec (.gateControlEntry p t) s0 =
        .next (s.setPort p { x with idx := 0, entryAt := x.cycleAt + x.cycle, cycleAt := x.cycleAt + x.cycle })))

/-- PWR_EN_RISE, RAIL_GROUP_GOOD, SUPPLY_MONITOR_SAMPLE, PWR_EN_FALL, VBUS_LOSS, VBUS_RESTORE, VBUS_LOW_THROUGHPUT,
POWER_LIMITER_SAMPLE, VOLTAGE_RAMP and POWER_CYCLE (18 R469 to R477; 01 R23; 12 R362). -/
def Obligations.PowerResults : Prop :=
  ∀ (s0 : State) (t : Nat), let s := s0.at t
    (s.pow.en = false → s.pow.refused = false → ((∀ n < 5, s.inTol n (ms 10) = true) →
        ∃ t2, exec (.pwrEnRise t) s0 = .next t2 ∧ t2.pow.en = true ∧ t2.pow.seqOn = true ∧ t2.pow.groups = 0 ∧ t2.pow.groupAt = s.now) ∧
      (s.inTol 0 (ms 10) = false → ∃ t2, exec (.pwrEnRise t) s0 = .next t2 ∧ t2.getF PWR_FAULT pfV = 1 ∧
        t2.getF PWR_FAULT pfCODE = 3 ∧ t2.getF PWR_FAULT pfSUPPLY = 0 ∧ t2.pow.refused = true ∧ t2.pow.seqOn = false)) ∧
    (∀ st, let g := s.pow.groups + 1
      s.pow.seqOn = true → g < 3 →
      (s.now ≤ s.pow.groupAt + ms 10 → ∃ t2, exec (.railGroupGood st t) s0 = .next t2 ∧ t2.pow.groups = g ∧ t2.pow.groupAt = s.now ∧
        ∀ n ∈ groupRails g, t2.getF (PWR_MON n) pmON = 1 ∧ t2.getF (PWR_MON n) pmTARGET = railMv n) ∧
      (s.pow.groupAt + ms 10 < s.now → s.pow.refused = false → ∃ t2, exec (.railGroupGood st t) s0 = .next t2 ∧
        t2.getF PWR_FAULT pfCODE = 5 ∧ t2.pow.seqOn = false)) ∧
    (∀ mv, s.pow.good = false → s.pow.en = true → s.pow.seqOn = false →
      ∃ t2, exec (.supplyMonitorSample mv t) s0 = .next t2 ∧ t2.getF PWR_STATUS pwVBUS = min (mv.getD 0 0) 0xFFFF ∧
        ∀ n < 32, t2.getF (PWR_MON n) pmVALUE = min (mv.getD n 0) 0xFFFF) ∧
    (s.pow.en = true → ∃ t2, exec (.pwrEnFall t) s0 = .next t2 ∧ t2.pow.en = false ∧ t2.pow.good = false ∧ t2.pow.offAt = s.now ∧
      (∀ n < 24, t2.getF (PWR_MON (n + 5)) pmON = 0) ∧
      (s.pow.good = true → s.pow.released = true → s.islandServes false = true →
        t2.shut = (if s.cal.dirty then [(2, s.calVal)] else []) ++ [(3, .quar s.quarTable), (4, (s.setF SIL_CTRL silFREEZE 0).silImage)])) ∧
    (s.pow.en = true → s.pow.good = true → s.islandServes false = true →
      ∃ t2, exec (.vbusLoss t) s0 = .next t2 ∧ bit t2.pow.hold 4 = true ∧ t2.pow.good = false ∧ bit (t2.getF SAFE_STATUS safACTIVE) 5 = true ∧
        ∀ n < 24, t2.getF (PWR_MON (n + 5)) pmON = 0) ∧
    (s.pow.en = true → bit s.pow.hold 4 = true → s.pow.seqOn = false → s.inTol 0 (ms 10) = true → s.inTol 1 (ms 10) = true →
      exec (.vbusRestore t) s0 = .next { s with pow := { s.pow with seqOn := true, groups := 0, groupAt := s.now } }) ∧
    (∀ a, s.pow.vbusLow = some a → s.islandServes false = true → s.mode = 0 → a + ms 10 ≤ s.now → s.flag CLK_STATUS ckPEND = false →
      exec (.vbusLowThroughput t) s0 = .next (s.askMode 1 s.now)) ∧
    (∀ mw ma, let l := (mw :: s.pow.samples).take 100
      let sum := l.foldl (fun n v => n + v) 0
      ∃ t2, exec (.powerLimiterSample mw ma t) s0 = .next t2 ∧ t2.pow.samples = l ∧ t2.getF PWR_STATUS pwIBUS = min ma 0xFFFF ∧
        t2.getF PWR_STATUS pwPOWER = min (sum / (100 * l.length)) 0xFFFF ∧
        (l.length = 100 → 90 * s.getF PWR_STATUS pwCAP * 100 < sum → s.pow.pwrAt = none → s.pow.pwrNext = some 4 →
          t2.pow.pwrNext = some (slower 4))) ∧
    (s.islandServes false = true → exec (.voltageRamp t) s0 = .next s.setRails) ∧
    (∀ b, s.sup.warmSince = some b → b + s.sup.warmLimit ≤ s.now →
      exec (.powerCycle t) s0 = .next (s.raiseSafe 10) ∧ bit ((s.raiseSafe 10).getF SAFE_STATUS safACTIVE) 10 = true)

/-- PORST_N_LOW, PORST_N_RELEASE, RESET_N_LOW, RESET_N_RELEASE, CLOCK_FAULT, THERMAL_TRIP and TRIP_RELEASE (18 R467, R478, R479,
R483). -/
def Obligations.ResetPinResults : Prop :=
  ∀ (s0 : State) (t : Nat), let s := s0.at t
    (∃ t2, exec (.porstNLow t) s0 = .next t2 ∧ bit t2.pow.hold 0 = true ∧ t2.jobs = State.reset.jobs ∧ t2.units = State.reset.units ∧
      t2.sil = State.reset.sil ∧ t2.stores = s.cutWrites.stores ∧ t2.flc = s.flc ∧ t2.now = s.now) ∧
    (∀ st, bit s.pow.hold 0 = true → s.pow.good = true →
      exec (.porstNRelease st t) s0 = .next (State.coldStart { s with pow := { s.pow with hold := clrBit s.pow.hold 0 } } st 1)) ∧
    (bit s.pow.hold 0 = false → bit s.pow.hold 1 = false → s.pow.good = true →
      ∃ t2, exec (.resetNLow t) s0 = .next t2 ∧ bit t2.pow.hold 1 = true ∧ t2.jobs = State.reset.jobs ∧ t2.units = State.reset.units ∧
        t2.flc = s.flc ∧ t2.pow.released = false) ∧
    (∀ st, bit s.pow.hold 0 = false → bit s.pow.hold 1 = true → s.pow.hold = 2 → s.pow.good = true →
      exec (.resetNRelease st t) s0 = .next (State.warmStart { s with pow := { s.pow with hold := 0 } } st 2)) ∧
    (s.islandServes false = true → s.pow.good = true →
      ∃ t2, exec (.clockFault t) s0 = .next t2 ∧ bit t2.pow.hold 3 = true ∧ bit (t2.getF SAFE_STATUS safACTIVE) 7 = true ∧
        t2.jobs = State.reset.jobs) ∧
    (∀ d, d ≤ 16 → s.pow.good = true →
      ∃ t2, exec (.thermalTrip d t) s0 = .next t2 ∧ bit t2.pow.hold 2 = true ∧ t2.getF RST_STATUS rtCAUSE = 4 ∧ t2.units = State.reset.units) ∧
    exec (.thermalTrip 17 t) s0 = .next (s.failIsland false) ∧ exec (.thermalTrip 18 t) s0 = .next (s.failIsland true) ∧
    (∀ st, bit s.pow.hold 2 = true → s.islandServes false = true → lasted s.pow.below100 (sec 10) s.now = true →
      exec (.tripRelease st t) s0 = .next ((s.beginWarm false).releaseMain st 2 4))

/-- THERMAL_SAMPLE, COOLANT_WINDOW and AGEING_MEASURE (18 R481, R482, R484 to R487). -/
def Obligations.ThermalResults : Prop :=
  ∀ (s0 : State) (t : Nat), let s := s0.at t
    (∀ vals, (let r := (List.range 21).foldl (fun (s : State) d => s.showSensors d ((vals.drop (8 * d)).take 8)) s
      r.islandServes false = true → r.pow.good = false → (∀ x, r.hottest 20 = some x → x ≤ 1150) →
      exec (.thermalSample vals t) s0 = .next (r.thermControl r.deviceTj) ∧
      (∀ d < 21, ∀ i < 8, (r.sensor d i = judgeSensor ((vals.drop (8 * d)).take 8) i)) ∧
      (1150 < r.deviceTj → bit ((r.thermControl r.deviceTj).getF SAFE_STATUS safACTIVE) 4 = true) ∧
      (1050 ≤ r.deviceTj → r.pow.hot = 9 → r.pow.msAt + ms 1 ≤ r.now → r.pow.thermAt = none → r.pow.thermNext = some 4 →
        (r.thermControl r.deviceTj).pow.thermNext = some (slower 4)))) ∧
    (∀ s1 p1 w, let sum := (s.baseSum + 2200).toNat
      let pw := s.pow.winSum / max 1 s.pow.winN
      s.islandServes false = true → s.pow.windows = (s1, p1) :: w → s.getF COOL_STATUS coSTATE < 2 → s.pow.rising = 2 →
      (12 : Int) < (sum : Int) - (s1 : Int) → near10 pw p1 = true →
      ∃ t2, exec (.coolantWindow t) s0 = .next t2 ∧ t2.getF COOL_STATUS coSTATE = 2 ∧ t2.pow.windows = ((sum, pw) :: s.pow.windows).take 61) ∧
    (∀ ages, s.islandServes false = true → s.pow.good = true → s.pow.hold = 0 → s.pow.ageAt + sec 3600 ≤ s.now → s.pow.trimNext = [] →
      ∃ t2, exec (.ageingMeasure ages t) s0 = .next t2 ∧ t2.pow.ageAt = s.now ∧ (∀ d < 21, t2.getF (TRIM d) tmAGE = min (ages.getD d 0) 0xFFFF) ∧
        (∀ d < 17, s.getF (TRIM d) tmSTEPS < min 12 (min (ages.getD d 0) 0xFFFF / 50) →
          Tab.find t2.pow.trimNext d = some (s.getF (TRIM d) tmSTEPS + 1)))

/-- SPEED_UPDATE, and FLC_PULSE beyond the range (14 R385; what a pulse adds is 14 R384). -/
def Obligations.WheelSpeed : Prop :=
  ∀ (s0 : State) (t : Nat), let s := s0.at t
    let n := (s.flc.pulses.filter (fun p => decide (s.now < p + sec 1))).length
    (s.flc.running = true → ∃ t2, exec (.speedUpdate t) s0 = .next t2 ∧ t2.flc.speed = min 65535 (n * 921600 / s.flc.m.k) ∧
      (t2.flc.overrange = true ↔ 25000 < n) ∧ t2.flc.m = s.flc.m) ∧
    (s.flc.on = true → s.pulseEarly = true → exec (.flcPulse t) s0 = .next s) ∧
    (s.flc.on = true → s.pulseEarly = false → s.flc.overrange = true → ∃ t2, exec (.flcPulse t) s0 = .next t2 ∧
      t2.flc.m.acc + s.flc.m.k * ((s.flc.m.acc + 1000) / s.flc.m.k) = s.flc.m.acc + 1000 ∧
      (t2.flc.pulses.filter (fun p => decide (s.now < p + sec 1))).length = n + 1 ∧ t2.flc.overrange = true)

/-- The integer formats (02 R27). -/
def Obligations.IntegerFormats : Prop :=
  ∀ x ∈ [(Fmt.int4, (-8 : Int), (7 : Int)), (Fmt.int8, -128, 127), (Fmt.int16, -32768, 32767), (Fmt.int32, -2147483648, 2147483647)],
    (∀ b < 2 ^ x.1.bits, x.2.1 ≤ signedOf x.1.bits b ∧ signedOf x.1.bits b ≤ x.2.2 ∧ (signedOf x.1.bits b - (b : Int)) % 2 ^ x.1.bits = 0) ∧
    (∀ v : Int, x.2.1 ≤ v → v ≤ x.2.2 → ∃ b < 2 ^ x.1.bits, signedOf x.1.bits b = v ∧ ∀ c < 2 ^ x.1.bits, signedOf x.1.bits c = v → c = b)

/-- Serial-number arithmetic (00 R10). -/
def Obligations.SerialNumbers : Prop :=
  ∀ n a b : Nat, 1 ≤ n → a < 2 ^ n → b < 2 ^ n → let d := (((a : Int) - b) % 2 ^ n).toNat
    (newer n a b = true ↔ 1 ≤ d ∧ d ≤ 2 ^ (n - 1) - 1) ∧ (newer n b a = true ↔ 2 ^ (n - 1) + 1 ≤ d ∧ d ≤ 2 ^ n - 1) ∧
    (d = 2 ^ (n - 1) → newer n a b = false ∧ newer n b a = false)

/-- REGISTER_WRITE and how a register reads (00 R5, R6; 01 R18; 10 R276, R280; 05 R149; 17 R448). -/
def Obligations.RegisterWriteResults : Prop :=
  ∀ (s : State) (who : Who) (a w : Nat),
    (partBase ≤ a → a < redBase → a % 8 = 0 → ¬ (JOB_STAT 0 ≤ a ∧ a < JOB_STAT 255) →
      (∃ t, exec (.registerWrite .islandA a w) s = .next t ∧ t.mem = s.mem ∧
        (∀ f ∈ regFields a, (f.acc = .rw → t.getF a f = f.of w) ∧
          (f.acc = .w1c → t.getF a f = (s.getF a f - (s.getF a f &&& f.of w)) % 2 ^ f.w) ∧ (f.acc = .ro → t.getF a f = s.getF a f)) ∧
        (∀ b (f : FD), b ≠ a → f.lo < 64 → t.getF b f = s.getF b f) ∧
        (∀ w2, (∀ f ∈ regFields a, f.of w2 = f.of w) → exec (.registerWrite .islandA a w2) s = .next t)) ∧
      (who ≠ .islandA → exec (.registerWrite who a w) s = .next s.refuseAccess)) ∧
    (∀ h < 16, ∃ t, exec (.registerWrite (.runtime (s.hartPart h)) (MTIMECMP h) w) s = .next t ∧ t.getF (MTIMECMP h) mtCMP = w % 2 ^ 64 ∧
      (bit t.ap.mtip h = true ↔ w % 2 ^ 64 ≤ s.hartTime)) ∧
    (∀ x ∈ [MC_FILL_ADDR, MC_FILL_LEN], s.getF MC_FILL_CTRL fillSTATUS ≠ 1 →
      exec (.registerWrite .islandA x w) s = .next (s.writeReg x (regFields x) w)) ∧
    (place a 8 = .none → exec (.registerWrite who a w) s = .next s.refuseAccess) ∧
    (∀ i, i < 64 → (∀ f ∈ regFields a, i < f.lo ∨ f.lo + f.w ≤ i) → s.wordF a (regFields a) / 2 ^ i % 2 = 0)

/-- Refused writes (01 R18 with each register's right: 03 R78; 05 R143; 07 R188; 08 R203, R208, R230; 12 R343; 13 R380; 14 R394;
15 R420; 16 R440; 19 R492). -/
def Obligations.RefusedWrites : Prop :=
  ∀ (s : State) (who : Who) (n e w t : Nat), n < 16 →
    (who ≠ .islandA → ∀ c ∈ [Instr.unitReset who n w, .regionEntryWrite who n e w, .trigFsSeqWrite who n w, .echoCfgWrite who n w,
        .camCfgWrite who n w, .trkNextIdWrite who w, .attnCfgWrite who n true w, .attnCfgWrite who n false w, .flcOdoWrite who w,
        .guestFence who w, .step who w 0], exec c s = .next s.refuseAccess) ∧
    (who ≠ .islandA → who ≠ .islandB → ∀ c ∈ [Instr.fence who n, .unfence who n, .winCtlOpen who n e w, .winCtlClose who n e w, .winMaskWrite who n e w],
      exec c s = .next s.refuseAccess) ∧
    (flcWriter who = false → ∀ c ∈ [Instr.freeze who w t, .nonceRequest who w t, .sillageClear who w t, .sign who w t, .openSession who w t,
        .setK who w t, .reseal who w t, .fwUpdate who w t, .closeSession who w t, .block who w t, .nonce who w t, .unlock who w false t,
        .provision who w t, .attest who w t, .firmwareUpdate who w 0 t], exec c s = .next (s.at t).refuseAccess) ∧
    s.refuseAccess.mem = s.mem ∧ s.refuseAccess.cells = s.cells ∧ s.refuseAccess.jobs = s.jobs ∧ s.refuseAccess.units = s.units ∧
    s.refuseAccess.stores = s.stores ∧ s.refuseAccess.flc = s.flc ∧ (∀ a f, a ≠ SIL_STATUS → (f : FD).lo < 64 → s.refuseAccess.getF a f = s.getF a f)

/-- Frames of the commands whose results are said above by the fields they write (16 R427 to R429, R442; 17 R448, R453, R454;
18 R469, R471; 19 R497, R499, R505, R506). -/
def Obligations.FramesOfDeviceRows : Prop :=
  ∀ (s : State) (l d x y p t : Nat) (b : Bool) (bs : List Nat),
    (∃ u, exec (.ackReceive l d x t) s = .next u ∧ u = { s with now := max s.now t, links := u.links }) ∧
    ((l ≠ 10 ∨ d ≠ 0 ∨ s.getF GST_STATUS gtSTATE ≠ 3) → ∃ u, exec (.packetReceive l d bs b t) s = .next u ∧
      u = { s with now := max s.now t, links := u.links, regs := u.regs } ∧
      (s.lkState l ≠ 5 → u.regs = s.regs) ∧ ∀ a f, (f : FD).lo < 64 → a ≠ LNK_TEST l → u.getF a f = s.getF a f) ∧
    (∀ c ∈ [Instr.nakReceive l d x t, .replayTimeout l d t], ∃ u, exec c s = .next u ∧
      u = { s with now := max s.now t, links := u.links, regs := u.regs, sil := u.sil } ∧
      ∀ a f, (f : FD).lo < 64 → a ≠ LNK_RETRY l → a ≠ LNK_STAT l → a ≠ SIL_STATUS → u.getF a f = s.getF a f) ∧
    (∃ u, exec (.tck b (!b)) s = .next u ∧ u = { s with links := { s.links with tap := u.links.tap }, free := u.free }) ∧
    (∀ c ∈ [Instr.lock p x b b, .apSplit p x b], ∃ u, exec c s = .next u ∧ u = { s with regs := u.regs, ap := u.ap, imsic := u.imsic } ∧
      ∀ a f, (f : FD).lo < 64 → a ≠ AP_STAT p → u.getF a f = s.getF a f) ∧
    (∃ u, exec (.machineTimerCompare x t) s = .next u ∧ u = { s with now := max s.now t, ap := { s.ap with mtip := u.ap.mtip } }) ∧
    (∃ u, exec (.odometryFrame b bs t) s = .next u ∧ u = { s with now := max s.now t, odo := u.odo }) ∧
    (∃ u, exec (.odometryStale b t) s = .next u ∧ u = { s with now := max s.now t, odo := u.odo, regs := u.regs } ∧
      ∀ a f, (f : FD).lo < 64 → (a ≠ FLC_ODO ∨ f.lo ≠ foV.lo) → u.getF a f = s.getF a f) ∧
    (∀ c ∈ [Instr.gptpSync p x t, .syncLoss p t, .ethLinkChange p b x t, .qbvListInForce p t, .gateControlEntry p t],
      ∃ u, exec c s = .next u ∧ u = { s with now := max s.now t, regs := u.regs, ports := u.ports, aplic := u.aplic } ∧
        (∀ q, q ≠ p → u.port q = s.port q) ∧ ∀ a f, (f : FD).lo < 64 → (a < PORT p ∨ PORT p + 0x1000 ≤ a) → u.getF a f = s.getF a f) ∧
    (∃ u, exec (.powerLimiterSample x y t) s = .next u ∧ u = { s with now := max s.now t, regs := u.regs, pow := u.pow } ∧
      ∀ a f, (f : FD).lo < 64 → a ≠ PWR_STATUS → u.getF a f = s.getF a f) ∧
    (∃ u, exec (.voltageRamp t) s = .next u ∧ u = { s with now := max s.now t, regs := u.regs } ∧
      ∀ a f, (f : FD).lo < 64 → (a < PWR_MON 5 ∨ PWR_MON 23 ≤ a) → u.getF a f = s.getF a f)

/-- The reset values of the register tables (03 R78; 05 R129; 07 R188; 08 R235; 10 R269, R276; 12 R366; 18 R489; 19 R492, R499 to
R501, R506). -/
def Obligations.ResetValues : Prop :=
  (∀ u < 48, State.reset.getF (UNIT_CTRL u) ctrlSTALL = 2000) ∧
  (∀ u < 63, State.reset.getF (UNIT_PART u) upJIDX = 0xFF ∧ State.reset.getF (UNIT_PART u) upCLASS = 3) ∧
  (∀ u < 48, ∀ n < 16, State.reset.getF (winCtl u n) winLANES = 1) ∧ (∀ q < 16384, State.reset.getF (qCtl q) qJIDX = 0xFF) ∧
  State.reset.getF SAFE_STATUS safREASON = 0x40 ∧ State.reset.getF SAFE_STATUS safACTIVE = 1 ∧ State.reset.getF SAFE_STATUS safSAFE = 1 ∧
  State.reset.getF ISL_STATUS isEMITTER = 1 ∧ State.reset.getF CLK_STATUS ckMODE = 1 ∧ State.reset.getF CLK_STATUS ckDIV = 4 ∧
  State.reset.getF CLK_STATUS ckTHERM = 4 ∧ State.reset.getF CLK_STATUS ckPWR = 4 ∧ State.reset.getF PWR_STATUS pwCAP = 2200 ∧
  State.reset.getF PWR_FAULT pfSUPPLY = 0xFF ∧ State.reset.getF TRK_NEXT_ID tkNEXT = 1 ∧
  (∀ u ∈ [48, 49, 50, 51], State.reset.getF (ATTN_CFG u) acSPLIT = 4096 ∧ State.reset.getF (ATTN_CFG u) acLROWT = 6) ∧
  (∀ p < 6, State.reset.getF (QBV_CTL p) qvCYCLE = 1000000 ∧ State.reset.getF (QBV_CTL p) qvNGCL = 1 ∧
    (∀ k < 64, State.reset.getF (QCI_M p k) qmSDU = 9018 ∧ State.reset.getF (QCI_M p k) qmRING = 0xFF) ∧
    ∀ e < 256, State.reset.getF (QBV_GCL p e) gcGATES = 0xFF) ∧
  (∀ n < 16, State.reset.getF (CAM_CFG n) ccLANES = 3 ∧ State.reset.getF (CAM_CFG n) ccLMAP = 0xE4) ∧
  (∀ c < 2, State.reset.getF (CAN_CFG c) cnNBR = 2 ∧ State.reset.getF (CAN_CFG c) cnDBR = 1)
end

