-- ==== Sys2Proof/Laws/State.lean ====
section
/-! SUPPORT. The fields of the state after each of its plain updates: one lemma per field per update. -/

namespace Sys2Proof.Machine

@[simp] theorem State.setF_pending (s : State) (a : Nat) (f : FD) (v : Nat) : (s.setF a f v).pending = s.pending := rfl
@[simp] theorem State.setF_now (s : State) (a : Nat) (f : FD) (v : Nat) : (s.setF a f v).now = s.now := rfl
@[simp] theorem State.setF_free (s : State) (a : Nat) (f : FD) (v : Nat) : (s.setF a f v).free = s.free := rfl
@[simp] theorem State.setF_mem (s : State) (a : Nat) (f : FD) (v : Nat) : (s.setF a f v).mem = s.mem := rfl
@[simp] theorem State.setF_ecc (s : State) (a : Nat) (f : FD) (v : Nat) : (s.setF a f v).ecc = s.ecc := rfl
@[simp] theorem State.setF_lastFix (s : State) (a : Nat) (f : FD) (v : Nat) : (s.setF a f v).lastFix = s.lastFix := rfl
@[simp] theorem State.setF_cells (s : State) (a : Nat) (f : FD) (v : Nat) : (s.setF a f v).cells = s.cells := rfl
@[simp] theorem State.setF_barriers (s : State) (a : Nat) (f : FD) (v : Nat) : (s.setF a f v).barriers = s.barriers := rfl
@[simp] theorem State.setF_wins (s : State) (a : Nat) (f : FD) (v : Nat) : (s.setF a f v).wins = s.wins := rfl
@[simp] theorem State.setF_msgs (s : State) (a : Nat) (f : FD) (v : Nat) : (s.setF a f v).msgs = s.msgs := rfl
@[simp] theorem State.setF_rgnCur (s : State) (a : Nat) (f : FD) (v : Nat) : (s.setF a f v).rgnCur = s.rgnCur := rfl
@[simp] theorem State.setF_rgnOld (s : State) (a : Nat) (f : FD) (v : Nat) : (s.setF a f v).rgnOld = s.rgnOld := rfl
@[simp] theorem State.setF_chErrs (s : State) (a : Nat) (f : FD) (v : Nat) : (s.setF a f v).chErrs = s.chErrs := rfl
@[simp] theorem State.setF_edc (s : State) (a : Nat) (f : FD) (v : Nat) : (s.setF a f v).edc = s.edc := rfl
@[simp] theorem State.setF_portFence (s : State) (a : Nat) (f : FD) (v : Nat) : (s.setF a f v).portFence = s.portFence := rfl
@[simp] theorem State.setF_sil (s : State) (a : Nat) (f : FD) (v : Nat) : (s.setF a f v).sil = s.sil := rfl
@[simp] theorem State.setF_units (s : State) (a : Nat) (f : FD) (v : Nat) : (s.setF a f v).units = s.units := rfl
@[simp] theorem State.setF_qIsland (s : State) (a : Nat) (f : FD) (v : Nat) : (s.setF a f v).qIsland = s.qIsland := rfl
@[simp] theorem State.setF_jobs (s : State) (a : Nat) (f : FD) (v : Nat) : (s.setF a f v).jobs = s.jobs := rfl
@[simp] theorem State.setF_imsic (s : State) (a : Nat) (f : FD) (v : Nat) : (s.setF a f v).imsic = s.imsic := rfl
@[simp] theorem State.setF_aplic (s : State) (a : Nat) (f : FD) (v : Nat) : (s.setF a f v).aplic = s.aplic := rfl
@[simp] theorem State.setF_quar (s : State) (a : Nat) (f : FD) (v : Nat) : (s.setF a f v).quar = s.quar := rfl
@[simp] theorem State.setF_safe (s : State) (a : Nat) (f : FD) (v : Nat) : (s.setF a f v).safe = s.safe := rfl
@[simp] theorem State.setF_trig (s : State) (a : Nat) (f : FD) (v : Nat) : (s.setF a f v).trig = s.trig := rfl
@[simp] theorem State.setF_cams (s : State) (a : Nat) (f : FD) (v : Nat) : (s.setF a f v).cams = s.cams := rfl
@[simp] theorem State.setF_ports (s : State) (a : Nat) (f : FD) (v : Nat) : (s.setF a f v).ports = s.ports := rfl
@[simp] theorem State.setF_rxRings (s : State) (a : Nat) (f : FD) (v : Nat) : (s.setF a f v).rxRings = s.rxRings := rfl
@[simp] theorem State.setF_strms (s : State) (a : Nat) (f : FD) (v : Nat) : (s.setF a f v).strms = s.strms := rfl
@[simp] theorem State.setF_odo (s : State) (a : Nat) (f : FD) (v : Nat) : (s.setF a f v).odo = s.odo := rfl
@[simp] theorem State.setF_ap (s : State) (a : Nat) (f : FD) (v : Nat) : (s.setF a f v).ap = s.ap := rfl
@[simp] theorem State.setF_imgs (s : State) (a : Nat) (f : FD) (v : Nat) : (s.setF a f v).imgs = s.imgs := rfl
@[simp] theorem State.setF_ctx (s : State) (a : Nat) (f : FD) (v : Nat) : (s.setF a f v).ctx = s.ctx := rfl
@[simp] theorem State.setF_ctxRegs (s : State) (a : Nat) (f : FD) (v : Nat) : (s.setF a f v).ctxRegs = s.ctxRegs := rfl
@[simp] theorem State.setF_ctxCmds (s : State) (a : Nat) (f : FD) (v : Nat) : (s.setF a f v).ctxCmds = s.ctxCmds := rfl
@[simp] theorem State.setF_trkWait (s : State) (a : Nat) (f : FD) (v : Nat) : (s.setF a f v).trkWait = s.trkWait := rfl
@[simp] theorem State.setF_tracks (s : State) (a : Nat) (f : FD) (v : Nat) : (s.setF a f v).tracks = s.tracks := rfl
@[simp] theorem State.setF_nextIdRead (s : State) (a : Nat) (f : FD) (v : Nat) : (s.setF a f v).nextIdRead = s.nextIdRead := rfl
@[simp] theorem State.setF_cfg (s : State) (a : Nat) (f : FD) (v : Nat) : (s.setF a f v).cfg = s.cfg := rfl
@[simp] theorem State.setF_plan (s : State) (a : Nat) (f : FD) (v : Nat) : (s.setF a f v).plan = s.plan := rfl
@[simp] theorem State.setF_groups (s : State) (a : Nat) (f : FD) (v : Nat) : (s.setF a f v).groups = s.groups := rfl
@[simp] theorem State.setF_sup (s : State) (a : Nat) (f : FD) (v : Nat) : (s.setF a f v).sup = s.sup := rfl
@[simp] theorem State.setF_pow (s : State) (a : Nat) (f : FD) (v : Nat) : (s.setF a f v).pow = s.pow := rfl
@[simp] theorem State.setF_cal (s : State) (a : Nat) (f : FD) (v : Nat) : (s.setF a f v).cal = s.cal := rfl
@[simp] theorem State.setF_stores (s : State) (a : Nat) (f : FD) (v : Nat) : (s.setF a f v).stores = s.stores := rfl
@[simp] theorem State.setF_shut (s : State) (a : Nat) (f : FD) (v : Nat) : (s.setF a f v).shut = s.shut := rfl
@[simp] theorem State.setF_ident (s : State) (a : Nat) (f : FD) (v : Nat) : (s.setF a f v).ident = s.ident := rfl
@[simp] theorem State.setF_flc (s : State) (a : Nat) (f : FD) (v : Nat) : (s.setF a f v).flc = s.flc := rfl
@[simp] theorem State.setF_links (s : State) (a : Nat) (f : FD) (v : Nat) : (s.setF a f v).links = s.links := rfl
@[simp] theorem State.setF_loadedCfg (s : State) (a : Nat) (f : FD) (v : Nat) : (s.setF a f v).loadedCfg = s.loadedCfg := rfl
@[simp] theorem State.setF_loadedCal (s : State) (a : Nat) (f : FD) (v : Nat) : (s.setF a f v).loadedCal = s.loadedCal := rfl

@[simp] theorem State.at_pending (s : State) (t : Nat) : (s.at t).pending = s.pending := rfl
@[simp] theorem State.at_free (s : State) (t : Nat) : (s.at t).free = s.free := rfl
@[simp] theorem State.at_regs (s : State) (t : Nat) : (s.at t).regs = s.regs := rfl
@[simp] theorem State.at_mem (s : State) (t : Nat) : (s.at t).mem = s.mem := rfl
@[simp] theorem State.at_ecc (s : State) (t : Nat) : (s.at t).ecc = s.ecc := rfl
@[simp] theorem State.at_lastFix (s : State) (t : Nat) : (s.at t).lastFix = s.lastFix := rfl
@[simp] theorem State.at_cells (s : State) (t : Nat) : (s.at t).cells = s.cells := rfl
@[simp] theorem State.at_barriers (s : State) (t : Nat) : (s.at t).barriers = s.barriers := rfl
@[simp] theorem State.at_wins (s : State) (t : Nat) : (s.at t).wins = s.wins := rfl
@[simp] theorem State.at_msgs (s : State) (t : Nat) : (s.at t).msgs = s.msgs := rfl
@[simp] theorem State.at_rgnCur (s : State) (t : Nat) : (s.at t).rgnCur = s.rgnCur := rfl
@[simp] theorem State.at_rgnOld (s : State) (t : Nat) : (s.at t).rgnOld = s.rgnOld := rfl
@[simp] theorem State.at_chErrs (s : State) (t : Nat) : (s.at t).chErrs = s.chErrs := rfl
@[simp] theorem State.at_edc (s : State) (t : Nat) : (s.at t).edc = s.edc := rfl
@[simp] theorem State.at_portFence (s : State) (t : Nat) : (s.at t).portFence = s.portFence := rfl
@[simp] theorem State.at_sil (s : State) (t : Nat) : (s.at t).sil = s.sil := rfl
@[simp] theorem State.at_units (s : State) (t : Nat) : (s.at t).units = s.units := rfl
@[simp] theorem State.at_qIsland (s : State) (t : Nat) : (s.at t).qIsland = s.qIsland := rfl
@[simp] theorem State.at_jobs (s : State) (t : Nat) : (s.at t).jobs = s.jobs := rfl
@[simp] theorem State.at_imsic (s : State) (t : Nat) : (s.at t).imsic = s.imsic := rfl
@[simp] theorem State.at_aplic (s : State) (t : Nat) : (s.at t).aplic = s.aplic := rfl
@[simp] theorem State.at_quar (s : State) (t : Nat) : (s.at t).quar = s.quar := rfl
@[simp] theorem State.at_safe (s : State) (t : Nat) : (s.at t).safe = s.safe := rfl
@[simp] theorem State.at_trig (s : State) (t : Nat) : (s.at t).trig = s.trig := rfl
@[simp] theorem State.at_cams (s : State) (t : Nat) : (s.at t).cams = s.cams := rfl
@[simp] theorem State.at_ports (s : State) (t : Nat) : (s.at t).ports = s.ports := rfl
@[simp] theorem State.at_rxRings (s : State) (t : Nat) : (s.at t).rxRings = s.rxRings := rfl
@[simp] theorem State.at_strms (s : State) (t : Nat) : (s.at t).strms = s.strms := rfl
@[simp] theorem State.at_odo (s : State) (t : Nat) : (s.at t).odo = s.odo := rfl
@[simp] theorem State.at_ap (s : State) (t : Nat) : (s.at t).ap = s.ap := rfl
@[simp] theorem State.at_imgs (s : State) (t : Nat) : (s.at t).imgs = s.imgs := rfl
@[simp] theorem State.at_ctx (s : State) (t : Nat) : (s.at t).ctx = s.ctx := rfl
@[simp] theorem State.at_ctxRegs (s : State) (t : Nat) : (s.at t).ctxRegs = s.ctxRegs := rfl
@[simp] theorem State.at_ctxCmds (s : State) (t : Nat) : (s.at t).ctxCmds = s.ctxCmds := rfl
@[simp] theorem State.at_trkWait (s : State) (t : Nat) : (s.at t).trkWait = s.trkWait := rfl
@[simp] theorem State.at_tracks (s : State) (t : Nat) : (s.at t).tracks = s.tracks := rfl
@[simp] theorem State.at_nextIdRead (s : State) (t : Nat) : (s.at t).nextIdRead = s.nextIdRead := rfl
@[simp] theorem State.at_cfg (s : State) (t : Nat) : (s.at t).cfg = s.cfg := rfl
@[simp] theorem State.at_plan (s : State) (t : Nat) : (s.at t).plan = s.plan := rfl
@[simp] theorem State.at_groups (s : State) (t : Nat) : (s.at t).groups = s.groups := rfl
@[simp] theorem State.at_sup (s : State) (t : Nat) : (s.at t).sup = s.sup := rfl
@[simp] theorem State.at_pow (s : State) (t : Nat) : (s.at t).pow = s.pow := rfl
@[simp] theorem State.at_cal (s : State) (t : Nat) : (s.at t).cal = s.cal := rfl
@[simp] theorem State.at_stores (s : State) (t : Nat) : (s.at t).stores = s.stores := rfl
@[simp] theorem State.at_shut (s : State) (t : Nat) : (s.at t).shut = s.shut := rfl
@[simp] theorem State.at_ident (s : State) (t : Nat) : (s.at t).ident = s.ident := rfl
@[simp] theorem State.at_flc (s : State) (t : Nat) : (s.at t).flc = s.flc := rfl
@[simp] theorem State.at_links (s : State) (t : Nat) : (s.at t).links = s.links := rfl
@[simp] theorem State.at_loadedCfg (s : State) (t : Nat) : (s.at t).loadedCfg = s.loadedCfg := rfl
@[simp] theorem State.at_loadedCal (s : State) (t : Nat) : (s.at t).loadedCal = s.loadedCal := rfl

@[simp] theorem State.setByte_pending (s : State) (a : Nat) (b : Byte) : (s.setByte a b).pending = s.pending := rfl
@[simp] theorem State.setByte_now (s : State) (a : Nat) (b : Byte) : (s.setByte a b).now = s.now := rfl
@[simp] theorem State.setByte_free (s : State) (a : Nat) (b : Byte) : (s.setByte a b).free = s.free := rfl
@[simp] theorem State.setByte_regs (s : State) (a : Nat) (b : Byte) : (s.setByte a b).regs = s.regs := rfl
@[simp] theorem State.setByte_ecc (s : State) (a : Nat) (b : Byte) : (s.setByte a b).ecc = s.ecc := rfl
@[simp] theorem State.setByte_lastFix (s : State) (a : Nat) (b : Byte) : (s.setByte a b).lastFix = s.lastFix := rfl
@[simp] theorem State.setByte_cells (s : State) (a : Nat) (b : Byte) : (s.setByte a b).cells = s.cells := rfl
@[simp] theorem State.setByte_barriers (s : State) (a : Nat) (b : Byte) : (s.setByte a b).barriers = s.barriers := rfl
@[simp] theorem State.setByte_wins (s : State) (a : Nat) (b : Byte) : (s.setByte a b).wins = s.wins := rfl
@[simp] theorem State.setByte_msgs (s : State) (a : Nat) (b : Byte) : (s.setByte a b).msgs = s.msgs := rfl
@[simp] theorem State.setByte_rgnCur (s : State) (a : Nat) (b : Byte) : (s.setByte a b).rgnCur = s.rgnCur := rfl
@[simp] theorem State.setByte_rgnOld (s : State) (a : Nat) (b : Byte) : (s.setByte a b).rgnOld = s.rgnOld := rfl
@[simp] theorem State.setByte_chErrs (s : State) (a : Nat) (b : Byte) : (s.setByte a b).chErrs = s.chErrs := rfl
@[simp] theorem State.setByte_edc (s : State) (a : Nat) (b : Byte) : (s.setByte a b).edc = s.edc := rfl
@[simp] theorem State.setByte_portFence (s : State) (a : Nat) (b : Byte) : (s.setByte a b).portFence = s.portFence := rfl
@[simp] theorem State.setByte_sil (s : State) (a : Nat) (b : Byte) : (s.setByte a b).sil = s.sil := rfl
@[simp] theorem State.setByte_units (s : State) (a : Nat) (b : Byte) : (s.setByte a b).units = s.units := rfl
@[simp] theorem State.setByte_qIsland (s : State) (a : Nat) (b : Byte) : (s.setByte a b).qIsland = s.qIsland := rfl
@[simp] theorem State.setByte_jobs (s : State) (a : Nat) (b : Byte) : (s.setByte a b).jobs = s.jobs := rfl
@[simp] theorem State.setByte_imsic (s : State) (a : Nat) (b : Byte) : (s.setByte a b).imsic = s.imsic := rfl
@[simp] theorem State.setByte_aplic (s : State) (a : Nat) (b : Byte) : (s.setByte a b).aplic = s.aplic := rfl
@[simp] theorem State.setByte_quar (s : State) (a : Nat) (b : Byte) : (s.setByte a b).quar = s.quar := rfl
@[simp] theorem State.setByte_safe (s : State) (a : Nat) (b : Byte) : (s.setByte a b).safe = s.safe := rfl
@[simp] theorem State.setByte_trig (s : State) (a : Nat) (b : Byte) : (s.setByte a b).trig = s.trig := rfl
@[simp] theorem State.setByte_cams (s : State) (a : Nat) (b : Byte) : (s.setByte a b).cams = s.cams := rfl
@[simp] theorem State.setByte_ports (s : State) (a : Nat) (b : Byte) : (s.setByte a b).ports = s.ports := rfl
@[simp] theorem State.setByte_rxRings (s : State) (a : Nat) (b : Byte) : (s.setByte a b).rxRings = s.rxRings := rfl
@[simp] theorem State.setByte_strms (s : State) (a : Nat) (b : Byte) : (s.setByte a b).strms = s.strms := rfl
@[simp] theorem State.setByte_odo (s : State) (a : Nat) (b : Byte) : (s.setByte a b).odo = s.odo := rfl
@[simp] theorem State.setByte_ap (s : State) (a : Nat) (b : Byte) : (s.setByte a b).ap = s.ap := rfl
@[simp] theorem State.setByte_imgs (s : State) (a : Nat) (b : Byte) : (s.setByte a b).imgs = s.imgs := rfl
@[simp] theorem State.setByte_ctx (s : State) (a : Nat) (b : Byte) : (s.setByte a b).ctx = s.ctx := rfl
@[simp] theorem State.setByte_ctxRegs (s : State) (a : Nat) (b : Byte) : (s.setByte a b).ctxRegs = s.ctxRegs := rfl
@[simp] theorem State.setByte_ctxCmds (s : State) (a : Nat) (b : Byte) : (s.setByte a b).ctxCmds = s.ctxCmds := rfl
@[simp] theorem State.setByte_trkWait (s : State) (a : Nat) (b : Byte) : (s.setByte a b).trkWait = s.trkWait := rfl
@[simp] theorem State.setByte_tracks (s : State) (a : Nat) (b : Byte) : (s.setByte a b).tracks = s.tracks := rfl
@[simp] theorem State.setByte_nextIdRead (s : State) (a : Nat) (b : Byte) : (s.setByte a b).nextIdRead = s.nextIdRead := rfl
@[simp] theorem State.setByte_cfg (s : State) (a : Nat) (b : Byte) : (s.setByte a b).cfg = s.cfg := rfl
@[simp] theorem State.setByte_plan (s : State) (a : Nat) (b : Byte) : (s.setByte a b).plan = s.plan := rfl
@[simp] theorem State.setByte_groups (s : State) (a : Nat) (b : Byte) : (s.setByte a b).groups = s.groups := rfl
@[simp] theorem State.setByte_sup (s : State) (a : Nat) (b : Byte) : (s.setByte a b).sup = s.sup := rfl
@[simp] theorem State.setByte_pow (s : State) (a : Nat) (b : Byte) : (s.setByte a b).pow = s.pow := rfl
@[simp] theorem State.setByte_cal (s : State) (a : Nat) (b : Byte) : (s.setByte a b).cal = s.cal := rfl
@[simp] theorem State.setByte_stores (s : State) (a : Nat) (b : Byte) : (s.setByte a b).stores = s.stores := rfl
@[simp] theorem State.setByte_shut (s : State) (a : Nat) (b : Byte) : (s.setByte a b).shut = s.shut := rfl
@[simp] theorem State.setByte_ident (s : State) (a : Nat) (b : Byte) : (s.setByte a b).ident = s.ident := rfl
@[simp] theorem State.setByte_flc (s : State) (a : Nat) (b : Byte) : (s.setByte a b).flc = s.flc := rfl
@[simp] theorem State.setByte_links (s : State) (a : Nat) (b : Byte) : (s.setByte a b).links = s.links := rfl
@[simp] theorem State.setByte_loadedCfg (s : State) (a : Nat) (b : Byte) : (s.setByte a b).loadedCfg = s.loadedCfg := rfl
@[simp] theorem State.setByte_loadedCal (s : State) (a : Nat) (b : Byte) : (s.setByte a b).loadedCal = s.loadedCal := rfl

@[simp] theorem State.eccClear_pending (s : State) (a n : Nat) : (s.eccClear a n).pending = s.pending := rfl
@[simp] theorem State.eccClear_now (s : State) (a n : Nat) : (s.eccClear a n).now = s.now := rfl
@[simp] theorem State.eccClear_free (s : State) (a n : Nat) : (s.eccClear a n).free = s.free := rfl
@[simp] theorem State.eccClear_regs (s : State) (a n : Nat) : (s.eccClear a n).regs = s.regs := rfl
@[simp] theorem State.eccClear_mem (s : State) (a n : Nat) : (s.eccClear a n).mem = s.mem := rfl
@[simp] theorem State.eccClear_lastFix (s : State) (a n : Nat) : (s.eccClear a n).lastFix = s.lastFix := rfl
@[simp] theorem State.eccClear_cells (s : State) (a n : Nat) : (s.eccClear a n).cells = s.cells := rfl
@[simp] theorem State.eccClear_barriers (s : State) (a n : Nat) : (s.eccClear a n).barriers = s.barriers := rfl
@[simp] theorem State.eccClear_wins (s : State) (a n : Nat) : (s.eccClear a n).wins = s.wins := rfl
@[simp] theorem State.eccClear_msgs (s : State) (a n : Nat) : (s.eccClear a n).msgs = s.msgs := rfl
@[simp] theorem State.eccClear_rgnCur (s : State) (a n : Nat) : (s.eccClear a n).rgnCur = s.rgnCur := rfl
@[simp] theorem State.eccClear_rgnOld (s : State) (a n : Nat) : (s.eccClear a n).rgnOld = s.rgnOld := rfl
@[simp] theorem State.eccClear_chErrs (s : State) (a n : Nat) : (s.eccClear a n).chErrs = s.chErrs := rfl
@[simp] theorem State.eccClear_edc (s : State) (a n : Nat) : (s.eccClear a n).edc = s.edc := rfl
@[simp] theorem State.eccClear_portFence (s : State) (a n : Nat) : (s.eccClear a n).portFence = s.portFence := rfl
@[simp] theorem State.eccClear_sil (s : State) (a n : Nat) : (s.eccClear a n).sil = s.sil := rfl
@[simp] theorem State.eccClear_units (s : State) (a n : Nat) : (s.eccClear a n).units = s.units := rfl
@[simp] theorem State.eccClear_qIsland (s : State) (a n : Nat) : (s.eccClear a n).qIsland = s.qIsland := rfl
@[simp] theorem State.eccClear_jobs (s : State) (a n : Nat) : (s.eccClear a n).jobs = s.jobs := rfl
@[simp] theorem State.eccClear_imsic (s : State) (a n : Nat) : (s.eccClear a n).imsic = s.imsic := rfl
@[simp] theorem State.eccClear_aplic (s : State) (a n : Nat) : (s.eccClear a n).aplic = s.aplic := rfl
@[simp] theorem State.eccClear_quar (s : State) (a n : Nat) : (s.eccClear a n).quar = s.quar := rfl
@[simp] theorem State.eccClear_safe (s : State) (a n : Nat) : (s.eccClear a n).safe = s.safe := rfl
@[simp] theorem State.eccClear_trig (s : State) (a n : Nat) : (s.eccClear a n).trig = s.trig := rfl
@[simp] theorem State.eccClear_cams (s : State) (a n : Nat) : (s.eccClear a n).cams = s.cams := rfl
@[simp] theorem State.eccClear_ports (s : State) (a n : Nat) : (s.eccClear a n).ports = s.ports := rfl
@[simp] theorem State.eccClear_rxRings (s : State) (a n : Nat) : (s.eccClear a n).rxRings = s.rxRings := rfl
@[simp] theorem State.eccClear_strms (s : State) (a n : Nat) : (s.eccClear a n).strms = s.strms := rfl
@[simp] theorem State.eccClear_odo (s : State) (a n : Nat) : (s.eccClear a n).odo = s.odo := rfl
@[simp] theorem State.eccClear_ap (s : State) (a n : Nat) : (s.eccClear a n).ap = s.ap := rfl
@[simp] theorem State.eccClear_imgs (s : State) (a n : Nat) : (s.eccClear a n).imgs = s.imgs := rfl
@[simp] theorem State.eccClear_ctx (s : State) (a n : Nat) : (s.eccClear a n).ctx = s.ctx := rfl
@[simp] theorem State.eccClear_ctxRegs (s : State) (a n : Nat) : (s.eccClear a n).ctxRegs = s.ctxRegs := rfl
@[simp] theorem State.eccClear_ctxCmds (s : State) (a n : Nat) : (s.eccClear a n).ctxCmds = s.ctxCmds := rfl
@[simp] theorem State.eccClear_trkWait (s : State) (a n : Nat) : (s.eccClear a n).trkWait = s.trkWait := rfl
@[simp] theorem State.eccClear_tracks (s : State) (a n : Nat) : (s.eccClear a n).tracks = s.tracks := rfl
@[simp] theorem State.eccClear_nextIdRead (s : State) (a n : Nat) : (s.eccClear a n).nextIdRead = s.nextIdRead := rfl
@[simp] theorem State.eccClear_cfg (s : State) (a n : Nat) : (s.eccClear a n).cfg = s.cfg := rfl
@[simp] theorem State.eccClear_plan (s : State) (a n : Nat) : (s.eccClear a n).plan = s.plan := rfl
@[simp] theorem State.eccClear_groups (s : State) (a n : Nat) : (s.eccClear a n).groups = s.groups := rfl
@[simp] theorem State.eccClear_sup (s : State) (a n : Nat) : (s.eccClear a n).sup = s.sup := rfl
@[simp] theorem State.eccClear_pow (s : State) (a n : Nat) : (s.eccClear a n).pow = s.pow := rfl
@[simp] theorem State.eccClear_cal (s : State) (a n : Nat) : (s.eccClear a n).cal = s.cal := rfl
@[simp] theorem State.eccClear_stores (s : State) (a n : Nat) : (s.eccClear a n).stores = s.stores := rfl
@[simp] theorem State.eccClear_shut (s : State) (a n : Nat) : (s.eccClear a n).shut = s.shut := rfl
@[simp] theorem State.eccClear_ident (s : State) (a n : Nat) : (s.eccClear a n).ident = s.ident := rfl
@[simp] theorem State.eccClear_flc (s : State) (a n : Nat) : (s.eccClear a n).flc = s.flc := rfl
@[simp] theorem State.eccClear_links (s : State) (a n : Nat) : (s.eccClear a n).links = s.links := rfl
@[simp] theorem State.eccClear_loadedCfg (s : State) (a n : Nat) : (s.eccClear a n).loadedCfg = s.loadedCfg := rfl
@[simp] theorem State.eccClear_loadedCal (s : State) (a n : Nat) : (s.eccClear a n).loadedCal = s.loadedCal := rfl

@[simp] theorem State.setUnit_pending (s : State) (u : Nat) (x : UnitRt) : (s.setUnit u x).pending = s.pending := rfl
@[simp] theorem State.setUnit_now (s : State) (u : Nat) (x : UnitRt) : (s.setUnit u x).now = s.now := rfl
@[simp] theorem State.setUnit_free (s : State) (u : Nat) (x : UnitRt) : (s.setUnit u x).free = s.free := rfl
@[simp] theorem State.setUnit_regs (s : State) (u : Nat) (x : UnitRt) : (s.setUnit u x).regs = s.regs := rfl
@[simp] theorem State.setUnit_mem (s : State) (u : Nat) (x : UnitRt) : (s.setUnit u x).mem = s.mem := rfl
@[simp] theorem State.setUnit_ecc (s : State) (u : Nat) (x : UnitRt) : (s.setUnit u x).ecc = s.ecc := rfl
@[simp] theorem State.setUnit_lastFix (s : State) (u : Nat) (x : UnitRt) : (s.setUnit u x).lastFix = s.lastFix := rfl
@[simp] theorem State.setUnit_cells (s : State) (u : Nat) (x : UnitRt) : (s.setUnit u x).cells = s.cells := rfl
@[simp] theorem State.setUnit_barriers (s : State) (u : Nat) (x : UnitRt) : (s.setUnit u x).barriers = s.barriers := rfl
@[simp] theorem State.setUnit_wins (s : State) (u : Nat) (x : UnitRt) : (s.setUnit u x).wins = s.wins := rfl
@[simp] theorem State.setUnit_msgs (s : State) (u : Nat) (x : UnitRt) : (s.setUnit u x).msgs = s.msgs := rfl
@[simp] theorem State.setUnit_rgnCur (s : State) (u : Nat) (x : UnitRt) : (s.setUnit u x).rgnCur = s.rgnCur := rfl
@[simp] theorem State.setUnit_rgnOld (s : State) (u : Nat) (x : UnitRt) : (s.setUnit u x).rgnOld = s.rgnOld := rfl
@[simp] theorem State.setUnit_chErrs (s : State) (u : Nat) (x : UnitRt) : (s.setUnit u x).chErrs = s.chErrs := rfl
@[simp] theorem State.setUnit_edc (s : State) (u : Nat) (x : UnitRt) : (s.setUnit u x).edc = s.edc := rfl
@[simp] theorem State.setUnit_portFence (s : State) (u : Nat) (x : UnitRt) : (s.setUnit u x).portFence = s.portFence := rfl
@[simp] theorem State.setUnit_sil (s : State) (u : Nat) (x : UnitRt) : (s.setUnit u x).sil = s.sil := rfl
@[simp] theorem State.setUnit_qIsland (s : State) (u : Nat) (x : UnitRt) : (s.setUnit u x).qIsland = s.qIsland := rfl
@[simp] theorem State.setUnit_jobs (s : State) (u : Nat) (x : UnitRt) : (s.setUnit u x).jobs = s.jobs := rfl
@[simp] theorem State.setUnit_imsic (s : State) (u : Nat) (x : UnitRt) : (s.setUnit u x).imsic = s.imsic := rfl
@[simp] theorem State.setUnit_aplic (s : State) (u : Nat) (x : UnitRt) : (s.setUnit u x).aplic = s.aplic := rfl
@[simp] theorem State.setUnit_quar (s : State) (u : Nat) (x : UnitRt) : (s.setUnit u x).quar = s.quar := rfl
@[simp] theorem State.setUnit_safe (s : State) (u : Nat) (x : UnitRt) : (s.setUnit u x).safe = s.safe := rfl
@[simp] theorem State.setUnit_trig (s : State) (u : Nat) (x : UnitRt) : (s.setUnit u x).trig = s.trig := rfl
@[simp] theorem State.setUnit_cams (s : State) (u : Nat) (x : UnitRt) : (s.setUnit u x).cams = s.cams := rfl
@[simp] theorem State.setUnit_ports (s : State) (u : Nat) (x : UnitRt) : (s.setUnit u x).ports = s.ports := rfl
@[simp] theorem State.setUnit_rxRings (s : State) (u : Nat) (x : UnitRt) : (s.setUnit u x).rxRings = s.rxRings := rfl
@[simp] theorem State.setUnit_strms (s : State) (u : Nat) (x : UnitRt) : (s.setUnit u x).strms = s.strms := rfl
@[simp] theorem State.setUnit_odo (s : State) (u : Nat) (x : UnitRt) : (s.setUnit u x).odo = s.odo := rfl
@[simp] theorem State.setUnit_ap (s : State) (u : Nat) (x : UnitRt) : (s.setUnit u x).ap = s.ap := rfl
@[simp] theorem State.setUnit_imgs (s : State) (u : Nat) (x : UnitRt) : (s.setUnit u x).imgs = s.imgs := rfl
@[simp] theorem State.setUnit_ctx (s : State) (u : Nat) (x : UnitRt) : (s.setUnit u x).ctx = s.ctx := rfl
@[simp] theorem State.setUnit_ctxRegs (s : State) (u : Nat) (x : UnitRt) : (s.setUnit u x).ctxRegs = s.ctxRegs := rfl
@[simp] theorem State.setUnit_ctxCmds (s : State) (u : Nat) (x : UnitRt) : (s.setUnit u x).ctxCmds = s.ctxCmds := rfl
@[simp] theorem State.setUnit_trkWait (s : State) (u : Nat) (x : UnitRt) : (s.setUnit u x).trkWait = s.trkWait := rfl
@[simp] theorem State.setUnit_tracks (s : State) (u : Nat) (x : UnitRt) : (s.setUnit u x).tracks = s.tracks := rfl
@[simp] theorem State.setUnit_nextIdRead (s : State) (u : Nat) (x : UnitRt) : (s.setUnit u x).nextIdRead = s.nextIdRead := rfl
@[simp] theorem State.setUnit_cfg (s : State) (u : Nat) (x : UnitRt) : (s.setUnit u x).cfg = s.cfg := rfl
@[simp] theorem State.setUnit_plan (s : State) (u : Nat) (x : UnitRt) : (s.setUnit u x).plan = s.plan := rfl
@[simp] theorem State.setUnit_groups (s : State) (u : Nat) (x : UnitRt) : (s.setUnit u x).groups = s.groups := rfl
@[simp] theorem State.setUnit_sup (s : State) (u : Nat) (x : UnitRt) : (s.setUnit u x).sup = s.sup := rfl
@[simp] theorem State.setUnit_pow (s : State) (u : Nat) (x : UnitRt) : (s.setUnit u x).pow = s.pow := rfl
@[simp] theorem State.setUnit_cal (s : State) (u : Nat) (x : UnitRt) : (s.setUnit u x).cal = s.cal := rfl
@[simp] theorem State.setUnit_stores (s : State) (u : Nat) (x : UnitRt) : (s.setUnit u x).stores = s.stores := rfl
@[simp] theorem State.setUnit_shut (s : State) (u : Nat) (x : UnitRt) : (s.setUnit u x).shut = s.shut := rfl
@[simp] theorem State.setUnit_ident (s : State) (u : Nat) (x : UnitRt) : (s.setUnit u x).ident = s.ident := rfl
@[simp] theorem State.setUnit_flc (s : State) (u : Nat) (x : UnitRt) : (s.setUnit u x).flc = s.flc := rfl
@[simp] theorem State.setUnit_links (s : State) (u : Nat) (x : UnitRt) : (s.setUnit u x).links = s.links := rfl
@[simp] theorem State.setUnit_loadedCfg (s : State) (u : Nat) (x : UnitRt) : (s.setUnit u x).loadedCfg = s.loadedCfg := rfl
@[simp] theorem State.setUnit_loadedCal (s : State) (u : Nat) (x : UnitRt) : (s.setUnit u x).loadedCal = s.loadedCal := rfl

@[simp] theorem State.setCell_pending (s : State) (c : Nat) (x : Cell) : (s.setCell c x).pending = s.pending := rfl
@[simp] theorem State.setCell_now (s : State) (c : Nat) (x : Cell) : (s.setCell c x).now = s.now := rfl
@[simp] theorem State.setCell_free (s : State) (c : Nat) (x : Cell) : (s.setCell c x).free = s.free := rfl
@[simp] theorem State.setCell_regs (s : State) (c : Nat) (x : Cell) : (s.setCell c x).regs = s.regs := rfl
@[simp] theorem State.setCell_mem (s : State) (c : Nat) (x : Cell) : (s.setCell c x).mem = s.mem := rfl
@[simp] theorem State.setCell_ecc (s : State) (c : Nat) (x : Cell) : (s.setCell c x).ecc = s.ecc := rfl
@[simp] theorem State.setCell_lastFix (s : State) (c : Nat) (x : Cell) : (s.setCell c x).lastFix = s.lastFix := rfl
@[simp] theorem State.setCell_barriers (s : State) (c : Nat) (x : Cell) : (s.setCell c x).barriers = s.barriers := rfl
@[simp] theorem State.setCell_wins (s : State) (c : Nat) (x : Cell) : (s.setCell c x).wins = s.wins := rfl
@[simp] theorem State.setCell_msgs (s : State) (c : Nat) (x : Cell) : (s.setCell c x).msgs = s.msgs := rfl
@[simp] theorem State.setCell_rgnCur (s : State) (c : Nat) (x : Cell) : (s.setCell c x).rgnCur = s.rgnCur := rfl
@[simp] theorem State.setCell_rgnOld (s : State) (c : Nat) (x : Cell) : (s.setCell c x).rgnOld = s.rgnOld := rfl
@[simp] theorem State.setCell_chErrs (s : State) (c : Nat) (x : Cell) : (s.setCell c x).chErrs = s.chErrs := rfl
@[simp] theorem State.setCell_edc (s : State) (c : Nat) (x : Cell) : (s.setCell c x).edc = s.edc := rfl
@[simp] theorem State.setCell_portFence (s : State) (c : Nat) (x : Cell) : (s.setCell c x).portFence = s.portFence := rfl
@[simp] theorem State.setCell_sil (s : State) (c : Nat) (x : Cell) : (s.setCell c x).sil = s.sil := rfl
@[simp] theorem State.setCell_units (s : State) (c : Nat) (x : Cell) : (s.setCell c x).units = s.units := rfl
@[simp] theorem State.setCell_qIsland (s : State) (c : Nat) (x : Cell) : (s.setCell c x).qIsland = s.qIsland := rfl
@[simp] theorem State.setCell_jobs (s : State) (c : Nat) (x : Cell) : (s.setCell c x).jobs = s.jobs := rfl
@[simp] theorem State.setCell_imsic (s : State) (c : Nat) (x : Cell) : (s.setCell c x).imsic = s.imsic := rfl
@[simp] theorem State.setCell_aplic (s : State) (c : Nat) (x : Cell) : (s.setCell c x).aplic = s.aplic := rfl
@[simp] theorem State.setCell_quar (s : State) (c : Nat) (x : Cell) : (s.setCell c x).quar = s.quar := rfl
@[simp] theorem State.setCell_safe (s : State) (c : Nat) (x : Cell) : (s.setCell c x).safe = s.safe := rfl
@[simp] theorem State.setCell_trig (s : State) (c : Nat) (x : Cell) : (s.setCell c x).trig = s.trig := rfl
@[simp] theorem State.setCell_cams (s : State) (c : Nat) (x : Cell) : (s.setCell c x).cams = s.cams := rfl
@[simp] theorem State.setCell_ports (s : State) (c : Nat) (x : Cell) : (s.setCell c x).ports = s.ports := rfl
@[simp] theorem State.setCell_rxRings (s : State) (c : Nat) (x : Cell) : (s.setCell c x).rxRings = s.rxRings := rfl
@[simp] theorem State.setCell_strms (s : State) (c : Nat) (x : Cell) : (s.setCell c x).strms = s.strms := rfl
@[simp] theorem State.setCell_odo (s : State) (c : Nat) (x : Cell) : (s.setCell c x).odo = s.odo := rfl
@[simp] theorem State.setCell_ap (s : State) (c : Nat) (x : Cell) : (s.setCell c x).ap = s.ap := rfl
@[simp] theorem State.setCell_imgs (s : State) (c : Nat) (x : Cell) : (s.setCell c x).imgs = s.imgs := rfl
@[simp] theorem State.setCell_ctx (s : State) (c : Nat) (x : Cell) : (s.setCell c x).ctx = s.ctx := rfl
@[simp] theorem State.setCell_ctxRegs (s : State) (c : Nat) (x : Cell) : (s.setCell c x).ctxRegs = s.ctxRegs := rfl
@[simp] theorem State.setCell_ctxCmds (s : State) (c : Nat) (x : Cell) : (s.setCell c x).ctxCmds = s.ctxCmds := rfl
@[simp] theorem State.setCell_trkWait (s : State) (c : Nat) (x : Cell) : (s.setCell c x).trkWait = s.trkWait := rfl
@[simp] theorem State.setCell_tracks (s : State) (c : Nat) (x : Cell) : (s.setCell c x).tracks = s.tracks := rfl
@[simp] theorem State.setCell_nextIdRead (s : State) (c : Nat) (x : Cell) : (s.setCell c x).nextIdRead = s.nextIdRead := rfl
@[simp] theorem State.setCell_cfg (s : State) (c : Nat) (x : Cell) : (s.setCell c x).cfg = s.cfg := rfl
@[simp] theorem State.setCell_plan (s : State) (c : Nat) (x : Cell) : (s.setCell c x).plan = s.plan := rfl
@[simp] theorem State.setCell_groups (s : State) (c : Nat) (x : Cell) : (s.setCell c x).groups = s.groups := rfl
@[simp] theorem State.setCell_sup (s : State) (c : Nat) (x : Cell) : (s.setCell c x).sup = s.sup := rfl
@[simp] theorem State.setCell_pow (s : State) (c : Nat) (x : Cell) : (s.setCell c x).pow = s.pow := rfl
@[simp] theorem State.setCell_cal (s : State) (c : Nat) (x : Cell) : (s.setCell c x).cal = s.cal := rfl
@[simp] theorem State.setCell_stores (s : State) (c : Nat) (x : Cell) : (s.setCell c x).stores = s.stores := rfl
@[simp] theorem State.setCell_shut (s : State) (c : Nat) (x : Cell) : (s.setCell c x).shut = s.shut := rfl
@[simp] theorem State.setCell_ident (s : State) (c : Nat) (x : Cell) : (s.setCell c x).ident = s.ident := rfl
@[simp] theorem State.setCell_flc (s : State) (c : Nat) (x : Cell) : (s.setCell c x).flc = s.flc := rfl
@[simp] theorem State.setCell_links (s : State) (c : Nat) (x : Cell) : (s.setCell c x).links = s.links := rfl
@[simp] theorem State.setCell_loadedCfg (s : State) (c : Nat) (x : Cell) : (s.setCell c x).loadedCfg = s.loadedCfg := rfl
@[simp] theorem State.setCell_loadedCal (s : State) (c : Nat) (x : Cell) : (s.setCell c x).loadedCal = s.loadedCal := rfl

@[simp] theorem State.setBarrier_pending (s : State) (b : Nat) (x : Barrier) : (s.setBarrier b x).pending = s.pending := rfl
@[simp] theorem State.setBarrier_now (s : State) (b : Nat) (x : Barrier) : (s.setBarrier b x).now = s.now := rfl
@[simp] theorem State.setBarrier_free (s : State) (b : Nat) (x : Barrier) : (s.setBarrier b x).free = s.free := rfl
@[simp] theorem State.setBarrier_regs (s : State) (b : Nat) (x : Barrier) : (s.setBarrier b x).regs = s.regs := rfl
@[simp] theorem State.setBarrier_mem (s : State) (b : Nat) (x : Barrier) : (s.setBarrier b x).mem = s.mem := rfl
@[simp] theorem State.setBarrier_ecc (s : State) (b : Nat) (x : Barrier) : (s.setBarrier b x).ecc = s.ecc := rfl
@[simp] theorem State.setBarrier_lastFix (s : State) (b : Nat) (x : Barrier) : (s.setBarrier b x).lastFix = s.lastFix := rfl
@[simp] theorem State.setBarrier_cells (s : State) (b : Nat) (x : Barrier) : (s.setBarrier b x).cells = s.cells := rfl
@[simp] theorem State.setBarrier_wins (s : State) (b : Nat) (x : Barrier) : (s.setBarrier b x).wins = s.wins := rfl
@[simp] theorem State.setBarrier_msgs (s : State) (b : Nat) (x : Barrier) : (s.setBarrier b x).msgs = s.msgs := rfl
@[simp] theorem State.setBarrier_rgnCur (s : State) (b : Nat) (x : Barrier) : (s.setBarrier b x).rgnCur = s.rgnCur := rfl
@[simp] theorem State.setBarrier_rgnOld (s : State) (b : Nat) (x : Barrier) : (s.setBarrier b x).rgnOld = s.rgnOld := rfl
@[simp] theorem State.setBarrier_chErrs (s : State) (b : Nat) (x : Barrier) : (s.setBarrier b x).chErrs = s.chErrs := rfl
@[simp] theorem State.setBarrier_edc (s : State) (b : Nat) (x : Barrier) : (s.setBarrier b x).edc = s.edc := rfl
@[simp] theorem State.setBarrier_portFence (s : State) (b : Nat) (x : Barrier) : (s.setBarrier b x).portFence = s.portFence := rfl
@[simp] theorem State.setBarrier_sil (s : State) (b : Nat) (x : Barrier) : (s.setBarrier b x).sil = s.sil := rfl
@[simp] theorem State.setBarrier_units (s : State) (b : Nat) (x : Barrier) : (s.setBarrier b x).units = s.units := rfl
@[simp] theorem State.setBarrier_qIsland (s : State) (b : Nat) (x : Barrier) : (s.setBarrier b x).qIsland = s.qIsland := rfl
@[simp] theorem State.setBarrier_jobs (s : State) (b : Nat) (x : Barrier) : (s.setBarrier b x).jobs = s.jobs := rfl
@[simp] theorem State.setBarrier_imsic (s : State) (b : Nat) (x : Barrier) : (s.setBarrier b x).imsic = s.imsic := rfl
@[simp] theorem State.setBarrier_aplic (s : State) (b : Nat) (x : Barrier) : (s.setBarrier b x).aplic = s.aplic := rfl
@[simp] theorem State.setBarrier_quar (s : State) (b : Nat) (x : Barrier) : (s.setBarrier b x).quar = s.quar := rfl
@[simp] theorem State.setBarrier_safe (s : State) (b : Nat) (x : Barrier) : (s.setBarrier b x).safe = s.safe := rfl
@[simp] theorem State.setBarrier_trig (s : State) (b : Nat) (x : Barrier) : (s.setBarrier b x).trig = s.trig := rfl
@[simp] theorem State.setBarrier_cams (s : State) (b : Nat) (x : Barrier) : (s.setBarrier b x).cams = s.cams := rfl
@[simp] theorem State.setBarrier_ports (s : State) (b : Nat) (x : Barrier) : (s.setBarrier b x).ports = s.ports := rfl
@[simp] theorem State.setBarrier_rxRings (s : State) (b : Nat) (x : Barrier) : (s.setBarrier b x).rxRings = s.rxRings := rfl
@[simp] theorem State.setBarrier_strms (s : State) (b : Nat) (x : Barrier) : (s.setBarrier b x).strms = s.strms := rfl
@[simp] theorem State.setBarrier_odo (s : State) (b : Nat) (x : Barrier) : (s.setBarrier b x).odo = s.odo := rfl
@[simp] theorem State.setBarrier_ap (s : State) (b : Nat) (x : Barrier) : (s.setBarrier b x).ap = s.ap := rfl
@[simp] theorem State.setBarrier_imgs (s : State) (b : Nat) (x : Barrier) : (s.setBarrier b x).imgs = s.imgs := rfl
@[simp] theorem State.setBarrier_ctx (s : State) (b : Nat) (x : Barrier) : (s.setBarrier b x).ctx = s.ctx := rfl
@[simp] theorem State.setBarrier_ctxRegs (s : State) (b : Nat) (x : Barrier) : (s.setBarrier b x).ctxRegs = s.ctxRegs := rfl
@[simp] theorem State.setBarrier_ctxCmds (s : State) (b : Nat) (x : Barrier) : (s.setBarrier b x).ctxCmds = s.ctxCmds := rfl
@[simp] theorem State.setBarrier_trkWait (s : State) (b : Nat) (x : Barrier) : (s.setBarrier b x).trkWait = s.trkWait := rfl
@[simp] theorem State.setBarrier_tracks (s : State) (b : Nat) (x : Barrier) : (s.setBarrier b x).tracks = s.tracks := rfl
@[simp] theorem State.setBarrier_nextIdRead (s : State) (b : Nat) (x : Barrier) : (s.setBarrier b x).nextIdRead = s.nextIdRead := rfl
@[simp] theorem State.setBarrier_cfg (s : State) (b : Nat) (x : Barrier) : (s.setBarrier b x).cfg = s.cfg := rfl
@[simp] theorem State.setBarrier_plan (s : State) (b : Nat) (x : Barrier) : (s.setBarrier b x).plan = s.plan := rfl
@[simp] theorem State.setBarrier_groups (s : State) (b : Nat) (x : Barrier) : (s.setBarrier b x).groups = s.groups := rfl
@[simp] theorem State.setBarrier_sup (s : State) (b : Nat) (x : Barrier) : (s.setBarrier b x).sup = s.sup := rfl
@[simp] theorem State.setBarrier_pow (s : State) (b : Nat) (x : Barrier) : (s.setBarrier b x).pow = s.pow := rfl
@[simp] theorem State.setBarrier_cal (s : State) (b : Nat) (x : Barrier) : (s.setBarrier b x).cal = s.cal := rfl
@[simp] theorem State.setBarrier_stores (s : State) (b : Nat) (x : Barrier) : (s.setBarrier b x).stores = s.stores := rfl
@[simp] theorem State.setBarrier_shut (s : State) (b : Nat) (x : Barrier) : (s.setBarrier b x).shut = s.shut := rfl
@[simp] theorem State.setBarrier_ident (s : State) (b : Nat) (x : Barrier) : (s.setBarrier b x).ident = s.ident := rfl
@[simp] theorem State.setBarrier_flc (s : State) (b : Nat) (x : Barrier) : (s.setBarrier b x).flc = s.flc := rfl
@[simp] theorem State.setBarrier_links (s : State) (b : Nat) (x : Barrier) : (s.setBarrier b x).links = s.links := rfl
@[simp] theorem State.setBarrier_loadedCfg (s : State) (b : Nat) (x : Barrier) : (s.setBarrier b x).loadedCfg = s.loadedCfg := rfl
@[simp] theorem State.setBarrier_loadedCal (s : State) (b : Nat) (x : Barrier) : (s.setBarrier b x).loadedCal = s.loadedCal := rfl

@[simp] theorem State.setJob_pending (s : State) (j : Nat) (x : Job) : (s.setJob j x).pending = s.pending := rfl
@[simp] theorem State.setJob_now (s : State) (j : Nat) (x : Job) : (s.setJob j x).now = s.now := rfl
@[simp] theorem State.setJob_free (s : State) (j : Nat) (x : Job) : (s.setJob j x).free = s.free := rfl
@[simp] theorem State.setJob_regs (s : State) (j : Nat) (x : Job) : (s.setJob j x).regs = s.regs := rfl
@[simp] theorem State.setJob_mem (s : State) (j : Nat) (x : Job) : (s.setJob j x).mem = s.mem := rfl
@[simp] theorem State.setJob_ecc (s : State) (j : Nat) (x : Job) : (s.setJob j x).ecc = s.ecc := rfl
@[simp] theorem State.setJob_lastFix (s : State) (j : Nat) (x : Job) : (s.setJob j x).lastFix = s.lastFix := rfl
@[simp] theorem State.setJob_cells (s : State) (j : Nat) (x : Job) : (s.setJob j x).cells = s.cells := rfl
@[simp] theorem State.setJob_barriers (s : State) (j : Nat) (x : Job) : (s.setJob j x).barriers = s.barriers := rfl
@[simp] theorem State.setJob_wins (s : State) (j : Nat) (x : Job) : (s.setJob j x).wins = s.wins := rfl
@[simp] theorem State.setJob_msgs (s : State) (j : Nat) (x : Job) : (s.setJob j x).msgs = s.msgs := rfl
@[simp] theorem State.setJob_rgnCur (s : State) (j : Nat) (x : Job) : (s.setJob j x).rgnCur = s.rgnCur := rfl
@[simp] theorem State.setJob_rgnOld (s : State) (j : Nat) (x : Job) : (s.setJob j x).rgnOld = s.rgnOld := rfl
@[simp] theorem State.setJob_chErrs (s : State) (j : Nat) (x : Job) : (s.setJob j x).chErrs = s.chErrs := rfl
@[simp] theorem State.setJob_edc (s : State) (j : Nat) (x : Job) : (s.setJob j x).edc = s.edc := rfl
@[simp] theorem State.setJob_portFence (s : State) (j : Nat) (x : Job) : (s.setJob j x).portFence = s.portFence := rfl
@[simp] theorem State.setJob_sil (s : State) (j : Nat) (x : Job) : (s.setJob j x).sil = s.sil := rfl
@[simp] theorem State.setJob_units (s : State) (j : Nat) (x : Job) : (s.setJob j x).units = s.units := rfl
@[simp] theorem State.setJob_qIsland (s : State) (j : Nat) (x : Job) : (s.setJob j x).qIsland = s.qIsland := rfl
@[simp] theorem State.setJob_imsic (s : State) (j : Nat) (x : Job) : (s.setJob j x).imsic = s.imsic := rfl
@[simp] theorem State.setJob_aplic (s : State) (j : Nat) (x : Job) : (s.setJob j x).aplic = s.aplic := rfl
@[simp] theorem State.setJob_quar (s : State) (j : Nat) (x : Job) : (s.setJob j x).quar = s.quar := rfl
@[simp] theorem State.setJob_safe (s : State) (j : Nat) (x : Job) : (s.setJob j x).safe = s.safe := rfl
@[simp] theorem State.setJob_trig (s : State) (j : Nat) (x : Job) : (s.setJob j x).trig = s.trig := rfl
@[simp] theorem State.setJob_cams (s : State) (j : Nat) (x : Job) : (s.setJob j x).cams = s.cams := rfl
@[simp] theorem State.setJob_ports (s : State) (j : Nat) (x : Job) : (s.setJob j x).ports = s.ports := rfl
@[simp] theorem State.setJob_rxRings (s : State) (j : Nat) (x : Job) : (s.setJob j x).rxRings = s.rxRings := rfl
@[simp] theorem State.setJob_strms (s : State) (j : Nat) (x : Job) : (s.setJob j x).strms = s.strms := rfl
@[simp] theorem State.setJob_odo (s : State) (j : Nat) (x : Job) : (s.setJob j x).odo = s.odo := rfl
@[simp] theorem State.setJob_ap (s : State) (j : Nat) (x : Job) : (s.setJob j x).ap = s.ap := rfl
@[simp] theorem State.setJob_imgs (s : State) (j : Nat) (x : Job) : (s.setJob j x).imgs = s.imgs := rfl
@[simp] theorem State.setJob_ctx (s : State) (j : Nat) (x : Job) : (s.setJob j x).ctx = s.ctx := rfl
@[simp] theorem State.setJob_ctxRegs (s : State) (j : Nat) (x : Job) : (s.setJob j x).ctxRegs = s.ctxRegs := rfl
@[simp] theorem State.setJob_ctxCmds (s : State) (j : Nat) (x : Job) : (s.setJob j x).ctxCmds = s.ctxCmds := rfl
@[simp] theorem State.setJob_trkWait (s : State) (j : Nat) (x : Job) : (s.setJob j x).trkWait = s.trkWait := rfl
@[simp] theorem State.setJob_tracks (s : State) (j : Nat) (x : Job) : (s.setJob j x).tracks = s.tracks := rfl
@[simp] theorem State.setJob_nextIdRead (s : State) (j : Nat) (x : Job) : (s.setJob j x).nextIdRead = s.nextIdRead := rfl
@[simp] theorem State.setJob_cfg (s : State) (j : Nat) (x : Job) : (s.setJob j x).cfg = s.cfg := rfl
@[simp] theorem State.setJob_plan (s : State) (j : Nat) (x : Job) : (s.setJob j x).plan = s.plan := rfl
@[simp] theorem State.setJob_groups (s : State) (j : Nat) (x : Job) : (s.setJob j x).groups = s.groups := rfl
@[simp] theorem State.setJob_sup (s : State) (j : Nat) (x : Job) : (s.setJob j x).sup = s.sup := rfl
@[simp] theorem State.setJob_pow (s : State) (j : Nat) (x : Job) : (s.setJob j x).pow = s.pow := rfl
@[simp] theorem State.setJob_cal (s : State) (j : Nat) (x : Job) : (s.setJob j x).cal = s.cal := rfl
@[simp] theorem State.setJob_stores (s : State) (j : Nat) (x : Job) : (s.setJob j x).stores = s.stores := rfl
@[simp] theorem State.setJob_shut (s : State) (j : Nat) (x : Job) : (s.setJob j x).shut = s.shut := rfl
@[simp] theorem State.setJob_ident (s : State) (j : Nat) (x : Job) : (s.setJob j x).ident = s.ident := rfl
@[simp] theorem State.setJob_flc (s : State) (j : Nat) (x : Job) : (s.setJob j x).flc = s.flc := rfl
@[simp] theorem State.setJob_links (s : State) (j : Nat) (x : Job) : (s.setJob j x).links = s.links := rfl
@[simp] theorem State.setJob_loadedCfg (s : State) (j : Nat) (x : Job) : (s.setJob j x).loadedCfg = s.loadedCfg := rfl
@[simp] theorem State.setJob_loadedCal (s : State) (j : Nat) (x : Job) : (s.setJob j x).loadedCal = s.loadedCal := rfl

@[simp] theorem State.setWinHold_pending (s : State) (u n : Nat) (x : WinHold) : (s.setWinHold u n x).pending = s.pending := rfl
@[simp] theorem State.setWinHold_now (s : State) (u n : Nat) (x : WinHold) : (s.setWinHold u n x).now = s.now := rfl
@[simp] theorem State.setWinHold_free (s : State) (u n : Nat) (x : WinHold) : (s.setWinHold u n x).free = s.free := rfl
@[simp] theorem State.setWinHold_regs (s : State) (u n : Nat) (x : WinHold) : (s.setWinHold u n x).regs = s.regs := rfl
@[simp] theorem State.setWinHold_mem (s : State) (u n : Nat) (x : WinHold) : (s.setWinHold u n x).mem = s.mem := rfl
@[simp] theorem State.setWinHold_ecc (s : State) (u n : Nat) (x : WinHold) : (s.setWinHold u n x).ecc = s.ecc := rfl
@[simp] theorem State.setWinHold_lastFix (s : State) (u n : Nat) (x : WinHold) : (s.setWinHold u n x).lastFix = s.lastFix := rfl
@[simp] theorem State.setWinHold_cells (s : State) (u n : Nat) (x : WinHold) : (s.setWinHold u n x).cells = s.cells := rfl
@[simp] theorem State.setWinHold_barriers (s : State) (u n : Nat) (x : WinHold) : (s.setWinHold u n x).barriers = s.barriers := rfl
@[simp] theorem State.setWinHold_msgs (s : State) (u n : Nat) (x : WinHold) : (s.setWinHold u n x).msgs = s.msgs := rfl
@[simp] theorem State.setWinHold_rgnCur (s : State) (u n : Nat) (x : WinHold) : (s.setWinHold u n x).rgnCur = s.rgnCur := rfl
@[simp] theorem State.setWinHold_rgnOld (s : State) (u n : Nat) (x : WinHold) : (s.setWinHold u n x).rgnOld = s.rgnOld := rfl
@[simp] theorem State.setWinHold_chErrs (s : State) (u n : Nat) (x : WinHold) : (s.setWinHold u n x).chErrs = s.chErrs := rfl
@[simp] theorem State.setWinHold_edc (s : State) (u n : Nat) (x : WinHold) : (s.setWinHold u n x).edc = s.edc := rfl
@[simp] theorem State.setWinHold_portFence (s : State) (u n : Nat) (x : WinHold) : (s.setWinHold u n x).portFence = s.portFence := rfl
@[simp] theorem State.setWinHold_sil (s : State) (u n : Nat) (x : WinHold) : (s.setWinHold u n x).sil = s.sil := rfl
@[simp] theorem State.setWinHold_units (s : State) (u n : Nat) (x : WinHold) : (s.setWinHold u n x).units = s.units := rfl
@[simp] theorem State.setWinHold_qIsland (s : State) (u n : Nat) (x : WinHold) : (s.setWinHold u n x).qIsland = s.qIsland := rfl
@[simp] theorem State.setWinHold_jobs (s : State) (u n : Nat) (x : WinHold) : (s.setWinHold u n x).jobs = s.jobs := rfl
@[simp] theorem State.setWinHold_imsic (s : State) (u n : Nat) (x : WinHold) : (s.setWinHold u n x).imsic = s.imsic := rfl
@[simp] theorem State.setWinHold_aplic (s : State) (u n : Nat) (x : WinHold) : (s.setWinHold u n x).aplic = s.aplic := rfl
@[simp] theorem State.setWinHold_quar (s : State) (u n : Nat) (x : WinHold) : (s.setWinHold u n x).quar = s.quar := rfl
@[simp] theorem State.setWinHold_safe (s : State) (u n : Nat) (x : WinHold) : (s.setWinHold u n x).safe = s.safe := rfl
@[simp] theorem State.setWinHold_trig (s : State) (u n : Nat) (x : WinHold) : (s.setWinHold u n x).trig = s.trig := rfl
@[simp] theorem State.setWinHold_cams (s : State) (u n : Nat) (x : WinHold) : (s.setWinHold u n x).cams = s.cams := rfl
@[simp] theorem State.setWinHold_ports (s : State) (u n : Nat) (x : WinHold) : (s.setWinHold u n x).ports = s.ports := rfl
@[simp] theorem State.setWinHold_rxRings (s : State) (u n : Nat) (x : WinHold) : (s.setWinHold u n x).rxRings = s.rxRings := rfl
@[simp] theorem State.setWinHold_strms (s : State) (u n : Nat) (x : WinHold) : (s.setWinHold u n x).strms = s.strms := rfl
@[simp] theorem State.setWinHold_odo (s : State) (u n : Nat) (x : WinHold) : (s.setWinHold u n x).odo = s.odo := rfl
@[simp] theorem State.setWinHold_ap (s : State) (u n : Nat) (x : WinHold) : (s.setWinHold u n x).ap = s.ap := rfl
@[simp] theorem State.setWinHold_imgs (s : State) (u n : Nat) (x : WinHold) : (s.setWinHold u n x).imgs = s.imgs := rfl
@[simp] theorem State.setWinHold_ctx (s : State) (u n : Nat) (x : WinHold) : (s.setWinHold u n x).ctx = s.ctx := rfl
@[simp] theorem State.setWinHold_ctxRegs (s : State) (u n : Nat) (x : WinHold) : (s.setWinHold u n x).ctxRegs = s.ctxRegs := rfl
@[simp] theorem State.setWinHold_ctxCmds (s : State) (u n : Nat) (x : WinHold) : (s.setWinHold u n x).ctxCmds = s.ctxCmds := rfl
@[simp] theorem State.setWinHold_trkWait (s : State) (u n : Nat) (x : WinHold) : (s.setWinHold u n x).trkWait = s.trkWait := rfl
@[simp] theorem State.setWinHold_tracks (s : State) (u n : Nat) (x : WinHold) : (s.setWinHold u n x).tracks = s.tracks := rfl
@[simp] theorem State.setWinHold_nextIdRead (s : State) (u n : Nat) (x : WinHold) : (s.setWinHold u n x).nextIdRead = s.nextIdRead := rfl
@[simp] theorem State.setWinHold_cfg (s : State) (u n : Nat) (x : WinHold) : (s.setWinHold u n x).cfg = s.cfg := rfl
@[simp] theorem State.setWinHold_plan (s : State) (u n : Nat) (x : WinHold) : (s.setWinHold u n x).plan = s.plan := rfl
@[simp] theorem State.setWinHold_groups (s : State) (u n : Nat) (x : WinHold) : (s.setWinHold u n x).groups = s.groups := rfl
@[simp] theorem State.setWinHold_sup (s : State) (u n : Nat) (x : WinHold) : (s.setWinHold u n x).sup = s.sup := rfl
@[simp] theorem State.setWinHold_pow (s : State) (u n : Nat) (x : WinHold) : (s.setWinHold u n x).pow = s.pow := rfl
@[simp] theorem State.setWinHold_cal (s : State) (u n : Nat) (x : WinHold) : (s.setWinHold u n x).cal = s.cal := rfl
@[simp] theorem State.setWinHold_stores (s : State) (u n : Nat) (x : WinHold) : (s.setWinHold u n x).stores = s.stores := rfl
@[simp] theorem State.setWinHold_shut (s : State) (u n : Nat) (x : WinHold) : (s.setWinHold u n x).shut = s.shut := rfl
@[simp] theorem State.setWinHold_ident (s : State) (u n : Nat) (x : WinHold) : (s.setWinHold u n x).ident = s.ident := rfl
@[simp] theorem State.setWinHold_flc (s : State) (u n : Nat) (x : WinHold) : (s.setWinHold u n x).flc = s.flc := rfl
@[simp] theorem State.setWinHold_links (s : State) (u n : Nat) (x : WinHold) : (s.setWinHold u n x).links = s.links := rfl
@[simp] theorem State.setWinHold_loadedCfg (s : State) (u n : Nat) (x : WinHold) : (s.setWinHold u n x).loadedCfg = s.loadedCfg := rfl
@[simp] theorem State.setWinHold_loadedCal (s : State) (u n : Nat) (x : WinHold) : (s.setWinHold u n x).loadedCal = s.loadedCal := rfl

@[simp] theorem State.send_pending (s : State) (m : Msg) : (s.send m).pending = s.pending := rfl
@[simp] theorem State.send_now (s : State) (m : Msg) : (s.send m).now = s.now := rfl
@[simp] theorem State.send_free (s : State) (m : Msg) : (s.send m).free = s.free := rfl
@[simp] theorem State.send_regs (s : State) (m : Msg) : (s.send m).regs = s.regs := rfl
@[simp] theorem State.send_mem (s : State) (m : Msg) : (s.send m).mem = s.mem := rfl
@[simp] theorem State.send_ecc (s : State) (m : Msg) : (s.send m).ecc = s.ecc := rfl
@[simp] theorem State.send_lastFix (s : State) (m : Msg) : (s.send m).lastFix = s.lastFix := rfl
@[simp] theorem State.send_cells (s : State) (m : Msg) : (s.send m).cells = s.cells := rfl
@[simp] theorem State.send_barriers (s : State) (m : Msg) : (s.send m).barriers = s.barriers := rfl
@[simp] theorem State.send_wins (s : State) (m : Msg) : (s.send m).wins = s.wins := rfl
@[simp] theorem State.send_rgnCur (s : State) (m : Msg) : (s.send m).rgnCur = s.rgnCur := rfl
@[simp] theorem State.send_rgnOld (s : State) (m : Msg) : (s.send m).rgnOld = s.rgnOld := rfl
@[simp] theorem State.send_chErrs (s : State) (m : Msg) : (s.send m).chErrs = s.chErrs := rfl
@[simp] theorem State.send_edc (s : State) (m : Msg) : (s.send m).edc = s.edc := rfl
@[simp] theorem State.send_portFence (s : State) (m : Msg) : (s.send m).portFence = s.portFence := rfl
@[simp] theorem State.send_sil (s : State) (m : Msg) : (s.send m).sil = s.sil := rfl
@[simp] theorem State.send_units (s : State) (m : Msg) : (s.send m).units = s.units := rfl
@[simp] theorem State.send_qIsland (s : State) (m : Msg) : (s.send m).qIsland = s.qIsland := rfl
@[simp] theorem State.send_jobs (s : State) (m : Msg) : (s.send m).jobs = s.jobs := rfl
@[simp] theorem State.send_imsic (s : State) (m : Msg) : (s.send m).imsic = s.imsic := rfl
@[simp] theorem State.send_aplic (s : State) (m : Msg) : (s.send m).aplic = s.aplic := rfl
@[simp] theorem State.send_quar (s : State) (m : Msg) : (s.send m).quar = s.quar := rfl
@[simp] theorem State.send_safe (s : State) (m : Msg) : (s.send m).safe = s.safe := rfl
@[simp] theorem State.send_trig (s : State) (m : Msg) : (s.send m).trig = s.trig := rfl
@[simp] theorem State.send_cams (s : State) (m : Msg) : (s.send m).cams = s.cams := rfl
@[simp] theorem State.send_ports (s : State) (m : Msg) : (s.send m).ports = s.ports := rfl
@[simp] theorem State.send_rxRings (s : State) (m : Msg) : (s.send m).rxRings = s.rxRings := rfl
@[simp] theorem State.send_strms (s : State) (m : Msg) : (s.send m).strms = s.strms := rfl
@[simp] theorem State.send_odo (s : State) (m : Msg) : (s.send m).odo = s.odo := rfl
@[simp] theorem State.send_ap (s : State) (m : Msg) : (s.send m).ap = s.ap := rfl
@[simp] theorem State.send_imgs (s : State) (m : Msg) : (s.send m).imgs = s.imgs := rfl
@[simp] theorem State.send_ctx (s : State) (m : Msg) : (s.send m).ctx = s.ctx := rfl
@[simp] theorem State.send_ctxRegs (s : State) (m : Msg) : (s.send m).ctxRegs = s.ctxRegs := rfl
@[simp] theorem State.send_ctxCmds (s : State) (m : Msg) : (s.send m).ctxCmds = s.ctxCmds := rfl
@[simp] theorem State.send_trkWait (s : State) (m : Msg) : (s.send m).trkWait = s.trkWait := rfl
@[simp] theorem State.send_tracks (s : State) (m : Msg) : (s.send m).tracks = s.tracks := rfl
@[simp] theorem State.send_nextIdRead (s : State) (m : Msg) : (s.send m).nextIdRead = s.nextIdRead := rfl
@[simp] theorem State.send_cfg (s : State) (m : Msg) : (s.send m).cfg = s.cfg := rfl
@[simp] theorem State.send_plan (s : State) (m : Msg) : (s.send m).plan = s.plan := rfl
@[simp] theorem State.send_groups (s : State) (m : Msg) : (s.send m).groups = s.groups := rfl
@[simp] theorem State.send_sup (s : State) (m : Msg) : (s.send m).sup = s.sup := rfl
@[simp] theorem State.send_pow (s : State) (m : Msg) : (s.send m).pow = s.pow := rfl
@[simp] theorem State.send_cal (s : State) (m : Msg) : (s.send m).cal = s.cal := rfl
@[simp] theorem State.send_stores (s : State) (m : Msg) : (s.send m).stores = s.stores := rfl
@[simp] theorem State.send_shut (s : State) (m : Msg) : (s.send m).shut = s.shut := rfl
@[simp] theorem State.send_ident (s : State) (m : Msg) : (s.send m).ident = s.ident := rfl
@[simp] theorem State.send_flc (s : State) (m : Msg) : (s.send m).flc = s.flc := rfl
@[simp] theorem State.send_links (s : State) (m : Msg) : (s.send m).links = s.links := rfl
@[simp] theorem State.send_loadedCfg (s : State) (m : Msg) : (s.send m).loadedCfg = s.loadedCfg := rfl
@[simp] theorem State.send_loadedCal (s : State) (m : Msg) : (s.send m).loadedCal = s.loadedCal := rfl

@[simp] theorem State.dropMsg_pending (s : State) (n : Nat) : (s.dropMsg n).pending = s.pending := rfl
@[simp] theorem State.dropMsg_now (s : State) (n : Nat) : (s.dropMsg n).now = s.now := rfl
@[simp] theorem State.dropMsg_free (s : State) (n : Nat) : (s.dropMsg n).free = s.free := rfl
@[simp] theorem State.dropMsg_regs (s : State) (n : Nat) : (s.dropMsg n).regs = s.regs := rfl
@[simp] theorem State.dropMsg_mem (s : State) (n : Nat) : (s.dropMsg n).mem = s.mem := rfl
@[simp] theorem State.dropMsg_ecc (s : State) (n : Nat) : (s.dropMsg n).ecc = s.ecc := rfl
@[simp] theorem State.dropMsg_lastFix (s : State) (n : Nat) : (s.dropMsg n).lastFix = s.lastFix := rfl
@[simp] theorem State.dropMsg_cells (s : State) (n : Nat) : (s.dropMsg n).cells = s.cells := rfl
@[simp] theorem State.dropMsg_barriers (s : State) (n : Nat) : (s.dropMsg n).barriers = s.barriers := rfl
@[simp] theorem State.dropMsg_wins (s : State) (n : Nat) : (s.dropMsg n).wins = s.wins := rfl
@[simp] theorem State.dropMsg_rgnCur (s : State) (n : Nat) : (s.dropMsg n).rgnCur = s.rgnCur := rfl
@[simp] theorem State.dropMsg_rgnOld (s : State) (n : Nat) : (s.dropMsg n).rgnOld = s.rgnOld := rfl
@[simp] theorem State.dropMsg_chErrs (s : State) (n : Nat) : (s.dropMsg n).chErrs = s.chErrs := rfl
@[simp] theorem State.dropMsg_edc (s : State) (n : Nat) : (s.dropMsg n).edc = s.edc := rfl
@[simp] theorem State.dropMsg_portFence (s : State) (n : Nat) : (s.dropMsg n).portFence = s.portFence := rfl
@[simp] theorem State.dropMsg_sil (s : State) (n : Nat) : (s.dropMsg n).sil = s.sil := rfl
@[simp] theorem State.dropMsg_units (s : State) (n : Nat) : (s.dropMsg n).units = s.units := rfl
@[simp] theorem State.dropMsg_qIsland (s : State) (n : Nat) : (s.dropMsg n).qIsland = s.qIsland := rfl
@[simp] theorem State.dropMsg_jobs (s : State) (n : Nat) : (s.dropMsg n).jobs = s.jobs := rfl
@[simp] theorem State.dropMsg_imsic (s : State) (n : Nat) : (s.dropMsg n).imsic = s.imsic := rfl
@[simp] theorem State.dropMsg_aplic (s : State) (n : Nat) : (s.dropMsg n).aplic = s.aplic := rfl
@[simp] theorem State.dropMsg_quar (s : State) (n : Nat) : (s.dropMsg n).quar = s.quar := rfl
@[simp] theorem State.dropMsg_safe (s : State) (n : Nat) : (s.dropMsg n).safe = s.safe := rfl
@[simp] theorem State.dropMsg_trig (s : State) (n : Nat) : (s.dropMsg n).trig = s.trig := rfl
@[simp] theorem State.dropMsg_cams (s : State) (n : Nat) : (s.dropMsg n).cams = s.cams := rfl
@[simp] theorem State.dropMsg_ports (s : State) (n : Nat) : (s.dropMsg n).ports = s.ports := rfl
@[simp] theorem State.dropMsg_rxRings (s : State) (n : Nat) : (s.dropMsg n).rxRings = s.rxRings := rfl
@[simp] theorem State.dropMsg_strms (s : State) (n : Nat) : (s.dropMsg n).strms = s.strms := rfl
@[simp] theorem State.dropMsg_odo (s : State) (n : Nat) : (s.dropMsg n).odo = s.odo := rfl
@[simp] theorem State.dropMsg_ap (s : State) (n : Nat) : (s.dropMsg n).ap = s.ap := rfl
@[simp] theorem State.dropMsg_imgs (s : State) (n : Nat) : (s.dropMsg n).imgs = s.imgs := rfl
@[simp] theorem State.dropMsg_ctx (s : State) (n : Nat) : (s.dropMsg n).ctx = s.ctx := rfl
@[simp] theorem State.dropMsg_ctxRegs (s : State) (n : Nat) : (s.dropMsg n).ctxRegs = s.ctxRegs := rfl
@[simp] theorem State.dropMsg_ctxCmds (s : State) (n : Nat) : (s.dropMsg n).ctxCmds = s.ctxCmds := rfl
@[simp] theorem State.dropMsg_trkWait (s : State) (n : Nat) : (s.dropMsg n).trkWait = s.trkWait := rfl
@[simp] theorem State.dropMsg_tracks (s : State) (n : Nat) : (s.dropMsg n).tracks = s.tracks := rfl
@[simp] theorem State.dropMsg_nextIdRead (s : State) (n : Nat) : (s.dropMsg n).nextIdRead = s.nextIdRead := rfl
@[simp] theorem State.dropMsg_cfg (s : State) (n : Nat) : (s.dropMsg n).cfg = s.cfg := rfl
@[simp] theorem State.dropMsg_plan (s : State) (n : Nat) : (s.dropMsg n).plan = s.plan := rfl
@[simp] theorem State.dropMsg_groups (s : State) (n : Nat) : (s.dropMsg n).groups = s.groups := rfl
@[simp] theorem State.dropMsg_sup (s : State) (n : Nat) : (s.dropMsg n).sup = s.sup := rfl
@[simp] theorem State.dropMsg_pow (s : State) (n : Nat) : (s.dropMsg n).pow = s.pow := rfl
@[simp] theorem State.dropMsg_cal (s : State) (n : Nat) : (s.dropMsg n).cal = s.cal := rfl
@[simp] theorem State.dropMsg_stores (s : State) (n : Nat) : (s.dropMsg n).stores = s.stores := rfl
@[simp] theorem State.dropMsg_shut (s : State) (n : Nat) : (s.dropMsg n).shut = s.shut := rfl
@[simp] theorem State.dropMsg_ident (s : State) (n : Nat) : (s.dropMsg n).ident = s.ident := rfl
@[simp] theorem State.dropMsg_flc (s : State) (n : Nat) : (s.dropMsg n).flc = s.flc := rfl
@[simp] theorem State.dropMsg_links (s : State) (n : Nat) : (s.dropMsg n).links = s.links := rfl
@[simp] theorem State.dropMsg_loadedCfg (s : State) (n : Nat) : (s.dropMsg n).loadedCfg = s.loadedCfg := rfl
@[simp] theorem State.dropMsg_loadedCal (s : State) (n : Nat) : (s.dropMsg n).loadedCal = s.loadedCal := rfl

@[simp] theorem State.sil1_pending (s : State) (h b : Nat) : (s.sil1 h b).pending = s.pending := by
  unfold State.sil1
  split
  · rfl
  · dsimp only
    split <;> rfl
@[simp] theorem State.sil1_now (s : State) (h b : Nat) : (s.sil1 h b).now = s.now := by
  unfold State.sil1
  split
  · rfl
  · dsimp only
    split <;> rfl
@[simp] theorem State.sil1_free (s : State) (h b : Nat) : (s.sil1 h b).free = s.free := by
  unfold State.sil1
  split
  · rfl
  · dsimp only
    split <;> rfl
@[simp] theorem State.sil1_mem (s : State) (h b : Nat) : (s.sil1 h b).mem = s.mem := by
  unfold State.sil1
  split
  · rfl
  · dsimp only
    split <;> rfl
@[simp] theorem State.sil1_ecc (s : State) (h b : Nat) : (s.sil1 h b).ecc = s.ecc := by
  unfold State.sil1
  split
  · rfl
  · dsimp only
    split <;> rfl
@[simp] theorem State.sil1_lastFix (s : State) (h b : Nat) : (s.sil1 h b).lastFix = s.lastFix := by
  unfold State.sil1
  split
  · rfl
  · dsimp only
    split <;> rfl
@[simp] theorem State.sil1_cells (s : State) (h b : Nat) : (s.sil1 h b).cells = s.cells := by
  unfold State.sil1
  split
  · rfl
  · dsimp only
    split <;> rfl
@[simp] theorem State.sil1_barriers (s : State) (h b : Nat) : (s.sil1 h b).barriers = s.barriers := by
  unfold State.sil1
  split
  · rfl
  · dsimp only
    split <;> rfl
@[simp] theorem State.sil1_wins (s : State) (h b : Nat) : (s.sil1 h b).wins = s.wins := by
  unfold State.sil1
  split
  · rfl
  · dsimp only
    split <;> rfl
@[simp] theorem State.sil1_msgs (s : State) (h b : Nat) : (s.sil1 h b).msgs = s.msgs := by
  unfold State.sil1
  split
  · rfl
  · dsimp only
    split <;> rfl
@[simp] theorem State.sil1_rgnCur (s : State) (h b : Nat) : (s.sil1 h b).rgnCur = s.rgnCur := by
  unfold State.sil1
  split
  · rfl
  · dsimp only
    split <;> rfl
@[simp] theorem State.sil1_rgnOld (s : State) (h b : Nat) : (s.sil1 h b).rgnOld = s.rgnOld := by
  unfold State.sil1
  split
  · rfl
  · dsimp only
    split <;> rfl
@[simp] theorem State.sil1_chErrs (s : State) (h b : Nat) : (s.sil1 h b).chErrs = s.chErrs := by
  unfold State.sil1
  split
  · rfl
  · dsimp only
    split <;> rfl
@[simp] theorem State.sil1_edc (s : State) (h b : Nat) : (s.sil1 h b).edc = s.edc := by
  unfold State.sil1
  split
  · rfl
  · dsimp only
    split <;> rfl
@[simp] theorem State.sil1_portFence (s : State) (h b : Nat) : (s.sil1 h b).portFence = s.portFence := by
  unfold State.sil1
  split
  · rfl
  · dsimp only
    split <;> rfl
@[simp] theorem State.sil1_units (s : State) (h b : Nat) : (s.sil1 h b).units = s.units := by
  unfold State.sil1
  split
  · rfl
  · dsimp only
    split <;> rfl
@[simp] theorem State.sil1_qIsland (s : State) (h b : Nat) : (s.sil1 h b).qIsland = s.qIsland := by
  unfold State.sil1
  split
  · rfl
  · dsimp only
    split <;> rfl
@[simp] theorem State.sil1_jobs (s : State) (h b : Nat) : (s.sil1 h b).jobs = s.jobs := by
  unfold State.sil1
  split
  · rfl
  · dsimp only
    split <;> rfl
@[simp] theorem State.sil1_imsic (s : State) (h b : Nat) : (s.sil1 h b).imsic = s.imsic := by
  unfold State.sil1
  split
  · rfl
  · dsimp only
    split <;> rfl
@[simp] theorem State.sil1_aplic (s : State) (h b : Nat) : (s.sil1 h b).aplic = s.aplic := by
  unfold State.sil1
  split
  · rfl
  · dsimp only
    split <;> rfl
@[simp] theorem State.sil1_quar (s : State) (h b : Nat) : (s.sil1 h b).quar = s.quar := by
  unfold State.sil1
  split
  · rfl
  · dsimp only
    split <;> rfl
@[simp] theorem State.sil1_safe (s : State) (h b : Nat) : (s.sil1 h b).safe = s.safe := by
  unfold State.sil1
  split
  · rfl
  · dsimp only
    split <;> rfl
@[simp] theorem State.sil1_trig (s : State) (h b : Nat) : (s.sil1 h b).trig = s.trig := by
  unfold State.sil1
  split
  · rfl
  · dsimp only
    split <;> rfl
@[simp] theorem State.sil1_cams (s : State) (h b : Nat) : (s.sil1 h b).cams = s.cams := by
  unfold State.sil1
  split
  · rfl
  · dsimp only
    split <;> rfl
@[simp] theorem State.sil1_ports (s : State) (h b : Nat) : (s.sil1 h b).ports = s.ports := by
  unfold State.sil1
  split
  · rfl
  · dsimp only
    split <;> rfl
@[simp] theorem State.sil1_rxRings (s : State) (h b : Nat) : (s.sil1 h b).rxRings = s.rxRings := by
  unfold State.sil1
  split
  · rfl
  · dsimp only
    split <;> rfl
@[simp] theorem State.sil1_strms (s : State) (h b : Nat) : (s.sil1 h b).strms = s.strms := by
  unfold State.sil1
  split
  · rfl
  · dsimp only
    split <;> rfl
@[simp] theorem State.sil1_odo (s : State) (h b : Nat) : (s.sil1 h b).odo = s.odo := by
  unfold State.sil1
  split
  · rfl
  · dsimp only
    split <;> rfl
@[simp] theorem State.sil1_ap (s : State) (h b : Nat) : (s.sil1 h b).ap = s.ap := by
  unfold State.sil1
  split
  · rfl
  · dsimp only
    split <;> rfl
@[simp] theorem State.sil1_imgs (s : State) (h b : Nat) : (s.sil1 h b).imgs = s.imgs := by
  unfold State.sil1
  split
  · rfl
  · dsimp only
    split <;> rfl
@[simp] theorem State.sil1_ctx (s : State) (h b : Nat) : (s.sil1 h b).ctx = s.ctx := by
  unfold State.sil1
  split
  · rfl
  · dsimp only
    split <;> rfl
@[simp] theorem State.sil1_ctxRegs (s : State) (h b : Nat) : (s.sil1 h b).ctxRegs = s.ctxRegs := by
  unfold State.sil1
  split
  · rfl
  · dsimp only
    split <;> rfl
@[simp] theorem State.sil1_ctxCmds (s : State) (h b : Nat) : (s.sil1 h b).ctxCmds = s.ctxCmds := by
  unfold State.sil1
  split
  · rfl
  · dsimp only
    split <;> rfl
@[simp] theorem State.sil1_trkWait (s : State) (h b : Nat) : (s.sil1 h b).trkWait = s.trkWait := by
  unfold State.sil1
  split
  · rfl
  · dsimp only
    split <;> rfl
@[simp] theorem State.sil1_tracks (s : State) (h b : Nat) : (s.sil1 h b).tracks = s.tracks := by
  unfold State.sil1
  split
  · rfl
  · dsimp only
    split <;> rfl
@[simp] theorem State.sil1_nextIdRead (s : State) (h b : Nat) : (s.sil1 h b).nextIdRead = s.nextIdRead := by
  unfold State.sil1
  split
  · rfl
  · dsimp only
    split <;> rfl
@[simp] theorem State.sil1_cfg (s : State) (h b : Nat) : (s.sil1 h b).cfg = s.cfg := by
  unfold State.sil1
  split
  · rfl
  · dsimp only
    split <;> rfl
@[simp] theorem State.sil1_plan (s : State) (h b : Nat) : (s.sil1 h b).plan = s.plan := by
  unfold State.sil1
  split
  · rfl
  · dsimp only
    split <;> rfl
@[simp] theorem State.sil1_groups (s : State) (h b : Nat) : (s.sil1 h b).groups = s.groups := by
  unfold State.sil1
  split
  · rfl
  · dsimp only
    split <;> rfl
@[simp] theorem State.sil1_sup (s : State) (h b : Nat) : (s.sil1 h b).sup = s.sup := by
  unfold State.sil1
  split
  · rfl
  · dsimp only
    split <;> rfl
@[simp] theorem State.sil1_pow (s : State) (h b : Nat) : (s.sil1 h b).pow = s.pow := by
  unfold State.sil1
  split
  · rfl
  · dsimp only
    split <;> rfl
@[simp] theorem State.sil1_cal (s : State) (h b : Nat) : (s.sil1 h b).cal = s.cal := by
  unfold State.sil1
  split
  · rfl
  · dsimp only
    split <;> rfl
@[simp] theorem State.sil1_stores (s : State) (h b : Nat) : (s.sil1 h b).stores = s.stores := by
  unfold State.sil1
  split
  · rfl
  · dsimp only
    split <;> rfl
@[simp] theorem State.sil1_shut (s : State) (h b : Nat) : (s.sil1 h b).shut = s.shut := by
  unfold State.sil1
  split
  · rfl
  · dsimp only
    split <;> rfl
@[simp] theorem State.sil1_ident (s : State) (h b : Nat) : (s.sil1 h b).ident = s.ident := by
  unfold State.sil1
  split
  · rfl
  · dsimp only
    split <;> rfl
@[simp] theorem State.sil1_flc (s : State) (h b : Nat) : (s.sil1 h b).flc = s.flc := by
  unfold State.sil1
  split
  · rfl
  · dsimp only
    split <;> rfl
@[simp] theorem State.sil1_links (s : State) (h b : Nat) : (s.sil1 h b).links = s.links := by
  unfold State.sil1
  split
  · rfl
  · dsimp only
    split <;> rfl
@[simp] theorem State.sil1_loadedCfg (s : State) (h b : Nat) : (s.sil1 h b).loadedCfg = s.loadedCfg := by
  unfold State.sil1
  split
  · rfl
  · dsimp only
    split <;> rfl
@[simp] theorem State.sil1_loadedCal (s : State) (h b : Nat) : (s.sil1 h b).loadedCal = s.loadedCal := by
  unfold State.sil1
  split
  · rfl
  · dsimp only
    split <;> rfl

@[simp] theorem State.event_pending (s : State) (b : Nat) : (s.event b).pending = s.pending := State.sil1_pending s 381 b
@[simp] theorem State.event_now (s : State) (b : Nat) : (s.event b).now = s.now := State.sil1_now s 381 b
@[simp] theorem State.event_free (s : State) (b : Nat) : (s.event b).free = s.free := State.sil1_free s 381 b
@[simp] theorem State.event_mem (s : State) (b : Nat) : (s.event b).mem = s.mem := State.sil1_mem s 381 b
@[simp] theorem State.event_ecc (s : State) (b : Nat) : (s.event b).ecc = s.ecc := State.sil1_ecc s 381 b
@[simp] theorem State.event_lastFix (s : State) (b : Nat) : (s.event b).lastFix = s.lastFix := State.sil1_lastFix s 381 b
@[simp] theorem State.event_cells (s : State) (b : Nat) : (s.event b).cells = s.cells := State.sil1_cells s 381 b
@[simp] theorem State.event_barriers (s : State) (b : Nat) : (s.event b).barriers = s.barriers := State.sil1_barriers s 381 b
@[simp] theorem State.event_wins (s : State) (b : Nat) : (s.event b).wins = s.wins := State.sil1_wins s 381 b
@[simp] theorem State.event_msgs (s : State) (b : Nat) : (s.event b).msgs = s.msgs := State.sil1_msgs s 381 b
@[simp] theorem State.event_rgnCur (s : State) (b : Nat) : (s.event b).rgnCur = s.rgnCur := State.sil1_rgnCur s 381 b
@[simp] theorem State.event_rgnOld (s : State) (b : Nat) : (s.event b).rgnOld = s.rgnOld := State.sil1_rgnOld s 381 b
@[simp] theorem State.event_chErrs (s : State) (b : Nat) : (s.event b).chErrs = s.chErrs := State.sil1_chErrs s 381 b
@[simp] theorem State.event_edc (s : State) (b : Nat) : (s.event b).edc = s.edc := State.sil1_edc s 381 b
@[simp] theorem State.event_portFence (s : State) (b : Nat) : (s.event b).portFence = s.portFence := State.sil1_portFence s 381 b
@[simp] theorem State.event_units (s : State) (b : Nat) : (s.event b).units = s.units := State.sil1_units s 381 b
@[simp] theorem State.event_qIsland (s : State) (b : Nat) : (s.event b).qIsland = s.qIsland := State.sil1_qIsland s 381 b
@[simp] theorem State.event_jobs (s : State) (b : Nat) : (s.event b).jobs = s.jobs := State.sil1_jobs s 381 b
@[simp] theorem State.event_imsic (s : State) (b : Nat) : (s.event b).imsic = s.imsic := State.sil1_imsic s 381 b
@[simp] theorem State.event_aplic (s : State) (b : Nat) : (s.event b).aplic = s.aplic := State.sil1_aplic s 381 b
@[simp] theorem State.event_quar (s : State) (b : Nat) : (s.event b).quar = s.quar := State.sil1_quar s 381 b
@[simp] theorem State.event_safe (s : State) (b : Nat) : (s.event b).safe = s.safe := State.sil1_safe s 381 b
@[simp] theorem State.event_trig (s : State) (b : Nat) : (s.event b).trig = s.trig := State.sil1_trig s 381 b
@[simp] theorem State.event_cams (s : State) (b : Nat) : (s.event b).cams = s.cams := State.sil1_cams s 381 b
@[simp] theorem State.event_ports (s : State) (b : Nat) : (s.event b).ports = s.ports := State.sil1_ports s 381 b
@[simp] theorem State.event_rxRings (s : State) (b : Nat) : (s.event b).rxRings = s.rxRings := State.sil1_rxRings s 381 b
@[simp] theorem State.event_strms (s : State) (b : Nat) : (s.event b).strms = s.strms := State.sil1_strms s 381 b
@[simp] theorem State.event_odo (s : State) (b : Nat) : (s.event b).odo = s.odo := State.sil1_odo s 381 b
@[simp] theorem State.event_ap (s : State) (b : Nat) : (s.event b).ap = s.ap := State.sil1_ap s 381 b
@[simp] theorem State.event_imgs (s : State) (b : Nat) : (s.event b).imgs = s.imgs := State.sil1_imgs s 381 b
@[simp] theorem State.event_ctx (s : State) (b : Nat) : (s.event b).ctx = s.ctx := State.sil1_ctx s 381 b
@[simp] theorem State.event_ctxRegs (s : State) (b : Nat) : (s.event b).ctxRegs = s.ctxRegs := State.sil1_ctxRegs s 381 b
@[simp] theorem State.event_ctxCmds (s : State) (b : Nat) : (s.event b).ctxCmds = s.ctxCmds := State.sil1_ctxCmds s 381 b
@[simp] theorem State.event_trkWait (s : State) (b : Nat) : (s.event b).trkWait = s.trkWait := State.sil1_trkWait s 381 b
@[simp] theorem State.event_tracks (s : State) (b : Nat) : (s.event b).tracks = s.tracks := State.sil1_tracks s 381 b
@[simp] theorem State.event_nextIdRead (s : State) (b : Nat) : (s.event b).nextIdRead = s.nextIdRead := State.sil1_nextIdRead s 381 b
@[simp] theorem State.event_cfg (s : State) (b : Nat) : (s.event b).cfg = s.cfg := State.sil1_cfg s 381 b
@[simp] theorem State.event_plan (s : State) (b : Nat) : (s.event b).plan = s.plan := State.sil1_plan s 381 b
@[simp] theorem State.event_groups (s : State) (b : Nat) : (s.event b).groups = s.groups := State.sil1_groups s 381 b
@[simp] theorem State.event_sup (s : State) (b : Nat) : (s.event b).sup = s.sup := State.sil1_sup s 381 b
@[simp] theorem State.event_pow (s : State) (b : Nat) : (s.event b).pow = s.pow := State.sil1_pow s 381 b
@[simp] theorem State.event_cal (s : State) (b : Nat) : (s.event b).cal = s.cal := State.sil1_cal s 381 b
@[simp] theorem State.event_stores (s : State) (b : Nat) : (s.event b).stores = s.stores := State.sil1_stores s 381 b
@[simp] theorem State.event_shut (s : State) (b : Nat) : (s.event b).shut = s.shut := State.sil1_shut s 381 b
@[simp] theorem State.event_ident (s : State) (b : Nat) : (s.event b).ident = s.ident := State.sil1_ident s 381 b
@[simp] theorem State.event_flc (s : State) (b : Nat) : (s.event b).flc = s.flc := State.sil1_flc s 381 b
@[simp] theorem State.event_links (s : State) (b : Nat) : (s.event b).links = s.links := State.sil1_links s 381 b
@[simp] theorem State.event_loadedCfg (s : State) (b : Nat) : (s.event b).loadedCfg = s.loadedCfg := State.sil1_loadedCfg s 381 b
@[simp] theorem State.event_loadedCal (s : State) (b : Nat) : (s.event b).loadedCal = s.loadedCal := State.sil1_loadedCal s 381 b

@[simp] theorem State.refuseAccess_pending (s : State)  : s.refuseAccess.pending = s.pending := State.event_pending s 0
@[simp] theorem State.refuseAccess_now (s : State)  : s.refuseAccess.now = s.now := State.event_now s 0
@[simp] theorem State.refuseAccess_free (s : State)  : s.refuseAccess.free = s.free := State.event_free s 0
@[simp] theorem State.refuseAccess_mem (s : State)  : s.refuseAccess.mem = s.mem := State.event_mem s 0
@[simp] theorem State.refuseAccess_ecc (s : State)  : s.refuseAccess.ecc = s.ecc := State.event_ecc s 0
@[simp] theorem State.refuseAccess_lastFix (s : State)  : s.refuseAccess.lastFix = s.lastFix := State.event_lastFix s 0
@[simp] theorem State.refuseAccess_cells (s : State)  : s.refuseAccess.cells = s.cells := State.event_cells s 0
@[simp] theorem State.refuseAccess_barriers (s : State)  : s.refuseAccess.barriers = s.barriers := State.event_barriers s 0
@[simp] theorem State.refuseAccess_wins (s : State)  : s.refuseAccess.wins = s.wins := State.event_wins s 0
@[simp] theorem State.refuseAccess_msgs (s : State)  : s.refuseAccess.msgs = s.msgs := State.event_msgs s 0
@[simp] theorem State.refuseAccess_rgnCur (s : State)  : s.refuseAccess.rgnCur = s.rgnCur := State.event_rgnCur s 0
@[simp] theorem State.refuseAccess_rgnOld (s : State)  : s.refuseAccess.rgnOld = s.rgnOld := State.event_rgnOld s 0
@[simp] theorem State.refuseAccess_chErrs (s : State)  : s.refuseAccess.chErrs = s.chErrs := State.event_chErrs s 0
@[simp] theorem State.refuseAccess_edc (s : State)  : s.refuseAccess.edc = s.edc := State.event_edc s 0
@[simp] theorem State.refuseAccess_portFence (s : State)  : s.refuseAccess.portFence = s.portFence := State.event_portFence s 0
@[simp] theorem State.refuseAccess_units (s : State)  : s.refuseAccess.units = s.units := State.event_units s 0
@[simp] theorem State.refuseAccess_qIsland (s : State)  : s.refuseAccess.qIsland = s.qIsland := State.event_qIsland s 0
@[simp] theorem State.refuseAccess_jobs (s : State)  : s.refuseAccess.jobs = s.jobs := State.event_jobs s 0
@[simp] theorem State.refuseAccess_imsic (s : State)  : s.refuseAccess.imsic = s.imsic := State.event_imsic s 0
@[simp] theorem State.refuseAccess_aplic (s : State)  : s.refuseAccess.aplic = s.aplic := State.event_aplic s 0
@[simp] theorem State.refuseAccess_quar (s : State)  : s.refuseAccess.quar = s.quar := State.event_quar s 0
@[simp] theorem State.refuseAccess_safe (s : State)  : s.refuseAccess.safe = s.safe := State.event_safe s 0
@[simp] theorem State.refuseAccess_trig (s : State)  : s.refuseAccess.trig = s.trig := State.event_trig s 0
@[simp] theorem State.refuseAccess_cams (s : State)  : s.refuseAccess.cams = s.cams := State.event_cams s 0
@[simp] theorem State.refuseAccess_ports (s : State)  : s.refuseAccess.ports = s.ports := State.event_ports s 0
@[simp] theorem State.refuseAccess_rxRings (s : State)  : s.refuseAccess.rxRings = s.rxRings := State.event_rxRings s 0
@[simp] theorem State.refuseAccess_strms (s : State)  : s.refuseAccess.strms = s.strms := State.event_strms s 0
@[simp] theorem State.refuseAccess_odo (s : State)  : s.refuseAccess.odo = s.odo := State.event_odo s 0
@[simp] theorem State.refuseAccess_ap (s : State)  : s.refuseAccess.ap = s.ap := State.event_ap s 0
@[simp] theorem State.refuseAccess_imgs (s : State)  : s.refuseAccess.imgs = s.imgs := State.event_imgs s 0
@[simp] theorem State.refuseAccess_ctx (s : State)  : s.refuseAccess.ctx = s.ctx := State.event_ctx s 0
@[simp] theorem State.refuseAccess_ctxRegs (s : State)  : s.refuseAccess.ctxRegs = s.ctxRegs := State.event_ctxRegs s 0
@[simp] theorem State.refuseAccess_ctxCmds (s : State)  : s.refuseAccess.ctxCmds = s.ctxCmds := State.event_ctxCmds s 0
@[simp] theorem State.refuseAccess_trkWait (s : State)  : s.refuseAccess.trkWait = s.trkWait := State.event_trkWait s 0
@[simp] theorem State.refuseAccess_tracks (s : State)  : s.refuseAccess.tracks = s.tracks := State.event_tracks s 0
@[simp] theorem State.refuseAccess_nextIdRead (s : State)  : s.refuseAccess.nextIdRead = s.nextIdRead := State.event_nextIdRead s 0
@[simp] theorem State.refuseAccess_cfg (s : State)  : s.refuseAccess.cfg = s.cfg := State.event_cfg s 0
@[simp] theorem State.refuseAccess_plan (s : State)  : s.refuseAccess.plan = s.plan := State.event_plan s 0
@[simp] theorem State.refuseAccess_groups (s : State)  : s.refuseAccess.groups = s.groups := State.event_groups s 0
@[simp] theorem State.refuseAccess_sup (s : State)  : s.refuseAccess.sup = s.sup := State.event_sup s 0
@[simp] theorem State.refuseAccess_pow (s : State)  : s.refuseAccess.pow = s.pow := State.event_pow s 0
@[simp] theorem State.refuseAccess_cal (s : State)  : s.refuseAccess.cal = s.cal := State.event_cal s 0
@[simp] theorem State.refuseAccess_stores (s : State)  : s.refuseAccess.stores = s.stores := State.event_stores s 0
@[simp] theorem State.refuseAccess_shut (s : State)  : s.refuseAccess.shut = s.shut := State.event_shut s 0
@[simp] theorem State.refuseAccess_ident (s : State)  : s.refuseAccess.ident = s.ident := State.event_ident s 0
@[simp] theorem State.refuseAccess_flc (s : State)  : s.refuseAccess.flc = s.flc := State.event_flc s 0
@[simp] theorem State.refuseAccess_links (s : State)  : s.refuseAccess.links = s.links := State.event_links s 0
@[simp] theorem State.refuseAccess_loadedCfg (s : State)  : s.refuseAccess.loadedCfg = s.loadedCfg := State.event_loadedCfg s 0
@[simp] theorem State.refuseAccess_loadedCal (s : State)  : s.refuseAccess.loadedCal = s.loadedCal := State.event_loadedCal s 0

@[simp] theorem State.progress_pending (s : State) (u n : Nat) : (s.progress u n).pending = s.pending := rfl
@[simp] theorem State.progress_now (s : State) (u n : Nat) : (s.progress u n).now = s.now := rfl
@[simp] theorem State.progress_free (s : State) (u n : Nat) : (s.progress u n).free = s.free := rfl
@[simp] theorem State.progress_mem (s : State) (u n : Nat) : (s.progress u n).mem = s.mem := rfl
@[simp] theorem State.progress_ecc (s : State) (u n : Nat) : (s.progress u n).ecc = s.ecc := rfl
@[simp] theorem State.progress_lastFix (s : State) (u n : Nat) : (s.progress u n).lastFix = s.lastFix := rfl
@[simp] theorem State.progress_cells (s : State) (u n : Nat) : (s.progress u n).cells = s.cells := rfl
@[simp] theorem State.progress_barriers (s : State) (u n : Nat) : (s.progress u n).barriers = s.barriers := rfl
@[simp] theorem State.progress_wins (s : State) (u n : Nat) : (s.progress u n).wins = s.wins := rfl
@[simp] theorem State.progress_msgs (s : State) (u n : Nat) : (s.progress u n).msgs = s.msgs := rfl
@[simp] theorem State.progress_rgnCur (s : State) (u n : Nat) : (s.progress u n).rgnCur = s.rgnCur := rfl
@[simp] theorem State.progress_rgnOld (s : State) (u n : Nat) : (s.progress u n).rgnOld = s.rgnOld := rfl
@[simp] theorem State.progress_chErrs (s : State) (u n : Nat) : (s.progress u n).chErrs = s.chErrs := rfl
@[simp] theorem State.progress_edc (s : State) (u n : Nat) : (s.progress u n).edc = s.edc := rfl
@[simp] theorem State.progress_portFence (s : State) (u n : Nat) : (s.progress u n).portFence = s.portFence := rfl
@[simp] theorem State.progress_units (s : State) (u n : Nat) : (s.progress u n).units = s.units := rfl
@[simp] theorem State.progress_qIsland (s : State) (u n : Nat) : (s.progress u n).qIsland = s.qIsland := rfl
@[simp] theorem State.progress_jobs (s : State) (u n : Nat) : (s.progress u n).jobs = s.jobs := rfl
@[simp] theorem State.progress_imsic (s : State) (u n : Nat) : (s.progress u n).imsic = s.imsic := rfl
@[simp] theorem State.progress_aplic (s : State) (u n : Nat) : (s.progress u n).aplic = s.aplic := rfl
@[simp] theorem State.progress_quar (s : State) (u n : Nat) : (s.progress u n).quar = s.quar := rfl
@[simp] theorem State.progress_safe (s : State) (u n : Nat) : (s.progress u n).safe = s.safe := rfl
@[simp] theorem State.progress_trig (s : State) (u n : Nat) : (s.progress u n).trig = s.trig := rfl
@[simp] theorem State.progress_cams (s : State) (u n : Nat) : (s.progress u n).cams = s.cams := rfl
@[simp] theorem State.progress_ports (s : State) (u n : Nat) : (s.progress u n).ports = s.ports := rfl
@[simp] theorem State.progress_rxRings (s : State) (u n : Nat) : (s.progress u n).rxRings = s.rxRings := rfl
@[simp] theorem State.progress_strms (s : State) (u n : Nat) : (s.progress u n).strms = s.strms := rfl
@[simp] theorem State.progress_odo (s : State) (u n : Nat) : (s.progress u n).odo = s.odo := rfl
@[simp] theorem State.progress_ap (s : State) (u n : Nat) : (s.progress u n).ap = s.ap := rfl
@[simp] theorem State.progress_imgs (s : State) (u n : Nat) : (s.progress u n).imgs = s.imgs := rfl
@[simp] theorem State.progress_ctx (s : State) (u n : Nat) : (s.progress u n).ctx = s.ctx := rfl
@[simp] theorem State.progress_ctxRegs (s : State) (u n : Nat) : (s.progress u n).ctxRegs = s.ctxRegs := rfl
@[simp] theorem State.progress_ctxCmds (s : State) (u n : Nat) : (s.progress u n).ctxCmds = s.ctxCmds := rfl
@[simp] theorem State.progress_trkWait (s : State) (u n : Nat) : (s.progress u n).trkWait = s.trkWait := rfl
@[simp] theorem State.progress_tracks (s : State) (u n : Nat) : (s.progress u n).tracks = s.tracks := rfl
@[simp] theorem State.progress_nextIdRead (s : State) (u n : Nat) : (s.progress u n).nextIdRead = s.nextIdRead := rfl
@[simp] theorem State.progress_cfg (s : State) (u n : Nat) : (s.progress u n).cfg = s.cfg := rfl
@[simp] theorem State.progress_plan (s : State) (u n : Nat) : (s.progress u n).plan = s.plan := rfl
@[simp] theorem State.progress_groups (s : State) (u n : Nat) : (s.progress u n).groups = s.groups := rfl
@[simp] theorem State.progress_sup (s : State) (u n : Nat) : (s.progress u n).sup = s.sup := rfl
@[simp] theorem State.progress_pow (s : State) (u n : Nat) : (s.progress u n).pow = s.pow := rfl
@[simp] theorem State.progress_cal (s : State) (u n : Nat) : (s.progress u n).cal = s.cal := rfl
@[simp] theorem State.progress_stores (s : State) (u n : Nat) : (s.progress u n).stores = s.stores := rfl
@[simp] theorem State.progress_shut (s : State) (u n : Nat) : (s.progress u n).shut = s.shut := rfl
@[simp] theorem State.progress_ident (s : State) (u n : Nat) : (s.progress u n).ident = s.ident := rfl
@[simp] theorem State.progress_flc (s : State) (u n : Nat) : (s.progress u n).flc = s.flc := rfl
@[simp] theorem State.progress_links (s : State) (u n : Nat) : (s.progress u n).links = s.links := rfl
@[simp] theorem State.progress_loadedCfg (s : State) (u n : Nat) : (s.progress u n).loadedCfg = s.loadedCfg := rfl
@[simp] theorem State.progress_loadedCal (s : State) (u n : Nat) : (s.progress u n).loadedCal = s.loadedCal := rfl

@[simp] theorem State.setUnitState_pending (s : State) (u v : Nat) : (s.setUnitState u v).pending = s.pending := rfl
@[simp] theorem State.setUnitState_now (s : State) (u v : Nat) : (s.setUnitState u v).now = s.now := rfl
@[simp] theorem State.setUnitState_free (s : State) (u v : Nat) : (s.setUnitState u v).free = s.free := rfl
@[simp] theorem State.setUnitState_mem (s : State) (u v : Nat) : (s.setUnitState u v).mem = s.mem := rfl
@[simp] theorem State.setUnitState_ecc (s : State) (u v : Nat) : (s.setUnitState u v).ecc = s.ecc := rfl
@[simp] theorem State.setUnitState_lastFix (s : State) (u v : Nat) : (s.setUnitState u v).lastFix = s.lastFix := rfl
@[simp] theorem State.setUnitState_cells (s : State) (u v : Nat) : (s.setUnitState u v).cells = s.cells := rfl
@[simp] theorem State.setUnitState_barriers (s : State) (u v : Nat) : (s.setUnitState u v).barriers = s.barriers := rfl
@[simp] theorem State.setUnitState_wins (s : State) (u v : Nat) : (s.setUnitState u v).wins = s.wins := rfl
@[simp] theorem State.setUnitState_msgs (s : State) (u v : Nat) : (s.setUnitState u v).msgs = s.msgs := rfl
@[simp] theorem State.setUnitState_rgnCur (s : State) (u v : Nat) : (s.setUnitState u v).rgnCur = s.rgnCur := rfl
@[simp] theorem State.setUnitState_rgnOld (s : State) (u v : Nat) : (s.setUnitState u v).rgnOld = s.rgnOld := rfl
@[simp] theorem State.setUnitState_chErrs (s : State) (u v : Nat) : (s.setUnitState u v).chErrs = s.chErrs := rfl
@[simp] theorem State.setUnitState_edc (s : State) (u v : Nat) : (s.setUnitState u v).edc = s.edc := rfl
@[simp] theorem State.setUnitState_portFence (s : State) (u v : Nat) : (s.setUnitState u v).portFence = s.portFence := rfl
@[simp] theorem State.setUnitState_units (s : State) (u v : Nat) : (s.setUnitState u v).units = s.units := rfl
@[simp] theorem State.setUnitState_qIsland (s : State) (u v : Nat) : (s.setUnitState u v).qIsland = s.qIsland := rfl
@[simp] theorem State.setUnitState_jobs (s : State) (u v : Nat) : (s.setUnitState u v).jobs = s.jobs := rfl
@[simp] theorem State.setUnitState_imsic (s : State) (u v : Nat) : (s.setUnitState u v).imsic = s.imsic := rfl
@[simp] theorem State.setUnitState_aplic (s : State) (u v : Nat) : (s.setUnitState u v).aplic = s.aplic := rfl
@[simp] theorem State.setUnitState_quar (s : State) (u v : Nat) : (s.setUnitState u v).quar = s.quar := rfl
@[simp] theorem State.setUnitState_safe (s : State) (u v : Nat) : (s.setUnitState u v).safe = s.safe := rfl
@[simp] theorem State.setUnitState_trig (s : State) (u v : Nat) : (s.setUnitState u v).trig = s.trig := rfl
@[simp] theorem State.setUnitState_cams (s : State) (u v : Nat) : (s.setUnitState u v).cams = s.cams := rfl
@[simp] theorem State.setUnitState_ports (s : State) (u v : Nat) : (s.setUnitState u v).ports = s.ports := rfl
@[simp] theorem State.setUnitState_rxRings (s : State) (u v : Nat) : (s.setUnitState u v).rxRings = s.rxRings := rfl
@[simp] theorem State.setUnitState_strms (s : State) (u v : Nat) : (s.setUnitState u v).strms = s.strms := rfl
@[simp] theorem State.setUnitState_odo (s : State) (u v : Nat) : (s.setUnitState u v).odo = s.odo := rfl
@[simp] theorem State.setUnitState_ap (s : State) (u v : Nat) : (s.setUnitState u v).ap = s.ap := rfl
@[simp] theorem State.setUnitState_imgs (s : State) (u v : Nat) : (s.setUnitState u v).imgs = s.imgs := rfl
@[simp] theorem State.setUnitState_ctx (s : State) (u v : Nat) : (s.setUnitState u v).ctx = s.ctx := rfl
@[simp] theorem State.setUnitState_ctxRegs (s : State) (u v : Nat) : (s.setUnitState u v).ctxRegs = s.ctxRegs := rfl
@[simp] theorem State.setUnitState_ctxCmds (s : State) (u v : Nat) : (s.setUnitState u v).ctxCmds = s.ctxCmds := rfl
@[simp] theorem State.setUnitState_trkWait (s : State) (u v : Nat) : (s.setUnitState u v).trkWait = s.trkWait := rfl
@[simp] theorem State.setUnitState_tracks (s : State) (u v : Nat) : (s.setUnitState u v).tracks = s.tracks := rfl
@[simp] theorem State.setUnitState_nextIdRead (s : State) (u v : Nat) : (s.setUnitState u v).nextIdRead = s.nextIdRead := rfl
@[simp] theorem State.setUnitState_cfg (s : State) (u v : Nat) : (s.setUnitState u v).cfg = s.cfg := rfl
@[simp] theorem State.setUnitState_plan (s : State) (u v : Nat) : (s.setUnitState u v).plan = s.plan := rfl
@[simp] theorem State.setUnitState_groups (s : State) (u v : Nat) : (s.setUnitState u v).groups = s.groups := rfl
@[simp] theorem State.setUnitState_sup (s : State) (u v : Nat) : (s.setUnitState u v).sup = s.sup := rfl
@[simp] theorem State.setUnitState_pow (s : State) (u v : Nat) : (s.setUnitState u v).pow = s.pow := rfl
@[simp] theorem State.setUnitState_cal (s : State) (u v : Nat) : (s.setUnitState u v).cal = s.cal := rfl
@[simp] theorem State.setUnitState_stores (s : State) (u v : Nat) : (s.setUnitState u v).stores = s.stores := rfl
@[simp] theorem State.setUnitState_shut (s : State) (u v : Nat) : (s.setUnitState u v).shut = s.shut := rfl
@[simp] theorem State.setUnitState_ident (s : State) (u v : Nat) : (s.setUnitState u v).ident = s.ident := rfl
@[simp] theorem State.setUnitState_flc (s : State) (u v : Nat) : (s.setUnitState u v).flc = s.flc := rfl
@[simp] theorem State.setUnitState_links (s : State) (u v : Nat) : (s.setUnitState u v).links = s.links := rfl
@[simp] theorem State.setUnitState_loadedCfg (s : State) (u v : Nat) : (s.setUnitState u v).loadedCfg = s.loadedCfg := rfl
@[simp] theorem State.setUnitState_loadedCal (s : State) (u v : Nat) : (s.setUnitState u v).loadedCal = s.loadedCal := rfl

@[simp] theorem State.setF_regs (s : State) (a : Nat) (f : FD) (v : Nat) :
    (s.setF a f v).regs = Tab.set f.reset s.regs (f.key a) (v % 2 ^ f.w) := rfl
@[simp] theorem State.at_now (s : State) (t : Nat) : (s.at t).now = max s.now t := rfl
@[simp] theorem State.setByte_mem (s : State) (a : Nat) (b : Byte) : (s.setByte a b).mem = Tab.set 0 s.mem a b := rfl
@[simp] theorem State.send_msgs (s : State) (m : Msg) : (s.send m).msgs = s.msgs ++ [m] := rfl

end Sys2Proof.Machine
end

