-- ==== Sys2Proof/Laws/Tab.lean ====
section
/-! SUPPORT. The laws of sparse tables: reading after writing, and that every operation keeps the canonical form. -/

namespace Sys2Proof.Machine

theorem Tab.find_insert_same {α : Type} {m : Tab α} {k : Nat} {v : α} : Tab.find (Tab.insert m k v) k = some v := by
  induction m with
  | nil => simp [Tab.insert, Tab.find]
  | cons p t ih =>
    obtain ⟨k', v'⟩ := p
    simp only [Tab.insert]
    split
    · simp [Tab.find]
    · split
      · simp [Tab.find]
      · simp only [Tab.find]
        rw [if_neg ‹¬ k' = k›]
        exact ih

theorem Tab.find_insert_ne {α : Type} {m : Tab α} {k j : Nat} {v : α} (h : k ≠ j) :
    Tab.find (Tab.insert m k v) j = Tab.find m j := by
  induction m with
  | nil => simp [Tab.insert, Tab.find, h]
  | cons p t ih =>
    obtain ⟨k', v'⟩ := p
    simp only [Tab.insert]
    split
    · simp [Tab.find, h]
    · split
      · rename_i e
        subst e
        simp [Tab.find, h]
      · simp only [Tab.find, ih]

theorem Tab.find_erase_same {α : Type} {m : Tab α} {k : Nat} : Tab.find (Tab.erase m k) k = none := by
  induction m with
  | nil => rfl
  | cons p t ih =>
    obtain ⟨k', v'⟩ := p
    simp only [Tab.erase]
    split
    · exact ih
    · simp only [Tab.find]
      rw [if_neg ‹¬ k' = k›]
      exact ih

theorem Tab.find_erase_ne {α : Type} {m : Tab α} {k j : Nat} (h : k ≠ j) : Tab.find (Tab.erase m k) j = Tab.find m j := by
  induction m with
  | nil => rfl
  | cons p t ih =>
    obtain ⟨k', v'⟩ := p
    simp only [Tab.erase]
    split
    · rename_i e
      subst e
      simp [Tab.find, h, ih]
    · simp only [Tab.find, ih]

@[simp] theorem Tab.get_set_same {α : Type} [DecidableEq α] {d : α} {m : Tab α} {k : Nat} {v : α} :
    Tab.get d (Tab.set d m k v) k = v := by
  unfold Tab.set
  split
  · simp [Tab.get, Tab.find_erase_same, *]
  · simp [Tab.get, Tab.find_insert_same]

/-- Another key reads as before, whatever default it is read with. -/
theorem Tab.get_set_ne {α : Type} [DecidableEq α] {d d' : α} {m : Tab α} {k j : Nat} {v : α} (h : k ≠ j) :
    Tab.get d' (Tab.set d m k v) j = Tab.get d' m j := by
  unfold Tab.set
  split
  · simp [Tab.get, Tab.find_erase_ne h]
  · simp [Tab.get, Tab.find_insert_ne h]

theorem Tab.above_erase {α : Type} {k j : Nat} {m : Tab α} (h : Tab.above k m = true) : Tab.above k (Tab.erase m j) = true := by
  induction m with
  | nil => rfl
  | cons p t ih =>
    obtain ⟨k', v⟩ := p
    simp only [Tab.above, Bool.and_eq_true] at h
    simp only [Tab.erase]
    split
    · exact ih h.2
    · simp only [Tab.above, Bool.and_eq_true]; exact ⟨h.1, ih h.2⟩

theorem Tab.above_mono {α : Type} {k j : Nat} (hk : j ≤ k) {m : Tab α} (h : Tab.above k m = true) : Tab.above j m = true := by
  induction m with
  | nil => rfl
  | cons p t ih =>
    obtain ⟨k', v⟩ := p
    simp only [Tab.above, Bool.and_eq_true, decide_eq_true_eq] at h ⊢
    exact ⟨by omega, ih h.2⟩

theorem Tab.above_insert {α : Type} {k j : Nat} {v : α} (hk : k < j) {m : Tab α} (h : Tab.above k m = true) :
    Tab.above k (Tab.insert m j v) = true := by
  induction m with
  | nil => simp [Tab.insert, Tab.above, hk]
  | cons p t ih =>
    obtain ⟨k', v'⟩ := p
    simp only [Tab.above, Bool.and_eq_true, decide_eq_true_eq] at h
    simp only [Tab.insert]
    split
    · simp [Tab.above, hk, h.1, h.2]
    · split
      · simp [Tab.above, hk, h.2]
      · simp [Tab.above, h.1, ih h.2]

theorem Tab.wf_erase {α : Type} [DecidableEq α] {d : α} {k : Nat} {m : Tab α} (h : Tab.wf d m = true) :
    Tab.wf d (Tab.erase m k) = true := by
  induction m with
  | nil => rfl
  | cons p t ih =>
    obtain ⟨k', v⟩ := p
    simp only [Tab.wf, Bool.and_eq_true] at h
    simp only [Tab.erase]
    split
    · exact ih h.2
    · simp only [Tab.wf, Bool.and_eq_true]; exact ⟨⟨Tab.above_erase h.1.1, h.1.2⟩, ih h.2⟩

theorem Tab.wf_insert {α : Type} [DecidableEq α] {d v : α} {k : Nat} (hv : v ≠ d) {m : Tab α} (h : Tab.wf d m = true) :
    Tab.wf d (Tab.insert m k v) = true := by
  induction m with
  | nil => simp [Tab.insert, Tab.wf, Tab.above, hv]
  | cons p t ih =>
    obtain ⟨k', v'⟩ := p
    have h0 := h
    simp only [Tab.wf, Bool.and_eq_true] at h
    simp only [Tab.insert]
    split
    · rename_i hk
      simp only [Tab.wf, Bool.and_eq_true, decide_eq_true_eq]
      refine ⟨⟨?_, hv⟩, by simpa [Tab.wf] using h0⟩
      simp only [Tab.above, Bool.and_eq_true, decide_eq_true_eq]
      exact ⟨hk, Tab.above_mono (Nat.le_of_lt hk) h.1.1⟩
    · split
      · rename_i hk; subst hk
        simp only [Tab.wf, Bool.and_eq_true, decide_eq_true_eq]
        exact ⟨⟨h.1.1, hv⟩, h.2⟩
      · rename_i hk hn
        simp only [Tab.wf, Bool.and_eq_true]
        exact ⟨⟨Tab.above_insert (by omega) h.1.1, h.1.2⟩, ih h.2⟩

theorem Tab.wf_set {α : Type} [DecidableEq α] {d v : α} {k : Nat} {m : Tab α} (h : Tab.wf d m = true) :
    Tab.wf d (Tab.set d m k v) = true := by
  unfold Tab.set
  split
  · exact Tab.wf_erase h
  · exact Tab.wf_insert ‹_› h

theorem Tab.wf_filter {α : Type} [DecidableEq α] {d : α} {f : Nat × α → Bool} {m : Tab α} (h : Tab.wf d m = true) :
    Tab.wf d (m.filter f) = true := by
  induction m with
  | nil => rfl
  | cons p t ih =>
    obtain ⟨k, v⟩ := p
    simp only [Tab.wf, Bool.and_eq_true] at h
    have ha : ∀ (t : Tab α), Tab.above k t = true → Tab.above k (t.filter f) = true := by
      intro t ht
      induction t with
      | nil => rfl
      | cons q t ih =>
        obtain ⟨k', v'⟩ := q
        simp only [Tab.above, Bool.and_eq_true] at ht
        simp only [List.filter]
        split
        · simp only [Tab.above, Bool.and_eq_true]; exact ⟨ht.1, ih ht.2⟩
        · exact ih ht.2
    simp only [List.filter]
    split
    · simp only [Tab.wf, Bool.and_eq_true]; exact ⟨⟨ha t h.1.1, h.1.2⟩, ih h.2⟩
    · exact ih h.2

end Sys2Proof.Machine
end

