-- ==== Sys2Proof/Laws/Ops.lean ====
section
/-! SUPPORT. Reading after writing, for each named operation over registers, memory, cells, units and barriers. -/

namespace Sys2Proof.Machine

@[simp] theorem State.getF_setF_same (s : State) (a : Nat) (f : FD) (v : Nat) :
    (s.setF a f v).getF a f = v % 2 ^ f.w := by
  simp [State.getF, State.setF]

/-- A field kept at another place reads as before. -/
theorem State.getF_setF_ne (s : State) {a b : Nat} {f g : FD} (v : Nat) (h : f.key a ≠ g.key b) :
    (s.setF a f v).getF b g = s.getF b g := by
  simp only [State.getF, State.setF]
  exact Tab.get_set_ne h

/-- What does not write a register leaves every field. -/
theorem State.getF_of_regs {s t : State} (h : t.regs = s.regs) (a : Nat) (f : FD) : t.getF a f = s.getF a f := by
  simp [State.getF, h]

@[simp] theorem State.byte_setByte_same (s : State) (a : Nat) (b : Byte) : (s.setByte a b).byte a = b := by
  simp [State.byte, State.setByte]

theorem State.byte_setByte_ne (s : State) {a a' : Nat} (b : Byte) (h : a ≠ a') : (s.setByte a b).byte a' = s.byte a' := by
  simp only [State.byte, State.setByte]
  exact Tab.get_set_ne h

theorem State.byte_of_mem {s t : State} (h : t.mem = s.mem) (a : Nat) : t.byte a = s.byte a := by simp [State.byte, h]

@[simp] theorem State.cell_setCell_same (s : State) (c : Nat) (x : Cell) : (s.setCell c x).cell c = x := by
  simp [State.cell, State.setCell]

theorem State.cell_setCell_ne (s : State) {c d : Nat} (x : Cell) (h : c ≠ d) : (s.setCell c x).cell d = s.cell d := by
  simp only [State.cell, State.setCell]
  exact Tab.get_set_ne h

theorem State.cell_of_cells {s t : State} (h : t.cells = s.cells) (c : Nat) : t.cell c = s.cell c := by simp [State.cell, h]

@[simp] theorem State.unit_setUnit_same (s : State) (u : Nat) (x : UnitRt) : (s.setUnit u x).unit u = x := by
  simp [State.unit, State.setUnit]

theorem State.unit_setUnit_ne (s : State) {u v : Nat} (x : UnitRt) (h : u ≠ v) : (s.setUnit u x).unit v = s.unit v := by
  simp only [State.unit, State.setUnit]
  exact Tab.get_set_ne h

@[simp] theorem State.barrier_setBarrier_same (s : State) (b : Nat) (x : Barrier) : (s.setBarrier b x).barrier b = x := by
  simp [State.barrier, State.setBarrier]

theorem State.barrier_setBarrier_ne (s : State) {b d : Nat} (x : Barrier) (h : b ≠ d) :
    (s.setBarrier b x).barrier d = s.barrier d := by
  simp only [State.barrier, State.setBarrier]
  exact Tab.get_set_ne h

@[simp] theorem State.cell_setF (s : State) (a : Nat) (f : FD) (v c : Nat) : (s.setF a f v).cell c = s.cell c := rfl
@[simp] theorem State.unit_setF (s : State) (a : Nat) (f : FD) (v u : Nat) : (s.setF a f v).unit u = s.unit u := rfl
@[simp] theorem State.byte_setF (s : State) (a : Nat) (f : FD) (v b : Nat) : (s.setF a f v).byte b = s.byte b := rfl
@[simp] theorem State.getF_setCell (s : State) (c : Nat) (x : Cell) (a : Nat) (f : FD) :
    (s.setCell c x).getF a f = s.getF a f := rfl
@[simp] theorem State.getF_setUnit (s : State) (u : Nat) (x : UnitRt) (a : Nat) (f : FD) :
    (s.setUnit u x).getF a f = s.getF a f := rfl

/-! Registers of a cell (03 R48). -/

/-- S0 reads zero. -/
@[simp] theorem Cell.rS_zero (x : Cell) : x.rS 0 = 0 := rfl

/-- S0 ignores writes; another register reads what was written. -/
theorem Cell.rS_wS_same (x : Cell) (r : Nat) (v : Word) : (x.wS r v).rS r = if r = 0 then 0 else v := by
  by_cases h : r = 0
  · simp [h]
  · simp [Cell.rS, Cell.wS, h]

theorem Cell.rS_wS_ne (x : Cell) {r q : Nat} (v : Word) (h : r ≠ q) : (x.wS r v).rS q = x.rS q := by
  unfold Cell.wS
  split
  · rfl
  · unfold Cell.rS
    split
    · rfl
    · exact Tab.get_set_ne h

@[simp] theorem Cell.rA_wA_same (x : Cell) (r : Nat) (v : BitVec 48) : (x.wA r v).rA r = v := by simp [Cell.rA, Cell.wA]

theorem Cell.rA_wA_ne (x : Cell) {r q : Nat} (v : BitVec 48) (h : r ≠ q) : (x.wA r v).rA q = x.rA q := by
  simp only [Cell.rA, Cell.wA]
  exact Tab.get_set_ne h

@[simp] theorem Cell.rK_wK_same (x : Cell) (r v : Nat) : (x.wK r v).rK r = v := by simp [Cell.rK, Cell.wK]

theorem Cell.rK_wK_ne (x : Cell) {r q : Nat} (v : Nat) (h : r ≠ q) : (x.wK r v).rK q = x.rK q := by
  simp only [Cell.rK, Cell.wK]
  exact Tab.get_set_ne h

@[simp] theorem Cell.rS_wA (x : Cell) (r : Nat) (v : BitVec 48) (q : Nat) : (x.wA r v).rS q = x.rS q := rfl
@[simp] theorem Cell.rS_wK (x : Cell) (r v q : Nat) : (x.wK r v).rS q = x.rS q := rfl
@[simp] theorem Cell.rA_wK (x : Cell) (r v q : Nat) : (x.wK r v).rA q = x.rA q := rfl
@[simp] theorem Cell.rA_wS (x : Cell) (r : Nat) (v : Word) (q : Nat) : (x.wS r v).rA q = x.rA q := by
  unfold Cell.wS
  split <;> rfl

end Sys2Proof.Machine
end

