-- ==== Sys2Proof/Laws/Front.lean ====
section
/-! SUPPORT. The front end of a cell and its streams: what `State.front` and `State.runStream` answer where the instruction runs,
and what fetching, going on and posting leave unchanged. -/

namespace Sys2Proof.Machine

theorem SameFile.refl (x : Cell) : SameFile x x := ⟨rfl, rfl, rfl, rfl, rfl, rfl⟩

theorem SameFile.trans {x y z : Cell} (h : SameFile x y) (g : SameFile y z) : SameFile x z :=
  ⟨g.s.trans h.s, g.a.trans h.a, g.v.trans h.v, g.t.trans h.t, g.tfp.trans h.tfp, g.tsat.trans h.tsat⟩

/-- A write that keeps the register file of one cell keeps that of every cell. -/
theorem sameFile_setCell {s : State} {c : Nat} {x : Cell} (h : SameFile (s.cell c) x) (d : Nat) :
    SameFile (s.cell d) ((s.setCell c x).cell d) := by
  by_cases e : c = d
  · subst e
    simpa using h
  · rw [State.cell_setCell_ne s x e]
    exact SameFile.refl _

theorem State.fetchCount_cell (s : State) (c d : Nat) : (s.fetchCount c).cell d = s.cell d := by
  unfold State.fetchCount
  dsimp only
  split
  · exact State.cell_of_cells (State.event_cells s 2) d
  · exact State.cell_of_cells (State.event_cells s 3) d
  · rfl

theorem State.fetchCount_mem (s : State) (c : Nat) : (s.fetchCount c).mem = s.mem := by
  unfold State.fetchCount
  dsimp only
  split
  · exact State.event_mem s 2
  · exact State.event_mem s 3
  · rfl

theorem State.takeTok_mem (s : State) (c w : Nat) : (s.takeTok c w).mem = s.mem := by
  unfold State.takeTok
  split <;> rfl

theorem State.takeTok_sameFile (s : State) (c w d : Nat) : SameFile (s.cell d) ((s.takeTok c w).cell d) := by
  unfold State.takeTok
  split
  · refine sameFile_setCell ?_ d
    exact ⟨rfl, rfl, rfl, rfl, rfl, rfl⟩
  · exact SameFile.refl _

/-- Fetching and taking the wait token leave memory and every register file. -/
theorem State.feTaken_mem (s : State) (c w : Nat) : (s.feTaken c w).mem = s.mem :=
  (State.takeTok_mem _ c w).trans (State.fetchCount_mem s c)

theorem State.feTaken_sameFile (s : State) (c w d : Nat) : SameFile (s.cell d) ((s.feTaken c w).cell d) := by
  have h := State.takeTok_sameFile (s.fetchCount c) c w d
  rwa [State.fetchCount_cell] at h

theorem State.feAdvanceTo_mem (s : State) (c off next : Nat) : (s.feAdvanceTo c off next).mem = s.mem := rfl

theorem State.feAdvanceTo_sameFile (s : State) (c off next d : Nat) :
    SameFile (s.cell d) ((s.feAdvanceTo c off next).cell d) := by
  unfold State.feAdvanceTo
  refine sameFile_setCell ?_ d
  exact ⟨rfl, rfl, rfl, rfl, rfl, rfl⟩

theorem State.feAdvance_mem (s : State) (c off : Nat) : (s.feAdvance c off).mem = s.mem := rfl

theorem State.feAdvance_sameFile (s : State) (c off d : Nat) : SameFile (s.cell d) ((s.feAdvance c off).cell d) :=
  State.feAdvanceTo_sameFile s c off (off + 8) d

theorem State.fePost_mem (s : State) (c tok off : Nat) : (s.fePost c tok off).mem = s.mem := by
  unfold State.fePost
  dsimp only
  split <;> rfl

theorem State.fePost_sameFile (s : State) (c tok off d : Nat) : SameFile (s.cell d) ((s.fePost c tok off).cell d) := by
  unfold State.fePost
  dsimp only
  split
  · unfold State.post
    refine sameFile_setCell ?_ d
    exact ⟨rfl, rfl, rfl, rfl, rfl, rfl⟩
  · refine sameFile_setCell ?_ d
    exact ⟨rfl, rfl, rfl, rfl, rfl, rfl⟩

theorem State.fePostOf_mem (s : State) (c w off : Nat) : (s.fePostOf c w off).mem = s.mem := by
  unfold State.fePostOf
  split
  · exact State.fePost_mem s c _ off
  · rfl

theorem State.fePostOf_sameFile (s : State) (c w off d : Nat) : SameFile (s.cell d) ((s.fePostOf c w off).cell d) := by
  unfold State.fePostOf
  split
  · exact State.fePost_sameFile s c _ off d
  · exact SameFile.refl _

/-- Going on after an operation leaves memory and every register file as the operation left them. -/
theorem State.feNext_mem (s : State) (c w : Nat) (t : State) : (s.feNext c w t).mem = t.mem :=
  State.fePostOf_mem _ c w _

theorem State.feNext_sameFile (s : State) (c w : Nat) (t : State) (d : Nat) :
    SameFile (t.cell d) ((s.feNext c w t).cell d) := by
  have h := State.fePostOf_sameFile ((t.feAdvance c (s.cell c).fePc).progress c 1) c w (s.cell c).fePc d
  exact (State.feAdvance_sameFile t c (s.cell c).fePc d).trans h

theorem State.feJump_mem (s : State) (c w pc : Nat) (t : State) : (s.feJump c w pc t).mem = t.mem :=
  State.fePostOf_mem _ c w _

theorem State.feJump_sameFile (s : State) (c w pc : Nat) (t : State) (d : Nat) :
    SameFile (t.cell d) ((s.feJump c w pc t).cell d) := by
  have h := State.fePostOf_sameFile ((t.feAdvanceTo c (s.cell c).fePc pc).progress c 1) c w (s.cell c).fePc d
  exact (State.feAdvanceTo_sameFile t c (s.cell c).fePc pc d).trans h

/-- A front end that runs stands in one of the 48 cells. -/
theorem State.feRuns_lt {s : State} {c code w : Nat} (h : s.feRuns c code w) : c < 48 := by
  have := h.1
  simp only [State.feReady, Bool.and_eq_true, decide_eq_true_eq] at this
  omega

/-- Fetching and taking the wait token write no register but the loss counter of Sillage. -/
theorem State.feTaken_getF (s : State) (c w a : Nat) (f : FD) (h1 : f.key a ≠ silLOSS.key SIL_STATUS) :
    (s.feTaken c w).getF a f = s.getF a f := by
  have e : ∀ b, (s.event b).getF a f = s.getF a f := by
    intro b
    unfold State.event State.sil1
    split
    · exact State.getF_setF_ne _ _ (fun h => h1 h.symm)
    · dsimp only; split <;> rfl
  have g : (s.fetchCount c).getF a f = s.getF a f := by
    unfold State.fetchCount
    dsimp only
    split
    · exact e 2
    · exact e 3
    · rfl
  unfold State.feTaken State.takeTok
  split
  · exact g
  · exact g

/-- Going on writes no register but the progress counter of the cell. -/
theorem State.feNext_getF (s t : State) (c w a : Nat) (f : FD) (h1 : f.key a ≠ prCOUNT.key (UNIT_PROGRESS c)) :
    (s.feNext c w t).getF a f = t.getF a f := by
  have g : ((t.feAdvance c (s.cell c).fePc).progress c 1).getF a f = t.getF a f := by
    unfold State.progress
    rw [State.getF_setF_ne _ _ (fun h => h1 h.symm)]
    rfl
  unfold State.feNext State.fePostOf
  split
  · unfold State.fePost
    dsimp only
    split
    · exact g
    · exact g
  · exact g

/-- The arithmetic flags stay through fetching and going on. -/
theorem State.feTaken_flag (s : State) (c w : Nat) : ∀ f ∈ [stINV, stOVF, stUNF, stSAT, stNSC],
    (s.feTaken c w).getF (UNIT_STATUS c) f = s.getF (UNIT_STATUS c) f := by
  intro f hf
  apply State.feTaken_getF
  intro e
  have : f.lo < 64 := (by decide : ∀ f ∈ [stINV, stOVF, stUNF, stSAT, stNSC], f.lo < 64) f hf
  rw [show FD.key f (UNIT_STATUS c) = (0xF0000000000 + c * 0x10000 + 8) * 64 + f.lo from rfl,
    show FD.key silLOSS SIL_STATUS = (0xF0001200000 + 0x23008) * 64 + 32 from rfl] at e
  omega

theorem State.feNext_flag (s t : State) (c w : Nat) : ∀ f ∈ [stINV, stOVF, stUNF, stSAT, stNSC],
    (s.feNext c w t).getF (UNIT_STATUS c) f = t.getF (UNIT_STATUS c) f := by
  intro f hf
  apply State.feNext_getF
  intro e
  have : f.lo < 64 := (by decide : ∀ f ∈ [stINV, stOVF, stUNF, stSAT, stNSC], f.lo < 64) f hf
  simp only [FD.key, UNIT_STATUS, UNIT_PROGRESS, unitBlk] at e
  have : prCOUNT.lo = 0 := rfl
  omega

theorem State.feTaken_flagBits (s : State) (c w : Nat) : (s.feTaken c w).flagBits c = s.flagBits c := by
  have k := State.feTaken_flag s c w
  unfold State.flagBits
  rw [k stINV (by simp), k stOVF (by simp), k stUNF (by simp), k stSAT (by simp), k stNSC (by simp)]

/-- What `State.front` answers where the word at FE_PC is the operation and begins. -/
theorem State.front_runs {s : State} {c code w : Nat} {f : State → Nat → Nat → FeRes} (h : s.feRuns c code w) :
    s.front c code f = match f (s.feTaken c w) w (s.cell c).fePc with
      | .hold => s
      | .err e => (s.feTaken c w).cellError c e .front (s.cell c).fePc
      | .fail t e => t.cellError c e .front (s.cell c).fePc
      | .next t => s.feNext c w t
      | .jump t pc => s.feJump c w pc t
      | .part t => t.progress c 1 := by
  obtain ⟨h1, h2, h3, h4, h5⟩ := h
  simp only [State.feTaken]
  simp [State.front, h1, h2, h3, h4, h5]
  rfl

/-- A front-end instruction that runs and goes on. -/
theorem State.front_next {s t : State} {c code w : Nat} {f : State → Nat → Nat → FeRes} (h : s.feRuns c code w)
    (hf : f (s.feTaken c w) w (s.cell c).fePc = .next t) : s.front c code f = s.feNext c w t := by
  rw [State.front_runs h, hf]

/-- One that goes to an offset. -/
theorem State.front_jump {s t : State} {c code w pc : Nat} {f : State → Nat → Nat → FeRes} (h : s.feRuns c code w)
    (hf : f (s.feTaken c w) w (s.cell c).fePc = .jump t pc) : s.front c code f = s.feJump c w pc t := by
  rw [State.front_runs h, hf]

/-- One that errs. -/
theorem State.front_err {s : State} {c code w e : Nat} {f : State → Nat → Nat → FeRes} (h : s.feRuns c code w)
    (hf : f (s.feTaken c w) w (s.cell c).fePc = .err e) :
    s.front c code f = (s.feTaken c w).cellError c e .front (s.cell c).fePc := by
  rw [State.front_runs h, hf]

/-- One that waits leaves the state. -/
theorem State.front_hold {s : State} {c code w : Nat} {f : State → Nat → Nat → FeRes} (h : s.feRuns c code w)
    (hf : f (s.feTaken c w) w (s.cell c).fePc = .hold) : s.front c code f = s := by
  rw [State.front_runs h, hf]

/-- Where all steps succeed, `runSteps` takes each of them. -/
theorem runSteps_none {f : State → Nat → Except Nat (State × Nat)} {n k j : Nat} {s t : State}
    (h : runSteps f n s k = (t, j, none)) : j = k + n := by
  induction n generalizing s k with
  | zero => simp [runSteps] at h; omega
  | succ n ih =>
    unfold runSteps at h
    split at h
    · simp at h
    · have := ih h
      omega
    · simp at h

/-- Fetching and taking the wait token leave the count of steps. -/
theorem State.feTaken_feSteps (s : State) (c w : Nat) : ((s.feTaken c w).cell c).feSteps = (s.cell c).feSteps := by
  have h : (s.fetchCount c).cell c = s.cell c := State.fetchCount_cell s c c
  unfold State.feTaken State.takeTok
  split
  · simp [h, Cell.wK]
  · rw [h]

/-- Steps that cannot fail are taken one after the other. -/
theorem runSteps_all (g : State → Nat → State) (n k : Nat) (s : State) :
    runSteps (fun s k => .ok (g s k, 0)) n s k = ((List.range' k n).foldl g s, k + n, none) := by
  induction n generalizing s k with
  | zero => simp [runSteps]
  | succ n ih => simp [runSteps, ih, List.range'_succ]; omega

/-- What `State.front` answers where step `k` of the word at FE_PC is next. -/
theorem State.front_at {s : State} {c code w k : Nat} {f : State → Nat → Nat → FeRes} (h : s.feAt c code w k) :
    s.front c code f = match f (s.feSees c w k) w (s.cell c).fePc with
      | .hold => s
      | .err e => (s.feSees c w k).cellError c e .front (s.cell c).fePc
      | .fail t e => t.cellError c e .front (s.cell c).fePc
      | .next t => s.feNext c w t
      | .jump t pc => s.feJump c w pc t
      | .part t => t.progress c 1 := by
  obtain ⟨h1, h2, h3, h4, h5⟩ := h
  by_cases hk : k = 0
  · subst hk
    exact State.front_runs ⟨h1, h2, h3, h4 rfl, h5⟩
  · unfold State.feSees
    rw [if_neg hk]
    simp [State.front, h1, h2, h3, h5, hk]
    rfl

/-- A step that does not fail, before the last one. -/
theorem State.feRun_part {s : State} {c n : Nat} {f : State → Nat → State × Nat} (hf : (f s (s.cell c).feSteps).2 = 0)
    (hn : (s.cell c).feSteps + 1 < n) :
    s.feRun c n f = .part ((f s (s.cell c).feSteps).1.setCell c
      { (f s (s.cell c).feSteps).1.cell c with feSteps := (s.cell c).feSteps + 1 }) := by
  unfold State.feRun
  dsimp only
  generalize f s (s.cell c).feSteps = p at hf
  obtain ⟨t, e⟩ := p
  dsimp only at hf
  subst hf
  exact if_pos hn

/-- The last step, where it does not fail. -/
theorem State.feRun_last {s : State} {c n : Nat} {f : State → Nat → State × Nat} (hf : (f s (s.cell c).feSteps).2 = 0)
    (hn : n ≤ (s.cell c).feSteps + 1) :
    s.feRun c n f = .next ((f s (s.cell c).feSteps).1.setCell c
      { (f s (s.cell c).feSteps).1.cell c with feSteps := 0 }) := by
  unfold State.feRun
  dsimp only
  generalize f s (s.cell c).feSteps = p at hf
  obtain ⟨t, e⟩ := p
  dsimp only at hf
  subst hf
  exact if_neg (by omega)

/-- Step `k` sees the count of steps `k`. -/
theorem State.feSees_feSteps {s : State} {c code w k : Nat} (h : s.feAt c code w k) : ((s.feSees c w k).cell c).feSteps = k := by
  have := h.2.2.2.2
  unfold State.feSees
  split
  · rw [State.feTaken_feSteps]
    exact this
  · exact this

/-- An instruction of `n` steps does one that is not the last. -/
theorem State.front_part {s : State} {c code w k n : Nat} {f : State → Nat → Nat → FeRes} {g : State → Nat → State × Nat}
    (h : s.feAt c code w k) (hf : f (s.feSees c w k) w (s.cell c).fePc = (s.feSees c w k).feRun c n g)
    (hp : (g (s.feSees c w k) k).2 = 0) (hn : k + 1 < n) :
    s.front c code f = ((g (s.feSees c w k) k).1.setCell c { (g (s.feSees c w k) k).1.cell c with feSteps := k + 1 }).progress c 1 := by
  have e := State.feSees_feSteps h
  rw [State.front_at h, hf, State.feRun_part (by rw [e]; exact hp) (by rw [e]; exact hn), e]

/-- An instruction of `n` steps does the last one. -/
theorem State.front_last {s : State} {c code w k n : Nat} {f : State → Nat → Nat → FeRes} {g : State → Nat → State × Nat}
    (h : s.feAt c code w k) (hf : f (s.feSees c w k) w (s.cell c).fePc = (s.feSees c w k).feRun c n g)
    (hp : (g (s.feSees c w k) k).2 = 0) (hn : n ≤ k + 1) :
    s.front c code f =
      s.feNext c w ((g (s.feSees c w k) k).1.setCell c { (g (s.feSees c w k) k).1.cell c with feSteps := 0 }) := by
  have e := State.feSees_feSteps h
  rw [State.front_at h, hf, State.feRun_last (by rw [e]; exact hp) (by rw [e]; exact hn), e]

/-- A computation that runs ends with its answer and the state after it. -/
theorem Eng.run_of_runs {α : Type} {f : Eng α} {s : State} (d : α) (h : f.runs s = true) :
    f.run s = .ok (f.answer d s) (f.after s) := by
  unfold Eng.runs at h
  unfold Eng.answer Eng.after
  cases e : f.run s with
  | ok x t => rfl
  | error x t => rw [e] at h; cases h

/-- A command of engine `u` whose computation runs ends with OK. -/
theorem State.engRun_ok {s : State} {u : Nat} {f : Eng Nat} (h : f.runs s = true) :
    s.engRun u f = (f.after s).engEnd u 0 (f.answer 0 s) := by
  unfold State.engRun
  rw [Eng.run_of_runs 0 h]

/-- A plan that runs: its steps end without an error. -/
theorem State.planRuns_spec {s : State} {f : State → QEntry → Except Nat Plan} {e : QEntry} (h : s.planRuns f e = true) :
    ∃ p, f (s.withDescs e) e = .ok p ∧ (runSteps p.step (p.total - e.steps) s e.steps).2.2 = none := by
  unfold State.planRuns at h
  split at h
  · exact ⟨_, ‹_›, eq_of_beq h⟩
  · cases h

/-- A stream instruction whose operands pass and whose steps all succeed runs to its end. -/
theorem State.runStream_done {s t : State} {c code i j : Nat} {st : Strm} {e : QEntry} {p : Plan}
    {f : State → QEntry → Except Nat Plan} (h : s.stRuns c code st i e) (hf : f (s.withDescs e) e = .ok p)
    (hp : runSteps p.step (p.total - e.steps) s e.steps = (t, j, none)) :
    s.runStream c false code f = State.stDone c st i e p.total t := by
  obtain ⟨h1, h2, h3, h4, h5, h6, h7⟩ := h
  have hj := runSteps_none hp
  have hm : j = max p.total e.steps := by omega
  have hd : p.total ≤ max p.total e.steps := by omega
  subst h3 h4
  have hc : ¬ 48 ≤ c := by omega
  have hs : max p.total e.steps - e.steps = p.total - e.steps := by omega
  have hu : s.unitState c = stRunning := by
    have := h2
    simp only [State.cellGoes, Bool.and_eq_true, decide_eq_true_eq] at this
    exact this.1
  simp [State.runStream, h5, h6, h7, h2, hu, hf, hp, hm, hd, hc, hs, State.stDone, stRunning, stError]

end Sys2Proof.Machine
end

