-- ==== Sys2Proof/Laws/Kept.lean ====
section
/-! SUPPORT. What every operation keeps: the waiting commands stand, time never runs back, memory stays in its canonical
form. `Kept a b` says so of a state `b` that was reached from `a`; the other predicates say it of a state inside a pair, an
outcome, a front-end result, a plan or an engine's computation. -/
namespace Sys2Proof.Machine


/-- What every operation keeps. -/
structure Kept (a b : State) : Prop where
  /-- The commands that wait are the same. -/
  q : b.pending = a.pending
  /-- Time has not run back. -/
  n : a.now ≤ b.now
  /-- Memory is still in its canonical form. -/
  m : Tab.wf 0 a.mem = true → Tab.wf 0 b.mem = true

theorem Kept.refl {s : State} : Kept s s := ⟨rfl, Nat.le_refl _, id⟩

theorem Kept.trans {a b c : State} (h : Kept a b) (g : Kept b c) : Kept a c :=
  ⟨g.q.trans h.q, Nat.le_trans h.n g.n, fun w => g.m (h.m w)⟩

theorem Kept.mk' {s0 s : State} {free regs ecc lastFix cells barriers wins msgs rgnCur rgnOld chErrs edc portFence sil units qIsland jobs imsic aplic quar safe trig cams ports rxRings strms odo ap imgs ctx ctxRegs ctxCmds trkWait tracks nextIdRead cfg plan groups sup pow cal stores shut ident flc links loadedCfg loadedCal} (h : Kept s0 s) :
  Kept s0 (State.mk s.pending s.now free regs s.mem ecc lastFix cells barriers wins msgs rgnCur rgnOld chErrs edc portFence sil units qIsland jobs imsic aplic quar safe trig cams ports rxRings strms odo ap imgs ctx ctxRegs ctxCmds trkWait tracks nextIdRead cfg plan groups sup pow cal stores shut ident flc links loadedCfg loadedCal) := ⟨h.q, h.n, h.m⟩

def KeptNext (s0 : State) (o : Host.Outcome State Fault Refusal) : Prop := ∃ t, o = .next t ∧ Kept s0 t

theorem KeptNext.next {s0 s : State} (h : Kept s0 s) : KeptNext s0 (.next s) := ⟨s, rfl, h⟩

def KeptFe (s0 : State) : FeRes → Prop
  | .next s => Kept s0 s
  | .jump s _ => Kept s0 s
  | .fail s _ => Kept s0 s
  | .part s => Kept s0 s
  | _ => True

theorem KeptFe.next {s0 s : State} (h : Kept s0 s) : KeptFe s0 (.next s) := h

theorem KeptFe.part {s0 s : State} (h : Kept s0 s) : KeptFe s0 (.part s) := h

theorem KeptFe.fail {s0 s : State} {n} (h : Kept s0 s) : KeptFe s0 (.fail s n) := h

theorem KeptFe.jump {s0 s : State} {pc} (h : Kept s0 s) : KeptFe s0 (.jump s pc) := h

theorem KeptFe.ofEq {s0 : State} {a b} (e : a = b) (h : KeptFe s0 a) : KeptFe s0 b := e ▸ h

def KeptEx (s0 : State) {ε} (x : Except ε State) : Prop := ∀ t, x = .ok t → Kept s0 t

def KeptEx1 (s0 : State) {ε α} (x : Except ε (State × α)) : Prop := ∀ t, x = .ok t → Kept s0 t.1

def KeptEx2 (s0 : State) {ε α} (x : Except ε (α × State)) : Prop := ∀ t, x = .ok t → Kept s0 t.2

def KeptPlan (s0 : State) (p : Plan) : Prop := ∀ s k, Kept s0 s → KeptEx1 s0 (p.step s k)

def KeptPlanEx (s0 : State) (x : Except Nat Plan) : Prop := ∀ p, x = .ok p → KeptPlan s0 p

theorem KeptPlan.mk {s0 : State} {n} {f : State → Nat → Except Nat (State × Nat)} (h : ∀ s k, Kept s0 s → KeptEx1 s0 (f s k)) : KeptPlan s0 { total := n, step := f } := h

structure KeptRes (s0 : State) {ε α} (r : EStateM.Result ε State α) : Prop where
  st : Kept s0 (match r with | .ok _ s => s | .error _ s => s)

theorem KeptRes.ofEq {s0 : State} {ε α} {a b : EStateM.Result ε State α} (e : a = b) (h : KeptRes s0 a) : KeptRes s0 b := e ▸ h

structure KeptEng (s0 : State) {α} (m : Eng α) : Prop where
  after : ∀ s, Kept s0 s → KeptRes s0 (m.run s)

theorem KeptEng.run {s0 s : State} {α} {m : Eng α} (h : KeptEng s0 m) (hs : Kept s0 s) : KeptRes s0 (EStateM.run m s) := h.after s hs

theorem KeptEng.pure {s0 : State} {α} {a : α} : KeptEng s0 (Pure.pure a) := ⟨fun _ h => ⟨h⟩⟩

theorem KeptEng.err {s0 : State} {α} {e : EErr} : KeptEng s0 (throw e : Eng α) := ⟨fun _ h => ⟨h⟩⟩

theorem KeptEng.set {s0 s : State} (h : Kept s0 s) : KeptEng s0 (MonadStateOf.set s) := ⟨fun _ _ => ⟨h⟩⟩

theorem KeptEng.modify {s0 : State} {f : State → State} (h : ∀ s, Kept s0 s → Kept s0 (f s)) : KeptEng s0 (modify f) := ⟨fun s hs => ⟨h s hs⟩⟩

theorem KeptEng.bind {s0 : State} {α β} {m : Eng α} {f : α → Eng β} (h : KeptEng s0 m) (g : ∀ a, KeptEng s0 (f a)) : KeptEng s0 (m >>= f) := by
  refine ⟨fun s hs => ?_⟩
  have q := h.after s hs
  change KeptRes s0 (EStateM.bind m f s)
  unfold EStateM.bind
  change KeptRes s0 (m s) at q
  split
  · rename_i a s' e
    rw [e] at q
    exact (g a).after s' q.st
  · rename_i a s' e
    rw [e] at q
    exact ⟨q.st⟩

theorem MonadState_modifyGet_kept {s0 : State} {α} {f : State → α × State} (h : ∀ s, Kept s0 s → Kept s0 (f s).2) : KeptEng s0 (modifyGet f : Eng α) := ⟨fun s hs => ⟨h s hs⟩⟩

theorem KeptEng.get {s0 : State} {β} {f : State → Eng β} (g : ∀ s, Kept s0 s → KeptEng s0 (f s)) : KeptEng s0 (MonadState.get >>= f) :=
  ⟨fun s hs => (g s hs).after s hs⟩

theorem Kept.ite {s0 : State} {s t : State} {p : Prop} [Decidable p] (h : Kept s0 s) (g : Kept s0 t) : Kept s0 (if p then s else t) := by
  split <;> assumption

theorem Kept.ite' {s0 : State} {s t : State} {p : Prop} [Decidable p] (h : p → Kept s0 s) (g : ¬ p → Kept s0 t) : Kept s0 (if p then s else t) := by
  split
  · exact h ‹_›
  · exact g ‹_›

theorem Kept.foldl {s0 : State} {α} {l : List α} {p : State} {f : State → α → State} (h : Kept s0 p)
    (hf : ∀ s x, Kept s0 s → Kept s0 (f s x)) : Kept s0 (l.foldl f p) := by
  induction l generalizing p with
  | nil => exact h
  | cons a t ih => exact ih (hf _ _ h)

theorem Kept1.ite {s0 : State} {β} {s t : State × β} {p : Prop} [Decidable p] (h : Kept s0 s.1) (g : Kept s0 t.1) : Kept s0 (if p then s else t).1 := by
  split <;> assumption

theorem Kept1.ite' {s0 : State} {β} {s t : State × β} {p : Prop} [Decidable p] (h : p → Kept s0 s.1) (g : ¬ p → Kept s0 t.1) : Kept s0 (if p then s else t).1 := by
  split
  · exact h ‹_›
  · exact g ‹_›

theorem Kept1.foldl {s0 : State} {α} {β} {l : List α} {p : State × β} {f : State × β → α → State × β} (h : Kept s0 p.1)
    (hf : ∀ s x, Kept s0 s.1 → Kept s0 (f s x).1) : Kept s0 (l.foldl f p).1 := by
  induction l generalizing p with
  | nil => exact h
  | cons a t ih => exact ih (hf _ _ h)

theorem Kept2.ite {s0 : State} {β} {s t : β × State} {p : Prop} [Decidable p] (h : Kept s0 s.2) (g : Kept s0 t.2) : Kept s0 (if p then s else t).2 := by
  split <;> assumption

theorem Kept2.ite' {s0 : State} {β} {s t : β × State} {p : Prop} [Decidable p] (h : p → Kept s0 s.2) (g : ¬ p → Kept s0 t.2) : Kept s0 (if p then s else t).2 := by
  split
  · exact h ‹_›
  · exact g ‹_›

theorem Kept2.foldl {s0 : State} {α} {β} {l : List α} {p : β × State} {f : β × State → α → β × State} (h : Kept s0 p.2)
    (hf : ∀ s x, Kept s0 s.2 → Kept s0 (f s x).2) : Kept s0 (l.foldl f p).2 := by
  induction l generalizing p with
  | nil => exact h
  | cons a t ih => exact ih (hf _ _ h)

theorem KeptFe.ite {s0 : State} {s t : FeRes} {p : Prop} [Decidable p] (h : KeptFe s0 s) (g : KeptFe s0 t) : KeptFe s0 (if p then s else t) := by
  split <;> assumption

theorem KeptFe.ite' {s0 : State} {s t : FeRes} {p : Prop} [Decidable p] (h : p → KeptFe s0 s) (g : ¬ p → KeptFe s0 t) : KeptFe s0 (if p then s else t) := by
  split
  · exact h ‹_›
  · exact g ‹_›

theorem KeptNext.ite {s0 : State} {s t : Host.Outcome State Fault Refusal} {p : Prop} [Decidable p] (h : KeptNext s0 s) (g : KeptNext s0 t) : KeptNext s0 (if p then s else t) := by
  split <;> assumption

theorem KeptNext.ite' {s0 : State} {s t : Host.Outcome State Fault Refusal} {p : Prop} [Decidable p] (h : p → KeptNext s0 s) (g : ¬ p → KeptNext s0 t) : KeptNext s0 (if p then s else t) := by
  split
  · exact h ‹_›
  · exact g ‹_›

theorem KeptEx.ite {s0 : State} {β} {s t : Except β State} {p : Prop} [Decidable p] (h : KeptEx s0 s) (g : KeptEx s0 t) : KeptEx s0 (if p then s else t) := by
  split <;> assumption

theorem KeptEx.ite' {s0 : State} {β} {s t : Except β State} {p : Prop} [Decidable p] (h : p → KeptEx s0 s) (g : ¬ p → KeptEx s0 t) : KeptEx s0 (if p then s else t) := by
  split
  · exact h ‹_›
  · exact g ‹_›

theorem KeptEx1.ite {s0 : State} {β} {s t : Except Nat (State × β)} {p : Prop} [Decidable p] (h : KeptEx1 s0 s) (g : KeptEx1 s0 t) : KeptEx1 s0 (if p then s else t) := by
  split <;> assumption

theorem KeptEx1.ite' {s0 : State} {β} {s t : Except Nat (State × β)} {p : Prop} [Decidable p] (h : p → KeptEx1 s0 s) (g : ¬ p → KeptEx1 s0 t) : KeptEx1 s0 (if p then s else t) := by
  split
  · exact h ‹_›
  · exact g ‹_›

theorem KeptEx2.ite {s0 : State} {β} {s t : Except Nat (β × State)} {p : Prop} [Decidable p] (h : KeptEx2 s0 s) (g : KeptEx2 s0 t) : KeptEx2 s0 (if p then s else t) := by
  split <;> assumption

theorem KeptEx2.ite' {s0 : State} {β} {s t : Except Nat (β × State)} {p : Prop} [Decidable p] (h : p → KeptEx2 s0 s) (g : ¬ p → KeptEx2 s0 t) : KeptEx2 s0 (if p then s else t) := by
  split
  · exact h ‹_›
  · exact g ‹_›

theorem KeptPlanEx.ite {s0 : State} {s t : Except Nat Plan} {p : Prop} [Decidable p] (h : KeptPlanEx s0 s) (g : KeptPlanEx s0 t) : KeptPlanEx s0 (if p then s else t) := by
  split <;> assumption

theorem KeptPlanEx.ite' {s0 : State} {s t : Except Nat Plan} {p : Prop} [Decidable p] (h : p → KeptPlanEx s0 s) (g : ¬ p → KeptPlanEx s0 t) : KeptPlanEx s0 (if p then s else t) := by
  split
  · exact h ‹_›
  · exact g ‹_›

theorem KeptEng.ite {s0 : State} {β} {s t : Eng β} {p : Prop} [Decidable p] (h : KeptEng s0 s) (g : KeptEng s0 t) : KeptEng s0 (if p then s else t) := by
  split <;> assumption

theorem KeptEng.ite' {s0 : State} {β} {s t : Eng β} {p : Prop} [Decidable p] (h : p → KeptEng s0 s) (g : ¬ p → KeptEng s0 t) : KeptEng s0 (if p then s else t) := by
  split
  · exact h ‹_›
  · exact g ‹_›

theorem KeptRes.ite {s0 : State} {β} {s t : EStateM.Result EErr State β} {p : Prop} [Decidable p] (h : KeptRes s0 s) (g : KeptRes s0 t) : KeptRes s0 (if p then s else t) := by
  split <;> assumption

theorem KeptRes.ite' {s0 : State} {β} {s t : EStateM.Result EErr State β} {p : Prop} [Decidable p] (h : p → KeptRes s0 s) (g : ¬ p → KeptRes s0 t) : KeptRes s0 (if p then s else t) := by
  split
  · exact h ‹_›
  · exact g ‹_›

theorem Kept1.ofEq {s0 : State} {β} {a b : State × β} (e : a = b) (h : Kept s0 a.1) : Kept s0 b.1 := e ▸ h

theorem Kept2.ofEq {s0 : State} {β} {a b : β × State} (e : a = b) (h : Kept s0 a.2) : Kept s0 b.2 := e ▸ h

theorem KeptEx.err {s0 : State} {e : Nat} : KeptEx s0 (Except.error e : Except Nat (State)) := by intro t h; cases h

theorem KeptEx.ok {s0 : State} {a : State} (h : Kept s0 a) : KeptEx s0 (Except.ok a : Except Nat (State)) := by intro t e; cases e; exact h

theorem KeptEx.bindN {s0 : State} {γ} {x : Except Nat γ} {f : γ → Except Nat (State)} (h : ∀ a, KeptEx s0 (f a)) : KeptEx s0 (x >>= f) := by
  intro t e
  cases x with
  | error _ => cases e
  | ok a => exact h a t e

theorem KeptEx.bindS {s0 : State} {x : Except Nat State} {f : State → Except Nat (State)} (g : KeptEx s0 x) (h : ∀ a, Kept s0 a → KeptEx s0 (f a)) : KeptEx s0 (x >>= f) := by
  intro t e
  cases x with
  | error _ => cases e
  | ok a => exact h a (g a rfl) t e

theorem KeptEx.bindS1 {s0 : State} {γ} {x : Except Nat (State × γ)} {f : State × γ → Except Nat (State)} (g : KeptEx1 s0 x) (h : ∀ a, Kept s0 a.1 → KeptEx s0 (f a)) : KeptEx s0 (x >>= f) := by
  intro t e
  cases x with
  | error _ => cases e
  | ok a => exact h a (g a rfl) t e

theorem KeptEx.bindS2 {s0 : State} {γ} {x : Except Nat (γ × State)} {f : γ × State → Except Nat (State)} (g : KeptEx2 s0 x) (h : ∀ a, Kept s0 a.2 → KeptEx s0 (f a)) : KeptEx s0 (x >>= f) := by
  intro t e
  cases x with
  | error _ => cases e
  | ok a => exact h a (g a rfl) t e

theorem KeptEx1.err {s0 : State} {β} {e : Nat} : KeptEx1 s0 (Except.error e : Except Nat (State × β)) := by intro t h; cases h

theorem KeptEx1.ok {s0 : State} {β} {a : State × β} (h : Kept s0 a.1) : KeptEx1 s0 (Except.ok a : Except Nat (State × β)) := by intro t e; cases e; exact h

theorem KeptEx1.bindN {s0 : State} {β} {γ} {x : Except Nat γ} {f : γ → Except Nat (State × β)} (h : ∀ a, KeptEx1 s0 (f a)) : KeptEx1 s0 (x >>= f) := by
  intro t e
  cases x with
  | error _ => cases e
  | ok a => exact h a t e

theorem KeptEx1.bindS {s0 : State} {β} {x : Except Nat State} {f : State → Except Nat (State × β)} (g : KeptEx s0 x) (h : ∀ a, Kept s0 a → KeptEx1 s0 (f a)) : KeptEx1 s0 (x >>= f) := by
  intro t e
  cases x with
  | error _ => cases e
  | ok a => exact h a (g a rfl) t e

theorem KeptEx1.bindS1 {s0 : State} {β} {γ} {x : Except Nat (State × γ)} {f : State × γ → Except Nat (State × β)} (g : KeptEx1 s0 x) (h : ∀ a, Kept s0 a.1 → KeptEx1 s0 (f a)) : KeptEx1 s0 (x >>= f) := by
  intro t e
  cases x with
  | error _ => cases e
  | ok a => exact h a (g a rfl) t e

theorem KeptEx1.bindS2 {s0 : State} {β} {γ} {x : Except Nat (γ × State)} {f : γ × State → Except Nat (State × β)} (g : KeptEx2 s0 x) (h : ∀ a, Kept s0 a.2 → KeptEx1 s0 (f a)) : KeptEx1 s0 (x >>= f) := by
  intro t e
  cases x with
  | error _ => cases e
  | ok a => exact h a (g a rfl) t e

theorem KeptEx2.err {s0 : State} {β} {e : Nat} : KeptEx2 s0 (Except.error e : Except Nat (β × State)) := by intro t h; cases h

theorem KeptEx2.ok {s0 : State} {β} {a : β × State} (h : Kept s0 a.2) : KeptEx2 s0 (Except.ok a : Except Nat (β × State)) := by intro t e; cases e; exact h

theorem KeptEx2.bindN {s0 : State} {β} {γ} {x : Except Nat γ} {f : γ → Except Nat (β × State)} (h : ∀ a, KeptEx2 s0 (f a)) : KeptEx2 s0 (x >>= f) := by
  intro t e
  cases x with
  | error _ => cases e
  | ok a => exact h a t e

theorem KeptEx2.bindS {s0 : State} {β} {x : Except Nat State} {f : State → Except Nat (β × State)} (g : KeptEx s0 x) (h : ∀ a, Kept s0 a → KeptEx2 s0 (f a)) : KeptEx2 s0 (x >>= f) := by
  intro t e
  cases x with
  | error _ => cases e
  | ok a => exact h a (g a rfl) t e

theorem KeptEx2.bindS1 {s0 : State} {β} {γ} {x : Except Nat (State × γ)} {f : State × γ → Except Nat (β × State)} (g : KeptEx1 s0 x) (h : ∀ a, Kept s0 a.1 → KeptEx2 s0 (f a)) : KeptEx2 s0 (x >>= f) := by
  intro t e
  cases x with
  | error _ => cases e
  | ok a => exact h a (g a rfl) t e

theorem KeptEx2.bindS2 {s0 : State} {β} {γ} {x : Except Nat (γ × State)} {f : γ × State → Except Nat (β × State)} (g : KeptEx2 s0 x) (h : ∀ a, Kept s0 a.2 → KeptEx2 s0 (f a)) : KeptEx2 s0 (x >>= f) := by
  intro t e
  cases x with
  | error _ => cases e
  | ok a => exact h a (g a rfl) t e

theorem KeptPlanEx.err {s0 : State} {e : Nat} : KeptPlanEx s0 (Except.error e : Except Nat (Plan)) := by intro t h; cases h

theorem KeptPlanEx.ok {s0 : State} {a : Plan} (h : KeptPlan s0 a) : KeptPlanEx s0 (Except.ok a : Except Nat (Plan)) := by intro t e; cases e; exact h

theorem KeptPlanEx.bindN {s0 : State} {γ} {x : Except Nat γ} {f : γ → Except Nat (Plan)} (h : ∀ a, KeptPlanEx s0 (f a)) : KeptPlanEx s0 (x >>= f) := by
  intro t e
  cases x with
  | error _ => cases e
  | ok a => exact h a t e

theorem KeptPlanEx.bindS {s0 : State} {x : Except Nat State} {f : State → Except Nat (Plan)} (g : KeptEx s0 x) (h : ∀ a, Kept s0 a → KeptPlanEx s0 (f a)) : KeptPlanEx s0 (x >>= f) := by
  intro t e
  cases x with
  | error _ => cases e
  | ok a => exact h a (g a rfl) t e

theorem KeptPlanEx.bindS1 {s0 : State} {γ} {x : Except Nat (State × γ)} {f : State × γ → Except Nat (Plan)} (g : KeptEx1 s0 x) (h : ∀ a, Kept s0 a.1 → KeptPlanEx s0 (f a)) : KeptPlanEx s0 (x >>= f) := by
  intro t e
  cases x with
  | error _ => cases e
  | ok a => exact h a (g a rfl) t e

theorem KeptPlanEx.bindS2 {s0 : State} {γ} {x : Except Nat (γ × State)} {f : γ × State → Except Nat (Plan)} (g : KeptEx2 s0 x) (h : ∀ a, Kept s0 a.2 → KeptPlanEx s0 (f a)) : KeptPlanEx s0 (x >>= f) := by
  intro t e
  cases x with
  | error _ => cases e
  | ok a => exact h a (g a rfl) t e

end Sys2Proof.Machine
end

