-- ==== Sys2Proof/Laws/KeptOps.lean ====
section
/-! SUPPORT. `Kept` for the operations of registers, memory, barriers, images and queues: one lemma for each. -/

namespace Sys2Proof.Machine

theorem State_setF_kept {s0 : State} {s : State} {a : ℕ} {f : FD} {v : ℕ} (h_s : Kept s0 s) :
    Kept s0 (State.setF s a f v) := by
  unfold State.setF
  exact (Kept.mk' h_s)

theorem State_clrF_kept {s0 : State} {s : State} {a : ℕ} {f : FD} (h_s : Kept s0 s) :
    Kept s0 (State.clrF s a f) := by
  unfold State.clrF
  exact (State_setF_kept h_s)

theorem State_loadF_kept {s0 : State} {s : State} {a : ℕ} {fs : List FD} {w : ℕ} (h_s : Kept s0 s) :
    Kept s0 (State.loadF s a fs w) := by
  unfold State.loadF
  exact (Kept.foldl h_s (fun x0 x2 h1 => (State_setF_kept h1)))

theorem State_at_kept {s0 s : State} {t : Nat} (h : Kept s0 s) : Kept s0 (s.at t) := ⟨h.q, Nat.le_trans h.n (Nat.le_max_left _ _), h.m⟩

theorem State_fresh_kept {s0 : State} {s : State} {m : ℕ} (h_s : Kept s0 s) :
    Kept s0 (State.fresh s m).2 := by
  unfold State.fresh
  exact (Kept.mk' h_s)

theorem State_setByte_kept {s0 s : State} {a : Nat} {b : Byte} (h : Kept s0 s) : Kept s0 (s.setByte a b) := ⟨h.q, h.n, fun w => Tab.wf_set (h.m w)⟩

theorem State_putBytes_kept {s0 s : State} {a : Nat} {l : List Byte} (h : Kept s0 s) : Kept s0 (s.putBytes a l) := by
  induction l generalizing s a with
  | nil => exact h
  | cons b t ih => exact ih (State_setByte_kept h)

theorem State_putLe_kept {s0 : State} {s : State} {a : ℕ} {n : ℕ} {v : ℕ} (h_s : Kept s0 s) :
    Kept s0 (State.putLe s a n v) := by
  unfold State.putLe
  exact (State_putBytes_kept h_s)

theorem State_eccClear_kept {s0 : State} {s : State} {a : ℕ} {n : ℕ} (h_s : Kept s0 s) :
    Kept s0 (State.eccClear s a n) := by
  unfold State.eccClear
  exact (Kept.mk' h_s)

theorem State_store_kept {s0 : State} {s : State} {a : ℕ} {bs : List Byte} (h_s : Kept s0 s) :
    Kept s0 (State.store s a bs) := by
  unfold State.store
  exact (State_eccClear_kept (State_putBytes_kept h_s))

theorem State_setUnit_kept {s0 : State} {s : State} {u : ℕ} {x : UnitRt} (h_s : Kept s0 s) :
    Kept s0 (State.setUnit s u x) := by
  unfold State.setUnit
  exact (Kept.mk' h_s)

theorem State_setCell_kept {s0 : State} {s : State} {c : ℕ} {x : Cell} (h_s : Kept s0 s) :
    Kept s0 (State.setCell s c x) := by
  unfold State.setCell
  exact (Kept.mk' h_s)

theorem State_setBarrier_kept {s0 : State} {s : State} {b : ℕ} {x : Barrier} (h_s : Kept s0 s) :
    Kept s0 (State.setBarrier s b x) := by
  unfold State.setBarrier
  exact (Kept.mk' h_s)

theorem State_setJob_kept {s0 : State} {s : State} {j : ℕ} {x : Job} (h_s : Kept s0 s) :
    Kept s0 (State.setJob s j x) := by
  unfold State.setJob
  exact (Kept.mk' h_s)

theorem State_setWinHold_kept {s0 : State} {s : State} {u : ℕ} {n : ℕ} {x : WinHold} (h_s : Kept s0 s) :
    Kept s0 (State.setWinHold s u n x) := by
  unfold State.setWinHold
  exact (Kept.mk' h_s)

theorem State_dirChange_kept {s0 : State} {s : State} (h_s : Kept s0 s) :
    Kept s0 (State.dirChange s) := by
  unfold State.dirChange
  exact (State_setF_kept h_s)

theorem State_setUnitState_kept {s0 : State} {s : State} {u : ℕ} {v : ℕ} (h_s : Kept s0 s) :
    Kept s0 (State.setUnitState s u v) := by
  unfold State.setUnitState
  exact (State_setF_kept h_s)

theorem State_progress_kept {s0 : State} {s : State} {u : ℕ} {n : ℕ} (h_s : Kept s0 s) :
    Kept s0 (State.progress s u n) := by
  unfold State.progress
  exact (State_setF_kept h_s)

theorem State_setBusy_kept {s0 : State} {s : State} {u : ℕ} {v : ℕ} (h_s : Kept s0 s) :
    Kept s0 (State.setBusy s u v) := by
  unfold State.setBusy
  exact (State_setF_kept h_s)

theorem State_engDone_kept {s0 : State} {s : State} {u : ℕ} (h_s : Kept s0 s) :
    Kept s0 (State.engDone s u) := by
  unfold State.engDone
  refine Kept.ite' (fun _ => ?_) (fun _ => ?_)
  · exact h_s
  · extract_lets -merge -useContext +onlyGivenNames y40
    have h41 : Kept s0 y40 := (Kept.mk' h_s)
    exact (State_setBusy_kept (Kept.ite (Kept.mk' h41) h41))

theorem State_dropRegs_kept {s0 : State} {s : State} {u : ℕ} (h_s : Kept s0 s) :
    Kept s0 (State.dropRegs s u) := by
  unfold State.dropRegs
  exact (Kept.mk' h_s)

theorem State_engClear_kept {s0 : State} {s : State} {u : ℕ} (h_s : Kept s0 s) :
    Kept s0 (State.engClear s u) := by
  unfold State.engClear
  extract_lets -merge -useContext +onlyGivenNames y40
  have h41 : Kept s0 y40 := (State_dropRegs_kept (State_engDone_kept h_s))
  exact (Kept.mk' h41)

theorem State_sil1_kept {s0 : State} {s : State} {h' : ℕ} {b : ℕ} (h_s : Kept s0 s) :
    Kept s0 (State.sil1 s h' b) := by
  unfold State.sil1
  refine Kept.ite' (fun _ => ?_) (fun _ => ?_)
  · exact (State_setF_kept h_s)
  · extract_lets -merge -useContext +onlyGivenNames y40
    extract_lets -merge -useContext +onlyGivenNames y81
    exact (Kept.ite (Kept.mk' h_s) (Kept.mk' h_s))

theorem State_extreme_kept {s0 : State} {s : State} {e : ℕ} {v : ℤ} (h_s : Kept s0 s) :
    Kept s0 (State.extreme s e v) := by
  unfold State.extreme
  refine Kept.ite' (fun _ => ?_) (fun _ => ?_)
  · exact (State_setF_kept h_s)
  · extract_lets -merge -useContext +onlyGivenNames y40
    extract_lets -merge -useContext +onlyGivenNames y81
    extract_lets -merge -useContext +onlyGivenNames y122
    extract_lets -merge -useContext +onlyGivenNames y163
    extract_lets -merge -useContext +onlyGivenNames i164
    extract_lets -merge -useContext +onlyGivenNames y204
    exact (Kept.mk' h_s)

theorem State_event_kept {s0 : State} {s : State} {b : ℕ} (h_s : Kept s0 s) :
    Kept s0 (State.event s b) := by
  unfold State.event
  exact (State_sil1_kept h_s)

theorem State_wire_kept {s0 : State} {s : State} {src : ℕ} (h_s : Kept s0 s) :
    Kept s0 (State.wire s src) := by
  unfold State.wire
  exact (Kept.mk' h_s)

theorem State_noBin_kept {s0 : State} {s : State} (h_s : Kept s0 s) :
    Kept s0 (State.noBin s) := by
  unfold State.noBin
  exact (Kept.mk' h_s)

theorem State_refuseAccess_kept {s0 : State} {s : State} (h_s : Kept s0 s) :
    Kept s0 (State.refuseAccess s) := by
  unfold State.refuseAccess
  exact (State_event_kept h_s)

theorem State_countEcc1_kept {s0 : State} {s : State} {a : ℕ} {bad : Bool} (h_s : Kept s0 s) :
    Kept s0 (State.countEcc1 s a bad) := by
  unfold State.countEcc1
  split
  · exact (State_sil1_kept h_s)
  · exact (State_sil1_kept h_s)
  · exact (State_sil1_kept h_s)
  · exact h_s

theorem State_integrity_kept {s0 : State} {s : State} (h_s : Kept s0 s) :
    Kept s0 (State.integrity s) := by
  unfold State.integrity
  exact (State_setF_kept h_s)

theorem State_setCause_kept {s0 : State} {s : State} {k : ℕ} {on : Bool} (h_s : Kept s0 s) :
    Kept s0 (State.setCause s k on) := by
  unfold State.setCause
  extract_lets -merge -useContext +onlyGivenNames y40
  exact (State_integrity_kept (State_setF_kept h_s))

theorem State_chanError_kept {s0 : State} {s : State} {a : ℕ} (h_s : Kept s0 s) :
    Kept s0 (State.chanError s a) := by
  unfold State.chanError
  extract_lets -merge -useContext +onlyGivenNames y40
  extract_lets -merge -useContext +onlyGivenNames y81
  extract_lets -merge -useContext +onlyGivenNames y122
  extract_lets -merge -useContext +onlyGivenNames y163
  extract_lets -merge -useContext +onlyGivenNames y204
  have h205 : Kept s0 y204 := (Kept.mk' h_s)
  refine Kept.ite' (fun _ => ?_) (fun _ => ?_)
  · exact h205
  · extract_lets -merge -useContext +onlyGivenNames y246
    have h247 : Kept s0 y246 := (State_setF_kept h205)
    exact (State_setCause_kept (State_setF_kept h247))

theorem State_countEcc_kept {s0 : State} {s : State} {a : ℕ} {bad : Bool} (h_s : Kept s0 s) :
    Kept s0 (State.countEcc s a bad) := by
  unfold State.countEcc
  extract_lets -merge -useContext +onlyGivenNames y40
  have h41 : Kept s0 y40 := (State_countEcc1_kept h_s)
  refine Kept.ite' (fun _ => ?_) (fun _ => ?_)
  · extract_lets -merge -useContext +onlyGivenNames y82
    have h83 : Kept s0 y82 := (State_chanError_kept h41)
    exact (Kept.mk' h83)
  · exact h41

theorem State_send_kept {s0 : State} {s : State} {m : Msg} (h_s : Kept s0 s) :
    Kept s0 (State.send s m) := by
  unfold State.send
  exact (Kept.mk' h_s)

theorem State_dropMsg_kept {s0 : State} {s : State} {n : ℕ} (h_s : Kept s0 s) :
    Kept s0 (State.dropMsg s n) := by
  unfold State.dropMsg
  exact (Kept.mk' h_s)

theorem State_jobCount_kept {s0 : State} {s : State} {j : ℕ} {o : ℕ} (h_s : Kept s0 s) :
    Kept s0 (State.jobCount s j o) := by
  unfold State.jobCount
  exact (State_setF_kept h_s)

theorem State_endItem_kept {s0 : State} {s : State} {u : ℕ} {status : ℕ} {fill : Cpl → Cpl} (h_s : Kept s0 s) :
    Kept s0 (State.endItem s u status fill) := by
  unfold State.endItem
  extract_lets -merge -useContext +onlyGivenNames y40
  extract_lets -merge -useContext +onlyGivenNames y81
  split
  · exact h_s
  · exact (State_setUnit_kept h_s)

theorem State_cellError_kept {s0 : State} {s : State} {c : ℕ} {code : ℕ} {st : Strm} {off : ℕ} (h_s : Kept s0 s) :
    Kept s0 (State.cellError s c code st off) := by
  unfold State.cellError
  refine Kept.ite' (fun _ => ?_) (fun _ => ?_)
  · exact (State_event_kept h_s)
  · refine Kept.ite' (fun _ => ?_) (fun _ => ?_)
    · exact h_s
    · extract_lets -merge -useContext +onlyGivenNames y40
      have h41 : Kept s0 y40 := (State_setF_kept h_s)
      extract_lets -merge -useContext +onlyGivenNames y82
      have h83 : Kept s0 y82 := (State_setF_kept h41)
      extract_lets -merge -useContext +onlyGivenNames y124
      have h125 : Kept s0 y124 := (State_setUnitState_kept h83)
      extract_lets -merge -useContext +onlyGivenNames y166
      have h167 : Kept s0 y166 := (Kept.ite (State_refuseAccess_kept h125) (Kept.ite (State_countEcc_kept h125) h125))
      exact (State_endItem_kept h167)

theorem State_raise_kept {s0 : State} {s : State} {c : ℕ} {f : Flags} (h_s : Kept s0 s) :
    Kept s0 (State.raise s c f) := by
  unfold State.raise
  extract_lets -merge -useContext +onlyGivenNames y40
  have h41 : Kept s0 y40 := (Kept.ite (State_setF_kept h_s) h_s)
  extract_lets -merge -useContext +onlyGivenNames y82
  have h83 : Kept s0 y82 := (Kept.ite (State_setF_kept h41) h41)
  extract_lets -merge -useContext +onlyGivenNames y124
  have h125 : Kept s0 y124 := (Kept.ite (State_setF_kept h83) h83)
  extract_lets -merge -useContext +onlyGivenNames y166
  have h167 : Kept s0 y166 := (Kept.ite (State_setF_kept h125) h125)
  exact (Kept.ite (State_setF_kept h167) h167)

theorem State_post_kept {s0 : State} {s : State} {c : ℕ} {t : ℕ} (h_s : Kept s0 s) :
    Kept s0 (State.post s c t) := by
  unfold State.post
  extract_lets -merge -useContext +onlyGivenNames y40
  exact (State_setCell_kept h_s)

theorem State_countLast_kept {s0 : State} {s : State} {slot : ℕ} (h_s : Kept s0 s) :
    Kept s0 (State.countLast s slot) := by
  unfold State.countLast
  extract_lets -merge -useContext +onlyGivenNames y40
  refine Kept.ite' (fun _ => ?_) (fun _ => ?_)
  · exact h_s
  · split
    · exact (Kept.ite (State_jobCount_kept h_s) h_s)
    · exact h_s

theorem State_endWaits_kept {s0 : State} {s : State} {b : ℕ} {w : BarWait} (h_s : Kept s0 s) :
    Kept s0 (State.endWaits s b w) := by
  unfold State.endWaits
  extract_lets -merge -useContext +onlyGivenNames y40
  have h41 : Kept s0 y40 := (Kept.foldl h_s (fun x42 x44 h43 => (by
    extract_lets -merge -useContext +onlyGivenNames y85
    exact (Kept.ite (State_setCell_kept h43) h43))))
  exact (Kept.foldl h41 (fun x86 x88 h87 => (by
    extract_lets -merge -useContext +onlyGivenNames y129
    exact (State_setUnit_kept h87))))

theorem State_barComplete_kept {s0 : State} {s : State} {b : ℕ} {slot : ℕ} (h_s : Kept s0 s) :
    Kept s0 (State.barComplete s b slot) := by
  unfold State.barComplete
  extract_lets -merge -useContext +onlyGivenNames y40
  extract_lets -merge -useContext +onlyGivenNames y81
  have h82 : Kept s0 y81 := (State_setBarrier_kept h_s)
  extract_lets -merge -useContext +onlyGivenNames y123
  have h124 : Kept s0 y123 := (Kept.ite h82 (State_countLast_kept (State_sil1_kept h82)))
  exact (State_endWaits_kept h124)

theorem State_barEnter_kept {s0 : State} {s : State} {b : ℕ} {slot : ℕ} (h_s : Kept s0 s) :
    Kept s0 (State.barEnter s b slot) := by
  unfold State.barEnter
  extract_lets -merge -useContext +onlyGivenNames y40
  extract_lets -merge -useContext +onlyGivenNames y81
  extract_lets -merge -useContext +onlyGivenNames y122
  have h123 : Kept s0 y122 := (State_setBarrier_kept h_s)
  exact (Kept.ite (State_barComplete_kept h123) h123)

theorem State_barHeld_kept {s0 s : State} {n b : Nat} (h : Kept s0 s) : Kept s0 (State.barHeld n s b) := by
  induction n generalizing s with
  | zero => exact h
  | succ n ih =>
    unfold State.barHeld
    extract_lets x
    split
    · exact h
    · exact ih (State_barEnter_kept (State_setBarrier_kept h))

theorem State_arrive_kept {s0 : State} {s : State} {b : ℕ} {slot : ℕ} {p : ℕ} (h_s : Kept s0 s) :
    Kept s0 (State.arrive s b slot p).1 := by
  unfold State.arrive
  extract_lets -merge -useContext +onlyGivenNames y40
  refine Kept1.ite' (fun _ => ?_) (fun _ => ?_)
  · exact h_s
  · refine Kept1.ite' (fun _ => ?_) (fun _ => ?_)
    · exact h_s
    · refine Kept1.ite' (fun _ => ?_) (fun _ => ?_)
      · exact (State_setBarrier_kept h_s)
      · extract_lets -merge -useContext +onlyGivenNames y81
        have h82 : Kept s0 y81 := (State_barEnter_kept h_s)
        exact (State_barHeld_kept h82)

theorem State_barError_kept {s0 : State} {s : State} {c : ℕ} (h_s : Kept s0 s) :
    Kept s0 (State.barError s c) := by
  unfold State.barError
  extract_lets -merge -useContext +onlyGivenNames y40
  split
  · exact (Kept.ite (State_cellError_kept (State_setCell_kept h_s)) h_s)
  · exact h_s

theorem State_barBreak_kept {s0 : State} {s : State} {b : ℕ} (h_s : Kept s0 s) :
    Kept s0 (State.barBreak s b) := by
  unfold State.barBreak
  extract_lets -merge -useContext +onlyGivenNames y40
  extract_lets -merge -useContext +onlyGivenNames y81
  have h82 : Kept s0 y81 := (State_setBarrier_kept h_s)
  extract_lets -merge -useContext +onlyGivenNames y123
  have h124 : Kept s0 y123 := (Kept.foldl h82 (fun x125 x127 h126 => (Kept.ite (State_setF_kept h126) h126)))
  exact (Kept.foldl (State_endWaits_kept h124) (fun x128 x130 h129 => (State_barError_kept h129)))

theorem State_fallback_kept {s0 : State} {s : State} {b : ℕ} (h_s : Kept s0 s) :
    Kept s0 (State.fallback s b) := by
  unfold State.fallback
  extract_lets -merge -useContext +onlyGivenNames y40
  have h41 : Kept s0 y40 := (State_sil1_kept h_s)
  exact (Kept.ite (State_countEcc_kept h41) h41)

theorem State_readEffect_kept {s0 : State} {s : State} {point : ℕ} {p : ℕ} {a : ℕ} {n : ℕ} (h_s : Kept s0 s) :
    Kept s0 (State.readEffect s point p a n) := by
  unfold State.readEffect
  exact (Kept.foldl h_s (fun x0 x2 h1 => (by
    split
    · refine Kept.ite' (fun _ => ?_) (fun _ => ?_)
      · split
        · refine Kept.ite' (fun _ => ?_) (fun _ => ?_)
          · exact h1
          · extract_lets -merge -useContext +onlyGivenNames y47
            have h48 : Kept s0 y47 := (State_fallback_kept h1)
            refine Kept.ite' (fun _ => ?_) (fun _ => ?_)
            · extract_lets -merge -useContext +onlyGivenNames y89
              exact (State_store_kept h48)
            · exact h48
        · exact h1
      · exact h1)))

theorem State_takeOut_kept {s0 : State} {s : State} {a : ℕ} (h_s : Kept s0 s) :
    Kept s0 (State.takeOut s a) := by
  unfold State.takeOut
  split
  · extract_lets -merge -useContext +onlyGivenNames y42
    have h43 : Kept s0 y42 := (State_dirChange_kept (State_setUnitState_kept h_s))
    exact (Kept.mk' h43)
  · extract_lets -merge -useContext +onlyGivenNames y86
    have h87 : Kept s0 y86 := (State_dirChange_kept (State_setF_kept h_s))
    exact (Kept.mk' h87)
  · exact h_s

theorem State_correct_kept {s0 : State} {s : State} {w : ℕ} (h_s : Kept s0 s) :
    Kept s0 (State.correct s w) := by
  unfold State.correct
  extract_lets -merge -useContext +onlyGivenNames y40
  extract_lets -merge -useContext +onlyGivenNames y81
  have h82 : Kept s0 y81 := (State_countEcc_kept h_s)
  split
  · exact (Kept.ite (State_takeOut_kept h82) (Kept.mk' h82))
  · exact (Kept.ite (State_takeOut_kept h82) (Kept.mk' h82))
  · exact h82

theorem State_noteRead_kept {s0 : State} {s : State} {point : ℕ} {p : ℕ} {a : ℕ} {n : ℕ} (h_s : Kept s0 s) :
    Kept s0 (State.noteRead s point p a n) := by
  unfold State.noteRead
  exact (Kept.foldl (State_readEffect_kept h_s) (fun x0 x2 h1 => (by
    split
    · exact (State_correct_kept h1))))

theorem State_correctIn_kept {s0 : State} {s : State} {a : ℕ} {n : ℕ} (h_s : Kept s0 s) :
    Kept s0 (State.correctIn s a n) := by
  unfold State.correctIn
  exact (Kept.foldl h_s (fun x0 x2 h1 => (by
    split
    · exact (State_correct_kept h1))))

theorem State_writeWords_kept {s0 : State} {s : State} {a : ℕ} {bs : List Byte} (h_s : Kept s0 s) :
    Kept s0 (State.writeWords s a bs).1 := by
  unfold State.writeWords
  beta_reduce
  split
  · rename_i z0 z1 z2 e3
    have h4 : Kept s0 z0 := Kept1.ofEq e3 (Kept1.foldl h_s (fun x5 x7 h6 => (by
      split
      · rename_i z8 z9 z10
        have h11 : Kept s0 z8 := h6
        extract_lets -merge -useContext +onlyGivenNames y52
        extract_lets -merge -useContext +onlyGivenNames y93
        extract_lets -merge -useContext +onlyGivenNames y134
        refine Kept1.ite' (fun _ => ?_) (fun _ => ?_)
        · exact (State_store_kept h11)
        · exact (Kept1.ite h11 (State_eccClear_kept (State_store_kept (State_correctIn_kept h11)))))))
    exact h4

theorem State_writeLine_kept {s0 : State} {s : State} {point : ℕ} {p : ℕ} {b : ℕ} {here : List Byte} (h_s : Kept s0 s) :
    Kept s0 (State.writeLine s point p b here).1 := by
  unfold State.writeLine
  extract_lets -merge -useContext +onlyGivenNames y40
  extract_lets -merge -useContext +onlyGivenNames y81
  extract_lets -merge -useContext +onlyGivenNames y122
  extract_lets -merge -useContext +onlyGivenNames y163
  have h164 : ∀ u167, Kept s0 u167 → Kept s0 (y163 u167) := (fun x165 h166 => (Kept.mk' h166))
  refine Kept1.ite' (fun _ => ?_) (fun _ => ?_)
  · exact h_s
  · refine Kept1.ite' (fun _ => ?_) (fun _ => ?_)
    · exact (h164 _ (Kept.foldl h_s (fun x168 x170 h169 => (State_store_kept h169))))
    · split
      · exact h_s
      · extract_lets -merge -useContext +onlyGivenNames y215
        extract_lets -merge -useContext +onlyGivenNames y256
        extract_lets -merge -useContext +onlyGivenNames y297
        extract_lets -merge -useContext +onlyGivenNames y338
        have h339 : Kept s0 y338 := (Kept.ite h_s (State_fallback_kept h_s))
        extract_lets -merge -useContext +onlyGivenNames y380
        have h381 : Kept s0 y380 := (State_correctIn_kept h339)
        exact (h164 _ (Kept.foldl h381 (fun x382 x384 h383 => (Kept.ite (State_eccClear_kept (State_store_kept h383)) (State_store_kept h383)))))

theorem State_writeMem_kept {s0 : State} {s : State} {point : ℕ} {p : ℕ} {a : ℕ} {bs : List Byte} (h_s : Kept s0 s) :
    Kept s0 (State.writeMem s point p a bs).1 := by
  unfold State.writeMem
  split
  · beta_reduce
    split
    · rename_i z2 z3 z4 e5
      have h6 : Kept s0 z2 := Kept1.ofEq e5 (Kept1.foldl h_s (fun x7 x9 h8 => (by
        split
        · rename_i z10 z11 z12
          have h13 : Kept s0 z10 := h8
          split
          · rename_i z14 z15 e16
            have h17 : Kept s0 z14 := Kept1.ofEq e16 (State_writeLine_kept h13)
            exact h17)))
      exact h6
  · exact (State_writeWords_kept h_s)

theorem State_issueWrites_kept {s0 : State} {s : State} {c : ℕ} {ins : ℕ} {dst : ℕ} {a : ℕ} {bs : List Byte} (h_s : Kept s0 s) :
    Kept s0 (State.issueWrites s c ins dst a bs) := by
  unfold State.issueWrites
  beta_reduce
  split
  · rename_i z0 z1 e2
    have h3 : Kept s0 z0 := Kept1.ofEq e2 (Kept1.foldl h_s (fun x4 x6 h5 => (by
      split
      · rename_i z7 z8
        have h9 : Kept s0 z7 := h5
        extract_lets -merge -useContext +onlyGivenNames y50
        extract_lets -merge -useContext +onlyGivenNames y91
        have h92 : Kept s0 y91 := (Kept.ite (State_setF_kept h9) h9)
        exact (State_send_kept h92))))
    exact h3

theorem State_withDescs_kept {s0 : State} {s : State} {e : QEntry} (h_s : Kept s0 s) :
    Kept s0 (State.withDescs s e) := by
  unfold State.withDescs
  exact (Kept.foldl h_s (fun x0 x2 h1 => (by
    split
    · exact (State_store_kept h1))))

theorem State_noteSeg_kept {s0 : State} {s : State} {c : ℕ} {d : Desc} {r : ℕ} {i0 : ℕ} {n : ℕ} (h_s : Kept s0 s) :
    Kept s0 (State.noteSeg s c d r i0 n) := by
  unfold State.noteSeg
  extract_lets -merge -useContext +onlyGivenNames y40
  extract_lets -merge -useContext +onlyGivenNames y81
  have h82 : Kept s0 y81 := (State_noteRead_kept h_s)
  exact (Kept.ite h82 (State_noteRead_kept h82))

theorem State_cellWrite_kept {s0 : State} {s : State} {c : ℕ} {ins : ℕ} {a : ℕ} {bs : List Byte} (h_s : Kept s0 s) :
    Kept s0 (State.cellWrite s c ins a bs).1 := by
  unfold State.cellWrite
  split
  · exact (Kept1.ite (State_writeMem_kept h_s) (State_issueWrites_kept h_s))
  · exact (State_issueWrites_kept h_s)
  · exact (State_writeMem_kept h_s)

theorem State_writeSeg_kept {s0 : State} {s : State} {c : ℕ} {ins : ℕ} {d : Desc} {r : ℕ} {i0 : ℕ} {x : Row} (h_s : Kept s0 s) :
    Kept s0 (State.writeSeg s c ins d r i0 x).1 := by
  unfold State.writeSeg
  split
  · rename_i z0 z1 e2
    have h3 : Kept s0 z0 := Kept1.ofEq e2 (State_cellWrite_kept h_s)
    refine Kept1.ite' (fun _ => ?_) (fun _ => ?_)
    · exact h3
    · split
      · rename_i z4 z5 e6
        have h7 : Kept s0 z4 := Kept1.ofEq e6 (State_cellWrite_kept h3)
        exact h7

theorem State_writeSegs_kept {s0 : State} {s : State} {c : ℕ} {ins : ℕ} {d : Desc} {l : List (ℕ × ℕ × Row)} (h_s : Kept s0 s) :
    Kept s0 (State.writeSegs s c ins d l).1 := by
  unfold State.writeSegs
  exact (Kept1.foldl h_s (fun x0 x2 h1 => (by
    split
    · rename_i z3 z4
      have h5 : Kept s0 z3 := h1
      split
      · rename_i z6 z7 e8
        have h9 : Kept s0 z6 := Kept1.ofEq e8 (State_writeSeg_kept h5)
        exact h9)))

theorem State_copyRuns_kept {s0 : State} {s : State} {c : ℕ} {ins : ℕ} {rc : Reach} {l : List (ℕ × ℕ × ℕ)} (h_s : Kept s0 s) :
    KeptEx1 s0 (State.copyRuns s c ins rc l) := by
  unfold State.copyRuns
  exact (KeptEx1.bindN (fun x0 => (by
    extract_lets -merge -useContext +onlyGivenNames y41
    have h42 : Kept s0 y41 := (Kept.foldl h_s (fun x43 x45 h44 => (by
      split
      · exact (State_noteRead_kept h44))))
    exact (KeptEx1.ok (Kept1.foldl h42 (fun x49 x51 h50 => (by
      split
      · rename_i z52 z53 e54
        have h55 : Kept s0 z52 := Kept1.ofEq e54 (State_cellWrite_kept h50)
        exact h55)))))))

theorem State_noteTaps_kept {s0 : State} {s : State} {c : ℕ} {src : Desc} {l : List Tap} (h_s : Kept s0 s) :
    Kept s0 (State.noteTaps s c src l) := by
  unfold State.noteTaps
  exact (Kept.foldl h_s (fun x0 x2 h1 => (by
    split
    · exact (State_noteSeg_kept h1)
    · exact h1)))

theorem State_loadImage_kept {s0 : State} {s : State} {c : ℕ} {rd : ℕ → ℕ → ℕ} {st : ℕ} (h_s : Kept s0 s) :
    Kept s0 (State.loadImage s c rd st) := by
  unfold State.loadImage
  extract_lets -merge -useContext +onlyGivenNames y40
  have h41 : Kept s0 y40 := (State_setCell_kept h_s)
  extract_lets -merge -useContext +onlyGivenNames y82
  have h83 : Kept s0 y82 := (State_setF_kept h41)
  extract_lets -merge -useContext +onlyGivenNames y124
  have h125 : Kept s0 y124 := (State_setF_kept h83)
  extract_lets -merge -useContext +onlyGivenNames y166
  have h167 : Kept s0 y166 := (State_setF_kept h125)
  extract_lets -merge -useContext +onlyGivenNames y208
  extract_lets -merge -useContext +onlyGivenNames y249
  have h250 : Kept s0 y249 := (State_setF_kept h167)
  extract_lets -merge -useContext +onlyGivenNames y291
  have h292 : Kept s0 y291 := (State_setF_kept h250)
  extract_lets -merge -useContext +onlyGivenNames y333
  have h334 : Kept s0 y333 := (State_setF_kept h292)
  extract_lets -merge -useContext +onlyGivenNames y375
  have h376 : Kept s0 y375 := (State_setF_kept h334)
  extract_lets -merge -useContext +onlyGivenNames y417
  have h418 : Kept s0 y417 := (State_setF_kept h376)
  exact (State_setUnitState_kept h418)

theorem State_qDrop_kept {s0 : State} {s : State} {q : ℕ} (h_s : Kept s0 s) :
    Kept s0 (State.qDrop s q) := by
  unfold State.qDrop
  exact (State_event_kept (State_setF_kept h_s))

theorem State_qAppend_kept {s0 : State} {s : State} {q : ℕ} {bs : List ℕ} {island : Bool} (h_s : Kept s0 s) :
    Kept s0 (State.qAppend s q bs island) := by
  unfold State.qAppend
  extract_lets -merge -useContext +onlyGivenNames y40
  split
  · rename_i z41 z42 e43
    have h44 : Kept s0 z41 := Kept1.ofEq e43 (State_writeMem_kept h_s)
    extract_lets -merge -useContext +onlyGivenNames y85
    have h86 : Kept s0 y85 := (State_setF_kept h44)
    exact (Kept.mk' h86)

theorem State_pushHere_kept {s0 : State} {s : State} {q : ℕ} {bs : List ℕ} {a0 : Pusher} (h_s : Kept s0 s) :
    Kept s0 (State.pushHere s q bs a0).1 := by
  unfold State.pushHere
  split
  · refine Kept1.ite' (fun _ => ?_) (fun _ => ?_)
    · exact h_s
    · refine Kept1.ite' (fun _ => ?_) (fun _ => ?_)
      · exact (State_qDrop_kept h_s)
      · exact (Kept1.ite h_s (State_qAppend_kept h_s))
  · refine Kept1.ite' (fun _ => ?_) (fun _ => ?_)
    · exact (State_refuseAccess_kept h_s)
    · exact (Kept1.ite (State_qDrop_kept h_s) (State_qAppend_kept h_s))
  · exact (Kept1.ite (State_qDrop_kept h_s) (State_qAppend_kept h_s))

theorem State_push_kept {s0 : State} {s : State} {q : ℕ} {bs : List ℕ} {by_ : Pusher} (h_s : Kept s0 s) :
    Kept s0 (State.push s q bs by_).1 := by
  unfold State.push
  refine Kept1.ite' (fun _ => ?_) (fun _ => ?_)
  · extract_lets -merge -useContext +onlyGivenNames y40
    exact (Kept1.ite (State_qDrop_kept h_s) (State_pushHere_kept h_s))
  · exact (State_pushHere_kept h_s)

theorem State_msi_kept {s0 : State} {s : State} {hart : ℕ} {file : ℕ} {id : ℕ} (h_s : Kept s0 s) :
    Kept s0 (State.msi s hart file id) := by
  unfold State.msi
  refine Kept.ite' (fun _ => ?_) (fun _ => ?_)
  · exact h_s
  · exact (Kept.ite h_s (Kept.mk' h_s))

theorem State_cqInterrupt_kept {s0 : State} {s : State} {q : ℕ} (h_s : Kept s0 s) :
    Kept s0 (State.cqInterrupt s q) := by
  unfold State.cqInterrupt
  refine Kept.ite' (fun _ => ?_) (fun _ => ?_)
  · split
    · exact (State_msi_kept h_s)
    · exact h_s
  · exact h_s

theorem State_pushCq_kept {s0 s : State} {q : Nat} {bs : List Nat} {by_ : Pusher} (h : Kept s0 s) : Kept s0 (s.pushCq q bs by_) := by
  unfold State.pushCq
  have g : Kept s0 (s.push q bs by_).1 := State_push_kept h
  split
  · rename_i e; rw [e] at g; exact State_cqInterrupt_kept g
  · rename_i e; rw [e] at g; exact g

theorem State_cplCount_kept {s0 : State} {s : State} {p : Cpl} {late : Bool} (h_s : Kept s0 s) :
    Kept s0 (State.cplCount s p late) := by
  unfold State.cplCount
  extract_lets -merge -useContext +onlyGivenNames y40
  extract_lets -merge -useContext +onlyGivenNames y81
  have h82 : Kept s0 y81 := (Kept.ite (State_event_kept h_s) h_s)
  extract_lets -merge -useContext +onlyGivenNames y123
  have h124 : Kept s0 y123 := (Kept.ite (State_event_kept h82) h82)
  extract_lets -merge -useContext +onlyGivenNames y165
  have h166 : Kept s0 y165 := (Kept.ite (State_event_kept h124) h124)
  refine Kept.ite' (fun _ => ?_) (fun _ => ?_)
  · exact h166
  · extract_lets -merge -useContext +onlyGivenNames y207
    extract_lets -merge -useContext +onlyGivenNames y248
    have h249 : Kept s0 y248 := (State_jobCount_kept h166)
    extract_lets -merge -useContext +onlyGivenNames y290
    have h291 : Kept s0 y290 := (Kept.ite (State_jobCount_kept h249) h249)
    exact (Kept.ite (State_jobCount_kept h291) h291)

theorem State_postCpl_kept {s0 : State} {s : State} {u : ℕ} {p : Cpl} (h_s : Kept s0 s) :
    Kept s0 (State.postCpl s u p) := by
  unfold State.postCpl
  extract_lets -merge -useContext +onlyGivenNames y40
  extract_lets -merge -useContext +onlyGivenNames y81
  have h82 : Kept s0 y81 := (State_cplCount_kept h_s)
  extract_lets -merge -useContext +onlyGivenNames y123
  extract_lets -merge -useContext +onlyGivenNames y164
  have h165 : Kept s0 y164 := (Kept.ite h82 (Kept.ite (State_pushCq_kept h82) (State_event_kept h82)))
  exact (State_setF_kept h165)

end Sys2Proof.Machine
end

