-- ==== Sys2Proof/Laws/KeptCells.lean ====
section
/-! SUPPORT. `Kept` for the operations of cells and windows: one lemma for each. -/

namespace Sys2Proof.Machine

theorem runSteps_kept {s0 s : State} {f : State → Nat → Except Nat (State × Nat)} {n k : Nat}
    (hf : ∀ s k, Kept s0 s → KeptEx1 s0 (f s k)) (h : Kept s0 s) : Kept s0 (runSteps f n s k).1 := by
  induction n generalizing s k with
  | zero => exact h
  | succ n ih =>
    unfold runSteps
    split
    · exact h
    · rename_i s' e
      exact ih (hf _ _ h _ e)
    · rename_i s' e _ er
      exact hf _ _ h _ er

theorem State_fetchCount_kept {s0 : State} {s : State} {c : ℕ} (h_s : Kept s0 s) :
    Kept s0 (State.fetchCount s c) := by
  unfold State.fetchCount
  extract_lets -merge -useContext +onlyGivenNames y40
  split
  · extract_lets -merge -useContext +onlyGivenNames y83
    have h84 : Kept s0 y83 := (State_event_kept h_s)
    exact (Kept.mk' h84)
  · exact (State_event_kept h_s)
  · exact h_s

theorem State_feAdvanceTo_kept {s0 : State} {s : State} {c : ℕ} {off : ℕ} {next : ℕ} (h_s : Kept s0 s) :
    Kept s0 (State.feAdvanceTo s c off next) := by
  unfold State.feAdvanceTo
  extract_lets -merge -useContext +onlyGivenNames y40
  split
  · exact (State_setCell_kept h_s)

theorem State_feAdvance_kept {s0 : State} {s : State} {c : ℕ} {off : ℕ} (h_s : Kept s0 s) :
    Kept s0 (State.feAdvance s c off) := by
  unfold State.feAdvance
  exact (State_feAdvanceTo_kept h_s)

theorem State_fePost_kept {s0 : State} {s : State} {c : ℕ} {tok : ℕ} {off : ℕ} (h_s : Kept s0 s) :
    Kept s0 (State.fePost s c tok off) := by
  unfold State.fePost
  extract_lets -merge -useContext +onlyGivenNames y40
  exact (Kept.ite (State_post_kept h_s) (State_setCell_kept h_s))

theorem State_fePostOf_kept {s0 : State} {s : State} {c : ℕ} {w : ℕ} {off : ℕ} (h_s : Kept s0 s) :
    Kept s0 (State.fePostOf s c w off) := by
  unfold State.fePostOf
  exact (Kept.ite (State_fePost_kept h_s) h_s)

theorem State_takeTok_kept {s0 : State} {s : State} {c : ℕ} {w : ℕ} (h_s : Kept s0 s) :
    Kept s0 (State.takeTok s c w) := by
  unfold State.takeTok
  refine Kept.ite' (fun _ => ?_) (fun _ => ?_)
  · extract_lets -merge -useContext +onlyGivenNames y40
    exact (State_setCell_kept h_s)
  · exact h_s

theorem State_front_kept {s0 : State} {s : State} {c : ℕ} {code : ℕ} {f : State → ℕ → ℕ → FeRes} (h_s : Kept s0 s) (h_f : ∀ u0 u1 u2, Kept s0 u0 → KeptFe s0 (f u0 u1 u2)) :
    Kept s0 (State.front s c code f) := by
  unfold State.front
  refine Kept.ite' (fun _ => ?_) (fun _ => ?_)
  · exact h_s
  · extract_lets -merge -useContext +onlyGivenNames y43
    extract_lets -merge -useContext +onlyGivenNames y84
    split
    · exact (State_cellError_kept (State_fetchCount_kept h_s))
    · refine Kept.ite' (fun _ => ?_) (fun _ => ?_)
      · exact h_s
      · extract_lets -merge -useContext +onlyGivenNames y129
        have h130 : Kept s0 y129 := (Kept.ite (State_takeTok_kept (State_fetchCount_kept h_s)) h_s)
        split
        · exact h_s
        · exact (State_cellError_kept h130)
        · rename_i z135 z136 e137
          have h138 : Kept s0 z135 := KeptFe.ofEq e137 (h_f _ _ _ h130)
          exact (State_cellError_kept h138)
        · rename_i z139 e140
          have h141 : Kept s0 z139 := KeptFe.ofEq e140 (h_f _ _ _ h130)
          exact (State_fePostOf_kept (State_progress_kept (State_feAdvance_kept h141)))
        · rename_i z142 z143 e144
          have h145 : Kept s0 z142 := KeptFe.ofEq e144 (h_f _ _ _ h130)
          exact (State_fePostOf_kept (State_progress_kept (State_feAdvanceTo_kept h145)))
        · rename_i z146 e147
          have h148 : Kept s0 z146 := KeptFe.ofEq e147 (h_f _ _ _ h130)
          exact (State_progress_kept h148)

theorem execNop_kept {s0 : State} {c : ℕ} {s : State} (h_s : Kept s0 s) :
    KeptNext s0 (execNop c s) := by
  unfold execNop
  exact (KeptNext.next (State_front_kept h_s (fun x0 x2 x3 h1 => (KeptFe.next h1))))

theorem feLoop_kept {s0 : State} {c : ℕ} {s : State} {w : ℕ} {off : ℕ} (h_s : Kept s0 s) :
    KeptFe s0 (feLoop c s w off) := by
  unfold feLoop
  extract_lets -merge -useContext +onlyGivenNames y40
  extract_lets -merge -useContext +onlyGivenNames y81
  extract_lets -merge -useContext +onlyGivenNames y122
  refine KeptFe.ite' (fun _ => ?_) (fun _ => ?_)
  · exact trivial
  · refine KeptFe.ite' (fun _ => ?_) (fun _ => ?_)
    · exact (KeptFe.jump h_s)
    · exact (KeptFe.ite trivial (KeptFe.jump (State_setCell_kept h_s)))

theorem execLoop_kept {s0 : State} {c : ℕ} {s : State} (h_s : Kept s0 s) :
    KeptNext s0 (execLoop c s) := by
  unfold execLoop
  exact (KeptNext.next (State_front_kept h_s (fun x0 x2 x3 h1 => (feLoop_kept h1))))

theorem feBr_kept {s0 : State} {c : ℕ} {s : State} {w : ℕ} {off : ℕ} (h_s : Kept s0 s) :
    KeptFe s0 (feBr c s w off) := by
  unfold feBr
  extract_lets -merge -useContext +onlyGivenNames y40
  refine KeptFe.ite' (fun _ => ?_) (fun _ => ?_)
  · extract_lets -merge -useContext +onlyGivenNames y81
    exact (KeptFe.ite trivial (KeptFe.jump (State_setCell_kept h_s)))
  · exact (KeptFe.next h_s)

theorem execBr_kept {s0 : State} {c : ℕ} {s : State} (h_s : Kept s0 s) :
    KeptNext s0 (execBr c s) := by
  unfold execBr
  exact (KeptNext.next (State_front_kept h_s (fun x0 x2 x3 h1 => (feBr_kept h1))))

theorem feCall_kept {s0 : State} {c : ℕ} {s : State} {w : ℕ} {off : ℕ} (h_s : Kept s0 s) :
    KeptFe s0 (feCall c s w off) := by
  unfold feCall
  extract_lets -merge -useContext +onlyGivenNames y40
  extract_lets -merge -useContext +onlyGivenNames y81
  exact (KeptFe.ite trivial (KeptFe.jump (State_setCell_kept h_s)))

theorem execCall_kept {s0 : State} {c : ℕ} {s : State} (h_s : Kept s0 s) :
    KeptNext s0 (execCall c s) := by
  unfold execCall
  exact (KeptNext.next (State_front_kept h_s (fun x0 x2 x3 h1 => (feCall_kept h1))))

theorem feRet_kept {s0 : State} {c : ℕ} {s : State} {a0 : ℕ} {a1 : ℕ} (h_s : Kept s0 s) :
    KeptFe s0 (feRet c s a0 a1) := by
  unfold feRet
  extract_lets -merge -useContext +onlyGivenNames y42
  split
  · exact trivial
  · exact (KeptFe.jump (State_setCell_kept h_s))

theorem execRet_kept {s0 : State} {c : ℕ} {s : State} (h_s : Kept s0 s) :
    KeptNext s0 (execRet c s) := by
  unfold execRet
  exact (KeptNext.next (State_front_kept h_s (fun x0 x2 x3 h1 => (feRet_kept h1))))

theorem feWait_kept {s0 : State} {c : ℕ} {s : State} {w : ℕ} {a0 : ℕ} (h_s : Kept s0 s) :
    KeptFe s0 (feWait c s w a0) := by
  unfold feWait
  extract_lets -merge -useContext +onlyGivenNames y41
  extract_lets -merge -useContext +onlyGivenNames y82
  exact (KeptFe.ite trivial (KeptFe.next (State_setCell_kept h_s)))

theorem execWait_kept {s0 : State} {c : ℕ} {s : State} (h_s : Kept s0 s) :
    KeptNext s0 (execWait c s) := by
  unfold execWait
  exact (KeptNext.next (State_front_kept h_s (fun x0 x2 x3 h1 => (feWait_kept h1))))

theorem fePostK_kept {s0 : State} {c : ℕ} {s : State} {w : ℕ} {off : ℕ} (h_s : Kept s0 s) :
    KeptFe s0 (fePostK c s w off) := by
  unfold fePostK
  exact (KeptFe.next (State_fePost_kept h_s))

theorem execPost_kept {s0 : State} {c : ℕ} {s : State} (h_s : Kept s0 s) :
    KeptNext s0 (execPost c s) := by
  unfold execPost
  exact (KeptNext.next (State_front_kept h_s (fun x0 x2 x3 h1 => (fePostK_kept h1))))

theorem feBar_kept {s0 : State} {c : ℕ} {s : State} {w : ℕ} {off : ℕ} (h_s : Kept s0 s) :
    KeptFe s0 (feBar c s w off) := by
  unfold feBar
  refine KeptFe.ite' (fun _ => ?_) (fun _ => ?_)
  · exact trivial
  · extract_lets -merge -useContext +onlyGivenNames y40
    split
    · rename_i z41 e42
      have h43 : Kept s0 z41 := Kept1.ofEq e42 (State_arrive_kept (State_setCell_kept h_s))
      exact trivial
    · rename_i z44 e45
      have h46 : Kept s0 z44 := Kept1.ofEq e45 (State_arrive_kept (State_setCell_kept h_s))
      exact trivial
    · rename_i z47 e48
      have h49 : Kept s0 z47 := Kept1.ofEq e48 (State_arrive_kept (State_setCell_kept h_s))
      exact (KeptFe.next h49)

theorem execBar_kept {s0 : State} {c : ℕ} {s : State} (h_s : Kept s0 s) :
    KeptNext s0 (execBar c s) := by
  unfold execBar
  exact (KeptNext.next (State_front_kept h_s (fun x0 x2 x3 h1 => (feBar_kept h1))))

theorem barRelease_kept {s0 : State} {c : ℕ} {s : State} (h_s : Kept s0 s) :
    Kept s0 (barRelease c s) := by
  unfold barRelease
  extract_lets -merge -useContext +onlyGivenNames y40
  split
  · exact (Kept.ite (State_setCell_kept h_s) h_s)
  · exact (State_barError_kept h_s)

theorem execBarrierRelease_kept {s0 : State} {c : ℕ} {s : State} (h_s : Kept s0 s) :
    KeptNext s0 (execBarrierRelease c s) := by
  unfold execBarrierRelease
  exact (KeptNext.next (barRelease_kept h_s))

theorem scalarR_kept {s0 : State} {c : ℕ} {o : ℕ} {f : Word → Word → Word} {s : State} (h_s : Kept s0 s) :
    Kept s0 (scalarR c o f s) := by
  unfold scalarR
  exact (State_front_kept h_s (fun x0 x2 x3 h1 => (by
    extract_lets -merge -useContext +onlyGivenNames y44
    exact (KeptFe.next (State_setCell_kept h1)))))

theorem scalarI_kept {s0 : State} {c : ℕ} {o : ℕ} {f : Word → Word → Word} {s : State} (h_s : Kept s0 s) :
    Kept s0 (scalarI c o f s) := by
  unfold scalarI
  exact (State_front_kept h_s (fun x0 x2 x3 h1 => (by
    extract_lets -merge -useContext +onlyGivenNames y44
    exact (KeptFe.next (State_setCell_kept h1)))))

theorem execSadd_kept {s0 : State} {c : ℕ} {s : State} (h_s : Kept s0 s) :
    KeptNext s0 (execSadd c s) := by
  unfold execSadd
  exact (KeptNext.next (scalarR_kept h_s))

theorem execSsub_kept {s0 : State} {c : ℕ} {s : State} (h_s : Kept s0 s) :
    KeptNext s0 (execSsub c s) := by
  unfold execSsub
  exact (KeptNext.next (scalarR_kept h_s))

theorem execSmul_kept {s0 : State} {c : ℕ} {s : State} (h_s : Kept s0 s) :
    KeptNext s0 (execSmul c s) := by
  unfold execSmul
  exact (KeptNext.next (scalarR_kept h_s))

theorem execSand_kept {s0 : State} {c : ℕ} {s : State} (h_s : Kept s0 s) :
    KeptNext s0 (execSand c s) := by
  unfold execSand
  exact (KeptNext.next (scalarR_kept h_s))

theorem execSor_kept {s0 : State} {c : ℕ} {s : State} (h_s : Kept s0 s) :
    KeptNext s0 (execSor c s) := by
  unfold execSor
  exact (KeptNext.next (scalarR_kept h_s))

theorem execSxor_kept {s0 : State} {c : ℕ} {s : State} (h_s : Kept s0 s) :
    KeptNext s0 (execSxor c s) := by
  unfold execSxor
  exact (KeptNext.next (scalarR_kept h_s))

theorem execSshl_kept {s0 : State} {c : ℕ} {s : State} (h_s : Kept s0 s) :
    KeptNext s0 (execSshl c s) := by
  unfold execSshl
  exact (KeptNext.next (scalarR_kept h_s))

theorem execSshr_kept {s0 : State} {c : ℕ} {s : State} (h_s : Kept s0 s) :
    KeptNext s0 (execSshr c s) := by
  unfold execSshr
  exact (KeptNext.next (scalarR_kept h_s))

theorem execSsra_kept {s0 : State} {c : ℕ} {s : State} (h_s : Kept s0 s) :
    KeptNext s0 (execSsra c s) := by
  unfold execSsra
  exact (KeptNext.next (scalarR_kept h_s))

theorem execSmin_kept {s0 : State} {c : ℕ} {s : State} (h_s : Kept s0 s) :
    KeptNext s0 (execSmin c s) := by
  unfold execSmin
  exact (KeptNext.next (scalarR_kept h_s))

theorem execSmax_kept {s0 : State} {c : ℕ} {s : State} (h_s : Kept s0 s) :
    KeptNext s0 (execSmax c s) := by
  unfold execSmax
  exact (KeptNext.next (scalarR_kept h_s))

theorem execSminu_kept {s0 : State} {c : ℕ} {s : State} (h_s : Kept s0 s) :
    KeptNext s0 (execSminu c s) := by
  unfold execSminu
  exact (KeptNext.next (scalarR_kept h_s))

theorem execSmaxu_kept {s0 : State} {c : ℕ} {s : State} (h_s : Kept s0 s) :
    KeptNext s0 (execSmaxu c s) := by
  unfold execSmaxu
  exact (KeptNext.next (scalarR_kept h_s))

theorem execSaddi_kept {s0 : State} {c : ℕ} {s : State} (h_s : Kept s0 s) :
    KeptNext s0 (execSaddi c s) := by
  unfold execSaddi
  exact (KeptNext.next (scalarI_kept h_s))

theorem execSandi_kept {s0 : State} {c : ℕ} {s : State} (h_s : Kept s0 s) :
    KeptNext s0 (execSandi c s) := by
  unfold execSandi
  exact (KeptNext.next (scalarI_kept h_s))

theorem execSori_kept {s0 : State} {c : ℕ} {s : State} (h_s : Kept s0 s) :
    KeptNext s0 (execSori c s) := by
  unfold execSori
  exact (KeptNext.next (scalarI_kept h_s))

theorem execSxori_kept {s0 : State} {c : ℕ} {s : State} (h_s : Kept s0 s) :
    KeptNext s0 (execSxori c s) := by
  unfold execSxori
  exact (KeptNext.next (scalarI_kept h_s))

theorem execSshli_kept {s0 : State} {c : ℕ} {s : State} (h_s : Kept s0 s) :
    KeptNext s0 (execSshli c s) := by
  unfold execSshli
  exact (KeptNext.next (scalarI_kept h_s))

theorem execSshri_kept {s0 : State} {c : ℕ} {s : State} (h_s : Kept s0 s) :
    KeptNext s0 (execSshri c s) := by
  unfold execSshri
  exact (KeptNext.next (scalarI_kept h_s))

theorem execSsrai_kept {s0 : State} {c : ℕ} {s : State} (h_s : Kept s0 s) :
    KeptNext s0 (execSsrai c s) := by
  unfold execSsrai
  exact (KeptNext.next (scalarI_kept h_s))

theorem execSli_kept {s0 : State} {c : ℕ} {s : State} (h_s : Kept s0 s) :
    KeptNext s0 (execSli c s) := by
  unfold execSli
  exact (KeptNext.next (scalarI_kept h_s))

theorem execSlui_kept {s0 : State} {c : ℕ} {s : State} (h_s : Kept s0 s) :
    KeptNext s0 (execSlui c s) := by
  unfold execSlui
  exact (KeptNext.next (scalarI_kept h_s))

theorem feAadd_kept {s0 : State} {c : ℕ} {imm : Bool} {s : State} {w : ℕ} {a0 : ℕ} (h_s : Kept s0 s) :
    KeptFe s0 (feAadd c imm s w a0) := by
  unfold feAadd
  extract_lets -merge -useContext +onlyGivenNames y41
  extract_lets -merge -useContext +onlyGivenNames y82
  split
  · exact trivial
  · exact (KeptFe.next (State_setCell_kept h_s))

theorem execAadd_kept {s0 : State} {c : ℕ} {s : State} (h_s : Kept s0 s) :
    KeptNext s0 (execAadd c s) := by
  unfold execAadd
  exact (KeptNext.next (State_front_kept h_s (fun x0 x2 x3 h1 => (feAadd_kept h1))))

theorem execAaddi_kept {s0 : State} {c : ℕ} {s : State} (h_s : Kept s0 s) :
    KeptNext s0 (execAaddi c s) := by
  unfold execAaddi
  exact (KeptNext.next (State_front_kept h_s (fun x0 x2 x3 h1 => (feAadd_kept h1))))

theorem feAmov_kept {s0 : State} {c : ℕ} {s : State} {w : ℕ} {a0 : ℕ} (h_s : Kept s0 s) :
    KeptFe s0 (feAmov c s w a0) := by
  unfold feAmov
  extract_lets -merge -useContext +onlyGivenNames y41
  exact (KeptFe.next (State_setCell_kept h_s))

theorem execAmov_kept {s0 : State} {c : ℕ} {s : State} (h_s : Kept s0 s) :
    KeptNext s0 (execAmov c s) := by
  unfold execAmov
  exact (KeptNext.next (State_front_kept h_s (fun x0 x2 x3 h1 => (feAmov_kept h1))))

theorem feSmova_kept {s0 : State} {c : ℕ} {s : State} {w : ℕ} {a0 : ℕ} (h_s : Kept s0 s) :
    KeptFe s0 (feSmova c s w a0) := by
  unfold feSmova
  extract_lets -merge -useContext +onlyGivenNames y41
  exact (KeptFe.next (State_setCell_kept h_s))

theorem execSmova_kept {s0 : State} {c : ℕ} {s : State} (h_s : Kept s0 s) :
    KeptNext s0 (execSmova c s) := by
  unfold execSmova
  exact (KeptNext.next (State_front_kept h_s (fun x0 x2 x3 h1 => (feSmova_kept h1))))

theorem feLoadWord_kept {s0 : State} {c : ℕ} {s : State} {w : ℕ} (h_s : Kept s0 s) :
    KeptEx2 s0 (feLoadWord c s w) := by
  unfold feLoadWord
  split
  · exact KeptEx2.err
  · extract_lets -merge -useContext +onlyGivenNames y44
    refine KeptEx2.ite' (fun _ => ?_) (fun _ => ?_)
    · exact KeptEx2.err
    · split
      · exact KeptEx2.err
      · exact (KeptEx2.ok (State_noteRead_kept h_s))

theorem feSld_kept {s0 : State} {c : ℕ} {s : State} {w : ℕ} {a0 : ℕ} (h_s : Kept s0 s) :
    KeptFe s0 (feSld c s w a0) := by
  unfold feSld
  split
  · exact trivial
  · rename_i z3 z4 e5
    have h6 : Kept s0 z4 := (feLoadWord_kept h_s) _ e5
    exact (KeptFe.next (State_setCell_kept h6))

theorem execSld_kept {s0 : State} {c : ℕ} {s : State} (h_s : Kept s0 s) :
    KeptNext s0 (execSld c s) := by
  unfold execSld
  exact (KeptNext.next (State_front_kept h_s (fun x0 x2 x3 h1 => (feSld_kept h1))))

theorem feAld_kept {s0 : State} {c : ℕ} {s : State} {w : ℕ} {a0 : ℕ} (h_s : Kept s0 s) :
    KeptFe s0 (feAld c s w a0) := by
  unfold feAld
  split
  · exact trivial
  · rename_i z3 z4 e5
    have h6 : Kept s0 z4 := (feLoadWord_kept h_s) _ e5
    exact (KeptFe.next (State_setCell_kept h6))

theorem execAld_kept {s0 : State} {c : ℕ} {s : State} (h_s : Kept s0 s) :
    KeptNext s0 (execAld c s) := by
  unfold execAld
  exact (KeptNext.next (State_front_kept h_s (fun x0 x2 x3 h1 => (feAld_kept h1))))

theorem feEnq_kept {s0 s : State} {c w o : Nat} (h : Kept s0 s) : KeptFe s0 (feEnq c s w o) := by
  unfold feEnq
  extract_lets +onlyGivenNames x
  split
  · trivial
  · rename_i a _
    refine KeptFe.ite trivial ?_
    split
    · trivial
    · extract_lets +onlyGivenNames q
      have g : ∀ bs, Kept s0 ((s.noteRead c (s.partOf c) a 64).push q bs (.enq (s.partOf c))).1 :=
        fun _ => State_push_kept (State_noteRead_kept h)
      split
      · trivial
      · trivial
      · rename_i e
        exact KeptFe.next (Kept1.ofEq e (g _))

theorem execEnq_kept {s0 : State} {c : ℕ} {s : State} (h_s : Kept s0 s) :
    KeptNext s0 (execEnq c s) := by
  unfold execEnq
  exact (KeptNext.next (State_front_kept h_s (fun x0 x2 x3 h1 => (feEnq_kept h1))))

theorem feHalt_kept {s0 : State} {c : ℕ} {s : State} {a0 : ℕ} {a1 : ℕ} (h_s : Kept s0 s) :
    KeptFe s0 (feHalt c s a0 a1) := by
  unfold feHalt
  refine KeptFe.ite' (fun _ => ?_) (fun _ => ?_)
  · exact trivial
  · extract_lets -merge -useContext +onlyGivenNames y42
    extract_lets -merge -useContext +onlyGivenNames y83
    extract_lets -merge -useContext +onlyGivenNames y124
    have h125 : Kept s0 y124 := (State_setUnitState_kept h_s)
    split
    · exact (KeptFe.next h125)
    · exact (KeptFe.next (State_postCpl_kept (State_setUnit_kept h125)))

theorem execHalt_kept {s0 : State} {c : ℕ} {s : State} (h_s : Kept s0 s) :
    KeptNext s0 (execHalt c s) := by
  unfold execHalt
  exact (KeptNext.next (State_front_kept h_s (fun x0 x2 x3 h1 => (feHalt_kept h1))))

theorem State_putImage_kept {s0 : State} {s : State} {c : ℕ} {a : ℕ} {k : ℕ} {im : List ℕ} (h_s : Kept s0 s) :
    Kept s0 (State.putImage s c a k im).1 := by
  unfold State.putImage
  extract_lets -merge -useContext +onlyGivenNames y40
  extract_lets -merge -useContext +onlyGivenNames y81
  split
  · rename_i z82 z83 e84
    have h85 : Kept s0 z82 := Kept1.ofEq e84 (State_writeMem_kept h_s)
    refine Kept1.ite' (fun _ => ?_) (fun _ => ?_)
    · exact h85
    · refine Kept1.ite' (fun _ => ?_) (fun _ => ?_)
      · exact h85
      · split
        · rename_i z86 z87 e88
          have h89 : Kept s0 z86 := Kept1.ofEq e88 (State_writeMem_kept h85)
          exact h89

theorem State_feRun_kept {s0 : State} {s : State} {c : ℕ} {total : ℕ} {f : State → ℕ → State × ℕ} (h_s : Kept s0 s)
    (h_f : ∀ u k, Kept s0 u → Kept s0 (f u k).1) : KeptFe s0 (State.feRun s c total f) := by
  unfold State.feRun
  extract_lets -merge -useContext +onlyGivenNames k
  have h := h_f s k h_s
  generalize f s k = p at h
  obtain ⟨t, e⟩ := p
  cases e with
  | zero => exact (KeptFe.ite (KeptFe.part (State_setCell_kept h)) (KeptFe.next (State_setCell_kept h)))
  | succ e => exact KeptFe.fail h

theorem feSnap_kept {s0 : State} {c : ℕ} {s : State} {w : ℕ} {off : ℕ} (h_s : Kept s0 s) :
    KeptFe s0 (feSnap c s w off) := by
  unfold feSnap
  refine KeptFe.ite' (fun _ => ?_) (fun _ => ?_)
  · exact trivial
  · extract_lets -merge -useContext +onlyGivenNames y40
    split
    · exact trivial
    · refine KeptFe.ite' (fun _ => ?_) (fun _ => ?_)
      · exact trivial
      · split
        · exact trivial
        · extract_lets -merge -useContext +onlyGivenNames y89
          exact (State_feRun_kept h_s (fun _ _ h => State_putImage_kept h))

theorem execSnapInstruction_kept {s0 : State} {c : ℕ} {s : State} (h_s : Kept s0 s) :
    KeptNext s0 (execSnapInstruction c s) := by
  unfold execSnapInstruction
  exact (KeptNext.next (State_front_kept h_s (fun x0 x2 x3 h1 => (feSnap_kept h1))))

theorem feScrub_kept {s0 : State} {c : ℕ} {s : State} {w : ℕ} {a0 : ℕ} (h_s : Kept s0 s) :
    KeptFe s0 (feScrub c s w a0) := by
  unfold feScrub
  refine KeptFe.ite' (fun _ => ?_) (fun _ => ?_)
  · exact trivial
  · extract_lets -merge -useContext +onlyGivenNames y41
    extract_lets -merge -useContext +onlyGivenNames y82
    extract_lets -merge -useContext +onlyGivenNames y123
    exact (KeptFe.ite trivial (State_feRun_kept h_s (fun _ _ h => by
      extract_lets -merge -useContext +onlyGivenNames y167
      exact State_store_kept h)))

theorem execScrub_kept {s0 : State} {c : ℕ} {s : State} (h_s : Kept s0 s) :
    KeptNext s0 (execScrub c s) := by
  unfold execScrub
  exact (KeptNext.next (State_front_kept h_s (fun x0 x2 x3 h1 => (feScrub_kept h1))))

theorem feRdfl_kept {s0 : State} {c : ℕ} {s : State} {w : ℕ} {a0 : ℕ} (h_s : Kept s0 s) :
    KeptFe s0 (feRdfl c s w a0) := by
  unfold feRdfl
  extract_lets -merge -useContext +onlyGivenNames y41
  exact (KeptFe.next (State_setCell_kept h_s))

theorem execRdfl_kept {s0 : State} {c : ℕ} {s : State} (h_s : Kept s0 s) :
    KeptNext s0 (execRdfl c s) := by
  unfold execRdfl
  exact (KeptNext.next (State_front_kept h_s (fun x0 x2 x3 h1 => (feRdfl_kept h1))))

theorem feClrfl_kept {s0 : State} {c : ℕ} {s : State} {w : ℕ} {a0 : ℕ} (h_s : Kept s0 s) :
    KeptFe s0 (feClrfl c s w a0) := by
  unfold feClrfl
  extract_lets -merge -useContext +onlyGivenNames y41
  extract_lets -merge -useContext +onlyGivenNames y82
  have h83 : Kept s0 y82 := (Kept.ite (State_setF_kept h_s) h_s)
  extract_lets -merge -useContext +onlyGivenNames y124
  have h125 : Kept s0 y124 := (Kept.ite (State_setF_kept h83) h83)
  extract_lets -merge -useContext +onlyGivenNames y166
  have h167 : Kept s0 y166 := (Kept.ite (State_setF_kept h125) h125)
  extract_lets -merge -useContext +onlyGivenNames y208
  have h209 : Kept s0 y208 := (Kept.ite (State_setF_kept h167) h167)
  exact (KeptFe.next (Kept.ite (State_setF_kept h209) h209))

theorem execClrfl_kept {s0 : State} {c : ℕ} {s : State} (h_s : Kept s0 s) :
    KeptNext s0 (execClrfl c s) := by
  unfold execClrfl
  exact (KeptNext.next (State_front_kept h_s (fun x0 x2 x3 h1 => (feClrfl_kept h1))))

theorem plan1_kept {s0 : State} {f : State → State × Nat} (h : ∀ s, Kept s0 s → Kept s0 (f s).1) : KeptPlan s0 (plan1 f) :=
  fun s _ hs => KeptEx1.ok (h s hs)

theorem Plan_step_kept {s0 : State} {p : Plan} {s : State} {k : Nat} (h : KeptPlan s0 p) (hs : Kept s0 s) : KeptEx1 s0 (p.step s k) := h s k hs

theorem State_deliver_kept {s0 : State} {s : State} {c : ℕ} {code : ℕ} (h_s : Kept s0 s) :
    Kept s0 (State.deliver s c code) := by
  unfold State.deliver
  refine Kept.ite' (fun _ => ?_) (fun _ => ?_)
  · exact h_s
  · extract_lets -merge -useContext +onlyGivenNames y40
    extract_lets -merge -useContext +onlyGivenNames y81
    split
    · exact (State_cellError_kept (State_fetchCount_kept h_s))
    · extract_lets -merge -useContext +onlyGivenNames y126
      extract_lets -merge -useContext +onlyGivenNames y167
      refine Kept.ite' (fun _ => ?_) (fun _ => ?_)
      · exact h_s
      · extract_lets -merge -useContext +onlyGivenNames y208
        exact (State_feAdvance_kept (State_setCell_kept (State_fetchCount_kept h_s)))

theorem streamBegin_kept {s0 : State} {c : ℕ} {st : Strm} {s : State} (h_s : Kept s0 s) :
    Kept s0 (streamBegin c st s) := by
  unfold streamBegin
  extract_lets -merge -useContext +onlyGivenNames y40
  extract_lets -merge -useContext +onlyGivenNames y81
  extract_lets -merge -useContext +onlyGivenNames y122
  split
  · exact h_s
  · extract_lets -merge -useContext +onlyGivenNames y167
    refine Kept.ite' (fun _ => ?_) (fun _ => ?_)
    · exact h_s
    · refine Kept.ite' (fun _ => ?_) (fun _ => ?_)
      · exact (State_cellError_kept h_s)
      · extract_lets -merge -useContext +onlyGivenNames y208
        have h209 : Kept s0 y208 := (State_takeTok_kept h_s)
        extract_lets -merge -useContext +onlyGivenNames y250
        extract_lets -merge -useContext +onlyGivenNames y291
        have h292 : Kept s0 y291 := (Kept.foldl h209 (fun x293 x295 h294 => (by
          split
          · exact (State_noteRead_kept h294))))
        extract_lets -merge -useContext +onlyGivenNames y338
        extract_lets -merge -useContext +onlyGivenNames y379
        extract_lets -merge -useContext +onlyGivenNames y420
        exact (State_setCell_kept h292)

theorem execStreamInstructionBegin_kept {s0 : State} {c : ℕ} {st : Strm} {s : State} (h_s : Kept s0 s) :
    KeptNext s0 (execStreamInstructionBegin c st s) := by
  unfold execStreamInstructionBegin
  exact (KeptNext.next (streamBegin_kept h_s))

theorem State_runStream_kept {s0 s : State} {c : Nat} {one : Bool} {code : Nat} {f : State → QEntry → Except Nat Plan}
    (h : Kept s0 s) (hf : ∀ a e, Kept s0 a → KeptPlanEx s0 (f a e)) : Kept s0 (s.runStream c one code f) := by
  unfold State.runStream
  generalize streamClass (code / 64) = st
  extract_lets +onlyGivenNames st0 x i
  split
  · exact h
  · extract_lets +onlyGivenNames us
    refine Kept.ite' (fun _ => h) (fun _ => ?_)
    split
    · exact State_cellError_kept h
    · rename_i p ep
      extract_lets +onlyGivenNames n k0
      split
      rename_i s' k r er
      have h1 : Kept s0 s' := Kept1.ofEq er (runSteps_kept (hf _ _ (State_withDescs_kept h) _ ep) h)
      extract_lets +onlyGivenNames y q e1 s2 s3
      have h2 : Kept s0 s2 := State_setCell_kept h1
      have h3 : Kept s0 s3 := State_progress_kept h2
      split
      · exact State_cellError_kept h3
      · exact h3

theorem stream_kept {s0 : State} {c : ℕ} {ph : Phase} {code : ℕ} {f : State → QEntry → Except ℕ Plan} {s : State} (h_f : ∀ u0 u1, Kept s0 u0 → KeptPlanEx s0 (f u0 u1)) (h_s : Kept s0 s) :
    KeptNext s0 (stream c ph code f s) := by
  unfold stream
  exact (KeptNext.next (by
    split
    · exact (State_deliver_kept h_s)
    · exact (State_runStream_kept h_s h_f)
    · exact (State_runStream_kept h_s h_f)))

theorem State_dequeue_kept {s0 : State} {s : State} {c : ℕ} {st : Strm} {off : ℕ} (h_s : Kept s0 s) :
    Kept s0 (State.dequeue s c st off) := by
  unfold State.dequeue
  extract_lets -merge -useContext +onlyGivenNames y40
  extract_lets -merge -useContext +onlyGivenNames y81
  exact (State_setCell_kept h_s)

theorem streamComplete_kept {s0 : State} {c : ℕ} {st : Strm} {s : State} (h_s : Kept s0 s) :
    Kept s0 (streamComplete c st s) := by
  unfold streamComplete
  extract_lets -merge -useContext +onlyGivenNames y40
  split
  · exact h_s
  · extract_lets -merge -useContext +onlyGivenNames y86
    extract_lets -merge -useContext +onlyGivenNames y127
    refine Kept.ite' (fun _ => ?_) (fun _ => ?_)
    · exact h_s
    · refine Kept.ite' (fun _ => ?_) (fun _ => ?_)
      · exact (State_cellError_kept h_s)
      · refine Kept.ite' (fun _ => ?_) (fun _ => ?_)
        · exact (Kept.ite (State_dequeue_kept (State_post_kept h_s)) (State_setCell_kept h_s))
        · exact (State_dequeue_kept h_s)

theorem execStreamInstructionComplete_kept {s0 : State} {c : ℕ} {st : Strm} {s : State} (h_s : Kept s0 s) :
    KeptNext s0 (execStreamInstructionComplete c st s) := by
  unfold execStreamInstructionComplete
  exact (KeptNext.next (streamComplete_kept h_s))

theorem postStallRelease_kept {s0 : State} {c : ℕ} {st : Strm} {s : State} (h_s : Kept s0 s) :
    Kept s0 (postStallRelease c st s) := by
  unfold postStallRelease
  split
  · exact h_s
  · refine Kept.ite' (fun _ => ?_) (fun _ => ?_)
    · exact h_s
    · extract_lets -merge -useContext +onlyGivenNames y46
      have h47 : Kept s0 y46 := (State_post_kept h_s)
      exact (Kept.ite (State_setCell_kept h47) (State_dequeue_kept h47))

theorem execPostStallRelease_kept {s0 : State} {c : ℕ} {st : Strm} {s : State} (h_s : Kept s0 s) :
    KeptNext s0 (execPostStallRelease c st s) := by
  unfold execPostStallRelease
  exact (KeptNext.next (postStallRelease_kept h_s))

theorem tokenStall_kept {s0 : State} {c : ℕ} {st : Strm} {t : ℕ} {s : State} (h_s : Kept s0 s) :
    Kept s0 (tokenStall c st t s) := by
  unfold tokenStall
  extract_lets -merge -useContext +onlyGivenNames y40
  have h41 : Kept s0 y40 := (State_at_kept h_s)
  split
  · exact h41
  · extract_lets -merge -useContext +onlyGivenNames y88
    extract_lets -merge -useContext +onlyGivenNames y129
    refine Kept.ite' (fun _ => ?_) (fun _ => ?_)
    · exact h41
    · extract_lets -merge -useContext +onlyGivenNames y170
      extract_lets -merge -useContext +onlyGivenNames y211
      extract_lets -merge -useContext +onlyGivenNames y252
      extract_lets -merge -useContext +onlyGivenNames y293
      have h294 : Kept s0 y293 := (Kept.ite (State_setF_kept h41) h41)
      exact (State_cellError_kept h294)

theorem execTokenStall_kept {s0 : State} {c : ℕ} {st : Strm} {t : ℕ} {s : State} (h_s : Kept s0 s) :
    KeptNext s0 (execTokenStall c st t s) := by
  unfold execTokenStall
  exact (KeptNext.next (tokenStall_kept h_s))

theorem planCopy_kept {s0 : State} {c : ℕ} {rs : Reach} {rd : Reach} {s : State} {e : QEntry} (h_s : Kept s0 s) :
    KeptPlanEx s0 (planCopy c rs rd s e) := by
  unfold planCopy
  exact (KeptPlanEx.bindN (fun x0 => (KeptPlanEx.bindN (fun x1 => (by
    extract_lets -merge -useContext +onlyGivenNames i2
    have h42 : ∀ u49, KeptPlanEx s0 (i2 u49) := (fun x43 => (KeptPlanEx.bindN (fun x44 => (KeptPlanEx.bindN (fun x45 => (KeptPlanEx.ok (KeptPlan.mk (fun x46 x48 h47 => (State_copyRuns_kept h47)))))))))
    extract_lets -merge -useContext +onlyGivenNames y50
    have h51 : ∀ u54, KeptPlanEx s0 (y50 u54) := (fun x52 => (KeptPlanEx.ite (KeptPlanEx.bindN (fun x53 => (h42 ()))) (h42 ())))
    refine KeptPlanEx.ite' (fun _ => ?_) (fun _ => ?_)
    · exact (KeptPlanEx.bindN (fun x55 => (h51 ())))
    · exact (h51 ()))))))

theorem planLdt_kept {s0 : State} {c : ℕ} {a0 : State} {a1 : QEntry} (h_a0 : Kept s0 a0) :
    KeptPlanEx s0 (planLdt c a0 a1) := by
  unfold planLdt
  exact (planCopy_kept h_a0)

theorem execLdt_kept {s0 : State} {c : ℕ} {ph : Phase} {s : State} (h_s : Kept s0 s) :
    KeptNext s0 (execLdt c ph s) := by
  unfold execLdt
  exact (stream_kept (fun x0 x2 h1 => (planLdt_kept h1)) h_s)

theorem planStt_kept {s0 : State} {c : ℕ} {a0 : State} {a1 : QEntry} (h_a0 : Kept s0 a0) :
    KeptPlanEx s0 (planStt c a0 a1) := by
  unfold planStt
  exact (planCopy_kept h_a0)

theorem execStt_kept {s0 : State} {c : ℕ} {ph : Phase} {s : State} (h_s : Kept s0 s) :
    KeptNext s0 (execStt c ph s) := by
  unfold execStt
  exact (stream_kept (fun x0 x2 h1 => (planStt_kept h1)) h_s)

theorem planGath_kept {s0 : State} {c : ℕ} {s : State} {e : QEntry} (h_s : Kept s0 s) :
    KeptPlanEx s0 (planGath c s e) := by
  unfold planGath
  exact (KeptPlanEx.bindN (fun x0 => (KeptPlanEx.bindN (fun x1 => (KeptPlanEx.bindN (fun x2 => (by
    split
    · extract_lets -merge -useContext +onlyGivenNames i5
      have h45 : ∀ u138, KeptPlanEx s0 (i5 u138) := (fun x46 => (KeptPlanEx.bindN (fun x47 => (KeptPlanEx.bindN (fun x48 => (KeptPlanEx.ok (KeptPlan.mk (fun x49 x51 h50 => (by
        extract_lets -merge -useContext +onlyGivenNames y92
        extract_lets -merge -useContext +onlyGivenNames y133
        have h134 : ∀ u136, KeptEx1 s0 (y133 u136) := (fun x135 => (State_copyRuns_kept (State_noteSeg_kept h50)))
        refine KeptEx1.ite' (fun _ => ?_) (fun _ => ?_)
        · exact (KeptEx1.bindN (fun x137 => (h134 ())))
        · exact (h134 ()))))))))))
      extract_lets -merge -useContext +onlyGivenNames y139
      have h140 : ∀ u143, KeptPlanEx s0 (y139 u143) := (fun x141 => (KeptPlanEx.ite (KeptPlanEx.bindN (fun x142 => (h45 ()))) (h45 ())))
      refine KeptPlanEx.ite' (fun _ => ?_) (fun _ => ?_)
      · exact (KeptPlanEx.bindN (fun x144 => (h140 ())))
      · exact (h140 ()))))))))

theorem execGath_kept {s0 : State} {c : ℕ} {ph : Phase} {s : State} (h_s : Kept s0 s) :
    KeptNext s0 (execGath c ph s) := by
  unfold execGath
  exact (stream_kept (fun x0 x2 h1 => (planGath_kept h1)) h_s)

theorem planScat_kept {s0 : State} {c : ℕ} {s : State} {e : QEntry} (h_s : Kept s0 s) :
    KeptPlanEx s0 (planScat c s e) := by
  unfold planScat
  exact (KeptPlanEx.bindN (fun x0 => (KeptPlanEx.bindN (fun x1 => (KeptPlanEx.bindN (fun x2 => (by
    split
    · extract_lets -merge -useContext +onlyGivenNames i5
      have h45 : ∀ u138, KeptPlanEx s0 (i5 u138) := (fun x46 => (KeptPlanEx.bindN (fun x47 => (KeptPlanEx.bindN (fun x48 => (KeptPlanEx.ok (KeptPlan.mk (fun x49 x51 h50 => (by
        extract_lets -merge -useContext +onlyGivenNames y92
        extract_lets -merge -useContext +onlyGivenNames y133
        have h134 : ∀ u136, KeptEx1 s0 (y133 u136) := (fun x135 => (State_copyRuns_kept (State_noteSeg_kept h50)))
        refine KeptEx1.ite' (fun _ => ?_) (fun _ => ?_)
        · exact (KeptEx1.bindN (fun x137 => (h134 ())))
        · exact (h134 ()))))))))))
      extract_lets -merge -useContext +onlyGivenNames y139
      have h140 : ∀ u143, KeptPlanEx s0 (y139 u143) := (fun x141 => (KeptPlanEx.ite (KeptPlanEx.bindN (fun x142 => (h45 ()))) (h45 ())))
      refine KeptPlanEx.ite' (fun _ => ?_) (fun _ => ?_)
      · exact (KeptPlanEx.bindN (fun x144 => (h140 ())))
      · exact (h140 ()))))))))

theorem execScat_kept {s0 : State} {c : ℕ} {ph : Phase} {s : State} (h_s : Kept s0 s) :
    KeptNext s0 (execScat c ph s) := by
  unfold execScat
  exact (stream_kept (fun x0 x2 h1 => (planScat_kept h1)) h_s)

theorem State_stageRow_kept {s0 : State} {s : State} {c : ℕ} {src : Desc} {w : Walker} {oy : ℕ} {ox : ℕ} {kp : ℕ} (h_s : Kept s0 s) :
    KeptEx2 s0 (State.stageRow s c src w oy ox kp) := by
  unfold State.stageRow
  exact (KeptEx2.bindN (fun x0 => (by
    extract_lets -merge -useContext +onlyGivenNames y41
    extract_lets -merge -useContext +onlyGivenNames y82
    exact (KeptEx2.ok (State_noteTaps_kept h_s)))))

theorem planLdw_kept {s0 : State} {c : ℕ} {s : State} {e : QEntry} (h_s : Kept s0 s) :
    KeptPlanEx s0 (planLdw c s e) := by
  unfold planLdw
  exact (KeptPlanEx.bindN (fun x0 => (KeptPlanEx.bindN (fun x1 => (KeptPlanEx.bindN (fun x2 => (by
    extract_lets -merge -useContext +onlyGivenNames y43
    extract_lets -merge -useContext +onlyGivenNames i44
    extract_lets -merge -useContext +onlyGivenNames i45
    have h84 : ∀ u96, KeptPlanEx s0 (i45 u96) := (fun x85 => (KeptPlanEx.bindN (fun x86 => (KeptPlanEx.bindN (fun x87 => (KeptPlanEx.ok (KeptPlan.mk (fun x88 x90 h89 => (KeptEx1.bindS2 (State_stageRow_kept h89) (fun x91 h92 => (by
      split
      · rename_i z93 z94
        have h95 : Kept s0 z94 := h92
        exact (KeptEx1.ok (State_writeSegs_kept h95)))))))))))))
    extract_lets -merge -useContext +onlyGivenNames y97
    have h98 : ∀ u101, KeptPlanEx s0 (y97 u101) := (fun x99 => (KeptPlanEx.ite (KeptPlanEx.bindN (fun x100 => (h84 ()))) (h84 ())))
    refine KeptPlanEx.ite' (fun _ => ?_) (fun _ => ?_)
    · exact (KeptPlanEx.bindN (fun x102 => (h98 ())))
    · exact (h98 ()))))))))

theorem execLdw_kept {s0 : State} {c : ℕ} {ph : Phase} {s : State} (h_s : Kept s0 s) :
    KeptNext s0 (execLdw c ph s) := by
  unfold execLdw
  exact (stream_kept (fun x0 x2 h1 => (planLdw_kept h1)) h_s)

theorem planTzero_kept {s0 : State} {c : ℕ} {a0 : State} {e : QEntry} (h_a0 : Kept s0 a0) :
    KeptPlanEx s0 (planTzero c a0 e) := by
  unfold planTzero
  extract_lets -merge -useContext +onlyGivenNames y41
  extract_lets -merge -useContext +onlyGivenNames y82
  exact (KeptPlanEx.ok (plan1_kept (fun x83 h84 => (by
    extract_lets -merge -useContext +onlyGivenNames y125
    exact (State_setCell_kept h84)))))

theorem execTzero_kept {s0 : State} {c : ℕ} {ph : Phase} {s : State} (h_s : Kept s0 s) :
    KeptNext s0 (execTzero c ph s) := by
  unfold execTzero
  exact (stream_kept (fun x0 x2 h1 => (planTzero_kept h1)) h_s)

theorem tmmaBlock_kept {s0 : State} {c : ℕ} {t : ℕ} {int : Bool} {fa : Fmt} {fb : Fmt} {as : List Row} {bs : List Row} {s : State} (h_s : Kept s0 s) :
    Kept s0 (tmmaBlock c t int fa fb as bs s) := by
  unfold tmmaBlock
  extract_lets -merge -useContext +onlyGivenNames y40
  extract_lets -merge -useContext +onlyGivenNames y81
  exact (Kept.foldl h_s (fun x82 x84 h83 => (by
    split
    · exact (Kept.foldl h83 (fun x87 x89 h88 => (by
        split
        · extract_lets -merge -useContext +onlyGivenNames y132
          split
          · extract_lets -merge -useContext +onlyGivenNames y177
            exact (State_raise_kept (State_setCell_kept h88))))))))

theorem planTmma_kept {s0 : State} {c : ℕ} {s : State} {e : QEntry} (h_s : Kept s0 s) :
    KeptPlanEx s0 (planTmma c s e) := by
  unfold planTmma
  extract_lets -merge -useContext +onlyGivenNames y40
  extract_lets -merge -useContext +onlyGivenNames y81
  exact (KeptPlanEx.bindN (fun x82 => (KeptPlanEx.bindN (fun x83 => (by
    extract_lets -merge -useContext +onlyGivenNames i84
    extract_lets -merge -useContext +onlyGivenNames i85
    have h124 : ∀ u223, KeptPlanEx s0 (i85 u223) := (fun x125 => (KeptPlanEx.bindN (fun x126 => (KeptPlanEx.bindN (fun x127 => (KeptPlanEx.ok (KeptPlan.mk (fun x128 x130 h129 => (KeptEx1.bindN (fun x131 => (KeptEx1.bindN (fun x132 => (by
      extract_lets -merge -useContext +onlyGivenNames y173
      have h174 : Kept s0 y173 := (Kept.foldl h129 (fun x175 x177 h176 => (State_noteSeg_kept h176)))
      extract_lets -merge -useContext +onlyGivenNames y218
      have h219 : Kept s0 y218 := (Kept.foldl h174 (fun x220 x222 h221 => (State_noteSeg_kept h221)))
      exact (KeptEx1.ok (tmmaBlock_kept h219)))))))))))))))
    extract_lets -merge -useContext +onlyGivenNames i86
    have h224 : ∀ u227, KeptPlanEx s0 (i86 u227) := (fun x225 => (KeptPlanEx.ite (KeptPlanEx.bindN (fun x226 => (h124 ()))) (h124 ())))
    extract_lets -merge -useContext +onlyGivenNames y228
    have h229 : ∀ u232, KeptPlanEx s0 (y228 u232) := (fun x230 => (KeptPlanEx.ite (KeptPlanEx.bindN (fun x231 => (h224 ()))) (h224 ())))
    refine KeptPlanEx.ite' (fun _ => ?_) (fun _ => ?_)
    · exact (KeptPlanEx.bindN (fun x233 => (h229 ())))
    · exact (h229 ()))))))

theorem execTmma_kept {s0 : State} {c : ℕ} {ph : Phase} {s : State} (h_s : Kept s0 s) :
    KeptNext s0 (execTmma c ph s) := by
  unfold execTmma
  exact (stream_kept (fun x0 x2 h1 => (planTmma_kept h1)) h_s)

theorem planTrd_kept {s0 : State} {c : ℕ} {s : State} {e : QEntry} (h_s : Kept s0 s) :
    KeptPlanEx s0 (planTrd c s e) := by
  unfold planTrd
  extract_lets -merge -useContext +onlyGivenNames y40
  exact (KeptPlanEx.bindN (fun x41 => (by
    extract_lets -merge -useContext +onlyGivenNames i42
    have h82 : ∀ u128, KeptPlanEx s0 (i42 u128) := (fun x83 => (KeptPlanEx.bindN (fun x84 => (KeptPlanEx.ok (plan1_kept (fun x85 h86 => (by
      extract_lets -merge -useContext +onlyGivenNames y127
      exact (State_writeSegs_kept h86))))))))
    extract_lets -merge -useContext +onlyGivenNames y129
    have h130 : ∀ u133, KeptPlanEx s0 (y129 u133) := (fun x131 => (KeptPlanEx.ite (KeptPlanEx.bindN (fun x132 => (h82 ()))) (h82 ())))
    refine KeptPlanEx.ite' (fun _ => ?_) (fun _ => ?_)
    · exact (KeptPlanEx.bindN (fun x134 => (h130 ())))
    · exact (h130 ()))))

theorem execTrd_kept {s0 : State} {c : ℕ} {ph : Phase} {s : State} (h_s : Kept s0 s) :
    KeptNext s0 (execTrd c ph s) := by
  unfold execTrd
  exact (stream_kept (fun x0 x2 h1 => (planTrd_kept h1)) h_s)

theorem vecMap_kept {s0 : State} {c : ℕ} {f : Fmt} {vd : ℕ} {va : ℕ} {vb : ℕ} {vc : ℕ} {put : Fmt → List ℕ → ℕ} {g : ℕ → ℕ → ℕ → ℕ × Flags} {s : State} (h_s : Kept s0 s) :
    Kept s0 (vecMap c f vd va vb vc put g s) := by
  unfold vecMap
  extract_lets -merge -useContext +onlyGivenNames y40
  extract_lets -merge -useContext +onlyGivenNames y81
  extract_lets -merge -useContext +onlyGivenNames y122
  exact (State_raise_kept (State_setCell_kept h_s))

theorem planVec_kept {s0 : State} {c : ℕ} {gi : ℤ → ℤ → ℤ → ℤ} {gf : FFmt →
  Num → Num → Num → ℕ × Flags} {used : ℕ} {a0 : State} {e : QEntry} (h_a0 : Kept s0 a0) :
    KeptPlanEx s0 (planVec c gi gf used a0 e) := by
  unfold planVec
  extract_lets -merge -useContext +onlyGivenNames y41
  extract_lets -merge -useContext +onlyGivenNames y82
  exact (KeptPlanEx.ok (plan1_kept (fun x83 h84 => (by
    try dsimp only
    exact (vecMap_kept h84)))))

theorem planVadd_kept {s0 : State} {c : ℕ} {a0 : State} {a1 : QEntry} (h_a0 : Kept s0 a0) :
    KeptPlanEx s0 (planVadd c a0 a1) := by
  unfold planVadd
  exact (planVec_kept h_a0)

theorem execVadd_kept {s0 : State} {c : ℕ} {ph : Phase} {s : State} (h_s : Kept s0 s) :
    KeptNext s0 (execVadd c ph s) := by
  unfold execVadd
  exact (stream_kept (fun x0 x2 h1 => (planVadd_kept h1)) h_s)

theorem planVsub_kept {s0 : State} {c : ℕ} {a0 : State} {a1 : QEntry} (h_a0 : Kept s0 a0) :
    KeptPlanEx s0 (planVsub c a0 a1) := by
  unfold planVsub
  exact (planVec_kept h_a0)

theorem execVsub_kept {s0 : State} {c : ℕ} {ph : Phase} {s : State} (h_s : Kept s0 s) :
    KeptNext s0 (execVsub c ph s) := by
  unfold execVsub
  exact (stream_kept (fun x0 x2 h1 => (planVsub_kept h1)) h_s)

theorem planVmul_kept {s0 : State} {c : ℕ} {a0 : State} {a1 : QEntry} (h_a0 : Kept s0 a0) :
    KeptPlanEx s0 (planVmul c a0 a1) := by
  unfold planVmul
  exact (planVec_kept h_a0)

theorem execVmul_kept {s0 : State} {c : ℕ} {ph : Phase} {s : State} (h_s : Kept s0 s) :
    KeptNext s0 (execVmul c ph s) := by
  unfold execVmul
  exact (stream_kept (fun x0 x2 h1 => (planVmul_kept h1)) h_s)

theorem planVfma_kept {s0 : State} {c : ℕ} {a0 : State} {a1 : QEntry} (h_a0 : Kept s0 a0) :
    KeptPlanEx s0 (planVfma c a0 a1) := by
  unfold planVfma
  exact (planVec_kept h_a0)

theorem execVfma_kept {s0 : State} {c : ℕ} {ph : Phase} {s : State} (h_s : Kept s0 s) :
    KeptNext s0 (execVfma c ph s) := by
  unfold execVfma
  exact (stream_kept (fun x0 x2 h1 => (planVfma_kept h1)) h_s)

theorem planVmax_kept {s0 : State} {c : ℕ} {a0 : State} {a1 : QEntry} (h_a0 : Kept s0 a0) :
    KeptPlanEx s0 (planVmax c a0 a1) := by
  unfold planVmax
  exact (planVec_kept h_a0)

theorem execVmax_kept {s0 : State} {c : ℕ} {ph : Phase} {s : State} (h_s : Kept s0 s) :
    KeptNext s0 (execVmax c ph s) := by
  unfold execVmax
  exact (stream_kept (fun x0 x2 h1 => (planVmax_kept h1)) h_s)

theorem planVmin_kept {s0 : State} {c : ℕ} {a0 : State} {a1 : QEntry} (h_a0 : Kept s0 a0) :
    KeptPlanEx s0 (planVmin c a0 a1) := by
  unfold planVmin
  exact (planVec_kept h_a0)

theorem execVmin_kept {s0 : State} {c : ℕ} {ph : Phase} {s : State} (h_s : Kept s0 s) :
    KeptNext s0 (execVmin c ph s) := by
  unfold execVmin
  exact (stream_kept (fun x0 x2 h1 => (planVmin_kept h1)) h_s)

theorem planVexp_kept {s0 : State} {c : ℕ} {a0 : State} {a1 : QEntry} (h_a0 : Kept s0 a0) :
    KeptPlanEx s0 (planVexp c a0 a1) := by
  unfold planVexp
  exact (planVec_kept h_a0)

theorem execVexp_kept {s0 : State} {c : ℕ} {ph : Phase} {s : State} (h_s : Kept s0 s) :
    KeptNext s0 (execVexp c ph s) := by
  unfold execVexp
  exact (stream_kept (fun x0 x2 h1 => (planVexp_kept h1)) h_s)

theorem planVrcp_kept {s0 : State} {c : ℕ} {a0 : State} {a1 : QEntry} (h_a0 : Kept s0 a0) :
    KeptPlanEx s0 (planVrcp c a0 a1) := by
  unfold planVrcp
  exact (planVec_kept h_a0)

theorem execVrcp_kept {s0 : State} {c : ℕ} {ph : Phase} {s : State} (h_s : Kept s0 s) :
    KeptNext s0 (execVrcp c ph s) := by
  unfold execVrcp
  exact (stream_kept (fun x0 x2 h1 => (planVrcp_kept h1)) h_s)

theorem planVrsq_kept {s0 : State} {c : ℕ} {a0 : State} {a1 : QEntry} (h_a0 : Kept s0 a0) :
    KeptPlanEx s0 (planVrsq c a0 a1) := by
  unfold planVrsq
  exact (planVec_kept h_a0)

theorem execVrsq_kept {s0 : State} {c : ℕ} {ph : Phase} {s : State} (h_s : Kept s0 s) :
    KeptNext s0 (execVrsq c ph s) := by
  unfold execVrsq
  exact (stream_kept (fun x0 x2 h1 => (planVrsq_kept h1)) h_s)

theorem planVcmp_kept {s0 : State} {c : ℕ} {a0 : State} {e : QEntry} (h_a0 : Kept s0 a0) :
    KeptPlanEx s0 (planVcmp c a0 e) := by
  unfold planVcmp
  extract_lets -merge -useContext +onlyGivenNames y41
  extract_lets -merge -useContext +onlyGivenNames y82
  exact (KeptPlanEx.ok (plan1_kept (fun x83 h84 => (by
    try dsimp only
    exact (vecMap_kept h84)))))

theorem execVcmp_kept {s0 : State} {c : ℕ} {ph : Phase} {s : State} (h_s : Kept s0 s) :
    KeptNext s0 (execVcmp c ph s) := by
  unfold execVcmp
  exact (stream_kept (fun x0 x2 h1 => (planVcmp_kept h1)) h_s)

theorem planLane_kept {s0 : State} {c : ℕ} {g : ℕ → ℕ → ℕ → ℕ} {a0 : State} {e : QEntry} (h_a0 : Kept s0 a0) :
    KeptPlanEx s0 (planLane c g a0 e) := by
  unfold planLane
  extract_lets -merge -useContext +onlyGivenNames y41
  exact (KeptPlanEx.ok (plan1_kept (fun x42 h43 => (by
    try dsimp only
    exact (vecMap_kept h43)))))

theorem planVsel_kept {s0 : State} {c : ℕ} {a0 : State} {a1 : QEntry} (h_a0 : Kept s0 a0) :
    KeptPlanEx s0 (planVsel c a0 a1) := by
  unfold planVsel
  exact (planLane_kept h_a0)

theorem execVsel_kept {s0 : State} {c : ℕ} {ph : Phase} {s : State} (h_s : Kept s0 s) :
    KeptNext s0 (execVsel c ph s) := by
  unfold execVsel
  exact (stream_kept (fun x0 x2 h1 => (planVsel_kept h1)) h_s)

theorem planVand_kept {s0 : State} {c : ℕ} {a0 : State} {a1 : QEntry} (h_a0 : Kept s0 a0) :
    KeptPlanEx s0 (planVand c a0 a1) := by
  unfold planVand
  exact (planLane_kept h_a0)

theorem execVand_kept {s0 : State} {c : ℕ} {ph : Phase} {s : State} (h_s : Kept s0 s) :
    KeptNext s0 (execVand c ph s) := by
  unfold execVand
  exact (stream_kept (fun x0 x2 h1 => (planVand_kept h1)) h_s)

theorem planVor_kept {s0 : State} {c : ℕ} {a0 : State} {a1 : QEntry} (h_a0 : Kept s0 a0) :
    KeptPlanEx s0 (planVor c a0 a1) := by
  unfold planVor
  exact (planLane_kept h_a0)

theorem execVor_kept {s0 : State} {c : ℕ} {ph : Phase} {s : State} (h_s : Kept s0 s) :
    KeptNext s0 (execVor c ph s) := by
  unfold execVor
  exact (stream_kept (fun x0 x2 h1 => (planVor_kept h1)) h_s)

theorem planVxor_kept {s0 : State} {c : ℕ} {a0 : State} {a1 : QEntry} (h_a0 : Kept s0 a0) :
    KeptPlanEx s0 (planVxor c a0 a1) := by
  unfold planVxor
  exact (planLane_kept h_a0)

theorem execVxor_kept {s0 : State} {c : ℕ} {ph : Phase} {s : State} (h_s : Kept s0 s) :
    KeptNext s0 (execVxor c ph s) := by
  unfold execVxor
  exact (stream_kept (fun x0 x2 h1 => (planVxor_kept h1)) h_s)

theorem planVmov_kept {s0 : State} {c : ℕ} {a0 : State} {a1 : QEntry} (h_a0 : Kept s0 a0) :
    KeptPlanEx s0 (planVmov c a0 a1) := by
  unfold planVmov
  exact (planLane_kept h_a0)

theorem execVmov_kept {s0 : State} {c : ℕ} {ph : Phase} {s : State} (h_s : Kept s0 s) :
    KeptNext s0 (execVmov c ph s) := by
  unfold execVmov
  exact (stream_kept (fun x0 x2 h1 => (planVmov_kept h1)) h_s)

theorem planVbcast_kept {s0 : State} {c : ℕ} {a0 : State} {e : QEntry} (h_a0 : Kept s0 a0) :
    KeptPlanEx s0 (planVbcast c a0 e) := by
  unfold planVbcast
  extract_lets -merge -useContext +onlyGivenNames y41
  exact (KeptPlanEx.ok (plan1_kept (fun x42 h43 => (by
    try dsimp only
    exact (State_setCell_kept h43)))))

theorem execVbcast_kept {s0 : State} {c : ℕ} {ph : Phase} {s : State} (h_s : Kept s0 s) :
    KeptNext s0 (execVbcast c ph s) := by
  unfold execVbcast
  exact (stream_kept (fun x0 x2 h1 => (planVbcast_kept h1)) h_s)

theorem planVld_kept {s0 : State} {c : ℕ} {s : State} {e : QEntry} (h_s : Kept s0 s) :
    KeptPlanEx s0 (planVld c s e) := by
  unfold planVld
  exact (KeptPlanEx.bindN (fun x0 => (KeptPlanEx.bindN (fun x1 => (KeptPlanEx.ok (plan1_kept (fun x2 h3 => (by
    extract_lets -merge -useContext +onlyGivenNames y44
    have h45 : Kept s0 y44 := (State_noteRead_kept h3)
    exact (State_setCell_kept h45)))))))))

theorem execVld_kept {s0 : State} {c : ℕ} {ph : Phase} {s : State} (h_s : Kept s0 s) :
    KeptNext s0 (execVld c ph s) := by
  unfold execVld
  exact (stream_kept (fun x0 x2 h1 => (planVld_kept h1)) h_s)

theorem planVst_kept {s0 : State} {c : ℕ} {a0 : State} {e : QEntry} (h_a0 : Kept s0 a0) :
    KeptPlanEx s0 (planVst c a0 e) := by
  unfold planVst
  exact (KeptPlanEx.bindN (fun x1 => (KeptPlanEx.ok (plan1_kept (fun x2 h3 => (by
    extract_lets -merge -useContext +onlyGivenNames y44
    split
    · rename_i z45 z46 e47
      have h48 : Kept s0 z45 := Kept1.ofEq e47 (State_cellWrite_kept h3)
      exact h48))))))

theorem execVst_kept {s0 : State} {c : ℕ} {ph : Phase} {s : State} (h_s : Kept s0 s) :
    KeptNext s0 (execVst c ph s) := by
  unfold execVst
  exact (stream_kept (fun x0 x2 h1 => (planVst_kept h1)) h_s)

theorem planCvt_kept {s0 : State} {c : ℕ} {s : State} {e : QEntry} (h_s : Kept s0 s) :
    KeptPlanEx s0 (planCvt c s e) := by
  unfold planCvt
  extract_lets -merge -useContext +onlyGivenNames y40
  extract_lets -merge -useContext +onlyGivenNames y81
  extract_lets -merge -useContext +onlyGivenNames y122
  extract_lets -merge -useContext +onlyGivenNames y163
  exact (KeptPlanEx.bindN (fun x164 => (KeptPlanEx.bindN (fun x165 => (by
    extract_lets -merge -useContext +onlyGivenNames i166
    extract_lets -merge -useContext +onlyGivenNames i167
    have h206 : ∀ u440, KeptPlanEx s0 (i167 u440) := (fun x207 => (by
      unfold i167
      beta_reduce
      extract_lets -merge -useContext +onlyGivenNames i208
      have h248 : ∀ u426, KeptPlanEx s0 (i208 u426) := (fun x249 => (KeptPlanEx.ok (KeptPlan.mk (fun x250 x252 h251 => (by
        extract_lets -merge -useContext +onlyGivenNames y293
        exact (KeptEx1.bindN (fun x294 => (by
          extract_lets -merge -useContext +onlyGivenNames y335
          extract_lets -merge -useContext +onlyGivenNames y376
          have h377 : Kept s0 y376 := (Kept.foldl h251 (fun x378 x380 h379 => (by
            split
            · exact (State_noteSeg_kept h379))))
          extract_lets -merge -useContext +onlyGivenNames y424
          have h425 : Kept s0 y424 := (Kept.ite (State_noteSeg_kept h377) h377)
          exact (KeptEx1.ok (State_writeSegs_kept (State_raise_kept h425)))))))))))
      extract_lets -merge -useContext +onlyGivenNames i209
      have h427 : ∀ u433, KeptPlanEx s0 (i209 u433) := (fun x428 => (KeptPlanEx.bindN (fun x429 => (KeptPlanEx.bindN (fun x430 => (KeptPlanEx.ite (KeptPlanEx.bindN (fun x431 => (h248 _))) (KeptPlanEx.bindN (fun x432 => (h248 _)))))))))
      extract_lets -merge -useContext +onlyGivenNames y434
      have h435 : ∀ u438, KeptPlanEx s0 (y434 u438) := (fun x436 => (KeptPlanEx.ite (KeptPlanEx.bindN (fun x437 => (h427 ()))) (h427 ())))
      refine KeptPlanEx.ite' (fun _ => ?_) (fun _ => ?_)
      · exact (KeptPlanEx.bindN (fun x439 => (h435 ())))
      · exact (h435 ())))
    extract_lets -merge -useContext +onlyGivenNames i168
    have h441 : ∀ u445, KeptPlanEx s0 (i168 u445) := (fun x442 => (KeptPlanEx.ite (KeptPlanEx.bindN (fun x443 => (h206 _))) (KeptPlanEx.bindN (fun x444 => (h206 _)))))
    extract_lets -merge -useContext +onlyGivenNames i169
    have h446 : ∀ u449, KeptPlanEx s0 (i169 u449) := (fun x447 => (KeptPlanEx.ite (KeptPlanEx.bindN (fun x448 => (h441 ()))) (h441 ())))
    extract_lets -merge -useContext +onlyGivenNames y450
    have h451 : ∀ u454, KeptPlanEx s0 (y450 u454) := (fun x452 => (KeptPlanEx.ite (KeptPlanEx.bindN (fun x453 => (h446 ()))) (h446 ())))
    refine KeptPlanEx.ite' (fun _ => ?_) (fun _ => ?_)
    · exact (KeptPlanEx.bindN (fun x455 => (h451 ())))
    · exact (h451 ()))))))

theorem execCvt_kept {s0 : State} {c : ℕ} {ph : Phase} {s : State} (h_s : Kept s0 s) :
    KeptNext s0 (execCvt c ph s) := by
  unfold execCvt
  exact (stream_kept (fun x0 x2 h1 => (planCvt_kept h1)) h_s)

theorem planCvtv_kept {s0 : State} {c : ℕ} {a0 : State} {e : QEntry} (h_a0 : Kept s0 a0) :
    KeptPlanEx s0 (planCvtv c a0 e) := by
  unfold planCvtv
  extract_lets -merge -useContext +onlyGivenNames y41
  extract_lets -merge -useContext +onlyGivenNames y82
  extract_lets -merge -useContext +onlyGivenNames y123
  extract_lets -merge -useContext +onlyGivenNames y164
  extract_lets -merge -useContext +onlyGivenNames y205
  exact (KeptPlanEx.ok (plan1_kept (fun x206 h207 => (by
    extract_lets -merge -useContext +onlyGivenNames y248
    extract_lets -merge -useContext +onlyGivenNames y289
    extract_lets -merge -useContext +onlyGivenNames y330
    extract_lets -merge -useContext +onlyGivenNames y371
    extract_lets -merge -useContext +onlyGivenNames y412
    extract_lets -merge -useContext +onlyGivenNames y453
    exact (State_raise_kept (State_setCell_kept h207))))))

theorem execCvtv_kept {s0 : State} {c : ℕ} {ph : Phase} {s : State} (h_s : Kept s0 s) :
    KeptNext s0 (execCvtv c ph s) := by
  unfold execCvtv
  exact (stream_kept (fun x0 x2 h1 => (planCvtv_kept h1)) h_s)

theorem State_setOperand_kept {s0 : State} {s : State} {c : ℕ} {st : Strm} {i : ℕ} {v : ℕ} (h_s : Kept s0 s) :
    Kept s0 (State.setOperand s c st i v) := by
  unfold State.setOperand
  extract_lets -merge -useContext +onlyGivenNames y40
  extract_lets -merge -useContext +onlyGivenNames y81
  extract_lets -merge -useContext +onlyGivenNames y122
  split
  · exact (State_setCell_kept h_s)
  · exact h_s

theorem planRstat_kept {s0 : State} {c : ℕ} {s : State} {e : QEntry} (h_s : Kept s0 s) :
    KeptPlanEx s0 (planRstat c s e) := by
  unfold planRstat
  extract_lets -merge -useContext +onlyGivenNames y40
  exact (KeptPlanEx.bindN (fun x41 => (KeptPlanEx.bindN (fun x42 => (KeptPlanEx.bindN (fun x43 => (KeptPlanEx.bindN (fun x44 => (KeptPlanEx.bindN (fun x45 => (by
    extract_lets -merge -useContext +onlyGivenNames y86
    exact (KeptPlanEx.ok (KeptPlan.mk (fun x87 x89 h88 => (by
      extract_lets -merge -useContext +onlyGivenNames y130
      extract_lets -merge -useContext +onlyGivenNames y171
      extract_lets -merge -useContext +onlyGivenNames y212
      extract_lets -merge -useContext +onlyGivenNames y253
      exact (KeptEx1.bindN (fun x254 => (by
        extract_lets -merge -useContext +onlyGivenNames y295
        split
        · extract_lets -merge -useContext +onlyGivenNames y339
          have h340 : Kept s0 y339 := (State_raise_kept (State_noteSeg_kept h88))
          exact (KeptEx1.ite (KeptEx1.ok (State_setOperand_kept h340)) (KeptEx1.ok (State_writeSegs_kept h340)))))))))))))))))))))

theorem execRstat_kept {s0 : State} {c : ℕ} {ph : Phase} {s : State} (h_s : Kept s0 s) :
    KeptNext s0 (execRstat c ph s) := by
  unfold execRstat
  exact (stream_kept (fun x0 x2 h1 => (planRstat_kept h1)) h_s)

theorem planRnorm_kept {s0 : State} {c : ℕ} {s : State} {e : QEntry} (h_s : Kept s0 s) :
    KeptPlanEx s0 (planRnorm c s e) := by
  unfold planRnorm
  extract_lets -merge -useContext +onlyGivenNames y40
  exact (KeptPlanEx.bindN (fun x41 => (KeptPlanEx.bindN (fun x42 => (KeptPlanEx.bindN (fun x43 => (by
    extract_lets -merge -useContext +onlyGivenNames i44
    extract_lets -merge -useContext +onlyGivenNames i45
    have h84 : ∀ u218, KeptPlanEx s0 (i45 u218) := (fun x85 => (KeptPlanEx.bindN (fun x86 => (KeptPlanEx.bindN (fun x87 => (KeptPlanEx.bindN (fun x88 => (KeptPlanEx.ok (KeptPlan.mk (fun x89 x91 h90 => (KeptEx1.bindN (fun x92 => (KeptEx1.bindN (fun x93 => (by
      extract_lets -merge -useContext +onlyGivenNames y134
      extract_lets -merge -useContext +onlyGivenNames y175
      extract_lets -merge -useContext +onlyGivenNames y216
      have h217 : Kept s0 y216 := (State_noteSeg_kept (State_noteSeg_kept h90))
      exact (KeptEx1.ok (State_writeSegs_kept (State_raise_kept h217))))))))))))))))))
    extract_lets -merge -useContext +onlyGivenNames y219
    have h220 : ∀ u224, KeptPlanEx s0 (y219 u224) := (fun x221 => (KeptPlanEx.bindN (fun x222 => (KeptPlanEx.ite (KeptPlanEx.bindN (fun x223 => (h84 ()))) (h84 ())))))
    refine KeptPlanEx.ite' (fun _ => ?_) (fun _ => ?_)
    · exact (KeptPlanEx.bindN (fun x225 => (h220 ())))
    · exact (h220 ()))))))))

theorem execRnorm_kept {s0 : State} {c : ℕ} {ph : Phase} {s : State} (h_s : Kept s0 s) :
    KeptNext s0 (execRnorm c ph s) := by
  unfold execRnorm
  exact (stream_kept (fun x0 x2 h1 => (planRnorm_kept h1)) h_s)

theorem planVdw_kept {s0 : State} {c : ℕ} {s : State} {e : QEntry} (h_s : Kept s0 s) :
    KeptPlanEx s0 (planVdw c s e) := by
  unfold planVdw
  extract_lets -merge -useContext +onlyGivenNames y40
  extract_lets -merge -useContext +onlyGivenNames y81
  exact (KeptPlanEx.bindN (fun x82 => (KeptPlanEx.bindN (fun x83 => (KeptPlanEx.bindN (fun x84 => (by
    extract_lets -merge -useContext +onlyGivenNames y125
    extract_lets -merge -useContext +onlyGivenNames i126
    extract_lets -merge -useContext +onlyGivenNames i127
    extract_lets -merge -useContext +onlyGivenNames i128
    extract_lets -merge -useContext +onlyGivenNames i129
    extract_lets -merge -useContext +onlyGivenNames i130
    extract_lets -merge -useContext +onlyGivenNames i131
    extract_lets -merge -useContext +onlyGivenNames i132
    extract_lets -merge -useContext +onlyGivenNames i133
    have h166 : ∀ u405, KeptPlanEx s0 (i133 u405) := (fun x167 => (by
      unfold i133
      beta_reduce
      extract_lets -merge -useContext +onlyGivenNames i168
      have h208 : ∀ u388, KeptPlanEx s0 (i168 u388) := (fun x209 => (KeptPlanEx.ok (KeptPlan.mk (fun x210 x212 h211 => (by
        refine KeptEx1.ite' (fun _ => ?_) (fun _ => ?_)
        · exact (KeptEx1.ok h211)
        · extract_lets -merge -useContext +onlyGivenNames y253
          exact (KeptEx1.bindN (fun x254 => (by
            extract_lets -merge -useContext +onlyGivenNames i255
            have h295 : Kept s0 i255 := (State_noteTaps_kept h211)
            extract_lets -merge -useContext +onlyGivenNames i256
            have h296 : Kept s0 i256 := (Kept.ite (Kept.foldl h295 (fun x297 x299 h298 => (State_noteSeg_kept h298))) h295)
            extract_lets -merge -useContext +onlyGivenNames i257
            extract_lets -merge -useContext +onlyGivenNames i258
            extract_lets -merge -useContext +onlyGivenNames i259
            extract_lets -merge -useContext +onlyGivenNames y300
            have h301 : ∀ u385, KeptEx1 s0 (y300 u385) := (fun x302 => (by
              unfold y300
              beta_reduce
              extract_lets -merge -useContext +onlyGivenNames y343
              refine KeptEx1.ite' (fun _ => ?_) (fun _ => ?_)
              · exact (KeptEx1.ok (State_writeSegs_kept h296))
              · extract_lets -merge -useContext +onlyGivenNames y384
                exact (KeptEx1.ok (State_writeSegs_kept (State_raise_kept h296)))))
            refine KeptEx1.ite' (fun _ => ?_) (fun _ => ?_)
            · exact (KeptEx1.bindN (fun x386 => (h301 _)))
            · exact (KeptEx1.bindN (fun x387 => (h301 _)))))))))))
      extract_lets -merge -useContext +onlyGivenNames i169
      have h389 : ∀ u394, KeptPlanEx s0 (i169 u394) := (fun x390 => (KeptPlanEx.bindN (fun x391 => (KeptPlanEx.bindN (fun x392 => (KeptPlanEx.ite (KeptPlanEx.bindN (fun x393 => (h208 ()))) (h208 ())))))))
      extract_lets -merge -useContext +onlyGivenNames i170
      have h395 : ∀ u398, KeptPlanEx s0 (i170 u398) := (fun x396 => (KeptPlanEx.ite (KeptPlanEx.bindN (fun x397 => (h389 ()))) (h389 ())))
      extract_lets -merge -useContext +onlyGivenNames y399
      have h400 : ∀ u403, KeptPlanEx s0 (y399 u403) := (fun x401 => (KeptPlanEx.ite (KeptPlanEx.bindN (fun x402 => (h395 ()))) (h395 ())))
      refine KeptPlanEx.ite' (fun _ => ?_) (fun _ => ?_)
      · exact (KeptPlanEx.bindN (fun x404 => (h400 ())))
      · exact (h400 ())))
    extract_lets -merge -useContext +onlyGivenNames i134
    have h406 : ∀ u410, KeptPlanEx s0 (i134 u410) := (fun x407 => (KeptPlanEx.ite (KeptPlanEx.bindN (fun x408 => (h166 _))) (KeptPlanEx.bindN (fun x409 => (h166 _)))))
    extract_lets -merge -useContext +onlyGivenNames i135
    have h411 : ∀ u414, KeptPlanEx s0 (i135 u414) := (fun x412 => (KeptPlanEx.ite (KeptPlanEx.bindN (fun x413 => (h406 ()))) (h406 ())))
    extract_lets -merge -useContext +onlyGivenNames y415
    have h416 : ∀ u419, KeptPlanEx s0 (y415 u419) := (fun x417 => (KeptPlanEx.ite (KeptPlanEx.bindN (fun x418 => (h411 ()))) (h411 ())))
    refine KeptPlanEx.ite' (fun _ => ?_) (fun _ => ?_)
    · exact (KeptPlanEx.bindN (fun x420 => (h416 ())))
    · exact (h416 ()))))))))

theorem execVdw_kept {s0 : State} {c : ℕ} {ph : Phase} {s : State} (h_s : Kept s0 s) :
    KeptNext s0 (execVdw c ph s) := by
  unfold execVdw
  exact (stream_kept (fun x0 x2 h1 => (planVdw_kept h1)) h_s)

theorem State_winRound_kept {s0 : State} {s : State} {u : ℕ} {n : ℕ} (h_s : Kept s0 s) :
    Kept s0 (State.winRound s u n) := by
  unfold State.winRound
  exact (State_setWinHold_kept (State_setF_kept h_s))

theorem planWopen_kept {s0 : State} {c : ℕ} {s : State} {e : QEntry} (h_s : Kept s0 s) :
    KeptPlanEx s0 (planWopen c s e) := by
  unfold planWopen
  extract_lets -merge -useContext +onlyGivenNames y40
  extract_lets -merge -useContext +onlyGivenNames y81
  extract_lets -merge -useContext +onlyGivenNames y122
  extract_lets -merge -useContext +onlyGivenNames y163
  extract_lets -merge -useContext +onlyGivenNames y204
  extract_lets -merge -useContext +onlyGivenNames y245
  extract_lets -merge -useContext +onlyGivenNames i246
  extract_lets -merge -useContext +onlyGivenNames i247
  have h286 : ∀ u500, KeptPlanEx s0 (i247 u500) := (fun x287 => (KeptPlanEx.ok (plan1_kept (fun x288 h289 => (by
    extract_lets -merge -useContext +onlyGivenNames y330
    have h331 : Kept s0 y330 := (State_setF_kept h289)
    extract_lets -merge -useContext +onlyGivenNames y372
    have h373 : Kept s0 y372 := (State_setF_kept h331)
    extract_lets -merge -useContext +onlyGivenNames y414
    have h415 : Kept s0 y414 := (State_setF_kept h373)
    extract_lets -merge -useContext +onlyGivenNames y456
    have h457 : Kept s0 y456 := (State_setF_kept h415)
    extract_lets -merge -useContext +onlyGivenNames y498
    have h499 : Kept s0 y498 := (State_setF_kept h457)
    exact (State_winRound_kept (State_setF_kept h499)))))))
  extract_lets -merge -useContext +onlyGivenNames i248
  have h501 : ∀ u504, KeptPlanEx s0 (i248 u504) := (fun x502 => (KeptPlanEx.ite (KeptPlanEx.bindN (fun x503 => (h286 ()))) (h286 ())))
  extract_lets -merge -useContext +onlyGivenNames y505
  have h506 : ∀ u509, KeptPlanEx s0 (y505 u509) := (fun x507 => (KeptPlanEx.ite (KeptPlanEx.bindN (fun x508 => (h501 ()))) (h501 ())))
  refine KeptPlanEx.ite' (fun _ => ?_) (fun _ => ?_)
  · exact (KeptPlanEx.bindN (fun x510 => (h506 ())))
  · exact (h506 ())

theorem execWopen_kept {s0 : State} {c : ℕ} {ph : Phase} {s : State} (h_s : Kept s0 s) :
    KeptNext s0 (execWopen c ph s) := by
  unfold execWopen
  exact (stream_kept (fun x0 x2 h1 => (planWopen_kept h1)) h_s)

theorem planWclose_kept {s0 : State} {c : ℕ} {s : State} {e : QEntry} (h_s : Kept s0 s) :
    KeptPlanEx s0 (planWclose c s e) := by
  unfold planWclose
  extract_lets -merge -useContext +onlyGivenNames y40
  extract_lets -merge -useContext +onlyGivenNames y81
  have h82 : ∀ u86, KeptPlanEx s0 (y81 u86) := (fun x83 => (KeptPlanEx.ok (plan1_kept (fun x84 h85 => (by
    try dsimp only
    exact (State_setF_kept h85))))))
  refine KeptPlanEx.ite' (fun _ => ?_) (fun _ => ?_)
  · exact (KeptPlanEx.bindN (fun x87 => (h82 ())))
  · exact (h82 ())

theorem execWclose_kept {s0 : State} {c : ℕ} {ph : Phase} {s : State} (h_s : Kept s0 s) :
    KeptNext s0 (execWclose c ph s) := by
  unfold execWclose
  exact (stream_kept (fun x0 x2 h1 => (planWclose_kept h1)) h_s)

theorem State_sendRelease_kept {s0 : State} {s : State} {src : ℕ} {part : ℕ} {a : ℕ} {lane : ℕ} {ckid : ℕ} (h_s : Kept s0 s) :
    Kept s0 (State.sendRelease s src part a lane ckid) := by
  unfold State.sendRelease
  refine Kept.ite' (fun _ => ?_) (fun _ => ?_)
  · extract_lets -merge -useContext +onlyGivenNames y40
    exact (State_send_kept h_s)
  · exact h_s

theorem State_joinMark_kept {s0 : State} {s : State} {c : ℕ} (h_s : Kept s0 s) :
    Kept s0 (State.joinMark s c) := by
  unfold State.joinMark
  exact (Kept.foldl h_s (fun x0 x2 h1 => (by
    extract_lets -merge -useContext +onlyGivenNames y43
    extract_lets -merge -useContext +onlyGivenNames y84
    exact (Kept.ite (State_setF_kept (Kept.mk' h1)) h1))))

theorem planCkpt_kept {s0 : State} {c : ℕ} {a0 : State} {e : QEntry} (h_a0 : Kept s0 a0) :
    KeptPlanEx s0 (planCkpt c a0 e) := by
  unfold planCkpt
  extract_lets -merge -useContext +onlyGivenNames y41
  exact (KeptPlanEx.ok (plan1_kept (fun x42 h43 => (by
    extract_lets -merge -useContext +onlyGivenNames y84
    have h85 : Kept s0 y84 := (Kept.ite (State_send_kept h43) (State_joinMark_kept (Kept.foldl h43 (fun x86 x88 h87 => (State_sendRelease_kept h87)))))
    exact (State_setF_kept h85)))))

theorem execCkpt_kept {s0 : State} {c : ℕ} {ph : Phase} {s : State} (h_s : Kept s0 s) :
    KeptNext s0 (execCkpt c ph s) := by
  unfold execCkpt
  exact (stream_kept (fun x0 x2 h1 => (planCkpt_kept h1)) h_s)

theorem planCommit_kept {s0 : State} {c : ℕ} {a0 : State} {e : QEntry} (h_a0 : Kept s0 a0) :
    KeptPlanEx s0 (planCommit c a0 e) := by
  unfold planCommit
  split
  · exact KeptPlanEx.err
  · exact (KeptPlanEx.ok (plan1_kept (fun x6 h7 => (by
      try dsimp only
      exact (State_send_kept h7)))))

theorem execCommit_kept {s0 : State} {c : ℕ} {ph : Phase} {s : State} (h_s : Kept s0 s) :
    KeptNext s0 (execCommit c ph s) := by
  unfold execCommit
  exact (stream_kept (fun x0 x2 h1 => (planCommit_kept h1)) h_s)

theorem State_tell_kept {s0 : State} {s : State} {src : ℕ} {ins : ℕ} {code : ℕ} (h_s : Kept s0 s) :
    Kept s0 (State.tell s src ins code) := by
  unfold State.tell
  refine Kept.ite' (fun _ => ?_) (fun _ => ?_)
  · extract_lets -merge -useContext +onlyGivenNames y40
    exact (State_setCell_kept h_s)
  · refine Kept.ite' (fun _ => ?_) (fun _ => ?_)
    · extract_lets -merge -useContext +onlyGivenNames y81
      exact (Kept.ite (State_setUnit_kept h_s) h_s)
    · exact h_s

theorem State_winDrop_kept {s0 : State} {s : State} {u : ℕ} {n : ℕ} {code : ℕ} {src : ℕ} (h_s : Kept s0 s) :
    Kept s0 (State.winDrop s u n code src) := by
  unfold State.winDrop
  extract_lets -merge -useContext +onlyGivenNames y40
  have h41 : Kept s0 y40 := (State_setF_kept h_s)
  extract_lets -merge -useContext +onlyGivenNames y82
  have h83 : Kept s0 y82 := (State_setF_kept h41)
  exact (Kept.ite (State_sil1_kept h83) (State_sil1_kept h83))

theorem remoteWriteArrival_kept {s0 : State} {n : ℕ} {s : State} (h_s : Kept s0 s) :
    Kept s0 (remoteWriteArrival n s) := by
  unfold remoteWriteArrival
  split
  · split
    · extract_lets -merge -useContext +onlyGivenNames y45
      split
      · extract_lets -merge -useContext +onlyGivenNames y89
        have h90 : Kept s0 y89 := (State_dropMsg_kept h_s)
        refine Kept.ite' (fun _ => ?_) (fun _ => ?_)
        · extract_lets -merge -useContext +onlyGivenNames y131
          extract_lets -merge -useContext +onlyGivenNames y172
          extract_lets -merge -useContext +onlyGivenNames y213
          extract_lets -merge -useContext +onlyGivenNames y254
          have h255 : Kept s0 y254 := (Kept.ite (State_setWinHold_kept h90) h90)
          split
          · rename_i z256 e257
            have h258 : Kept s0 z256 := Kept1.ofEq e257 (State_writeWords_kept h255)
            exact (State_tell_kept h258)
          · rename_i z259 e260
            have h261 : Kept s0 z259 := Kept1.ofEq e260 (State_writeWords_kept h255)
            exact h261
        · extract_lets -merge -useContext +onlyGivenNames y302
          have h303 : Kept s0 y302 := (State_winDrop_kept h90)
          exact (Kept.ite h303 (State_tell_kept h303))
    · exact h_s
  · exact h_s

theorem State_selectionNotice_kept {s0 : State} {s : State} {p : ℕ} {lane : ℕ} (h_s : Kept s0 s) :
    Kept s0 (State.selectionNotice s p lane) := by
  unfold State.selectionNotice
  extract_lets -merge -useContext +onlyGivenNames y40
  extract_lets -merge -useContext +onlyGivenNames i41
  extract_lets -merge -useContext +onlyGivenNames y81
  have h82 : Kept s0 y81 := (Kept.mk' h_s)
  exact (State_push_kept h82)

theorem State_winAdvance_kept {s0 : State} {s : State} {u : ℕ} {n : ℕ} {lane : ℕ} (h_s : Kept s0 s) :
    Kept s0 (State.winAdvance s u n lane) := by
  unfold State.winAdvance
  extract_lets -merge -useContext +onlyGivenNames y40
  extract_lets -merge -useContext +onlyGivenNames y81
  extract_lets -merge -useContext +onlyGivenNames y122
  have h123 : Kept s0 y122 := (State_setF_kept h_s)
  extract_lets -merge -useContext +onlyGivenNames y164
  have h165 : Kept s0 y164 := (State_setF_kept h123)
  extract_lets -merge -useContext +onlyGivenNames y206
  have h207 : Kept s0 y206 := (Kept.ite (State_setF_kept h165) h165)
  extract_lets -merge -useContext +onlyGivenNames y248
  have h249 : Kept s0 y248 := (State_setWinHold_kept h207)
  refine Kept.ite' (fun _ => ?_) (fun _ => ?_)
  · exact (State_selectionNotice_kept h249)
  · exact (Kept.ite (State_post_kept h249) h249)

theorem State_winAdvanceOr_kept {s0 : State} {s : State} {u : ℕ} {n : ℕ} {lane : ℕ} {src : ℕ} {ins : ℕ} (h_s : Kept s0 s) :
    Kept s0 (State.winAdvanceOr s u n lane src ins) := by
  unfold State.winAdvanceOr
  exact (Kept.ite (State_setWinHold_kept h_s) (State_winAdvance_kept h_s))

theorem commitArrival_kept {s0 : State} {n : ℕ} {s : State} (h_s : Kept s0 s) :
    Kept s0 (commitArrival n s) := by
  unfold commitArrival
  split
  · split
    · extract_lets -merge -useContext +onlyGivenNames y44
      refine Kept.ite' (fun _ => ?_) (fun _ => ?_)
      · exact h_s
      · extract_lets -merge -useContext +onlyGivenNames y85
        have h86 : Kept s0 y85 := (State_dropMsg_kept h_s)
        refine Kept.ite' (fun _ => ?_) (fun _ => ?_)
        · exact (State_winAdvanceOr_kept h86)
        · extract_lets -merge -useContext +onlyGivenNames y127
          have h128 : Kept s0 y127 := (State_winDrop_kept h86)
          exact (Kept.ite h128 (State_tell_kept h128))
    · exact h_s
  · exact h_s

theorem releaseArrival_kept {s0 : State} {n : ℕ} {s : State} (h_s : Kept s0 s) :
    Kept s0 (releaseArrival n s) := by
  unfold releaseArrival
  split
  · split
    · extract_lets -merge -useContext +onlyGivenNames y45
      refine Kept.ite' (fun _ => ?_) (fun _ => ?_)
      · exact (State_winDrop_kept (State_dropMsg_kept h_s))
      · refine Kept.ite' (fun _ => ?_) (fun _ => ?_)
        · exact (State_dropMsg_kept h_s)
        · refine Kept.ite' (fun _ => ?_) (fun _ => ?_)
          · exact (State_winDrop_kept (State_dropMsg_kept h_s))
          · exact (Kept.ite h_s (State_winAdvanceOr_kept (State_dropMsg_kept h_s)))
    · exact h_s
  · exact h_s

theorem execReleaseArrival_kept {s0 : State} {n : ℕ} {s : State} (h_s : Kept s0 s) :
    KeptNext s0 (execReleaseArrival n s) := by
  unfold execReleaseArrival
  exact (KeptNext.next (releaseArrival_kept h_s))

theorem generationTokenWait_kept {s0 : State} {c : ℕ} {win : ℕ} {s : State} (h_s : Kept s0 s) :
    Kept s0 (generationTokenWait c win s) := by
  unfold generationTokenWait
  split
  · exact h_s
  · exact (Kept.ite (State_winAdvance_kept h_s) h_s)

theorem execGenerationTokenWait_kept {s0 : State} {c : ℕ} {win : ℕ} {s : State} (h_s : Kept s0 s) :
    KeptNext s0 (execGenerationTokenWait c win s) := by
  unfold execGenerationTokenWait
  exact (KeptNext.next (generationTokenWait_kept h_s))

theorem winCtlOpen_kept {s0 : State} {who : Who} {u : ℕ} {win : ℕ} {w : ℕ} {s : State} (h_s : Kept s0 s) :
    Kept s0 (winCtlOpen who u win w s) := by
  unfold winCtlOpen
  refine Kept.ite' (fun _ => ?_) (fun _ => ?_)
  · exact (State_refuseAccess_kept h_s)
  · exact (Kept.ite h_s (State_winRound_kept (State_loadF_kept h_s)))

theorem execWinCtlOpen_kept {s0 : State} {who : Who} {u : ℕ} {win : ℕ} {w : ℕ} {s : State} (h_s : Kept s0 s) :
    KeptNext s0 (execWinCtlOpen who u win w s) := by
  unfold execWinCtlOpen
  exact (KeptNext.next (winCtlOpen_kept h_s))

theorem winCtlClose_kept {s0 : State} {who : Who} {u : ℕ} {win : ℕ} {w : ℕ} {s : State} (h_s : Kept s0 s) :
    Kept s0 (winCtlClose who u win w s) := by
  unfold winCtlClose
  refine Kept.ite' (fun _ => ?_) (fun _ => ?_)
  · exact (State_refuseAccess_kept h_s)
  · exact (Kept.ite h_s (State_loadF_kept h_s))

theorem execWinCtlClose_kept {s0 : State} {who : Who} {u : ℕ} {win : ℕ} {w : ℕ} {s : State} (h_s : Kept s0 s) :
    KeptNext s0 (execWinCtlClose who u win w s) := by
  unfold execWinCtlClose
  exact (KeptNext.next (winCtlClose_kept h_s))

theorem winMaskWrite_kept {s0 : State} {who : Who} {u : ℕ} {win : ℕ} {w : ℕ} {s : State} (h_s : Kept s0 s) :
    Kept s0 (winMaskWrite who u win w s) := by
  unfold winMaskWrite
  refine Kept.ite' (fun _ => ?_) (fun _ => ?_)
  · exact (State_refuseAccess_kept h_s)
  · exact (Kept.ite h_s (State_setF_kept h_s))

theorem execWinMaskWrite_kept {s0 : State} {who : Who} {u : ℕ} {win : ℕ} {w : ℕ} {s : State} (h_s : Kept s0 s) :
    KeptNext s0 (execWinMaskWrite who u win w s) := by
  unfold execWinMaskWrite
  exact (KeptNext.next (winMaskWrite_kept h_s))

theorem some_of_ite {α : Type} {p : Prop} [Decidable p] {a f : α} {x : Option α} (h : (if p then some a else x) = some f) :
    a = f ∨ x = some f := by
  by_cases hp : p
  · rw [if_pos hp] at h
    exact .inl (Option.some.inj h)
  · rw [if_neg hp] at h
    exact .inr h

/-- Whatever instruction a stream runs, its plan keeps what every operation keeps. -/
theorem planOf_kept {s0 s : State} {c n : Nat} {f : State → QEntry → Except Nat Plan} {e : QEntry}
    (h : planOf c n = some f) (h_s : Kept s0 s) : KeptPlanEx s0 (f s e) := by
  unfold planOf at h
  rcases some_of_ite h with h | h
  · subst h
    exact planLdt_kept h_s
  rcases some_of_ite h with h | h
  · subst h
    exact planStt_kept h_s
  rcases some_of_ite h with h | h
  · subst h
    exact planGath_kept h_s
  rcases some_of_ite h with h | h
  · subst h
    exact planScat_kept h_s
  rcases some_of_ite h with h | h
  · subst h
    exact planLdw_kept h_s
  rcases some_of_ite h with h | h
  · subst h
    exact planTzero_kept h_s
  rcases some_of_ite h with h | h
  · subst h
    exact planTmma_kept h_s
  rcases some_of_ite h with h | h
  · subst h
    exact planTrd_kept h_s
  rcases some_of_ite h with h | h
  · subst h
    exact planVadd_kept h_s
  rcases some_of_ite h with h | h
  · subst h
    exact planVsub_kept h_s
  rcases some_of_ite h with h | h
  · subst h
    exact planVmul_kept h_s
  rcases some_of_ite h with h | h
  · subst h
    exact planVfma_kept h_s
  rcases some_of_ite h with h | h
  · subst h
    exact planVmax_kept h_s
  rcases some_of_ite h with h | h
  · subst h
    exact planVmin_kept h_s
  rcases some_of_ite h with h | h
  · subst h
    exact planVexp_kept h_s
  rcases some_of_ite h with h | h
  · subst h
    exact planVrcp_kept h_s
  rcases some_of_ite h with h | h
  · subst h
    exact planVrsq_kept h_s
  rcases some_of_ite h with h | h
  · subst h
    exact planVcmp_kept h_s
  rcases some_of_ite h with h | h
  · subst h
    exact planVsel_kept h_s
  rcases some_of_ite h with h | h
  · subst h
    exact planVand_kept h_s
  rcases some_of_ite h with h | h
  · subst h
    exact planVor_kept h_s
  rcases some_of_ite h with h | h
  · subst h
    exact planVxor_kept h_s
  rcases some_of_ite h with h | h
  · subst h
    exact planVmov_kept h_s
  rcases some_of_ite h with h | h
  · subst h
    exact planVbcast_kept h_s
  rcases some_of_ite h with h | h
  · subst h
    exact planVld_kept h_s
  rcases some_of_ite h with h | h
  · subst h
    exact planVst_kept h_s
  rcases some_of_ite h with h | h
  · subst h
    exact planCvt_kept h_s
  rcases some_of_ite h with h | h
  · subst h
    exact planCvtv_kept h_s
  rcases some_of_ite h with h | h
  · subst h
    exact planRstat_kept h_s
  rcases some_of_ite h with h | h
  · subst h
    exact planRnorm_kept h_s
  rcases some_of_ite h with h | h
  · subst h
    exact planVdw_kept h_s
  rcases some_of_ite h with h | h
  · subst h
    exact planWopen_kept h_s
  rcases some_of_ite h with h | h
  · subst h
    exact planWclose_kept h_s
  rcases some_of_ite h with h | h
  · subst h
    exact planCkpt_kept h_s
  rcases some_of_ite h with h | h
  · subst h
    exact planCommit_kept h_s
  cases h

theorem State_endStep_kept {s0 : State} {s : State} {c : ℕ} {st : Strm} (h_s : Kept s0 s) :
    Kept s0 (State.endStep s c st) := by
  unfold State.endStep
  extract_lets -merge -useContext +onlyGivenNames y40
  split
  · exact h_s
  · refine Kept.ite' (fun _ => ?_) (fun _ => ?_)
    · exact h_s
    · split
      · exact h_s
      · rename_i h
        exact State_runStream_kept h_s (fun _ _ => planOf_kept h)

theorem State_endSteps_kept {s0 : State} {s : State} {c : ℕ} (h_s : Kept s0 s) :
    Kept s0 (State.endSteps s c) := by
  unfold State.endSteps
  exact (Kept.foldl h_s (fun x0 x2 h1 => (State_endStep_kept h1)))

theorem State_setCtx_kept {s0 : State} {s : State} {n : ℕ} {x : Ctx} (h_s : Kept s0 s) :
    Kept s0 (State.setCtx s n x) := by
  unfold State.setCtx
  exact (Kept.foldl h_s (fun x0 x2 h1 => (Kept.ite (Kept.mk' h1) h1)))

theorem State_freeCtx_kept {s0 : State} {s : State} {n : ℕ} (h_s : Kept s0 s) :
    Kept s0 (State.freeCtx s n) := by
  unfold State.freeCtx
  extract_lets -merge -useContext +onlyGivenNames y40
  exact (State_setCtx_kept h_s)

theorem State_passQuarters_kept {s0 : State} {s : State} {u : ℕ} {v : ℕ} (h_s : Kept s0 s) :
    Kept s0 (State.passQuarters s u v) := by
  unfold State.passQuarters
  refine Kept.ite' (fun _ => ?_) (fun _ => ?_)
  · exact h_s
  · extract_lets -merge -useContext +onlyGivenNames y40
    have h41 : Kept s0 y40 := (State_setF_kept h_s)
    exact (State_setF_kept h41)

theorem State_attnLeave_kept {s0 : State} {s : State} {u : ℕ} (h_s : Kept s0 s) :
    Kept s0 (State.attnLeave s u) := by
  unfold State.attnLeave
  extract_lets -merge -useContext +onlyGivenNames y40
  have h41 : Kept s0 y40 := (State_dropRegs_kept h_s)
  split
  · exact h41
  · exact (State_setF_kept (State_passQuarters_kept h41))

theorem State_copyReplica_kept {s0 : State} {s : State} {v : ℕ} {u : ℕ} (h_s : Kept s0 s) :
    Kept s0 (State.copyReplica s v u) := by
  unfold State.copyReplica
  exact (Kept.ite h_s (Kept.foldl h_s (fun x0 x2 h1 => (Kept.mk' h1))))

theorem State_attnReturn_kept {s0 : State} {s : State} {u : ℕ} (h_s : Kept s0 s) :
    Kept s0 (State.attnReturn s u) := by
  unfold State.attnReturn
  split
  · exact (State_setF_kept (State_copyReplica_kept h_s))
  · extract_lets -merge -useContext +onlyGivenNames y44
    exact (State_setF_kept (State_passQuarters_kept (State_copyReplica_kept h_s)))

theorem State_startAttn_kept {s0 : State} {s : State} (h_s : Kept s0 s) :
    Kept s0 (State.startAttn s) := by
  unfold State.startAttn
  extract_lets -merge -useContext +onlyGivenNames y40
  have h41 : Kept s0 y40 := (Kept.foldl h_s (fun x42 x44 h43 => (State_setF_kept (State_setF_kept h43))))
  exact (Kept.foldl h41 (fun x45 x47 h46 => (Kept.ite (State_attnLeave_kept h46) h46)))

theorem State_trkReset_kept {s0 : State} {s : State} (h_s : Kept s0 s) :
    Kept s0 (State.trkReset s) := by
  unfold State.trkReset
  exact (State_setF_kept (State_setF_kept (Kept.mk' h_s)))

theorem State_trkReturn_kept {s0 : State} {s : State} (h_s : Kept s0 s) :
    Kept s0 (State.trkReturn s) := by
  unfold State.trkReturn
  extract_lets -merge -useContext +onlyGivenNames y40
  have h41 : Kept s0 y40 := (Kept.foldl h_s (fun x42 x44 h43 => (Kept.ite (State_freeCtx_kept h43) h43)))
  exact (State_setF_kept h41)

theorem State_ctrlFields_kept {s0 : State} {s : State} {who : Who} {u : ℕ} {w : ℕ} (h_s : Kept s0 s) :
    Kept s0 (State.ctrlFields s who u w) := by
  unfold State.ctrlFields
  exact (Kept.ite (State_loadF_kept h_s) h_s)

theorem State_abandon_kept {s0 : State} {s : State} {u : ℕ} (h_s : Kept s0 s) :
    Kept s0 (State.abandon s u) := by
  unfold State.abandon
  extract_lets -merge -useContext +onlyGivenNames y40
  exact (State_engClear_kept (State_setUnit_kept h_s))

theorem State_dropSnaps_kept {s0 : State} {s : State} {u : ℕ} (h_s : Kept s0 s) :
    Kept s0 (State.dropSnaps s u) := by
  unfold State.dropSnaps
  extract_lets -merge -useContext +onlyGivenNames y40
  exact (State_setUnit_kept h_s)

theorem State_unitReset_kept {s0 : State} {s : State} {u : ℕ} (h_s : Kept s0 s) :
    Kept s0 (State.unitReset s u) := by
  unfold State.unitReset
  extract_lets -merge -useContext +onlyGivenNames y40
  extract_lets -merge -useContext +onlyGivenNames y81
  have h82 : Kept s0 y81 := (State_abandon_kept h_s)
  extract_lets -merge -useContext +onlyGivenNames y123
  have h124 : Kept s0 y123 := (Kept.foldl h82 (fun x125 x127 h126 => (State_clrF_kept h126)))
  extract_lets -merge -useContext +onlyGivenNames y168
  have h169 : Kept s0 y168 := (State_setUnitState_kept h124)
  refine Kept.ite' (fun _ => ?_) (fun _ => ?_)
  · extract_lets -merge -useContext +onlyGivenNames y210
    have h211 : Kept s0 y210 := (State_dropSnaps_kept h169)
    extract_lets -merge -useContext +onlyGivenNames i212
    extract_lets -merge -useContext +onlyGivenNames y252
    have h253 : Kept s0 y252 := (State_setCell_kept h211)
    extract_lets -merge -useContext +onlyGivenNames y294
    have h295 : Kept s0 y294 := (Kept.foldl h253 (fun x296 x298 h297 => (State_clrF_kept h297)))
    extract_lets -merge -useContext +onlyGivenNames y339
    have h340 : Kept s0 y339 := (Kept.foldl h295 (fun x341 x343 h342 => (State_clrF_kept h342)))
    extract_lets -merge -useContext +onlyGivenNames y384
    have h385 : Kept s0 y384 := (State_setF_kept h340)
    exact (Kept.foldl h385 (fun x386 x388 h387 => (State_setF_kept h387)))
  · extract_lets -merge -useContext +onlyGivenNames i389
    extract_lets -merge -useContext +onlyGivenNames y429
    have h430 : Kept s0 y429 := (State_setUnit_kept h169)
    refine Kept.ite' (fun _ => ?_) (fun _ => ?_)
    · extract_lets -merge -useContext +onlyGivenNames y471
      have h472 : Kept s0 y471 := (State_attnLeave_kept h430)
      exact (Kept.ite (State_attnReturn_kept h472) h472)
    · refine Kept.ite' (fun _ => ?_) (fun _ => ?_)
      · extract_lets -merge -useContext +onlyGivenNames y513
        have h514 : Kept s0 y513 := (State_trkReset_kept h430)
        exact (Kept.ite (State_trkReturn_kept h514) h514)
      · exact h430

theorem unitResetCmd_kept {s0 : State} {who : Who} {u : ℕ} {w : ℕ} {s : State} (h_s : Kept s0 s) :
    Kept s0 (unitResetCmd who u w s) := by
  unfold unitResetCmd
  refine Kept.ite' (fun _ => ?_) (fun _ => ?_)
  · exact (State_refuseAccess_kept h_s)
  · exact (Kept.ite (State_unitReset_kept h_s) h_s)

theorem execUnitReset_kept {s0 : State} {who : Who} {u : ℕ} {w : ℕ} {s : State} (h_s : Kept s0 s) :
    KeptNext s0 (execUnitReset who u w s) := by
  unfold execUnitReset
  exact (KeptNext.next (unitResetCmd_kept h_s))

theorem State_clearWork_kept {s0 : State} {s : State} {u : ℕ} (h_s : Kept s0 s) :
    Kept s0 (State.clearWork s u) := by
  unfold State.clearWork
  extract_lets -merge -useContext +onlyGivenNames y40
  have h41 : Kept s0 y40 := (State_setF_kept h_s)
  extract_lets -merge -useContext +onlyGivenNames y82
  have h83 : Kept s0 y82 := (State_setF_kept h41)
  extract_lets -merge -useContext +onlyGivenNames y124
  have h125 : Kept s0 y124 := (State_setF_kept h83)
  extract_lets -merge -useContext +onlyGivenNames y166
  have h167 : Kept s0 y166 := (State_setUnitState_kept h125)
  refine Kept.ite' (fun _ => ?_) (fun _ => ?_)
  · extract_lets -merge -useContext +onlyGivenNames y208
    extract_lets -merge -useContext +onlyGivenNames y249
    have h250 : Kept s0 y249 := (State_setCell_kept h167)
    exact (State_setF_kept h250)
  · exact h167

theorem State_jobReset_kept {s0 : State} {s : State} {u : ℕ} (h_s : Kept s0 s) :
    Kept s0 (State.jobReset s u) := by
  unfold State.jobReset
  extract_lets -merge -useContext +onlyGivenNames y40
  have h41 : Kept s0 y40 := (Kept.ite (State_endSteps_kept h_s) h_s)
  exact (State_clearWork_kept (State_abandon_kept h41))

theorem jobResetCmd_kept {s0 : State} {who : Who} {u : ℕ} {w : ℕ} {s : State} (h_s : Kept s0 s) :
    Kept s0 (jobResetCmd who u w s) := by
  unfold jobResetCmd
  refine Kept.ite' (fun _ => ?_) (fun _ => ?_)
  · exact (State_refuseAccess_kept h_s)
  · exact (Kept.ite (State_jobReset_kept (State_ctrlFields_kept h_s)) h_s)

theorem execJobReset_kept {s0 : State} {who : Who} {u : ℕ} {w : ℕ} {s : State} (h_s : Kept s0 s) :
    KeptNext s0 (execJobReset who u w s) := by
  unfold execJobReset
  exact (KeptNext.next (jobResetCmd_kept h_s))

theorem State_stopCell_kept {s0 : State} {s : State} {c : ℕ} (h_s : Kept s0 s) :
    Kept s0 (State.stopCell s c) := by
  unfold State.stopCell
  refine Kept.ite' (fun _ => ?_) (fun _ => ?_)
  · extract_lets -merge -useContext +onlyGivenNames y40
    have h41 : Kept s0 y40 := (State_endSteps_kept h_s)
    exact (Kept.ite (State_setUnitState_kept h41) h41)
  · exact (Kept.ite (State_setUnitState_kept (State_setCell_kept h_s)) h_s)

theorem State_resumeCell_kept {s0 : State} {s : State} {c : ℕ} (h_s : Kept s0 s) :
    Kept s0 (State.resumeCell s c) := by
  unfold State.resumeCell
  refine Kept.ite' (fun _ => ?_) (fun _ => ?_)
  · extract_lets -merge -useContext +onlyGivenNames y40
    exact (State_setUnitState_kept (State_setCell_kept h_s))
  · exact h_s

theorem stopCmd_kept {s0 : State} {who : Who} {u : ℕ} {w : ℕ} {s : State} (h_s : Kept s0 s) :
    Kept s0 (stopCmd who u w s) := by
  unfold stopCmd
  refine Kept.ite' (fun _ => ?_) (fun _ => ?_)
  · exact (State_refuseAccess_kept h_s)
  · exact (Kept.ite (State_stopCell_kept (State_ctrlFields_kept h_s)) h_s)

theorem execStop_kept {s0 : State} {who : Who} {u : ℕ} {w : ℕ} {s : State} (h_s : Kept s0 s) :
    KeptNext s0 (execStop who u w s) := by
  unfold execStop
  exact (KeptNext.next (stopCmd_kept h_s))

theorem resumeCmd_kept {s0 : State} {who : Who} {u : ℕ} {w : ℕ} {s : State} (h_s : Kept s0 s) :
    Kept s0 (resumeCmd who u w s) := by
  unfold resumeCmd
  refine Kept.ite' (fun _ => ?_) (fun _ => ?_)
  · exact (State_refuseAccess_kept h_s)
  · exact (Kept.ite (State_resumeCell_kept (State_ctrlFields_kept h_s)) h_s)

theorem execResume_kept {s0 : State} {who : Who} {u : ℕ} {w : ℕ} {s : State} (h_s : Kept s0 s) :
    KeptNext s0 (execResume who u w s) := by
  unfold execResume
  exact (KeptNext.next (resumeCmd_kept h_s))

theorem State_snapEnd_kept {s0 : State} {s : State} {c : ℕ} {fail : ℕ} (h_s : Kept s0 s) :
    Kept s0 (State.snapEnd s c fail) := by
  unfold State.snapEnd
  exact (State_setF_kept (State_setF_kept h_s))

theorem State_snapOp_kept {s0 : State} {s : State} {who : Who} {c : ℕ} {w : ℕ} {op : ℕ} {f : State → State} (h_s : Kept s0 s) (h_f : ∀ u0, Kept s0 u0 → Kept s0 (f u0)) :
    Kept s0 (State.snapOp s who c w op f) := by
  unfold State.snapOp
  split
  · exact (State_refuseAccess_kept h_s)
  · refine Kept.ite' (fun _ => ?_) (fun _ => ?_)
    · exact h_s
    · extract_lets -merge -useContext +onlyGivenNames y45
      have h46 : Kept s0 y45 := (State_setF_kept h_s)
      refine Kept.ite' (fun _ => ?_) (fun _ => ?_)
      · exact h46
      · exact (Kept.ite (State_snapEnd_kept h46) (h_f _ h46))

theorem State_snapWrite_kept {s0 : State} {s : State} {c : ℕ} {a : ℕ} (h_s : Kept s0 s) :
    Kept s0 (State.snapWrite s c a) := by
  unfold State.snapWrite
  refine Kept.ite' (fun _ => ?_) (fun _ => ?_)
  · exact (State_snapEnd_kept h_s)
  · extract_lets -merge -useContext +onlyGivenNames y40
    split
    · rename_i z41 e42
      have h43 : Kept s0 z41 := Kept1.ofEq e42 (State_writeMem_kept h_s)
      exact (State_snapEnd_kept h43)
    · rename_i z44 e45
      have h46 : Kept s0 z44 := Kept1.ofEq e45 (State_writeMem_kept h_s)
      split
      · rename_i z47 z48 e49
        have h50 : Kept s0 z47 := Kept1.ofEq e49 (State_writeMem_kept h46)
        exact (State_snapEnd_kept h50)

theorem State_snapCell_kept {s0 : State} {s : State} {who : Who} {c : ℕ} {a : ℕ} (h_s : Kept s0 s) :
    Kept s0 (State.snapCell s who c a) := by
  unfold State.snapCell
  refine Kept.ite' (fun _ => ?_) (fun _ => ?_)
  · exact (State_snapEnd_kept h_s)
  · refine Kept.ite' (fun _ => ?_) (fun _ => ?_)
    · exact (State_snapEnd_kept h_s)
    · extract_lets -merge -useContext +onlyGivenNames y40
      have h41 : Kept s0 y40 := (State_endSteps_kept h_s)
      refine Kept.ite' (fun _ => ?_) (fun _ => ?_)
      · extract_lets -merge -useContext +onlyGivenNames y82
        extract_lets -merge -useContext +onlyGivenNames y123
        have h124 : Kept s0 y123 := (State_setUnit_kept h41)
        exact (State_setF_kept (State_setF_kept h124))
      · exact (State_snapWrite_kept h41)

theorem snapCmd_kept {s0 : State} {who : Who} {u : ℕ} {w : ℕ} {s : State} (h_s : Kept s0 s) :
    Kept s0 (snapCmd who u w s) := by
  unfold snapCmd
  exact (State_snapOp_kept h_s (fun x0 h1 => (State_snapCell_kept h1)))

theorem execSnap_kept {s0 : State} {who : Who} {u : ℕ} {w : ℕ} {s : State} (h_s : Kept s0 s) :
    KeptNext s0 (execSnap who u w s) := by
  unfold execSnap
  exact (KeptNext.next (snapCmd_kept h_s))

theorem State_restoreCell_kept {s0 : State} {s : State} {who : Who} {c : ℕ} {a : ℕ} (h_s : Kept s0 s) :
    Kept s0 (State.restoreCell s who c a) := by
  unfold State.restoreCell
  extract_lets -merge -useContext +onlyGivenNames y40
  refine Kept.ite' (fun _ => ?_) (fun _ => ?_)
  · exact (State_snapEnd_kept h_s)
  · refine Kept.ite' (fun _ => ?_) (fun _ => ?_)
    · exact (State_snapEnd_kept h_s)
    · refine Kept.ite' (fun _ => ?_) (fun _ => ?_)
      · exact (State_snapEnd_kept (State_countEcc_kept h_s))
      · refine Kept.ite' (fun _ => ?_) (fun _ => ?_)
        · exact (State_snapEnd_kept h_s)
        · extract_lets -merge -useContext +onlyGivenNames y81
          have h82 : Kept s0 y81 := (State_loadImage_kept h_s)
          extract_lets -merge -useContext +onlyGivenNames y123
          exact (State_snapEnd_kept (State_setCell_kept h82))

theorem restoreCmd_kept {s0 : State} {who : Who} {u : ℕ} {w : ℕ} {s : State} (h_s : Kept s0 s) :
    Kept s0 (restoreCmd who u w s) := by
  unfold restoreCmd
  exact (State_snapOp_kept h_s (fun x0 h1 => (State_restoreCell_kept h1)))

theorem execRestore_kept {s0 : State} {who : Who} {u : ℕ} {w : ℕ} {s : State} (h_s : Kept s0 s) :
    KeptNext s0 (execRestore who u w s) := by
  unfold execRestore
  exact (KeptNext.next (restoreCmd_kept h_s))

theorem State_ploadCell_kept {s0 : State} {s : State} {c : ℕ} {a : ℕ} (h_s : Kept s0 s) :
    Kept s0 (State.ploadCell s c a) := by
  unfold State.ploadCell
  extract_lets -merge -useContext +onlyGivenNames y40
  refine Kept.ite' (fun _ => ?_) (fun _ => ?_)
  · exact (State_snapEnd_kept h_s)
  · refine Kept.ite' (fun _ => ?_) (fun _ => ?_)
    · exact (State_snapEnd_kept (State_countEcc_kept h_s))
    · refine Kept.ite' (fun _ => ?_) (fun _ => ?_)
      · exact (State_snapEnd_kept h_s)
      · extract_lets -merge -useContext +onlyGivenNames y81
        extract_lets -merge -useContext +onlyGivenNames y122
        extract_lets -merge -useContext +onlyGivenNames y163
        refine Kept.ite' (fun _ => ?_) (fun _ => ?_)
        · exact (State_snapEnd_kept h_s)
        · refine Kept.ite' (fun _ => ?_) (fun _ => ?_)
          · exact (State_snapEnd_kept h_s)
          · extract_lets -merge -useContext +onlyGivenNames y204
            extract_lets -merge -useContext +onlyGivenNames y245
            extract_lets -merge -useContext +onlyGivenNames y286
            have h287 : Kept s0 y286 := (State_setF_kept h_s)
            refine Kept.ite' (fun _ => ?_) (fun _ => ?_)
            · exact (State_snapEnd_kept (State_countEcc_kept h287))
            · extract_lets -merge -useContext +onlyGivenNames y328
              extract_lets -merge -useContext +onlyGivenNames y369
              extract_lets -merge -useContext +onlyGivenNames y410
              have h411 : Kept s0 y410 := (State_setCell_kept h287)
              extract_lets -merge -useContext +onlyGivenNames y452
              have h453 : Kept s0 y452 := (Kept.mk' h411)
              exact (Kept.ite (State_snapEnd_kept h453) (State_snapEnd_kept (State_setF_kept h453)))

theorem ploadCmd_kept {s0 : State} {who : Who} {u : ℕ} {w : ℕ} {s : State} (h_s : Kept s0 s) :
    Kept s0 (ploadCmd who u w s) := by
  unfold ploadCmd
  exact (State_snapOp_kept h_s (fun x0 h1 => (State_ploadCell_kept h1)))

theorem execPload_kept {s0 : State} {who : Who} {u : ℕ} {w : ℕ} {s : State} (h_s : Kept s0 s) :
    KeptNext s0 (execPload who u w s) := by
  unfold execPload
  exact (KeptNext.next (ploadCmd_kept h_s))

end Sys2Proof.Machine
end

