-- ==== Sys2Proof/Laws/KeptMemory.lean ====
section
/-! SUPPORT. `Kept` for the operations of memory commands, queues and schedules: one lemma for each. -/

namespace Sys2Proof.Machine

theorem eccWriteBack_kept {s0 : State} {a : ℕ} {s : State} (h_s : Kept s0 s) :
    Kept s0 (eccWriteBack a s) := by
  unfold eccWriteBack
  exact (Kept.ite (Kept.mk' h_s) h_s)

theorem execEccWriteBack_kept {s0 : State} {a : ℕ} {s : State} (h_s : Kept s0 s) :
    KeptNext s0 (execEccWriteBack a s) := by
  unfold execEccWriteBack
  exact (KeptNext.next (eccWriteBack_kept h_s))

theorem wordTest_kept {s0 : State} {a : ℕ} {pass : Bool} {s : State} (h_s : Kept s0 s) :
    Kept s0 (wordTest a pass s) := by
  unfold wordTest
  extract_lets -merge -useContext +onlyGivenNames y40
  refine Kept.ite' (fun _ => ?_) (fun _ => ?_)
  · exact h_s
  · split
    · exact (Kept.ite (State_store_kept h_s) (State_takeOut_kept h_s))
    · exact (Kept.ite (State_store_kept h_s) (State_takeOut_kept h_s))
    · exact h_s

theorem patrol_kept {s0 : State} {ch : ℕ} {corrected : List ℕ} {uncorrectable : List ℕ} {t : ℕ} {s : State} (h_s : Kept s0 s) :
    Kept s0 (patrol ch corrected uncorrectable t s) := by
  unfold patrol
  extract_lets -merge -useContext +onlyGivenNames y40
  have h41 : Kept s0 y40 := (State_at_kept h_s)
  extract_lets -merge -useContext +onlyGivenNames y82
  extract_lets -merge -useContext +onlyGivenNames y123
  have h124 : Kept s0 y123 := (Kept.foldl h41 (fun x125 x127 h126 => (by
    extract_lets -merge -useContext +onlyGivenNames y168
    extract_lets -merge -useContext +onlyGivenNames y209
    have h210 : Kept s0 y209 := (State_countEcc_kept h126)
    exact (Kept.ite h210 (Kept.mk' h210)))))
  exact (Kept.foldl h124 (fun x211 x213 h212 => (by
    extract_lets -merge -useContext +onlyGivenNames y254
    have h255 : Kept s0 y254 := (State_countEcc_kept h212)
    exact (Kept.mk' h255))))

theorem execPatrol_kept {s0 : State} {ch : ℕ} {corrected : List ℕ} {uncorrectable : List ℕ} {t : ℕ} {s : State} (h_s : Kept s0 s) :
    KeptNext s0 (execPatrol ch corrected uncorrectable t s) := by
  unfold execPatrol
  exact (KeptNext.next (patrol_kept h_s))

theorem edcRetry_kept {s0 : State} {ch : ℕ} {a : ℕ} {mismatches : ℕ} {s : State} (h_s : Kept s0 s) :
    Kept s0 (edcRetry ch a mismatches s) := by
  unfold edcRetry
  refine Kept.ite' (fun _ => ?_) (fun _ => ?_)
  · exact h_s
  · extract_lets -merge -useContext +onlyGivenNames y40
    have h41 : Kept s0 y40 := (Kept.foldl h_s (fun x42 x44 h43 => (State_sil1_kept h43)))
    exact (Kept.ite (Kept.mk' h41) h41)

theorem execEdcRetry_kept {s0 : State} {ch : ℕ} {a : ℕ} {mismatches : ℕ} {s : State} (h_s : Kept s0 s) :
    KeptNext s0 (execEdcRetry ch a mismatches s) := by
  unfold execEdcRetry
  exact (KeptNext.next (edcRetry_kept h_s))

theorem regionEntryWrite_kept {s0 : State} {who : Who} {p : ℕ} {e : ℕ} {lo : ℕ} {s : State} (h_s : Kept s0 s) :
    Kept s0 (regionEntryWrite who p e lo s) := by
  unfold regionEntryWrite
  refine Kept.ite' (fun _ => ?_) (fun _ => ?_)
  · exact (State_refuseAccess_kept h_s)
  · refine Kept.ite' (fun _ => ?_) (fun _ => ?_)
    · exact h_s
    · extract_lets -merge -useContext +onlyGivenNames y40
      extract_lets -merge -useContext +onlyGivenNames y81
      refine Kept.ite' (fun _ => ?_) (fun _ => ?_)
      · exact h_s
      · extract_lets -merge -useContext +onlyGivenNames y122
        extract_lets -merge -useContext +onlyGivenNames y163
        have h164 : Kept s0 y163 := (State_loadF_kept h_s)
        exact (Kept.mk' h164)

theorem execRegionEntryWrite_kept {s0 : State} {who : Who} {p : ℕ} {e : ℕ} {lo : ℕ} {s : State} (h_s : Kept s0 s) :
    KeptNext s0 (execRegionEntryWrite who p e lo s) := by
  unfold execRegionEntryWrite
  exact (KeptNext.next (regionEntryWrite_kept h_s))

theorem regionEntrySwitch_kept {s0 : State} {point : ℕ} {p : ℕ} {e : ℕ} {s : State} (h_s : Kept s0 s) :
    Kept s0 (regionEntrySwitch point p e s) := by
  unfold regionEntrySwitch
  exact (Kept.mk' h_s)

theorem execRegionEntrySwitch_kept {s0 : State} {point : ℕ} {p : ℕ} {e : ℕ} {s : State} (h_s : Kept s0 s) :
    KeptNext s0 (execRegionEntrySwitch point p e s) := by
  unfold execRegionEntrySwitch
  exact (KeptNext.next (regionEntrySwitch_kept h_s))

theorem State_fillStat_kept {s0 : State} {s : State} {st : ℕ} {fail : ℕ} (h_s : Kept s0 s) :
    Kept s0 (State.fillStat s st fail) := by
  unfold State.fillStat
  exact (State_setF_kept (State_setF_kept h_s))

theorem State_fillLine_kept {s0 : State} {s : State} {a : ℕ} (h_s : Kept s0 s) :
    Kept s0 (State.fillLine s a) := by
  unfold State.fillLine
  extract_lets -merge -useContext +onlyGivenNames y40
  extract_lets -merge -useContext +onlyGivenNames y81
  have h82 : Kept s0 y81 := (State_store_kept h_s)
  split
  · exact (State_store_kept h82)
  · exact h82

theorem State_fillLines_kept {s0 : State} {s : State} {n : ℕ} (h_s : Kept s0 s) :
    Kept s0 (State.fillLines s n) := by
  unfold State.fillLines
  exact (Kept.foldl h_s (fun x0 x2 h1 => (by
    extract_lets -merge -useContext +onlyGivenNames y43
    exact (State_setF_kept (State_setF_kept (State_fillLine_kept h1))))))

theorem fillGo_kept {s0 : State} {who : Who} {w : ℕ} {s : State} (h_s : Kept s0 s) :
    Kept s0 (fillGo who w s) := by
  unfold fillGo
  extract_lets -merge -useContext +onlyGivenNames y40
  refine Kept.ite' (fun _ => ?_) (fun _ => ?_)
  · exact h_s
  · refine Kept.ite' (fun _ => ?_) (fun _ => ?_)
    · exact (State_fillStat_kept h_s)
    · extract_lets -merge -useContext +onlyGivenNames y81
      extract_lets -merge -useContext +onlyGivenNames y122
      refine Kept.ite' (fun _ => ?_) (fun _ => ?_)
      · exact (State_fillStat_kept h_s)
      · refine Kept.ite' (fun _ => ?_) (fun _ => ?_)
        · exact (State_fillStat_kept h_s)
        · refine Kept.ite' (fun _ => ?_) (fun _ => ?_)
          · exact (State_fillStat_kept h_s)
          · split
            · rename_i z123 z124 e125
              have h126 : Kept s0 z124 := Kept2.ofEq e125 (State_fresh_kept h_s)
              exact (State_fillStat_kept (State_fillLines_kept h126))

theorem execFillGo_kept {s0 : State} {who : Who} {w : ℕ} {s : State} (h_s : Kept s0 s) :
    KeptNext s0 (execFillGo who w s) := by
  unfold execFillGo
  exact (KeptNext.next (fillGo_kept h_s))

theorem fillDone_kept {s0 : State} {s : State} (h_s : Kept s0 s) :
    Kept s0 (fillDone s) := by
  unfold fillDone
  exact (Kept.ite h_s (State_fillStat_kept (State_fillLines_kept h_s)))

theorem execFillDone_kept {s0 : State} {s : State} (h_s : Kept s0 s) :
    KeptNext s0 (execFillDone s) := by
  unfold execFillDone
  exact (KeptNext.next (fillDone_kept h_s))

theorem State_showReason_kept {s0 : State} {s : State} (h_s : Kept s0 s) :
    Kept s0 (State.showReason s) := by
  unfold State.showReason
  split
  · exact (State_setF_kept h_s)
  · exact h_s

theorem State_raiseSafe_kept {s0 : State} {s : State} {k : ℕ} (h_s : Kept s0 s) :
    Kept s0 (State.raiseSafe s k) := by
  unfold State.raiseSafe
  extract_lets -merge -useContext +onlyGivenNames y40
  extract_lets -merge -useContext +onlyGivenNames y81
  have h82 : Kept s0 y81 := (State_setF_kept h_s)
  extract_lets -merge -useContext +onlyGivenNames y123
  have h124 : Kept s0 y123 := (State_showReason_kept h82)
  extract_lets -merge -useContext +onlyGivenNames y165
  have h166 : Kept s0 y165 := (State_setF_kept h124)
  extract_lets -merge -useContext +onlyGivenNames i167
  extract_lets -merge -useContext +onlyGivenNames y207
  have h208 : Kept s0 y207 := (Kept.mk' h166)
  exact (State_integrity_kept (Kept.ite h208 (State_wire_kept (State_event_kept h208))))

theorem State_clearSafe_kept {s0 : State} {s : State} {k : ℕ} (h_s : Kept s0 s) :
    Kept s0 (State.clearSafe s k) := by
  unfold State.clearSafe
  exact (State_showReason_kept (State_setF_kept h_s))

theorem State_slotPassed_kept {s0 : State} {s : State} {ok : Bool} (h_s : Kept s0 s) :
    Kept s0 (State.slotPassed s ok) := by
  unfold State.slotPassed
  exact (Kept.mk' h_s)

theorem State_endSafe_kept {s0 : State} {s : State} (h_s : Kept s0 s) :
    Kept s0 (State.endSafe s) := by
  unfold State.endSafe
  extract_lets -merge -useContext +onlyGivenNames y40
  have h41 : Kept s0 y40 := (State_setF_kept (State_setF_kept h_s))
  exact (State_wire_kept (State_integrity_kept (Kept.mk' h41)))

theorem Eng_need_kept {s0 : State} {c : Bool} {e : EErr}  :
    KeptEng s0 (Eng.need c e) := by
  unfold Eng.need
  exact (KeptEng.ite KeptEng.pure KeptEng.err)

theorem Eng_tried_kept {s0 : State} {α : Type} {f : Eng α} (h : KeptEng s0 f) : KeptEng s0 f.tried := by
  refine ⟨fun s hs => ?_⟩
  have q := h.after s hs
  change KeptRes s0 (f.tried s)
  unfold Eng.tried
  change KeptRes s0 (f s) at q
  split
  · rename_i e
    rw [e] at q
    exact ⟨q.st⟩
  · rename_i e
    rw [e] at q
    exact ⟨q.st⟩

theorem Eng_read_kept {s0 : State} {u : ℕ} {a : ℕ} {n : ℕ}  :
    KeptEng s0 (Eng.read u a n) := by
  unfold Eng.read
  refine KeptEng.get (fun x0 h1 => ?_)
  refine KeptEng.ite' (fun _ => ?_) (fun _ => ?_)
  · refine KeptEng.bind ?_ ?_
    · exact (KeptEng.set (State_refuseAccess_kept h1))
    intro x2
    exact KeptEng.err
  · refine KeptEng.ite' (fun _ => ?_) (fun _ => ?_)
    · refine KeptEng.bind ?_ ?_
      · exact (KeptEng.set (State_countEcc_kept h1))
      intro x3
      exact KeptEng.err
    · refine KeptEng.bind ?_ ?_
      · exact (KeptEng.set (State_noteRead_kept h1))
      intro x4
      exact KeptEng.pure

theorem Eng_write_kept {s0 : State} {u : ℕ} {a : ℕ} {bs : List Byte}  :
    KeptEng s0 (Eng.write u a bs) := by
  unfold Eng.write
  refine KeptEng.get (fun x0 h1 => ?_)
  split
  · refine KeptEng.ite' (fun _ => ?_) (fun _ => ?_)
    · refine KeptEng.bind ?_ ?_
      · exact (KeptEng.set (State_refuseAccess_kept h1))
      intro x4
      exact KeptEng.err
    · exact (KeptEng.set (State_issueWrites_kept h1))
  · refine KeptEng.ite' (fun _ => ?_) (fun _ => ?_)
    · refine KeptEng.bind ?_ ?_
      · exact (KeptEng.set (State_refuseAccess_kept h1))
      intro x7
      exact KeptEng.err
    · split
      · rename_i z8 z9 e10
        have h11 : Kept s0 z8 := Kept1.ofEq e10 (State_writeMem_kept h1)
        refine KeptEng.bind ?_ ?_
        · exact (KeptEng.set h11)
        intro x12
        refine KeptEng.ite' (fun _ => ?_) (fun _ => ?_)
        · refine KeptEng.bind ?_ ?_
          · exact (KeptEng.set (State_countEcc_kept h11))
          intro x13
          exact KeptEng.err
        · exact KeptEng.pure

theorem Eng_for_kept {s0 : State} {f : Nat → Eng Unit} {n i : Nat} (h : ∀ i, KeptEng s0 (f i)) : KeptEng s0 (Eng.for f n i) := by
  induction n generalizing i with
  | zero => exact KeptEng.pure
  | succ n ih => exact KeptEng.bind (h i) (fun _ => ih)

theorem Eng_collect_kept {s0 : State} {α : Type} {f : Nat → Eng α} {n i : Nat} (h : ∀ i, KeptEng s0 (f i)) : KeptEng s0 (Eng.collect f n i) := by
  induction n generalizing i with
  | zero => exact KeptEng.pure
  | succ n ih => exact KeptEng.bind (h i) (fun _ => KeptEng.bind ih (fun _ => KeptEng.pure))

theorem Eng_fold_kept {s0 : State} {α β : Type} {f : β → α → Eng β} {b : β} {l : List α} (h : ∀ b a, KeptEng s0 (f b a)) :
    KeptEng s0 (Eng.fold f b l) := by
  induction l generalizing b with
  | nil => exact KeptEng.pure
  | cons a t ih => exact KeptEng.bind (h b a) (fun _ => ih)

theorem sweepDiscs_kept {s0 : State} {look : Nat → Nat → Nat → Eng Nat} {k0 k1 : Nat} {l : List ((Nat × Nat) × Int)}
    {d : Option Nat} {ds : List Nat} (h : ∀ a b c, KeptEng s0 (look a b c)) : KeptEng s0 (sweepDiscs look k0 k1 l d ds) := by
  induction l generalizing d ds with
  | nil => exact KeptEng.pure
  | cons a t ih =>
    refine KeptEng.bind ?_ (fun _ => KeptEng.bind ?_ (fun _ => ?_))
    · exact h _ _ _
    · exact h _ _ _
    · exact KeptEng.ite KeptEng.pure ih

theorem sweepStates_kept {s0 : State} {look : Nat → Nat → Nat → Eng Nat} {w : Sweep} {b : List Nat} {l : List (TSt × Bool)}
    {i : Nat} {acc : Swept} (h : ∀ a b c, KeptEng s0 (look a b c)) : KeptEng s0 (sweepStates look w b l i acc) := by
  induction l generalizing i acc with
  | nil => exact KeptEng.pure
  | cons a t ih =>
    unfold sweepStates
    extract_lets f cells
    refine KeptEng.ite KeptEng.pure (KeptEng.ite KeptEng.pure (KeptEng.ite KeptEng.pure (KeptEng.ite KeptEng.pure ?_)))
    split
    refine KeptEng.bind ?_ (fun _ => ?_)
    · exact sweepDiscs_kept h
    · exact KeptEng.ite KeptEng.pure ih

theorem State_engEnd_kept {s0 : State} {s : State} {u : ℕ} {status : ℕ} {high : ℕ} (h_s : Kept s0 s) :
    Kept s0 (State.engEnd s u status high) := by
  unfold State.engEnd
  extract_lets -merge -useContext +onlyGivenNames y40
  have h41 : Kept s0 y40 := (State_progress_kept (State_engDone_kept (State_setUnitState_kept h_s)))
  exact (State_endItem_kept h41)

theorem State_engRun_kept {s0 : State} {s : State} {u : ℕ} {f : Eng ℕ} (h_s : Kept s0 s) (h_f : KeptEng s0 f) :
    Kept s0 (State.engRun s u f) := by
  unfold State.engRun
  split
  · rename_i z0 z1 e2
    have h3 : Kept s0 z1 := (KeptRes.ofEq e2 (KeptEng.run h_f h_s)).st
    exact (State_engEnd_kept h3)
  · rename_i z4 z5 e6
    have h7 : Kept s0 z5 := (KeptRes.ofEq e6 (KeptEng.run h_f h_s)).st
    exact (State_engEnd_kept h7)

theorem Eng_block_kept {s0 : State} {u : ℕ} {a : ℕ} {n : ℕ}  :
    KeptEng s0 (Eng.block u a n) := by
  unfold Eng.block
  split
  · refine KeptEng.bind ?_ ?_
    · exact Eng_need_kept
    intro x2
    exact Eng_read_kept
  · refine KeptEng.bind ?_ ?_
    · exact Eng_need_kept
    intro x5
    exact Eng_read_kept
  · refine KeptEng.bind ?_ ?_
    · exact (KeptEng.modify (fun x9 h10 => (State_refuseAccess_kept h10)))
    intro x8
    exact KeptEng.err

theorem pushCmd_kept {s0 : State} {who : Who} {q : ℕ} {bytes : List ℕ} {s : State} (h_s : Kept s0 s) :
    Kept s0 (pushCmd who q bytes s) := by
  unfold pushCmd
  refine Kept.ite' (fun _ => ?_) (fun _ => ?_)
  · exact h_s
  · split
    · exact (State_refuseAccess_kept h_s)
    · exact (Kept.ite (State_qDrop_kept h_s) (State_push_kept h_s))

theorem execPush_kept {s0 : State} {who : Who} {q : ℕ} {bytes : List ℕ} {s : State} (h_s : Kept s0 s) :
    KeptNext s0 (execPush who q bytes s) := by
  unfold execPush
  exact (KeptNext.next (pushCmd_kept h_s))

theorem State_swTail_kept {s0 : State} {s : State} {q : ℕ} {off : ℕ} {bytes : List ℕ} (h_s : Kept s0 s) :
    Kept s0 (State.swTail s q off bytes) := by
  unfold State.swTail
  extract_lets -merge -useContext +onlyGivenNames y40
  refine Kept.ite' (fun _ => ?_) (fun _ => ?_)
  · exact (State_qDrop_kept h_s)
  · extract_lets -merge -useContext +onlyGivenNames y81
    extract_lets -merge -useContext +onlyGivenNames y122
    exact (State_setF_kept (Kept.mk' h_s))

theorem swTailWrite_kept {s0 : State} {who : Who} {q : ℕ} {off : ℕ} {bytes : List ℕ} {s : State} (h_s : Kept s0 s) :
    Kept s0 (swTailWrite who q off bytes s) := by
  unfold swTailWrite
  refine Kept.ite' (fun _ => ?_) (fun _ => ?_)
  · exact h_s
  · split
    · exact (State_refuseAccess_kept h_s)
    · extract_lets -merge -useContext +onlyGivenNames y44
      extract_lets -merge -useContext +onlyGivenNames y85
      refine Kept.ite' (fun _ => ?_) (fun _ => ?_)
      · exact (State_qDrop_kept h_s)
      · exact (Kept.ite (State_swTail_kept h_s) (State_refuseAccess_kept h_s))

theorem execSwTailWrite_kept {s0 : State} {who : Who} {q : ℕ} {off : ℕ} {bytes : List ℕ} {s : State} (h_s : Kept s0 s) :
    KeptNext s0 (execSwTailWrite who q off bytes s) := by
  unfold execSwTailWrite
  exact (KeptNext.next (swTailWrite_kept h_s))

theorem qcfgHeadWrite_kept {s0 : State} {who : Who} {q : ℕ} {w : ℕ} {s : State} (h_s : Kept s0 s) :
    Kept s0 (qcfgHeadWrite who q w s) := by
  unfold qcfgHeadWrite
  extract_lets -merge -useContext +onlyGivenNames y40
  extract_lets -merge -useContext +onlyGivenNames y81
  refine Kept.ite' (fun _ => ?_) (fun _ => ?_)
  · exact h_s
  · split
    · exact (Kept.ite (State_setF_kept h_s) h_s)
    · refine Kept.ite' (fun _ => ?_) (fun _ => ?_)
      · exact (State_refuseAccess_kept h_s)
      · exact (Kept.ite (State_setF_kept h_s) h_s)
    · exact (State_refuseAccess_kept h_s)

theorem execQcfgHeadWrite_kept {s0 : State} {who : Who} {q : ℕ} {w : ℕ} {s : State} (h_s : Kept s0 s) :
    KeptNext s0 (execQcfgHeadWrite who q w s) := by
  unfold execQcfgHeadWrite
  exact (KeptNext.next (qcfgHeadWrite_kept h_s))

theorem State_notice_kept {s0 : State} {s : State} {p : ℕ} {state : ℕ} {jidx : ℕ} {cause : ℕ} {jobId : ℕ} {seq : ℕ} {q : ℕ} (h_s : Kept s0 s) :
    Kept s0 (State.notice s p state jidx cause jobId seq q) := by
  unfold State.notice
  exact (State_pushCq_kept h_s)

theorem State_setJobState_kept {s0 : State} {s : State} {j : ℕ} {v : ℕ} (h_s : Kept s0 s) :
    Kept s0 (State.setJobState s j v) := by
  unfold State.setJobState
  exact (State_setF_kept h_s)

theorem State_jobNotice_kept {s0 : State} {s : State} {j : ℕ} {cause : ℕ} (h_s : Kept s0 s) :
    Kept s0 (State.jobNotice s j cause) := by
  unfold State.jobNotice
  exact (State_notice_kept h_s)

theorem State_startCell_kept {s0 : State} {s : State} {c : ℕ} {it : WorkItem} (h_s : Kept s0 s) :
    Kept s0 (State.startCell s c it) := by
  unfold State.startCell
  extract_lets -merge -useContext +onlyGivenNames y40
  extract_lets -merge -useContext +onlyGivenNames y81
  extract_lets -merge -useContext +onlyGivenNames y122
  exact (State_setUnitState_kept (State_setCell_kept h_s))

theorem workItemTake_kept {s0 : State} {u : ℕ} {t : ℕ} {s : State} (h_s : Kept s0 s) :
    Kept s0 (workItemTake u t s) := by
  unfold workItemTake
  extract_lets -merge -useContext +onlyGivenNames y40
  have h41 : Kept s0 y40 := (State_at_kept h_s)
  refine Kept.ite' (fun _ => ?_) (fun _ => ?_)
  · exact h41
  · split
    · exact h41
    · extract_lets -merge -useContext +onlyGivenNames y86
      refine Kept.ite' (fun _ => ?_) (fun _ => ?_)
      · exact h41
      · extract_lets -merge -useContext +onlyGivenNames y127
        extract_lets -merge -useContext +onlyGivenNames y168
        extract_lets -merge -useContext +onlyGivenNames y209
        extract_lets -merge -useContext +onlyGivenNames y250
        have h251 : Kept s0 y250 := (State_noteRead_kept h41)
        extract_lets -merge -useContext +onlyGivenNames y292
        have h293 : Kept s0 y292 := (State_setF_kept h251)
        extract_lets -merge -useContext +onlyGivenNames y334
        refine Kept.ite' (fun _ => ?_) (fun _ => ?_)
        · exact (State_setUnit_kept h293)
        · refine Kept.ite' (fun _ => ?_) (fun _ => ?_)
          · exact (State_setUnit_kept h293)
          · extract_lets -merge -useContext +onlyGivenNames y375
            have h376 : Kept s0 y375 := (State_setUnit_kept h293)
            refine Kept.ite' (fun _ => ?_) (fun _ => ?_)
            · exact (State_startCell_kept h376)
            · exact (Kept.ite (State_setBusy_kept (State_setUnitState_kept h376)) (State_setUnitState_kept h376))

theorem execWorkItemTake_kept {s0 : State} {u : ℕ} {t : ℕ} {s : State} (h_s : Kept s0 s) :
    KeptNext s0 (execWorkItemTake u t s) := by
  unfold execWorkItemTake
  exact (KeptNext.next (workItemTake_kept h_s))

theorem unreadableEntry_kept {s0 : State} {u : ℕ} {s : State} (h_s : Kept s0 s) :
    Kept s0 (unreadableEntry u s) := by
  unfold unreadableEntry
  refine Kept.ite' (fun _ => ?_) (fun _ => ?_)
  · exact h_s
  · split
    · exact h_s
    · extract_lets -merge -useContext +onlyGivenNames y44
      extract_lets -merge -useContext +onlyGivenNames y85
      refine Kept.ite' (fun _ => ?_) (fun _ => ?_)
      · exact h_s
      · extract_lets -merge -useContext +onlyGivenNames y126
        have h127 : Kept s0 y126 := (State_countEcc_kept h_s)
        extract_lets -merge -useContext +onlyGivenNames y168
        have h169 : Kept s0 y168 := (State_setF_kept h127)
        extract_lets -merge -useContext +onlyGivenNames y210
        have h211 : Kept s0 y210 := (State_setF_kept h169)
        extract_lets -merge -useContext +onlyGivenNames y252
        exact (State_notice_kept (State_event_kept h211))

theorem execUnreadableEntry_kept {s0 : State} {u : ℕ} {s : State} (h_s : Kept s0 s) :
    KeptNext s0 (execUnreadableEntry u s) := by
  unfold execUnreadableEntry
  exact (KeptNext.next (unreadableEntry_kept h_s))

theorem arriveCmd_kept {s0 : State} {u : ℕ} {s : State} (h_s : Kept s0 s) :
    Kept s0 (arriveCmd u s) := by
  unfold arriveCmd
  refine Kept.ite' (fun _ => ?_) (fun _ => ?_)
  · exact h_s
  · split
    · exact h_s
    · refine Kept.ite' (fun _ => ?_) (fun _ => ?_)
      · exact h_s
      · split
        · rename_i z4 z5 e6
          have h7 : Kept s0 z4 := Kept1.ofEq e6 (State_arrive_kept h_s)
          extract_lets -merge -useContext +onlyGivenNames y48
          have h49 : Kept s0 y48 := (State_setUnitState_kept h7)
          split
          · exact (State_endItem_kept h49)
          · exact (State_endItem_kept h49)
          · exact (State_endItem_kept h49)

theorem execArrive_kept {s0 : State} {u : ℕ} {s : State} (h_s : Kept s0 s) :
    KeptNext s0 (execArrive u s) := by
  unfold execArrive
  exact (KeptNext.next (arriveCmd_kept h_s))

theorem barHart_kept {s0 : State} {who : Who} {p : ℕ} {w : ℕ} {s : State} (h_s : Kept s0 s) :
    Kept s0 (barHart who p w s) := by
  unfold barHart
  extract_lets -merge -useContext +onlyGivenNames y40
  refine Kept.ite' (fun _ => ?_) (fun _ => ?_)
  · exact h_s
  · refine Kept.ite' (fun _ => ?_) (fun _ => ?_)
    · exact (State_refuseAccess_kept h_s)
    · split
      · rename_i z41 z42 e43
        have h44 : Kept s0 z41 := Kept1.ofEq e43 (State_arrive_kept h_s)
        extract_lets -merge -useContext +onlyGivenNames y85
        have h86 : Kept s0 y85 := (State_setF_kept h44)
        extract_lets -merge -useContext +onlyGivenNames y127
        have h128 : Kept s0 y127 := (State_setF_kept h86)
        exact (State_setF_kept h128)

theorem execBarHart_kept {s0 : State} {who : Who} {p : ℕ} {w : ℕ} {s : State} (h_s : Kept s0 s) :
    KeptNext s0 (execBarHart who p w s) := by
  unfold execBarHart
  exact (KeptNext.next (barHart_kept h_s))

theorem State_stopJobOn_kept {s0 : State} {s : State} {j : ℕ} {u : ℕ} (h_s : Kept s0 s) :
    Kept s0 (State.stopJobOn s j u) := by
  unfold State.stopJobOn
  extract_lets -merge -useContext +onlyGivenNames y40
  refine Kept.ite' (fun _ => ?_) (fun _ => ?_)
  · refine Kept.ite' (fun _ => ?_) (fun _ => ?_)
    · exact (State_stopCell_kept h_s)
    · exact (Kept.ite (State_engClear_kept (State_setUnitState_kept h_s)) h_s)
  · refine Kept.ite' (fun _ => ?_) (fun _ => ?_)
    · exact (State_setUnit_kept h_s)
    · split
      · exact (State_setUnit_kept h_s)
      · exact h_s

theorem State_jobFault_kept {s0 : State} {s : State} {j : ℕ} (h_s : Kept s0 s) :
    Kept s0 (State.jobFault s j) := by
  unfold State.jobFault
  refine Kept.ite' (fun _ => ?_) (fun _ => ?_)
  · exact h_s
  · extract_lets -merge -useContext +onlyGivenNames y40
    have h41 : Kept s0 y40 := (Kept.foldl h_s (fun x42 x44 h43 => (State_stopJobOn_kept h43)))
    extract_lets -merge -useContext +onlyGivenNames y85
    have h86 : Kept s0 y85 := (State_setJobState_kept h41)
    extract_lets -merge -useContext +onlyGivenNames i87
    extract_lets -merge -useContext +onlyGivenNames y127
    have h128 : Kept s0 y127 := (State_setJob_kept h86)
    exact (State_jobNotice_kept h128)

theorem completionPush_kept {s0 : State} {u : ℕ} {t : ℕ} {s : State} (h_s : Kept s0 s) :
    Kept s0 (completionPush u t s) := by
  unfold completionPush
  extract_lets -merge -useContext +onlyGivenNames y40
  have h41 : Kept s0 y40 := (State_at_kept h_s)
  extract_lets -merge -useContext +onlyGivenNames y82
  split
  · exact h41
  · refine Kept.ite' (fun _ => ?_) (fun _ => ?_)
    · exact h41
    · extract_lets -merge -useContext +onlyGivenNames y128
      have h129 : Kept s0 y128 := (State_dropRegs_kept (State_setUnit_kept h41))
      extract_lets -merge -useContext +onlyGivenNames y170
      have h171 : Kept s0 y170 := (Kept.mk' h129)
      extract_lets -merge -useContext +onlyGivenNames y212
      extract_lets -merge -useContext +onlyGivenNames y253
      have h254 : Kept s0 y253 := (State_postCpl_kept h171)
      exact (Kept.ite (State_jobFault_kept h254) h254)

theorem execCompletionPush_kept {s0 : State} {u : ℕ} {t : ℕ} {s : State} (h_s : Kept s0 s) :
    KeptNext s0 (execCompletionPush u t s) := by
  unfold execCompletionPush
  exact (KeptNext.next (completionPush_kept h_s))

theorem State_saveHeld_kept {s0 : State} {s : State} {c : ℕ} (h_s : Kept s0 s) :
    Kept s0 (State.saveHeld s c) := by
  unfold State.saveHeld
  extract_lets -merge -useContext +onlyGivenNames y40
  split
  · exact h_s
  · refine Kept.ite' (fun _ => ?_) (fun _ => ?_)
    · exact (State_setUnit_kept h_s)
    · extract_lets -merge -useContext +onlyGivenNames y85
      extract_lets -merge -useContext +onlyGivenNames y126
      extract_lets -merge -useContext +onlyGivenNames y167
      have h168 : Kept s0 y167 := (State_setUnit_kept h_s)
      extract_lets -merge -useContext +onlyGivenNames y209
      have h210 : Kept s0 y209 := (State_setUnitState_kept h168)
      exact (State_writeMem_kept h168)

theorem State_takeHeld_kept {s0 : State} {s : State} {c : ℕ} {h' : Held} (h_s : Kept s0 s) :
    Kept s0 (State.takeHeld s c h') := by
  unfold State.takeHeld
  extract_lets -merge -useContext +onlyGivenNames y40
  extract_lets -merge -useContext +onlyGivenNames y81
  have h82 : Kept s0 y81 := (State_setCell_kept h_s)
  extract_lets -merge -useContext +onlyGivenNames y123
  have h124 : Kept s0 y123 := (State_setUnitState_kept h82)
  exact (Kept.ite (State_clearWork_kept h124) h124)

theorem State_loadHeld_kept {s0 : State} {s : State} {c : ℕ} {j : ℕ} (h_s : Kept s0 s) :
    Kept s0 (State.loadHeld s c j) := by
  unfold State.loadHeld
  extract_lets -merge -useContext +onlyGivenNames i0
  have h40 : Kept s0 i0 := (by
    unfold i0
    split
    · exact (State_setF_kept (State_setF_kept h_s))
    · exact h_s)
  extract_lets -merge -useContext +onlyGivenNames y46
  have h47 : Kept s0 y46 := (State_clearWork_kept (State_setF_kept h40))
  extract_lets -merge -useContext +onlyGivenNames y88
  extract_lets -merge -useContext +onlyGivenNames y129
  have h130 : Kept s0 y129 := (by
    unfold y129
    split
    · exact h47
    · refine Kept.ite' (fun _ => ?_) (fun _ => ?_)
      · exact h47
      · extract_lets -merge -useContext +onlyGivenNames y175
        extract_lets -merge -useContext +onlyGivenNames y216
        have h217 : Kept s0 y216 := (State_loadImage_kept h_s)
        split
        · exact (State_takeHeld_kept h217)
        · extract_lets -merge -useContext +onlyGivenNames i222
          extract_lets -merge -useContext +onlyGivenNames y262
          have h263 : Kept s0 y262 := (State_setCell_kept h217)
          exact (Kept.ite (State_setUnitState_kept h263) h263))
  exact (State_setUnit_kept h130)

theorem State_cutEngine_kept {s0 : State} {s : State} {u : ℕ} {status : ℕ} (h_s : Kept s0 s) :
    Kept s0 (State.cutEngine s u status) := by
  unfold State.cutEngine
  exact (Kept.ite h_s (State_endItem_kept (State_dropRegs_kept (State_engDone_kept (State_setUnitState_kept h_s)))))

theorem State_showEntry_kept {s0 : State} {s : State} {u : ℕ} {e : SchedEnt} (h_s : Kept s0 s) :
    Kept s0 (State.showEntry s u e) := by
  unfold State.showEntry
  extract_lets -merge -useContext +onlyGivenNames y40
  extract_lets -merge -useContext +onlyGivenNames y81
  extract_lets -merge -useContext +onlyGivenNames y122
  have h123 : Kept s0 y122 := (State_setF_kept h_s)
  extract_lets -merge -useContext +onlyGivenNames y164
  have h165 : Kept s0 y164 := (State_setF_kept h123)
  extract_lets -merge -useContext +onlyGivenNames y206
  have h207 : Kept s0 y206 := (State_setF_kept h165)
  extract_lets -merge -useContext +onlyGivenNames y248
  have h249 : Kept s0 y248 := (State_setF_kept h207)
  exact (State_setF_kept h249)

theorem State_switchCell_kept {s0 : State} {s : State} {c : ℕ} {e : SchedEnt} (h_s : Kept s0 s) :
    Kept s0 (State.switchCell s c e) := by
  unfold State.switchCell
  refine Kept.ite' (fun _ => ?_) (fun _ => ?_)
  · exact (State_showEntry_kept h_s)
  · extract_lets -merge -useContext +onlyGivenNames y40
    extract_lets -merge -useContext +onlyGivenNames y81
    extract_lets -merge -useContext +onlyGivenNames i82
    extract_lets -merge -useContext +onlyGivenNames y122
    have h123 : Kept s0 y122 := (Kept.ite h_s (State_setUnit_kept h_s))
    extract_lets -merge -useContext +onlyGivenNames y164
    extract_lets -merge -useContext +onlyGivenNames i165
    have h205 : Kept s0 i165 := (Kept.ite h123 (State_saveHeld_kept h123))
    extract_lets -merge -useContext +onlyGivenNames y206
    have h207 : Kept s0 y206 := (Kept.ite (State_setUnitState_kept h123) (Kept.ite (State_setUnitState_kept h123) (State_loadHeld_kept h205)))
    extract_lets -merge -useContext +onlyGivenNames i208
    extract_lets -merge -useContext +onlyGivenNames y248
    have h249 : Kept s0 y248 := (Kept.ite h207 (State_setUnit_kept h207))
    exact (State_barError_kept (State_showEntry_kept h249))

theorem State_slotSwitch_kept {s0 : State} {s : State} {u : ℕ} {e : SchedEnt} (h_s : Kept s0 s) :
    Kept s0 (State.slotSwitch s u e) := by
  unfold State.slotSwitch
  extract_lets -merge -useContext +onlyGivenNames y40
  refine Kept.ite' (fun _ => ?_) (fun _ => ?_)
  · exact (State_showEntry_kept h_s)
  · refine Kept.ite' (fun _ => ?_) (fun _ => ?_)
    · extract_lets -merge -useContext +onlyGivenNames y81
      have h82 : Kept s0 y81 := (Kept.ite h_s (State_endSteps_kept h_s))
      exact (Kept.ite (State_setUnit_kept h82) (State_switchCell_kept h82))
    · exact (State_showEntry_kept (State_cutEngine_kept h_s))

theorem State_settle_kept {s0 : State} {s : State} {c : ℕ} (h_s : Kept s0 s) :
    Kept s0 (State.settle s c) := by
  unfold State.settle
  exact (Kept.ite (Kept.foldl (State_setUnit_kept h_s) (fun x0 x2 h1 => (by
    split
    · exact (State_snapWrite_kept h1)
    · exact (State_switchCell_kept h1)))) h_s)

theorem execRemoteWriteArrival_kept {s0 : State} {n : ℕ} {s : State} (h_s : Kept s0 s) :
    KeptNext s0 (execRemoteWriteArrival n s) := by
  unfold execRemoteWriteArrival
  exact (KeptNext.next (State_settle_kept (remoteWriteArrival_kept h_s)))

theorem execCommitArrival_kept {s0 : State} {n : ℕ} {s : State} (h_s : Kept s0 s) :
    KeptNext s0 (execCommitArrival n s) := by
  unfold execCommitArrival
  exact (KeptNext.next (State_settle_kept (commitArrival_kept h_s)))

theorem slotBoundary_kept {s0 : State} {u : ℕ} {t : ℕ} {s : State} (h_s : Kept s0 s) :
    Kept s0 (slotBoundary u t s) := by
  unfold slotBoundary
  extract_lets -merge -useContext +onlyGivenNames y40
  have h41 : Kept s0 y40 := (State_at_kept h_s)
  exact (Kept.ite h41 (State_slotSwitch_kept h41))

theorem execSlotBoundary_kept {s0 : State} {u : ℕ} {t : ℕ} {s : State} (h_s : Kept s0 s) :
    KeptNext s0 (execSlotBoundary u t s) := by
  unfold execSlotBoundary
  exact (KeptNext.next (slotBoundary_kept h_s))

theorem State_beginFrame_kept {s0 : State} {s : State} {u : ℕ} {seq : ℕ} (h_s : Kept s0 s) :
    Kept s0 (State.beginFrame s u seq) := by
  unfold State.beginFrame
  extract_lets -merge -useContext +onlyGivenNames y40
  extract_lets -merge -useContext +onlyGivenNames y81
  have h82 : Kept s0 y81 := (State_setUnit_kept h_s)
  extract_lets -merge -useContext +onlyGivenNames y123
  have h124 : Kept s0 y123 := (State_setF_kept h82)
  exact (Kept.foldl h124 (fun x125 x127 h126 => (Kept.ite (State_setJobState_kept h126) h126)))

theorem frameSelfWrap_kept {s0 s : State} {u t : Nat} (h : Kept s0 s) : Kept s0 (frameSelfWrap u t s) := by
  unfold frameSelfWrap
  have hb : ∀ (a : State) (q : Nat), Kept a (a.beginFrame u q) := fun a q => State_beginFrame_kept Kept.refl
  extract_lets s1 x m now s2 s3 s4 s5 s6 s7
  have h1 : Kept s0 s1 := State_at_kept h
  have h3 : Kept s2 s3 := hb s2 _
  clear_value s3
  have h4 : Kept s0 s4 := ⟨h3.q.trans h1.q, h1.n, fun w => h3.m (h1.m w)⟩
  have h7 : Kept s0 s7 := State_event_kept (State_setF_kept (State_setF_kept h4))
  exact Kept.ite h1 (Kept.ite (State_raiseSafe_kept h7) h7)

theorem execFrameSelfWrap_kept {s0 : State} {u : ℕ} {t : ℕ} {s : State} (h_s : Kept s0 s) :
    KeptNext s0 (execFrameSelfWrap u t s) := by
  unfold execFrameSelfWrap
  exact (KeptNext.next (frameSelfWrap_kept h_s))

theorem frameStartReceive_kept {s0 : State} {u : ℕ} {seq : ℕ} {t : ℕ} {s : State} (h_s : Kept s0 s) :
    Kept s0 (frameStartReceive u seq t s) := by
  unfold frameStartReceive
  extract_lets -merge -useContext +onlyGivenNames y40
  have h41 : Kept s0 y40 := (State_at_kept h_s)
  extract_lets -merge -useContext +onlyGivenNames y82
  extract_lets -merge -useContext +onlyGivenNames y123
  extract_lets -merge -useContext +onlyGivenNames y164
  extract_lets -merge -useContext +onlyGivenNames y205
  refine Kept.ite' (fun _ => ?_) (fun _ => ?_)
  · exact h41
  · refine Kept.ite' (fun _ => ?_) (fun _ => ?_)
    · exact (State_event_kept h41)
    · extract_lets -merge -useContext +onlyGivenNames y246
      have h247 : Kept s0 y246 := (State_beginFrame_kept h41)
      extract_lets -merge -useContext +onlyGivenNames y288
      have h289 : Kept s0 y288 := (State_setF_kept h247)
      extract_lets -merge -useContext +onlyGivenNames y330
      have h331 : Kept s0 y330 := (State_setF_kept h289)
      exact (Kept.ite h331 (State_slotSwitch_kept h331))

theorem execFrameStartReceive_kept {s0 : State} {u : ℕ} {seq : ℕ} {t : ℕ} {s : State} (h_s : Kept s0 s) :
    KeptNext s0 (execFrameStartReceive u seq t s) := by
  unfold execFrameStartReceive
  exact (KeptNext.next (frameStartReceive_kept h_s))

theorem State_cutCell_kept {s0 : State} {s : State} {c : ℕ} {j : ℕ} (h_s : Kept s0 s) :
    Kept s0 (State.cutCell s c j) := by
  unfold State.cutCell
  extract_lets -merge -useContext +onlyGivenNames y40
  extract_lets -merge -useContext +onlyGivenNames y81
  have h82 : Kept s0 y81 := (Kept.ite (State_endSteps_kept h_s) h_s)
  split
  · exact h82
  · extract_lets -merge -useContext +onlyGivenNames y127
    have h128 : Kept s0 y127 := (Kept.ite (State_jobReset_kept h82) h82)
    extract_lets -merge -useContext +onlyGivenNames y169
    extract_lets -merge -useContext +onlyGivenNames y210
    exact (State_setUnit_kept h128)

theorem deadlineExpiry_kept {s0 : State} {u : ℕ} {t : ℕ} {s : State} (h_s : Kept s0 s) :
    Kept s0 (deadlineExpiry u t s) := by
  unfold deadlineExpiry
  extract_lets -merge -useContext +onlyGivenNames y40
  have h41 : Kept s0 y40 := (State_at_kept h_s)
  refine Kept.ite' (fun _ => ?_) (fun _ => ?_)
  · exact h41
  · extract_lets -merge -useContext +onlyGivenNames y82
    refine Kept.ite' (fun _ => ?_) (fun _ => ?_)
    · exact (Kept.foldl h41 (fun x83 x85 h84 => (by
        split
        · exact (State_cutCell_kept h84))))
    · exact (Kept.ite (State_cutEngine_kept h41) h41)

theorem execDeadlineExpiry_kept {s0 : State} {u : ℕ} {t : ℕ} {s : State} (h_s : Kept s0 s) :
    KeptNext s0 (execDeadlineExpiry u t s) := by
  unfold execDeadlineExpiry
  exact (KeptNext.next (deadlineExpiry_kept h_s))

end Sys2Proof.Machine
end

