-- ==== Sys2Proof/Laws/KeptEngines.lean ====
section
/-! SUPPORT. `Kept` for the operations of the Image, Attention and Grid engines: one lemma for each. -/

namespace Sys2Proof.Machine

theorem imgWriteRow_kept {s0 : State} {u : ℕ} {base : ℕ} {pitch : ℕ} {row : ℕ} {l : List ℕ}  :
    KeptEng s0 (imgWriteRow u base pitch row l) := by
  unfold imgWriteRow
  exact Eng_write_kept

theorem imgLevels_kept {s0 : State} {u : Nat} {r : ImgRun} {n l : Nat} {a b c : List (List Nat)} : KeptEng s0 (imgLevels u r n l a b c) := by
  induction n generalizing l a b c with
  | zero => exact KeptEng.pure
  | succ n ih =>
    unfold imgLevels
    refine KeptEng.bind (Eng_for_kept fun _ => imgWriteRow_kept) (fun _ => ?_)
    split
    · exact KeptEng.bind (Eng_for_kept fun _ => imgWriteRow_kept) (fun _ => ih)
    · exact ih

theorem imgHeader_kept {s0 : State} {u : ℕ} {r : ImgRun}  :
    KeptEng s0 (imgHeader u r) := by
  unfold imgHeader
  exact Eng_read_kept

theorem imgSetup_kept {s0 : State} {u : ℕ} {a : ℕ}  :
    KeptEng s0 (imgSetup u a) := by
  unfold imgSetup
  refine KeptEng.bind ?_ ?_
  · exact Eng_block_kept
  intro x0
  refine KeptEng.bind ?_ ?_
  · exact Eng_need_kept
  intro x1
  refine KeptEng.bind ?_ ?_
  · exact Eng_read_kept
  intro x2
  extract_lets -merge -useContext +onlyGivenNames y43
  refine KeptEng.bind ?_ ?_
  · exact Eng_need_kept
  intro x44
  refine KeptEng.bind ?_ ?_
  · exact Eng_read_kept
  intro x45
  extract_lets -merge -useContext +onlyGivenNames y86
  refine KeptEng.bind ?_ ?_
  · exact Eng_need_kept
  intro x87
  exact KeptEng.pure

theorem State_imgEnd_kept {s0 : State} {s : State} {u : ℕ} {r : ImgRun} {status : ℕ} {h' : List ℕ} (h_s : Kept s0 s) :
    Kept s0 (State.imgEnd s u r status h') := by
  unfold State.imgEnd
  exact (State_engEnd_kept h_s)

theorem frameCmd_kept {s0 : State} {u : ℕ} {t : ℕ} {s : State} (h_s : Kept s0 s) :
    Kept s0 (frameCmd u t s) := by
  unfold frameCmd
  extract_lets -merge -useContext +onlyGivenNames y40
  have h41 : Kept s0 y40 := (State_at_kept h_s)
  split
  · exact h41
  · refine Kept.ite' (fun _ => ?_) (fun _ => ?_)
    · exact h41
    · extract_lets -merge -useContext +onlyGivenNames y86
      have h87 : Kept s0 y86 := (State_setF_kept (State_setF_kept h41))
      split
      · rename_i z88 z89 e90
        have h91 : Kept s0 z89 := (KeptRes.ofEq e90 (KeptEng.run (KeptEng.bind imgSetup_kept (fun x92 => (KeptEng.bind imgHeader_kept (fun x93 => KeptEng.pure)))) h87)).st
        exact (State_engEnd_kept h91)
      · rename_i z94 z95 z96 e97
        have h98 : Kept s0 z96 := (KeptRes.ofEq e97 (KeptEng.run (KeptEng.bind imgSetup_kept (fun x99 => (KeptEng.bind imgHeader_kept (fun x100 => KeptEng.pure)))) h87)).st
        extract_lets -merge -useContext +onlyGivenNames y141
        have h142 : Kept s0 y141 := (Kept.mk' h98)
        extract_lets -merge -useContext +onlyGivenNames y183
        have h184 : Kept s0 y183 := (State_setF_kept h142)
        exact (Kept.ite (State_imgEnd_kept h184) h184)

theorem execFrame_kept {s0 : State} {u : ℕ} {t : ℕ} {s : State} (h_s : Kept s0 s) :
    KeptNext s0 (execFrame u t s) := by
  unfold execFrame
  exact (KeptNext.next (frameCmd_kept h_s))

theorem imgLines_kept {s0 : State} {u : Nat} {r : ImgRun} {p : Nat} {l : List Nat} : KeptEng s0 (imgLines u r p l) := by
  induction l with
  | nil => exact KeptEng.pure
  | cons a t ih => exact KeptEng.bind Eng_read_kept (fun _ => KeptEng.bind ih (fun _ => KeptEng.pure))

theorem State_imgRowDone_kept {s0 : State} {s : State} {u : ℕ} {r : ImgRun} {y : List ℕ} (h_s : Kept s0 s) :
    Kept s0 (State.imgRowDone s u r y) := by
  unfold State.imgRowDone
  extract_lets -merge -useContext +onlyGivenNames y40
  extract_lets -merge -useContext +onlyGivenNames y81
  extract_lets -merge -useContext +onlyGivenNames y122
  have h123 : Kept s0 y122 := (State_progress_kept (Kept.mk' h_s))
  extract_lets -merge -useContext +onlyGivenNames y164
  have h165 : Kept s0 y164 := (State_setF_kept h123)
  extract_lets -merge -useContext +onlyGivenNames y206
  have h207 : Kept s0 y206 := (State_setF_kept h165)
  exact (State_setF_kept h207)

theorem imgRow_kept {s0 : State} {u : ℕ} {r : ImgRun} {h' : List ℕ}  :
    KeptEng s0 (imgRow u r h') := by
  unfold imgRow
  extract_lets -merge -useContext +onlyGivenNames y40
  refine KeptEng.bind ?_ ?_
  · exact imgLines_kept
  intro x41
  extract_lets -merge -useContext +onlyGivenNames y82
  extract_lets -merge -useContext +onlyGivenNames y123
  extract_lets -merge -useContext +onlyGivenNames y164
  extract_lets -merge -useContext +onlyGivenNames y205
  extract_lets -merge -useContext +onlyGivenNames y246
  refine KeptEng.bind ?_ ?_
  · exact imgWriteRow_kept
  intro x247
  refine KeptEng.bind ?_ ?_
  · exact (KeptEng.modify (fun x249 h250 => (State_imgRowDone_kept h250)))
  intro x248
  extract_lets -merge -useContext +onlyGivenNames i251
  extract_lets -merge -useContext +onlyGivenNames y291
  extract_lets -merge -useContext +onlyGivenNames i292
  extract_lets -merge -useContext +onlyGivenNames i293
  have h332 : ∀ u334, KeptEng s0 (i293 u334) := (fun x333 => KeptEng.pure)
  extract_lets -merge -useContext +onlyGivenNames y335
  have h336 : ∀ u339, KeptEng s0 (y335 u339) := (fun x337 => (KeptEng.ite (KeptEng.bind imgLevels_kept (fun x338 => (h332 ()))) (h332 ())))
  clear_value y291
  split
  · refine KeptEng.bind ?_ ?_
    · exact imgWriteRow_kept
    intro x342
    exact (h336 ())
  · exact (h336 ())

theorem imageRowProduce_kept {s0 : State} {u : ℕ} {s : State} (h_s : Kept s0 s) :
    Kept s0 (imageRowProduce u s) := by
  unfold imageRowProduce
  split
  · split
    · rename_i z4 z5 e6
      have h7 : Kept s0 z5 := (KeptRes.ofEq e6 (KeptEng.run imgHeader_kept h_s)).st
      exact (State_imgEnd_kept h7)
    · rename_i z8 z9 e10
      have h11 : Kept s0 z9 := (KeptRes.ofEq e10 (KeptEng.run imgHeader_kept h_s)).st
      refine Kept.ite' (fun _ => ?_) (fun _ => ?_)
      · exact (State_imgEnd_kept h11)
      · refine Kept.ite' (fun _ => ?_) (fun _ => ?_)
        · exact h11
        · split
          · rename_i z12 z13 e14
            have h15 : Kept s0 z13 := (KeptRes.ofEq e14 (KeptEng.run imgRow_kept h11)).st
            exact (State_imgEnd_kept h15)
          · rename_i z16 z17 e18
            have h19 : Kept s0 z17 := (KeptRes.ofEq e18 (KeptEng.run imgRow_kept h11)).st
            extract_lets -merge -useContext +onlyGivenNames y60
            have h61 : Kept s0 y60 := (Kept.mk' h19)
            exact (Kept.ite (State_imgEnd_kept h61) h61)
  · exact h_s

theorem execImageRowProduce_kept {s0 : State} {u : ℕ} {s : State} (h_s : Kept s0 s) :
    KeptNext s0 (execImageRowProduce u s) := by
  unfold execImageRowProduce
  exact (KeptNext.next (imageRowProduce_kept h_s))

theorem lineTimeout_kept {s0 : State} {u : ℕ} {t : ℕ} {s : State} (h_s : Kept s0 s) :
    Kept s0 (lineTimeout u t s) := by
  unfold lineTimeout
  extract_lets -merge -useContext +onlyGivenNames y40
  have h41 : Kept s0 y40 := (State_at_kept h_s)
  split
  · split
    · rename_i z46 z47 e48
      have h49 : Kept s0 z47 := (KeptRes.ofEq e48 (KeptEng.run imgHeader_kept h41)).st
      exact (State_imgEnd_kept h49)
    · rename_i z50 z51 e52
      have h53 : Kept s0 z51 := (KeptRes.ofEq e52 (KeptEng.run imgHeader_kept h41)).st
      refine Kept.ite' (fun _ => ?_) (fun _ => ?_)
      · exact (State_imgEnd_kept h53)
      · exact (Kept.ite (State_imgEnd_kept h53) h53)
  · exact h41

theorem execLineTimeout_kept {s0 : State} {u : ℕ} {t : ℕ} {s : State} (h_s : Kept s0 s) :
    KeptNext s0 (execLineTimeout u t s) := by
  unfold execLineTimeout
  exact (KeptNext.next (lineTimeout_kept h_s))

theorem State_imgSeen_kept {s0 : State} {s : State} {a : ℕ} (h_s : Kept s0 s) :
    Kept s0 (State.imgSeen s a) := by
  unfold State.imgSeen
  exact (Kept.mk' h_s)

theorem State_imgShort_kept {s0 : State} {s : State} {a : ℕ} (h_s : Kept s0 s) :
    Kept s0 (State.imgShort s a) := by
  unfold State.imgShort
  exact (Kept.foldl h_s (fun x0 x2 h1 => (by
    split
    · refine Kept.ite' (fun _ => ?_) (fun _ => ?_)
      · split
        · rename_i z7 z8 e9
          have h10 : Kept s0 z8 := (KeptRes.ofEq e9 (KeptEng.run imgHeader_kept h1)).st
          exact (State_imgEnd_kept h10)
        · rename_i z11 z12 e13
          have h14 : Kept s0 z12 := (KeptRes.ofEq e13 (KeptEng.run imgHeader_kept h1)).st
          exact (Kept.ite (State_imgEnd_kept h14) h14)
      · exact h1
    · exact h1)))

theorem State_bindCtx_kept {s0 : State} {s : State} {n : ℕ} {kind : ℕ} {id : ℕ} (h_s : Kept s0 s) :
    Kept s0 (State.bindCtx s n kind id) := by
  unfold State.bindCtx
  exact (State_setCtx_kept h_s)

theorem Eng_poolRead_kept {s0 : State} {u : ℕ} {a : ℕ} {n : ℕ}  :
    KeptEng s0 (Eng.poolRead u a n) := by
  unfold Eng.poolRead
  refine KeptEng.get (fun x0 h1 => ?_)
  extract_lets -merge -useContext +onlyGivenNames y42
  refine KeptEng.ite' (fun _ => ?_) (fun _ => ?_)
  · refine KeptEng.bind ?_ ?_
    · exact (KeptEng.set (State_refuseAccess_kept h1))
    intro x43
    exact KeptEng.err
  · refine KeptEng.ite' (fun _ => ?_) (fun _ => ?_)
    · refine KeptEng.bind ?_ ?_
      · exact (KeptEng.set (State_countEcc_kept h1))
      intro x44
      exact KeptEng.err
    · refine KeptEng.bind ?_ ?_
      · exact (KeptEng.set (State_noteRead_kept h1))
      intro x45
      exact KeptEng.pure

theorem Eng_poolWrite_kept {s0 : State} {u : ℕ} {a : ℕ} {bs : List Byte}  :
    KeptEng s0 (Eng.poolWrite u a bs) := by
  unfold Eng.poolWrite
  refine KeptEng.get (fun x0 h1 => ?_)
  extract_lets -merge -useContext +onlyGivenNames y42
  refine KeptEng.ite' (fun _ => ?_) (fun _ => ?_)
  · refine KeptEng.bind ?_ ?_
    · exact (KeptEng.set (State_refuseAccess_kept h1))
    intro x43
    exact KeptEng.err
  · split
    · rename_i z44 z45 e46
      have h47 : Kept s0 z44 := Kept1.ofEq e46 (State_writeMem_kept h1)
      refine KeptEng.bind ?_ ?_
      · exact (KeptEng.set h47)
      intro x48
      refine KeptEng.ite' (fun _ => ?_) (fun _ => ?_)
      · refine KeptEng.bind ?_ ?_
        · exact (KeptEng.set (State_countEcc_kept h47))
        intro x49
        exact KeptEng.err
      · exact KeptEng.pure

theorem State_registerCtx_kept {s0 : State} {s : State} {u : ℕ} {writer : Bool} {l : List ℕ} (h_s : Kept s0 s) :
    Kept s0 (State.registerCtx s u writer l) := by
  unfold State.registerCtx
  exact (Kept.mk' h_s)

theorem State_grantCtx_kept {s0 : State} {s : State} {u : ℕ} (h_s : Kept s0 s) :
    Kept s0 (State.grantCtx s u) := by
  unfold State.grantCtx
  exact (Kept.mk' h_s)

theorem State_askHomes_kept {s0 s : State} {u : Nat} {w : Bool} {names l : List Nat} (h : Kept s0 s) :
    Kept s0 (s.askHomes u w names l).1 := by
  induction l generalizing s with
  | nil => exact h
  | cons a t ih =>
    unfold State.askHomes
    extract_lets s1
    have h1 : Kept s0 s1 := State_registerCtx_kept h
    exact Kept1.ite (ih (State_grantCtx_kept h1)) h1

theorem Eng_slot_kept {s0 : State} {b : List ℕ} {i : ℕ}  :
    KeptEng s0 (Eng.slot b i) := by
  unfold Eng.slot
  split
  · exact KeptEng.pure
  · exact KeptEng.err

theorem Eng_row_kept {s0 : State} {u : ℕ} {d : Desc} {r : ℕ}  :
    KeptEng s0 (Eng.row u d r) := by
  unfold Eng.row
  refine KeptEng.bind ?_ ?_
  · exact Eng_read_kept
  intro x0
  exact KeptEng.pure

theorem Eng_rows_kept {s0 : State} {u : ℕ} {d : Desc}  :
    KeptEng s0 (Eng.rows u d) := by
  unfold Eng.rows
  exact (Eng_collect_kept (fun x0 => Eng_row_kept))

theorem Eng_putRow_kept {s0 : State} {u : ℕ} {d : Desc} {r : ℕ} {es : List ℕ}  :
    KeptEng s0 (Eng.putRow u d r es) := by
  unfold Eng.putRow
  exact Eng_write_kept

theorem attnPut_kept {s0 : State} {u : ℕ} {o : Desc} {st : Option Desc} {r : ℕ} {a : AttnAcc}  :
    KeptEng s0 (attnPut u o st r a) := by
  unfold attnPut
  refine KeptEng.bind ?_ ?_
  · exact Eng_putRow_kept
  intro x0
  split
  · exact Eng_putRow_kept
  · exact KeptEng.pure

theorem Eng_attnCount_kept {s0 : State} {u : ℕ} {rows : ℕ} {keys : ℕ} {d : ℕ} {heads : ℕ} {per : ℕ}  :
    KeptEng s0 (Eng.attnCount u rows keys d heads per) := by
  unfold Eng.attnCount
  refine KeptEng.get (fun x0 h1 => ?_)
  extract_lets -merge -useContext +onlyGivenNames y42
  have h43 : Kept s0 y42 := (State_setF_kept h1)
  exact (KeptEng.set (State_progress_kept h43))

theorem fwdDense_kept {s0 : State} {u : ℕ} {b : List ℕ}  :
    KeptEng s0 (fwdDense u b) := by
  unfold fwdDense
  refine KeptEng.bind ?_ ?_
  · exact Eng_slot_kept
  intro x0
  refine KeptEng.bind ?_ ?_
  · exact Eng_slot_kept
  intro x1
  refine KeptEng.bind ?_ ?_
  · exact Eng_slot_kept
  intro x2
  refine KeptEng.bind ?_ ?_
  · exact Eng_slot_kept
  intro x3
  extract_lets -merge -useContext +onlyGivenNames y44
  refine KeptEng.bind ?_ ?_
  · exact Eng_need_kept
  intro x45
  refine KeptEng.bind ?_ ?_
  · exact Eng_need_kept
  intro x46
  extract_lets -merge -useContext +onlyGivenNames y87
  have h88 : ∀ u219, KeptEng s0 (y87 u219) := (fun x89 => (KeptEng.bind Eng_rows_kept (fun x90 => (KeptEng.bind Eng_rows_kept (fun x91 => (KeptEng.bind Eng_rows_kept (fun x92 => (KeptEng.bind (Eng_for_kept (fun x93 => (by
    extract_lets -merge -useContext +onlyGivenNames y134
    extract_lets -merge -useContext +onlyGivenNames y175
    extract_lets -merge -useContext +onlyGivenNames y216
    exact attnPut_kept))) (fun x217 => (KeptEng.bind Eng_attnCount_kept (fun x218 => KeptEng.pure)))))))))))
  refine KeptEng.ite' (fun _ => ?_) (fun _ => ?_)
  · refine KeptEng.bind ?_ ?_
    · exact Eng_slot_kept
    intro x220
    refine KeptEng.bind ?_ ?_
    · exact Eng_need_kept
    intro x221
    refine KeptEng.bind ?_ ?_
    · exact Eng_need_kept
    intro x222
    refine KeptEng.bind ?_ ?_
    · exact KeptEng.pure
    intro x223
    exact (h88 _)
  · refine KeptEng.bind ?_ ?_
    · exact KeptEng.pure
    intro x224
    exact (h88 _)

theorem Eng_ctxRows_kept {s0 : State} {u : ℕ} {b : List ℕ} {x : Ctx} {q : Desc} {val : Bool} {h' : ℕ} {n : ℕ}  :
    KeptEng s0 (Eng.ctxRows u b x q val h' n) := by
  unfold Eng.ctxRows
  exact (Eng_collect_kept (fun x0 => (KeptEng.get (fun x1 h2 => (KeptEng.bind Eng_poolRead_kept (fun x3 => KeptEng.pure))))))

theorem Eng_wrkv_kept {s0 : State} {u : ℕ} {b : List ℕ} {x : Ctx} {q : Desc} {ks : List (List ℕ)} {vs : List (List ℕ)} {heads : ℕ} {row0 : ℕ} {nq : ℕ}  :
    KeptEng s0 (Eng.wrkv u b x q ks vs heads row0 nq) := by
  unfold Eng.wrkv
  exact (Eng_for_kept (fun x0 => (by
    extract_lets -merge -useContext +onlyGivenNames y41
    extract_lets -merge -useContext +onlyGivenNames y82
    extract_lets -merge -useContext +onlyGivenNames y123
    extract_lets -merge -useContext +onlyGivenNames y164
    refine KeptEng.get (fun x165 h166 => ?_)
    extract_lets -merge -useContext +onlyGivenNames y207
    refine KeptEng.bind ?_ ?_
    · exact Eng_poolWrite_kept
    intro x208
    exact Eng_poolWrite_kept)))

theorem fwdCtxSetup_kept {s0 : State} {u : ℕ} {b : List ℕ}  :
    KeptEng s0 (fwdCtxSetup u b) := by
  unfold fwdCtxSetup
  refine KeptEng.bind ?_ ?_
  · exact Eng_slot_kept
  intro x0
  refine KeptEng.bind ?_ ?_
  · exact Eng_slot_kept
  intro x1
  extract_lets -merge -useContext +onlyGivenNames y42
  refine KeptEng.bind ?_ ?_
  · exact Eng_need_kept
  intro x43
  refine KeptEng.bind ?_ ?_
  · exact Eng_need_kept
  intro x44
  extract_lets -merge -useContext +onlyGivenNames i45
  have h85 : ∀ u130, KeptEng s0 (i45 u130) := (fun x86 => (KeptEng.bind Eng_read_kept (fun x87 => (by
    extract_lets -merge -useContext +onlyGivenNames y128
    refine KeptEng.bind ?_ ?_
    · exact Eng_need_kept
    intro x129
    exact KeptEng.pure))))
  extract_lets -merge -useContext +onlyGivenNames y131
  have h132 : ∀ u137, KeptEng s0 (y131 u137) := (fun x133 => (KeptEng.ite (KeptEng.bind Eng_slot_kept (fun x134 => (KeptEng.bind Eng_need_kept (fun x135 => (KeptEng.bind Eng_need_kept (fun x136 => (h85 ()))))))) (h85 ())))
  refine KeptEng.ite' (fun _ => ?_) (fun _ => ?_)
  · refine KeptEng.bind ?_ ?_
    · exact Eng_slot_kept
    intro x138
    refine KeptEng.bind ?_ ?_
    · exact Eng_slot_kept
    intro x139
    refine KeptEng.bind ?_ ?_
    · exact Eng_need_kept
    intro x140
    refine KeptEng.bind ?_ ?_
    · exact Eng_need_kept
    intro x141
    exact (h132 ())
  · exact (h132 ())

theorem fwdCtx_kept {s0 : State} {u : ℕ} {b : List ℕ} {es : List CtxEnt}  :
    KeptEng s0 (fwdCtx u b es) := by
  unfold fwdCtx
  refine KeptEng.bind ?_ ?_
  · exact Eng_slot_kept
  intro x0
  refine KeptEng.bind ?_ ?_
  · exact Eng_slot_kept
  intro x1
  extract_lets -merge -useContext +onlyGivenNames i2
  extract_lets -merge -useContext +onlyGivenNames i3
  have h42 : ∀ u45, KeptEng s0 (i3 u45) := (fun x43 => (KeptEng.bind Eng_slot_kept (fun x44 => Eng_rows_kept)))
  extract_lets -merge -useContext +onlyGivenNames y46
  have h47 : ∀ u331, KeptEng s0 (y46 u331) := (fun x48 => (KeptEng.get (fun x49 h50 => (KeptEng.bind Eng_need_kept (fun x51 => (KeptEng.bind Eng_need_kept (fun x52 => (KeptEng.bind Eng_rows_kept (fun x53 => (by
    extract_lets -merge -useContext +onlyGivenNames i54
    have h94 : ∀ u271, KeptEng s0 (i54 u271) := (fun x95 => (KeptEng.bind (Eng_for_kept (fun x96 => (by
      split
      · extract_lets -merge -useContext +onlyGivenNames y140
        refine KeptEng.get (fun x141 h142 => ?_)
        extract_lets -merge -useContext +onlyGivenNames y183
        extract_lets -merge -useContext +onlyGivenNames y224
        refine KeptEng.bind ?_ ?_
        · exact Eng_ctxRows_kept
        intro x225
        refine KeptEng.bind ?_ ?_
        · exact Eng_ctxRows_kept
        intro x226
        refine KeptEng.bind ?_ ?_
        · exact (Eng_for_kept (fun x228 => (by
          extract_lets -merge -useContext +onlyGivenNames y269
          exact attnPut_kept)))
        intro x227
        exact Eng_attnCount_kept))) (fun x270 => KeptEng.pure)))
    extract_lets -merge -useContext +onlyGivenNames y272
    have h273 : ∀ u328, KeptEng s0 (y272 u328) := (fun x274 => (by
      unfold y272
      beta_reduce
      extract_lets -merge -useContext +onlyGivenNames y315
      have h316 : ∀ u325, KeptEng s0 (y315 u325) := (fun x317 => (KeptEng.ite (KeptEng.bind (Eng_for_kept (fun x318 => (by
        split
        · refine KeptEng.get (fun x322 h323 => ?_)
          exact Eng_wrkv_kept))) (fun x324 => (h94 ()))) (h94 ())))
      refine KeptEng.ite' (fun _ => ?_) (fun _ => ?_)
      · refine KeptEng.bind ?_ ?_
        · exact (h42 _)
        intro x326
        exact (h316 _)
      · refine KeptEng.bind ?_ ?_
        · exact KeptEng.pure
        intro x327
        exact (h316 _)))
    refine KeptEng.ite' (fun _ => ?_) (fun _ => ?_)
    · refine KeptEng.bind ?_ ?_
      · exact (h42 _)
      intro x329
      exact (h273 _)
    · refine KeptEng.bind ?_ ?_
      · exact KeptEng.pure
      intro x330
      exact (h273 _)))))))))))
  refine KeptEng.ite' (fun _ => ?_) (fun _ => ?_)
  · refine KeptEng.bind ?_ ?_
    · exact Eng_slot_kept
    intro x332
    refine KeptEng.bind ?_ ?_
    · exact KeptEng.pure
    intro x333
    exact (h47 _)
  · refine KeptEng.bind ?_ ?_
    · exact KeptEng.pure
    intro x334
    exact (h47 _)

theorem bwdCmdRun_kept {s0 : State} {u : ℕ} {b : List ℕ}  :
    KeptEng s0 (bwdCmdRun u b) := by
  unfold bwdCmdRun
  refine KeptEng.bind ?_ ?_
  · exact Eng_slot_kept
  intro x0
  refine KeptEng.bind ?_ ?_
  · exact Eng_slot_kept
  intro x1
  refine KeptEng.bind ?_ ?_
  · exact Eng_slot_kept
  intro x2
  refine KeptEng.bind ?_ ?_
  · exact Eng_slot_kept
  intro x3
  refine KeptEng.bind ?_ ?_
  · exact Eng_slot_kept
  intro x4
  refine KeptEng.bind ?_ ?_
  · exact Eng_slot_kept
  intro x5
  refine KeptEng.bind ?_ ?_
  · exact Eng_slot_kept
  intro x6
  refine KeptEng.bind ?_ ?_
  · exact Eng_slot_kept
  intro x7
  refine KeptEng.bind ?_ ?_
  · exact Eng_slot_kept
  intro x8
  extract_lets -merge -useContext +onlyGivenNames y49
  refine KeptEng.bind ?_ ?_
  · exact Eng_need_kept
  intro x50
  extract_lets -merge -useContext +onlyGivenNames y91
  refine KeptEng.bind ?_ ?_
  · exact Eng_need_kept
  intro x92
  refine KeptEng.bind ?_ ?_
  · exact Eng_rows_kept
  intro x93
  refine KeptEng.bind ?_ ?_
  · exact Eng_rows_kept
  intro x94
  refine KeptEng.bind ?_ ?_
  · exact Eng_rows_kept
  intro x95
  refine KeptEng.bind ?_ ?_
  · exact Eng_rows_kept
  intro x96
  refine KeptEng.bind ?_ ?_
  · exact Eng_rows_kept
  intro x97
  refine KeptEng.bind ?_ ?_
  · exact Eng_rows_kept
  intro x98
  extract_lets -merge -useContext +onlyGivenNames y139
  extract_lets -merge -useContext +onlyGivenNames y180
  extract_lets -merge -useContext +onlyGivenNames y221
  refine KeptEng.bind ?_ ?_
  · exact (Eng_for_kept (fun x223 => (by
    extract_lets -merge -useContext +onlyGivenNames y264
    extract_lets -merge -useContext +onlyGivenNames y305
    extract_lets -merge -useContext +onlyGivenNames y346
    extract_lets -merge -useContext +onlyGivenNames y387
    extract_lets -merge -useContext +onlyGivenNames y428
    extract_lets -merge -useContext +onlyGivenNames y469
    extract_lets -merge -useContext +onlyGivenNames y510
    extract_lets -merge -useContext +onlyGivenNames y551
    extract_lets -merge -useContext +onlyGivenNames y592
    extract_lets -merge -useContext +onlyGivenNames y633
    extract_lets -merge -useContext +onlyGivenNames y674
    refine KeptEng.bind ?_ ?_
    · exact (Eng_for_kept (fun x676 => Eng_putRow_kept))
    intro x675
    exact (Eng_for_kept (fun x677 => (KeptEng.bind Eng_putRow_kept (fun x678 => Eng_putRow_kept)))))))
  intro x222
  refine KeptEng.bind ?_ ?_
  · exact Eng_attnCount_kept
  intro x679
  exact KeptEng.pure

theorem Eng_appendRows_kept {s0 : State} {u : ℕ} {tent : Bool} {x : Ctx} {data : List (List ℕ)}  :
    KeptEng s0 (Eng.appendRows u tent x data) := by
  unfold Eng.appendRows
  exact (Eng_fold_kept (fun x0 x1 => (KeptEng.get (fun x2 h3 => (by
    extract_lets -merge -useContext +onlyGivenNames y44
    refine KeptEng.bind ?_ ?_
    · exact Eng_poolWrite_kept
    intro x45
    exact KeptEng.pure)))))

theorem ctxAppendRun_kept {s0 : State} {u : ℕ} {b : List ℕ}  :
    KeptEng s0 (ctxAppendRun u b) := by
  unfold ctxAppendRun
  refine KeptEng.get (fun x0 h1 => ?_)
  extract_lets -merge -useContext +onlyGivenNames y42
  extract_lets -merge -useContext +onlyGivenNames y83
  extract_lets -merge -useContext +onlyGivenNames y124
  extract_lets -merge -useContext +onlyGivenNames i125
  extract_lets -merge -useContext +onlyGivenNames i126
  have h165 : ∀ u171, KeptEng s0 (i126 u171) := (fun x166 => (KeptEng.bind Eng_appendRows_kept (fun x167 => (KeptEng.bind (KeptEng.modify (fun x168 h169 => (State_setCtx_kept h169))) (fun x170 => KeptEng.pure)))))
  extract_lets -merge -useContext +onlyGivenNames y172
  have h173 : ∀ u180, KeptEng s0 (y172 u180) := (fun x174 => (KeptEng.ite (KeptEng.bind KeptEng.pure (fun x175 => (h165 _))) (KeptEng.bind Eng_slot_kept (fun x176 => (KeptEng.bind Eng_need_kept (fun x177 => (KeptEng.bind Eng_need_kept (fun x178 => (KeptEng.bind Eng_rows_kept (fun x179 => (h165 _)))))))))))
  refine KeptEng.ite' (fun _ => ?_) (fun _ => ?_)
  · refine KeptEng.bind ?_ ?_
    · exact Eng_need_kept
    intro x181
    refine KeptEng.bind ?_ ?_
    · exact Eng_need_kept
    intro x182
    exact (h173 ())
  · refine KeptEng.bind ?_ ?_
    · exact Eng_need_kept
    intro x183
    refine KeptEng.bind ?_ ?_
    · exact Eng_need_kept
    intro x184
    exact (h173 ())

theorem ctxCommitRun_kept {s0 : State} {b : List ℕ}  :
    KeptEng s0 (ctxCommitRun b) := by
  unfold ctxCommitRun
  refine KeptEng.get (fun x0 h1 => ?_)
  extract_lets -merge -useContext +onlyGivenNames y42
  extract_lets -merge -useContext +onlyGivenNames y83
  refine KeptEng.bind ?_ ?_
  · exact Eng_need_kept
  intro x84
  extract_lets -merge -useContext +onlyGivenNames y125
  refine KeptEng.bind ?_ ?_
  · exact (KeptEng.set (State_setCtx_kept h1))
  intro x126
  exact KeptEng.pure

theorem ctxForkRun_kept {s0 : State} {u : ℕ} {b : List ℕ}  :
    KeptEng s0 (ctxForkRun u b) := by
  unfold ctxForkRun
  refine KeptEng.get (fun x0 h1 => ?_)
  extract_lets -merge -useContext +onlyGivenNames y42
  extract_lets -merge -useContext +onlyGivenNames y83
  refine KeptEng.bind ?_ ?_
  · exact Eng_need_kept
  intro x84
  refine KeptEng.bind ?_ ?_
  · exact Eng_need_kept
  intro x85
  extract_lets -merge -useContext +onlyGivenNames y126
  refine KeptEng.bind ?_ ?_
  · exact (Eng_for_kept (fun x128 => (KeptEng.get (fun x129 h130 => (KeptEng.bind Eng_poolRead_kept (fun x131 => Eng_poolWrite_kept))))))
  intro x127
  refine KeptEng.bind ?_ ?_
  · exact (KeptEng.modify (fun x133 h134 => (State_setCtx_kept h134)))
  intro x132
  exact KeptEng.pure

theorem ctxOpRun_kept {s0 : State} {u : ℕ} {b : List ℕ}  :
    KeptEng s0 (ctxOpRun u b) := by
  unfold ctxOpRun
  split
  · refine KeptEng.bind ?_ ?_
    · exact (KeptEng.modify (fun x3 h4 => (State_bindCtx_kept h4)))
    intro x2
    exact KeptEng.pure
  · exact ctxAppendRun_kept
  · exact ctxCommitRun_kept
  · exact ctxForkRun_kept
  · refine KeptEng.bind ?_ ?_
    · exact (KeptEng.modify (fun x14 h15 => (State_freeCtx_kept h15)))
    intro x13
    exact KeptEng.pure

theorem State_ctxOpEnd_kept {s0 : State} {s : State} {u : ℕ} {b : List ℕ} {status : ℕ} (h_s : Kept s0 s) :
    Kept s0 (State.ctxOpEnd s u b status) := by
  unfold State.ctxOpEnd
  exact (State_engEnd_kept h_s)

theorem State_ctxRun_kept {s0 : State} {s : State} {u : ℕ} {c : CtxCmd} (h_s : Kept s0 s) :
    Kept s0 (State.ctxRun s u c) := by
  unfold State.ctxRun
  extract_lets -merge -useContext +onlyGivenNames y40
  refine Kept.ite' (fun _ => ?_) (fun _ => ?_)
  · extract_lets -merge -useContext +onlyGivenNames y81
    split
    · exact (State_engEnd_kept h_s)
    · exact (State_engRun_kept h_s fwdCtx_kept)
  · split
    · exact (State_ctxOpEnd_kept h_s)
    · split
      · rename_i z91 z92 e93
        have h94 : Kept s0 z92 := (KeptRes.ofEq e93 (KeptEng.run ctxOpRun_kept h_s)).st
        exact (State_ctxOpEnd_kept h94)
      · rename_i z95 z96 e97
        have h98 : Kept s0 z96 := (KeptRes.ofEq e97 (KeptEng.run ctxOpRun_kept h_s)).st
        exact (State_ctxOpEnd_kept h98)

theorem State_ctxAdvance_kept {s0 : State} {s : State} {u : ℕ} {c : CtxCmd} (h_s : Kept s0 s) :
    Kept s0 (State.ctxAdvance s u c) := by
  unfold State.ctxAdvance
  split
  · rename_i z0 z1 z2 e3
    have h4 : Kept s0 z0 := Kept1.ofEq e3 (State_askHomes_kept h_s)
    exact (Kept.ite (State_ctxRun_kept h4) (Kept.mk' h4))

theorem attnNames_kept {s0 : State} {u : ℕ} {b : List ℕ}  :
    KeptEng s0 (attnNames u b) := by
  unfold attnNames
  refine KeptEng.bind ?_ ?_
  · exact Eng_need_kept
  intro x0
  refine KeptEng.ite' (fun _ => ?_) (fun _ => ?_)
  · exact fwdCtxSetup_kept
  · extract_lets -merge -useContext +onlyGivenNames y41
    exact KeptEng.pure

theorem attnCmd_kept {s0 : State} {opc : ℕ} {u : ℕ} {s : State} (h_s : Kept s0 s) :
    Kept s0 (attnCmd opc u s) := by
  unfold attnCmd
  split
  · exact h_s
  · refine Kept.ite' (fun _ => ?_) (fun _ => ?_)
    · exact h_s
    · split
      · rename_i z4 z5 e6
        have h7 : Kept s0 z5 := (KeptRes.ofEq e6 (KeptEng.run Eng_block_kept h_s)).st
        exact (State_engEnd_kept h7)
      · rename_i z8 z9 e10
        have h11 : Kept s0 z9 := (KeptRes.ofEq e10 (KeptEng.run Eng_block_kept h_s)).st
        split
        · rename_i z12 z13 e14
          have h15 : Kept s0 z13 := (KeptRes.ofEq e14 (KeptEng.run attnNames_kept h11)).st
          exact (Kept.ite (State_ctxOpEnd_kept h15) (State_engEnd_kept h15))
        · rename_i z16 z17 e18
          have h19 : Kept s0 z17 := (KeptRes.ofEq e18 (KeptEng.run attnNames_kept h11)).st
          exact (Kept.ite (State_engRun_kept h19 (KeptEng.ite fwdDense_kept bwdCmdRun_kept)) (State_ctxAdvance_kept h19))

theorem execFwd_kept {s0 : State} {u : ℕ} {s : State} (h_s : Kept s0 s) :
    KeptNext s0 (execFwd u s) := by
  unfold execFwd
  exact (KeptNext.next (attnCmd_kept h_s))

theorem execBwd_kept {s0 : State} {u : ℕ} {s : State} (h_s : Kept s0 s) :
    KeptNext s0 (execBwd u s) := by
  unfold execBwd
  exact (KeptNext.next (attnCmd_kept h_s))

theorem execCtxBind_kept {s0 : State} {u : ℕ} {s : State} (h_s : Kept s0 s) :
    KeptNext s0 (execCtxBind u s) := by
  unfold execCtxBind
  exact (KeptNext.next (attnCmd_kept h_s))

theorem execCtxAppend_kept {s0 : State} {u : ℕ} {s : State} (h_s : Kept s0 s) :
    KeptNext s0 (execCtxAppend u s) := by
  unfold execCtxAppend
  exact (KeptNext.next (attnCmd_kept h_s))

theorem execCtxCommit_kept {s0 : State} {u : ℕ} {s : State} (h_s : Kept s0 s) :
    KeptNext s0 (execCtxCommit u s) := by
  unfold execCtxCommit
  exact (KeptNext.next (attnCmd_kept h_s))

theorem execCtxFork_kept {s0 : State} {u : ℕ} {s : State} (h_s : Kept s0 s) :
    KeptNext s0 (execCtxFork u s) := by
  unfold execCtxFork
  exact (KeptNext.next (attnCmd_kept h_s))

theorem execCtxRelease_kept {s0 : State} {u : ℕ} {s : State} (h_s : Kept s0 s) :
    KeptNext s0 (execCtxRelease u s) := by
  unfold execCtxRelease
  exact (KeptNext.next (attnCmd_kept h_s))

theorem contextGrant_kept {s0 : State} {u : ℕ} {s : State} (h_s : Kept s0 s) :
    Kept s0 (contextGrant u s) := by
  unfold contextGrant
  split
  · exact (Kept.ite (State_ctxAdvance_kept (State_grantCtx_kept (Kept.mk' h_s))) h_s)
  · exact h_s

theorem attnCfgWrite_kept {s0 : State} {who : Who} {u : ℕ} {pool : Bool} {w : ℕ} {s : State} (h_s : Kept s0 s) :
    Kept s0 (attnCfgWrite who u pool w s) := by
  unfold attnCfgWrite
  refine Kept.ite' (fun _ => ?_) (fun _ => ?_)
  · exact (State_refuseAccess_kept h_s)
  · refine Kept.ite' (fun _ => ?_) (fun _ => ?_)
    · exact h_s
    · refine Kept.ite' (fun _ => ?_) (fun _ => ?_)
      · exact (Kept.ite h_s (State_loadF_kept h_s))
      · exact (Kept.ite h_s (State_loadF_kept h_s))

theorem execAttnCfgWrite_kept {s0 : State} {who : Who} {u : ℕ} {pool : Bool} {w : ℕ} {s : State} (h_s : Kept s0 s) :
    KeptNext s0 (execAttnCfgWrite who u pool w s) := by
  unfold execAttnCfgWrite
  exact (KeptNext.next (attnCfgWrite_kept h_s))

theorem attnCtxSel_kept {s0 : State} {who : Who} {u : ℕ} {w : ℕ} {s : State} (h_s : Kept s0 s) :
    Kept s0 (attnCtxSel who u w s) := by
  unfold attnCtxSel
  extract_lets -merge -useContext +onlyGivenNames y40
  refine Kept.ite' (fun _ => ?_) (fun _ => ?_)
  · exact (State_refuseAccess_kept h_s)
  · refine Kept.ite' (fun _ => ?_) (fun _ => ?_)
    · exact h_s
    · extract_lets -merge -useContext +onlyGivenNames y81
      extract_lets -merge -useContext +onlyGivenNames y122
      have h123 : Kept s0 y122 := (State_setF_kept h_s)
      exact (Kept.foldl h123 (fun x124 x126 h125 => (State_setF_kept h125)))

theorem execAttnCtxSel_kept {s0 : State} {who : Who} {u : ℕ} {w : ℕ} {s : State} (h_s : Kept s0 s) :
    KeptNext s0 (execAttnCtxSel who u w s) := by
  unfold execAttnCtxSel
  exact (KeptNext.next (attnCtxSel_kept h_s))

theorem gridCell_kept {s0 : State} {u : ℕ} {b : List ℕ} {r : ℕ} {c : ℕ} {l : List ℕ}  :
    KeptEng s0 (gridCell u b r c l) := by
  unfold gridCell
  exact Eng_write_kept

theorem Eng_gridRow_kept {s0 : State} {u : ℕ}  :
    KeptEng s0 (Eng.gridRow u) := by
  unfold Eng.gridRow
  exact (KeptEng.modify (fun x0 h1 => (State_progress_kept (State_setF_kept h1))))

theorem Eng_gridCount_kept {s0 : State} {u : ℕ} {n : ℕ}  :
    KeptEng s0 (Eng.gridCount u n) := by
  unfold Eng.gridCount
  exact (KeptEng.modify (fun x0 h1 => (State_setF_kept h1)))

theorem Eng_liftTap_kept {s0 : State} {u : ℕ} {b : List ℕ} {cam : ℕ} {x : ℕ} {y : ℕ}  :
    KeptEng s0 (Eng.liftTap u b cam x y) := by
  unfold Eng.liftTap
  extract_lets -merge -useContext +onlyGivenNames y40
  extract_lets -merge -useContext +onlyGivenNames y81
  extract_lets -merge -useContext +onlyGivenNames y122
  refine KeptEng.bind ?_ ?_
  · exact Eng_read_kept
  intro x123
  exact KeptEng.pure

theorem Eng_liftAdd_kept {s0 : State} {u : ℕ} {b : List ℕ} {g : List ℕ} {x : ℕ} {y : ℕ} {acc : List ℕ × ℕ} {cam : ℕ} {h' : ℕ}  :
    KeptEng s0 (Eng.liftAdd u b g x y acc cam h') := by
  unfold Eng.liftAdd
  split
  · exact KeptEng.pure
  · refine KeptEng.bind ?_ ?_
    · exact Eng_liftTap_kept
    intro x7
    refine KeptEng.bind ?_ ?_
    · exact Eng_liftTap_kept
    intro x8
    refine KeptEng.bind ?_ ?_
    · exact Eng_liftTap_kept
    intro x9
    refine KeptEng.bind ?_ ?_
    · exact Eng_liftTap_kept
    intro x10
    exact KeptEng.pure

theorem Eng_liftCell_kept {s0 : State} {u : ℕ} {b : List ℕ} {g : List ℕ} {r : ℕ} {c : ℕ}  :
    KeptEng s0 (Eng.liftCell u b g r c) := by
  unfold Eng.liftCell
  extract_lets -merge -useContext +onlyGivenNames y40
  extract_lets -merge -useContext +onlyGivenNames y81
  extract_lets -merge -useContext +onlyGivenNames y122
  refine KeptEng.bind ?_ ?_
  · exact (Eng_fold_kept (fun x124 x125 => Eng_liftAdd_kept))
  intro x123
  split
  · extract_lets -merge -useContext +onlyGivenNames y168
    exact KeptEng.pure

theorem liftRun_kept {s0 : State} {u : ℕ} {b : List ℕ}  :
    KeptEng s0 (liftRun u b) := by
  unfold liftRun
  refine KeptEng.bind ?_ ?_
  · exact Eng_need_kept
  intro x0
  refine KeptEng.bind ?_ ?_
  · exact Eng_need_kept
  intro x1
  refine KeptEng.bind ?_ ?_
  · exact Eng_read_kept
  intro x2
  refine KeptEng.bind ?_ ?_
  · exact (Eng_collect_kept (fun x4 => Eng_liftCell_kept))
  intro x3
  extract_lets -merge -useContext +onlyGivenNames y45
  refine KeptEng.bind ?_ ?_
  · exact (Eng_for_kept (fun x47 => (KeptEng.bind gridCell_kept (fun x48 => (KeptEng.ite Eng_gridRow_kept KeptEng.pure)))))
  intro x46
  refine KeptEng.bind ?_ ?_
  · exact Eng_gridCount_kept
  intro x49
  exact KeptEng.pure

theorem scatterRun_kept {s0 : State} {u : ℕ} {b : List ℕ}  :
    KeptEng s0 (scatterRun u b) := by
  unfold scatterRun
  refine KeptEng.bind ?_ ?_
  · exact Eng_need_kept
  intro x0
  refine KeptEng.bind ?_ ?_
  · exact Eng_need_kept
  intro x1
  extract_lets -merge -useContext +onlyGivenNames y42
  refine KeptEng.bind ?_ ?_
  · exact Eng_read_kept
  intro x43
  extract_lets -merge -useContext +onlyGivenNames y84
  extract_lets -merge -useContext +onlyGivenNames y125
  refine KeptEng.bind ?_ ?_
  · exact (Eng_for_kept (fun x127 => (by
    extract_lets -merge -useContext +onlyGivenNames y168
    extract_lets -merge -useContext +onlyGivenNames y209
    extract_lets -merge -useContext +onlyGivenNames y250
    extract_lets -merge -useContext +onlyGivenNames y291
    refine KeptEng.bind ?_ ?_
    · exact gridCell_kept
    intro x292
    exact (KeptEng.ite Eng_gridRow_kept KeptEng.pure))))
  intro x126
  refine KeptEng.bind ?_ ?_
  · exact Eng_gridCount_kept
  intro x293
  exact KeptEng.pure

theorem rasterRun_kept {s0 : State} {u : ℕ} {b : List ℕ}  :
    KeptEng s0 (rasterRun u b) := by
  unfold rasterRun
  refine KeptEng.bind ?_ ?_
  · exact Eng_need_kept
  intro x0
  refine KeptEng.bind ?_ ?_
  · exact Eng_need_kept
  intro x1
  refine KeptEng.bind ?_ ?_
  · exact Eng_read_kept
  intro x2
  refine KeptEng.bind ?_ ?_
  · exact Eng_read_kept
  intro x3
  refine KeptEng.bind ?_ ?_
  · exact Eng_need_kept
  intro x4
  extract_lets -merge -useContext +onlyGivenNames y45
  refine KeptEng.bind ?_ ?_
  · exact (Eng_for_kept (fun x47 => (by
    extract_lets -merge -useContext +onlyGivenNames y88
    refine KeptEng.bind ?_ ?_
    · exact Eng_write_kept
    intro x89
    exact Eng_gridRow_kept)))
  intro x46
  refine KeptEng.bind ?_ ?_
  · exact Eng_gridCount_kept
  intro x90
  exact KeptEng.pure

theorem gridCmd_kept {s0 : State} {opc : ℕ} {u : ℕ} {s : State} (h_s : Kept s0 s) :
    Kept s0 (gridCmd opc u s) := by
  unfold gridCmd
  split
  · exact h_s
  · refine Kept.ite' (fun _ => ?_) (fun _ => ?_)
    · exact h_s
    · extract_lets -merge -useContext +onlyGivenNames y44
      have h45 : Kept s0 y44 := (State_setF_kept (State_setF_kept h_s))
      exact (State_engRun_kept h45 (KeptEng.bind Eng_block_kept (fun x46 => (KeptEng.bind Eng_need_kept (fun x47 => (by
        split
        · exact liftRun_kept
        · exact scatterRun_kept
        · exact rasterRun_kept))))))

theorem execLift_kept {s0 : State} {u : ℕ} {s : State} (h_s : Kept s0 s) :
    KeptNext s0 (execLift u s) := by
  unfold execLift
  exact (KeptNext.next (gridCmd_kept h_s))

theorem execScatter_kept {s0 : State} {u : ℕ} {s : State} (h_s : Kept s0 s) :
    KeptNext s0 (execScatter u s) := by
  unfold execScatter
  exact (KeptNext.next (gridCmd_kept h_s))

theorem execRaster_kept {s0 : State} {u : ℕ} {s : State} (h_s : Kept s0 s) :
    KeptNext s0 (execRaster u s) := by
  unfold execRaster
  exact (KeptNext.next (gridCmd_kept h_s))

end Sys2Proof.Machine
end

