-- ==== Sys2Proof/Laws/KeptJobs.lean ====
section
/-! SUPPORT. `Kept` for the operations of jobs, groups, the Track and Check engines, and clocks: one lemma for each. -/

namespace Sys2Proof.Machine

theorem State_takeRequest_kept {s0 : State} {s : State} {q : ℕ} (h_s : Kept s0 s) :
    Kept s0 (State.takeRequest s q) := by
  unfold State.takeRequest
  exact (State_setF_kept h_s)

theorem State_answer_kept {s0 : State} {s : State} {q : ℕ} {b : List ℕ} {result : ℕ} (h_s : Kept s0 s) :
    Kept s0 (State.answer s q b result) := by
  unfold State.answer
  extract_lets -merge -useContext +onlyGivenNames y40
  extract_lets -merge -useContext +onlyGivenNames y81
  extract_lets -merge -useContext +onlyGivenNames y122
  extract_lets -merge -useContext +onlyGivenNames y163
  extract_lets -merge -useContext +onlyGivenNames y204
  have h205 : Kept s0 y204 := (Kept.ite h_s (Kept.ite (State_pushCq_kept h_s) (State_event_kept h_s)))
  exact (State_setF_kept h205)

theorem State_putProgram_kept {s0 : State} {s : State} {c : ℕ} {dest : ℕ} {ws : List ℕ} (h_s : Kept s0 s) :
    Kept s0 (State.putProgram s c dest ws) := by
  unfold State.putProgram
  extract_lets -merge -useContext +onlyGivenNames y40
  extract_lets -merge -useContext +onlyGivenNames y81
  extract_lets -merge -useContext +onlyGivenNames y122
  extract_lets -merge -useContext +onlyGivenNames y163
  extract_lets -merge -useContext +onlyGivenNames y204
  have h205 : Kept s0 y204 := (State_setCell_kept h_s)
  extract_lets -merge -useContext +onlyGivenNames y246
  have h247 : Kept s0 y246 := (Kept.mk' h205)
  exact (State_setF_kept h247)

theorem State_loadPrograms_kept {s0 : State} {s : State} {j : ℕ} {p : Placement} (h_s : Kept s0 s) :
    Kept s0 (State.loadPrograms s j p) := by
  unfold State.loadPrograms
  exact (Kept.foldl h_s (fun x0 x2 h1 => (by
    split
    · extract_lets -merge -useContext +onlyGivenNames y46
      split
      · exact (Kept.ite (State_putProgram_kept h1) h1)
      · exact h1)))

theorem State_grantWindows_kept {s0 : State} {s : State} {j : ℕ} {p : Placement} {has : List (ℕ × ℕ)} (h_s : Kept s0 s) :
    Kept s0 (State.grantWindows s j p has) := by
  unfold State.grantWindows
  exact (Kept.foldl h_s (fun x0 x2 h1 => (by
    extract_lets -merge -useContext +onlyGivenNames y43
    extract_lets -merge -useContext +onlyGivenNames y84
    refine Kept.ite' (fun _ => ?_) (fun _ => ?_)
    · extract_lets -merge -useContext +onlyGivenNames y125
      have h126 : Kept s0 y125 := (State_setF_kept h1)
      exact (Kept.ite (State_winRound_kept h126) h126)
    · extract_lets -merge -useContext +onlyGivenNames y167
      have h168 : Kept s0 y167 := (Kept.foldl h1 (fun x169 x171 h170 => (State_setF_kept h170)))
      extract_lets -merge -useContext +onlyGivenNames y212
      have h213 : Kept s0 y212 := (State_setF_kept h168)
      extract_lets -merge -useContext +onlyGivenNames y254
      have h255 : Kept s0 y254 := (State_setF_kept h213)
      extract_lets -merge -useContext +onlyGivenNames y296
      have h297 : Kept s0 y296 := (State_setF_kept h255)
      extract_lets -merge -useContext +onlyGivenNames y338
      have h339 : Kept s0 y338 := (State_setF_kept h297)
      extract_lets -merge -useContext +onlyGivenNames y380
      have h381 : Kept s0 y380 := (State_setF_kept h339)
      extract_lets -merge -useContext +onlyGivenNames y422
      have h423 : Kept s0 y422 := (State_setF_kept h381)
      exact (State_winRound_kept (State_setF_kept h423)))))

theorem State_grantQueue_kept {s0 : State} {s : State} {j : ℕ} {q : ℕ} {r : QRec} (h_s : Kept s0 s) :
    Kept s0 (State.grantQueue s j q r) := by
  unfold State.grantQueue
  extract_lets -merge -useContext +onlyGivenNames y40
  extract_lets -merge -useContext +onlyGivenNames y81
  have h82 : Kept s0 y81 := (Kept.mk' h_s)
  extract_lets -merge -useContext +onlyGivenNames y123
  have h124 : Kept s0 y123 := (State_setF_kept h82)
  extract_lets -merge -useContext +onlyGivenNames y165
  have h166 : Kept s0 y165 := (State_setF_kept h124)
  extract_lets -merge -useContext +onlyGivenNames y207
  have h208 : Kept s0 y207 := (State_setF_kept h166)
  extract_lets -merge -useContext +onlyGivenNames y249
  have h250 : Kept s0 y249 := (State_setF_kept h208)
  extract_lets -merge -useContext +onlyGivenNames y291
  have h292 : Kept s0 y291 := (State_setF_kept h250)
  extract_lets -merge -useContext +onlyGivenNames y333
  have h334 : Kept s0 y333 := (State_setF_kept h292)
  extract_lets -merge -useContext +onlyGivenNames y375
  have h376 : Kept s0 y375 := (State_setF_kept h334)
  extract_lets -merge -useContext +onlyGivenNames y417
  have h418 : Kept s0 y417 := (State_setF_kept h376)
  extract_lets -merge -useContext +onlyGivenNames y459
  have h460 : Kept s0 y459 := (State_setF_kept h418)
  exact (State_setF_kept h460)

theorem State_grantBarriers_kept {s0 : State} {s : State} {j : ℕ} {p : Placement} (h_s : Kept s0 s) :
    Kept s0 (State.grantBarriers s j p) := by
  unfold State.grantBarriers
  exact (Kept.foldl h_s (fun x0 x2 h1 => (by
    extract_lets -merge -useContext +onlyGivenNames y43
    have h44 : Kept s0 y43 := (Kept.foldl h1 (fun x45 x47 h46 => (Kept.ite (State_setF_kept h46) h46)))
    exact (State_setBarrier_kept h44))))

theorem State_writeTarget_kept {s0 : State} {s : State} {a : ℕ} {p : Placement} {t : Option TgtRec} (h_s : Kept s0 s) :
    Kept s0 (State.writeTarget s a p t) := by
  unfold State.writeTarget
  split
  · exact (State_setF_kept h_s)
  · extract_lets -merge -useContext +onlyGivenNames y42
    have h43 : Kept s0 y42 := (State_setF_kept h_s)
    extract_lets -merge -useContext +onlyGivenNames y84
    have h85 : Kept s0 y84 := (State_setF_kept h43)
    exact (State_setF_kept (State_setF_kept h85))

theorem State_grantMailbox_kept {s0 : State} {s : State} {part : ℕ} {mask : ℕ} (h_s : Kept s0 s) :
    Kept s0 (State.grantMailbox s part mask) := by
  unfold State.grantMailbox
  extract_lets -merge -useContext +onlyGivenNames y40
  extract_lets -merge -useContext +onlyGivenNames y81
  have h82 : Kept s0 y81 := (Kept.foldl h_s (fun x83 x85 h84 => (by
    split
    · exact (State_setF_kept h84))))
  exact (State_winRound_kept (State_setF_kept h82))

theorem State_formGroup_kept {s0 : State} {s : State} {j : ℕ} {g : ℕ} {e : GroupRec} {p : Placement} (h_s : Kept s0 s) :
    Kept s0 (State.formGroup s j g e p) := by
  unfold State.formGroup
  extract_lets -merge -useContext +onlyGivenNames y40
  extract_lets -merge -useContext +onlyGivenNames y81
  extract_lets -merge -useContext +onlyGivenNames y122
  extract_lets -merge -useContext +onlyGivenNames y163
  extract_lets -merge -useContext +onlyGivenNames y204
  have h205 : Kept s0 y204 := (Kept.foldl h_s (fun x206 x208 h207 => (by
    split
    · exact (State_setF_kept h207))))
  extract_lets -merge -useContext +onlyGivenNames y251
  extract_lets -merge -useContext +onlyGivenNames y292
  have h293 : Kept s0 y292 := (Kept.foldl h205 (fun x294 x296 h295 => (by
    split
    · exact (State_setF_kept h295))))
  extract_lets -merge -useContext +onlyGivenNames y339
  have h340 : Kept s0 y339 := (Kept.foldl h293 (fun x341 x343 h342 => (State_writeTarget_kept h342)))
  extract_lets -merge -useContext +onlyGivenNames y384
  have h385 : Kept s0 y384 := (Kept.foldl h340 (fun x386 x388 h387 => (Kept.foldl h387 (fun x389 x391 h390 => (by
    split
    · exact (State_setF_kept h390))))))
  exact (Kept.mk' h385)

theorem State_groupCause_kept {s0 : State} {s : State} (h_s : Kept s0 s) :
    Kept s0 (State.groupCause s) := by
  unfold State.groupCause
  exact (State_setCause_kept h_s)

theorem State_grantGroups_kept {s0 : State} {s : State} {j : ℕ} {nos : List ℕ} {p : Placement} (h_s : Kept s0 s) :
    Kept s0 (State.grantGroups s j nos p) := by
  unfold State.grantGroups
  extract_lets -merge -useContext +onlyGivenNames y40
  extract_lets -merge -useContext +onlyGivenNames y81
  have h82 : Kept s0 y81 := (Kept.foldl h_s (fun x83 x85 h84 => (by
    split
    · exact (Kept.ite (State_formGroup_kept h84) (Kept.foldl h84 (fun x88 x90 h89 => (State_writeTarget_kept h89)))))))
  extract_lets -merge -useContext +onlyGivenNames y131
  extract_lets -merge -useContext +onlyGivenNames y172
  extract_lets -merge -useContext +onlyGivenNames y213
  exact (State_groupCause_kept (Kept.ite h82 (State_grantMailbox_kept h82)))

theorem State_writeSched_kept {s0 : State} {s : State} {u : ℕ} (h_s : Kept s0 s) :
    Kept s0 (State.writeSched s u) := by
  unfold State.writeSched
  extract_lets -merge -useContext +onlyGivenNames y40
  extract_lets -merge -useContext +onlyGivenNames y81
  extract_lets -merge -useContext +onlyGivenNames y122
  extract_lets -merge -useContext +onlyGivenNames y163
  exact (Kept.foldl h_s (fun x164 x166 h165 => (by
    split
    · exact (Kept.foldl h165 (fun x170 x172 h171 => (by
        split
        · exact (State_setF_kept h171))))
    · exact (State_setF_kept h165))))

theorem State_enableUnits_kept {s0 : State} {s : State} {p : Placement} (h_s : Kept s0 s) :
    Kept s0 (State.enableUnits s p) := by
  unfold State.enableUnits
  exact (Kept.foldl h_s (fun x0 x2 h1 => (Kept.ite (State_setF_kept h1) h1)))

theorem State_clearStats_kept {s0 : State} {s : State} {j : ℕ} (h_s : Kept s0 s) :
    Kept s0 (State.clearStats s j) := by
  unfold State.clearStats
  extract_lets -merge -useContext +onlyGivenNames y40
  have h41 : Kept s0 y40 := (Kept.mk' h_s)
  exact (State_setF_kept h41)

theorem State_setGeometry_kept {s0 : State} {s : State} {c : ℕ} {q : ℕ} (h_s : Kept s0 s) :
    Kept s0 (State.setGeometry s c q) := by
  unfold State.setGeometry
  refine Kept.ite' (fun _ => ?_) (fun _ => ?_)
  · exact h_s
  · extract_lets -merge -useContext +onlyGivenNames y40
    have h41 : Kept s0 y40 := (Kept.foldl h_s (fun x42 x44 h43 => (Kept.ite h43 (State_freeCtx_kept h43))))
    extract_lets -merge -useContext +onlyGivenNames y85
    have h86 : Kept s0 y85 := (Kept.foldl h41 (fun x87 x89 h88 => (attnCfgWrite_kept (attnCfgWrite_kept h88))))
    exact (Kept.foldl h86 (fun x90 x92 h91 => (State_bindCtx_kept h91)))

theorem State_grantJob_kept {s0 : State} {s : State} {j : ℕ} {part : ℕ} {im : List ℕ} (h_s : Kept s0 s) :
    Kept s0 (State.grantJob s j part im) := by
  unfold State.grantJob
  extract_lets -merge -useContext +onlyGivenNames y40
  extract_lets -merge -useContext +onlyGivenNames y81
  extract_lets -merge -useContext +onlyGivenNames y122
  extract_lets -merge -useContext +onlyGivenNames y163
  have h164 : Kept s0 y163 := (State_dirChange_kept h_s)
  extract_lets -merge -useContext +onlyGivenNames y205
  extract_lets -merge -useContext +onlyGivenNames y246
  extract_lets -merge -useContext +onlyGivenNames y287
  have h288 : Kept s0 y287 := (State_setF_kept h164)
  extract_lets -merge -useContext +onlyGivenNames y329
  have h330 : Kept s0 y329 := (State_setF_kept h288)
  extract_lets -merge -useContext +onlyGivenNames y371
  have h372 : Kept s0 y371 := (State_setF_kept h330)
  extract_lets -merge -useContext +onlyGivenNames y413
  have h414 : Kept s0 y413 := (State_clearStats_kept (State_setF_kept h372))
  extract_lets -merge -useContext +onlyGivenNames y455
  have h456 : Kept s0 y455 := (State_setJob_kept h414)
  extract_lets -merge -useContext +onlyGivenNames y497
  have h498 : Kept s0 y497 := (Kept.foldl h456 (fun x499 x501 h500 => (State_loadPrograms_kept h500)))
  extract_lets -merge -useContext +onlyGivenNames y542
  have h543 : Kept s0 y542 := (Kept.foldl h498 (fun x544 x546 h545 => (State_grantWindows_kept h545)))
  split
  · exact h543
  · extract_lets -merge -useContext +onlyGivenNames y591
    have h592 : Kept s0 y591 := (Kept.foldl h543 (fun x593 x595 h594 => (State_grantQueue_kept h594)))
    extract_lets -merge -useContext +onlyGivenNames y636
    have h637 : Kept s0 y636 := (State_grantBarriers_kept h592)
    extract_lets -merge -useContext +onlyGivenNames y678
    have h679 : Kept s0 y678 := (State_enableUnits_kept (State_grantGroups_kept h637))
    extract_lets -merge -useContext +onlyGivenNames y720
    have h721 : Kept s0 y720 := (Kept.foldl h679 (fun x722 x724 h723 => (State_writeSched_kept h723)))
    extract_lets -merge -useContext +onlyGivenNames y765
    have h766 : Kept s0 y765 := (Kept.ite (State_setGeometry_kept h721) h721)
    exact (Kept.ite (Kept.mk' h766) h766)

theorem admitCmd_kept {s0 : State} {p : ℕ} {t : ℕ} {s : State} (h_s : Kept s0 s) :
    Kept s0 (admitCmd p t s) := by
  unfold admitCmd
  extract_lets -merge -useContext +onlyGivenNames y40
  have h41 : Kept s0 y40 := (State_at_kept h_s)
  extract_lets -merge -useContext +onlyGivenNames y82
  refine Kept.ite' (fun _ => ?_) (fun _ => ?_)
  · exact h41
  · split
    · exact h41
    · extract_lets -merge -useContext +onlyGivenNames y127
      have h128 : Kept s0 y127 := (State_takeRequest_kept h41)
      extract_lets -merge -useContext +onlyGivenNames y169
      extract_lets -merge -useContext +onlyGivenNames y210
      extract_lets -merge -useContext +onlyGivenNames y251
      clear_value y251
      split
      · exact (State_answer_kept (State_sil1_kept h128))
      · exact (State_answer_kept (State_sil1_kept h128))
      · extract_lets -merge -useContext +onlyGivenNames y299
        have h300 : Kept s0 y299 := (State_grantJob_kept h128)
        exact (State_answer_kept h300)

theorem execAdmitJob_kept {s0 : State} {p : ℕ} {t : ℕ} {s : State} (h_s : Kept s0 s) :
    KeptNext s0 (execAdmitJob p t s) := by
  unfold execAdmitJob
  exact (KeptNext.next (admitCmd_kept h_s))

theorem State_dropWork_kept {s0 : State} {s : State} {j : ℕ} {u : ℕ} {leaves : Bool} (h_s : Kept s0 s) :
    Kept s0 (State.dropWork s j u leaves) := by
  unfold State.dropWork
  extract_lets -merge -useContext +onlyGivenNames y40
  extract_lets -merge -useContext +onlyGivenNames y81
  extract_lets -merge -useContext +onlyGivenNames y122
  have h123 : Kept s0 y122 := (Kept.ite h_s (Kept.ite (State_abandon_kept h_s) (State_jobReset_kept h_s)))
  extract_lets -merge -useContext +onlyGivenNames y164
  extract_lets -merge -useContext +onlyGivenNames i165
  extract_lets -merge -useContext +onlyGivenNames y205
  exact (State_setUnit_kept h123)

theorem State_freeGroups_kept {s0 : State} {s : State} {j : ℕ} {p : Placement} (h_s : Kept s0 s) :
    Kept s0 (State.freeGroups s j p) := by
  unfold State.freeGroups
  extract_lets -merge -useContext +onlyGivenNames y40
  extract_lets -merge -useContext +onlyGivenNames y81
  have h82 : Kept s0 y81 := (Kept.foldl h_s (fun x83 x85 h84 => (by
    extract_lets -merge -useContext +onlyGivenNames y126
    have h127 : Kept s0 y126 := (Kept.ite (State_setF_kept (State_setF_kept h84)) h84)
    exact (Kept.foldl h127 (fun x128 x130 h129 => (State_setF_kept h129))))))
  exact (Kept.foldl h82 (fun x131 x133 h132 => (by
    extract_lets -merge -useContext +onlyGivenNames y174
    have h175 : Kept s0 y174 := (State_setF_kept (State_setF_kept h132))
    extract_lets -merge -useContext +onlyGivenNames y216
    have h217 : Kept s0 y216 := (State_setF_kept h175)
    extract_lets -merge -useContext +onlyGivenNames y258
    have h259 : Kept s0 y258 := (Kept.foldl h217 (fun x260 x262 h261 => (State_setF_kept h261)))
    exact (State_groupCause_kept (Kept.mk' h259)))))

theorem State_releaseJob_kept {s0 : State} {s : State} {j : ℕ} (h_s : Kept s0 s) :
    Kept s0 (State.releaseJob s j) := by
  unfold State.releaseJob
  extract_lets -merge -useContext +onlyGivenNames y40
  extract_lets -merge -useContext +onlyGivenNames y81
  extract_lets -merge -useContext +onlyGivenNames y122
  have h123 : Kept s0 y122 := (State_dirChange_kept h_s)
  split
  · exact (State_setJob_kept (State_setJobState_kept h123))
  · extract_lets -merge -useContext +onlyGivenNames y168
    have h169 : Kept s0 y168 := (Kept.foldl h123 (fun x170 x172 h171 => (State_dropWork_kept h171)))
    extract_lets -merge -useContext +onlyGivenNames y213
    have h214 : Kept s0 y213 := (Kept.foldl h169 (fun x215 x217 h216 => (State_setF_kept h216)))
    extract_lets -merge -useContext +onlyGivenNames y258
    have h259 : Kept s0 y258 := (Kept.foldl h214 (fun x260 x262 h261 => (Kept.foldl h261 (fun x263 x265 h264 => (by
      extract_lets -merge -useContext +onlyGivenNames y306
      exact (State_setF_kept (State_setF_kept h264)))))))
    extract_lets -merge -useContext +onlyGivenNames i307
    extract_lets -merge -useContext +onlyGivenNames y347
    have h348 : Kept s0 y347 := (Kept.foldl h259 (fun x349 x351 h350 => (State_setBarrier_kept h350)))
    extract_lets -merge -useContext +onlyGivenNames y392
    have h393 : Kept s0 y392 := (State_freeGroups_kept h348)
    extract_lets -merge -useContext +onlyGivenNames y434
    have h435 : Kept s0 y434 := (State_setJob_kept (State_setJobState_kept h393))
    exact (Kept.foldl h435 (fun x436 x438 h437 => (State_writeSched_kept h437)))

theorem State_jobRequest_kept {s0 : State} {s : State} {p : ℕ} {ty : ℕ} {f : ℕ → State → State} (h_s : Kept s0 s) (h_f : ∀ u0 u1, Kept s0 u1 → Kept s0 (f u0 u1)) :
    Kept s0 (State.jobRequest s p ty f) := by
  unfold State.jobRequest
  extract_lets -merge -useContext +onlyGivenNames y42
  refine Kept.ite' (fun _ => ?_) (fun _ => ?_)
  · exact h_s
  · split
    · exact h_s
    · extract_lets -merge -useContext +onlyGivenNames y87
      have h88 : Kept s0 y87 := (State_takeRequest_kept h_s)
      split
      · exact (State_answer_kept (State_sil1_kept h88))
      · extract_lets -merge -useContext +onlyGivenNames y133
        extract_lets -merge -useContext +onlyGivenNames y174
        exact (State_answer_kept (h_f _ _ h88))

theorem withdrawCmd_kept {s0 : State} {p : ℕ} {t : ℕ} {s : State} (h_s : Kept s0 s) :
    Kept s0 (withdrawCmd p t s) := by
  unfold withdrawCmd
  exact (State_jobRequest_kept (State_at_kept h_s) (fun x0 x1 h2 => (State_releaseJob_kept h2)))

theorem execWithdraw_kept {s0 : State} {p : ℕ} {t : ℕ} {s : State} (h_s : Kept s0 s) :
    KeptNext s0 (execWithdraw p t s) := by
  unfold execWithdraw
  exact (KeptNext.next (withdrawCmd_kept h_s))

theorem State_reopenWindows_kept {s0 : State} {s : State} {j : ℕ} {p : Placement} (h_s : Kept s0 s) :
    Kept s0 (State.reopenWindows s j p) := by
  unfold State.reopenWindows
  exact (Kept.foldl h_s (fun x0 x2 h1 => (by
    extract_lets -merge -useContext +onlyGivenNames y43
    exact (Kept.ite (State_winRound_kept h1) h1))))

theorem State_rewindQueues_kept {s0 : State} {s : State} {j : ℕ} {p : Placement} (h_s : Kept s0 s) :
    Kept s0 (State.rewindQueues s j p) := by
  unfold State.rewindQueues
  exact (Kept.foldl h_s (fun x0 x2 h1 => (by
    extract_lets -merge -useContext +onlyGivenNames y43
    exact (State_setF_kept h1))))

theorem State_restartJob_kept {s0 : State} {s : State} {j : ℕ} (h_s : Kept s0 s) :
    Kept s0 (State.restartJob s j) := by
  unfold State.restartJob
  split
  · exact h_s
  · extract_lets -merge -useContext +onlyGivenNames y44
    have h45 : Kept s0 y44 := (State_setJobState_kept h_s)
    extract_lets -merge -useContext +onlyGivenNames y86
    have h87 : Kept s0 y86 := (Kept.foldl h45 (fun x88 x90 h89 => (State_dropWork_kept h89)))
    extract_lets -merge -useContext +onlyGivenNames y131
    have h132 : Kept s0 y131 := (State_rewindQueues_kept (State_reopenWindows_kept h87))
    extract_lets -merge -useContext +onlyGivenNames y173
    have h174 : Kept s0 y173 := (State_setJobState_kept h132)
    exact (State_jobNotice_kept h174)

theorem restartCmd_kept {s0 : State} {p : ℕ} {t : ℕ} {s : State} (h_s : Kept s0 s) :
    Kept s0 (restartCmd p t s) := by
  unfold restartCmd
  exact (State_jobRequest_kept (State_at_kept h_s) (fun x0 x1 h2 => (State_restartJob_kept h2)))

theorem execRestart_kept {s0 : State} {p : ℕ} {t : ℕ} {s : State} (h_s : Kept s0 s) :
    KeptNext s0 (execRestart p t s) := by
  unfold execRestart
  exact (KeptNext.next (restartCmd_kept h_s))

theorem State_moveQueues_kept {s0 : State} {s0' : State} {j : ℕ} {l : List (ℕ × ℕ × QRec)} (h_s0' : Kept s0 s0') :
    Kept s0 (State.moveQueues s0' j l) := by
  unfold State.moveQueues
  extract_lets -merge -useContext +onlyGivenNames y40
  extract_lets -merge -useContext +onlyGivenNames y81
  have h82 : Kept s0 y81 := (Kept.foldl h_s0' (fun x83 x85 h84 => (by
    split
    · extract_lets -merge -useContext +onlyGivenNames y129
      have h130 : Kept s0 y129 := (State_grantQueue_kept h84)
      extract_lets -merge -useContext +onlyGivenNames y171
      have h172 : Kept s0 y171 := (State_setF_kept h130)
      extract_lets -merge -useContext +onlyGivenNames y213
      have h214 : Kept s0 y213 := (State_setF_kept h172)
      extract_lets -merge -useContext +onlyGivenNames y255
      have h256 : Kept s0 y255 := (State_setF_kept h214)
      exact (Kept.mk' h256))))
  extract_lets -merge -useContext +onlyGivenNames y297
  have h298 : Kept s0 y297 := (Kept.foldl h82 (fun x299 x301 h300 => (by
    split
    · exact (State_setF_kept h300)
    · exact h300)))
  exact (Kept.foldl h298 (fun x308 x310 h309 => (by
    split
    · exact (Kept.ite h309 (State_setF_kept (State_setF_kept (State_setF_kept h309)))))))

theorem State_schedNow_kept {s0 : State} {s : State} {u : ℕ} (h_s : Kept s0 s) :
    Kept s0 (State.schedNow s u) := by
  unfold State.schedNow
  extract_lets -merge -useContext +onlyGivenNames i0
  extract_lets -merge -useContext +onlyGivenNames y40
  have h41 : Kept s0 y40 := (State_setUnit_kept h_s)
  exact (State_slotSwitch_kept h41)

theorem State_takeAgain_kept {s0 : State} {s : State} {q : ℕ} (h_s : Kept s0 s) :
    Kept s0 (State.takeAgain s q) := by
  unfold State.takeAgain
  extract_lets -merge -useContext +onlyGivenNames y40
  extract_lets -merge -useContext +onlyGivenNames y81
  refine Kept.ite' (fun _ => ?_) (fun _ => ?_)
  · extract_lets -merge -useContext +onlyGivenNames y122
    extract_lets -merge -useContext +onlyGivenNames y163
    have h164 : Kept s0 y163 := (State_setF_kept (State_setF_kept h_s))
    exact (Kept.mk' h164)
  · exact (State_setF_kept h_s)

theorem State_freeWindows_kept {s0 : State} {s : State} {old : List (ℕ × ℕ)} {new : List (ℕ × ℕ)} (h_s : Kept s0 s) :
    Kept s0 (State.freeWindows s old new) := by
  unfold State.freeWindows
  exact (Kept.foldl h_s (fun x0 x2 h1 => (by
    split
    · exact (State_setF_kept (State_setF_kept h1)))))

theorem State_showRanges_kept {s0 : State} {s : State} {j : ℕ} (h_s : Kept s0 s) :
    Kept s0 (State.showRanges s j) := by
  unfold State.showRanges
  exact (Kept.foldl h_s (fun x0 x2 h1 => (by
    split
    · exact (Kept.ite (State_setF_kept (State_setF_kept h1)) h1))))

theorem State_movePlace_kept {s0 : State} {s : State} {j : ℕ} {k : ℕ} {old : Placement} {new : Placement} (h_s : Kept s0 s) :
    Kept s0 (State.movePlace s j k old new) := by
  unfold State.movePlace
  extract_lets -merge -useContext +onlyGivenNames y40
  extract_lets -merge -useContext +onlyGivenNames y81
  extract_lets -merge -useContext +onlyGivenNames y122
  extract_lets -merge -useContext +onlyGivenNames y163
  extract_lets -merge -useContext +onlyGivenNames y204
  extract_lets -merge -useContext +onlyGivenNames y245
  extract_lets -merge -useContext +onlyGivenNames y286
  extract_lets -merge -useContext +onlyGivenNames y327
  have h328 : Kept s0 y327 := (Kept.foldl h_s (fun x329 x331 h330 => (by
    split
    · exact (State_takeAgain_kept h330))))
  extract_lets -merge -useContext +onlyGivenNames y375
  have h376 : Kept s0 y375 := (Kept.foldl h328 (fun x377 x379 h378 => (Kept.ite h378 (State_unitReset_kept h378))))
  extract_lets -merge -useContext +onlyGivenNames y420
  have h421 : Kept s0 y420 := (State_setF_kept h376)
  extract_lets -merge -useContext +onlyGivenNames y462
  extract_lets -merge -useContext +onlyGivenNames y503
  have h504 : Kept s0 y503 := (State_setJob_kept h421)
  extract_lets -merge -useContext +onlyGivenNames y545
  have h546 : Kept s0 y545 := (State_loadPrograms_kept h504)
  extract_lets -merge -useContext +onlyGivenNames y587
  have h588 : Kept s0 y587 := (State_grantWindows_kept (State_freeWindows_kept h546))
  extract_lets -merge -useContext +onlyGivenNames y629
  have h630 : Kept s0 y629 := (State_moveQueues_kept h588)
  extract_lets -merge -useContext +onlyGivenNames y671
  have h672 : Kept s0 y671 := (State_grantGroups_kept (State_grantBarriers_kept h630))
  extract_lets -merge -useContext +onlyGivenNames y713
  have h714 : Kept s0 y713 := (State_showRanges_kept (State_enableUnits_kept h672))
  extract_lets -merge -useContext +onlyGivenNames y755
  extract_lets -merge -useContext +onlyGivenNames y796
  have h797 : Kept s0 y796 := (Kept.foldl h714 (fun x798 x800 h799 => (State_writeSched_kept h799)))
  extract_lets -merge -useContext +onlyGivenNames y841
  have h842 : Kept s0 y841 := (Kept.foldl h797 (fun x843 x845 h844 => (State_schedNow_kept h844)))
  extract_lets -merge -useContext +onlyGivenNames y886
  have h887 : Kept s0 y886 := (Kept.foldl h842 (fun x888 x890 h889 => (Kept.ite (State_setUnit_kept h889) h889)))
  exact (State_setJobState_kept h887)

theorem State_loseJob_kept {s0 : State} {s : State} {j : ℕ} (h_s : Kept s0 s) :
    Kept s0 (State.loseJob s j) := by
  unfold State.loseJob
  extract_lets -merge -useContext +onlyGivenNames y40
  extract_lets -merge -useContext +onlyGivenNames y81
  extract_lets -merge -useContext +onlyGivenNames y122
  have h123 : Kept s0 y122 := (State_jobNotice_kept (State_releaseJob_kept h_s))
  exact (Kept.ite (State_raiseSafe_kept (Kept.mk' h123)) h123)

theorem State_moveJob_kept {s0 : State} {s : State} {j : ℕ} (h_s : Kept s0 s) :
    Kept s0 (State.moveJob s j) := by
  unfold State.moveJob
  refine Kept.ite' (fun _ => ?_) (fun _ => ?_)
  · exact h_s
  · split
    · exact h_s
    · split
      · exact (State_loseJob_kept h_s)
      · split
        · exact h_s
        · extract_lets -merge -useContext +onlyGivenNames y52
          have h53 : Kept s0 y52 := (Kept.foldl h_s (fun x54 x56 h55 => (State_dropWork_kept h55)))
          extract_lets -merge -useContext +onlyGivenNames y97
          have h98 : Kept s0 y97 := (State_freeGroups_kept h53)
          extract_lets -merge -useContext +onlyGivenNames y139
          have h140 : Kept s0 y139 := (State_dirChange_kept (State_jobNotice_kept (State_setJobState_kept h98)))
          exact (State_movePlace_kept h140)

theorem backupLaunch_kept {s0 : State} {q : ℕ} {n : ℕ} {t : ℕ} {s : State} (h_s : Kept s0 s) :
    Kept s0 (backupLaunch q n t s) := by
  unfold backupLaunch
  extract_lets -merge -useContext +onlyGivenNames y40
  have h41 : Kept s0 y40 := (State_at_kept h_s)
  refine Kept.ite' (fun _ => ?_) (fun _ => ?_)
  · exact h41
  · split
    · exact h41
    · split
      · extract_lets -merge -useContext +onlyGivenNames y91
        extract_lets -merge -useContext +onlyGivenNames y132
        extract_lets -merge -useContext +onlyGivenNames y173
        extract_lets -merge -useContext +onlyGivenNames y214
        extract_lets -merge -useContext +onlyGivenNames y255
        extract_lets -merge -useContext +onlyGivenNames y296
        extract_lets -merge -useContext +onlyGivenNames y337
        refine Kept.ite' (fun _ => ?_) (fun _ => ?_)
        · exact h41
        · extract_lets -merge -useContext +onlyGivenNames y378
          split
          · rename_i z379 z380 e381
            have h382 : Kept s0 z379 := Kept1.ofEq e381 (State_push_kept h41)
            extract_lets -merge -useContext +onlyGivenNames y423
            have h424 : Kept s0 y423 := (State_jobCount_kept (State_event_kept h382))
            exact (Kept.mk' h424)
      · exact h41

theorem execBackupLaunch_kept {s0 : State} {q : ℕ} {n : ℕ} {t : ℕ} {s : State} (h_s : Kept s0 s) :
    KeptNext s0 (execBackupLaunch q n t s) := by
  unfold execBackupLaunch
  exact (KeptNext.next (backupLaunch_kept h_s))

theorem suspectEvaluation_kept {s0 : State} {t : ℕ} {s : State} (h_s : Kept s0 s) :
    Kept s0 (suspectEvaluation t s) := by
  unfold suspectEvaluation
  extract_lets -merge -useContext +onlyGivenNames y40
  have h41 : Kept s0 y40 := (State_at_kept h_s)
  refine Kept.ite' (fun _ => ?_) (fun _ => ?_)
  · exact h41
  · extract_lets -merge -useContext +onlyGivenNames y82
    extract_lets -merge -useContext +onlyGivenNames y123
    exact (Kept.foldl h41 (fun x124 x126 h125 => (by
      extract_lets -merge -useContext +onlyGivenNames y167
      extract_lets -merge -useContext +onlyGivenNames y208
      extract_lets -merge -useContext +onlyGivenNames y249
      extract_lets -merge -useContext +onlyGivenNames y290
      extract_lets -merge -useContext +onlyGivenNames y331
      extract_lets -merge -useContext +onlyGivenNames y372
      extract_lets -merge -useContext +onlyGivenNames y413
      extract_lets -merge -useContext +onlyGivenNames y454
      have h455 : Kept s0 y454 := (State_setUnit_kept h125)
      refine Kept.ite' (fun _ => ?_) (fun _ => ?_)
      · exact (State_setF_kept h455)
      · exact (Kept.ite (State_setF_kept h455) h455))))

theorem execSuspectEvaluation_kept {s0 : State} {t : ℕ} {s : State} (h_s : Kept s0 s) :
    KeptNext s0 (execSuspectEvaluation t s) := by
  unfold execSuspectEvaluation
  exact (KeptNext.next (suspectEvaluation_kept h_s))

theorem State_setGroup_kept {s0 : State} {s : State} {g : ℕ} {x : Group} (h_s : Kept s0 s) :
    Kept s0 (State.setGroup s g x) := by
  unfold State.setGroup
  exact (Kept.mk' h_s)

theorem State_binFailure_kept {s0 : State} {s : State} {e : ℕ} (h_s : Kept s0 s) :
    Kept s0 (State.binFailure s e) := by
  unfold State.binFailure
  extract_lets -merge -useContext +onlyGivenNames y40
  extract_lets -merge -useContext +onlyGivenNames y81
  extract_lets -merge -useContext +onlyGivenNames y122
  have h123 : Kept s0 y122 := (State_sil1_kept h_s)
  extract_lets -merge -useContext +onlyGivenNames y164
  extract_lets -merge -useContext +onlyGivenNames y205
  refine Kept.ite' (fun _ => ?_) (fun _ => ?_)
  · exact h123
  · extract_lets -merge -useContext +onlyGivenNames y246
    extract_lets -merge -useContext +onlyGivenNames y287
    have h288 : Kept s0 y287 := (Kept.ite (State_dirChange_kept h123) h123)
    exact (Kept.mk' h288)

theorem State_mismatch_kept {s0 : State} {s : State} {g : ℕ} {p : ℕ} (h_s : Kept s0 s) :
    Kept s0 (State.mismatch s g p) := by
  unfold State.mismatch
  exact (State_binFailure_kept h_s)

theorem State_releaseGroup_kept {s0 : State} {s : State} {g : ℕ} {ckid : ℕ} {lead : ℕ} (h_s : Kept s0 s) :
    Kept s0 (State.releaseGroup s g ckid lead) := by
  unfold State.releaseGroup
  extract_lets -merge -useContext +onlyGivenNames y40
  have h41 : Kept s0 y40 := (State_setF_kept h_s)
  exact (Kept.ite (Kept.foldl h41 (fun x42 x44 h43 => (by
    split
    · exact (State_setF_kept h43)))) (Kept.foldl h41 (fun x47 x49 h48 => (State_sendRelease_kept h48))))

theorem State_memberEnable_kept {s0 : State} {s : State} {g : ℕ} {p : ℕ} {v : ℕ} (h_s : Kept s0 s) :
    Kept s0 (State.memberEnable s g p v) := by
  unfold State.memberEnable
  refine Kept.ite' (fun _ => ?_) (fun _ => ?_)
  · exact h_s
  · extract_lets -merge -useContext +onlyGivenNames y40
    exact (Kept.ite (State_setF_kept h_s) h_s)

theorem State_holdCkpt_kept {s0 : State} {s : State} {g : ℕ} {p : ℕ} {on : Bool} (h_s : Kept s0 s) :
    Kept s0 (State.holdCkpt s g p on) := by
  unfold State.holdCkpt
  refine Kept.ite' (fun _ => ?_) (fun _ => ?_)
  · extract_lets -merge -useContext +onlyGivenNames y40
    exact (Kept.mk' h_s)
  · exact h_s

theorem State_freeHeld_kept {s0 : State} {s : State} {g : ℕ} {keep : List ℕ} (h_s : Kept s0 s) :
    Kept s0 (State.freeHeld s g keep) := by
  unfold State.freeHeld
  extract_lets -merge -useContext +onlyGivenNames y40
  extract_lets -merge -useContext +onlyGivenNames y81
  have h82 : Kept s0 y81 := (Kept.foldl h_s (fun x83 x85 h84 => (State_memberEnable_kept h84)))
  exact (State_setGroup_kept h82)

theorem State_switchEnd_kept {s0 : State} {s : State} {g : ℕ} {fail : ℕ} (h_s : Kept s0 s) :
    Kept s0 (State.switchEnd s g fail) := by
  unfold State.switchEnd
  extract_lets -merge -useContext +onlyGivenNames y40
  have h41 : Kept s0 y40 := (State_setF_kept (State_setF_kept h_s))
  exact (State_setGroup_kept h41)

theorem State_abandonCopy_kept {s0 : State} {s : State} {g : ℕ} (h_s : Kept s0 s) :
    Kept s0 (State.abandonCopy s g) := by
  unfold State.abandonCopy
  extract_lets -merge -useContext +onlyGivenNames y40
  split
  · exact h_s
  · extract_lets -merge -useContext +onlyGivenNames y86
    have h87 : Kept s0 y86 := (State_memberEnable_kept (State_setGroup_kept h_s))
    extract_lets -merge -useContext +onlyGivenNames y128
    have h129 : Kept s0 y128 := (State_holdCkpt_kept h87)
    extract_lets -merge -useContext +onlyGivenNames y170
    have h171 : Kept s0 y170 := (State_setF_kept h129)
    exact (Kept.ite (State_switchEnd_kept h171) h171)

theorem State_groupFaulty_kept {s0 : State} {s : State} {g : ℕ} (h_s : Kept s0 s) :
    Kept s0 (State.groupFaulty s g) := by
  unfold State.groupFaulty
  extract_lets -merge -useContext +onlyGivenNames y40
  have h41 : Kept s0 y40 := (State_abandonCopy_kept h_s)
  extract_lets -merge -useContext +onlyGivenNames y82
  have h83 : Kept s0 y82 := (State_freeHeld_kept h41)
  extract_lets -merge -useContext +onlyGivenNames y124
  have h125 : Kept s0 y124 := (Kept.ite (State_switchEnd_kept h83) h83)
  extract_lets -merge -useContext +onlyGivenNames i126
  extract_lets -merge -useContext +onlyGivenNames y166
  have h167 : Kept s0 y166 := (State_setF_kept (State_setGroup_kept h125))
  exact (Kept.ite h167 (State_moveJob_kept h167))

theorem State_detach_kept {s0 : State} {s : State} {g : ℕ} {p : ℕ} (h_s : Kept s0 s) :
    Kept s0 (State.detach s g p) := by
  unfold State.detach
  extract_lets -merge -useContext +onlyGivenNames y40
  have h41 : Kept s0 y40 := (State_setF_kept h_s)
  extract_lets -merge -useContext +onlyGivenNames y82
  have h83 : Kept s0 y82 := (Kept.ite h41 (State_setF_kept h41))
  exact (State_groupCause_kept h83)

theorem State_beginCopy_kept {s0 : State} {s : State} {g : ℕ} {lead : ℕ} {odd : ℕ} (h_s : Kept s0 s) :
    Kept s0 (State.beginCopy s g lead odd) := by
  unfold State.beginCopy
  extract_lets -merge -useContext +onlyGivenNames y40
  have h41 : Kept s0 y40 := (State_freeHeld_kept h_s)
  extract_lets -merge -useContext +onlyGivenNames y82
  have h83 : Kept s0 y82 := (State_memberEnable_kept h41)
  extract_lets -merge -useContext +onlyGivenNames i84
  extract_lets -merge -useContext +onlyGivenNames y124
  have h125 : Kept s0 y124 := (Kept.ite h83 (Kept.ite (State_jobReset_kept h83) h83))
  extract_lets -merge -useContext +onlyGivenNames y166
  have h167 : Kept s0 y166 := (State_holdCkpt_kept h125)
  exact (State_setF_kept (State_setGroup_kept h167))

theorem State_splitGroup_kept {s0 : State} {s : State} {g : ℕ} (h_s : Kept s0 s) :
    Kept s0 (State.splitGroup s g) := by
  unfold State.splitGroup
  extract_lets -merge -useContext +onlyGivenNames y40
  have h41 : Kept s0 y40 := (State_freeHeld_kept h_s)
  extract_lets -merge -useContext +onlyGivenNames y82
  extract_lets -merge -useContext +onlyGivenNames y123
  extract_lets -merge -useContext +onlyGivenNames y164
  extract_lets -merge -useContext +onlyGivenNames y205
  have h206 : Kept s0 y205 := (Kept.foldl h41 (fun x207 x209 h208 => (by
    refine Kept.ite' (fun _ => ?_) (fun _ => ?_)
    · exact (State_setF_kept h208)
    · extract_lets -merge -useContext +onlyGivenNames y250
      have h251 : Kept s0 y250 := (State_setF_kept (State_setF_kept h208))
      split
      · exact h251
      · extract_lets -merge -useContext +onlyGivenNames y296
        exact (Kept.foldl h251 (fun x297 x299 h298 => (State_writeTarget_kept h298))))))
  extract_lets -merge -useContext +onlyGivenNames y340
  have h341 : Kept s0 y340 := (State_setF_kept (State_setF_kept h206))
  extract_lets -merge -useContext +onlyGivenNames y382
  have h383 : Kept s0 y382 := (State_setF_kept h341)
  extract_lets -merge -useContext +onlyGivenNames y424
  have h425 : Kept s0 y424 := (Kept.foldl h383 (fun x426 x428 h427 => (State_setF_kept h427)))
  extract_lets -merge -useContext +onlyGivenNames i429
  extract_lets -merge -useContext +onlyGivenNames y469
  have h470 : Kept s0 y469 := (State_setJob_kept h425)
  extract_lets -merge -useContext +onlyGivenNames y511
  have h512 : Kept s0 y511 := (State_switchEnd_kept h470)
  exact (State_groupCause_kept (Kept.mk' h512))

theorem State_growGroup_kept {s0 : State} {s : State} {g : ℕ} {lead : ℕ} (h_s : Kept s0 s) :
    Kept s0 (State.growGroup s g lead) := by
  unfold State.growGroup
  extract_lets -merge -useContext +onlyGivenNames y40
  extract_lets -merge -useContext +onlyGivenNames y81
  have h82 : Kept s0 y81 := (State_setF_kept (State_setF_kept h_s))
  extract_lets -merge -useContext +onlyGivenNames y123
  have h124 : Kept s0 y123 := (State_setF_kept h82)
  extract_lets -merge -useContext +onlyGivenNames y165
  have h166 : Kept s0 y165 := (Kept.ite (State_setF_kept h124) (Kept.foldl h124 (fun x167 x169 h168 => (by
    split
    · exact (State_setF_kept h168)))))
  exact (State_beginCopy_kept (State_detach_kept h166))

theorem State_afterRelease_kept {s0 : State} {s : State} {g : ℕ} {lead : ℕ} {odd : Option ℕ} (h_s : Kept s0 s) :
    Kept s0 (State.afterRelease s g lead odd) := by
  unfold State.afterRelease
  split
  · exact (State_splitGroup_kept h_s)
  · exact (State_growGroup_kept h_s)
  · exact (State_beginCopy_kept h_s)
  · exact (State_freeHeld_kept h_s)

theorem State_closeCmp_kept {s0 : State} {s : State} {g : ℕ} {outcome : ℕ} {withheld : Bool} (h_s : Kept s0 s) :
    Kept s0 (State.closeCmp s g outcome withheld) := by
  unfold State.closeCmp
  extract_lets -merge -useContext +onlyGivenNames y40
  split
  · exact h_s
  · extract_lets -merge -useContext +onlyGivenNames y85
    extract_lets -merge -useContext +onlyGivenNames y126
    extract_lets -merge -useContext +onlyGivenNames y167
    have h168 : Kept s0 y167 := (State_setGroup_kept h_s)
    extract_lets -merge -useContext +onlyGivenNames y209
    have h210 : Kept s0 y209 := (State_setF_kept h168)
    extract_lets -merge -useContext +onlyGivenNames y251
    have h252 : Kept s0 y251 := (Kept.foldl h210 (fun x253 x255 h254 => (State_setF_kept h254)))
    extract_lets -merge -useContext +onlyGivenNames y296
    have h297 : Kept s0 y296 := (State_setF_kept h252)
    exact (Kept.ite (State_event_kept h297) h297)

theorem State_withhold_kept {s0 : State} {s : State} {g : ℕ} {outcome : ℕ} {charged : List ℕ} (h_s : Kept s0 s) :
    Kept s0 (State.withhold s g outcome charged) := by
  unfold State.withhold
  extract_lets -merge -useContext +onlyGivenNames y40
  have h41 : Kept s0 y40 := (State_closeCmp_kept h_s)
  extract_lets -merge -useContext +onlyGivenNames y82
  have h83 : Kept s0 y82 := (Kept.foldl h41 (fun x84 x86 h85 => (State_mismatch_kept h85)))
  extract_lets -merge -useContext +onlyGivenNames y127
  have h128 : Kept s0 y127 := (State_freeHeld_kept h83)
  exact (Kept.ite (State_groupFaulty_kept h128) h128)

theorem State_pairError_kept {s0 : State} {s : State} {g : ℕ} {odd : ℕ} (h_s : Kept s0 s) :
    Kept s0 (State.pairError s g odd) := by
  unfold State.pairError
  extract_lets -merge -useContext +onlyGivenNames y40
  extract_lets -merge -useContext +onlyGivenNames y81
  have h82 : Kept s0 y81 := (State_closeCmp_kept h_s)
  extract_lets -merge -useContext +onlyGivenNames y123
  have h124 : Kept s0 y123 := (State_setF_kept (State_mismatch_kept h82))
  extract_lets -merge -useContext +onlyGivenNames y165
  have h166 : Kept s0 y165 := (State_detach_kept h124)
  exact (Kept.ite (State_groupFaulty_kept h166) (State_beginCopy_kept (State_memberEnable_kept h166)))

theorem State_judge_kept {s0 : State} {s : State} {g : ℕ} {atEnd : Bool} (h_s : Kept s0 s) :
    Kept s0 (State.judge s g atEnd) := by
  unfold State.judge
  extract_lets -merge -useContext +onlyGivenNames y40
  split
  · exact h_s
  · extract_lets -merge -useContext +onlyGivenNames y85
    extract_lets -merge -useContext +onlyGivenNames y126
    extract_lets -merge -useContext +onlyGivenNames y167
    extract_lets -merge -useContext +onlyGivenNames y208
    extract_lets -merge -useContext +onlyGivenNames y249
    refine Kept.ite' (fun _ => ?_) (fun _ => ?_)
    · refine Kept.ite' (fun _ => ?_) (fun _ => ?_)
      · exact h_s
      · split
        · exact (State_afterRelease_kept (State_closeCmp_kept (State_releaseGroup_kept h_s)))
        · split
          · exact (Kept.ite h_s (State_pairError_kept h_s))
          · exact (Kept.ite (State_withhold_kept h_s) (State_withhold_kept h_s))
    · split
      · rename_i z259 z260 e261
        have h262 : Kept s0 z259 := Kept1.ofEq e261 (by
          split
          · extract_lets -merge -useContext +onlyGivenNames y307
            exact (State_setGroup_kept (State_releaseGroup_kept h_s))
          · exact h_s)
        refine Kept.ite' (fun _ => ?_) (fun _ => ?_)
        · exact h262
        · split
          · split
            · exact (State_afterRelease_kept (State_closeCmp_kept h262))
            · extract_lets -merge -useContext +onlyGivenNames y361
              have h362 : Kept s0 y361 := (State_mismatch_kept (State_setF_kept (State_closeCmp_kept h262)))
              exact (State_afterRelease_kept (State_detach_kept h362))
          · exact (State_withhold_kept h262)

theorem State_closeLate_kept {s0 : State} {s : State} {g : ℕ} (h_s : Kept s0 s) :
    Kept s0 (State.closeLate s g) := by
  unfold State.closeLate
  split
  · exact (Kept.ite (State_judge_kept h_s) h_s)
  · exact h_s

theorem depositArrival_kept {s0 : State} {n : ℕ} {t : ℕ} {s : State} (h_s : Kept s0 s) :
    Kept s0 (depositArrival n t s) := by
  unfold depositArrival
  extract_lets -merge -useContext +onlyGivenNames y40
  have h41 : Kept s0 y40 := (State_at_kept h_s)
  split
  · split
    · extract_lets -merge -useContext +onlyGivenNames y89
      have h90 : Kept s0 y89 := (State_dropMsg_kept h41)
      extract_lets -merge -useContext +onlyGivenNames y131
      have h132 : Kept s0 y131 := (Kept.ite (State_setF_kept h90) h90)
      extract_lets -merge -useContext +onlyGivenNames y173
      have h174 : Kept s0 y173 := (State_closeLate_kept h132)
      extract_lets -merge -useContext +onlyGivenNames y215
      extract_lets -merge -useContext +onlyGivenNames y256
      refine Kept.ite' (fun _ => ?_) (fun _ => ?_)
      · exact h174
      · refine Kept.ite' (fun _ => ?_) (fun _ => ?_)
        · exact h174
        · extract_lets -merge -useContext +onlyGivenNames y297
          extract_lets -merge -useContext +onlyGivenNames y338
          have h339 : Kept s0 y338 := (Kept.ite (State_setGroup_kept (State_memberEnable_kept h174)) h174)
          extract_lets -merge -useContext +onlyGivenNames y380
          split
          · refine Kept.ite' (fun _ => ?_) (fun _ => ?_)
            · exact h339
            · extract_lets -merge -useContext +onlyGivenNames y423
              exact (State_judge_kept (State_setGroup_kept h339))
          · refine Kept.ite' (fun _ => ?_) (fun _ => ?_)
            · exact (State_setGroup_kept (State_event_kept h339))
            · refine Kept.ite' (fun _ => ?_) (fun _ => ?_)
              · split
                · exact (State_beginCopy_kept h339)
                · exact h339
              · exact (State_judge_kept (State_setGroup_kept h339))
    · exact h41
  · exact h41

theorem execDepositArrival_kept {s0 : State} {n : ℕ} {t : ℕ} {s : State} (h_s : Kept s0 s) :
    KeptNext s0 (execDepositArrival n t s) := by
  unfold execDepositArrival
  exact (KeptNext.next (State_settle_kept (depositArrival_kept h_s)))

theorem comparisonTimeout_kept {s0 : State} {g : ℕ} {t : ℕ} {s : State} (h_s : Kept s0 s) :
    Kept s0 (comparisonTimeout g t s) := by
  unfold comparisonTimeout
  extract_lets -merge -useContext +onlyGivenNames y40
  have h41 : Kept s0 y40 := (State_at_kept h_s)
  split
  · exact (Kept.ite (State_judge_kept h41) h41)
  · exact h41

theorem execComparisonTimeout_kept {s0 : State} {g : ℕ} {t : ℕ} {s : State} (h_s : Kept s0 s) :
    KeptNext s0 (execComparisonTimeout g t s) := by
  unfold execComparisonTimeout
  exact (KeptNext.next (comparisonTimeout_kept h_s))

theorem memberErrorNotice_kept {s0 : State} {g : ℕ} {pos : ℕ} {s : State} (h_s : Kept s0 s) :
    Kept s0 (memberErrorNotice g pos s) := by
  unfold memberErrorNotice
  extract_lets -merge -useContext +onlyGivenNames y40
  extract_lets -merge -useContext +onlyGivenNames y81
  refine Kept.ite' (fun _ => ?_) (fun _ => ?_)
  · exact h_s
  · extract_lets -merge -useContext +onlyGivenNames y122
    have h123 : Kept s0 y122 := (State_setGroup_kept h_s)
    exact (Kept.ite (State_groupFaulty_kept h123) (State_judge_kept h123))

theorem execMemberErrorNotice_kept {s0 : State} {g : ℕ} {pos : ℕ} {s : State} (h_s : Kept s0 s) :
    KeptNext s0 (execMemberErrorNotice g pos s) := by
  unfold execMemberErrorNotice
  exact (KeptNext.next (memberErrorNotice_kept h_s))

theorem State_memberLost_kept {s0 : State} {s : State} {g : ℕ} {p : ℕ} (h_s : Kept s0 s) :
    Kept s0 (State.memberLost s g p) := by
  unfold State.memberLost
  refine Kept.ite' (fun _ => ?_) (fun _ => ?_)
  · exact h_s
  · extract_lets -merge -useContext +onlyGivenNames y40
    extract_lets -merge -useContext +onlyGivenNames y81
    have h82 : Kept s0 y81 := (by
      unfold y81
      split
      · exact (Kept.ite (State_abandonCopy_kept h_s) h_s)
      · exact h_s)
    extract_lets -merge -useContext +onlyGivenNames y128
    have h129 : Kept s0 y128 := (State_setF_kept h82)
    extract_lets -merge -useContext +onlyGivenNames y170
    have h171 : Kept s0 y170 := (State_setF_kept h129)
    extract_lets -merge -useContext +onlyGivenNames y212
    have h213 : Kept s0 y212 := (Kept.ite (State_setF_kept h171) h171)
    extract_lets -merge -useContext +onlyGivenNames y254
    have h255 : Kept s0 y254 := (State_groupCause_kept h213)
    exact (Kept.ite (State_groupFaulty_kept h255) (State_judge_kept h255))

theorem State_capacityLost_kept {s0 : State} {s : State} {u : ℕ} (h_s : Kept s0 s) :
    Kept s0 (State.capacityLost s u) := by
  unfold State.capacityLost
  exact (Kept.foldl h_s (fun x0 x2 h1 => (by
    extract_lets -merge -useContext +onlyGivenNames y43
    exact (Kept.ite (State_memberLost_kept h1) (State_moveJob_kept h1)))))

theorem State_copyCell_kept {s0 : State} {s : State} {lead : ℕ} {odd : ℕ} {cks : List (ℕ × ℕ)} (h_s : Kept s0 s) :
    Kept s0 (State.copyCell s lead odd cks) := by
  unfold State.copyCell
  extract_lets -merge -useContext +onlyGivenNames y40
  have h41 : Kept s0 y40 := (Kept.foldl h_s (fun x42 x44 h43 => (by
    split
    · exact (State_store_kept h43))))
  extract_lets -merge -useContext +onlyGivenNames y87
  extract_lets -merge -useContext +onlyGivenNames y128
  extract_lets -merge -useContext +onlyGivenNames y169
  extract_lets -merge -useContext +onlyGivenNames y210
  have h211 : Kept s0 y210 := (State_jobReset_kept (State_loadImage_kept h41))
  exact (State_setF_kept (State_setF_kept h211))

theorem State_alignQueues_kept {s0 : State} {s : State} {j : ℕ} {lead : ℕ} {odd : ℕ} (h_s : Kept s0 s) :
    Kept s0 (State.alignQueues s j lead odd) := by
  unfold State.alignQueues
  exact (Kept.foldl h_s (fun x0 x2 h1 => (by
    extract_lets -merge -useContext +onlyGivenNames y43
    extract_lets -merge -useContext +onlyGivenNames y84
    exact (State_setF_kept (State_setF_kept h1)))))

theorem State_attach_kept {s0 : State} {s : State} {g : ℕ} {lead : ℕ} {odd : ℕ} (h_s : Kept s0 s) :
    Kept s0 (State.attach s g lead odd) := by
  unfold State.attach
  extract_lets -merge -useContext +onlyGivenNames y40
  have h41 : Kept s0 y40 := (State_setF_kept h_s)
  extract_lets -merge -useContext +onlyGivenNames y82
  have h83 : Kept s0 y82 := (Kept.ite h41 (State_setF_kept h41))
  extract_lets -merge -useContext +onlyGivenNames y124
  have h125 : Kept s0 y124 := (State_holdCkpt_kept (State_memberEnable_kept (State_memberEnable_kept h83)))
  extract_lets -merge -useContext +onlyGivenNames i126
  extract_lets -merge -useContext +onlyGivenNames y166
  have h167 : Kept s0 y166 := (State_setGroup_kept h125)
  extract_lets -merge -useContext +onlyGivenNames y208
  have h209 : Kept s0 y208 := (Kept.ite (State_switchEnd_kept h167) h167)
  exact (State_groupCause_kept (State_setF_kept h209))

theorem State_copyPair_kept {s0 : State} {s : State} {g : ℕ} {lead : ℕ} {odd : ℕ} (h_s : Kept s0 s) :
    Kept s0 (State.copyPair s g lead odd) := by
  unfold State.copyPair
  split
  · split
    · extract_lets -merge -useContext +onlyGivenNames y46
      have h47 : Kept s0 y46 := (State_store_kept h_s)
      extract_lets -merge -useContext +onlyGivenNames y88
      exact (Kept.mk' h47)

theorem State_joinGroup_kept {s0 : State} {s : State} {g : ℕ} (h_s : Kept s0 s) :
    Kept s0 (State.joinGroup s g) := by
  unfold State.joinGroup
  extract_lets -merge -useContext +onlyGivenNames y40
  extract_lets -merge -useContext +onlyGivenNames y81
  extract_lets -merge -useContext +onlyGivenNames y122
  split
  · exact (State_switchEnd_kept h_s)
  · extract_lets -merge -useContext +onlyGivenNames y167
    extract_lets -merge -useContext +onlyGivenNames y208
    clear_value y208
    split
    · extract_lets -merge -useContext +onlyGivenNames y254
      extract_lets -merge -useContext +onlyGivenNames y295
      have h296 : Kept s0 y295 := (State_formGroup_kept h_s)
      extract_lets -merge -useContext +onlyGivenNames y337
      have h338 : Kept s0 y337 := (State_setGroup_kept h296)
      exact (State_beginCopy_kept (State_detach_kept h338))
    · exact (State_switchEnd_kept h_s)

theorem State_joinPairs_kept {s0 : State} {s : State} {g : ℕ} (h_s : Kept s0 s) :
    Kept s0 (State.joinPairs s g) := by
  unfold State.joinPairs
  extract_lets -merge -useContext +onlyGivenNames y40
  extract_lets -merge -useContext +onlyGivenNames y81
  extract_lets -merge -useContext +onlyGivenNames y122
  have h123 : Kept s0 y122 := (Kept.foldl h_s (fun x124 x126 h125 => (by
    split
    · exact (State_setF_kept h125))))
  extract_lets -merge -useContext +onlyGivenNames y169
  have h170 : Kept s0 y169 := (Kept.foldl h123 (fun x171 x173 h172 => (by
    split
    · exact (State_setF_kept h172))))
  extract_lets -merge -useContext +onlyGivenNames y216
  have h217 : Kept s0 y216 := (State_setF_kept (State_setF_kept h170))
  exact (State_beginCopy_kept (State_detach_kept h217))

theorem resync_kept {s0 : State} {g : ℕ} {s : State} (h_s : Kept s0 s) :
    Kept s0 (resync g s) := by
  unfold resync
  extract_lets -merge -useContext +onlyGivenNames y40
  extract_lets -merge -useContext +onlyGivenNames y81
  have h82 : Kept s0 y81 := (Kept.ite (Kept.ite (State_joinPairs_kept h_s) (State_joinGroup_kept h_s)) h_s)
  extract_lets -merge -useContext +onlyGivenNames y123
  split
  · exact h82
  · refine Kept.ite' (fun _ => ?_) (fun _ => ?_)
    · exact h82
    · refine Kept.ite' (fun _ => ?_) (fun _ => ?_)
      · exact (State_attach_kept (State_copyPair_kept h82))
      · extract_lets -merge -useContext +onlyGivenNames y169
        extract_lets -merge -useContext +onlyGivenNames y210
        extract_lets -merge -useContext +onlyGivenNames y251
        refine Kept.ite' (fun _ => ?_) (fun _ => ?_)
        · exact (State_abandonCopy_kept h82)
        · refine Kept.ite' (fun _ => ?_) (fun _ => ?_)
          · exact h82
          · extract_lets -merge -useContext +onlyGivenNames y292
            have h293 : Kept s0 y292 := (State_copyCell_kept h82)
            exact (Kept.ite (State_abandonCopy_kept h293) (State_attach_kept (State_alignQueues_kept h293)))

theorem execResync_kept {s0 : State} {g : ℕ} {s : State} (h_s : Kept s0 s) :
    KeptNext s0 (execResync g s) := by
  unfold execResync
  exact (KeptNext.next (resync_kept h_s))

theorem State_switchReq_kept {s0 : State} {s : State} {who : Who} {g : ℕ} {w : ℕ} {op : ℕ} {f : State → ℕ} (h_s : Kept s0 s) :
    Kept s0 (State.switchReq s who g w op f) := by
  unfold State.switchReq
  refine Kept.ite' (fun _ => ?_) (fun _ => ?_)
  · exact h_s
  · refine Kept.ite' (fun _ => ?_) (fun _ => ?_)
    · exact (State_refuseAccess_kept h_s)
    · refine Kept.ite' (fun _ => ?_) (fun _ => ?_)
      · exact h_s
      · extract_lets -merge -useContext +onlyGivenNames y40
        have h41 : Kept s0 y40 := (State_loadF_kept h_s)
        extract_lets -merge -useContext +onlyGivenNames y82
        exact (Kept.ite (State_switchEnd_kept h41) (State_setGroup_kept (State_setF_kept (State_setF_kept h41))))

theorem splitCmd_kept {s0 : State} {who : Who} {g : ℕ} {w : ℕ} {s : State} (h_s : Kept s0 s) :
    Kept s0 (splitCmd who g w s) := by
  unfold splitCmd
  exact (State_switchReq_kept h_s)

theorem execSplit_kept {s0 : State} {who : Who} {g : ℕ} {w : ℕ} {s : State} (h_s : Kept s0 s) :
    KeptNext s0 (execSplit who g w s) := by
  unfold execSplit
  exact (KeptNext.next (splitCmd_kept h_s))

theorem joinCmd_kept {s0 : State} {who : Who} {g : ℕ} {w : ℕ} {s : State} (h_s : Kept s0 s) :
    Kept s0 (joinCmd who g w s) := by
  unfold joinCmd
  exact (State_switchReq_kept h_s)

theorem execJoin_kept {s0 : State} {who : Who} {g : ℕ} {w : ℕ} {s : State} (h_s : Kept s0 s) :
    KeptNext s0 (execJoin who g w s) := by
  unfold execJoin
  exact (KeptNext.next (joinCmd_kept h_s))

theorem growCmd_kept {s0 : State} {who : Who} {g : ℕ} {w : ℕ} {s : State} (h_s : Kept s0 s) :
    Kept s0 (growCmd who g w s) := by
  unfold growCmd
  exact (State_switchReq_kept h_s)

theorem execGrow_kept {s0 : State} {who : Who} {g : ℕ} {w : ℕ} {s : State} (h_s : Kept s0 s) :
    KeptNext s0 (execGrow who g w s) := by
  unfold execGrow
  exact (KeptNext.next (growCmd_kept h_s))

theorem State_signLane_kept {s0 : State} {s : State} {p : ℕ} {g : ℕ} {pos : ℕ} (h_s : Kept s0 s) :
    Kept s0 (State.signLane s p g pos) := by
  unfold State.signLane
  extract_lets -merge -useContext +onlyGivenNames y40
  extract_lets -merge -useContext +onlyGivenNames y81
  extract_lets -merge -useContext +onlyGivenNames y122
  extract_lets -merge -useContext +onlyGivenNames y163
  extract_lets -merge -useContext +onlyGivenNames y204
  extract_lets -merge -useContext +onlyGivenNames y245
  extract_lets -merge -useContext +onlyGivenNames y286
  refine Kept.ite' (fun _ => ?_) (fun _ => ?_)
  · exact (State_setF_kept h_s)
  · extract_lets -merge -useContext +onlyGivenNames y327
    extract_lets -merge -useContext +onlyGivenNames y368
    have h369 : Kept s0 y368 := (State_setF_kept (State_setF_kept h_s))
    exact (State_send_kept h369)

theorem State_joinMarkPair_kept {s0 : State} {s : State} {p : ℕ} (h_s : Kept s0 s) :
    Kept s0 (State.joinMarkPair s p) := by
  unfold State.joinMarkPair
  exact (Kept.foldl h_s (fun x0 x2 h1 => (by
    extract_lets -merge -useContext +onlyGivenNames y43
    extract_lets -merge -useContext +onlyGivenNames y84
    exact (Kept.ite (State_setGroup_kept h1) h1))))

theorem apCkptWrite_kept {s0 : State} {who : Who} {p : ℕ} {w : ℕ} {s : State} (h_s : Kept s0 s) :
    Kept s0 (apCkptWrite who p w s) := by
  unfold apCkptWrite
  extract_lets -merge -useContext +onlyGivenNames y40
  refine Kept.ite' (fun _ => ?_) (fun _ => ?_)
  · exact h_s
  · refine Kept.ite' (fun _ => ?_) (fun _ => ?_)
    · exact (State_refuseAccess_kept h_s)
    · split
      · extract_lets -merge -useContext +onlyGivenNames y83
        have h84 : Kept s0 y83 := (State_loadF_kept h_s)
        exact (Kept.ite h84 (State_joinMarkPair_kept h84))
      · refine Kept.ite' (fun _ => ?_) (fun _ => ?_)
        · exact h_s
        · extract_lets -merge -useContext +onlyGivenNames y128
          have h129 : Kept s0 y128 := (State_loadF_kept h_s)
          exact (Kept.ite h129 (State_signLane_kept h129))

theorem execApCkptWrite_kept {s0 : State} {who : Who} {p : ℕ} {w : ℕ} {s : State} (h_s : Kept s0 s) :
    KeptNext s0 (execApCkptWrite who p w s) := by
  unfold execApCkptWrite
  exact (KeptNext.next (apCkptWrite_kept h_s))

theorem latentOverdue_kept {s0 : State} {t : ℕ} {s : State} (h_s : Kept s0 s) :
    Kept s0 (latentOverdue t s) := by
  unfold latentOverdue
  extract_lets -merge -useContext +onlyGivenNames y40
  have h41 : Kept s0 y40 := (State_at_kept h_s)
  extract_lets -merge -useContext +onlyGivenNames y82
  extract_lets -merge -useContext +onlyGivenNames y123
  have h124 : Kept s0 y123 := (State_setF_kept h41)
  exact (Kept.ite (State_setCause_kept (State_setF_kept h124)) h124)

theorem execLatentOverdue_kept {s0 : State} {t : ℕ} {s : State} (h_s : Kept s0 s) :
    KeptNext s0 (execLatentOverdue t s) := by
  unfold execLatentOverdue
  exact (KeptNext.next (latentOverdue_kept h_s))

theorem State_cameraSample_kept {s0 : State} {s : State} {n : ℕ} {landed : ℕ} {cut : ℕ} (h_s : Kept s0 s) :
    Kept s0 (State.cameraSample s n landed cut) := by
  unfold State.cameraSample
  exact (Kept.ite h_s (State_sil1_kept h_s))

theorem State_streamSample_kept {s0 : State} {s : State} {n : ℕ} {capture : ℕ} {selected : ℕ} {arrival : ℕ} {cut : ℕ} (h_s : Kept s0 s) :
    Kept s0 (State.streamSample s n capture selected arrival cut) := by
  unfold State.streamSample
  split
  · exact h_s
  · exact (State_sil1_kept h_s)
  · exact (State_event_kept h_s)

theorem State_sectorFrame_kept {s0 : State} {s : State} {disT : ℕ} {all : List SectorVote} (h_s : Kept s0 s) :
    Kept s0 (State.sectorFrame s disT all).1 := by
  unfold State.sectorFrame
  extract_lets -merge -useContext +onlyGivenNames y40
  exact (Kept.foldl h_s (fun x41 x43 h42 => (by
    split
    · exact (Kept.ite h42 (State_sil1_kept h42)))))

theorem State_setTrack_kept {s0 : State} {s : State} {n : ℕ} {x : Track} (h_s : Kept s0 s) :
    Kept s0 (State.setTrack s n x) := by
  unfold State.setTrack
  exact (Kept.mk' h_s)

theorem State_births_kept {s0 s : State} {b rel : List Nat} {l : List Det} (h : Kept s0 s) : Kept s0 (s.births b rel l).1 := by
  induction l generalizing s with
  | nil => exact h
  | cons a t ih =>
    unfold State.births
    extract_lets bl lim
    split
    · exact ih h
    · extract_lets id s1 s2
      have h1 : Kept s0 s1 := State_setTrack_kept h
      have h2 : Kept s0 s2 := Kept.ite h1 (State_setF_kept h1)
      exact ih h2

theorem State_showLive_kept {s0 : State} {s : State} (h_s : Kept s0 s) :
    Kept s0 (State.showLive s) := by
  unfold State.showLive
  exact (State_setF_kept h_s)

theorem updateRun_kept {s0 : State} {b : List ℕ} {it : WorkItem}  :
    KeptEng s0 (updateRun b it) := by
  unfold updateRun
  extract_lets -merge -useContext +onlyGivenNames y40
  refine KeptEng.bind ?_ ?_
  · exact Eng_need_kept
  intro x41
  refine KeptEng.get (fun x42 h43 => ?_)
  extract_lets -merge -useContext +onlyGivenNames y84
  extract_lets -merge -useContext +onlyGivenNames y125
  extract_lets -merge -useContext +onlyGivenNames i126
  extract_lets -merge -useContext +onlyGivenNames y166
  have h167 : ∀ u680, KeptEng s0 (y166 u680) := (fun x168 => (KeptEng.bind Eng_read_kept (fun x169 => (by
    extract_lets -merge -useContext +onlyGivenNames y210
    refine KeptEng.get (fun x211 h212 => ?_)
    extract_lets -merge -useContext +onlyGivenNames y253
    extract_lets -merge -useContext +onlyGivenNames y294
    extract_lets -merge -useContext +onlyGivenNames y335
    extract_lets -merge -useContext +onlyGivenNames y376
    extract_lets -merge -useContext +onlyGivenNames y417
    extract_lets -merge -useContext +onlyGivenNames y458
    have h459 : Kept s0 y458 := (Kept.foldl h212 (fun x460 x462 h461 => (by
      split
      · exact (State_setTrack_kept h461))))
    extract_lets -merge -useContext +onlyGivenNames y505
    split
    · rename_i z506 z507 z508 e509
      have h510 : Kept s0 z506 := Kept1.ofEq e509 (State_births_kept h459)
      extract_lets -merge -useContext +onlyGivenNames y551
      have h552 : Kept s0 y551 := (Kept.ite h510 (State_setF_kept (State_setF_kept h510)))
      extract_lets -merge -useContext +onlyGivenNames y593
      have h594 : Kept s0 y593 := (State_setF_kept (State_showLive_kept h552))
      extract_lets -merge -useContext +onlyGivenNames y635
      extract_lets -merge -useContext +onlyGivenNames y676
      have h677 : Kept s0 y676 := (State_progress_kept h594)
      refine KeptEng.bind ?_ ?_
      · exact (KeptEng.set (Kept.ite h677 (State_extreme_kept h677)))
      intro x678
      refine KeptEng.bind ?_ ?_
      · exact Eng_write_kept
      intro x679
      exact KeptEng.pure))))
  refine KeptEng.ite' (fun _ => ?_) (fun _ => ?_)
  · refine KeptEng.bind ?_ ?_
    · exact (KeptEng.set (State_sil1_kept h43))
    intro x681
    refine KeptEng.bind ?_ ?_
    · exact KeptEng.err
    intro x682
    exact (h167 ())
  · exact (h167 ())

theorem forecastRun_kept {s0 : State} {b : List ℕ}  :
    KeptEng s0 (forecastRun b) := by
  unfold forecastRun
  refine KeptEng.get (fun x0 h1 => ?_)
  extract_lets -merge -useContext +onlyGivenNames y42
  refine KeptEng.bind ?_ ?_
  · exact (Eng_for_kept (fun x44 => Eng_write_kept))
  intro x43
  exact KeptEng.pure

theorem deleteRun_kept {s0 : State} {b : List ℕ}  :
    KeptEng s0 (deleteRun b) := by
  unfold deleteRun
  refine KeptEng.get (fun x0 h1 => ?_)
  extract_lets -merge -useContext +onlyGivenNames y42
  extract_lets -merge -useContext +onlyGivenNames y83
  refine KeptEng.bind ?_ ?_
  · exact Eng_need_kept
  intro x84
  extract_lets -merge -useContext +onlyGivenNames y125
  have h126 : Kept s0 y125 := (State_showLive_kept (State_setTrack_kept h1))
  refine KeptEng.bind ?_ ?_
  · exact (KeptEng.set h126)
  intro x127
  exact KeptEng.pure

theorem State_trkAdvance_kept {s0 : State} {s : State} {w : TrkWait} (h_s : Kept s0 s) :
    Kept s0 (State.trkAdvance s w) := by
  unfold State.trkAdvance
  extract_lets -merge -useContext +onlyGivenNames y40
  split
  · rename_i z41 z42 z43 e44
    have h45 : Kept s0 z41 := Kept1.ofEq e44 (State_askHomes_kept h_s)
    refine Kept.ite' (fun _ => ?_) (fun _ => ?_)
    · exact (Kept.mk' h45)
    · extract_lets -merge -useContext +onlyGivenNames y86
      have h87 : Kept s0 y86 := (Kept.foldl h45 (fun x88 x90 h89 => (State_freeCtx_kept h89)))
      extract_lets -merge -useContext +onlyGivenNames y131
      have h132 : Kept s0 y131 := (Kept.foldl h87 (fun x133 x135 h134 => (by
        split
        · exact (Kept.ite (State_bindCtx_kept h134) h134))))
      exact (State_engEnd_kept h132)

theorem trackCmd_kept {s0 : State} {opc : ℕ} {s : State} (h_s : Kept s0 s) :
    Kept s0 (trackCmd opc s) := by
  unfold trackCmd
  split
  · exact h_s
  · refine Kept.ite' (fun _ => ?_) (fun _ => ?_)
    · exact h_s
    · split
      · rename_i z4 z5 e6
        have h7 : Kept s0 z5 := (KeptRes.ofEq e6 (KeptEng.run (KeptEng.bind Eng_block_kept (fun x8 => (KeptEng.bind Eng_need_kept (fun x9 => (by
          split
          · exact updateRun_kept
          · exact forecastRun_kept
          · exact deleteRun_kept))))) h_s)).st
        exact (State_engEnd_kept h7)
      · rename_i z16 z17 e18
        have h19 : Kept s0 z17 := (KeptRes.ofEq e18 (KeptEng.run (KeptEng.bind Eng_block_kept (fun x20 => (KeptEng.bind Eng_need_kept (fun x21 => (by
          split
          · exact updateRun_kept
          · exact forecastRun_kept
          · exact deleteRun_kept))))) h_s)).st
        exact (State_trkAdvance_kept h19)

theorem execUpdate_kept {s0 : State} {s : State} (h_s : Kept s0 s) :
    KeptNext s0 (execUpdate s) := by
  unfold execUpdate
  exact (KeptNext.next (trackCmd_kept h_s))

theorem execForecast_kept {s0 : State} {s : State} (h_s : Kept s0 s) :
    KeptNext s0 (execForecast s) := by
  unfold execForecast
  exact (KeptNext.next (trackCmd_kept h_s))

theorem execDeleteTrack_kept {s0 : State} {s : State} (h_s : Kept s0 s) :
    KeptNext s0 (execDeleteTrack s) := by
  unfold execDeleteTrack
  exact (KeptNext.next (trackCmd_kept h_s))

theorem State_trkGrant_kept {s0 : State} {s : State} (h_s : Kept s0 s) :
    Kept s0 (State.trkGrant s) := by
  unfold State.trkGrant
  split
  · exact h_s
  · exact (Kept.ite (State_trkAdvance_kept (State_grantCtx_kept (Kept.mk' h_s))) h_s)

theorem contextGrantCmd_kept {s0 : State} {u : ℕ} {s : State} (h_s : Kept s0 s) :
    Kept s0 (contextGrantCmd u s) := by
  unfold contextGrantCmd
  exact (Kept.ite (State_trkGrant_kept h_s) (contextGrant_kept h_s))

theorem execContextGrant_kept {s0 : State} {u : ℕ} {s : State} (h_s : Kept s0 s) :
    KeptNext s0 (execContextGrant u s) := by
  unfold execContextGrant
  exact (KeptNext.next (contextGrantCmd_kept h_s))

theorem trkNextIdWrite_kept {s0 : State} {who : Who} {w : ℕ} {s : State} (h_s : Kept s0 s) :
    Kept s0 (trkNextIdWrite who w s) := by
  unfold trkNextIdWrite
  exact (Kept.ite (State_refuseAccess_kept h_s) (State_setF_kept h_s))

theorem execTrkNextIdWrite_kept {s0 : State} {who : Who} {w : ℕ} {s : State} (h_s : Kept s0 s) :
    KeptNext s0 (execTrkNextIdWrite who w s) := by
  unfold execTrkNextIdWrite
  exact (KeptNext.next (trkNextIdWrite_kept h_s))

theorem trkSel_kept {s0 : State} {who : Who} {w : ℕ} {s : State} (h_s : Kept s0 s) :
    Kept s0 (trkSel who w s) := by
  unfold trkSel
  refine Kept.ite' (fun _ => ?_) (fun _ => ?_)
  · exact (State_refuseAccess_kept h_s)
  · extract_lets -merge -useContext +onlyGivenNames y40
    extract_lets -merge -useContext +onlyGivenNames y81
    have h82 : Kept s0 y81 := (State_setF_kept h_s)
    exact (Kept.foldl h82 (fun x83 x85 h84 => (State_setF_kept h84)))

theorem execTrkSel_kept {s0 : State} {who : Who} {w : ℕ} {s : State} (h_s : Kept s0 s) :
    KeptNext s0 (execTrkSel who w s) := by
  unfold execTrkSel
  exact (KeptNext.next (trkSel_kept h_s))

theorem Eng_gridHeader_kept {s0 : State} {u : ℕ} {grid : ℕ} {gver : ℕ}  :
    KeptEng s0 (Eng.gridHeader u grid gver) := by
  unfold Eng.gridHeader
  refine KeptEng.bind ?_ ?_
  · exact Eng_read_kept
  intro x0
  exact Eng_need_kept

theorem Eng_gridByte_kept {s0 : State} {u : ℕ} {grid : ℕ} {k : ℕ} {r : ℕ} {c : ℕ}  :
    KeptEng s0 (Eng.gridByte u grid k r c) := by
  unfold Eng.gridByte
  refine KeptEng.bind ?_ ?_
  · exact Eng_read_kept
  intro x0
  exact KeptEng.pure

theorem Eng_candCost_kept {s0 : State} {u : ℕ} {b : List ℕ} {h' : List ℕ} {w : Sweep} {sts : List TSt} {ds : List (List ℕ)}  :
    KeptEng s0 (Eng.candCost u b h' w sts ds) := by
  unfold Eng.candCost
  extract_lets -merge -useContext +onlyGivenNames y40
  extract_lets -merge -useContext +onlyGivenNames y81
  extract_lets -merge -useContext +onlyGivenNames y122
  extract_lets -merge -useContext +onlyGivenNames y163
  refine KeptEng.bind ?_ ?_
  · exact (Eng_fold_kept (fun x165 x166 => (by
    split
    · refine KeptEng.bind ?_ ?_
      · exact Eng_gridByte_kept
      intro x170
      exact KeptEng.pure
    · exact KeptEng.pure)))
  intro x164
  exact KeptEng.pure

theorem Eng_candDone_kept {s0 : State} {u : ℕ}  :
    KeptEng s0 (Eng.candDone u) := by
  unfold Eng.candDone
  exact (KeptEng.modify (fun x0 h1 => (by
    extract_lets -merge -useContext +onlyGivenNames y42
    have h43 : Kept s0 y42 := (State_setF_kept h1)
    exact (State_progress_kept (State_setF_kept h43)))))

theorem Eng_candidate_kept {s0 : State} {u : ℕ} {b : List ℕ} {h' : List ℕ} {v : List ℕ} {e : List ℕ} {w : Sweep}  :
    KeptEng s0 (Eng.candidate u b h' v e w) := by
  unfold Eng.candidate
  extract_lets -merge -useContext +onlyGivenNames y40
  extract_lets -merge -useContext +onlyGivenNames y81
  extract_lets -merge -useContext +onlyGivenNames y122
  extract_lets -merge -useContext +onlyGivenNames y163
  have h164 : ∀ u213, KeptEng s0 (y163 u213) := (fun x165 => (by
    unfold y163
    beta_reduce
    extract_lets -merge -useContext +onlyGivenNames y206
    have h207 : ∀ u210, KeptEng s0 (y206 u210) := (fun x208 => (KeptEng.bind Eng_candDone_kept (fun x209 => KeptEng.pure)))
    refine KeptEng.ite' (fun _ => ?_) (fun _ => ?_)
    · refine KeptEng.bind ?_ ?_
      · exact Eng_candCost_kept
      intro x211
      exact (h207 _)
    · refine KeptEng.bind ?_ ?_
      · exact KeptEng.pure
      intro x212
      exact (h207 _)))
  refine KeptEng.ite' (fun _ => ?_) (fun _ => ?_)
  · refine KeptEng.bind ?_ ?_
    · exact (sweepStates_kept (fun x215 x216 x217 => Eng_gridByte_kept))
    intro x214
    exact (h164 _)
  · refine KeptEng.bind ?_ ?_
    · exact KeptEng.pure
    intro x218
    exact (h164 _)

theorem Eng_candidates_kept {s0 : State} {u : Nat} {b h v : List Nat} {es : List (List Nat)} {w : Sweep} {n i : Nat} :
    KeptEng s0 (Eng.candidates u b h v es w n i) := by
  induction n generalizing i with
  | zero => exact KeptEng.pure
  | succ n ih =>
    unfold Eng.candidates
    refine KeptEng.bind (Eng_tried_kept Eng_candidate_kept) (fun x => ?_)
    split
    · exact KeptEng.pure
    · exact KeptEng.bind ih (fun _ => KeptEng.pure)

theorem State_certify_kept {s0 : State} {s : State} {u : ℕ} {cs : ℕ} {b : List ℕ} {rs : List (List ℕ × Bool)} (h_s : Kept s0 s) :
    Kept s0 (State.certify s u cs b rs) := by
  unfold State.certify
  extract_lets -merge -useContext +onlyGivenNames y40
  split
  · exact (Kept.mk' h_s)
  · extract_lets -merge -useContext +onlyGivenNames y87
    extract_lets -merge -useContext +onlyGivenNames y128
    extract_lets -merge -useContext +onlyGivenNames y169
    have h170 : Kept s0 y169 := (Kept.foldl h_s (fun x171 x173 h172 => (State_binFailure_kept (State_binFailure_kept (State_event_kept h172)))))
    exact (Kept.mk' h170)

theorem checkRun_kept {s0 : State} {u : ℕ} {a : ℕ}  :
    KeptEng s0 (checkRun u a) := by
  unfold checkRun
  refine KeptEng.bind ?_ ?_
  · exact Eng_block_kept
  intro x0
  refine KeptEng.bind ?_ ?_
  · exact Eng_need_kept
  intro x1
  refine KeptEng.bind ?_ ?_
  · exact Eng_read_kept
  intro x2
  refine KeptEng.bind ?_ ?_
  · exact Eng_need_kept
  intro x3
  extract_lets -merge -useContext +onlyGivenNames y44
  extract_lets -merge -useContext +onlyGivenNames y85
  refine KeptEng.bind ?_ ?_
  · exact Eng_read_kept
  intro x86
  refine KeptEng.bind ?_ ?_
  · exact Eng_need_kept
  intro x87
  refine KeptEng.bind ?_ ?_
  · exact (Eng_collect_kept (fun x89 => Eng_read_kept))
  intro x88
  refine KeptEng.bind ?_ ?_
  · exact Eng_need_kept
  intro x90
  extract_lets -merge -useContext +onlyGivenNames y131
  refine KeptEng.bind ?_ ?_
  · exact Eng_gridHeader_kept
  intro x132
  refine KeptEng.bind ?_ ?_
  · exact Eng_read_kept
  intro x133
  extract_lets -merge -useContext +onlyGivenNames y174
  refine KeptEng.bind ?_ ?_
  · exact Eng_candidates_kept
  intro x175
  split
  · extract_lets -merge -useContext +onlyGivenNames y218
    split
    · exact KeptEng.pure
    · refine KeptEng.bind ?_ ?_
      · exact (Eng_tried_kept (KeptEng.bind Eng_gridHeader_kept (fun x222 => (Eng_for_kept (fun x223 => Eng_write_kept)))))
      intro x221
      split
      · exact KeptEng.pure
      · refine KeptEng.bind ?_ ?_
        · exact (KeptEng.modify (fun x227 h228 => (Kept.ite h228 (State_certify_kept h228))))
        intro x226
        exact KeptEng.pure

theorem checkCmd_kept {s0 : State} {u : ℕ} {s : State} (h_s : Kept s0 s) :
    Kept s0 (checkCmd u s) := by
  unfold checkCmd
  split
  · exact h_s
  · refine Kept.ite' (fun _ => ?_) (fun _ => ?_)
    · exact h_s
    · split
      · rename_i z4 z5 e6
        have h7 : Kept s0 z5 := (KeptRes.ofEq e6 (KeptEng.run checkRun_kept (State_setF_kept h_s))).st
        exact (State_engEnd_kept h7)
      · rename_i z8 z9 z10 e11
        have h12 : Kept s0 z10 := (KeptRes.ofEq e11 (KeptEng.run checkRun_kept (State_setF_kept h_s))).st
        exact (State_engEnd_kept h12)
      · rename_i z13 z14 e15
        have h16 : Kept s0 z14 := (KeptRes.ofEq e15 (KeptEng.run checkRun_kept (State_setF_kept h_s))).st
        exact (State_engEnd_kept h16)

theorem execCheck_kept {s0 : State} {u : ℕ} {s : State} (h_s : Kept s0 s) :
    KeptNext s0 (execCheck u s) := by
  unfold execCheck
  exact (KeptNext.next (checkCmd_kept h_s))

theorem State_setCap_kept {s0 : State} {s : State} (h_s : Kept s0 s) :
    Kept s0 (State.setCap s) := by
  unfold State.setCap
  exact (State_setF_kept h_s)

theorem State_setDivider_kept {s0 : State} {s : State} (h_s : Kept s0 s) :
    Kept s0 (State.setDivider s) := by
  unfold State.setDivider
  exact (State_setF_kept h_s)

theorem State_inMode_kept {s0 : State} {s : State} {m : ℕ} (h_s : Kept s0 s) :
    Kept s0 (State.inMode s m) := by
  unfold State.inMode
  exact (State_setCause_kept (State_setCap_kept (State_setF_kept h_s)))

theorem State_askMode_kept {s0 : State} {s : State} {m : ℕ} {t : ℕ} (h_s : Kept s0 s) :
    Kept s0 (State.askMode s m t) := by
  unfold State.askMode
  extract_lets -merge -useContext +onlyGivenNames y40
  have h41 : Kept s0 y40 := (State_setF_kept (State_setF_kept h_s))
  exact (Kept.mk' h41)

theorem State_dropMode_kept {s0 : State} {s : State} (h_s : Kept s0 s) :
    Kept s0 (State.dropMode s) := by
  unfold State.dropMode
  exact (State_setF_kept (State_setF_kept h_s))

theorem State_excludeModes_kept {s0 : State} {s : State} (h_s : Kept s0 s) :
    Kept s0 (State.excludeModes s) := by
  unfold State.excludeModes
  exact (Kept.foldl h_s (fun x0 x2 h1 => (by
    split
    · exact (Kept.ite h1 (State_moveJob_kept h1))
    · exact h1)))

theorem State_setRails_kept {s0 : State} {s : State} (h_s : Kept s0 s) :
    Kept s0 (State.setRails s) := by
  unfold State.setRails
  exact (Kept.foldl h_s (fun x0 x2 h1 => (by
    extract_lets -merge -useContext +onlyGivenNames y43
    exact (State_setF_kept h1))))

theorem State_clockEvent_kept {s0 : State} {s : State} (h_s : Kept s0 s) :
    Kept s0 (State.clockEvent s) := by
  unfold State.clockEvent
  extract_lets -merge -useContext +onlyGivenNames y40
  have h41 : Kept s0 y40 := (Kept.ite (State_setRails_kept h_s) h_s)
  extract_lets -merge -useContext +onlyGivenNames y82
  have h83 : Kept s0 y82 := (by
    unfold y82
    split
    · exact (State_setF_kept h41)
    · exact h41)
  extract_lets -merge -useContext +onlyGivenNames y128
  have h129 : Kept s0 y128 := (by
    unfold y128
    split
    · exact (State_setF_kept h83)
    · exact h83)
  extract_lets -merge -useContext +onlyGivenNames y174
  have h175 : Kept s0 y174 := (Kept.foldl h129 (fun x176 x178 h177 => (by
    split
    · exact (State_setF_kept h177))))
  extract_lets -merge -useContext +onlyGivenNames i181
  extract_lets -merge -useContext +onlyGivenNames y221
  have h222 : Kept s0 y221 := (Kept.mk' h175)
  extract_lets -merge -useContext +onlyGivenNames y263
  extract_lets -merge -useContext +onlyGivenNames y304
  have h305 : Kept s0 y304 := (Kept.ite (State_dropMode_kept (State_inMode_kept h222)) h222)
  extract_lets -merge -useContext +onlyGivenNames y346
  have h347 : Kept s0 y346 := (State_setDivider_kept h305)
  exact (Kept.ite (State_excludeModes_kept h347) h347)

end Sys2Proof.Machine
end

