-- ==== Sys2Proof/Laws/KeptSensors.lean ====
section
/-! SUPPORT. `Kept` for the operations of sensors and interfaces: one lemma for each. -/

namespace Sys2Proof.Machine

theorem State_applyTrig_kept {s0 : State} {s : State} (h_s : Kept s0 s) :
    Kept s0 (State.applyTrig s) := by
  unfold State.applyTrig
  extract_lets -merge -useContext +onlyGivenNames y40
  have h41 : Kept s0 y40 := (State_setF_kept h_s)
  exact (Kept.mk' h41)

theorem State_setCam_kept {s0 : State} {s : State} {n : ℕ} {x : CamRt} (h_s : Kept s0 s) :
    Kept s0 (State.setCam s n x) := by
  unfold State.setCam
  exact (Kept.mk' h_s)

theorem State_countVerdict_kept {s0 : State} {s : State} {n : ℕ} {k : ℕ} (h_s : Kept s0 s) :
    Kept s0 (State.countVerdict s n k) := by
  unfold State.countVerdict
  exact (State_sil1_kept h_s)

theorem State_absentVerdict_kept {s0 : State} {s : State} {n : ℕ} (h_s : Kept s0 s) :
    Kept s0 (State.absentVerdict s n) := by
  unfold State.absentVerdict
  extract_lets -merge -useContext +onlyGivenNames y40
  extract_lets -merge -useContext +onlyGivenNames y81
  extract_lets -merge -useContext +onlyGivenNames y122
  extract_lets -merge -useContext +onlyGivenNames y163
  have h164 : Kept s0 y163 := (State_setCam_kept h_s)
  extract_lets -merge -useContext +onlyGivenNames y205
  have h206 : Kept s0 y205 := (State_countVerdict_kept (State_setF_kept h164))
  refine Kept.ite' (fun _ => ?_) (fun _ => ?_)
  · exact h206
  · extract_lets -merge -useContext +onlyGivenNames y247
    have h248 : Kept s0 y247 := (Kept.ite (State_setF_kept h206) h206)
    exact (Kept.ite h248 (State_setF_kept h248))

theorem State_pulse_kept {s0 : State} {s : State} {n : ℕ} (h_s : Kept s0 s) :
    Kept s0 (State.pulse s n) := by
  unfold State.pulse
  extract_lets -merge -useContext +onlyGivenNames i0
  extract_lets -merge -useContext +onlyGivenNames y40
  have h41 : Kept s0 y40 := (Kept.mk' h_s)
  extract_lets -merge -useContext +onlyGivenNames y82
  extract_lets -merge -useContext +onlyGivenNames y123
  have h124 : Kept s0 y123 := (Kept.ite (State_absentVerdict_kept h41) h41)
  exact (State_setCam_kept h124)

theorem State_fireFs_kept {s0 : State} {s : State} {r : ℕ} {n : ℕ} (h_s : Kept s0 s) :
    Kept s0 (State.fireFs s r n) := by
  unfold State.fireFs
  extract_lets -merge -useContext +onlyGivenNames y40
  extract_lets -merge -useContext +onlyGivenNames y81
  extract_lets -merge -useContext +onlyGivenNames y122
  extract_lets -merge -useContext +onlyGivenNames y163
  have h164 : Kept s0 y163 := (Kept.ite (State_pulse_kept h_s) h_s)
  exact (Kept.ite (State_setF_kept h164) h164)

theorem State_fireLs_kept {s0 : State} {s : State} {r : ℕ} {n : ℕ} (h_s : Kept s0 s) :
    Kept s0 (State.fireLs s r n) := by
  unfold State.fireLs
  extract_lets -merge -useContext +onlyGivenNames y40
  exact (Kept.ite (Kept.mk' h_s) h_s)

theorem State_applyPoses_kept {s0 : State} {s : State} (h_s : Kept s0 s) :
    Kept s0 (State.applyPoses s) := by
  unfold State.applyPoses
  exact (Kept.ite h_s (Kept.mk' h_s))

theorem State_countCertified_kept {s0 : State} {s : State} (h_s : Kept s0 s) :
    Kept s0 (State.countCertified s) := by
  unfold State.countCertified
  extract_lets -merge -useContext +onlyGivenNames y40
  extract_lets -merge -useContext +onlyGivenNames i41
  extract_lets -merge -useContext +onlyGivenNames y81
  have h82 : Kept s0 y81 := (Kept.mk' h_s)
  exact (Kept.ite h82 (State_extreme_kept h82))

theorem State_countAligned_kept {s0 : State} {s : State} (h_s : Kept s0 s) :
    Kept s0 (State.countAligned s) := by
  unfold State.countAligned
  extract_lets -merge -useContext +onlyGivenNames y40
  exact (Kept.mk' h_s)

theorem State_emitEvent_kept {s0 : State} {s : State} (h_s : Kept s0 s) :
    Kept s0 (State.emitEvent s) := by
  unfold State.emitEvent
  extract_lets -merge -useContext +onlyGivenNames y40
  have h41 : Kept s0 y40 := (State_applyTrig_kept (State_countAligned_kept (State_countCertified_kept h_s)))
  extract_lets -merge -useContext +onlyGivenNames y82
  extract_lets -merge -useContext +onlyGivenNames y123
  have h124 : Kept s0 y123 := (Kept.foldl h41 (fun x125 x127 h126 => (State_fireFs_kept h126)))
  extract_lets -merge -useContext +onlyGivenNames y168
  have h169 : Kept s0 y168 := (Kept.foldl h124 (fun x170 x172 h171 => (State_fireLs_kept h171)))
  extract_lets -merge -useContext +onlyGivenNames y213
  have h214 : Kept s0 y213 := (State_setF_kept (State_setF_kept (State_setF_kept h169)))
  extract_lets -merge -useContext +onlyGivenNames i215
  extract_lets -merge -useContext +onlyGivenNames y255
  have h256 : Kept s0 y255 := (Kept.mk' h214)
  exact (State_clockEvent_kept (State_wire_kept (State_applyPoses_kept h256)))

theorem frameStartEvent_kept {s0 : State} {t : ℕ} {s : State} (h_s : Kept s0 s) :
    Kept s0 (frameStartEvent t s) := by
  unfold frameStartEvent
  extract_lets -merge -useContext +onlyGivenNames y40
  have h41 : Kept s0 y40 := (State_at_kept h_s)
  exact (Kept.ite (State_emitEvent_kept h41) h41)

theorem execFrameStartEvent_kept {s0 : State} {t : ℕ} {s : State} (h_s : Kept s0 s) :
    KeptNext s0 (execFrameStartEvent t s) := by
  unfold execFrameStartEvent
  exact (KeptNext.next (frameStartEvent_kept h_s))

theorem lsyncPulse_kept {s0 : State} {n : ℕ} {t : ℕ} {s : State} (h_s : Kept s0 s) :
    Kept s0 (lsyncPulse n t s) := by
  unfold lsyncPulse
  extract_lets -merge -useContext +onlyGivenNames y40
  have h41 : Kept s0 y40 := (State_at_kept h_s)
  split
  · exact h41
  · refine Kept.ite' (fun _ => ?_) (fun _ => ?_)
    · exact h41
    · extract_lets -merge -useContext +onlyGivenNames y86
      exact (Kept.mk' h41)

theorem execLsyncPulse_kept {s0 : State} {n : ℕ} {t : ℕ} {s : State} (h_s : Kept s0 s) :
    KeptNext s0 (execLsyncPulse n t s) := by
  unfold execLsyncPulse
  exact (KeptNext.next (lsyncPulse_kept h_s))

theorem State_writeTrigCtrl_kept {s0 : State} {s : State} {w : ℕ} (h_s : Kept s0 s) :
    Kept s0 (State.writeTrigCtrl s w) := by
  unfold State.writeTrigCtrl
  extract_lets -merge -useContext +onlyGivenNames y40
  extract_lets -merge -useContext +onlyGivenNames y81
  have h82 : Kept s0 y81 := (State_loadF_kept h_s)
  refine Kept.ite' (fun _ => ?_) (fun _ => ?_)
  · refine Kept.ite' (fun _ => ?_) (fun _ => ?_)
    · exact h82
    · extract_lets -merge -useContext +onlyGivenNames y123
      have h124 : Kept s0 y123 := (State_setF_kept h82)
      exact (State_applyTrig_kept (Kept.mk' h124))
  · extract_lets -merge -useContext +onlyGivenNames y165
    have h166 : Kept s0 y165 := (State_applyTrig_kept h82)
    refine Kept.ite' (fun _ => ?_) (fun _ => ?_)
    · extract_lets -merge -useContext +onlyGivenNames y207
      have h208 : Kept s0 y207 := (State_setF_kept h166)
      exact (Kept.mk' h208)
    · exact h166

theorem State_stepTrig_kept {s0 : State} {s : State} (h_s : Kept s0 s) :
    Kept s0 (State.stepTrig s) := by
  unfold State.stepTrig
  refine Kept.ite' (fun _ => ?_) (fun _ => ?_)
  · exact h_s
  · exact (Kept.ite (State_emitEvent_kept h_s) (State_setF_kept h_s))

theorem stepCmd_kept {s0 : State} {who : Who} {w : ℕ} {t : ℕ} {s : State} (h_s : Kept s0 s) :
    Kept s0 (stepCmd who w t s) := by
  unfold stepCmd
  extract_lets -merge -useContext +onlyGivenNames y40
  have h41 : Kept s0 y40 := (State_at_kept h_s)
  refine Kept.ite' (fun _ => ?_) (fun _ => ?_)
  · exact (State_refuseAccess_kept h41)
  · extract_lets -merge -useContext +onlyGivenNames y82
    have h83 : Kept s0 y82 := (State_writeTrigCtrl_kept h41)
    exact (Kept.ite (State_stepTrig_kept h83) h83)

theorem execStep_kept {s0 : State} {who : Who} {w : ℕ} {t : ℕ} {s : State} (h_s : Kept s0 s) :
    KeptNext s0 (execStep who w t s) := by
  unfold execStep
  exact (KeptNext.next (stepCmd_kept h_s))

theorem heldStepEvent_kept {s0 : State} {t : ℕ} {s : State} (h_s : Kept s0 s) :
    Kept s0 (heldStepEvent t s) := by
  unfold heldStepEvent
  extract_lets -merge -useContext +onlyGivenNames y40
  have h41 : Kept s0 y40 := (State_at_kept h_s)
  exact (Kept.ite (State_emitEvent_kept h41) h41)

theorem execHeldStepEvent_kept {s0 : State} {t : ℕ} {s : State} (h_s : Kept s0 s) :
    KeptNext s0 (execHeldStepEvent t s) := by
  unfold execHeldStepEvent
  exact (KeptNext.next (heldStepEvent_kept h_s))

theorem State_writeTrigCfg_kept {s0 : State} {s : State} {a : ℕ} {fs : List FD} {w : ℕ} (h_s : Kept s0 s) :
    Kept s0 (State.writeTrigCfg s a fs w) := by
  unfold State.writeTrigCfg
  extract_lets -merge -useContext +onlyGivenNames y40
  have h41 : Kept s0 y40 := (State_loadF_kept h_s)
  exact (Kept.ite h41 (State_applyTrig_kept h41))

theorem trigFsSeqWrite_kept {s0 : State} {who : Who} {n : ℕ} {w : ℕ} {s : State} (h_s : Kept s0 s) :
    Kept s0 (trigFsSeqWrite who n w s) := by
  unfold trigFsSeqWrite
  refine Kept.ite' (fun _ => ?_) (fun _ => ?_)
  · exact (State_refuseAccess_kept h_s)
  · exact (Kept.ite h_s (State_setF_kept h_s))

theorem execTrigFsSeqWrite_kept {s0 : State} {who : Who} {n : ℕ} {w : ℕ} {s : State} (h_s : Kept s0 s) :
    KeptNext s0 (execTrigFsSeqWrite who n w s) := by
  unfold execTrigFsSeqWrite
  exact (KeptNext.next (trigFsSeqWrite_kept h_s))

theorem echoCfgWrite_kept {s0 : State} {who : Who} {n : ℕ} {w : ℕ} {s : State} (h_s : Kept s0 s) :
    Kept s0 (echoCfgWrite who n w s) := by
  unfold echoCfgWrite
  refine Kept.ite' (fun _ => ?_) (fun _ => ?_)
  · exact (State_refuseAccess_kept h_s)
  · refine Kept.ite' (fun _ => ?_) (fun _ => ?_)
    · exact h_s
    · extract_lets -merge -useContext +onlyGivenNames y40
      have h41 : Kept s0 y40 := (State_loadF_kept h_s)
      exact (Kept.ite (State_setF_kept (State_setF_kept h41)) h41)

theorem execEchoCfgWrite_kept {s0 : State} {who : Who} {n : ℕ} {w : ℕ} {s : State} (h_s : Kept s0 s) :
    KeptNext s0 (execEchoCfgWrite who n w s) := by
  unfold execEchoCfgWrite
  exact (KeptNext.next (echoCfgWrite_kept h_s))

theorem streamStale_kept {s0 : State} {n : ℕ} {t : ℕ} {s : State} (h_s : Kept s0 s) :
    Kept s0 (streamStale n t s) := by
  unfold streamStale
  extract_lets -merge -useContext +onlyGivenNames y40
  have h41 : Kept s0 y40 := (State_at_kept h_s)
  exact (Kept.ite (State_setF_kept h41) h41)

theorem execStreamStale_kept {s0 : State} {n : ℕ} {t : ℕ} {s : State} (h_s : Kept s0 s) :
    KeptNext s0 (execStreamStale n t s) := by
  unfold execStreamStale
  exact (KeptNext.next (streamStale_kept h_s))

theorem State_writeStrmCfg_kept {s0 : State} {s : State} {n : ℕ} {w : ℕ} (h_s : Kept s0 s) :
    Kept s0 (State.writeStrmCfg s n w) := by
  unfold State.writeStrmCfg
  extract_lets -merge -useContext +onlyGivenNames y40
  extract_lets -merge -useContext +onlyGivenNames y81
  have h82 : Kept s0 y81 := (State_loadF_kept h_s)
  refine Kept.ite' (fun _ => ?_) (fun _ => ?_)
  · exact (State_setF_kept (State_setF_kept h82))
  · exact (Kept.ite (State_setF_kept h82) h82)

theorem State_strmSample_kept {s0 : State} {s : State} {r : ℕ} {p : ℕ} {g : ℕ} (h_s : Kept s0 s) :
    Kept s0 (State.strmSample s r p g) := by
  unfold State.strmSample
  exact (Kept.foldl h_s (fun x0 x2 h1 => (by
    refine Kept.ite' (fun _ => ?_) (fun _ => ?_)
    · exact h1
    · extract_lets -merge -useContext +onlyGivenNames y43
      extract_lets -merge -useContext +onlyGivenNames i44
      extract_lets -merge -useContext +onlyGivenNames y84
      have h85 : Kept s0 y84 := (Kept.ite (State_extreme_kept (State_sil1_kept h1)) h1)
      extract_lets -merge -useContext +onlyGivenNames y126
      have h127 : Kept s0 y126 := (Kept.mk' h85)
      extract_lets -merge -useContext +onlyGivenNames y168
      have h169 : Kept s0 y168 := (State_setF_kept (State_setF_kept h127))
      exact (State_setF_kept h169))))

theorem State_camWrite_kept {s0 : State} {s : State} {n : ℕ} {a : ℕ} {bs : List ℕ} (h_s : Kept s0 s) :
    Kept s0 (State.camWrite s n a bs).1 := by
  unfold State.camWrite
  extract_lets -merge -useContext +onlyGivenNames y40
  exact (Kept1.ite (State_refuseAccess_kept h_s) (State_writeMem_kept h_s))

theorem State_camPutHeader_kept {s0 : State} {s : State} {n : ℕ} {st : ℕ} {f : CamFrame} {short : Bool} {noFe : Bool} (h_s : Kept s0 s) :
    Kept s0 (State.camPutHeader s n st f short noFe).1 := by
  unfold State.camPutHeader
  exact (State_camWrite_kept h_s)

theorem State_camDrop_kept {s0 : State} {s : State} {n : ℕ} (h_s : Kept s0 s) :
    Kept s0 (State.camDrop s n) := by
  unfold State.camDrop
  extract_lets -merge -useContext +onlyGivenNames y40
  extract_lets -merge -useContext +onlyGivenNames y81
  have h82 : Kept s0 y81 := (by
    unfold y81
    split
    · exact (State_camPutHeader_kept h_s)
    · exact h_s)
  extract_lets -merge -useContext +onlyGivenNames y127
  have h128 : Kept s0 y127 := (State_setF_kept h82)
  extract_lets -merge -useContext +onlyGivenNames y169
  have h170 : Kept s0 y169 := (State_setF_kept h128)
  exact (State_setCam_kept h170)

theorem State_giveVerdict_kept {s0 : State} {s : State} {n : ℕ} {echo : Option ℕ} (h_s : Kept s0 s) :
    Kept s0 (State.giveVerdict s n echo) := by
  unfold State.giveVerdict
  extract_lets -merge -useContext +onlyGivenNames y40
  extract_lets -merge -useContext +onlyGivenNames y81
  split
  · exact h_s
  · refine Kept.ite' (fun _ => ?_) (fun _ => ?_)
    · extract_lets -merge -useContext +onlyGivenNames y126
      extract_lets -merge -useContext +onlyGivenNames y167
      have h168 : Kept s0 y167 := (Kept.ite (State_setF_kept h_s) (State_countVerdict_kept h_s))
      exact (State_setCam_kept (State_setF_kept h168))
    · extract_lets -merge -useContext +onlyGivenNames y209
      split
      · extract_lets -merge -useContext +onlyGivenNames y254
        have h255 : Kept s0 y254 := (by
          unfold y254
          split
          · exact (State_setF_kept h_s)
          · exact h_s)
        extract_lets -merge -useContext +onlyGivenNames y298
        have h299 : Kept s0 y298 := (State_setF_kept (State_setF_kept (State_setF_kept h255)))
        extract_lets -merge -useContext +onlyGivenNames y340
        have h341 : Kept s0 y340 := (Kept.ite h299 (State_countVerdict_kept h299))
        exact (State_setCam_kept h341)

theorem State_camEnd_kept {s0 : State} {s : State} {n : ℕ} {noFe : Bool} (h_s : Kept s0 s) :
    Kept s0 (State.camEnd s n noFe) := by
  unfold State.camEnd
  extract_lets -merge -useContext +onlyGivenNames y40
  have h41 : Kept s0 y40 := (by
    unfold y40
    split
    · exact (Kept.ite (State_giveVerdict_kept h_s) h_s)
    · exact h_s)
  extract_lets -merge -useContext +onlyGivenNames y86
  split
  · exact h41
  · split
    · rename_i z91 e92
      have h93 : Kept s0 z91 := Kept1.ofEq e92 (State_camPutHeader_kept h41)
      exact (State_camDrop_kept h93)
    · rename_i z94 e95
      have h96 : Kept s0 z94 := Kept1.ofEq e95 (State_camPutHeader_kept h41)
      exact (State_imgShort_kept (State_setCam_kept (State_setF_kept h96)))

theorem csiFrameStart_kept {s0 : State} {n : ℕ} {vc : ℕ} {t : ℕ} {s : State} (h_s : Kept s0 s) :
    Kept s0 (csiFrameStart n vc t s) := by
  unfold csiFrameStart
  extract_lets -merge -useContext +onlyGivenNames y40
  have h41 : Kept s0 y40 := (State_at_kept h_s)
  refine Kept.ite' (fun _ => ?_) (fun _ => ?_)
  · exact h41
  · extract_lets -merge -useContext +onlyGivenNames y82
    have h83 : Kept s0 y82 := (Kept.ite (State_camEnd_kept h41) h41)
    extract_lets -merge -useContext +onlyGivenNames y124
    extract_lets -merge -useContext +onlyGivenNames y165
    refine Kept.ite' (fun _ => ?_) (fun _ => ?_)
    · exact (State_camDrop_kept h83)
    · extract_lets -merge -useContext +onlyGivenNames y206
      extract_lets -merge -useContext +onlyGivenNames y247
      have h248 : Kept s0 y247 := (State_setCam_kept h83)
      extract_lets -merge -useContext +onlyGivenNames y289
      have h290 : Kept s0 y289 := (by
        unfold y289
        split
        · exact (State_setF_kept h248)
        · exact h248)
      extract_lets -merge -useContext +onlyGivenNames y335
      have h336 : Kept s0 y335 := (State_setF_kept (State_setF_kept (State_setF_kept h290)))
      split
      · rename_i z337 e338
        have h339 : Kept s0 z337 := Kept1.ofEq e338 (State_camPutHeader_kept h336)
        exact (State_camDrop_kept h339)
      · rename_i z340 e341
        have h342 : Kept s0 z340 := Kept1.ofEq e341 (State_camPutHeader_kept h336)
        exact (State_imgSeen_kept h342)

theorem execCsiFrameStart_kept {s0 : State} {n : ℕ} {vc : ℕ} {t : ℕ} {s : State} (h_s : Kept s0 s) :
    KeptNext s0 (execCsiFrameStart n vc t s) := by
  unfold execCsiFrameStart
  exact (KeptNext.next (csiFrameStart_kept h_s))

theorem csiEmbeddedData_kept {s0 : State} {n : ℕ} {vc : ℕ} {data : List ℕ} {t : ℕ} {s : State} (h_s : Kept s0 s) :
    Kept s0 (csiEmbeddedData n vc data t s) := by
  unfold csiEmbeddedData
  extract_lets -merge -useContext +onlyGivenNames y40
  have h41 : Kept s0 y40 := (State_at_kept h_s)
  refine Kept.ite' (fun _ => ?_) (fun _ => ?_)
  · exact h41
  · split
    · exact h41
    · extract_lets -merge -useContext +onlyGivenNames y86
      split
      · rename_i z87 e88
        have h89 : Kept s0 z87 := Kept1.ofEq e88 (State_camWrite_kept h41)
        exact (State_camDrop_kept h89)
      · rename_i z90 e91
        have h92 : Kept s0 z90 := Kept1.ofEq e91 (State_camWrite_kept h41)
        extract_lets -merge -useContext +onlyGivenNames i93
        extract_lets -merge -useContext +onlyGivenNames y133
        have h134 : Kept s0 y133 := (State_setCam_kept h92)
        extract_lets -merge -useContext +onlyGivenNames y175
        have h176 : Kept s0 y175 := (Kept.ite h134 (State_giveVerdict_kept h134))
        split
        · exact h176
        · split
          · rename_i z181 e182
            have h183 : Kept s0 z181 := Kept1.ofEq e182 (State_camPutHeader_kept h176)
            exact (State_camDrop_kept h183)
          · rename_i z184 e185
            have h186 : Kept s0 z184 := Kept1.ofEq e185 (State_camPutHeader_kept h176)
            exact h186

theorem execCsiEmbeddedData_kept {s0 : State} {n : ℕ} {vc : ℕ} {data : List ℕ} {t : ℕ} {s : State} (h_s : Kept s0 s) :
    KeptNext s0 (execCsiEmbeddedData n vc data t s) := by
  unfold execCsiEmbeddedData
  exact (KeptNext.next (csiEmbeddedData_kept h_s))

theorem csiLine_kept {s0 : State} {n : ℕ} {vc : ℕ} {dt : ℕ} {data : List ℕ} {ok : Bool} {t : ℕ} {s : State} (h_s : Kept s0 s) :
    Kept s0 (csiLine n vc dt data ok t s) := by
  unfold csiLine
  extract_lets -merge -useContext +onlyGivenNames y40
  have h41 : Kept s0 y40 := (State_at_kept h_s)
  extract_lets -merge -useContext +onlyGivenNames y82
  refine Kept.ite' (fun _ => ?_) (fun _ => ?_)
  · exact h41
  · split
    · exact h41
    · refine Kept.ite' (fun _ => ?_) (fun _ => ?_)
      · exact (State_setCam_kept h41)
      · extract_lets -merge -useContext +onlyGivenNames y127
        extract_lets -merge -useContext +onlyGivenNames y168
        extract_lets -merge -useContext +onlyGivenNames y209
        split
        · rename_i z210 e211
          have h212 : Kept s0 z210 := Kept1.ofEq e211 (State_camWrite_kept h41)
          exact (State_camDrop_kept h212)
        · rename_i z213 e214
          have h215 : Kept s0 z213 := Kept1.ofEq e214 (State_camWrite_kept h41)
          extract_lets -merge -useContext +onlyGivenNames y256
          have h257 : Kept s0 y256 := (Kept.ite (State_event_kept h215) h215)
          extract_lets -merge -useContext +onlyGivenNames y298
          extract_lets -merge -useContext +onlyGivenNames i299
          extract_lets -merge -useContext +onlyGivenNames y339
          have h340 : Kept s0 y339 := (State_setF_kept (State_setCam_kept h257))
          split
          · rename_i z341 e342
            have h343 : Kept s0 z341 := Kept1.ofEq e342 (State_camPutHeader_kept h340)
            exact (State_camDrop_kept h343)
          · rename_i z344 e345
            have h346 : Kept s0 z344 := Kept1.ofEq e345 (State_camPutHeader_kept h340)
            exact (State_imgSeen_kept h346)

theorem execCsiLine_kept {s0 : State} {n : ℕ} {vc : ℕ} {dt : ℕ} {data : List ℕ} {ok : Bool} {t : ℕ} {s : State} (h_s : Kept s0 s) :
    KeptNext s0 (execCsiLine n vc dt data ok t s) := by
  unfold execCsiLine
  exact (KeptNext.next (csiLine_kept h_s))

theorem csiFrameEnd_kept {s0 : State} {n : ℕ} {vc : ℕ} {t : ℕ} {s : State} (h_s : Kept s0 s) :
    Kept s0 (csiFrameEnd n vc t s) := by
  unfold csiFrameEnd
  extract_lets -merge -useContext +onlyGivenNames y40
  have h41 : Kept s0 y40 := (State_at_kept h_s)
  exact (Kept.ite h41 (State_camEnd_kept h41))

theorem execCsiFrameEnd_kept {s0 : State} {n : ℕ} {vc : ℕ} {t : ℕ} {s : State} (h_s : Kept s0 s) :
    KeptNext s0 (execCsiFrameEnd n vc t s) := by
  unfold execCsiFrameEnd
  exact (KeptNext.next (csiFrameEnd_kept h_s))

theorem frameEndTimeout_kept {s0 : State} {n : ℕ} {t : ℕ} {s : State} (h_s : Kept s0 s) :
    Kept s0 (frameEndTimeout n t s) := by
  unfold frameEndTimeout
  extract_lets -merge -useContext +onlyGivenNames y40
  have h41 : Kept s0 y40 := (State_at_kept h_s)
  split
  · exact (Kept.ite (State_camEnd_kept h41) h41)
  · exact h41

theorem execFrameEndTimeout_kept {s0 : State} {n : ℕ} {t : ℕ} {s : State} (h_s : Kept s0 s) :
    KeptNext s0 (execFrameEndTimeout n t s) := by
  unfold execFrameEndTimeout
  exact (KeptNext.next (frameEndTimeout_kept h_s))

theorem State_camOff_kept {s0 : State} {s : State} {n : ℕ} (h_s : Kept s0 s) :
    Kept s0 (State.camOff s n) := by
  unfold State.camOff
  extract_lets -merge -useContext +onlyGivenNames y40
  extract_lets -merge -useContext +onlyGivenNames y81
  have h82 : Kept s0 y81 := (by
    unfold y81
    split
    · exact (State_setCam_kept (State_camPutHeader_kept h_s))
    · exact h_s)
  exact (State_setF_kept (State_setF_kept h82))

theorem camCfgWrite_kept {s0 : State} {who : Who} {n : ℕ} {w : ℕ} {s : State} (h_s : Kept s0 s) :
    Kept s0 (camCfgWrite who n w s) := by
  unfold camCfgWrite
  extract_lets -merge -useContext +onlyGivenNames y40
  extract_lets -merge -useContext +onlyGivenNames y81
  refine Kept.ite' (fun _ => ?_) (fun _ => ?_)
  · exact (State_refuseAccess_kept h_s)
  · refine Kept.ite' (fun _ => ?_) (fun _ => ?_)
    · exact h_s
    · refine Kept.ite' (fun _ => ?_) (fun _ => ?_)
      · exact (Kept.ite h_s (State_camOff_kept h_s))
      · extract_lets -merge -useContext +onlyGivenNames y122
        have h123 : Kept s0 y122 := (State_loadF_kept h_s)
        exact (Kept.ite (State_setCam_kept (State_setF_kept h123)) h123)

theorem execCamCfgWrite_kept {s0 : State} {who : Who} {n : ℕ} {w : ℕ} {s : State} (h_s : Kept s0 s) :
    KeptNext s0 (execCamCfgWrite who n w s) := by
  unfold execCamCfgWrite
  exact (KeptNext.next (camCfgWrite_kept h_s))

theorem State_writeCamRing_kept {s0 : State} {s : State} {n : ℕ} {w : ℕ} (h_s : Kept s0 s) :
    Kept s0 (State.writeCamRing s n w) := by
  unfold State.writeCamRing
  exact (Kept.ite h_s (State_loadF_kept h_s))

theorem State_irqLevel_kept {s0 : State} {s : State} {b : ℕ} {src : ℕ} (h_s : Kept s0 s) :
    Kept s0 (State.irqLevel s b src) := by
  unfold State.irqLevel
  extract_lets -merge -useContext +onlyGivenNames y40
  exact (Kept.mk' h_s)

theorem State_irq_kept {s0 : State} {s : State} {b : ℕ} {src : ℕ} {k : ℕ} (h_s : Kept s0 s) :
    Kept s0 (State.irq s b src k) := by
  unfold State.irq
  exact (State_irqLevel_kept (State_setF_kept h_s))

theorem State_setPort_kept {s0 : State} {s : State} {p : ℕ} {x : PortRt} (h_s : Kept s0 s) :
    Kept s0 (State.setPort s p x) := by
  unfold State.setPort
  exact (Kept.mk' h_s)

theorem State_setGrpHead_kept {s0 : State} {s : State} {g : ℕ} {v : ℕ} (h_s : Kept s0 s) :
    Kept s0 (State.setGrpHead s g v) := by
  unfold State.setGrpHead
  exact (State_setF_kept h_s)

theorem State_setGrpNext_kept {s0 : State} {s : State} {g : ℕ} {v : ℕ} (h_s : Kept s0 s) :
    Kept s0 (State.setGrpNext s g v) := by
  unfold State.setGrpNext
  exact (State_setF_kept h_s)

theorem State_putEntry_kept {s0 : State} {s : State} {g : ℕ} {n : ℕ} {b : List ℕ} (h_s : Kept s0 s) :
    Kept s0 (State.putEntry s g n b) := by
  unfold State.putEntry
  extract_lets -merge -useContext +onlyGivenNames y40
  exact (Kept.ite (State_writeMem_kept h_s) (State_refuseAccess_kept h_s))

theorem ringDoorbell_kept {s0 : State} {who : Who} {g : ℕ} {w : ℕ} {s : State} (h_s : Kept s0 s) :
    Kept s0 (ringDoorbell who g w s) := by
  unfold ringDoorbell
  extract_lets -merge -useContext +onlyGivenNames y40
  refine Kept.ite' (fun _ => ?_) (fun _ => ?_)
  · exact h_s
  · refine Kept.ite' (fun _ => ?_) (fun _ => ?_)
    · exact (State_refuseAccess_kept h_s)
    · exact (Kept.ite (State_event_kept h_s) (State_setF_kept h_s))

theorem execRingDoorbell_kept {s0 : State} {who : Who} {g : ℕ} {w : ℕ} {s : State} (h_s : Kept s0 s) :
    KeptNext s0 (execRingDoorbell who g w s) := by
  unfold execRingDoorbell
  exact (KeptNext.next (ringDoorbell_kept h_s))

theorem State_skipDone_kept {s0 s : State} {g n : Nat} {l : List Nat} (h : Kept s0 s) : Kept s0 (State.skipDone g n s l).1 := by
  induction n generalizing s l with
  | zero => exact h
  | succ n ih => exact Kept1.ite (ih (State_setGrpHead_kept h)) h

theorem State_txDone_kept {s0 : State} {s : State} {p : ℕ} {n : ℕ} {d : List ℕ} {flags : ℕ} {time : ℕ} {sent : Option (List ℕ)} (h_s : Kept s0 s) :
    Kept s0 (State.txDone s p n d flags time sent) := by
  unfold State.txDone
  extract_lets -merge -useContext +onlyGivenNames y40
  have h41 : Kept s0 y40 := (State_putEntry_kept h_s)
  extract_lets -merge -useContext +onlyGivenNames y82
  split
  · rename_i z83 z84 e85
    have h86 : Kept s0 z83 := Kept1.ofEq e85 (State_skipDone_kept h41)
    extract_lets -merge -useContext +onlyGivenNames i87
    extract_lets -merge -useContext +onlyGivenNames y127
    have h128 : Kept s0 y127 := (State_setPort_kept h86)
    exact (State_irq_kept (Kept.ite (State_setGrpNext_kept h128) h128))

theorem ethTransmit_kept {s0 : State} {p : ℕ} {t : ℕ} {s : State} (h_s : Kept s0 s) :
    Kept s0 (ethTransmit p t s) := by
  unfold ethTransmit
  extract_lets -merge -useContext +onlyGivenNames y40
  have h41 : Kept s0 y40 := (State_at_kept h_s)
  refine Kept.ite' (fun _ => ?_) (fun _ => ?_)
  · exact h41
  · split
    · exact h41
    · extract_lets -merge -useContext +onlyGivenNames y87
      extract_lets -merge -useContext +onlyGivenNames y128
      extract_lets -merge -useContext +onlyGivenNames y169
      extract_lets -merge -useContext +onlyGivenNames y210
      refine Kept.ite' (fun _ => ?_) (fun _ => ?_)
      · exact (State_txDone_kept h41)
      · extract_lets -merge -useContext +onlyGivenNames y251
        exact (State_txDone_kept h41)

theorem execEthTransmit_kept {s0 : State} {p : ℕ} {t : ℕ} {s : State} (h_s : Kept s0 s) :
    KeptNext s0 (execEthTransmit p t s) := by
  unfold execEthTransmit
  exact (KeptNext.next (ethTransmit_kept h_s))

theorem State_meter_kept {s0 : State} {s : State} {p : ℕ} {k : ℕ} {bits : ℕ} (h_s : Kept s0 s) :
    Kept s0 (State.meter s p k bits).1 := by
  unfold State.meter
  extract_lets -merge -useContext +onlyGivenNames y40
  refine Kept1.ite' (fun _ => ?_) (fun _ => ?_)
  · exact h_s
  · extract_lets -merge -useContext +onlyGivenNames y81
    extract_lets -merge -useContext +onlyGivenNames y122
    extract_lets -merge -useContext +onlyGivenNames y163
    extract_lets -merge -useContext +onlyGivenNames y204
    extract_lets -merge -useContext +onlyGivenNames y245
    exact (State_setPort_kept h_s)

theorem State_portDrop_kept {s0 : State} {s : State} {p : ℕ} (h_s : Kept s0 s) :
    Kept s0 (State.portDrop s p) := by
  unfold State.portDrop
  exact (State_setF_kept h_s)

theorem State_rxFill_kept {s0 : State} {s : State} {p : ℕ} {m : ℕ} {f : List ℕ} (h_s : Kept s0 s) :
    Kept s0 (State.rxFill s p m f) := by
  unfold State.rxFill
  extract_lets -merge -useContext +onlyGivenNames y40
  extract_lets -merge -useContext +onlyGivenNames y81
  refine Kept.ite' (fun _ => ?_) (fun _ => ?_)
  · exact (State_irq_kept (State_portDrop_kept h_s))
  · extract_lets -merge -useContext +onlyGivenNames y122
    extract_lets -merge -useContext +onlyGivenNames y163
    extract_lets -merge -useContext +onlyGivenNames y204
    extract_lets -merge -useContext +onlyGivenNames y245
    extract_lets -merge -useContext +onlyGivenNames y286
    extract_lets -merge -useContext +onlyGivenNames y327
    have h328 : Kept s0 y327 := (Kept.ite (State_writeMem_kept h_s) h_s)
    extract_lets -merge -useContext +onlyGivenNames y369
    extract_lets -merge -useContext +onlyGivenNames y410
    exact (State_irq_kept (State_setGrpHead_kept (State_setGrpNext_kept (State_putEntry_kept h328))))

theorem State_setRxRing_kept {s0 : State} {s : State} {r : ℕ} {x : RxRing} (h_s : Kept s0 s) :
    Kept s0 (State.setRxRing s r x) := by
  unfold State.setRxRing
  exact (Kept.mk' h_s)

theorem State_rxWrite_kept {s0 : State} {s : State} {p : ℕ} {a : ℕ} {b : List ℕ} (h_s : Kept s0 s) :
    Kept s0 (State.rxWrite s p a b).1 := by
  unfold State.rxWrite
  extract_lets -merge -useContext +onlyGivenNames y40
  exact (Kept1.ite (State_writeMem_kept h_s) (State_refuseAccess_kept h_s))

theorem State_rxSpoil_kept {s0 : State} {s : State} {r : ℕ} {p : ℕ} (h_s : Kept s0 s) :
    Kept s0 (State.rxSpoil s r p) := by
  unfold State.rxSpoil
  extract_lets -merge -useContext +onlyGivenNames y40
  split
  · exact h_s
  · exact (State_setRxRing_kept (State_rxWrite_kept h_s))

theorem State_rxStore_kept {s0 : State} {s : State} {r : ℕ} {p : ℕ} {cap : ℕ} {body : List ℕ} (h_s : Kept s0 s) :
    Kept s0 (State.rxStore s r p cap body) := by
  unfold State.rxStore
  extract_lets -merge -useContext +onlyGivenNames y40
  refine Kept.ite' (fun _ => ?_) (fun _ => ?_)
  · exact h_s
  · extract_lets -merge -useContext +onlyGivenNames y81
    extract_lets -merge -useContext +onlyGivenNames y122
    have h123 : Kept s0 y122 := (Kept.ite h_s (State_rxSpoil_kept h_s))
    extract_lets -merge -useContext +onlyGivenNames y164
    split
    · extract_lets -merge -useContext +onlyGivenNames y209
      extract_lets -merge -useContext +onlyGivenNames y250
      extract_lets -merge -useContext +onlyGivenNames y291
      extract_lets -merge -useContext +onlyGivenNames y332
      extract_lets -merge -useContext +onlyGivenNames y373
      extract_lets -merge -useContext +onlyGivenNames y414
      have h415 : ∀ u418, Kept s0 u418 → Kept s0 (y414 u418) := (fun x416 h417 => (State_setRxRing_kept (State_rxSpoil_kept h417)))
      extract_lets -merge -useContext +onlyGivenNames y459
      have h460 : Kept s0 y459 := (State_setRxRing_kept h123)
      refine Kept.ite' (fun _ => ?_) (fun _ => ?_)
      · exact (h415 _ h460)
      · split
        · rename_i z461 e462
          have h463 : Kept s0 z461 := Kept1.ofEq e462 (State_rxWrite_kept h460)
          exact (h415 _ h463)
        · rename_i z464 e465
          have h466 : Kept s0 z464 := Kept1.ofEq e465 (State_rxWrite_kept h460)
          split
          · rename_i z467 e468
            have h469 : Kept s0 z467 := Kept1.ofEq e468 (State_rxWrite_kept h466)
            exact (h415 _ h469)
          · rename_i z470 e471
            have h472 : Kept s0 z470 := Kept1.ofEq e471 (State_rxWrite_kept h466)
            extract_lets -merge -useContext +onlyGivenNames y513
            extract_lets -merge -useContext +onlyGivenNames y554
            exact (Kept.ite (State_setRxRing_kept (State_rxWrite_kept h472)) (State_strmSample_kept (State_setRxRing_kept (State_rxWrite_kept h472))))

theorem State_rxStream_kept {s0 : State} {s : State} {r : ℕ} {p : ℕ} {f : List ℕ} (h_s : Kept s0 s) :
    Kept s0 (State.rxStream s r p f) := by
  unfold State.rxStream
  extract_lets -merge -useContext +onlyGivenNames y40
  extract_lets -merge -useContext +onlyGivenNames y81
  extract_lets -merge -useContext +onlyGivenNames y122
  refine Kept.ite' (fun _ => ?_) (fun _ => ?_)
  · exact h_s
  · refine Kept.ite' (fun _ => ?_) (fun _ => ?_)
    · exact (State_portDrop_kept h_s)
    · extract_lets -merge -useContext +onlyGivenNames y163
      extract_lets -merge -useContext +onlyGivenNames y204
      exact (State_rxStore_kept h_s)

theorem ethReceive_kept {s0 : State} {p : ℕ} {frame : List ℕ} {fcsOk : Bool} {t : ℕ} {s : State} (h_s : Kept s0 s) :
    Kept s0 (ethReceive p frame fcsOk t s) := by
  unfold ethReceive
  extract_lets -merge -useContext +onlyGivenNames y40
  have h41 : Kept s0 y40 := (State_at_kept h_s)
  extract_lets -merge -useContext +onlyGivenNames y82
  extract_lets -merge -useContext +onlyGivenNames y123
  refine Kept.ite' (fun _ => ?_) (fun _ => ?_)
  · exact h41
  · refine Kept.ite' (fun _ => ?_) (fun _ => ?_)
    · exact (State_portDrop_kept h41)
    · split
      · exact (State_rxFill_kept h41)
      · refine Kept.ite' (fun _ => ?_) (fun _ => ?_)
        · exact (State_portDrop_kept h41)
        · split
          · rename_i z128 e129
            have h130 : Kept s0 z128 := Kept1.ofEq e129 (State_meter_kept h41)
            exact (State_portDrop_kept h130)
          · rename_i z131 e132
            have h133 : Kept s0 z131 := Kept1.ofEq e132 (State_meter_kept h41)
            extract_lets -merge -useContext +onlyGivenNames y174
            exact (Kept.ite (State_rxStream_kept h133) (State_rxFill_kept h133))

theorem execEthReceive_kept {s0 : State} {p : ℕ} {frame : List ℕ} {fcsOk : Bool} {t : ℕ} {s : State} (h_s : Kept s0 s) :
    KeptNext s0 (execEthReceive p frame fcsOk t s) := by
  unfold execEthReceive
  exact (KeptNext.next (ethReceive_kept h_s))

theorem State_setSync_kept {s0 : State} {s : State} {p : ℕ} {v : ℕ} (h_s : Kept s0 s) :
    Kept s0 (State.setSync s p v) := by
  unfold State.setSync
  exact (Kept.ite h_s (State_irq_kept (State_setF_kept h_s)))

theorem gptpSync_kept {s0 : State} {p : ℕ} {time : ℕ} {t : ℕ} {s : State} (h_s : Kept s0 s) :
    Kept s0 (gptpSync p time t s) := by
  unfold gptpSync
  extract_lets -merge -useContext +onlyGivenNames y40
  have h41 : Kept s0 y40 := (State_at_kept h_s)
  exact (Kept.ite h41 (State_setSync_kept (State_setPort_kept h41)))

theorem execGptpSync_kept {s0 : State} {p : ℕ} {time : ℕ} {t : ℕ} {s : State} (h_s : Kept s0 s) :
    KeptNext s0 (execGptpSync p time t s) := by
  unfold execGptpSync
  exact (KeptNext.next (gptpSync_kept h_s))

theorem syncLoss_kept {s0 : State} {p : ℕ} {t : ℕ} {s : State} (h_s : Kept s0 s) :
    Kept s0 (syncLoss p t s) := by
  unfold syncLoss
  exact (State_setSync_kept (State_at_kept h_s))

theorem execSyncLoss_kept {s0 : State} {p : ℕ} {t : ℕ} {s : State} (h_s : Kept s0 s) :
    KeptNext s0 (execSyncLoss p t s) := by
  unfold execSyncLoss
  exact (KeptNext.next (syncLoss_kept h_s))

theorem ethLinkChange_kept {s0 : State} {p : ℕ} {up : Bool} {speed : ℕ} {t : ℕ} {s : State} (h_s : Kept s0 s) :
    Kept s0 (ethLinkChange p up speed t s) := by
  unfold ethLinkChange
  extract_lets -merge -useContext +onlyGivenNames y40
  have h41 : Kept s0 y40 := (State_at_kept h_s)
  extract_lets -merge -useContext +onlyGivenNames y82
  refine Kept.ite' (fun _ => ?_) (fun _ => ?_)
  · exact h41
  · extract_lets -merge -useContext +onlyGivenNames y123
    have h124 : Kept s0 y123 := (State_setF_kept (State_setF_kept h41))
    extract_lets -merge -useContext +onlyGivenNames i125
    extract_lets -merge -useContext +onlyGivenNames y165
    have h166 : Kept s0 y165 := (Kept.ite (State_setPort_kept h124) h124)
    exact (State_irq_kept (State_setSync_kept h166))

theorem execEthLinkChange_kept {s0 : State} {p : ℕ} {up : Bool} {speed : ℕ} {t : ℕ} {s : State} (h_s : Kept s0 s) :
    KeptNext s0 (execEthLinkChange p up speed t s) := by
  unfold execEthLinkChange
  exact (KeptNext.next (ethLinkChange_kept h_s))

theorem qbvCtlWrite_kept {s0 : State} {who : Who} {p : ℕ} {w : ℕ} {s : State} (h_s : Kept s0 s) :
    Kept s0 (qbvCtlWrite who p w s) := by
  unfold qbvCtlWrite
  extract_lets -merge -useContext +onlyGivenNames y40
  extract_lets -merge -useContext +onlyGivenNames y81
  refine Kept.ite' (fun _ => ?_) (fun _ => ?_)
  · exact h_s
  · refine Kept.ite' (fun _ => ?_) (fun _ => ?_)
    · exact (State_refuseAccess_kept h_s)
    · extract_lets -merge -useContext +onlyGivenNames y122
      have h123 : Kept s0 y122 := (State_loadF_kept h_s)
      exact (State_setF_kept h123)

theorem execQbvCtlWrite_kept {s0 : State} {who : Who} {p : ℕ} {w : ℕ} {s : State} (h_s : Kept s0 s) :
    KeptNext s0 (execQbvCtlWrite who p w s) := by
  unfold execQbvCtlWrite
  exact (KeptNext.next (qbvCtlWrite_kept h_s))

theorem qbvListInForce_kept {s0 : State} {p : ℕ} {t : ℕ} {s : State} (h_s : Kept s0 s) :
    Kept s0 (qbvListInForce p t s) := by
  unfold qbvListInForce
  extract_lets -merge -useContext +onlyGivenNames y40
  have h41 : Kept s0 y40 := (State_at_kept h_s)
  extract_lets -merge -useContext +onlyGivenNames y82
  extract_lets -merge -useContext +onlyGivenNames y123
  refine Kept.ite' (fun _ => ?_) (fun _ => ?_)
  · exact h41
  · extract_lets -merge -useContext +onlyGivenNames y164
    extract_lets -merge -useContext +onlyGivenNames y205
    extract_lets -merge -useContext +onlyGivenNames y246
    extract_lets -merge -useContext +onlyGivenNames i247
    extract_lets -merge -useContext +onlyGivenNames y287
    have h288 : Kept s0 y287 := (State_setPort_kept h41)
    exact (State_irq_kept (State_setF_kept h288))

theorem execQbvListInForce_kept {s0 : State} {p : ℕ} {t : ℕ} {s : State} (h_s : Kept s0 s) :
    KeptNext s0 (execQbvListInForce p t s) := by
  unfold execQbvListInForce
  exact (KeptNext.next (qbvListInForce_kept h_s))

theorem gateControlEntry_kept {s0 : State} {p : ℕ} {t : ℕ} {s : State} (h_s : Kept s0 s) :
    Kept s0 (gateControlEntry p t s) := by
  unfold gateControlEntry
  extract_lets -merge -useContext +onlyGivenNames y40
  have h41 : Kept s0 y40 := (State_at_kept h_s)
  extract_lets -merge -useContext +onlyGivenNames y82
  extract_lets -merge -useContext +onlyGivenNames y123
  refine Kept.ite' (fun _ => ?_) (fun _ => ?_)
  · exact h41
  · exact (Kept.ite (State_setPort_kept h41) (State_setPort_kept h41))

theorem execGateControlEntry_kept {s0 : State} {p : ℕ} {t : ℕ} {s : State} (h_s : Kept s0 s) :
    KeptNext s0 (execGateControlEntry p t s) := by
  unfold execGateControlEntry
  exact (KeptNext.next (gateControlEntry_kept h_s))

theorem canTransmit_kept {s0 : State} {c : ℕ} {t : ℕ} {s : State} (h_s : Kept s0 s) :
    Kept s0 (canTransmit c t s) := by
  unfold canTransmit
  extract_lets -merge -useContext +onlyGivenNames y40
  have h41 : Kept s0 y40 := (State_at_kept h_s)
  extract_lets -merge -useContext +onlyGivenNames y82
  extract_lets -merge -useContext +onlyGivenNames y123
  refine Kept.ite' (fun _ => ?_) (fun _ => ?_)
  · exact h41
  · extract_lets -merge -useContext +onlyGivenNames y164
    extract_lets -merge -useContext +onlyGivenNames y205
    extract_lets -merge -useContext +onlyGivenNames y246
    have h247 : Kept s0 y246 := (State_putEntry_kept h41)
    extract_lets -merge -useContext +onlyGivenNames i248
    extract_lets -merge -useContext +onlyGivenNames y288
    have h289 : Kept s0 y288 := (Kept.ite (State_setPort_kept h247) h247)
    exact (State_irq_kept (State_setGrpHead_kept (State_setGrpNext_kept h289)))

theorem execCanTransmit_kept {s0 : State} {c : ℕ} {t : ℕ} {s : State} (h_s : Kept s0 s) :
    KeptNext s0 (execCanTransmit c t s) := by
  unfold execCanTransmit
  exact (KeptNext.next (canTransmit_kept h_s))

theorem canReceive_kept {s0 : State} {c : ℕ} {id : ℕ} {ide : Bool} {brs : Bool} {data : List ℕ} {t : ℕ} {s : State} (h_s : Kept s0 s) :
    Kept s0 (canReceive c id ide brs data t s) := by
  unfold canReceive
  extract_lets -merge -useContext +onlyGivenNames y40
  have h41 : Kept s0 y40 := (State_at_kept h_s)
  extract_lets -merge -useContext +onlyGivenNames y82
  extract_lets -merge -useContext +onlyGivenNames y123
  extract_lets -merge -useContext +onlyGivenNames y164
  refine Kept.ite' (fun _ => ?_) (fun _ => ?_)
  · exact h41
  · refine Kept.ite' (fun _ => ?_) (fun _ => ?_)
    · exact (State_irq_kept h41)
    · extract_lets -merge -useContext +onlyGivenNames y205
      exact (State_irq_kept (State_setGrpHead_kept (State_setGrpNext_kept (State_putEntry_kept h41))))

theorem execCanReceive_kept {s0 : State} {c : ℕ} {id : ℕ} {ide : Bool} {brs : Bool} {data : List ℕ} {t : ℕ} {s : State} (h_s : Kept s0 s) :
    KeptNext s0 (execCanReceive c id ide brs data t s) := by
  unfold execCanReceive
  exact (KeptNext.next (canReceive_kept h_s))

theorem canBusOff_kept {s0 : State} {c : ℕ} {t : ℕ} {s : State} (h_s : Kept s0 s) :
    Kept s0 (canBusOff c t s) := by
  unfold canBusOff
  extract_lets -merge -useContext +onlyGivenNames y40
  have h41 : Kept s0 y40 := (State_at_kept h_s)
  exact (Kept.ite h41 (State_irq_kept (State_setF_kept h41)))

theorem execCanBusOff_kept {s0 : State} {c : ℕ} {t : ℕ} {s : State} (h_s : Kept s0 s) :
    KeptNext s0 (execCanBusOff c t s) := by
  unfold execCanBusOff
  exact (KeptNext.next (canBusOff_kept h_s))

theorem canErrorPassive_kept {s0 : State} {c : ℕ} {t : ℕ} {s : State} (h_s : Kept s0 s) :
    Kept s0 (canErrorPassive c t s) := by
  unfold canErrorPassive
  extract_lets -merge -useContext +onlyGivenNames y40
  have h41 : Kept s0 y40 := (State_at_kept h_s)
  exact (Kept.ite h41 (State_irq_kept h41))

theorem execCanErrorPassive_kept {s0 : State} {c : ℕ} {t : ℕ} {s : State} (h_s : Kept s0 s) :
    KeptNext s0 (execCanErrorPassive c t s) := by
  unfold execCanErrorPassive
  exact (KeptNext.next (canErrorPassive_kept h_s))

theorem State_setOdo_kept {s0 : State} {s : State} {b : Bool} {x : OdoRt} (h_s : Kept s0 s) :
    Kept s0 (State.setOdo s b x) := by
  unfold State.setOdo
  exact (Kept.mk' h_s)

theorem odometryFrame_kept {s0 : State} {b : Bool} {bytes : List ℕ} {t : ℕ} {s : State} (h_s : Kept s0 s) :
    Kept s0 (odometryFrame b bytes t s) := by
  unfold odometryFrame
  extract_lets -merge -useContext +onlyGivenNames y40
  have h41 : Kept s0 y40 := (State_at_kept h_s)
  extract_lets -merge -useContext +onlyGivenNames y82
  extract_lets -merge -useContext +onlyGivenNames y123
  extract_lets -merge -useContext +onlyGivenNames y164
  extract_lets -merge -useContext +onlyGivenNames y205
  refine Kept.ite' (fun _ => ?_) (fun _ => ?_)
  · exact h41
  · refine Kept.ite' (fun _ => ?_) (fun _ => ?_)
    · exact (State_setOdo_kept h41)
    · extract_lets -merge -useContext +onlyGivenNames y246
      exact (State_setOdo_kept h41)

theorem execOdometryFrame_kept {s0 : State} {b : Bool} {bytes : List ℕ} {t : ℕ} {s : State} (h_s : Kept s0 s) :
    KeptNext s0 (execOdometryFrame b bytes t s) := by
  unfold execOdometryFrame
  exact (KeptNext.next (odometryFrame_kept h_s))

theorem odometryStale_kept {s0 : State} {b : Bool} {t : ℕ} {s : State} (h_s : Kept s0 s) :
    Kept s0 (odometryStale b t s) := by
  unfold odometryStale
  extract_lets -merge -useContext +onlyGivenNames y40
  have h41 : Kept s0 y40 := (State_at_kept h_s)
  extract_lets -merge -useContext +onlyGivenNames y82
  refine Kept.ite' (fun _ => ?_) (fun _ => ?_)
  · extract_lets -merge -useContext +onlyGivenNames y123
    have h124 : Kept s0 y123 := (State_setOdo_kept h41)
    exact (Kept.ite h124 (State_setF_kept h124))
  · exact h41

theorem execOdometryStale_kept {s0 : State} {b : Bool} {t : ℕ} {s : State} (h_s : Kept s0 s) :
    KeptNext s0 (execOdometryStale b t s) := by
  unfold execOdometryStale
  exact (KeptNext.next (odometryStale_kept h_s))

theorem pcieLinkChange_kept {s0 : State} {up : Bool} {gen : ℕ} {width : ℕ} {t : ℕ} {s : State} (h_s : Kept s0 s) :
    Kept s0 (pcieLinkChange up gen width t s) := by
  unfold pcieLinkChange
  extract_lets -merge -useContext +onlyGivenNames y40
  have h41 : Kept s0 y40 := (State_at_kept h_s)
  refine Kept.ite' (fun _ => ?_) (fun _ => ?_)
  · exact h41
  · extract_lets -merge -useContext +onlyGivenNames y82
    have h83 : Kept s0 y82 := (State_setF_kept (State_setF_kept h41))
    exact (State_irq_kept (State_setF_kept h83))

theorem execPcieLinkChange_kept {s0 : State} {up : Bool} {gen : ℕ} {width : ℕ} {t : ℕ} {s : State} (h_s : Kept s0 s) :
    KeptNext s0 (execPcieLinkChange up gen width t s) := by
  unfold execPcieLinkChange
  exact (KeptNext.next (pcieLinkChange_kept h_s))

theorem pcieCfgaGo_kept {s0 : State} {who : Who} {w : ℕ} {resp : ℕ} {s : State} (h_s : Kept s0 s) :
    Kept s0 (pcieCfgaGo who w resp s) := by
  unfold pcieCfgaGo
  refine Kept.ite' (fun _ => ?_) (fun _ => ?_)
  · exact (State_refuseAccess_kept h_s)
  · extract_lets -merge -useContext +onlyGivenNames y40
    have h41 : Kept s0 y40 := (State_loadF_kept h_s)
    refine Kept.ite' (fun _ => ?_) (fun _ => ?_)
    · exact h41
    · extract_lets -merge -useContext +onlyGivenNames y82
      extract_lets -merge -useContext +onlyGivenNames i83
      extract_lets -merge -useContext +onlyGivenNames y123
      have h124 : Kept s0 y123 := (Kept.ite (State_setF_kept h41) (State_setPort_kept h41))
      exact (State_irq_kept (State_setF_kept h124))

theorem execPcieCfgaGo_kept {s0 : State} {who : Who} {w : ℕ} {resp : ℕ} {s : State} (h_s : Kept s0 s) :
    KeptNext s0 (execPcieCfgaGo who w resp s) := by
  unfold execPcieCfgaGo
  exact (KeptNext.next (pcieCfgaGo_kept h_s))

theorem apertureAccess_kept {s0 : State} {who : Who} {off : ℕ} {wr : Bool} {bytes : List ℕ} {s : State} (h_s : Kept s0 s) :
    Kept s0 (apertureAccess who off wr bytes s) := by
  unfold apertureAccess
  extract_lets -merge -useContext +onlyGivenNames y40
  exact (Kept.ite (State_refuseAccess_kept h_s) (State_setPort_kept h_s))

theorem execApertureAccess_kept {s0 : State} {who : Who} {off : ℕ} {wr : Bool} {bytes : List ℕ} {s : State} (h_s : Kept s0 s) :
    KeptNext s0 (execApertureAccess who off wr bytes s) := by
  unfold execApertureAccess
  exact (KeptNext.next (apertureAccess_kept h_s))

theorem State_setComb_kept {s0 : State} {s : State} {h' : ℕ} {x : Comb} (h_s : Kept s0 s) :
    Kept s0 (State.setComb s h' x) := by
  unfold State.setComb
  exact (Kept.mk' h_s)

theorem State_combEmpty_kept {s0 : State} {s : State} {h' : ℕ} (h_s : Kept s0 s) :
    Kept s0 (State.combEmpty s h') := by
  unfold State.combEmpty
  extract_lets -merge -useContext +onlyGivenNames y40
  exact (Kept.foldl (State_setComb_kept h_s) (fun x41 x43 h42 => (by
    split
    · exact (swTailWrite_kept h42))))

theorem combineBufferEmit_kept {s0 : State} {h' : ℕ} {out : Bool} {q : ℕ} {off : ℕ} {v : ℕ} {s : State} (h_s : Kept s0 s) :
    Kept s0 (combineBufferEmit h' out q off v s) := by
  unfold combineBufferEmit
  refine Kept.ite' (fun _ => ?_) (fun _ => ?_)
  · exact h_s
  · refine Kept.ite' (fun _ => ?_) (fun _ => ?_)
    · exact (State_combEmpty_kept h_s)
    · refine Kept.ite' (fun _ => ?_) (fun _ => ?_)
      · exact h_s
      · extract_lets -merge -useContext +onlyGivenNames y40
        have h41 : Kept s0 y40 := (Kept.ite h_s (State_combEmpty_kept h_s))
        extract_lets -merge -useContext +onlyGivenNames y82
        extract_lets -merge -useContext +onlyGivenNames y123
        exact (Kept.ite (State_setComb_kept h41) (pushCmd_kept (State_setComb_kept h41)))

theorem execCombineBufferEmit_kept {s0 : State} {h' : ℕ} {out : Bool} {q : ℕ} {off : ℕ} {v : ℕ} {s : State} (h_s : Kept s0 s) :
    KeptNext s0 (execCombineBufferEmit h' out q off v s) := by
  unfold execCombineBufferEmit
  exact (KeptNext.next (combineBufferEmit_kept h_s))

theorem State_timerLevel_kept {s0 : State} {s : State} {h' : ℕ} (h_s : Kept s0 s) :
    Kept s0 (State.timerLevel s h') := by
  unfold State.timerLevel
  extract_lets -merge -useContext +onlyGivenNames y40
  exact (Kept.mk' h_s)

theorem machineTimerCompare_kept {s0 : State} {h' : ℕ} {t : ℕ} {s : State} (h_s : Kept s0 s) :
    Kept s0 (machineTimerCompare h' t s) := by
  unfold machineTimerCompare
  extract_lets -merge -useContext +onlyGivenNames y40
  have h41 : Kept s0 y40 := (State_at_kept h_s)
  exact (Kept.ite (State_timerLevel_kept h41) h41)

theorem execMachineTimerCompare_kept {s0 : State} {h' : ℕ} {t : ℕ} {s : State} (h_s : Kept s0 s) :
    KeptNext s0 (execMachineTimerCompare h' t s) := by
  unfold execMachineTimerCompare
  exact (KeptNext.next (machineTimerCompare_kept h_s))

theorem State_clearFiles_kept {s0 : State} {s : State} {h' : ℕ} (h_s : Kept s0 s) :
    Kept s0 (State.clearFiles s h') := by
  unfold State.clearFiles
  exact (Kept.mk' h_s)

theorem lockCmd_kept {s0 : State} {p : ℕ} {hart : ℕ} {m : Bool} {parked : Bool} {s : State} (h_s : Kept s0 s) :
    Kept s0 (lockCmd p hart m parked s) := by
  unfold lockCmd
  refine Kept.ite' (fun _ => ?_) (fun _ => ?_)
  · exact h_s
  · extract_lets -merge -useContext +onlyGivenNames y40
    split
    · exact (State_setF_kept h_s)
    · refine Kept.ite' (fun _ => ?_) (fun _ => ?_)
      · exact (State_setF_kept h_s)
      · refine Kept.ite' (fun _ => ?_) (fun _ => ?_)
        · exact (State_setF_kept h_s)
        · extract_lets -merge -useContext +onlyGivenNames y85
          have h86 : Kept s0 y85 := (State_setComb_kept (State_clearFiles_kept h_s))
          extract_lets -merge -useContext +onlyGivenNames i87
          extract_lets -merge -useContext +onlyGivenNames y127
          have h128 : Kept s0 y127 := (Kept.mk' h86)
          exact (State_setF_kept (State_setF_kept h128))

theorem execLock_kept {s0 : State} {p : ℕ} {hart : ℕ} {m : Bool} {parked : Bool} {s : State} (h_s : Kept s0 s) :
    KeptNext s0 (execLock p hart m parked s) := by
  unfold execLock
  exact (KeptNext.next (lockCmd_kept h_s))

theorem apSplit_kept {s0 : State} {p : ℕ} {hart : ℕ} {m : Bool} {s : State} (h_s : Kept s0 s) :
    Kept s0 (apSplit p hart m s) := by
  unfold apSplit
  refine Kept.ite' (fun _ => ?_) (fun _ => ?_)
  · exact h_s
  · extract_lets -merge -useContext +onlyGivenNames y40
    split
    · exact (State_setF_kept h_s)
    · refine Kept.ite' (fun _ => ?_) (fun _ => ?_)
      · exact (State_setF_kept h_s)
      · refine Kept.ite' (fun _ => ?_) (fun _ => ?_)
        · exact (State_setF_kept h_s)
        · extract_lets -merge -useContext +onlyGivenNames y85
          extract_lets -merge -useContext +onlyGivenNames i86
          extract_lets -merge -useContext +onlyGivenNames y126
          have h127 : Kept s0 y126 := (Kept.mk' h_s)
          exact (State_timerLevel_kept (State_setF_kept (State_setF_kept h127)))

theorem execApSplit_kept {s0 : State} {p : ℕ} {hart : ℕ} {m : Bool} {s : State} (h_s : Kept s0 s) :
    KeptNext s0 (execApSplit p hart m s) := by
  unfold execApSplit
  exact (KeptNext.next (apSplit_kept h_s))

theorem lockstepMismatch_kept {s0 : State} {p : ℕ} {s : State} (h_s : Kept s0 s) :
    Kept s0 (lockstepMismatch p s) := by
  unfold lockstepMismatch
  refine Kept.ite' (fun _ => ?_) (fun _ => ?_)
  · exact h_s
  · extract_lets -merge -useContext +onlyGivenNames i0
    extract_lets -merge -useContext +onlyGivenNames y40
    have h41 : Kept s0 y40 := (Kept.mk' h_s)
    extract_lets -merge -useContext +onlyGivenNames y82
    have h83 : Kept s0 y82 := (State_binFailure_kept (State_wire_kept (State_setF_kept h41)))
    split
    · exact (State_memberLost_kept h83)
    · exact h83

theorem execLockstepMismatch_kept {s0 : State} {p : ℕ} {s : State} (h_s : Kept s0 s) :
    KeptNext s0 (execLockstepMismatch p s) := by
  unfold execLockstepMismatch
  exact (KeptNext.next (lockstepMismatch_kept h_s))

theorem rigStep_kept {s0 : State} {who : Who} {w : ℕ} {t : ℕ} {s : State} (h_s : Kept s0 s) :
    Kept s0 (rigStep who w t s) := by
  unfold rigStep
  extract_lets -merge -useContext +onlyGivenNames y40
  have h41 : Kept s0 y40 := (State_at_kept h_s)
  refine Kept.ite' (fun _ => ?_) (fun _ => ?_)
  · exact (State_refuseAccess_kept h41)
  · exact (Kept.ite (State_stepTrig_kept h41) h41)

theorem execRigStep_kept {s0 : State} {who : Who} {w : ℕ} {t : ℕ} {s : State} (h_s : Kept s0 s) :
    KeptNext s0 (execRigStep who w t s) := by
  unfold execRigStep
  exact (KeptNext.next (rigStep_kept h_s))

theorem State_injEnd_kept {s0 : State} {s : State} {k : ℕ} (h_s : Kept s0 s) :
    Kept s0 (State.injEnd s k) := by
  unfold State.injEnd
  exact (State_setF_kept (State_setF_kept h_s))

theorem State_injCam_kept {s0 : State} {s : State} {n : ℕ} (h_s : Kept s0 s) :
    Kept s0 (State.injCam s n) := by
  unfold State.injCam
  refine Kept.ite' (fun _ => ?_) (fun _ => ?_)
  · exact (State_injEnd_kept h_s)
  · extract_lets -merge -useContext +onlyGivenNames y40
    extract_lets -merge -useContext +onlyGivenNames y81
    extract_lets -merge -useContext +onlyGivenNames y122
    refine Kept.ite' (fun _ => ?_) (fun _ => ?_)
    · exact (State_injEnd_kept h_s)
    · refine Kept.ite' (fun _ => ?_) (fun _ => ?_)
      · exact (State_injEnd_kept h_s)
      · split
        · rename_i z123 e124
          have h125 : Kept s0 z123 := Kept1.ofEq e124 (State_camWrite_kept h_s)
          exact (State_injEnd_kept h125)
        · rename_i z126 e127
          have h128 : Kept s0 z126 := Kept1.ofEq e127 (State_camWrite_kept h_s)
          extract_lets -merge -useContext +onlyGivenNames y169
          have h170 : Kept s0 y169 := (State_setF_kept (State_setF_kept h128))
          extract_lets -merge -useContext +onlyGivenNames y211
          have h212 : Kept s0 y211 := (State_setCam_kept h170)
          exact (State_injEnd_kept (State_imgSeen_kept h212))

theorem State_injRing_kept {s0 : State} {s : State} {r : ℕ} (h_s : Kept s0 s) :
    Kept s0 (State.injRing s r) := by
  unfold State.injRing
  refine Kept.ite' (fun _ => ?_) (fun _ => ?_)
  · exact (State_injEnd_kept h_s)
  · extract_lets -merge -useContext +onlyGivenNames y40
    extract_lets -merge -useContext +onlyGivenNames y81
    extract_lets -merge -useContext +onlyGivenNames y122
    extract_lets -merge -useContext +onlyGivenNames y163
    refine Kept.ite' (fun _ => ?_) (fun _ => ?_)
    · exact (State_injEnd_kept h_s)
    · split
      · rename_i z164 e165
        have h166 : Kept s0 z164 := Kept1.ofEq e165 (State_rxWrite_kept h_s)
        exact (State_injEnd_kept h166)
      · rename_i z167 e168
        have h169 : Kept s0 z167 := Kept1.ofEq e168 (State_rxWrite_kept h_s)
        extract_lets -merge -useContext +onlyGivenNames y210
        have h211 : Kept s0 y210 := (State_setRxRing_kept h169)
        exact (State_injEnd_kept (State_strmSample_kept h211))

theorem rigInj_kept {s0 : State} {who : Who} {w : ℕ} {t : ℕ} {s : State} (h_s : Kept s0 s) :
    Kept s0 (rigInj who w t s) := by
  unfold rigInj
  extract_lets -merge -useContext +onlyGivenNames y40
  have h41 : Kept s0 y40 := (State_at_kept h_s)
  refine Kept.ite' (fun _ => ?_) (fun _ => ?_)
  · exact h41
  · refine Kept.ite' (fun _ => ?_) (fun _ => ?_)
    · exact (Kept.ite (State_injEnd_kept h41) (State_refuseAccess_kept h41))
    · extract_lets -merge -useContext +onlyGivenNames y82
      have h83 : Kept s0 y82 := (State_loadF_kept h41)
      refine Kept.ite' (fun _ => ?_) (fun _ => ?_)
      · exact h83
      · exact (Kept.ite (State_injCam_kept h83) (State_injRing_kept h83))

theorem execRigInj_kept {s0 : State} {who : Who} {w : ℕ} {t : ℕ} {s : State} (h_s : Kept s0 s) :
    KeptNext s0 (execRigInj who w t s) := by
  unfold execRigInj
  exact (KeptNext.next (rigInj_kept h_s))

end Sys2Proof.Machine
end

