-- ==== Sys2Proof/Laws/KeptIslands.lean ====
section
/-! SUPPORT. `Kept` for the operations of planning, records and supervision: one lemma for each. -/

namespace Sys2Proof.Machine

theorem State_setIslPlan_kept {s0 : State} {s : State} {b : Bool} {x : IslPlan} (h_s : Kept s0 s) :
    Kept s0 (State.setIslPlan s b x) := by
  unfold State.setIslPlan
  exact (Kept.mk' h_s)

theorem State_popSelections_kept {s0 : State} {s : State} (h_s : Kept s0 s) :
    Kept s0 (State.popSelections s) := by
  unfold State.popSelections
  exact (Kept.foldl h_s (fun x0 x2 h1 => (by
    extract_lets -merge -useContext +onlyGivenNames y43
    exact (State_setF_kept (State_setF_kept h1)))))

theorem State_prepare_kept {s0 : State} {s : State} {b : Bool} {msg : Option (List ℕ)} (h_s : Kept s0 s) :
    Kept s0 (State.prepare s b msg).1 := by
  unfold State.prepare
  extract_lets -merge -useContext +onlyGivenNames y40
  extract_lets -merge -useContext +onlyGivenNames y81
  exact (State_setIslPlan_kept h_s)

theorem State_dropDrydown_kept {s0 : State} {s : State} (h_s : Kept s0 s) :
    Kept s0 (State.dropDrydown s) := by
  unfold State.dropDrydown
  exact (Kept.ite h_s (Kept.mk' h_s))

theorem finalCheck_kept {s0 : State} {t : ℕ} {s : State} (h_s : Kept s0 s) :
    Kept s0 (finalCheck t s) := by
  unfold finalCheck
  extract_lets -merge -useContext +onlyGivenNames y40
  have h41 : Kept s0 y40 := (State_at_kept h_s)
  extract_lets -merge -useContext +onlyGivenNames y82
  extract_lets -merge -useContext +onlyGivenNames y123
  have h124 : Kept s0 y123 := (Kept.ite (State_prepare_kept h41) h41)
  refine Kept.ite' (fun _ => ?_) (fun _ => ?_)
  · extract_lets -merge -useContext +onlyGivenNames y165
    extract_lets -merge -useContext +onlyGivenNames y206
    split
    · rename_i z207 z208 e209
      have h210 : Kept s0 z207 := Kept1.ofEq e209 (State_prepare_kept h124)
      extract_lets -merge -useContext +onlyGivenNames y251
      have h252 : Kept s0 y251 := (Kept.foldl (State_popSelections_kept h210) (fun x253 x255 h254 => (State_event_kept h254)))
      extract_lets -merge -useContext +onlyGivenNames y296
      have h297 : Kept s0 y296 := (by
        unfold y296
        clear_value y206
        split
        · exact (Kept.ite (State_event_kept h252) h252)
        · exact h252)
      extract_lets -merge -useContext +onlyGivenNames y340
      have h341 : Kept s0 y340 := (State_slotPassed_kept h297)
      exact (State_dropDrydown_kept (Kept.mk' h341))
  · exact (State_dropDrydown_kept h124)

theorem execFinalCheck_kept {s0 : State} {t : ℕ} {s : State} (h_s : Kept s0 s) :
    KeptNext s0 (execFinalCheck t s) := by
  unfold execFinalCheck
  exact (KeptNext.next (finalCheck_kept h_s))

theorem State_takeBases_kept {s0 : State} {s : State} {pose : List ℕ} (h_s : Kept s0 s) :
    Kept s0 (State.takeBases s pose) := by
  unfold State.takeBases
  exact (Kept.foldl h_s (fun x0 x2 h1 => (by
    extract_lets -merge -useContext +onlyGivenNames y43
    extract_lets -merge -useContext +onlyGivenNames y84
    extract_lets -merge -useContext +onlyGivenNames y125
    extract_lets -merge -useContext +onlyGivenNames y166
    have h167 : Kept s0 y166 := (State_setF_kept (State_setF_kept h1))
    exact (Kept.foldl h167 (fun x168 x170 h169 => (Kept.ite (Kept.mk' h169) h169))))))

theorem State_takeDrydown_kept {s0 : State} {s : State} {b : Bool} (h_s : Kept s0 s) :
    Kept s0 (State.takeDrydown s b) := by
  unfold State.takeDrydown
  extract_lets -merge -useContext +onlyGivenNames y40
  split
  · exact h_s
  · split
    · exact (State_setIslPlan_kept h_s)

theorem drydownCompute_kept {s0 : State} {t : ℕ} {s : State} (h_s : Kept s0 s) :
    Kept s0 (drydownCompute t s) := by
  unfold drydownCompute
  extract_lets -merge -useContext +onlyGivenNames y40
  have h41 : Kept s0 y40 := (State_at_kept h_s)
  refine Kept.ite' (fun _ => ?_) (fun _ => ?_)
  · exact h41
  · extract_lets -merge -useContext +onlyGivenNames y82
    extract_lets -merge -useContext +onlyGivenNames y123
    extract_lets -merge -useContext +onlyGivenNames y164
    extract_lets -merge -useContext +onlyGivenNames y205
    have h206 : Kept s0 y205 := (State_takeBases_kept h41)
    extract_lets -merge -useContext +onlyGivenNames y247
    extract_lets -merge -useContext +onlyGivenNames y288
    extract_lets -merge -useContext +onlyGivenNames y329
    extract_lets -merge -useContext +onlyGivenNames y370
    extract_lets -merge -useContext +onlyGivenNames i371
    extract_lets -merge -useContext +onlyGivenNames i372
    extract_lets -merge -useContext +onlyGivenNames i373
    extract_lets -merge -useContext +onlyGivenNames y411
    extract_lets -merge -useContext +onlyGivenNames y452
    have h453 : Kept s0 y452 := (State_setIslPlan_kept h206)
    extract_lets -merge -useContext +onlyGivenNames i454
    extract_lets -merge -useContext +onlyGivenNames y494
    have h495 : Kept s0 y494 := (Kept.mk' h453)
    exact (Kept.ite (State_dropDrydown_kept (State_takeDrydown_kept (State_takeDrydown_kept h495))) h495)

theorem execDrydownCompute_kept {s0 : State} {t : ℕ} {s : State} (h_s : Kept s0 s) :
    KeptNext s0 (execDrydownCompute t s) := by
  unfold execDrydownCompute
  exact (KeptNext.next (drydownCompute_kept h_s))

theorem State_recordExtremes_kept {s0 : State} {s : State} {b : Bool} {r : Record} (h_s : Kept s0 s) :
    Kept s0 (State.recordExtremes s b r) := by
  unfold State.recordExtremes
  extract_lets -merge -useContext +onlyGivenNames y40
  extract_lets -merge -useContext +onlyGivenNames y81
  have h82 : Kept s0 y81 := (Kept.ite (State_extreme_kept h_s) h_s)
  exact (State_extreme_kept h82)

theorem State_recordLeft_kept {s0 : State} {s : State} {b : Bool} {r : Record} (h_s : Kept s0 s) :
    Kept s0 (State.recordLeft s b r) := by
  unfold State.recordLeft
  extract_lets -merge -useContext +onlyGivenNames y40
  extract_lets -merge -useContext +onlyGivenNames y81
  have h82 : Kept s0 y81 := (State_recordExtremes_kept h_s)
  extract_lets -merge -useContext +onlyGivenNames y123
  have h124 : Kept s0 y123 := (State_setIslPlan_kept h82)
  extract_lets -merge -useContext +onlyGivenNames y165
  extract_lets -merge -useContext +onlyGivenNames i166
  extract_lets -merge -useContext +onlyGivenNames y206
  have h207 : Kept s0 y206 := (State_setPort_kept h124)
  extract_lets -merge -useContext +onlyGivenNames i208
  extract_lets -merge -useContext +onlyGivenNames y248
  have h249 : Kept s0 y248 := (Kept.ite (Kept.mk' h207) h207)
  exact (Kept.mk' h249)

theorem State_sendRecord_kept {s0 : State} {s : State} {b : Bool} {takeover : Bool} (h_s : Kept s0 s) :
    Kept s0 (State.sendRecord s b takeover).1 := by
  unfold State.sendRecord
  extract_lets -merge -useContext +onlyGivenNames y40
  split
  · exact h_s
  · refine Kept1.ite' (fun _ => ?_) (fun _ => ?_)
    · exact (State_event_kept (State_setIslPlan_kept h_s))
    · extract_lets -merge -useContext +onlyGivenNames y85
      have h86 : Kept s0 y85 := (State_setF_kept (State_setF_kept (State_setF_kept h_s)))
      extract_lets -merge -useContext +onlyGivenNames y127
      have h128 : Kept s0 y127 := (Kept.ite (State_endSafe_kept h86) h86)
      exact (State_recordLeft_kept h128)

theorem State_reopenMailbox_kept {s0 : State} {s : State} (h_s : Kept s0 s) :
    Kept s0 (State.reopenMailbox s) := by
  unfold State.reopenMailbox
  exact (Kept.foldl h_s (fun x0 x2 h1 => (Kept.ite (State_winRound_kept h1) h1)))

theorem recordEmit_kept {s0 : State} {t : ℕ} {s : State} (h_s : Kept s0 s) :
    Kept s0 (recordEmit t s) := by
  unfold recordEmit
  extract_lets -merge -useContext +onlyGivenNames y40
  have h41 : Kept s0 y40 := (State_at_kept h_s)
  exact (Kept.ite (State_reopenMailbox_kept (State_sendRecord_kept h41)) h41)

theorem execRecordEmit_kept {s0 : State} {t : ℕ} {s : State} (h_s : Kept s0 s) :
    KeptNext s0 (execRecordEmit t s) := by
  unfold execRecordEmit
  exact (KeptNext.next (recordEmit_kept h_s))

theorem handoverTimeout_kept {s0 : State} {t : ℕ} {s : State} (h_s : Kept s0 s) :
    Kept s0 (handoverTimeout t s) := by
  unfold handoverTimeout
  extract_lets -merge -useContext +onlyGivenNames y40
  have h41 : Kept s0 y40 := (State_at_kept h_s)
  split
  · exact (Kept.ite (Kept.mk' h41) h41)
  · exact h41

theorem execHandoverTimeout_kept {s0 : State} {t : ℕ} {s : State} (h_s : Kept s0 s) :
    KeptNext s0 (execHandoverTimeout t s) := by
  unfold execHandoverTimeout
  exact (KeptNext.next (handoverTimeout_kept h_s))

theorem peerRecordReceive_kept {s0 : State} {b : Bool} {bytes : List ℕ} {t : ℕ} {s : State} (h_s : Kept s0 s) :
    Kept s0 (peerRecordReceive b bytes t s) := by
  unfold peerRecordReceive
  extract_lets -merge -useContext +onlyGivenNames y40
  have h41 : Kept s0 y40 := (State_at_kept h_s)
  extract_lets -merge -useContext +onlyGivenNames y82
  refine Kept.ite' (fun _ => ?_) (fun _ => ?_)
  · exact h41
  · extract_lets -merge -useContext +onlyGivenNames y123
    extract_lets -merge -useContext +onlyGivenNames y164
    exact (State_setIslPlan_kept h41)

theorem execPeerRecordReceive_kept {s0 : State} {b : Bool} {bytes : List ℕ} {t : ℕ} {s : State} (h_s : Kept s0 s) :
    KeptNext s0 (execPeerRecordReceive b bytes t s) := by
  unfold execPeerRecordReceive
  exact (KeptNext.next (peerRecordReceive_kept h_s))

theorem State_handOver_kept {s0 : State} {s : State} {b : Bool} {takeover : Bool} (h_s : Kept s0 s) :
    Kept s0 (State.handOver s b takeover) := by
  unfold State.handOver
  split
  · rename_i z0 e1
    have h2 : Kept s0 z0 := Kept1.ofEq e1 (State_sendRecord_kept h_s)
    exact h2
  · rename_i z3 e4
    have h5 : Kept s0 z3 := Kept1.ofEq e4 (State_sendRecord_kept h_s)
    extract_lets -merge -useContext +onlyGivenNames y46
    have h47 : Kept s0 y46 := (State_setCause_kept (State_event_kept (State_setF_kept h5)))
    exact (Kept.mk' h47)

theorem State_takeOver_kept {s0 : State} {s : State} {b : Bool} (h_s : Kept s0 s) :
    Kept s0 (State.takeOver s b) := by
  unfold State.takeOver
  extract_lets -merge -useContext +onlyGivenNames y40
  exact (Kept.ite (State_handOver_kept h_s) h_s)

theorem handoverDecision_kept {s0 : State} {t : ℕ} {s : State} (h_s : Kept s0 s) :
    Kept s0 (handoverDecision t s) := by
  unfold handoverDecision
  extract_lets -merge -useContext +onlyGivenNames y40
  have h41 : Kept s0 y40 := (State_at_kept h_s)
  extract_lets -merge -useContext +onlyGivenNames y82
  extract_lets -merge -useContext +onlyGivenNames y123
  extract_lets -merge -useContext +onlyGivenNames y164
  refine Kept.ite' (fun _ => ?_) (fun _ => ?_)
  · exact h41
  · refine Kept.ite' (fun _ => ?_) (fun _ => ?_)
    · exact (State_setIslPlan_kept h41)
    · refine Kept.ite' (fun _ => ?_) (fun _ => ?_)
      · exact (State_handOver_kept h41)
      · refine Kept.ite' (fun _ => ?_) (fun _ => ?_)
        · exact (Kept.ite (State_handOver_kept h41) (State_setIslPlan_kept h41))
        · exact h41

theorem execHandoverDecision_kept {s0 : State} {t : ℕ} {s : State} (h_s : Kept s0 s) :
    KeptNext s0 (execHandoverDecision t s) := by
  unfold execHandoverDecision
  exact (KeptNext.next (handoverDecision_kept h_s))

theorem lostMirrorCopy_kept {s0 : State} {t : ℕ} {s : State} (h_s : Kept s0 s) :
    Kept s0 (lostMirrorCopy t s) := by
  unfold lostMirrorCopy
  extract_lets -merge -useContext +onlyGivenNames y40
  have h41 : Kept s0 y40 := (State_at_kept h_s)
  extract_lets -merge -useContext +onlyGivenNames y82
  extract_lets -merge -useContext +onlyGivenNames y123
  refine Kept.ite' (fun _ => ?_) (fun _ => ?_)
  · extract_lets -merge -useContext +onlyGivenNames y164
    have h165 : Kept s0 y164 := (State_setIslPlan_kept h41)
    refine Kept.ite' (fun _ => ?_) (fun _ => ?_)
    · exact h165
    · exact (Kept.ite (State_takeOver_kept h41) (State_event_kept h165))
  · exact h41

theorem execLostMirrorCopy_kept {s0 : State} {t : ℕ} {s : State} (h_s : Kept s0 s) :
    KeptNext s0 (execLostMirrorCopy t s) := by
  unfold execLostMirrorCopy
  exact (KeptNext.next (lostMirrorCopy_kept h_s))

theorem statusFrame_kept {s0 : State} {b : Bool} {t : ℕ} {s : State} (h_s : Kept s0 s) :
    Kept s0 (statusFrame b t s) := by
  unfold statusFrame
  extract_lets -merge -useContext +onlyGivenNames y40
  have h41 : Kept s0 y40 := (State_at_kept h_s)
  refine Kept.ite' (fun _ => ?_) (fun _ => ?_)
  · exact h41
  · extract_lets -merge -useContext +onlyGivenNames y82
    extract_lets -merge -useContext +onlyGivenNames i83
    extract_lets -merge -useContext +onlyGivenNames y123
    have h124 : Kept s0 y123 := (State_setPort_kept h41)
    exact (Kept.mk' h124)

theorem execStatusFrame_kept {s0 : State} {b : Bool} {t : ℕ} {s : State} (h_s : Kept s0 s) :
    KeptNext s0 (execStatusFrame b t s) := by
  unfold execStatusFrame
  exact (KeptNext.next (statusFrame_kept h_s))

theorem islandFrameRealign_kept {s0 : State} {b : Bool} {got : Bool} {t : ℕ} {s : State} (h_s : Kept s0 s) :
    Kept s0 (islandFrameRealign b got t s) := by
  unfold islandFrameRealign
  extract_lets -merge -useContext +onlyGivenNames y40
  have h41 : Kept s0 y40 := (State_at_kept h_s)
  extract_lets -merge -useContext +onlyGivenNames y82
  refine Kept.ite' (fun _ => ?_) (fun _ => ?_)
  · exact h41
  · refine Kept.ite' (fun _ => ?_) (fun _ => ?_)
    · extract_lets -merge -useContext +onlyGivenNames y123
      split
      · exact (Kept.ite (State_setIslPlan_kept h41) (State_setIslPlan_kept h41))
    · exact (Kept.ite h41 (State_setIslPlan_kept h41))

theorem execIslandFrameRealign_kept {s0 : State} {b : Bool} {got : Bool} {t : ℕ} {s : State} (h_s : Kept s0 s) :
    KeptNext s0 (execIslandFrameRealign b got t s) := by
  unfold execIslandFrameRealign
  exact (KeptNext.next (islandFrameRealign_kept h_s))

theorem State_serveBlotter_kept {s0 : State} {s : State} (h_s : Kept s0 s) :
    Kept s0 (State.serveBlotter s) := by
  unfold State.serveBlotter
  exact (State_setF_kept h_s)

theorem State_runGolden_kept {s0 : State} {s : State} {u : ℕ} {status : ℕ} (h_s : Kept s0 s) :
    Kept s0 (State.runGolden s u status).1 := by
  unfold State.runGolden
  extract_lets -merge -useContext +onlyGivenNames y40
  refine Kept1.ite' (fun _ => ?_) (fun _ => ?_)
  · extract_lets -merge -useContext +onlyGivenNames y81
    extract_lets -merge -useContext +onlyGivenNames y122
    extract_lets -merge -useContext +onlyGivenNames y163
    have h164 : Kept s0 y163 := (State_setF_kept h_s)
    extract_lets -merge -useContext +onlyGivenNames y205
    exact (State_serveBlotter_kept (State_postCpl_kept h164))
  · exact h_s

theorem State_golden_kept {s0 : State} {s : State} {u : ℕ} {k : ℕ} {ok : Bool} (h_s : Kept s0 s) :
    Kept s0 (State.golden s u k ok) := by
  unfold State.golden
  extract_lets -merge -useContext +onlyGivenNames i0
  extract_lets -merge -useContext +onlyGivenNames y40
  have h41 : Kept s0 y40 := (Kept.mk' h_s)
  extract_lets -merge -useContext +onlyGivenNames y82
  have h83 : Kept s0 y82 := (State_push_kept h41)
  split
  · rename_i z84 z85 e86
    have h87 : Kept s0 z85 := Kept2.ofEq e86 (State_fresh_kept h83)
    split
    · rename_i z88 z89 e90
      have h91 : Kept s0 z89 := Kept2.ofEq e90 (State_fresh_kept h87)
      split
      · rename_i z92 z93 e94
        have h95 : Kept s0 z92 := Kept1.ofEq e94 (State_runGolden_kept h91)
        extract_lets -merge -useContext +onlyGivenNames y136
        have h137 : Kept s0 y136 := (State_progress_kept h95)
        exact (Kept.ite h137 (State_binFailure_kept h137))

theorem State_fenceBits_kept {s0 : State} {s : State} {u : ℕ} {on : Bool} (h_s : Kept s0 s) :
    Kept s0 (State.fenceBits s u on) := by
  unfold State.fenceBits
  exact (Kept.foldl h_s (fun x0 x2 h1 => (Kept.mk' h1)))

theorem State_fenceUnit_kept {s0 : State} {s : State} {u : ℕ} (h_s : Kept s0 s) :
    Kept s0 (State.fenceUnit s u) := by
  unfold State.fenceUnit
  extract_lets -merge -useContext +onlyGivenNames i0
  extract_lets -merge -useContext +onlyGivenNames y40
  have h41 : Kept s0 y40 := (State_setUnit_kept h_s)
  extract_lets -merge -useContext +onlyGivenNames y82
  have h83 : Kept s0 y82 := (Kept.ite h41 (State_abandon_kept h41))
  refine Kept.ite' (fun _ => ?_) (fun _ => ?_)
  · exact (State_attnLeave_kept h83)
  · exact (Kept.ite (State_trkReset_kept h83) h83)

theorem State_fence_kept {s0 : State} {s : State} {u : ℕ} {cause : ℕ} (h_s : Kept s0 s) :
    Kept s0 (State.fence s u cause) := by
  unfold State.fence
  refine Kept.ite' (fun _ => ?_) (fun _ => ?_)
  · exact h_s
  · extract_lets -merge -useContext +onlyGivenNames y40
    have h41 : Kept s0 y40 := (State_setF_kept (State_setF_kept h_s))
    extract_lets -merge -useContext +onlyGivenNames y82
    have h83 : Kept s0 y82 := (State_setUnitState_kept h41)
    extract_lets -merge -useContext +onlyGivenNames y124
    have h125 : Kept s0 y124 := (State_fenceUnit_kept (State_fenceBits_kept h83))
    extract_lets -merge -useContext +onlyGivenNames y166
    have h167 : Kept s0 y166 := (Kept.foldl h125 (fun x168 x170 h169 => (Kept.ite (State_barBreak_kept h169) h169)))
    extract_lets -merge -useContext +onlyGivenNames y211
    have h212 : Kept s0 y211 := (State_dirChange_kept (State_setF_kept h167))
    exact (State_event_kept (State_capacityLost_kept h212))

theorem fenceCmd_kept {s0 : State} {who : Who} {u : ℕ} {s : State} (h_s : Kept s0 s) :
    Kept s0 (fenceCmd who u s) := by
  unfold fenceCmd
  refine Kept.ite' (fun _ => ?_) (fun _ => ?_)
  · exact h_s
  · exact (Kept.ite (State_refuseAccess_kept h_s) (State_fence_kept h_s))

theorem execFence_kept {s0 : State} {who : Who} {u : ℕ} {s : State} (h_s : Kept s0 s) :
    KeptNext s0 (execFence who u s) := by
  unfold execFence
  exact (KeptNext.next (fenceCmd_kept h_s))

theorem unitInternalFault_kept {s0 : State} {u : ℕ} {s : State} (h_s : Kept s0 s) :
    Kept s0 (unitInternalFault u s) := by
  unfold unitInternalFault
  exact (Kept.ite (State_fence_kept h_s) h_s)

theorem execUnitInternalFault_kept {s0 : State} {u : ℕ} {s : State} (h_s : Kept s0 s) :
    KeptNext s0 (execUnitInternalFault u s) := by
  unfold execUnitInternalFault
  exact (KeptNext.next (unitInternalFault_kept h_s))

theorem State_quarAll_kept {s0 : State} {s : State} {e : ℕ} (h_s : Kept s0 s) :
    Kept s0 (State.quarAll s e) := by
  unfold State.quarAll
  extract_lets -merge -useContext +onlyGivenNames y40
  exact (Kept.ite h_s (State_dirChange_kept (Kept.mk' h_s)))

theorem unitReinit_kept {s0 : State} {u : ℕ} {pass : Bool} {s : State} (h_s : Kept s0 s) :
    Kept s0 (unitReinit u pass s) := by
  unfold unitReinit
  refine Kept.ite' (fun _ => ?_) (fun _ => ?_)
  · exact h_s
  · extract_lets -merge -useContext +onlyGivenNames y40
    have h41 : Kept s0 y40 := (State_unitReset_kept h_s)
    exact (Kept.ite (Kept.mk' h41) (State_quarAll_kept h41))

theorem execUnitReinit_kept {s0 : State} {u : ℕ} {pass : Bool} {s : State} (h_s : Kept s0 s) :
    KeptNext s0 (execUnitReinit u pass s) := by
  unfold execUnitReinit
  exact (KeptNext.next (unitReinit_kept h_s))

theorem unfenceCmd_kept {s0 : State} {who : Who} {u : ℕ} {s : State} (h_s : Kept s0 s) :
    Kept s0 (unfenceCmd who u s) := by
  unfold unfenceCmd
  refine Kept.ite' (fun _ => ?_) (fun _ => ?_)
  · exact h_s
  · refine Kept.ite' (fun _ => ?_) (fun _ => ?_)
    · exact (State_refuseAccess_kept h_s)
    · refine Kept.ite' (fun _ => ?_) (fun _ => ?_)
      · exact h_s
      · extract_lets -merge -useContext +onlyGivenNames i0
        extract_lets -merge -useContext +onlyGivenNames y40
        have h41 : Kept s0 y40 := (Kept.mk' h_s)
        extract_lets -merge -useContext +onlyGivenNames y82
        have h83 : Kept s0 y82 := (State_setF_kept (State_setF_kept (State_setF_kept h41)))
        extract_lets -merge -useContext +onlyGivenNames y124
        have h125 : Kept s0 y124 := (State_dirChange_kept (State_fenceBits_kept h83))
        extract_lets -merge -useContext +onlyGivenNames y166
        have h167 : Kept s0 y166 := (Kept.ite (State_setUnitState_kept h125) h125)
        refine Kept.ite' (fun _ => ?_) (fun _ => ?_)
        · exact (State_attnReturn_kept h167)
        · exact (Kept.ite (State_trkReturn_kept h167) h167)

theorem execUnfence_kept {s0 : State} {who : Who} {u : ℕ} {s : State} (h_s : Kept s0 s) :
    KeptNext s0 (execUnfence who u s) := by
  unfold execUnfence
  exact (KeptNext.next (unfenceCmd_kept h_s))

theorem State_sampleUnit_kept {s0 : State} {s : State} {u : ℕ} (h_s : Kept s0 s) :
    Kept s0 (State.sampleUnit s u) := by
  unfold State.sampleUnit
  extract_lets -merge -useContext +onlyGivenNames y40
  extract_lets -merge -useContext +onlyGivenNames y81
  extract_lets -merge -useContext +onlyGivenNames y122
  extract_lets -merge -useContext +onlyGivenNames i123
  extract_lets -merge -useContext +onlyGivenNames y163
  have h164 : Kept s0 y163 := (Kept.mk' h_s)
  exact (Kept.ite (State_fence_kept h164) h164)

theorem failureDetectorSample_kept {s0 : State} {t : ℕ} {s : State} (h_s : Kept s0 s) :
    Kept s0 (failureDetectorSample t s) := by
  unfold failureDetectorSample
  extract_lets -merge -useContext +onlyGivenNames y40
  have h41 : Kept s0 y40 := (State_at_kept h_s)
  exact (Kept.ite (Kept.foldl h41 (fun x42 x44 h43 => (State_sampleUnit_kept h43))) h41)

theorem execFailureDetectorSample_kept {s0 : State} {t : ℕ} {s : State} (h_s : Kept s0 s) :
    KeptNext s0 (execFailureDetectorSample t s) := by
  unfold execFailureDetectorSample
  exact (KeptNext.next (failureDetectorSample_kept h_s))

theorem blotterEntry_kept {s0 : State} {u : ℕ} {t : ℕ} {ok : Bool} {s : State} (h_s : Kept s0 s) :
    Kept s0 (blotterEntry u t ok s) := by
  unfold blotterEntry
  extract_lets -merge -useContext +onlyGivenNames y40
  have h41 : Kept s0 y40 := (State_at_kept h_s)
  exact (Kept.ite (State_golden_kept h41) h41)

theorem execBlotterEntry_kept {s0 : State} {u : ℕ} {t : ℕ} {ok : Bool} {s : State} (h_s : Kept s0 s) :
    KeptNext s0 (execBlotterEntry u t ok s) := by
  unfold execBlotterEntry
  exact (KeptNext.next (blotterEntry_kept h_s))

theorem blotterExtra_kept {s0 : State} {u : ℕ} {t : ℕ} {ok : Bool} {s : State} (h_s : Kept s0 s) :
    Kept s0 (blotterExtra u t ok s) := by
  unfold blotterExtra
  extract_lets -merge -useContext +onlyGivenNames y40
  have h41 : Kept s0 y40 := (State_at_kept h_s)
  split
  · extract_lets -merge -useContext +onlyGivenNames y85
    exact (Kept.ite (State_golden_kept (Kept.mk' h41)) h41)

theorem execBlotterExtra_kept {s0 : State} {u : ℕ} {t : ℕ} {ok : Bool} {s : State} (h_s : Kept s0 s) :
    KeptNext s0 (execBlotterExtra u t ok s) := by
  unfold execBlotterExtra
  exact (KeptNext.next (blotterExtra_kept h_s))

theorem State_pairQuar_kept {s0 : State} {s : State} {p : ℕ} {on : Bool} (h_s : Kept s0 s) :
    Kept s0 (State.pairQuar s p on) := by
  unfold State.pairQuar
  extract_lets -merge -useContext +onlyGivenNames y40
  have h41 : Kept s0 y40 := (State_wire_kept (State_setF_kept h_s))
  refine Kept.ite' (fun _ => ?_) (fun _ => ?_)
  · exact h41
  · split
    · exact (State_setF_kept (State_memberLost_kept h41))
    · exact h41

theorem State_quarEdge_kept {s0 : State} {s : State} {e : ℕ} {on : Bool} (h_s : Kept s0 s) :
    Kept s0 (State.quarEdge s e on) := by
  unfold State.quarEdge
  refine Kept.ite' (fun _ => ?_) (fun _ => ?_)
  · exact (State_pairQuar_kept h_s)
  · extract_lets -merge -useContext +onlyGivenNames y40
    have h41 : Kept s0 y40 := (Kept.ite (Kept.ite (State_attnLeave_kept h_s) (State_attnReturn_kept h_s)) h_s)
    exact (Kept.ite (State_capacityLost_kept h41) h41)

theorem quarantineEvaluation_kept {s0 : State} {e : ℕ} {busy : ℕ} {total : ℕ} {t : ℕ} {s : State} (h_s : Kept s0 s) :
    Kept s0 (quarantineEvaluation e busy total t s) := by
  unfold quarantineEvaluation
  extract_lets -merge -useContext +onlyGivenNames y40
  have h41 : Kept s0 y40 := (State_at_kept h_s)
  refine Kept.ite' (fun _ => ?_) (fun _ => ?_)
  · exact h41
  · split
    · rename_i z42 z43 e44
      have h45 : Kept s0 z43 := Kept2.ofEq e44 (by
        split
        · exact h41
        · exact (State_fresh_kept h41))
      extract_lets -merge -useContext +onlyGivenNames y90
      extract_lets -merge -useContext +onlyGivenNames y131
      extract_lets -merge -useContext +onlyGivenNames y172
      extract_lets -merge -useContext +onlyGivenNames y213
      extract_lets -merge -useContext +onlyGivenNames y254
      extract_lets -merge -useContext +onlyGivenNames y295
      extract_lets -merge -useContext +onlyGivenNames y336
      have h337 : Kept s0 y336 := (Kept.mk' h45)
      refine Kept.ite' (fun _ => ?_) (fun _ => ?_)
      · exact (State_quarEdge_kept h337)
      · exact (Kept.ite (State_quarEdge_kept h337) h337)

theorem execQuarantineEvaluation_kept {s0 : State} {e : ℕ} {busy : ℕ} {total : ℕ} {t : ℕ} {s : State} (h_s : Kept s0 s) :
    KeptNext s0 (execQuarantineEvaluation e busy total t s) := by
  unfold execQuarantineEvaluation
  exact (KeptNext.next (quarantineEvaluation_kept h_s))

theorem quarSel_kept {s0 : State} {who : Who} {w : ℕ} {s : State} (h_s : Kept s0 s) :
    Kept s0 (quarSel who w s) := by
  unfold quarSel
  extract_lets -merge -useContext +onlyGivenNames y40
  refine Kept.ite' (fun _ => ?_) (fun _ => ?_)
  · exact (State_refuseAccess_kept h_s)
  · extract_lets -merge -useContext +onlyGivenNames y81
    extract_lets -merge -useContext +onlyGivenNames y122
    extract_lets -merge -useContext +onlyGivenNames y163
    have h164 : Kept s0 y163 := (State_setF_kept (State_setF_kept h_s))
    extract_lets -merge -useContext +onlyGivenNames y205
    have h206 : Kept s0 y205 := (State_setF_kept (State_setF_kept h164))
    exact (State_setF_kept (State_setF_kept h206))

theorem execQuarSel_kept {s0 : State} {who : Who} {w : ℕ} {s : State} (h_s : Kept s0 s) :
    KeptNext s0 (execQuarSel who w s) := by
  unfold execQuarSel
  exact (KeptNext.next (quarSel_kept h_s))

theorem State_setIsl_kept {s0 : State} {s : State} {b : Bool} {x : IslRt} (h_s : Kept s0 s) :
    Kept s0 (State.setIsl s b x) := by
  unfold State.setIsl
  exact (Kept.mk' h_s)

theorem State_setPin_kept {s0 : State} {s : State} {b : Bool} {on : Bool} (h_s : Kept s0 s) :
    Kept s0 (State.setPin s b on) := by
  unfold State.setPin
  exact (Kept.mk' h_s)

theorem State_dropNonces_kept {s0 : State} {s : State} (h_s : Kept s0 s) :
    Kept s0 (State.dropNonces s) := by
  unfold State.dropNonces
  extract_lets -merge -useContext +onlyGivenNames y40
  have h41 : Kept s0 y40 := (Kept.foldl h_s (fun x42 x44 h43 => (State_setF_kept h43)))
  exact (Kept.mk' h41)

theorem State_failIsland_kept {s0 : State} {s : State} {b : Bool} (h_s : Kept s0 s) :
    Kept s0 (State.failIsland s b) := by
  unfold State.failIsland
  refine Kept.ite' (fun _ => ?_) (fun _ => ?_)
  · exact h_s
  · extract_lets -merge -useContext +onlyGivenNames y40
    extract_lets -merge -useContext +onlyGivenNames y81
    have h82 : Kept s0 y81 := (State_setF_kept (State_setF_kept h_s))
    extract_lets -merge -useContext +onlyGivenNames y123
    have h124 : Kept s0 y123 := (State_setIsl_kept h82)
    extract_lets -merge -useContext +onlyGivenNames y165
    have h166 : Kept s0 y165 := (State_setCause_kept (State_event_kept (State_setPin_kept h124)))
    extract_lets -merge -useContext +onlyGivenNames i167
    extract_lets -merge -useContext +onlyGivenNames y207
    have h208 : Kept s0 y207 := (State_setIslPlan_kept h166)
    extract_lets -merge -useContext +onlyGivenNames y249
    have h250 : Kept s0 y249 := (Kept.ite h208 (State_dropNonces_kept h208))
    exact (State_takeOver_kept h250)

theorem islandHardwareFail_kept {s0 : State} {b : Bool} {t : ℕ} {s : State} (h_s : Kept s0 s) :
    Kept s0 (islandHardwareFail b t s) := by
  unfold islandHardwareFail
  exact (State_failIsland_kept (State_at_kept h_s))

theorem execIslandHardwareFail_kept {s0 : State} {b : Bool} {t : ℕ} {s : State} (h_s : Kept s0 s) :
    KeptNext s0 (execIslandHardwareFail b t s) := by
  unfold execIslandHardwareFail
  exact (KeptNext.next (islandHardwareFail_kept h_s))

theorem heartbeatLoss_kept {s0 : State} {b : Bool} {t : ℕ} {s : State} (h_s : Kept s0 s) :
    Kept s0 (heartbeatLoss b t s) := by
  unfold heartbeatLoss
  extract_lets -merge -useContext +onlyGivenNames y40
  have h41 : Kept s0 y40 := (State_at_kept h_s)
  exact (Kept.ite (State_failIsland_kept h41) h41)

theorem execHeartbeatLoss_kept {s0 : State} {b : Bool} {t : ℕ} {s : State} (h_s : Kept s0 s) :
    KeptNext s0 (execHeartbeatLoss b t s) := by
  unfold execHeartbeatLoss
  exact (KeptNext.next (heartbeatLoss_kept h_s))

theorem State_clearReasons_kept {s0 : State} {s : State} (h_s : Kept s0 s) :
    Kept s0 (State.clearReasons s) := by
  unfold State.clearReasons
  extract_lets -merge -useContext +onlyGivenNames i0
  extract_lets -merge -useContext +onlyGivenNames y40
  have h41 : Kept s0 y40 := (Kept.mk' h_s)
  extract_lets -merge -useContext +onlyGivenNames y82
  have h83 : Kept s0 y82 := (Kept.ite (State_clearSafe_kept (State_clearSafe_kept h41)) h41)
  extract_lets -merge -useContext +onlyGivenNames y124
  have h125 : Kept s0 y124 := (Kept.ite (State_clearSafe_kept h83) h83)
  exact (Kept.ite (State_clearSafe_kept h125) h125)

theorem State_judgeCauses_kept {s0 : State} {s : State} (h_s : Kept s0 s) :
    Kept s0 (State.judgeCauses s) := by
  unfold State.judgeCauses
  extract_lets -merge -useContext +onlyGivenNames y40
  have h41 : Kept s0 y40 := (State_setCause_kept h_s)
  exact (State_setCause_kept h41)

theorem State_sweepOut_kept {s0 : State} {s : State} (h_s : Kept s0 s) :
    Kept s0 (State.sweepOut s) := by
  unfold State.sweepOut
  exact (Kept.foldl h_s (fun x0 x2 h1 => (Kept.ite (State_capacityLost_kept h1) h1)))

theorem State_stampSec_kept {s0 : State} {s : State} (h_s : Kept s0 s) :
    Kept s0 (State.stampSec s) := by
  unfold State.stampSec
  exact (State_setF_kept (State_setF_kept h_s))

theorem islandSupervisionCycle_kept {s0 : State} {b : Bool} {t : ℕ} {pass : Bool} {s : State} (h_s : Kept s0 s) :
    Kept s0 (islandSupervisionCycle b t pass s) := by
  unfold islandSupervisionCycle
  extract_lets -merge -useContext +onlyGivenNames y40
  have h41 : Kept s0 y40 := (State_at_kept h_s)
  refine Kept.ite' (fun _ => ?_) (fun _ => ?_)
  · exact h41
  · extract_lets -merge -useContext +onlyGivenNames y82
    extract_lets -merge -useContext +onlyGivenNames i83
    extract_lets -merge -useContext +onlyGivenNames y123
    have h124 : Kept s0 y123 := (Kept.ite (State_setIsl_kept (State_setF_kept h41)) h41)
    extract_lets -merge -useContext +onlyGivenNames y165
    have h166 : Kept s0 y165 := (State_setF_kept h124)
    refine Kept.ite' (fun _ => ?_) (fun _ => ?_)
    · exact (Kept.ite (State_clearReasons_kept h166) h166)
    · exact (State_sweepOut_kept (State_judgeCauses_kept (State_clearReasons_kept (State_stampSec_kept h166))))

theorem execIslandSupervisionCycle_kept {s0 : State} {b : Bool} {t : ℕ} {pass : Bool} {s : State} (h_s : Kept s0 s) :
    KeptNext s0 (execIslandSupervisionCycle b t pass s) := by
  unfold execIslandSupervisionCycle
  exact (KeptNext.next (islandSupervisionCycle_kept h_s))

theorem jobLost_kept {s0 : State} {j : ℕ} {t : ℕ} {s : State} (h_s : Kept s0 s) :
    Kept s0 (jobLost j t s) := by
  unfold jobLost
  extract_lets -merge -useContext +onlyGivenNames y40
  have h41 : Kept s0 y40 := (State_at_kept h_s)
  extract_lets -merge -useContext +onlyGivenNames y82
  exact (Kept.ite (State_raiseSafe_kept (Kept.mk' h41)) h41)

theorem execJobLost_kept {s0 : State} {j : ℕ} {t : ℕ} {s : State} (h_s : Kept s0 s) :
    KeptNext s0 (execJobLost j t s) := by
  unfold execJobLost
  exact (KeptNext.next (jobLost_kept h_s))

theorem wordTestCmd_kept {s0 : State} {a : ℕ} {pass : Bool} {s : State} (h_s : Kept s0 s) :
    Kept s0 (wordTestCmd a pass s) := by
  unfold wordTestCmd
  extract_lets -merge -useContext +onlyGivenNames y40
  have h41 : Kept s0 y40 := (wordTest_kept h_s)
  split
  · exact (Kept.ite (State_capacityLost_kept h41) h41)
  · exact h41

theorem execWordTest_kept {s0 : State} {a : ℕ} {pass : Bool} {s : State} (h_s : Kept s0 s) :
    KeptNext s0 (execWordTest a pass s) := by
  unfold execWordTest
  exact (KeptNext.next (wordTestCmd_kept h_s))

end Sys2Proof.Machine
end

