-- ==== Sys2Proof/Laws/KeptSecurity.lean ====
section
/-! SUPPORT. `Kept` for the operations of stores, the Flacon and security: one lemma for each. -/

namespace Sys2Proof.Machine

theorem State_setBank_kept {s0 : State} {s : State} {id : ℕ} {odd : Bool} {b : Option Bank} (h_s : Kept s0 s) :
    Kept s0 (State.setBank s id odd b) := by
  unfold State.setBank
  extract_lets -merge -useContext +onlyGivenNames y40
  exact (Kept.mk' h_s)

theorem State_putStore_kept {s0 : State} {s : State} {id : ℕ} {v : StoreVal} (h_s : Kept s0 s) :
    Kept s0 (State.putStore s id v) := by
  unfold State.putStore
  exact (State_setBank_kept h_s)

theorem State_failStore_kept {s0 : State} {s : State} {id : ℕ} (h_s : Kept s0 s) :
    Kept s0 (State.failStore s id) := by
  unfold State.failStore
  extract_lets -merge -useContext +onlyGivenNames y40
  have h41 : Kept s0 y40 := (State_event_kept (State_setBank_kept h_s))
  exact (Kept.ite (State_setF_kept h41) h41)

theorem State_setWriting_kept {s0 : State} {s : State} {id : ℕ} {v : Option StoreVal} (h_s : Kept s0 s) :
    Kept s0 (State.setWriting s id v) := by
  unfold State.setWriting
  exact (Kept.mk' h_s)

theorem State_norFail_kept {s0 : State} {s : State} {k : ℕ} (h_s : Kept s0 s) :
    Kept s0 (State.norFail s k) := by
  unfold State.norFail
  exact (State_setF_kept (Kept.mk' h_s))

theorem storeWrite_kept {s0 : State} {id : ℕ} {res : ℕ} {s : State} (h_s : Kept s0 s) :
    Kept s0 (storeWrite id res s) := by
  unfold storeWrite
  split
  · exact h_s
  · extract_lets -merge -useContext +onlyGivenNames y44
    have h45 : Kept s0 y44 := (State_setWriting_kept h_s)
    refine Kept.ite' (fun _ => ?_) (fun _ => ?_)
    · exact (State_failStore_kept h45)
    · refine Kept.ite' (fun _ => ?_) (fun _ => ?_)
      · exact (State_norFail_kept (State_failStore_kept h45))
      · refine Kept.ite' (fun _ => ?_) (fun _ => ?_)
        · exact (State_failStore_kept h45)
        · extract_lets -merge -useContext +onlyGivenNames y86
          have h87 : Kept s0 y86 := (State_putStore_kept h45)
          exact (Kept.ite (State_setF_kept h87) h87)

theorem execStoreWrite_kept {s0 : State} {id : ℕ} {res : ℕ} {s : State} (h_s : Kept s0 s) :
    KeptNext s0 (execStoreWrite id res s) := by
  unfold execStoreWrite
  exact (KeptNext.next (storeWrite_kept h_s))

theorem State_cutWrites_kept {s0 : State} {s : State} (h_s : Kept s0 s) :
    Kept s0 (State.cutWrites s) := by
  unfold State.cutWrites
  exact (Kept.foldl h_s (fun x0 x2 h1 => (by
    split
    · exact (Kept.ite (State_setWriting_kept (State_setBank_kept h1)) h1))))

theorem State_seqFaults_kept {s0 : State} {s : State} {ids : List ℕ} (h_s : Kept s0 s) :
    Kept s0 (State.seqFaults s ids) := by
  unfold State.seqFaults
  exact (Kept.foldl h_s (fun x0 x2 h1 => (State_noBin_kept h1)))

theorem State_loadSil_kept {s0 : State} {s : State} (h_s : Kept s0 s) :
    Kept s0 (State.loadSil s) := by
  unfold State.loadSil
  split
  · extract_lets -merge -useContext +onlyGivenNames y43
    have h44 : Kept s0 y43 := (Kept.foldl (Kept.mk' h_s) (fun x45 x47 h46 => (by
      split
      · exact (State_setF_kept h46))))
    exact (State_setF_kept h44)

theorem State_loadQuar_kept {s0 : State} {s : State} (h_s : Kept s0 s) :
    Kept s0 (State.loadQuar s) := by
  unfold State.loadQuar
  extract_lets -merge -useContext +onlyGivenNames y40
  extract_lets -merge -useContext +onlyGivenNames y81
  exact (Kept.mk' h_s)

theorem State_loadCal_kept {s0 : State} {s : State} (h_s : Kept s0 s) :
    Kept s0 (State.loadCal s) := by
  unfold State.loadCal
  split
  · extract_lets -merge -useContext +onlyGivenNames y45
    extract_lets -merge -useContext +onlyGivenNames y86
    have h87 : Kept s0 y86 := (Kept.foldl h_s (fun x88 x90 h89 => (State_setF_kept h89)))
    exact (Kept.mk' h87)

theorem sillagePersist_kept {s0 : State} {t : ℕ} {s : State} (h_s : Kept s0 s) :
    Kept s0 (sillagePersist t s) := by
  unfold sillagePersist
  extract_lets -merge -useContext +onlyGivenNames y40
  have h41 : Kept s0 y40 := (State_at_kept h_s)
  exact (Kept.ite (State_setWriting_kept (Kept.mk' h41)) h41)

theorem execSillagePersist_kept {s0 : State} {t : ℕ} {s : State} (h_s : Kept s0 s) :
    KeptNext s0 (execSillagePersist t s) := by
  unfold execSillagePersist
  exact (KeptNext.next (sillagePersist_kept h_s))

theorem quarantineTableWrite_kept {s0 : State} {t : ℕ} {s : State} (h_s : Kept s0 s) :
    Kept s0 (quarantineTableWrite t s) := by
  unfold quarantineTableWrite
  extract_lets -merge -useContext +onlyGivenNames y40
  have h41 : Kept s0 y40 := (State_at_kept h_s)
  extract_lets -merge -useContext +onlyGivenNames y82
  extract_lets -merge -useContext +onlyGivenNames y123
  exact (Kept.ite (State_setWriting_kept h41) h41)

theorem execQuarantineTableWrite_kept {s0 : State} {t : ℕ} {s : State} (h_s : Kept s0 s) :
    KeptNext s0 (execQuarantineTableWrite t s) := by
  unfold execQuarantineTableWrite
  exact (KeptNext.next (quarantineTableWrite_kept h_s))

theorem calibrationStoreWrite_kept {s0 : State} {t : ℕ} {s : State} (h_s : Kept s0 s) :
    Kept s0 (calibrationStoreWrite t s) := by
  unfold calibrationStoreWrite
  extract_lets -merge -useContext +onlyGivenNames y40
  have h41 : Kept s0 y40 := (State_at_kept h_s)
  exact (Kept.ite (State_setWriting_kept (Kept.mk' h41)) h41)

theorem execCalibrationStoreWrite_kept {s0 : State} {t : ℕ} {s : State} (h_s : Kept s0 s) :
    KeptNext s0 (execCalibrationStoreWrite t s) := by
  unfold execCalibrationStoreWrite
  exact (KeptNext.next (calibrationStoreWrite_kept h_s))

theorem State_calApply_kept {s0 : State} {s : State} {b : List ℕ} (h_s : Kept s0 s) :
    Kept s0 (State.calApply s b).1 := by
  unfold State.calApply
  extract_lets -merge -useContext +onlyGivenNames y40
  extract_lets -merge -useContext +onlyGivenNames y81
  extract_lets -merge -useContext +onlyGivenNames y122
  extract_lets -merge -useContext +onlyGivenNames y163
  refine Kept1.ite' (fun _ => ?_) (fun _ => ?_)
  · exact h_s
  · refine Kept1.ite' (fun _ => ?_) (fun _ => ?_)
    · exact h_s
    · extract_lets -merge -useContext +onlyGivenNames y204
      extract_lets -merge -useContext +onlyGivenNames y245
      extract_lets -merge -useContext +onlyGivenNames y286
      extract_lets -merge -useContext +onlyGivenNames y327
      extract_lets -merge -useContext +onlyGivenNames y368
      split
      · refine Kept1.ite' (fun _ => ?_) (fun _ => ?_)
        · exact h_s
        · extract_lets -merge -useContext +onlyGivenNames y412
          exact (Kept.mk' h_s)

theorem State_calCompletion_kept {s0 : State} {s : State} {p : ℕ} {q : ℕ} {result : ℕ} (h_s : Kept s0 s) :
    Kept s0 (State.calCompletion s p q result) := by
  unfold State.calCompletion
  extract_lets -merge -useContext +onlyGivenNames y40
  extract_lets -merge -useContext +onlyGivenNames y81
  exact (State_pushCq_kept h_s)

theorem calibrationUpdate_kept {s0 : State} {p : ℕ} {t : ℕ} {s : State} (h_s : Kept s0 s) :
    Kept s0 (calibrationUpdate p t s) := by
  unfold calibrationUpdate
  extract_lets -merge -useContext +onlyGivenNames y40
  have h41 : Kept s0 y40 := (State_at_kept h_s)
  extract_lets -merge -useContext +onlyGivenNames y82
  refine Kept.ite' (fun _ => ?_) (fun _ => ?_)
  · exact h41
  · split
    · exact h41
    · split
      · rename_i z87 z88 z89 e90
        have h91 : Kept s0 z87 := Kept1.ofEq e90 (State_calApply_kept (State_takeRequest_kept h41))
        extract_lets -merge -useContext +onlyGivenNames y132
        have h133 : Kept s0 y132 := (Kept.ite (State_event_kept h91) (Kept.ite (State_event_kept h91) h91))
        extract_lets -merge -useContext +onlyGivenNames i134
        extract_lets -merge -useContext +onlyGivenNames y174
        have h175 : Kept s0 y174 := (Kept.mk' h133)
        exact (State_setF_kept (State_calCompletion_kept h175))

theorem execCalibrationUpdate_kept {s0 : State} {p : ℕ} {t : ℕ} {s : State} (h_s : Kept s0 s) :
    KeptNext s0 (execCalibrationUpdate p t s) := by
  unfold execCalibrationUpdate
  exact (KeptNext.next (calibrationUpdate_kept h_s))

theorem State_setFwBank_kept {s0 : State} {s : State} {target : ℕ} {k : ℕ} {b : List ℕ} (h_s : Kept s0 s) :
    Kept s0 (State.setFwBank s target k b) := by
  unfold State.setFwBank
  exact (Kept.mk' h_s)

theorem State_raiseFloor_kept {s0 : State} {s : State} {target : ℕ} {b : List ℕ} (h_s : Kept s0 s) :
    Kept s0 (State.raiseFloor s target b) := by
  unfold State.raiseFloor
  exact (Kept.ite (Kept.mk' h_s) h_s)

theorem State_boot_kept {s0 : State} {s : State} {target : ℕ} (h_s : Kept s0 s) :
    Kept s0 (State.boot s target).1 := by
  unfold State.boot
  split
  · exact (State_raiseFloor_kept (Kept.mk' h_s))
  · exact h_s

theorem State_random_kept {s0 : State} {s : State} (h_s : Kept s0 s) :
    Kept s0 (State.random s).2 := by
  unfold State.random
  split
  · rename_i z0 z1 e2
    have h3 : Kept s0 z1 := Kept2.ofEq e2 (State_fresh_kept h_s)
    split
    · rename_i z4 z5 e6
      have h7 : Kept s0 z5 := Kept2.ofEq e6 (State_fresh_kept h3)
      exact h7

theorem State_setFlc_kept {s0 : State} {s : State} {f : Flacon → Flacon} (h_s : Kept s0 s) :
    Kept s0 (State.setFlc s f) := by
  unfold State.setFlc
  exact (Kept.mk' h_s)

theorem State_setM_kept {s0 : State} {s : State} {f : Measure → Measure} (h_s : Kept s0 s) :
    Kept s0 (State.setM s f) := by
  unfold State.setM
  exact (State_setFlc_kept h_s)

theorem State_flcSave_kept {s0 : State} {s : State} (h_s : Kept s0 s) :
    Kept s0 (State.flcSave s) := by
  unfold State.flcSave
  exact (State_setFlc_kept h_s)

theorem flcPulse_kept {s0 : State} {t : ℕ} {s : State} (h_s : Kept s0 s) :
    Kept s0 (flcPulse t s) := by
  unfold flcPulse
  extract_lets -merge -useContext +onlyGivenNames y40
  have h41 : Kept s0 y40 := (State_at_kept h_s)
  refine Kept.ite' (fun _ => ?_) (fun _ => ?_)
  · exact h41
  · extract_lets -merge -useContext +onlyGivenNames y82
    extract_lets -merge -useContext +onlyGivenNames y123
    have h124 : Kept s0 y123 := (State_setM_kept h41)
    extract_lets -merge -useContext +onlyGivenNames y165
    have h166 : Kept s0 y165 := (State_setFlc_kept h124)
    exact (Kept.ite h166 (State_flcSave_kept h166))

theorem execFlcPulse_kept {s0 : State} {t : ℕ} {s : State} (h_s : Kept s0 s) :
    KeptNext s0 (execFlcPulse t s) := by
  unfold execFlcPulse
  exact (KeptNext.next (flcPulse_kept h_s))

theorem lineFault_kept {s0 : State} {on : Bool} {t : ℕ} {s : State} (h_s : Kept s0 s) :
    Kept s0 (lineFault on t s) := by
  unfold lineFault
  extract_lets -merge -useContext +onlyGivenNames y40
  have h41 : Kept s0 y40 := (State_at_kept h_s)
  exact (Kept.ite (State_setFlc_kept h41) h41)

theorem execLineFault_kept {s0 : State} {on : Bool} {t : ℕ} {s : State} (h_s : Kept s0 s) :
    KeptNext s0 (execLineFault on t s) := by
  unfold execLineFault
  exact (KeptNext.next (lineFault_kept h_s))

theorem speedUpdate_kept {s0 : State} {t : ℕ} {s : State} (h_s : Kept s0 s) :
    Kept s0 (speedUpdate t s) := by
  unfold speedUpdate
  extract_lets -merge -useContext +onlyGivenNames y40
  have h41 : Kept s0 y40 := (State_at_kept h_s)
  refine Kept.ite' (fun _ => ?_) (fun _ => ?_)
  · exact h41
  · extract_lets -merge -useContext +onlyGivenNames y82
    extract_lets -merge -useContext +onlyGivenNames y123
    exact (State_setFlc_kept h41)

theorem execSpeedUpdate_kept {s0 : State} {t : ℕ} {s : State} (h_s : Kept s0 s) :
    KeptNext s0 (execSpeedUpdate t s) := by
  unfold execSpeedUpdate
  exact (KeptNext.next (speedUpdate_kept h_s))

theorem State_sampleOdo_kept {s0 : State} {s : State} (h_s : Kept s0 s) :
    Kept s0 (State.sampleOdo s) := by
  unfold State.sampleOdo
  extract_lets -merge -useContext +onlyGivenNames y40
  exact (State_setFlc_kept h_s)

theorem plausibilitySample_kept {s0 : State} {t : ℕ} {s : State} (h_s : Kept s0 s) :
    Kept s0 (plausibilitySample t s) := by
  unfold plausibilitySample
  extract_lets -merge -useContext +onlyGivenNames y40
  have h41 : Kept s0 y40 := (State_at_kept h_s)
  refine Kept.ite' (fun _ => ?_) (fun _ => ?_)
  · exact h41
  · extract_lets -merge -useContext +onlyGivenNames y82
    have h83 : Kept s0 y82 := (State_sampleOdo_kept h41)
    extract_lets -merge -useContext +onlyGivenNames y124
    extract_lets -merge -useContext +onlyGivenNames y165
    extract_lets -merge -useContext +onlyGivenNames y206
    extract_lets -merge -useContext +onlyGivenNames y247
    extract_lets -merge -useContext +onlyGivenNames y288
    exact (State_setFlc_kept h83)

theorem execPlausibilitySample_kept {s0 : State} {t : ℕ} {s : State} (h_s : Kept s0 s) :
    KeptNext s0 (execPlausibilitySample t s) := by
  unfold execPlausibilitySample
  exact (KeptNext.next (plausibilitySample_kept h_s))

theorem flcOdoWrite_kept {s0 : State} {who : Who} {w : ℕ} {s : State} (h_s : Kept s0 s) :
    Kept s0 (flcOdoWrite who w s) := by
  unfold flcOdoWrite
  exact (Kept.ite (State_refuseAccess_kept h_s) (State_loadF_kept h_s))

theorem execFlcOdoWrite_kept {s0 : State} {who : Who} {w : ℕ} {s : State} (h_s : Kept s0 s) :
    KeptNext s0 (execFlcOdoWrite who w s) := by
  unfold execFlcOdoWrite
  exact (KeptNext.next (flcOdoWrite_kept h_s))

theorem State_showChal_kept {s0 : State} {s : State} (h_s : Kept s0 s) :
    Kept s0 (State.showChal s) := by
  unfold State.showChal
  extract_lets -merge -useContext +onlyGivenNames y40
  extract_lets -merge -useContext +onlyGivenNames y81
  have h82 : Kept s0 y81 := (State_setF_kept (State_setF_kept h_s))
  exact (State_setF_kept h82)

theorem State_mirror_kept {s0 : State} {s : State} (h_s : Kept s0 s) :
    Kept s0 (State.mirror s) := by
  unfold State.mirror
  extract_lets -merge -useContext +onlyGivenNames y40
  extract_lets -merge -useContext +onlyGivenNames y81
  have h82 : Kept s0 y81 := (State_setF_kept (State_setF_kept (State_setF_kept h_s)))
  extract_lets -merge -useContext +onlyGivenNames y123
  have h124 : Kept s0 y123 := (State_showChal_kept (State_setF_kept h82))
  extract_lets -merge -useContext +onlyGivenNames y165
  have h166 : Kept s0 y165 := (State_setF_kept (State_setF_kept (State_setF_kept h124)))
  extract_lets -merge -useContext +onlyGivenNames y207
  have h208 : Kept s0 y207 := (State_setF_kept (State_setF_kept h166))
  extract_lets -merge -useContext +onlyGivenNames y249
  have h250 : Kept s0 y249 := (State_setF_kept (State_setF_kept (State_setF_kept h208)))
  extract_lets -merge -useContext +onlyGivenNames y291
  have h292 : Kept s0 y291 := (State_putBytes_kept h250)
  extract_lets -merge -useContext +onlyGivenNames y333
  have h334 : Kept s0 y333 := (State_putBytes_kept h292)
  exact (State_putBytes_kept h334)

theorem mirrorRefresh_kept {s0 : State} {t : ℕ} {s : State} (h_s : Kept s0 s) :
    Kept s0 (mirrorRefresh t s) := by
  unfold mirrorRefresh
  extract_lets -merge -useContext +onlyGivenNames y40
  have h41 : Kept s0 y40 := (State_at_kept h_s)
  exact (Kept.ite (State_mirror_kept h41) h41)

theorem execMirrorRefresh_kept {s0 : State} {t : ℕ} {s : State} (h_s : Kept s0 s) :
    KeptNext s0 (execMirrorRefresh t s) := by
  unfold execMirrorRefresh
  exact (KeptNext.next (mirrorRefresh_kept h_s))

theorem State_flcEnd_kept {s0 : State} {s : State} {fail : ℕ} (h_s : Kept s0 s) :
    Kept s0 (State.flcEnd s fail) := by
  unfold State.flcEnd
  exact (State_setF_kept (State_setF_kept h_s))

theorem State_flcClose_kept {s0 : State} {s : State} (h_s : Kept s0 s) :
    Kept s0 (State.flcClose s) := by
  unfold State.flcClose
  exact (State_showChal_kept (State_setFlc_kept h_s))

theorem State_flcExpire_kept {s0 : State} {s : State} (h_s : Kept s0 s) :
    Kept s0 (State.flcExpire s) := by
  unfold State.flcExpire
  exact (Kept.ite (State_flcClose_kept h_s) h_s)

theorem State_flcOp_kept {s0 : State} {s : State} {who : Who} {w : ℕ} {op : ℕ} {t : ℕ} {f : State → State} (h_s : Kept s0 s) (h_f : ∀ u0, Kept s0 u0 → Kept s0 (f u0)) :
    Kept s0 (State.flcOp s who w op t f) := by
  unfold State.flcOp
  extract_lets -merge -useContext +onlyGivenNames y41
  have h42 : Kept s0 y41 := (State_flcExpire_kept (State_at_kept h_s))
  refine Kept.ite' (fun _ => ?_) (fun _ => ?_)
  · exact (State_refuseAccess_kept h42)
  · refine Kept.ite' (fun _ => ?_) (fun _ => ?_)
    · exact h42
    · exact (Kept.ite (State_flcEnd_kept h42) (h_f _ h42))

theorem signCmd_kept {s0 : State} {who : Who} {w : ℕ} {t : ℕ} {s : State} (h_s : Kept s0 s) :
    Kept s0 (signCmd who w t s) := by
  unfold signCmd
  exact (State_flcOp_kept h_s (fun x0 h1 => (by
    extract_lets -merge -useContext +onlyGivenNames y42
    have h43 : Kept s0 y42 := (State_setFlc_kept h1)
    extract_lets -merge -useContext +onlyGivenNames y84
    have h85 : Kept s0 y84 := (State_putBytes_kept h43)
    exact (State_flcEnd_kept (Kept.mk' h85)))))

theorem execSign_kept {s0 : State} {who : Who} {w : ℕ} {t : ℕ} {s : State} (h_s : Kept s0 s) :
    KeptNext s0 (execSign who w t s) := by
  unfold execSign
  exact (KeptNext.next (signCmd_kept h_s))

theorem State_newChal_kept {s0 : State} {s : State} (h_s : Kept s0 s) :
    Kept s0 (State.newChal s) := by
  unfold State.newChal
  split
  · rename_i z0 z1 e2
    have h3 : Kept s0 z1 := Kept2.ofEq e2 (State_random_kept h_s)
    exact (State_showChal_kept (State_setFlc_kept h3))

theorem openSession_kept {s0 : State} {who : Who} {w : ℕ} {t : ℕ} {s : State} (h_s : Kept s0 s) :
    Kept s0 (openSession who w t s) := by
  unfold openSession
  exact (State_flcOp_kept h_s (fun x0 h1 => (State_flcEnd_kept (State_newChal_kept (State_setFlc_kept h1)))))

theorem execOpenSession_kept {s0 : State} {who : Who} {w : ℕ} {t : ℕ} {s : State} (h_s : Kept s0 s) :
    KeptNext s0 (execOpenSession who w t s) := by
  unfold execOpenSession
  exact (KeptNext.next (openSession_kept h_s))

theorem closeSession_kept {s0 : State} {who : Who} {w : ℕ} {t : ℕ} {s : State} (h_s : Kept s0 s) :
    Kept s0 (closeSession who w t s) := by
  unfold closeSession
  exact (State_flcOp_kept h_s (fun x0 h1 => (Kept.ite (State_flcEnd_kept h1) (State_flcEnd_kept (State_flcClose_kept h1)))))

theorem execCloseSession_kept {s0 : State} {who : Who} {w : ℕ} {t : ℕ} {s : State} (h_s : Kept s0 s) :
    KeptNext s0 (execCloseSession who w t s) := by
  unfold execCloseSession
  exact (KeptNext.next (closeSession_kept h_s))

theorem sessionTimeout_kept {s0 : State} {t : ℕ} {s : State} (h_s : Kept s0 s) :
    Kept s0 (sessionTimeout t s) := by
  unfold sessionTimeout
  exact (State_flcExpire_kept (State_at_kept h_s))

theorem execSessionTimeout_kept {s0 : State} {t : ℕ} {s : State} (h_s : Kept s0 s) :
    KeptNext s0 (execSessionTimeout t s) := by
  unfold execSessionTimeout
  exact (KeptNext.next (sessionTimeout_kept h_s))

theorem State_flcLog_kept {s0 : State} {s : State} {type : ℕ} {key : ℕ} {kOld : ℕ} (h_s : Kept s0 s) :
    Kept s0 (State.flcLog s type key kOld) := by
  unfold State.flcLog
  extract_lets -merge -useContext +onlyGivenNames y40
  extract_lets -merge -useContext +onlyGivenNames y81
  exact (State_setM_kept h_s)

theorem State_flcApplied_kept {s0 : State} {s : State} {type : ℕ} {key : ℕ} {kOld : ℕ} (h_s : Kept s0 s) :
    Kept s0 (State.flcApplied s type key kOld) := by
  unfold State.flcApplied
  exact (State_flcSave_kept (State_flcLog_kept (State_setM_kept h_s)))

theorem State_flcCommand_kept {s0 : State} {s : State} {who : Who} {w : ℕ} {t : ℕ} {cmd : ℕ} {f : State → List ℕ → State} (h_s : Kept s0 s) (h_f : ∀ u0 u1, Kept s0 u0 → Kept s0 (f u0 u1)) :
    Kept s0 (State.flcCommand s who w t cmd f) := by
  unfold State.flcCommand
  extract_lets -merge -useContext +onlyGivenNames y42
  extract_lets -merge -useContext +onlyGivenNames y83
  exact (Kept.ite (State_at_kept h_s) (State_flcOp_kept h_s (fun x84 h85 => (by
    extract_lets -merge -useContext +onlyGivenNames y126
    extract_lets -merge -useContext +onlyGivenNames y167
    have h168 : Kept s0 y167 := (Kept.ite (h_f _ _ h85) h85)
    extract_lets -merge -useContext +onlyGivenNames y209
    have h210 : Kept s0 y209 := (Kept.ite h168 (State_newChal_kept (State_setFlc_kept h168)))
    exact (State_flcEnd_kept h210)))))

theorem setK_kept {s0 : State} {who : Who} {w : ℕ} {t : ℕ} {s : State} (h_s : Kept s0 s) :
    Kept s0 (setK who w t s) := by
  unfold setK
  exact (State_flcCommand_kept h_s (fun x0 x2 h1 => (by
    extract_lets -merge -useContext +onlyGivenNames y43
    extract_lets -merge -useContext +onlyGivenNames y84
    exact (State_flcApplied_kept (State_setM_kept h1)))))

theorem execSetK_kept {s0 : State} {who : Who} {w : ℕ} {t : ℕ} {s : State} (h_s : Kept s0 s) :
    KeptNext s0 (execSetK who w t s) := by
  unfold execSetK
  exact (KeptNext.next (setK_kept h_s))

theorem resealCmd_kept {s0 : State} {who : Who} {w : ℕ} {t : ℕ} {s : State} (h_s : Kept s0 s) :
    Kept s0 (resealCmd who w t s) := by
  unfold resealCmd
  exact (State_flcCommand_kept h_s (fun x0 x2 h1 => (State_flcApplied_kept (State_setM_kept h1))))

theorem execReseal_kept {s0 : State} {who : Who} {w : ℕ} {t : ℕ} {s : State} (h_s : Kept s0 s) :
    KeptNext s0 (execReseal who w t s) := by
  unfold execReseal
  exact (KeptNext.next (resealCmd_kept h_s))

theorem fwUpdate_kept {s0 : State} {who : Who} {w : ℕ} {t : ℕ} {s : State} (h_s : Kept s0 s) :
    Kept s0 (fwUpdate who w t s) := by
  unfold fwUpdate
  exact (State_flcCommand_kept h_s (fun x0 x2 h1 => (State_setF_kept (State_setFlc_kept h1))))

theorem execFwUpdate_kept {s0 : State} {who : Who} {w : ℕ} {t : ℕ} {s : State} (h_s : Kept s0 s) :
    KeptNext s0 (execFwUpdate who w t s) := by
  unfold execFwUpdate
  exact (KeptNext.next (fwUpdate_kept h_s))

theorem State_dropTransfer_kept {s0 : State} {s : State} {fail : ℕ} (h_s : Kept s0 s) :
    Kept s0 (State.dropTransfer s fail) := by
  unfold State.dropTransfer
  exact (State_flcEnd_kept (State_setFlc_kept h_s))

theorem State_flcLast_kept {s0 : State} {s : State} {tr : Transfer} (h_s : Kept s0 s) :
    Kept s0 (State.flcLast s tr) := by
  unfold State.flcLast
  extract_lets -merge -useContext +onlyGivenNames y40
  extract_lets -merge -useContext +onlyGivenNames y81
  extract_lets -merge -useContext +onlyGivenNames y122
  refine Kept.ite' (fun _ => ?_) (fun _ => ?_)
  · exact (State_dropTransfer_kept h_s)
  · extract_lets -merge -useContext +onlyGivenNames y163
    have h164 : Kept s0 y163 := (State_setFlc_kept h_s)
    exact (State_flcEnd_kept (State_flcApplied_kept (State_setM_kept h164)))

theorem blockCmd_kept {s0 : State} {who : Who} {w : ℕ} {t : ℕ} {s : State} (h_s : Kept s0 s) :
    Kept s0 (blockCmd who w t s) := by
  unfold blockCmd
  exact (State_flcOp_kept h_s (fun x0 h1 => (by
    split
    · exact (State_flcEnd_kept h1)
    · extract_lets -merge -useContext +onlyGivenNames y46
      extract_lets -merge -useContext +onlyGivenNames y87
      extract_lets -merge -useContext +onlyGivenNames y128
      extract_lets -merge -useContext +onlyGivenNames y169
      extract_lets -merge -useContext +onlyGivenNames y210
      have h211 : Kept s0 y210 := (State_setF_kept (State_setFlc_kept h1))
      extract_lets -merge -useContext +onlyGivenNames y252
      refine Kept.ite' (fun _ => ?_) (fun _ => ?_)
      · exact (State_dropTransfer_kept h211)
      · exact (Kept.ite (State_flcLast_kept h211) (State_flcEnd_kept (State_setFlc_kept h211))))))

theorem execBlock_kept {s0 : State} {who : Who} {w : ℕ} {t : ℕ} {s : State} (h_s : Kept s0 s) :
    KeptNext s0 (execBlock who w t s) := by
  unfold execBlock
  exact (KeptNext.next (blockCmd_kept h_s))

theorem State_flcDebug_kept {s0 : State} {s : State} (h_s : Kept s0 s) :
    Kept s0 (State.flcDebug s) := by
  unfold State.flcDebug
  extract_lets -merge -useContext +onlyGivenNames y40
  have h41 : Kept s0 y40 := (State_flcClose_kept h_s)
  extract_lets -merge -useContext +onlyGivenNames y82
  have h83 : Kept s0 y82 := (State_setM_kept h41)
  extract_lets -merge -useContext +onlyGivenNames y124
  have h125 : Kept s0 y124 := (Kept.ite (State_flcLog_kept h83) (State_setM_kept h83))
  exact (State_flcSave_kept h125)

theorem debugOpenSeal_kept {s0 : State} {t : ℕ} {s : State} (h_s : Kept s0 s) :
    Kept s0 (debugOpenSeal t s) := by
  unfold debugOpenSeal
  extract_lets -merge -useContext +onlyGivenNames y40
  have h41 : Kept s0 y40 := (State_at_kept h_s)
  exact (Kept.ite (State_flcDebug_kept h41) h41)

theorem execDebugOpenSeal_kept {s0 : State} {t : ℕ} {s : State} (h_s : Kept s0 s) :
    KeptNext s0 (execDebugOpenSeal t s) := by
  unfold execDebugOpenSeal
  exact (KeptNext.next (debugOpenSeal_kept h_s))

theorem State_flcRestart_kept {s0 : State} {s : State} (h_s : Kept s0 s) :
    Kept s0 (State.flcRestart s) := by
  unfold State.flcRestart
  extract_lets -merge -useContext +onlyGivenNames y40
  extract_lets -merge -useContext +onlyGivenNames y81
  have h82 : Kept s0 y81 := (State_flcClose_kept h_s)
  extract_lets -merge -useContext +onlyGivenNames y123
  have h124 : Kept s0 y123 := (State_setF_kept (State_setF_kept (State_setF_kept h82)))
  extract_lets -merge -useContext +onlyGivenNames y165
  have h166 : Kept s0 y165 := (State_setFlc_kept h124)
  exact (Kept.ite (State_raiseFloor_kept h166) h166)

theorem flaconPowerOn_kept {s0 : State} {t : ℕ} {s : State} (h_s : Kept s0 s) :
    Kept s0 (flaconPowerOn t s) := by
  unfold flaconPowerOn
  extract_lets -merge -useContext +onlyGivenNames y40
  have h41 : Kept s0 y40 := (State_at_kept h_s)
  refine Kept.ite' (fun _ => ?_) (fun _ => ?_)
  · exact h41
  · extract_lets -merge -useContext +onlyGivenNames y82
    have h83 : Kept s0 y82 := (State_setFlc_kept h41)
    exact (State_flcRestart_kept (State_flcSave_kept h83))

theorem execFlaconPowerOn_kept {s0 : State} {t : ℕ} {s : State} (h_s : Kept s0 s) :
    KeptNext s0 (execFlaconPowerOn t s) := by
  unfold execFlaconPowerOn
  exact (KeptNext.next (flaconPowerOn_kept h_s))

theorem vanaFall_kept {s0 : State} {t : ℕ} {s : State} (h_s : Kept s0 s) :
    Kept s0 (vanaFall t s) := by
  unfold vanaFall
  extract_lets -merge -useContext +onlyGivenNames y40
  have h41 : Kept s0 y40 := (State_at_kept h_s)
  refine Kept.ite' (fun _ => ?_) (fun _ => ?_)
  · exact h41
  · extract_lets -merge -useContext +onlyGivenNames y82
    have h83 : Kept s0 y82 := (State_setFlc_kept (State_flcSave_kept h41))
    exact (State_setF_kept h83)

theorem execVanaFall_kept {s0 : State} {t : ℕ} {s : State} (h_s : Kept s0 s) :
    KeptNext s0 (execVanaFall t s) := by
  unfold execVanaFall
  exact (KeptNext.next (vanaFall_kept h_s))

theorem freezeCmd_kept {s0 : State} {who : Who} {w : ℕ} {t : ℕ} {s : State} (h_s : Kept s0 s) :
    Kept s0 (freezeCmd who w t s) := by
  unfold freezeCmd
  extract_lets -merge -useContext +onlyGivenNames y40
  have h41 : Kept s0 y40 := (State_at_kept h_s)
  refine Kept.ite' (fun _ => ?_) (fun _ => ?_)
  · exact (State_refuseAccess_kept h41)
  · extract_lets -merge -useContext +onlyGivenNames y82
    have h83 : Kept s0 y82 := (State_loadF_kept h41)
    exact (Kept.ite (Kept.mk' h83) h83)

theorem execFreeze_kept {s0 : State} {who : Who} {w : ℕ} {t : ℕ} {s : State} (h_s : Kept s0 s) :
    KeptNext s0 (execFreeze who w t s) := by
  unfold execFreeze
  exact (KeptNext.next (freezeCmd_kept h_s))

theorem freezeTimeout_kept {s0 : State} {t : ℕ} {s : State} (h_s : Kept s0 s) :
    Kept s0 (freezeTimeout t s) := by
  unfold freezeTimeout
  extract_lets -merge -useContext +onlyGivenNames y40
  have h41 : Kept s0 y40 := (State_at_kept h_s)
  exact (Kept.ite (State_setF_kept h41) h41)

theorem execFreezeTimeout_kept {s0 : State} {t : ℕ} {s : State} (h_s : Kept s0 s) :
    KeptNext s0 (execFreezeTimeout t s) := by
  unfold execFreezeTimeout
  exact (KeptNext.next (freezeTimeout_kept h_s))

theorem State_showNonce_kept {s0 : State} {s : State} {a : ℕ} {n : Option (List ℕ)} (h_s : Kept s0 s) :
    Kept s0 (State.showNonce s a n) := by
  unfold State.showNonce
  extract_lets -merge -useContext +onlyGivenNames y40
  exact (State_setF_kept (State_setF_kept h_s))

theorem State_setSilNonce_kept {s0 : State} {s : State} {n : Option (List ℕ)} (h_s : Kept s0 s) :
    Kept s0 (State.setSilNonce s n) := by
  unfold State.setSilNonce
  exact (State_showNonce_kept (Kept.mk' h_s))

theorem State_setSecNonce_kept {s0 : State} {s : State} {n : Option (List ℕ)} (h_s : Kept s0 s) :
    Kept s0 (State.setSecNonce s n) := by
  unfold State.setSecNonce
  exact (State_showNonce_kept (Kept.mk' h_s))

theorem State_expireSil_kept {s0 : State} {s : State} (h_s : Kept s0 s) :
    Kept s0 (State.expireSil s) := by
  unfold State.expireSil
  exact (Kept.ite (State_setSilNonce_kept h_s) h_s)

theorem State_expireSec_kept {s0 : State} {s : State} (h_s : Kept s0 s) :
    Kept s0 (State.expireSec s) := by
  unfold State.expireSec
  exact (Kept.ite (State_setSecNonce_kept h_s) h_s)

theorem State_authEnd_kept {s0 : State} {s : State} {a : ℕ} {fail : ℕ} (h_s : Kept s0 s) :
    Kept s0 (State.authEnd s a fail) := by
  unfold State.authEnd
  exact (State_setF_kept (State_setF_kept h_s))

theorem State_trngFail_kept {s0 : State} {s : State} {a : ℕ} (h_s : Kept s0 s) :
    Kept s0 (State.trngFail s a) := by
  unfold State.trngFail
  exact (State_authEnd_kept (State_noBin_kept h_s))

theorem State_silOp_kept {s0 : State} {s : State} {who : Who} {w : ℕ} {op : ℕ} {t : ℕ} {f : State → State} (h_s : Kept s0 s) (h_f : ∀ u0, Kept s0 u0 → Kept s0 (f u0)) :
    Kept s0 (State.silOp s who w op t f) := by
  unfold State.silOp
  extract_lets -merge -useContext +onlyGivenNames y41
  have h42 : Kept s0 y41 := (State_expireSil_kept (State_at_kept h_s))
  refine Kept.ite' (fun _ => ?_) (fun _ => ?_)
  · exact (State_refuseAccess_kept h42)
  · refine Kept.ite' (fun _ => ?_) (fun _ => ?_)
    · exact h42
    · extract_lets -merge -useContext +onlyGivenNames y83
      have h84 : Kept s0 y83 := (State_setF_kept h42)
      exact (Kept.ite (State_authEnd_kept h84) (h_f _ h84))

theorem nonceRequest_kept {s0 : State} {who : Who} {w : ℕ} {t : ℕ} {s : State} (h_s : Kept s0 s) :
    Kept s0 (nonceRequest who w t s) := by
  unfold nonceRequest
  exact (State_silOp_kept h_s (fun x0 h1 => (Kept.ite (State_trngFail_kept (State_setSilNonce_kept h1)) (by
    split
    · rename_i z2 z3 e4
      have h5 : Kept s0 z3 := Kept2.ofEq e4 (State_random_kept h1)
      exact (State_authEnd_kept (State_setSilNonce_kept h5))))))

theorem execNonceRequest_kept {s0 : State} {who : Who} {w : ℕ} {t : ℕ} {s : State} (h_s : Kept s0 s) :
    KeptNext s0 (execNonceRequest who w t s) := by
  unfold execNonceRequest
  exact (KeptNext.next (nonceRequest_kept h_s))

theorem nonceExpiry_kept {s0 : State} {t : ℕ} {s : State} (h_s : Kept s0 s) :
    Kept s0 (nonceExpiry t s) := by
  unfold nonceExpiry
  exact (State_expireSil_kept (State_at_kept h_s))

theorem execNonceExpiry_kept {s0 : State} {t : ℕ} {s : State} (h_s : Kept s0 s) :
    KeptNext s0 (execNonceExpiry t s) := by
  unfold execNonceExpiry
  exact (KeptNext.next (nonceExpiry_kept h_s))

theorem secNonceExpiry_kept {s0 : State} {t : ℕ} {s : State} (h_s : Kept s0 s) :
    Kept s0 (secNonceExpiry t s) := by
  unfold secNonceExpiry
  exact (State_expireSec_kept (State_at_kept h_s))

theorem execSecNonceExpiry_kept {s0 : State} {t : ℕ} {s : State} (h_s : Kept s0 s) :
    KeptNext s0 (execSecNonceExpiry t s) := by
  unfold execSecNonceExpiry
  exact (KeptNext.next (secNonceExpiry_kept h_s))

theorem trngHealth_kept {s0 : State} {ok : Bool} {t : ℕ} {s : State} (h_s : Kept s0 s) :
    Kept s0 (trngHealth ok t s) := by
  unfold trngHealth
  exact (State_setF_kept (State_at_kept h_s))

theorem execTrngHealthFail_kept {s0 : State} {t : ℕ} {s : State} (h_s : Kept s0 s) :
    KeptNext s0 (execTrngHealthFail t s) := by
  unfold execTrngHealthFail
  exact (KeptNext.next (trngHealth_kept h_s))

theorem execTrngHealthPass_kept {s0 : State} {t : ℕ} {s : State} (h_s : Kept s0 s) :
    KeptNext s0 (execTrngHealthPass t s) := by
  unfold execTrngHealthPass
  exact (KeptNext.next (trngHealth_kept h_s))

theorem State_clearNow_kept {s0 : State} {s : State} {scope : ℕ} {entry : ℕ} {key : ℕ} (h_s : Kept s0 s) :
    Kept s0 (State.clearNow s scope entry key) := by
  unfold State.clearNow
  extract_lets -merge -useContext +onlyGivenNames i0
  extract_lets -merge -useContext +onlyGivenNames i1
  extract_lets -merge -useContext +onlyGivenNames i2
  have h40 : Kept s0 i2 := (Kept.mk' h_s)
  extract_lets -merge -useContext +onlyGivenNames y41
  have h42 : Kept s0 y41 := (Kept.ite (State_setF_kept (Kept.mk' h_s)) (Kept.ite (State_dirChange_kept h40) h40))
  extract_lets -merge -useContext +onlyGivenNames y83
  have h84 : Kept s0 y83 := (State_setF_kept h42)
  extract_lets -merge -useContext +onlyGivenNames y125
  have h126 : Kept s0 y125 := (State_setF_kept (State_setF_kept h84))
  extract_lets -merge -useContext +onlyGivenNames y167
  have h168 : Kept s0 y167 := (State_setF_kept (State_setF_kept h126))
  exact (State_setF_kept h168)

theorem sillageClear_kept {s0 : State} {who : Who} {w : ℕ} {t : ℕ} {s : State} (h_s : Kept s0 s) :
    Kept s0 (sillageClear who w t s) := by
  unfold sillageClear
  exact (State_silOp_kept h_s (fun x0 h1 => (by
    extract_lets -merge -useContext +onlyGivenNames y42
    extract_lets -merge -useContext +onlyGivenNames y83
    extract_lets -merge -useContext +onlyGivenNames y124
    extract_lets -merge -useContext +onlyGivenNames y165
    have h166 : Kept s0 y165 := (State_setSilNonce_kept h1)
    extract_lets -merge -useContext +onlyGivenNames y207
    extract_lets -merge -useContext +onlyGivenNames y248
    refine Kept.ite' (fun _ => ?_) (fun _ => ?_)
    · extract_lets -merge -useContext +onlyGivenNames y289
      have h290 : Kept s0 y289 := (State_clearNow_kept h166)
      extract_lets -merge -useContext +onlyGivenNames y331
      have h332 : Kept s0 y331 := (State_setWriting_kept h290)
      exact (State_authEnd_kept (Kept.ite (State_setWriting_kept h332) h332))
    · extract_lets -merge -useContext +onlyGivenNames y373
      have h374 : Kept s0 y373 := (Kept.ite (State_quarAll_kept h166) h166)
      exact (State_authEnd_kept (State_event_kept h374)))))

theorem execSillageClear_kept {s0 : State} {who : Who} {w : ℕ} {t : ℕ} {s : State} (h_s : Kept s0 s) :
    KeptNext s0 (execSillageClear who w t s) := by
  unfold execSillageClear
  exact (KeptNext.next (sillageClear_kept h_s))

theorem State_showSec_kept {s0 : State} {s : State} (h_s : Kept s0 s) :
    Kept s0 (State.showSec s) := by
  unfold State.showSec
  exact (State_setF_kept (State_setF_kept (State_setF_kept h_s)))

theorem State_wipeStore_kept {s0 : State} {s : State} {id : ℕ} (h_s : Kept s0 s) :
    Kept s0 (State.wipeStore s id) := by
  unfold State.wipeStore
  exact (Kept.mk' h_s)

theorem State_eraseAll_kept {s0 : State} {s : State} {target : ℕ} (h_s : Kept s0 s) :
    Kept s0 (State.eraseAll s target) := by
  unfold State.eraseAll
  extract_lets -merge -useContext +onlyGivenNames y40
  have h41 : Kept s0 y40 := (State_putStore_kept (State_wipeStore_kept (State_wipeStore_kept h_s)))
  extract_lets -merge -useContext +onlyGivenNames y82
  have h83 : Kept s0 y82 := (State_wipeStore_kept h41)
  extract_lets -merge -useContext +onlyGivenNames y124
  have h125 : Kept s0 y124 := (Kept.ite h83 (State_putStore_kept h83))
  extract_lets -merge -useContext +onlyGivenNames i126
  extract_lets -merge -useContext +onlyGivenNames y166
  have h167 : Kept s0 y166 := (Kept.ite (Kept.mk' h125) h125)
  exact (State_showSec_kept (State_putStore_kept h167))

theorem State_romErase_kept {s0 : State} {s : State} (h_s : Kept s0 s) :
    Kept s0 (State.romErase s) := by
  unfold State.romErase
  split
  · exact (State_eraseAll_kept h_s)
  · exact h_s

theorem State_openDebug_kept {s0 : State} {s : State} (h_s : Kept s0 s) :
    Kept s0 (State.openDebug s).1 := by
  unfold State.openDebug
  exact (Kept1.ite (State_raiseSafe_kept (State_setF_kept (State_flcDebug_kept h_s))) h_s)

theorem State_startDebug_kept {s0 : State} {s : State} (h_s : Kept s0 s) :
    Kept s0 (State.startDebug s) := by
  unfold State.startDebug
  extract_lets -merge -useContext +onlyGivenNames y40
  have h41 : Kept s0 y40 := (State_setF_kept h_s)
  extract_lets -merge -useContext +onlyGivenNames y82
  refine Kept.ite' (fun _ => ?_) (fun _ => ?_)
  · exact (State_clearSafe_kept h41)
  · refine Kept.ite' (fun _ => ?_) (fun _ => ?_)
    · exact h41
    · extract_lets -merge -useContext +onlyGivenNames y123
      have h124 : Kept s0 y123 := (State_openDebug_kept h41)
      exact (Kept.ite (State_raiseSafe_kept h124) h124)

theorem State_secOp_kept {s0 : State} {s : State} {who : Who} {w : ℕ} {op : ℕ} {t : ℕ} {f : State → State} (h_s : Kept s0 s) (h_f : ∀ u0, Kept s0 u0 → Kept s0 (f u0)) :
    Kept s0 (State.secOp s who w op t f) := by
  unfold State.secOp
  extract_lets -merge -useContext +onlyGivenNames y41
  have h42 : Kept s0 y41 := (State_expireSec_kept (State_at_kept h_s))
  refine Kept.ite' (fun _ => ?_) (fun _ => ?_)
  · exact (State_refuseAccess_kept h42)
  · refine Kept.ite' (fun _ => ?_) (fun _ => ?_)
    · exact h42
    · refine Kept.ite' (fun _ => ?_) (fun _ => ?_)
      · exact (Kept.ite (State_setF_kept h42) h42)
      · exact (h_f _ (State_setF_kept h42))

theorem nonceCmd_kept {s0 : State} {who : Who} {w : ℕ} {t : ℕ} {s : State} (h_s : Kept s0 s) :
    Kept s0 (nonceCmd who w t s) := by
  unfold nonceCmd
  exact (State_secOp_kept h_s (fun x0 h1 => (Kept.ite (State_trngFail_kept (State_setSecNonce_kept h1)) (by
    split
    · rename_i z2 z3 e4
      have h5 : Kept s0 z3 := Kept2.ofEq e4 (State_random_kept h1)
      exact (State_authEnd_kept (State_setSecNonce_kept h5))))))

theorem execNonce_kept {s0 : State} {who : Who} {w : ℕ} {t : ℕ} {s : State} (h_s : Kept s0 s) :
    KeptNext s0 (execNonce who w t s) := by
  unfold execNonce
  exact (KeptNext.next (nonceCmd_kept h_s))

theorem unlockCmd_kept {s0 : State} {who : Who} {w : ℕ} {cut : Bool} {t : ℕ} {s : State} (h_s : Kept s0 s) :
    Kept s0 (unlockCmd who w cut t s) := by
  unfold unlockCmd
  exact (State_secOp_kept h_s (fun x0 h1 => (by
    extract_lets -merge -useContext +onlyGivenNames y42
    extract_lets -merge -useContext +onlyGivenNames y83
    extract_lets -merge -useContext +onlyGivenNames y124
    extract_lets -merge -useContext +onlyGivenNames y165
    have h166 : Kept s0 y165 := (State_setSecNonce_kept h1)
    extract_lets -merge -useContext +onlyGivenNames y207
    refine Kept.ite' (fun _ => ?_) (fun _ => ?_)
    · exact (State_authEnd_kept h166)
    · refine Kept.ite' (fun _ => ?_) (fun _ => ?_)
      · exact (State_authEnd_kept h166)
      · extract_lets -merge -useContext +onlyGivenNames y248
        have h249 : Kept s0 y248 := (State_setF_kept (State_putStore_kept (State_flcDebug_kept h166)))
        refine Kept.ite' (fun _ => ?_) (fun _ => ?_)
        · exact (State_setF_kept h249)
        · extract_lets -merge -useContext +onlyGivenNames y290
          have h291 : Kept s0 y290 := (State_eraseAll_kept h249)
          extract_lets -merge -useContext +onlyGivenNames y332
          have h333 : Kept s0 y332 := (Kept.ite (State_raiseSafe_kept (State_setF_kept h291)) (State_setF_kept h291))
          exact (State_authEnd_kept h333))))

theorem execUnlock_kept {s0 : State} {who : Who} {w : ℕ} {cut : Bool} {t : ℕ} {s : State} (h_s : Kept s0 s) :
    KeptNext s0 (execUnlock who w cut t s) := by
  unfold execUnlock
  exact (KeptNext.next (unlockCmd_kept h_s))

theorem provisionCmd_kept {s0 : State} {who : Who} {w : ℕ} {t : ℕ} {s : State} (h_s : Kept s0 s) :
    Kept s0 (provisionCmd who w t s) := by
  unfold provisionCmd
  exact (State_secOp_kept h_s (fun x0 h1 => (by
    extract_lets -merge -useContext +onlyGivenNames y42
    extract_lets -merge -useContext +onlyGivenNames y83
    extract_lets -merge -useContext +onlyGivenNames y124
    extract_lets -merge -useContext +onlyGivenNames y165
    extract_lets -merge -useContext +onlyGivenNames y206
    extract_lets -merge -useContext +onlyGivenNames y247
    have h248 : Kept s0 y247 := (State_setSecNonce_kept h1)
    clear_value y206
    split
    · exact (State_authEnd_kept h248)
    · refine Kept.ite' (fun _ => ?_) (fun _ => ?_)
      · exact (State_trngFail_kept h248)
      · refine Kept.ite' (fun _ => ?_) (fun _ => ?_)
        · exact (State_authEnd_kept h248)
        · extract_lets -merge -useContext +onlyGivenNames y291
          have h292 : Kept s0 y291 := (State_putStore_kept (State_putStore_kept (State_putStore_kept h248)))
          extract_lets -merge -useContext +onlyGivenNames y333
          have h334 : Kept s0 y333 := (State_putStore_kept (State_putStore_kept h292))
          exact (State_authEnd_kept (Kept.mk' h334)))))

theorem execProvision_kept {s0 : State} {who : Who} {w : ℕ} {t : ℕ} {s : State} (h_s : Kept s0 s) :
    KeptNext s0 (execProvision who w t s) := by
  unfold execProvision
  exact (KeptNext.next (provisionCmd_kept h_s))

theorem attestCmd_kept {s0 : State} {who : Who} {w : ℕ} {t : ℕ} {s : State} (h_s : Kept s0 s) :
    Kept s0 (attestCmd who w t s) := by
  unfold attestCmd
  exact (State_secOp_kept h_s (fun x0 h1 => (by
    extract_lets -merge -useContext +onlyGivenNames y42
    refine Kept.ite' (fun _ => ?_) (fun _ => ?_)
    · exact (State_authEnd_kept h1)
    · refine Kept.ite' (fun _ => ?_) (fun _ => ?_)
      · exact (State_authEnd_kept h1)
      · extract_lets -merge -useContext +onlyGivenNames y83
        have h84 : Kept s0 y83 := (State_store_kept h1)
        exact (State_authEnd_kept (Kept.mk' h84)))))

theorem execAttest_kept {s0 : State} {who : Who} {w : ℕ} {t : ℕ} {s : State} (h_s : Kept s0 s) :
    KeptNext s0 (execAttest who w t s) := by
  unfold execAttest
  exact (KeptNext.next (attestCmd_kept h_s))

theorem State_progressFw_kept {s0 : State} {s : State} {phase : ℕ} {bytes : ℕ} (h_s : Kept s0 s) :
    Kept s0 (State.progressFw s phase bytes) := by
  unfold State.progressFw
  exact (State_setF_kept (State_setF_kept h_s))

theorem State_selectBank_kept {s0 : State} {s : State} {target : ℕ} {k : ℕ} (h_s : Kept s0 s) :
    Kept s0 (State.selectBank s target k) := by
  unfold State.selectBank
  split
  · exact (State_putStore_kept h_s)

theorem firmwareUpdate_kept {s0 : State} {who : Who} {w : ℕ} {upto : ℕ} {t : ℕ} {s : State} (h_s : Kept s0 s) :
    Kept s0 (firmwareUpdate who w upto t s) := by
  unfold firmwareUpdate
  exact (State_secOp_kept h_s (fun x0 h1 => (by
    extract_lets -merge -useContext +onlyGivenNames y42
    extract_lets -merge -useContext +onlyGivenNames y83
    extract_lets -merge -useContext +onlyGivenNames y124
    extract_lets -merge -useContext +onlyGivenNames y165
    extract_lets -merge -useContext +onlyGivenNames y206
    extract_lets -merge -useContext +onlyGivenNames y247
    extract_lets -merge -useContext +onlyGivenNames y288
    have h289 : Kept s0 y288 := (State_progressFw_kept (State_setF_kept (State_setF_kept h1)))
    refine Kept.ite' (fun _ => ?_) (fun _ => ?_)
    · exact (State_authEnd_kept h289)
    · refine Kept.ite' (fun _ => ?_) (fun _ => ?_)
      · exact (State_authEnd_kept h289)
      · refine Kept.ite' (fun _ => ?_) (fun _ => ?_)
        · exact (State_authEnd_kept h289)
        · extract_lets -merge -useContext +onlyGivenNames y330
          extract_lets -merge -useContext +onlyGivenNames y371
          have h372 : Kept s0 y371 := (Kept.ite (State_setFwBank_kept h289) (Kept.ite (State_setFwBank_kept h289) h289))
          split
          · rename_i z373 z374 e375
            have h376 : Kept s0 z374 := Kept2.ofEq e375 (Kept2.ite (State_fresh_kept h372) h372)
            extract_lets -merge -useContext +onlyGivenNames y417
            have h418 : Kept s0 y417 := (State_progressFw_kept (Kept.ite (State_selectBank_kept h376) h376))
            exact (Kept.ite (State_authEnd_kept h418) (State_setF_kept (Kept.mk' h418))))))

theorem execFirmwareUpdate_kept {s0 : State} {who : Who} {w : ℕ} {upto : ℕ} {t : ℕ} {s : State} (h_s : Kept s0 s) :
    KeptNext s0 (execFirmwareUpdate who w upto t s) := by
  unfold execFirmwareUpdate
  exact (KeptNext.next (firmwareUpdate_kept h_s))

theorem State_secReset_kept {s0 : State} {s : State} (h_s : Kept s0 s) :
    Kept s0 (State.secReset s) := by
  unfold State.secReset
  extract_lets -merge -useContext +onlyGivenNames y40
  have h41 : Kept s0 y40 := (Kept.ite (State_setF_kept h_s) h_s)
  exact (Kept.ite (State_setF_kept (Kept.mk' h41)) h41)

theorem State_islandBoot_kept {s0 : State} {s : State} {b : Bool} (h_s : Kept s0 s) :
    Kept s0 (State.islandBoot s b) := by
  unfold State.islandBoot
  extract_lets -merge -useContext +onlyGivenNames y40
  have h41 : Kept s0 y40 := (Kept.ite h_s (State_showSec_kept (State_secReset_kept (State_romErase_kept h_s))))
  extract_lets -merge -useContext +onlyGivenNames y82
  have h83 : Kept s0 y82 := (State_seqFaults_kept h41)
  split
  · rename_i z84 e85
    have h86 : Kept s0 z84 := Kept1.ofEq e85 (State_boot_kept h83)
    extract_lets -merge -useContext +onlyGivenNames y127
    have h128 : Kept s0 y127 := (State_setF_kept (State_setF_kept h86))
    extract_lets -merge -useContext +onlyGivenNames i129
    extract_lets -merge -useContext +onlyGivenNames y169
    have h170 : Kept s0 y169 := (State_setIsl_kept h128)
    exact (State_setPin_kept h170)
  · rename_i z171 e172
    have h173 : Kept s0 z171 := Kept1.ofEq e172 (State_boot_kept h83)
    extract_lets -merge -useContext +onlyGivenNames y214
    have h215 : Kept s0 y214 := (State_failIsland_kept h173)
    exact (State_setIsl_kept h215)

theorem islandReboot_kept {s0 : State} {b : Bool} {t : ℕ} {s : State} (h_s : Kept s0 s) :
    Kept s0 (islandReboot b t s) := by
  unfold islandReboot
  extract_lets -merge -useContext +onlyGivenNames y40
  have h41 : Kept s0 y40 := (State_at_kept h_s)
  split
  · exact h41
  · exact (Kept.ite (State_islandBoot_kept h41) h41)

theorem execIslandReboot_kept {s0 : State} {b : Bool} {t : ℕ} {s : State} (h_s : Kept s0 s) :
    KeptNext s0 (execIslandReboot b t s) := by
  unfold execIslandReboot
  exact (KeptNext.next (islandReboot_kept h_s))

end Sys2Proof.Machine
end

