-- ==== Sys2Proof/Laws/KeptDevice.lean ====
section
/-! SUPPORT. `Kept` for the operations of registers, links, resets, power: one lemma for each. -/

namespace Sys2Proof.Machine

theorem State_writeF_kept {s0 : State} {s : State} {a : ℕ} {f : FD} {w : ℕ} (h_s : Kept s0 s) :
    Kept s0 (State.writeF s a f w) := by
  unfold State.writeF
  split
  · exact (State_setF_kept h_s)
  · exact (State_setF_kept h_s)
  · exact (State_setF_kept h_s)
  · exact h_s
  · exact h_s

theorem State_writeReg_kept {s0 : State} {s : State} {a : ℕ} {fs : List FD} {w : ℕ} (h_s : Kept s0 s) :
    Kept s0 (State.writeReg s a fs w) := by
  unfold State.writeReg
  exact (Kept.foldl h_s (fun x0 x2 h1 => (State_writeF_kept h1)))

theorem State_writeRing_kept {s0 : State} {s : State} {a : ℕ} {w : ℕ} (h_s : Kept s0 s) :
    Kept s0 (State.writeRing s a w) := by
  unfold State.writeRing
  exact (State_writeReg_kept h_s)

theorem State_startWord_kept {s0 : State} {s : State} {a : ℕ} {w : ℕ} (h_s : Kept s0 s) :
    Kept s0 (State.startWord s a w) := by
  unfold State.startWord
  split
  · exact (regionEntryWrite_kept h_s)
  · exact (qcfgHeadWrite_kept h_s)
  · exact (Kept.ite (State_writeRing_kept h_s) (State_writeReg_kept h_s))

theorem State_byIsland_kept {s0 : State} {s : State} {who : Who} {f : State} (h_s : Kept s0 s) (h_f : Kept s0 f) :
    Kept s0 (State.byIsland s who f) := by
  unfold State.byIsland
  exact (Kept.ite h_f (State_refuseAccess_kept h_s))

theorem State_ctrlWrite_kept {s0 : State} {s : State} {who : Who} {u : ℕ} {w : ℕ} (h_s : Kept s0 s) :
    Kept s0 (State.ctrlWrite s who u w) := by
  unfold State.ctrlWrite
  refine Kept.ite' (fun _ => ?_) (fun _ => ?_)
  · exact (State_refuseAccess_kept h_s)
  · exact (Kept.ite (State_ctrlFields_kept h_s) h_s)

theorem State_statusWrite_kept {s0 : State} {s : State} {who : Who} {u : ℕ} {w : ℕ} (h_s : Kept s0 s) :
    Kept s0 (State.statusWrite s who u w) := by
  unfold State.statusWrite
  refine Kept.ite' (fun _ => ?_) (fun _ => ?_)
  · exact (State_refuseAccess_kept h_s)
  · exact (Kept.ite (State_writeReg_kept h_s) h_s)

theorem State_snapRegWrite_kept {s0 : State} {s : State} {who : Who} {u : ℕ} {w : ℕ} (h_s : Kept s0 s) :
    Kept s0 (State.snapRegWrite s who u w) := by
  unfold State.snapRegWrite
  extract_lets -merge -useContext +onlyGivenNames y40
  split
  · exact (State_refuseAccess_kept h_s)
  · refine Kept.ite' (fun _ => ?_) (fun _ => ?_)
    · exact h_s
    · extract_lets -merge -useContext +onlyGivenNames y85
      have h86 : Kept s0 y85 := (State_setF_kept h_s)
      exact (Kept.ite h86 (State_snapEnd_kept h86))

theorem State_unitWrite_kept {s0 : State} {s : State} {who : Who} {u : ℕ} {o : ℕ} {w : ℕ} (h_s : Kept s0 s) :
    Kept s0 (State.unitWrite s who u o w) := by
  unfold State.unitWrite
  refine Kept.ite' (fun _ => ?_) (fun _ => ?_)
  · exact (State_ctrlWrite_kept h_s)
  · refine Kept.ite' (fun _ => ?_) (fun _ => ?_)
    · exact (State_statusWrite_kept h_s)
    · refine Kept.ite' (fun _ => ?_) (fun _ => ?_)
      · exact (State_snapRegWrite_kept h_s)
      · refine Kept.ite' (fun _ => ?_) (fun _ => ?_)
        · exact (State_byIsland_kept h_s h_s)
        · refine Kept.ite' (fun _ => ?_) (fun _ => ?_)
          · exact (Kept.ite h_s (State_refuseAccess_kept h_s))
          · refine Kept.ite' (fun _ => ?_) (fun _ => ?_)
            · exact (State_byIsland_kept h_s (Kept.ite (State_writeReg_kept h_s) h_s))
            · refine Kept.ite' (fun _ => ?_) (fun _ => ?_)
              · exact (State_byIsland_kept h_s (Kept.ite (State_writeReg_kept h_s) h_s))
              · refine Kept.ite' (fun _ => ?_) (fun _ => ?_)
                · extract_lets -merge -useContext +onlyGivenNames y40
                  refine Kept.ite' (fun _ => ?_) (fun _ => ?_)
                  · exact (State_byIsland_kept h_s (State_writeRing_kept h_s))
                  · refine Kept.ite' (fun _ => ?_) (fun _ => ?_)
                    · exact (State_byIsland_kept h_s (State_writeReg_kept h_s))
                    · exact (Kept.ite (State_byIsland_kept h_s h_s) h_s)
                · exact h_s

theorem State_citWrite_kept {s0 : State} {s : State} {who : Who} {n : ℕ} {w : ℕ} (h_s : Kept s0 s) :
    Kept s0 (State.citWrite s who n w) := by
  unfold State.citWrite
  extract_lets -merge -useContext +onlyGivenNames y40
  extract_lets -merge -useContext +onlyGivenNames y81
  exact (Kept.ite (State_writeReg_kept h_s) h_s)

theorem State_apWrite_kept {s0 : State} {s : State} {who : Who} {a : ℕ} {w : ℕ} (h_s : Kept s0 s) :
    Kept s0 (State.apWrite s who a w) := by
  unfold State.apWrite
  split
  · refine Kept.ite' (fun _ => ?_) (fun _ => ?_)
    · exact (State_writeReg_kept h_s)
    · exact (Kept.ite h_s (State_refuseAccess_kept h_s))
  · exact (Kept.ite (State_writeReg_kept h_s) (State_refuseAccess_kept h_s))
  · exact (Kept.ite (State_writeReg_kept h_s) (State_refuseAccess_kept h_s))
  · split
    · exact (Kept.ite (State_timerLevel_kept (State_writeReg_kept h_s)) (State_refuseAccess_kept h_s))
    · exact (State_citWrite_kept h_s)
    · exact (State_msi_kept h_s)
    · refine Kept.ite' (fun _ => ?_) (fun _ => ?_)
      · refine Kept.ite' (fun _ => ?_) (fun _ => ?_)
        · exact (State_refuseAccess_kept h_s)
        · exact (Kept.ite (State_writeReg_kept h_s) h_s)
      · refine Kept.ite' (fun _ => ?_) (fun _ => ?_)
        · exact (Kept.ite (State_writeReg_kept h_s) (State_refuseAccess_kept h_s))
        · exact h_s

theorem State_ifWrite_kept {s0 : State} {s : State} {who : Who} {a : ℕ} {w : ℕ} (h_s : Kept s0 s) :
    Kept s0 (State.ifWrite s who a w) := by
  unfold State.ifWrite
  split
  · exact (State_byIsland_kept h_s (State_writeCamRing_kept h_s))
  · refine Kept.ite' (fun _ => ?_) (fun _ => ?_)
    · exact (Kept.ite (State_byIsland_kept h_s (State_writeReg_kept h_s)) (State_byIsland_kept h_s h_s))
    · split
      · exact h_s
      · refine Kept.ite' (fun _ => ?_) (fun _ => ?_)
        · exact (State_refuseAccess_kept h_s)
        · refine Kept.ite' (fun _ => ?_) (fun _ => ?_)
          · exact h_s
          · refine Kept.ite' (fun _ => ?_) (fun _ => ?_)
            · exact (State_writeRing_kept h_s)
            · extract_lets -merge -useContext +onlyGivenNames y50
              have h51 : Kept s0 y50 := (State_writeReg_kept h_s)
              exact (Kept.ite (State_irqLevel_kept h51) h51)

theorem State_trigWrite_kept {s0 : State} {s : State} {a : ℕ} {w : ℕ} (h_s : Kept s0 s) :
    Kept s0 (State.trigWrite s a w) := by
  unfold State.trigWrite
  split
  · exact (State_writeStrmCfg_kept h_s)
  · refine Kept.ite' (fun _ => ?_) (fun _ => ?_)
    · exact (Kept.ite h_s (State_writeTrigCtrl_kept h_s))
    · refine Kept.ite' (fun _ => ?_) (fun _ => ?_)
      · exact (State_writeTrigCfg_kept h_s)
      · exact (Kept.ite (State_writeTrigCfg_kept h_s) h_s)

theorem State_redWrite_kept {s0 : State} {s : State} {who : Who} {a : ℕ} {w : ℕ} (h_s : Kept s0 s) :
    Kept s0 (State.redWrite s who a w) := by
  unfold State.redWrite
  exact (Kept.ite h_s (State_byIsland_kept h_s (State_writeReg_kept h_s)))

theorem State_linkWrite_kept {s0 : State} {s : State} {who : Who} {a : ℕ} {w : ℕ} (h_s : Kept s0 s) :
    Kept s0 (State.linkWrite s who a w) := by
  unfold State.linkWrite
  exact (Kept.ite (State_byIsland_kept h_s (Kept.ite h_s (Kept.ite (State_writeRing_kept h_s) (State_writeReg_kept h_s)))) h_s)

theorem State_mcWrite_kept {s0 : State} {s : State} {who : Who} {a : ℕ} {w : ℕ} (h_s : Kept s0 s) :
    Kept s0 (State.mcWrite s who a w) := by
  unfold State.mcWrite
  split
  · exact (State_byIsland_kept h_s (Kept.ite (State_writeReg_kept h_s) h_s))
  · extract_lets -merge -useContext +onlyGivenNames y46
    refine Kept.ite' (fun _ => ?_) (fun _ => ?_)
    · refine Kept.ite' (fun _ => ?_) (fun _ => ?_)
      · exact (State_refuseAccess_kept h_s)
      · exact (Kept.ite h_s (State_writeReg_kept h_s))
    · exact h_s

theorem State_flcWrite_kept {s0 : State} {s : State} {who : Who} {a : ℕ} {w : ℕ} (h_s : Kept s0 s) :
    Kept s0 (State.flcWrite s who a w) := by
  unfold State.flcWrite
  extract_lets -merge -useContext +onlyGivenNames y40
  refine Kept.ite' (fun _ => ?_) (fun _ => ?_)
  · exact (Kept.ite (State_putBytes_kept h_s) (State_refuseAccess_kept h_s))
  · refine Kept.ite' (fun _ => ?_) (fun _ => ?_)
    · refine Kept.ite' (fun _ => ?_) (fun _ => ?_)
      · exact (State_refuseAccess_kept h_s)
      · exact (Kept.ite (State_flcEnd_kept h_s) h_s)
    · refine Kept.ite' (fun _ => ?_) (fun _ => ?_)
      · exact h_s
      · exact (Kept.ite (State_refuseAccess_kept h_s) h_s)

theorem State_authWrite_kept {s0 : State} {s : State} {who : Who} {a : ℕ} {w : ℕ} {op : ℕ} {rows : List ℕ} (h_s : Kept s0 s) :
    Kept s0 (State.authWrite s who a w op rows) := by
  unfold State.authWrite
  refine Kept.ite' (fun _ => ?_) (fun _ => ?_)
  · exact (State_refuseAccess_kept h_s)
  · refine Kept.ite' (fun _ => ?_) (fun _ => ?_)
    · exact h_s
    · extract_lets -merge -useContext +onlyGivenNames y40
      have h41 : Kept s0 y40 := (State_setF_kept h_s)
      exact (Kept.ite h41 (State_authEnd_kept h41))

theorem registerWrite_kept {s0 : State} {who : Who} {a : ℕ} {w : ℕ} {s : State} (h_s : Kept s0 s) :
    Kept s0 (registerWrite who a w s) := by
  unfold registerWrite
  refine Kept.ite' (fun _ => ?_) (fun _ => ?_)
  · exact (State_refuseAccess_kept h_s)
  · refine Kept.ite' (fun _ => ?_) (fun _ => ?_)
    · exact h_s
    · refine Kept.ite' (fun _ => ?_) (fun _ => ?_)
      · exact (State_unitWrite_kept h_s)
      · refine Kept.ite' (fun _ => ?_) (fun _ => ?_)
        · exact (State_apWrite_kept h_s)
        · refine Kept.ite' (fun _ => ?_) (fun _ => ?_)
          · exact (State_apWrite_kept h_s)
          · refine Kept.ite' (fun _ => ?_) (fun _ => ?_)
            · exact (State_ifWrite_kept h_s)
            · refine Kept.ite' (fun _ => ?_) (fun _ => ?_)
              · exact h_s
              · refine Kept.ite' (fun _ => ?_) (fun _ => ?_)
                · exact (Kept.ite (State_byIsland_kept h_s (State_writeReg_kept h_s)) h_s)
                · refine Kept.ite' (fun _ => ?_) (fun _ => ?_)
                  · refine Kept.ite' (fun _ => ?_) (fun _ => ?_)
                    · exact (State_refuseAccess_kept h_s)
                    · exact (Kept.ite (State_authWrite_kept h_s) h_s)
                  · refine Kept.ite' (fun _ => ?_) (fun _ => ?_)
                    · exact (Kept.ite h_s (State_byIsland_kept h_s (State_writeReg_kept h_s)))
                    · refine Kept.ite' (fun _ => ?_) (fun _ => ?_)
                      · exact (State_redWrite_kept h_s)
                      · refine Kept.ite' (fun _ => ?_) (fun _ => ?_)
                        · exact (Kept.ite (State_trigWrite_kept h_s) (State_refuseAccess_kept h_s))
                        · refine Kept.ite' (fun _ => ?_) (fun _ => ?_)
                          · exact (State_linkWrite_kept h_s)
                          · refine Kept.ite' (fun _ => ?_) (fun _ => ?_)
                            · exact (State_mcWrite_kept h_s)
                            · refine Kept.ite' (fun _ => ?_) (fun _ => ?_)
                              · exact (State_flcWrite_kept h_s)
                              · refine Kept.ite' (fun _ => ?_) (fun _ => ?_)
                                · refine Kept.ite' (fun _ => ?_) (fun _ => ?_)
                                  · exact (State_refuseAccess_kept h_s)
                                  · exact (Kept.ite (State_authWrite_kept h_s) h_s)
                                · exact h_s

theorem execRegisterWrite_kept {s0 : State} {who : Who} {a : ℕ} {w : ℕ} {s : State} (h_s : Kept s0 s) :
    KeptNext s0 (execRegisterWrite who a w s) := by
  unfold execRegisterWrite
  exact (KeptNext.next (registerWrite_kept h_s))

theorem State_setDir_kept {s0 : State} {s : State} {l : ℕ} {d : ℕ} {x : LinkDir} (h_s : Kept s0 s) :
    Kept s0 (State.setDir s l d x) := by
  unfold State.setDir
  exact (Kept.mk' h_s)

theorem State_setLkState_kept {s0 : State} {s : State} {l : ℕ} {v : ℕ} (h_s : Kept s0 s) :
    Kept s0 (State.setLkState s l v) := by
  unfold State.setLkState
  exact (State_setF_kept h_s)

theorem State_guestPacket_kept {s0 : State} {s : State} {b : List ℕ} (h_s : Kept s0 s) :
    Kept s0 (State.guestPacket s b) := by
  unfold State.guestPacket
  extract_lets -merge -useContext +onlyGivenNames y40
  extract_lets -merge -useContext +onlyGivenNames y81
  extract_lets -merge -useContext +onlyGivenNames y122
  refine Kept.ite' (fun _ => ?_) (fun _ => ?_)
  · exact h_s
  · split
    · extract_lets -merge -useContext +onlyGivenNames y165
      exact (Kept.ite (State_noteRead_kept h_s) (State_refuseAccess_kept h_s))
    · refine Kept.ite' (fun _ => ?_) (fun _ => ?_)
      · exact (Kept.ite (swTailWrite_kept h_s) (pushCmd_kept h_s))
      · exact (Kept.ite (State_writeMem_kept h_s) (State_refuseAccess_kept h_s))
    · exact (State_refuseAccess_kept h_s)
    · exact (State_refuseAccess_kept h_s)
    · exact h_s

theorem packetReceive_kept {s0 : State} {l : ℕ} {d : ℕ} {bytes : List ℕ} {bad : Bool} {t : ℕ} {s : State} (h_s : Kept s0 s) :
    Kept s0 (packetReceive l d bytes bad t s) := by
  unfold packetReceive
  extract_lets -merge -useContext +onlyGivenNames y40
  have h41 : Kept s0 y40 := (State_at_kept h_s)
  extract_lets -merge -useContext +onlyGivenNames y82
  refine Kept.ite' (fun _ => ?_) (fun _ => ?_)
  · exact h41
  · refine Kept.ite' (fun _ => ?_) (fun _ => ?_)
    · exact (Kept.ite (State_setF_kept h41) h41)
    · refine Kept.ite' (fun _ => ?_) (fun _ => ?_)
      · exact h41
      · extract_lets -merge -useContext +onlyGivenNames y123
        extract_lets -merge -useContext +onlyGivenNames y164
        split
        · exact h41
        · extract_lets -merge -useContext +onlyGivenNames y209
          extract_lets -merge -useContext +onlyGivenNames y250
          extract_lets -merge -useContext +onlyGivenNames y291
          have h292 : Kept s0 y291 := (State_setDir_kept h41)
          exact (Kept.ite (State_guestPacket_kept h292) h292)

theorem execPacketReceive_kept {s0 : State} {l : ℕ} {d : ℕ} {bytes : List ℕ} {bad : Bool} {t : ℕ} {s : State} (h_s : Kept s0 s) :
    KeptNext s0 (execPacketReceive l d bytes bad t s) := by
  unfold execPacketReceive
  exact (KeptNext.next (packetReceive_kept h_s))

theorem ackReceive_kept {s0 : State} {l : ℕ} {d : ℕ} {seq : ℕ} {t : ℕ} {s : State} (h_s : Kept s0 s) :
    Kept s0 (ackReceive l d seq t s) := by
  unfold ackReceive
  extract_lets -merge -useContext +onlyGivenNames y40
  have h41 : Kept s0 y40 := (State_at_kept h_s)
  extract_lets -merge -useContext +onlyGivenNames y82
  split
  · exact (State_setDir_kept h41)
  · exact h41

theorem execAckReceive_kept {s0 : State} {l : ℕ} {d : ℕ} {seq : ℕ} {t : ℕ} {s : State} (h_s : Kept s0 s) :
    KeptNext s0 (execAckReceive l d seq t s) := by
  unfold execAckReceive
  exact (KeptNext.next (ackReceive_kept h_s))

theorem State_replayRound_kept {s0 : State} {s : State} {l : ℕ} {d : ℕ} (h_s : Kept s0 s) :
    Kept s0 (State.replayRound s l d) := by
  unfold State.replayRound
  extract_lets -merge -useContext +onlyGivenNames y40
  extract_lets -merge -useContext +onlyGivenNames y81
  have h82 : Kept s0 y81 := (State_setDir_kept h_s)
  extract_lets -merge -useContext +onlyGivenNames y123
  have h124 : Kept s0 y123 := (State_sil1_kept (State_setF_kept h82))
  exact (Kept.ite (State_setLkState_kept h124) h124)

theorem nakReceive_kept {s0 : State} {l : ℕ} {d : ℕ} {seq : ℕ} {t : ℕ} {s : State} (h_s : Kept s0 s) :
    Kept s0 (nakReceive l d seq t s) := by
  unfold nakReceive
  extract_lets -merge -useContext +onlyGivenNames y40
  have h41 : Kept s0 y40 := (State_at_kept h_s)
  exact (Kept.ite (State_replayRound_kept h41) h41)

theorem execNakReceive_kept {s0 : State} {l : ℕ} {d : ℕ} {seq : ℕ} {t : ℕ} {s : State} (h_s : Kept s0 s) :
    KeptNext s0 (execNakReceive l d seq t s) := by
  unfold execNakReceive
  exact (KeptNext.next (nakReceive_kept h_s))

theorem replayTimeout_kept {s0 : State} {l : ℕ} {d : ℕ} {t : ℕ} {s : State} (h_s : Kept s0 s) :
    Kept s0 (replayTimeout l d t s) := by
  unfold replayTimeout
  extract_lets -merge -useContext +onlyGivenNames y40
  have h41 : Kept s0 y40 := (State_at_kept h_s)
  extract_lets -merge -useContext +onlyGivenNames y82
  exact (Kept.ite (State_replayRound_kept h41) h41)

theorem execReplayTimeout_kept {s0 : State} {l : ℕ} {d : ℕ} {t : ℕ} {s : State} (h_s : Kept s0 s) :
    KeptNext s0 (execReplayTimeout l d t s) := by
  unfold execReplayTimeout
  exact (KeptNext.next (replayTimeout_kept h_s))

theorem creditReceive_kept {s0 : State} {l : ℕ} {d : ℕ} {hs : List ℕ} {ds : List ℕ} {s : State} (h_s : Kept s0 s) :
    Kept s0 (creditReceive l d hs ds s) := by
  unfold creditReceive
  exact (Kept.ite h_s (State_setDir_kept h_s))

theorem execCreditReceive_kept {s0 : State} {l : ℕ} {d : ℕ} {hs : List ℕ} {ds : List ℕ} {s : State} (h_s : Kept s0 s) :
    KeptNext s0 (execCreditReceive l d hs ds s) := by
  unfold execCreditReceive
  exact (KeptNext.next (creditReceive_kept h_s))

theorem State_reinject_kept {s0 : State} {s : State} {l : ℕ} {d : ℕ} (h_s : Kept s0 s) :
    Kept s0 (State.reinject s l d) := by
  unfold State.reinject
  extract_lets -merge -useContext +onlyGivenNames y40
  extract_lets -merge -useContext +onlyGivenNames y81
  extract_lets -merge -useContext +onlyGivenNames y122
  extract_lets -merge -useContext +onlyGivenNames y163
  extract_lets -merge -useContext +onlyGivenNames y204
  have h205 : Kept s0 y204 := (Kept.foldl h_s (fun x206 x208 h207 => (by
    split
    · split
      · extract_lets -merge -useContext +onlyGivenNames y254
        exact (State_setDir_kept h207)
      · exact h207)))
  exact (State_setDir_kept h205)

theorem State_withdrawGuest_kept {s0 : State} {s : State} {reason : ℕ} (h_s : Kept s0 s) :
    Kept s0 (State.withdrawGuest s reason) := by
  unfold State.withdrawGuest
  refine Kept.ite' (fun _ => ?_) (fun _ => ?_)
  · exact h_s
  · extract_lets -merge -useContext +onlyGivenNames y40
    have h41 : Kept s0 y40 := (State_setLkState_kept (State_setF_kept (State_setF_kept h_s)))
    extract_lets -merge -useContext +onlyGivenNames y82
    have h83 : Kept s0 y82 := (State_setF_kept (State_setF_kept h41))
    extract_lets -merge -useContext +onlyGivenNames y124
    have h125 : Kept s0 y124 := (Kept.foldl h83 (fun x126 x128 h127 => (State_setF_kept h127)))
    extract_lets -merge -useContext +onlyGivenNames y169
    have h170 : Kept s0 y169 := (Kept.foldl h125 (fun x171 x173 h172 => (State_setF_kept h172)))
    extract_lets -merge -useContext +onlyGivenNames y214
    have h215 : Kept s0 y214 := (State_setF_kept h170)
    exact (State_setCap_kept (Kept.mk' h215))

theorem State_routes_kept {s0 : State} {s : State} (h_s : Kept s0 s) :
    Kept s0 (State.routes s) := by
  unfold State.routes
  extract_lets -merge -useContext +onlyGivenNames y40
  have h41 : Kept s0 y40 := (Kept.foldl h_s (fun x42 x44 h43 => (State_setF_kept h43)))
  extract_lets -merge -useContext +onlyGivenNames y85
  have h86 : Kept s0 y85 := (Kept.ite h41 (State_raiseSafe_kept h41))
  exact (State_setF_kept h86)

theorem State_trainLink_kept {s0 : State} {s : State} {l : ℕ} {bad0 : ℕ} {bad1 : ℕ} {start : Bool} (h_s : Kept s0 s) :
    Kept s0 (State.trainLink s l bad0 bad1 start) := by
  unfold State.trainLink
  extract_lets -merge -useContext +onlyGivenNames y40
  extract_lets -merge -useContext +onlyGivenNames y81
  extract_lets -merge -useContext +onlyGivenNames y122
  extract_lets -merge -useContext +onlyGivenNames y163
  extract_lets -merge -useContext +onlyGivenNames y204
  extract_lets -merge -useContext +onlyGivenNames y245
  have h246 : Kept s0 y245 := (State_setF_kept (State_setF_kept h_s))
  extract_lets -merge -useContext +onlyGivenNames y287
  have h288 : Kept s0 y287 := (State_setF_kept (State_setF_kept h246))
  extract_lets -merge -useContext +onlyGivenNames y329
  have h330 : Kept s0 y329 := (State_setLkState_kept h288)
  refine Kept.ite' (fun _ => ?_) (fun _ => ?_)
  · exact (Kept.foldl h330 (fun x331 x333 h332 => (by
      extract_lets -merge -useContext +onlyGivenNames y374
      exact (State_setDir_kept h332))))
  · extract_lets -merge -useContext +onlyGivenNames y415
    have h416 : Kept s0 y415 := (State_setF_kept h330)
    exact (Kept.foldl h416 (fun x417 x419 h418 => (by
      extract_lets -merge -useContext +onlyGivenNames y460
      have h461 : Kept s0 y460 := (Kept.ite (State_sil1_kept h418) h418)
      exact (State_setDir_kept h461))))

theorem State_linkDown_kept {s0 : State} {s : State} {l : ℕ} (h_s : Kept s0 s) :
    Kept s0 (State.linkDown s l) := by
  unfold State.linkDown
  extract_lets -merge -useContext +onlyGivenNames y40
  have h41 : Kept s0 y40 := (State_routes_kept h_s)
  refine Kept.ite' (fun _ => ?_) (fun _ => ?_)
  · exact (State_failIsland_kept h41)
  · refine Kept.ite' (fun _ => ?_) (fun _ => ?_)
    · exact (State_failIsland_kept h41)
    · refine Kept.ite' (fun _ => ?_) (fun _ => ?_)
      · exact (State_withdrawGuest_kept h41)
      · exact (Kept.ite (State_reinject_kept (State_reinject_kept h41)) h41)

theorem linkRetrain_kept {s0 : State} {l : ℕ} {bad0 : ℕ} {bad1 : ℕ} {t : ℕ} {s : State} (h_s : Kept s0 s) :
    Kept s0 (linkRetrain l bad0 bad1 t s) := by
  unfold linkRetrain
  extract_lets -merge -useContext +onlyGivenNames y40
  have h41 : Kept s0 y40 := (State_at_kept h_s)
  refine Kept.ite' (fun _ => ?_) (fun _ => ?_)
  · exact h41
  · extract_lets -merge -useContext +onlyGivenNames y82
    have h83 : Kept s0 y82 := (State_trainLink_kept h41)
    exact (Kept.ite (State_routes_kept h83) (State_linkDown_kept h83))

theorem execLinkRetrain_kept {s0 : State} {l : ℕ} {bad0 : ℕ} {bad1 : ℕ} {t : ℕ} {s : State} (h_s : Kept s0 s) :
    KeptNext s0 (execLinkRetrain l bad0 bad1 t s) := by
  unfold execLinkRetrain
  exact (KeptNext.next (linkRetrain_kept h_s))

theorem flaconLinkRetry_kept {s0 : State} {bad0 : ℕ} {bad1 : ℕ} {t : ℕ} {s : State} (h_s : Kept s0 s) :
    Kept s0 (flaconLinkRetry bad0 bad1 t s) := by
  unfold flaconLinkRetry
  extract_lets -merge -useContext +onlyGivenNames y40
  have h41 : Kept s0 y40 := (State_at_kept h_s)
  exact (Kept.ite (State_routes_kept (State_trainLink_kept h41)) h41)

theorem execFlaconLinkRetry_kept {s0 : State} {bad0 : ℕ} {bad1 : ℕ} {t : ℕ} {s : State} (h_s : Kept s0 s) :
    KeptNext s0 (execFlaconLinkRetry bad0 bad1 t s) := by
  unfold execFlaconLinkRetry
  exact (KeptNext.next (flaconLinkRetry_kept h_s))

theorem linkTestMode_kept {s0 : State} {who : Who} {l : ℕ} {w : ℕ} {bad0 : ℕ} {bad1 : ℕ} {t : ℕ} {s : State} (h_s : Kept s0 s) :
    Kept s0 (linkTestMode who l w bad0 bad1 t s) := by
  unfold linkTestMode
  extract_lets -merge -useContext +onlyGivenNames y40
  have h41 : Kept s0 y40 := (State_at_kept h_s)
  extract_lets -merge -useContext +onlyGivenNames y82
  extract_lets -merge -useContext +onlyGivenNames y123
  extract_lets -merge -useContext +onlyGivenNames y164
  refine Kept.ite' (fun _ => ?_) (fun _ => ?_)
  · exact (State_refuseAccess_kept h41)
  · refine Kept.ite' (fun _ => ?_) (fun _ => ?_)
    · exact h41
    · refine Kept.ite' (fun _ => ?_) (fun _ => ?_)
      · exact (Kept.ite (State_routes_kept (State_setLkState_kept (State_setF_kept (State_setF_kept h41)))) h41)
      · refine Kept.ite' (fun _ => ?_) (fun _ => ?_)
        · extract_lets -merge -useContext +onlyGivenNames y205
          have h206 : Kept s0 y205 := (State_setF_kept (State_setF_kept h41))
          refine Kept.ite' (fun _ => ?_) (fun _ => ?_)
          · extract_lets -merge -useContext +onlyGivenNames y247
            have h248 : Kept s0 y247 := (State_trainLink_kept h206)
            exact (Kept.ite (State_routes_kept h248) (State_linkDown_kept h248))
          · exact h206
        · exact h41

theorem execLinkTestMode_kept {s0 : State} {who : Who} {l : ℕ} {w : ℕ} {bad0 : ℕ} {bad1 : ℕ} {t : ℕ} {s : State} (h_s : Kept s0 s) :
    KeptNext s0 (execLinkTestMode who l w bad0 bad1 t s) := by
  unfold execLinkTestMode
  exact (KeptNext.next (linkTestMode_kept h_s))

theorem State_accessEnds_kept {s0 : State} {s : State} {u : ℕ} {st : Strm} (h_s : Kept s0 s) :
    Kept s0 (State.accessEnds s u st) := by
  unfold State.accessEnds
  refine Kept.ite' (fun _ => ?_) (fun _ => ?_)
  · split
    · exact (State_cellError_kept h_s)
    · exact h_s
  · exact (Kept.ite (State_engEnd_kept h_s) h_s)

theorem bondUncorrectable_kept {s0 : State} {cd : ℕ} {u : ℕ} {st : Strm} {t : ℕ} {s : State} (h_s : Kept s0 s) :
    Kept s0 (bondUncorrectable cd u st t s) := by
  unfold bondUncorrectable
  extract_lets -merge -useContext +onlyGivenNames y40
  have h41 : Kept s0 y40 := (State_at_kept h_s)
  refine Kept.ite' (fun _ => ?_) (fun _ => ?_)
  · exact h41
  · extract_lets -merge -useContext +onlyGivenNames y82
    extract_lets -merge -useContext +onlyGivenNames y123
    have h124 : Kept s0 y123 := (State_accessEnds_kept h41)
    extract_lets -merge -useContext +onlyGivenNames i125
    extract_lets -merge -useContext +onlyGivenNames y165
    have h166 : Kept s0 y165 := (Kept.mk' h124)
    clear_value y82
    split
    · exact (Kept.ite (Kept.foldl h166 (fun x168 x170 h169 => (by
        extract_lets -merge -useContext +onlyGivenNames y211
        exact (Kept.ite h169 (State_capacityLost_kept (State_takeOut_kept h169)))))) h166)
    · exact h166

theorem execBondUncorrectable_kept {s0 : State} {cd : ℕ} {u : ℕ} {st : Strm} {t : ℕ} {s : State} (h_s : Kept s0 s) :
    KeptNext s0 (execBondUncorrectable cd u st t s) := by
  unfold execBondUncorrectable
  exact (KeptNext.next (bondUncorrectable_kept h_s))

theorem State_mainReset_kept {s0 s : State} (h : Kept s0 s) : Kept s0 s.mainReset := by
  unfold State.mainReset
  extract_lets a b c d r r1 r2
  have h0 : Kept s0 d := ⟨h.q, h.n, fun w => Tab.wf_filter (h.m w)⟩
  have h1 : Kept s0 r := State_cutWrites_kept (State_dropMode_kept h0)
  have h2 : Kept s0 r1 := Kept.ite h1 (State_inMode_kept h1)
  have h3 : Kept s0 r2 := Kept.foldl h2 (fun _ _ g => State_setCause_kept g)
  exact State_setF_kept (State_showNonce_kept h3)

theorem State_coldReset_kept {s0 s : State} (h : Kept s0 s) : Kept s0 s.coldReset := by
  unfold State.coldReset
  extract_lets a b r
  have h0 : Kept s0 r := ⟨h.q, h.n, fun w => Tab.wf_filter (h.m w)⟩
  exact State_cutWrites_kept h0

theorem State_saveNow_kept {s0 : State} {s : State} {id : ℕ} {v : StoreVal} (h_s : Kept s0 s) :
    Kept s0 (State.saveNow s id v) := by
  unfold State.saveNow
  exact (Kept.ite (State_failStore_kept h_s) (State_putStore_kept h_s))

theorem State_flushShut_kept {s0 : State} {s : State} (h_s : Kept s0 s) :
    Kept s0 (State.flushShut s) := by
  unfold State.flushShut
  extract_lets -merge -useContext +onlyGivenNames y40
  have h41 : Kept s0 y40 := (Kept.foldl h_s (fun x42 x44 h43 => (by
    split
    · exact (State_saveNow_kept h43))))
  exact (Kept.mk' h41)

theorem State_fixQueues_kept {s0 : State} {s : State} (h_s : Kept s0 s) :
    Kept s0 (State.fixQueues s) := by
  unfold State.fixQueues
  extract_lets -merge -useContext +onlyGivenNames y40
  exact (Kept.foldl h_s (fun x41 x43 h42 => (by
    split
    · extract_lets -merge -useContext +onlyGivenNames y87
      extract_lets -merge -useContext +onlyGivenNames y128
      have h129 : Kept s0 y128 := (State_setF_kept (State_setF_kept (State_setF_kept h42)))
      exact (Kept.ite h129 (State_setF_kept h129)))))

theorem State_blotterEntries_kept {s0 : State} {s : State} (h_s : Kept s0 s) :
    Kept s0 (State.blotterEntries s) := by
  unfold State.blotterEntries
  exact (Kept.foldl h_s (fun x0 x2 h1 => (Kept.ite h1 (State_writeSched_kept h1))))

theorem State_writeConfig_kept {s0 : State} {s : State} (h_s : Kept s0 s) :
    Kept s0 (State.writeConfig s) := by
  unfold State.writeConfig
  extract_lets -merge -useContext +onlyGivenNames y40
  extract_lets -merge -useContext +onlyGivenNames y81
  have h82 : Kept s0 y81 := (Kept.foldl h_s (fun x83 x85 h84 => (by
    split
    · split
      · exact (Kept.ite h84 (State_startWord_kept h84))
      · exact (State_startWord_kept h84))))
  extract_lets -merge -useContext +onlyGivenNames y134
  have h135 : Kept s0 y134 := (Kept.mk' h82)
  exact (Kept.ite h135 h_s)

theorem State_loadConfig_kept {s0 : State} {s : State} (h_s : Kept s0 s) :
    Kept s0 (State.loadConfig s) := by
  unfold State.loadConfig
  extract_lets -merge -useContext +onlyGivenNames y40
  extract_lets -merge -useContext +onlyGivenNames y81
  extract_lets -merge -useContext +onlyGivenNames y122
  have h123 : Kept s0 y122 := (Kept.mk' h_s)
  extract_lets -merge -useContext +onlyGivenNames y164
  have h165 : Kept s0 y164 := (State_blotterEntries_kept (State_fixQueues_kept (Kept.ite (State_writeConfig_kept h123) h123)))
  extract_lets -merge -useContext +onlyGivenNames y206
  have h207 : Kept s0 y206 := (Kept.foldl h165 (fun x208 x210 h209 => (by
    split
    · exact (State_setF_kept (State_setF_kept h209)))))
  exact (State_setF_kept h207)

theorem State_injectionTest_kept {s0 : State} {s : State} {pass : ℕ} (h_s : Kept s0 s) :
    Kept s0 (State.injectionTest s pass) := by
  unfold State.injectionTest
  extract_lets -merge -useContext +onlyGivenNames y40
  extract_lets -merge -useContext +onlyGivenNames y81
  have h82 : Kept s0 y81 := (State_setF_kept h_s)
  refine Kept.ite' (fun _ => ?_) (fun _ => ?_)
  · exact (State_raiseSafe_kept (State_setCause_kept (State_setF_kept h82)))
  · extract_lets -merge -useContext +onlyGivenNames y123
    have h124 : Kept s0 y123 := (State_setF_kept (State_setF_kept (State_setF_kept h82)))
    extract_lets -merge -useContext +onlyGivenNames i125
    extract_lets -merge -useContext +onlyGivenNames y165
    have h166 : Kept s0 y165 := (Kept.mk' h124)
    exact (State_clearSafe_kept (State_setCause_kept (State_setCause_kept h166)))

theorem State_memoryTest_kept {s0 : State} {s : State} {st : Start} (h_s : Kept s0 s) :
    Kept s0 (State.memoryTest s st) := by
  unfold State.memoryTest
  extract_lets -merge -useContext +onlyGivenNames y40
  extract_lets -merge -useContext +onlyGivenNames y81
  extract_lets -merge -useContext +onlyGivenNames y122
  have h123 : Kept s0 y122 := (State_setF_kept (State_setF_kept h_s))
  extract_lets -merge -useContext +onlyGivenNames y164
  have h165 : Kept s0 y164 := (Kept.foldl h123 (fun x166 x168 h167 => (Kept.ite (State_setUnitState_kept h167) h167)))
  extract_lets -merge -useContext +onlyGivenNames y209
  exact (State_setCause_kept (State_setF_kept h165))

theorem State_trainAll_kept {s0 : State} {s : State} {bad : List ℕ} (h_s : Kept s0 s) :
    Kept s0 (State.trainAll s bad) := by
  unfold State.trainAll
  extract_lets -merge -useContext +onlyGivenNames y40
  have h41 : Kept s0 y40 := (Kept.foldl h_s (fun x42 x44 h43 => (Kept.ite h43 (State_trainLink_kept h43))))
  extract_lets -merge -useContext +onlyGivenNames y85
  have h86 : Kept s0 y85 := (State_routes_kept h41)
  extract_lets -merge -useContext +onlyGivenNames y127
  have h128 : Kept s0 y127 := (Kept.ite h86 (State_failIsland_kept h86))
  exact (Kept.ite h128 (State_failIsland_kept h128))

theorem State_refuseGuest_kept {s0 : State} {s : State} {k : ℕ} (h_s : Kept s0 s) :
    Kept s0 (State.refuseGuest s k) := by
  unfold State.refuseGuest
  exact (State_setF_kept (State_setF_kept h_s))

theorem State_admitGuest_kept {s0 : State} {s : State} {g : GuestSite} {bad0 : ℕ} {bad1 : ℕ} (h_s : Kept s0 s) :
    Kept s0 (State.admitGuest s g bad0 bad1) := by
  unfold State.admitGuest
  extract_lets -merge -useContext +onlyGivenNames y40
  have h41 : Kept s0 y40 := (State_setF_kept h_s)
  refine Kept.ite' (fun _ => ?_) (fun _ => ?_)
  · exact (State_refuseGuest_kept h41)
  · extract_lets -merge -useContext +onlyGivenNames y82
    have h83 : Kept s0 y82 := (State_trainLink_kept h41)
    refine Kept.ite' (fun _ => ?_) (fun _ => ?_)
    · exact (State_refuseGuest_kept h83)
    · refine Kept.ite' (fun _ => ?_) (fun _ => ?_)
      · exact (State_refuseGuest_kept h83)
      · extract_lets -merge -useContext +onlyGivenNames y124
        extract_lets -merge -useContext +onlyGivenNames y165
        refine Kept.ite' (fun _ => ?_) (fun _ => ?_)
        · exact (State_refuseGuest_kept h83)
        · extract_lets -merge -useContext +onlyGivenNames y206
          have h207 : Kept s0 y206 := (State_setF_kept (State_setF_kept h83))
          extract_lets -merge -useContext +onlyGivenNames y248
          have h249 : Kept s0 y248 := (State_setF_kept (State_setF_kept h207))
          extract_lets -merge -useContext +onlyGivenNames y290
          have h291 : Kept s0 y290 := (State_setF_kept (State_setF_kept h249))
          exact (State_setF_kept (State_setF_kept h291))

theorem State_guestStart_kept {s0 : State} {s : State} {st : Start} (h_s : Kept s0 s) :
    Kept s0 (State.guestStart s st) := by
  unfold State.guestStart
  refine Kept.ite' (fun _ => ?_) (fun _ => ?_)
  · exact h_s
  · split
    · exact h_s
    · exact (State_admitGuest_kept h_s)

theorem State_startReplay_kept {s0 : State} {s : State} (h_s : Kept s0 s) :
    Kept s0 (State.startReplay s) := by
  unfold State.startReplay
  refine Kept.ite' (fun _ => ?_) (fun _ => ?_)
  · exact h_s
  · extract_lets -merge -useContext +onlyGivenNames y40
    have h41 : Kept s0 y40 := (State_setF_kept (State_setF_kept (State_setF_kept h_s)))
    extract_lets -merge -useContext +onlyGivenNames y82
    have h83 : Kept s0 y82 := (State_setF_kept h41)
    exact (State_writeTrigCtrl_kept h83)

theorem State_startUnits_kept {s0 : State} {s : State} {warm : Bool} (h_s : Kept s0 s) :
    Kept s0 (State.startUnits s warm) := by
  unfold State.startUnits
  extract_lets -merge -useContext +onlyGivenNames y40
  have h41 : Kept s0 y40 := (Kept.foldl h_s (fun x42 x44 h43 => (State_setUnit_kept h43)))
  extract_lets -merge -useContext +onlyGivenNames y85
  have h86 : Kept s0 y85 := (State_startAttn_kept h41)
  extract_lets -merge -useContext +onlyGivenNames i87
  extract_lets -merge -useContext +onlyGivenNames y127
  have h128 : Kept s0 y127 := (Kept.mk' h86)
  exact (Kept.ite (State_setF_kept h128) h128)

theorem State_bringUp_kept {s0 : State} {s : State} {st : Start} {warm : Bool} {lost : Bool} {quiet : Bool} (h_s : Kept s0 s) :
    Kept s0 (State.bringUp s st warm lost quiet) := by
  unfold State.bringUp
  extract_lets -merge -useContext +onlyGivenNames y40
  have h41 : Kept s0 y40 := (State_flushShut_kept (State_setF_kept h_s))
  extract_lets -merge -useContext +onlyGivenNames y82
  have h83 : Kept s0 y82 := (State_seqFaults_kept h41)
  extract_lets -merge -useContext +onlyGivenNames y124
  have h125 : Kept s0 y124 := (Kept.ite (State_loadCal_kept (State_loadQuar_kept h83)) h83)
  extract_lets -merge -useContext +onlyGivenNames y166
  have h167 : Kept s0 y166 := (State_setF_kept (State_setF_kept (State_loadSil_kept h125)))
  extract_lets -merge -useContext +onlyGivenNames y208
  have h209 : Kept s0 y208 := (Kept.ite (State_event_kept h167) h167)
  extract_lets -merge -useContext +onlyGivenNames y250
  have h251 : Kept s0 y250 := (State_showSec_kept (State_secReset_kept h209))
  extract_lets -merge -useContext +onlyGivenNames y292
  have h293 : Kept s0 y292 := (State_trainAll_kept h251)
  extract_lets -merge -useContext +onlyGivenNames y334
  have h335 : Kept s0 y334 := (State_loadConfig_kept h293)
  extract_lets -merge -useContext +onlyGivenNames y376
  have h377 : Kept s0 y376 := (State_startDebug_kept h335)
  extract_lets -merge -useContext +onlyGivenNames y418
  have h419 : Kept s0 y418 := (State_injectionTest_kept (State_memoryTest_kept h377))
  extract_lets -merge -useContext +onlyGivenNames y460
  have h461 : Kept s0 y460 := (Kept.foldl h419 (fun x462 x464 h463 => (Kept.ite (State_binFailure_kept h463) h463)))
  extract_lets -merge -useContext +onlyGivenNames y505
  have h506 : Kept s0 y505 := (State_guestStart_kept (State_startUnits_kept h461))
  extract_lets -merge -useContext +onlyGivenNames y547
  have h548 : Kept s0 y547 := (Kept.foldl h506 (fun x549 x551 h550 => (by
    split
    · exact (State_setF_kept h550))))
  extract_lets -merge -useContext +onlyGivenNames i554
  extract_lets -merge -useContext +onlyGivenNames y594
  have h595 : Kept s0 y594 := (Kept.mk' h548)
  exact (State_startReplay_kept (State_setRails_kept (State_setDivider_kept (State_setCap_kept h595))))

theorem State_startCause_kept {s0 : State} {s : State} {cause : ℕ} {warm : Bool} (h_s : Kept s0 s) :
    Kept s0 (State.startCause s cause warm) := by
  unfold State.startCause
  exact (State_setF_kept (State_setF_kept h_s))

theorem State_beginWarm_kept {s0 : State} {s : State} {ladder : Bool} (h_s : Kept s0 s) :
    Kept s0 (State.beginWarm s ladder) := by
  unfold State.beginWarm
  extract_lets -merge -useContext +onlyGivenNames y40
  have h41 : Kept s0 y40 := (Kept.ite (State_raiseSafe_kept h_s) h_s)
  refine Kept.ite' (fun _ => ?_) (fun _ => ?_)
  · exact h41
  · extract_lets -merge -useContext +onlyGivenNames y82
    extract_lets -merge -useContext +onlyGivenNames y123
    extract_lets -merge -useContext +onlyGivenNames i124
    extract_lets -merge -useContext +onlyGivenNames y164
    have h165 : Kept s0 y164 := (Kept.mk' h41)
    exact (Kept.ite (State_raiseSafe_kept h165) h165)

theorem State_warmStart_kept {s0 : State} {s : State} {st : Start} {cause : ℕ} (h_s : Kept s0 s) :
    Kept s0 (State.warmStart s st cause) := by
  unfold State.warmStart
  extract_lets -merge -useContext +onlyGivenNames y40
  have h41 : Kept s0 y40 := (State_startCause_kept h_s)
  extract_lets -merge -useContext +onlyGivenNames i42
  extract_lets -merge -useContext +onlyGivenNames y82
  have h83 : Kept s0 y82 := (Kept.mk' h41)
  refine Kept.ite' (fun _ => ?_) (fun _ => ?_)
  · exact h83
  · split
    · rename_i z84 e85
      have h86 : Kept s0 z84 := Kept1.ofEq e85 (State_boot_kept h83)
      exact (State_raiseSafe_kept h86)
    · rename_i z87 e88
      have h89 : Kept s0 z87 := Kept1.ofEq e88 (State_boot_kept h83)
      exact (State_bringUp_kept (State_clearSafe_kept h89))

theorem State_coldStart_kept {s0 : State} {s : State} {st : Start} {cause : ℕ} (h_s : Kept s0 s) :
    Kept s0 (State.coldStart s st cause) := by
  unfold State.coldStart
  extract_lets -merge -useContext +onlyGivenNames y40
  have h41 : Kept s0 y40 := (State_startCause_kept (State_coldReset_kept h_s))
  extract_lets -merge -useContext +onlyGivenNames y82
  have h83 : Kept s0 y82 := (Kept.ite (State_flcRestart_kept h41) h41)
  extract_lets -merge -useContext +onlyGivenNames y124
  have h125 : Kept s0 y124 := (State_islandBoot_kept (State_islandBoot_kept h83))
  refine Kept.ite' (fun _ => ?_) (fun _ => ?_)
  · exact h125
  · extract_lets -merge -useContext +onlyGivenNames y166
    extract_lets -merge -useContext +onlyGivenNames y207
    have h208 : Kept s0 y207 := (State_putStore_kept h125)
    split
    · rename_i z209 e210
      have h211 : Kept s0 z209 := Kept1.ofEq e210 (State_boot_kept h208)
      exact h211
    · rename_i z212 e213
      have h214 : Kept s0 z212 := Kept1.ofEq e213 (State_boot_kept h208)
      exact (State_bringUp_kept h214)

theorem State_holdMain_kept {s0 : State} {s : State} {k : ℕ} {ladder : Bool} (h_s : Kept s0 s) :
    Kept s0 (State.holdMain s k ladder) := by
  unfold State.holdMain
  extract_lets -merge -useContext +onlyGivenNames i0
  extract_lets -merge -useContext +onlyGivenNames y40
  have h41 : Kept s0 y40 := (Kept.mk' h_s)
  exact (Kept.ite h41 (State_mainReset_kept (Kept.ite (State_beginWarm_kept h41) h41)))

theorem State_releaseMain_kept {s0 : State} {s : State} {st : Start} {k : ℕ} {cause : ℕ} (h_s : Kept s0 s) :
    Kept s0 (State.releaseMain s st k cause) := by
  unfold State.releaseMain
  extract_lets -merge -useContext +onlyGivenNames i0
  extract_lets -merge -useContext +onlyGivenNames y40
  have h41 : Kept s0 y40 := (Kept.mk' h_s)
  exact (Kept.ite (State_warmStart_kept h41) h41)

theorem State_runtimeReq_kept {s0 : State} {s : State} {p : ℕ} {t : ℕ} {want : ℕ → Bool} {ok : ℕ → ℕ → Bool} {anyClass : Bool} {f : State → ℕ → State × ℕ} (h_s : Kept s0 s) (h_f : ∀ u0 u1, Kept s0 u0 → Kept s0 (f u0 u1).1) :
    Kept s0 (State.runtimeReq s p t want ok anyClass f) := by
  unfold State.runtimeReq
  extract_lets -merge -useContext +onlyGivenNames y42
  have h43 : Kept s0 y42 := (State_at_kept h_s)
  extract_lets -merge -useContext +onlyGivenNames y84
  refine Kept.ite' (fun _ => ?_) (fun _ => ?_)
  · exact h43
  · split
    · exact h43
    · extract_lets -merge -useContext +onlyGivenNames y129
      have h130 : Kept s0 y129 := (State_takeRequest_kept h43)
      extract_lets -merge -useContext +onlyGivenNames y171
      refine Kept.ite' (fun _ => ?_) (fun _ => ?_)
      · exact (State_answer_kept h130)
      · refine Kept.ite' (fun _ => ?_) (fun _ => ?_)
        · exact (State_answer_kept h130)
        · split
          · rename_i z172 z173 e174
            have h175 : Kept s0 z172 := Kept1.ofEq e174 (h_f _ _ h130)
            exact (State_answer_kept h175)

theorem modeCmd_kept {s0 : State} {p : ℕ} {t : ℕ} {s : State} (h_s : Kept s0 s) :
    Kept s0 (modeCmd p t s) := by
  unfold modeCmd
  exact (State_runtimeReq_kept h_s (fun x0 x2 h1 => (Kept1.ite h1 (Kept1.ite h1 (State_askMode_kept h1)))))

theorem execModeRequest_kept {s0 : State} {p : ℕ} {t : ℕ} {s : State} (h_s : Kept s0 s) :
    KeptNext s0 (execModeRequest p t s) := by
  unfold execModeRequest
  exact (KeptNext.next (modeCmd_kept h_s))

theorem drydownCmd_kept {s0 : State} {p : ℕ} {t : ℕ} {s : State} (h_s : Kept s0 s) :
    Kept s0 (drydownCmd p t s) := by
  unfold drydownCmd
  exact (State_runtimeReq_kept h_s (fun x0 x2 h1 => (by
    try dsimp only
    exact (Kept.mk' h1))))

theorem execDrydown_kept {s0 : State} {p : ℕ} {t : ℕ} {s : State} (h_s : Kept s0 s) :
    KeptNext s0 (execDrydown p t s) := by
  unfold execDrydown
  exact (KeptNext.next (drydownCmd_kept h_s))

theorem safeEnter_kept {s0 : State} {p : ℕ} {t : ℕ} {s : State} (h_s : Kept s0 s) :
    Kept s0 (safeEnter p t s) := by
  unfold safeEnter
  exact (State_runtimeReq_kept h_s (fun x0 x2 h1 => (by
    try dsimp only
    exact (State_raiseSafe_kept h1))))

theorem execSafeEnter_kept {s0 : State} {p : ℕ} {t : ℕ} {s : State} (h_s : Kept s0 s) :
    KeptNext s0 (execSafeEnter p t s) := by
  unfold execSafeEnter
  exact (KeptNext.next (safeEnter_kept h_s))

theorem safeClear_kept {s0 : State} {p : ℕ} {t : ℕ} {s : State} (h_s : Kept s0 s) :
    Kept s0 (safeClear p t s) := by
  unfold safeClear
  exact (State_runtimeReq_kept h_s (fun x0 x2 h1 => (by
    try dsimp only
    exact (State_clearSafe_kept h1))))

theorem execSafeClear_kept {s0 : State} {p : ℕ} {t : ℕ} {s : State} (h_s : Kept s0 s) :
    KeptNext s0 (execSafeClear p t s) := by
  unfold execSafeClear
  exact (KeptNext.next (safeClear_kept h_s))

theorem unitResetRequest_kept {s0 : State} {p : ℕ} {t : ℕ} {s : State} (h_s : Kept s0 s) :
    Kept s0 (unitResetRequest p t s) := by
  unfold unitResetRequest
  exact (State_runtimeReq_kept h_s (fun x0 x2 h1 => (Kept1.ite (State_unitReset_kept h1) h1)))

theorem execUnitResetRequest_kept {s0 : State} {p : ℕ} {t : ℕ} {s : State} (h_s : Kept s0 s) :
    KeptNext s0 (execUnitResetRequest p t s) := by
  unfold execUnitResetRequest
  exact (KeptNext.next (unitResetRequest_kept h_s))

theorem warmResetRequest_kept {s0 : State} {p : ℕ} {t : ℕ} {s : State} (h_s : Kept s0 s) :
    Kept s0 (warmResetRequest p t s) := by
  unfold warmResetRequest
  exact (State_runtimeReq_kept h_s (fun x0 x2 h1 => (Kept1.ite h1 (State_beginWarm_kept h1))))

theorem execWarmResetRequest_kept {s0 : State} {p : ℕ} {t : ℕ} {s : State} (h_s : Kept s0 s) :
    KeptNext s0 (execWarmResetRequest p t s) := by
  unfold execWarmResetRequest
  exact (KeptNext.next (warmResetRequest_kept h_s))

theorem warmReset_kept {s0 : State} {st : Start} {t : ℕ} {s : State} (h_s : Kept s0 s) :
    Kept s0 (warmReset st t s) := by
  unfold warmReset
  extract_lets -merge -useContext +onlyGivenNames y40
  have h41 : Kept s0 y40 := (State_at_kept h_s)
  refine Kept.ite' (fun _ => ?_) (fun _ => ?_)
  · exact h41
  · refine Kept.ite' (fun _ => ?_) (fun _ => ?_)
    · exact h41
    · extract_lets -merge -useContext +onlyGivenNames y82
      have h83 : Kept s0 y82 := (State_beginWarm_kept h41)
      extract_lets -merge -useContext +onlyGivenNames y124
      extract_lets -merge -useContext +onlyGivenNames y165
      have h166 : Kept s0 y165 := (Kept.ite h83 (State_saveNow_kept (State_cutWrites_kept h83)))
      extract_lets -merge -useContext +onlyGivenNames i167
      extract_lets -merge -useContext +onlyGivenNames y207
      have h208 : Kept s0 y207 := (Kept.mk' h166)
      exact (State_releaseMain_kept (State_mainReset_kept h208))

theorem execWarmReset_kept {s0 : State} {st : Start} {t : ℕ} {s : State} (h_s : Kept s0 s) :
    KeptNext s0 (execWarmReset st t s) := by
  unfold execWarmReset
  exact (KeptNext.next (warmReset_kept h_s))

theorem powerCycle_kept {s0 : State} {t : ℕ} {s : State} (h_s : Kept s0 s) :
    Kept s0 (powerCycle t s) := by
  unfold powerCycle
  extract_lets -merge -useContext +onlyGivenNames y40
  have h41 : Kept s0 y40 := (State_at_kept h_s)
  split
  · exact (Kept.ite (State_raiseSafe_kept h41) h41)
  · exact h41

theorem execPowerCycle_kept {s0 : State} {t : ℕ} {s : State} (h_s : Kept s0 s) :
    KeptNext s0 (execPowerCycle t s) := by
  unfold execPowerCycle
  exact (KeptNext.next (powerCycle_kept h_s))

theorem guestPowerSample_kept {s0 : State} {mw : ℕ} {t : ℕ} {s : State} (h_s : Kept s0 s) :
    Kept s0 (guestPowerSample mw t s) := by
  unfold guestPowerSample
  extract_lets -merge -useContext +onlyGivenNames y40
  have h41 : Kept s0 y40 := (State_at_kept h_s)
  refine Kept.ite' (fun _ => ?_) (fun _ => ?_)
  · exact h41
  · extract_lets -merge -useContext +onlyGivenNames y82
    extract_lets -merge -useContext +onlyGivenNames y123
    extract_lets -merge -useContext +onlyGivenNames i124
    extract_lets -merge -useContext +onlyGivenNames i125
    extract_lets -merge -useContext +onlyGivenNames y164
    have h165 : Kept s0 y164 := (Kept.mk' h41)
    extract_lets -merge -useContext +onlyGivenNames y206
    have h207 : Kept s0 y206 := (State_setCap_kept (State_setF_kept h165))
    exact (Kept.ite (State_withdrawGuest_kept h207) h207)

theorem execGuestPowerSample_kept {s0 : State} {mw : ℕ} {t : ℕ} {s : State} (h_s : Kept s0 s) :
    KeptNext s0 (execGuestPowerSample mw t s) := by
  unfold execGuestPowerSample
  exact (KeptNext.next (guestPowerSample_kept h_s))

theorem guestFence_kept {s0 : State} {who : Who} {w : ℕ} {s : State} (h_s : Kept s0 s) :
    Kept s0 (guestFence who w s) := by
  unfold guestFence
  refine Kept.ite' (fun _ => ?_) (fun _ => ?_)
  · exact (State_refuseAccess_kept h_s)
  · exact (Kept.ite (State_withdrawGuest_kept (State_setF_kept h_s)) h_s)

theorem execGuestFence_kept {s0 : State} {who : Who} {w : ℕ} {s : State} (h_s : Kept s0 s) :
    KeptNext s0 (execGuestFence who w s) := by
  unfold execGuestFence
  exact (KeptNext.next (guestFence_kept h_s))

theorem gstWinWrite_kept {s0 : State} {who : Who} {n : ℕ} {w : ℕ} {s : State} (h_s : Kept s0 s) :
    Kept s0 (gstWinWrite who n w s) := by
  unfold gstWinWrite
  extract_lets -merge -useContext +onlyGivenNames y40
  refine Kept.ite' (fun _ => ?_) (fun _ => ?_)
  · exact (State_refuseAccess_kept h_s)
  · refine Kept.ite' (fun _ => ?_) (fun _ => ?_)
    · exact h_s
    · extract_lets -merge -useContext +onlyGivenNames y81
      refine Kept.ite' (fun _ => ?_) (fun _ => ?_)
      · exact (Kept.ite (State_writeReg_kept h_s) h_s)
      · exact (State_writeReg_kept h_s)

theorem execGstWinWrite_kept {s0 : State} {who : Who} {n : ℕ} {w : ℕ} {s : State} (h_s : Kept s0 s) :
    KeptNext s0 (execGstWinWrite who n w s) := by
  unfold execGstWinWrite
  exact (KeptNext.next (gstWinWrite_kept h_s))

theorem tckCmd_kept {s0 : State} {tms : Bool} {tdi : Bool} {s : State} (h_s : Kept s0 s) :
    Kept s0 (tckCmd tms tdi s) := by
  unfold tckCmd
  extract_lets -merge -useContext +onlyGivenNames y40
  extract_lets -merge -useContext +onlyGivenNames y81
  refine Kept.ite' (fun _ => ?_) (fun _ => ?_)
  · split
    · rename_i z82 z83 e84
      have h85 : Kept s0 z83 := Kept2.ofEq e84 (State_fresh_kept h_s)
      exact (Kept.mk' h85)
  · exact (Kept.mk' h_s)

theorem execTck_kept {s0 : State} {tms : Bool} {tdi : Bool} {s : State} (h_s : Kept s0 s) :
    KeptNext s0 (execTck tms tdi s) := by
  unfold execTck
  exact (KeptNext.next (tckCmd_kept h_s))

theorem State_pcieAnswer_kept {s0 : State} {s : State} {status : ℕ} {data : List ℕ} (h_s : Kept s0 s) :
    Kept s0 (State.pcieAnswer s status data) := by
  unfold State.pcieAnswer
  exact (State_setPort_kept h_s)

theorem State_pcieRefuse_kept {s0 : State} {s : State} (h_s : Kept s0 s) :
    Kept s0 (State.pcieRefuse s) := by
  unfold State.pcieRefuse
  exact (State_pcieAnswer_kept (State_refuseAccess_kept h_s))

theorem State_pcieRead_kept {s0 : State} {s : State} {a : ℕ} {n : ℕ} (h_s : Kept s0 s) :
    Kept s0 (State.pcieRead s a n) := by
  unfold State.pcieRead
  extract_lets -merge -useContext +onlyGivenNames y40
  refine Kept.ite' (fun _ => ?_) (fun _ => ?_)
  · exact (State_pcieRefuse_kept h_s)
  · exact (Kept.ite (State_pcieAnswer_kept (State_countEcc_kept h_s)) (State_pcieAnswer_kept (State_readEffect_kept h_s)))

theorem State_pcieWrite_kept {s0 : State} {s : State} {a : ℕ} {b : List ℕ} (h_s : Kept s0 s) :
    Kept s0 (State.pcieWrite s a b) := by
  unfold State.pcieWrite
  extract_lets -merge -useContext +onlyGivenNames y40
  exact (Kept.ite (State_pcieAnswer_kept (State_writeMem_kept h_s)) (State_pcieRefuse_kept h_s))

theorem State_bar0Read_kept {s0 : State} {s : State} {off : ℕ} {n : ℕ} (h_s : Kept s0 s) :
    Kept s0 (State.bar0Read s off n) := by
  unfold State.bar0Read
  extract_lets -merge -useContext +onlyGivenNames y40
  extract_lets -merge -useContext +onlyGivenNames y81
  exact (Kept.ite (State_pcieRefuse_kept h_s) (State_pcieAnswer_kept h_s))

theorem State_rigWord_kept {s0 : State} {s : State} {a : ℕ} {w : ℕ} (h_s : Kept s0 s) :
    Kept s0 (State.rigWord s a w) := by
  unfold State.rigWord
  exact (Kept.ite (rigStep_kept h_s) (rigInj_kept h_s))

theorem State_bar0Write_kept {s0 : State} {s : State} {off : ℕ} {b : List ℕ} (h_s : Kept s0 s) :
    Kept s0 (State.bar0Write s off b) := by
  unfold State.bar0Write
  extract_lets -merge -useContext +onlyGivenNames y40
  refine Kept.ite' (fun _ => ?_) (fun _ => ?_)
  · extract_lets -merge -useContext +onlyGivenNames y81
    extract_lets -merge -useContext +onlyGivenNames y122
    extract_lets -merge -useContext +onlyGivenNames y163
    extract_lets -merge -useContext +onlyGivenNames y204
    have h205 : Kept s0 y204 := (Kept.ite (State_rigWord_kept h_s) h_s)
    extract_lets -merge -useContext +onlyGivenNames y246
    have h247 : Kept s0 y246 := (Kept.ite (State_rigWord_kept h205) h205)
    exact (State_pcieAnswer_kept h247)
  · exact (State_pcieRefuse_kept h_s)

theorem State_bar2Write_kept {s0 : State} {s : State} {off : ℕ} {b : List ℕ} (h_s : Kept s0 s) :
    Kept s0 (State.bar2Write s off b) := by
  unfold State.bar2Write
  extract_lets -merge -useContext +onlyGivenNames y40
  extract_lets -merge -useContext +onlyGivenNames y81
  refine Kept.ite' (fun _ => ?_) (fun _ => ?_)
  · exact (State_pcieRefuse_kept h_s)
  · refine Kept.ite' (fun _ => ?_) (fun _ => ?_)
    · exact (State_pcieRefuse_kept h_s)
    · exact (Kept.ite (State_pcieAnswer_kept (pushCmd_kept h_s)) (State_pcieAnswer_kept (swTailWrite_kept h_s)))

theorem State_bar2Read_kept {s0 : State} {s : State} {off : ℕ} {n : ℕ} (h_s : Kept s0 s) :
    Kept s0 (State.bar2Read s off n) := by
  unfold State.bar2Read
  refine Kept.ite' (fun _ => ?_) (fun _ => ?_)
  · exact (State_pcieRefuse_kept h_s)
  · extract_lets -merge -useContext +onlyGivenNames y40
    extract_lets -merge -useContext +onlyGivenNames y81
    exact (State_pcieAnswer_kept h_s)

theorem pcieInboundRequest_kept {s0 : State} {bar : ℕ} {off : ℕ} {wr : Bool} {bytes : List ℕ} {len : ℕ} {s : State} (h_s : Kept s0 s) :
    Kept s0 (pcieInboundRequest bar off wr bytes len s) := by
  unfold pcieInboundRequest
  extract_lets -merge -useContext +onlyGivenNames y40
  extract_lets -merge -useContext +onlyGivenNames y81
  refine Kept.ite' (fun _ => ?_) (fun _ => ?_)
  · exact (State_pcieAnswer_kept h_s)
  · refine Kept.ite' (fun _ => ?_) (fun _ => ?_)
    · refine Kept.ite' (fun _ => ?_) (fun _ => ?_)
      · split
        · exact (Kept.ite (State_pcieAnswer_kept (State_msi_kept h_s)) (State_pcieRefuse_kept h_s))
        · exact (State_pcieWrite_kept h_s)
      · exact (State_pcieRead_kept h_s)
    · split
      · exact (Kept.ite (State_bar0Write_kept h_s) (State_bar0Read_kept h_s))
      · exact (Kept.ite (State_bar2Write_kept h_s) (State_bar2Read_kept h_s))
      · refine Kept.ite' (fun _ => ?_) (fun _ => ?_)
        · exact (State_pcieRefuse_kept h_s)
        · exact (Kept.ite (State_pcieWrite_kept h_s) (State_pcieRead_kept h_s))
      · exact (State_pcieRefuse_kept h_s)

theorem execPcieInboundRequest_kept {s0 : State} {bar : ℕ} {off : ℕ} {wr : Bool} {bytes : List ℕ} {len : ℕ} {s : State} (h_s : Kept s0 s) :
    KeptNext s0 (execPcieInboundRequest bar off wr bytes len s) := by
  unfold execPcieInboundRequest
  exact (KeptNext.next (pcieInboundRequest_kept h_s))

theorem State_railsOff_kept {s0 : State} {s : State} (h_s : Kept s0 s) :
    Kept s0 (State.railsOff s) := by
  unfold State.railsOff
  extract_lets -merge -useContext +onlyGivenNames y40
  have h41 : Kept s0 y40 := (Kept.foldl h_s (fun x42 x44 h43 => (State_setF_kept h43)))
  exact (Kept.mk' h41)

theorem State_latchFault_kept {s0 : State} {s : State} {code : ℕ} {supply : ℕ} (h_s : Kept s0 s) :
    Kept s0 (State.latchFault s code supply) := by
  unfold State.latchFault
  refine Kept.ite' (fun _ => ?_) (fun _ => ?_)
  · exact h_s
  · extract_lets -merge -useContext +onlyGivenNames y40
    have h41 : Kept s0 y40 := (State_setF_kept (State_setF_kept (State_setF_kept h_s)))
    exact (State_railsOff_kept (Kept.mk' h41))

theorem pwrEnRise_kept {s0 : State} {t : ℕ} {s : State} (h_s : Kept s0 s) :
    Kept s0 (pwrEnRise t s) := by
  unfold pwrEnRise
  extract_lets -merge -useContext +onlyGivenNames y40
  have h41 : Kept s0 y40 := (State_at_kept h_s)
  refine Kept.ite' (fun _ => ?_) (fun _ => ?_)
  · exact h41
  · extract_lets -merge -useContext +onlyGivenNames y82
    extract_lets -merge -useContext +onlyGivenNames i83
    extract_lets -merge -useContext +onlyGivenNames y123
    have h124 : Kept s0 y123 := (Kept.mk' h41)
    refine Kept.ite' (fun _ => ?_) (fun _ => ?_)
    · exact h124
    · split
      · exact (State_latchFault_kept h124)
      · exact (Kept.mk' h124)

theorem execPwrEnRise_kept {s0 : State} {t : ℕ} {s : State} (h_s : Kept s0 s) :
    KeptNext s0 (execPwrEnRise t s) := by
  unfold execPwrEnRise
  exact (KeptNext.next (pwrEnRise_kept h_s))

theorem State_railsOn_kept {s0 : State} {s : State} {g : ℕ} (h_s : Kept s0 s) :
    Kept s0 (State.railsOn s g) := by
  unfold State.railsOn
  extract_lets -merge -useContext +onlyGivenNames y40
  have h41 : ∀ u45 u46, Kept s0 u45 → Kept s0 (y40 u45 u46) := (fun x42 x44 h43 => (State_setF_kept (State_setF_kept h43)))
  extract_lets -merge -useContext +onlyGivenNames y87
  have h88 : Kept s0 y87 := (Kept.foldl h_s h41)
  extract_lets -merge -useContext +onlyGivenNames y129
  have h130 : Kept s0 y129 := (Kept.ite (Kept.foldl h88 h41) h88)
  extract_lets -merge -useContext +onlyGivenNames y171
  have h172 : Kept s0 y171 := (Kept.ite (State_setF_kept (State_setF_kept h130)) h130)
  exact (Kept.ite (State_setRails_kept h172) h172)

theorem railGroupGood_kept {s0 : State} {st : Start} {t : ℕ} {s : State} (h_s : Kept s0 s) :
    Kept s0 (railGroupGood st t s) := by
  unfold railGroupGood
  extract_lets -merge -useContext +onlyGivenNames y40
  have h41 : Kept s0 y40 := (State_at_kept h_s)
  refine Kept.ite' (fun _ => ?_) (fun _ => ?_)
  · exact h41
  · extract_lets -merge -useContext +onlyGivenNames y82
    refine Kept.ite' (fun _ => ?_) (fun _ => ?_)
    · exact (State_latchFault_kept h41)
    · extract_lets -merge -useContext +onlyGivenNames y123
      have h124 : Kept s0 y123 := (State_railsOn_kept h41)
      extract_lets -merge -useContext +onlyGivenNames i125
      extract_lets -merge -useContext +onlyGivenNames y165
      have h166 : Kept s0 y165 := (Kept.mk' h124)
      refine Kept.ite' (fun _ => ?_) (fun _ => ?_)
      · exact h166
      · extract_lets -merge -useContext +onlyGivenNames y207
        have h208 : Kept s0 y207 := (Kept.ite h166 (Kept.foldl h166 (fun x209 x211 h210 => (State_clrF_kept h210))))
        extract_lets -merge -useContext +onlyGivenNames i212
        extract_lets -merge -useContext +onlyGivenNames y252
        have h253 : Kept s0 y252 := (Kept.mk' h208)
        refine Kept.ite' (fun _ => ?_) (fun _ => ?_)
        · exact (State_releaseMain_kept (State_beginWarm_kept h253))
        · exact (Kept.ite h253 (State_coldStart_kept h253))

theorem execRailGroupGood_kept {s0 : State} {st : Start} {t : ℕ} {s : State} (h_s : Kept s0 s) :
    KeptNext s0 (execRailGroupGood st t s) := by
  unfold execRailGroupGood
  exact (KeptNext.next (railGroupGood_kept h_s))

theorem State_showMon_kept {s0 : State} {s : State} {n : ℕ} {v : ℕ} (h_s : Kept s0 s) :
    Kept s0 (State.showMon s n v) := by
  unfold State.showMon
  extract_lets -merge -useContext +onlyGivenNames y40
  extract_lets -merge -useContext +onlyGivenNames y81
  have h82 : Kept s0 y81 := (State_setF_kept h_s)
  exact (State_setF_kept (State_setF_kept h82))

theorem State_seqSample_kept {s0 : State} {s : State} {v : ℕ → ℕ} (h_s : Kept s0 s) :
    Kept s0 (State.seqSample s v) := by
  unfold State.seqSample
  extract_lets -merge -useContext +onlyGivenNames y40
  extract_lets -merge -useContext +onlyGivenNames y81
  have h82 : Kept s0 y81 := (Kept.foldl h_s (fun x83 x85 h84 => (by
    extract_lets -merge -useContext +onlyGivenNames y126
    extract_lets -merge -useContext +onlyGivenNames y167
    exact (Kept.mk' h84))))
  extract_lets -merge -useContext +onlyGivenNames y208
  extract_lets -merge -useContext +onlyGivenNames i209
  extract_lets -merge -useContext +onlyGivenNames y249
  have h250 : Kept s0 y249 := (Kept.mk' h82)
  extract_lets -merge -useContext +onlyGivenNames y291
  extract_lets -merge -useContext +onlyGivenNames y332
  refine Kept.ite' (fun _ => ?_) (fun _ => ?_)
  · refine Kept.ite' (fun _ => ?_) (fun _ => ?_)
    · exact h250
    · refine Kept.ite' (fun _ => ?_) (fun _ => ?_)
      · exact (State_latchFault_kept h250)
      · refine Kept.ite' (fun _ => ?_) (fun _ => ?_)
        · exact h250
        · split
          · exact (State_latchFault_kept h250)
          · exact h250
  · refine Kept.ite' (fun _ => ?_) (fun _ => ?_)
    · exact (State_latchFault_kept h250)
    · refine Kept.ite' (fun _ => ?_) (fun _ => ?_)
      · exact (State_latchFault_kept h250)
      · exact (Kept.ite (State_latchFault_kept h250) h250)

theorem State_judgeIslands_kept {s0 : State} {s : State} (h_s : Kept s0 s) :
    Kept s0 (State.judgeIslands s) := by
  unfold State.judgeIslands
  extract_lets -merge -useContext +onlyGivenNames y40
  have h41 : Kept s0 y40 := (Kept.ite (State_failIsland_kept h_s) h_s)
  exact (Kept.ite (State_failIsland_kept h41) h41)

theorem State_judgeRails_kept {s0 : State} {s : State} (h_s : Kept s0 s) :
    Kept s0 (State.judgeRails s) := by
  unfold State.judgeRails
  extract_lets -merge -useContext +onlyGivenNames y40
  extract_lets -merge -useContext +onlyGivenNames y81
  extract_lets -merge -useContext +onlyGivenNames i82
  extract_lets -merge -useContext +onlyGivenNames y122
  have h123 : Kept s0 y122 := (Kept.ite (Kept.mk' h_s) h_s)
  refine Kept.ite' (fun _ => ?_) (fun _ => ?_)
  · exact (Kept.ite (State_raiseSafe_kept h123) h123)
  · exact (Kept.ite (State_clearSafe_kept h123) h123)

theorem supplyMonitorSample_kept {s0 : State} {mv : List ℕ} {t : ℕ} {s : State} (h_s : Kept s0 s) :
    Kept s0 (supplyMonitorSample mv t s) := by
  unfold supplyMonitorSample
  extract_lets -merge -useContext +onlyGivenNames y40
  have h41 : Kept s0 y40 := (State_at_kept h_s)
  extract_lets -merge -useContext +onlyGivenNames y82
  extract_lets -merge -useContext +onlyGivenNames y123
  have h124 : Kept s0 y123 := (State_setF_kept h41)
  extract_lets -merge -useContext +onlyGivenNames y165
  have h166 : Kept s0 y165 := (Kept.foldl h124 (fun x167 x169 h168 => (State_showMon_kept h168)))
  extract_lets -merge -useContext +onlyGivenNames y210
  have h211 : Kept s0 y210 := (State_seqSample_kept (State_setF_kept h166))
  extract_lets -merge -useContext +onlyGivenNames y252
  extract_lets -merge -useContext +onlyGivenNames y293
  extract_lets -merge -useContext +onlyGivenNames i294
  extract_lets -merge -useContext +onlyGivenNames y334
  have h335 : Kept s0 y334 := (Kept.mk' h211)
  extract_lets -merge -useContext +onlyGivenNames y376
  have h377 : Kept s0 y376 := (Kept.ite (State_dropMode_kept h335) h335)
  refine Kept.ite' (fun _ => ?_) (fun _ => ?_)
  · exact (Kept.ite (State_judgeIslands_kept h377) h377)
  · extract_lets -merge -useContext +onlyGivenNames y418
    have h419 : Kept s0 y418 := (State_judgeIslands_kept (State_judgeRails_kept h377))
    exact (Kept.ite h419 (Kept.foldl h419 (fun x420 x422 h421 => (Kept.ite (State_extreme_kept h421) h421))))

theorem execSupplyMonitorSample_kept {s0 : State} {mv : List ℕ} {t : ℕ} {s : State} (h_s : Kept s0 s) :
    KeptNext s0 (execSupplyMonitorSample mv t s) := by
  unfold execSupplyMonitorSample
  exact (KeptNext.next (supplyMonitorSample_kept h_s))

theorem vbusLowThroughput_kept {s0 : State} {t : ℕ} {s : State} (h_s : Kept s0 s) :
    Kept s0 (vbusLowThroughput t s) := by
  unfold vbusLowThroughput
  extract_lets -merge -useContext +onlyGivenNames y40
  have h41 : Kept s0 y40 := (State_at_kept h_s)
  split
  · exact (Kept.ite (State_askMode_kept h41) h41)
  · exact h41

theorem execVbusLowThroughput_kept {s0 : State} {t : ℕ} {s : State} (h_s : Kept s0 s) :
    KeptNext s0 (execVbusLowThroughput t s) := by
  unfold execVbusLowThroughput
  exact (KeptNext.next (vbusLowThroughput_kept h_s))

theorem pwrEnFall_kept {s0 : State} {t : ℕ} {s : State} (h_s : Kept s0 s) :
    Kept s0 (pwrEnFall t s) := by
  unfold pwrEnFall
  extract_lets -merge -useContext +onlyGivenNames y40
  have h41 : Kept s0 y40 := (State_at_kept h_s)
  refine Kept.ite' (fun _ => ?_) (fun _ => ?_)
  · exact h41
  · extract_lets -merge -useContext +onlyGivenNames i42
    extract_lets -merge -useContext +onlyGivenNames y82
    have h83 : Kept s0 y82 := (Kept.mk' h41)
    extract_lets -merge -useContext +onlyGivenNames y124
    have h125 : Kept s0 y124 := (State_setF_kept h83)
    extract_lets -merge -useContext +onlyGivenNames y166
    have h167 : Kept s0 y166 := (Kept.ite (Kept.mk' h125) h125)
    extract_lets -merge -useContext +onlyGivenNames y208
    have h209 : Kept s0 y208 := (Kept.ite (State_mainReset_kept h167) h167)
    exact (State_railsOff_kept h209)

theorem execPwrEnFall_kept {s0 : State} {t : ℕ} {s : State} (h_s : Kept s0 s) :
    KeptNext s0 (execPwrEnFall t s) := by
  unfold execPwrEnFall
  exact (KeptNext.next (pwrEnFall_kept h_s))

theorem vbusLoss_kept {s0 : State} {t : ℕ} {s : State} (h_s : Kept s0 s) :
    Kept s0 (vbusLoss t s) := by
  unfold vbusLoss
  extract_lets -merge -useContext +onlyGivenNames y40
  have h41 : Kept s0 y40 := (State_at_kept h_s)
  refine Kept.ite' (fun _ => ?_) (fun _ => ?_)
  · exact h41
  · extract_lets -merge -useContext +onlyGivenNames y82
    have h83 : Kept s0 y82 := (State_railsOff_kept (State_holdMain_kept h41))
    extract_lets -merge -useContext +onlyGivenNames i84
    extract_lets -merge -useContext +onlyGivenNames y124
    have h125 : Kept s0 y124 := (Kept.mk' h83)
    exact (Kept.ite (State_raiseSafe_kept h125) h125)

theorem execVbusLoss_kept {s0 : State} {t : ℕ} {s : State} (h_s : Kept s0 s) :
    KeptNext s0 (execVbusLoss t s) := by
  unfold execVbusLoss
  exact (KeptNext.next (vbusLoss_kept h_s))

theorem vbusRestore_kept {s0 : State} {t : ℕ} {s : State} (h_s : Kept s0 s) :
    Kept s0 (vbusRestore t s) := by
  unfold vbusRestore
  extract_lets -merge -useContext +onlyGivenNames y40
  have h41 : Kept s0 y40 := (State_at_kept h_s)
  exact (Kept.ite (Kept.mk' h41) h41)

theorem execVbusRestore_kept {s0 : State} {t : ℕ} {s : State} (h_s : Kept s0 s) :
    KeptNext s0 (execVbusRestore t s) := by
  unfold execVbusRestore
  exact (KeptNext.next (vbusRestore_kept h_s))

theorem porstNLow_kept {s0 : State} {t : ℕ} {s : State} (h_s : Kept s0 s) :
    Kept s0 (porstNLow t s) := by
  unfold porstNLow
  extract_lets -merge -useContext +onlyGivenNames y40
  have h41 : Kept s0 y40 := (State_at_kept h_s)
  extract_lets -merge -useContext +onlyGivenNames i42
  extract_lets -merge -useContext +onlyGivenNames y82
  have h83 : Kept s0 y82 := (Kept.mk' h41)
  exact (State_coldReset_kept h83)

theorem execPorstNLow_kept {s0 : State} {t : ℕ} {s : State} (h_s : Kept s0 s) :
    KeptNext s0 (execPorstNLow t s) := by
  unfold execPorstNLow
  exact (KeptNext.next (porstNLow_kept h_s))

theorem porstNRelease_kept {s0 : State} {st : Start} {t : ℕ} {s : State} (h_s : Kept s0 s) :
    Kept s0 (porstNRelease st t s) := by
  unfold porstNRelease
  extract_lets -merge -useContext +onlyGivenNames y40
  have h41 : Kept s0 y40 := (State_at_kept h_s)
  refine Kept.ite' (fun _ => ?_) (fun _ => ?_)
  · exact h41
  · extract_lets -merge -useContext +onlyGivenNames i42
    extract_lets -merge -useContext +onlyGivenNames y82
    have h83 : Kept s0 y82 := (Kept.mk' h41)
    exact (Kept.ite (State_coldStart_kept h83) h83)

theorem execPorstNRelease_kept {s0 : State} {st : Start} {t : ℕ} {s : State} (h_s : Kept s0 s) :
    KeptNext s0 (execPorstNRelease st t s) := by
  unfold execPorstNRelease
  exact (KeptNext.next (porstNRelease_kept h_s))

theorem resetNLow_kept {s0 : State} {t : ℕ} {s : State} (h_s : Kept s0 s) :
    Kept s0 (resetNLow t s) := by
  unfold resetNLow
  extract_lets -merge -useContext +onlyGivenNames y40
  have h41 : Kept s0 y40 := (State_at_kept h_s)
  exact (Kept.ite h41 (State_holdMain_kept h41))

theorem execResetNLow_kept {s0 : State} {t : ℕ} {s : State} (h_s : Kept s0 s) :
    KeptNext s0 (execResetNLow t s) := by
  unfold execResetNLow
  exact (KeptNext.next (resetNLow_kept h_s))

theorem resetNRelease_kept {s0 : State} {st : Start} {t : ℕ} {s : State} (h_s : Kept s0 s) :
    Kept s0 (resetNRelease st t s) := by
  unfold resetNRelease
  extract_lets -merge -useContext +onlyGivenNames y40
  have h41 : Kept s0 y40 := (State_at_kept h_s)
  exact (Kept.ite h41 (State_releaseMain_kept h41))

theorem execResetNRelease_kept {s0 : State} {st : Start} {t : ℕ} {s : State} (h_s : Kept s0 s) :
    KeptNext s0 (execResetNRelease st t s) := by
  unfold execResetNRelease
  exact (KeptNext.next (resetNRelease_kept h_s))

theorem clockFault_kept {s0 : State} {t : ℕ} {s : State} (h_s : Kept s0 s) :
    Kept s0 (clockFault t s) := by
  unfold clockFault
  extract_lets -merge -useContext +onlyGivenNames y40
  have h41 : Kept s0 y40 := (State_at_kept h_s)
  extract_lets -merge -useContext +onlyGivenNames y82
  have h83 : Kept s0 y82 := (State_holdMain_kept (State_setF_kept h41))
  exact (Kept.ite (State_raiseSafe_kept h83) h83)

theorem execClockFault_kept {s0 : State} {t : ℕ} {s : State} (h_s : Kept s0 s) :
    KeptNext s0 (execClockFault t s) := by
  unfold execClockFault
  exact (KeptNext.next (clockFault_kept h_s))

theorem State_limitPower_kept {s0 : State} {s : State} {sum : ℕ} (h_s : Kept s0 s) :
    Kept s0 (State.limitPower s sum) := by
  unfold State.limitPower
  extract_lets -merge -useContext +onlyGivenNames y40
  extract_lets -merge -useContext +onlyGivenNames y81
  extract_lets -merge -useContext +onlyGivenNames y122
  extract_lets -merge -useContext +onlyGivenNames y163
  extract_lets -merge -useContext +onlyGivenNames y204
  extract_lets -merge -useContext +onlyGivenNames i205
  extract_lets -merge -useContext +onlyGivenNames y245
  have h246 : Kept s0 y245 := (Kept.mk' h_s)
  refine Kept.ite' (fun _ => ?_) (fun _ => ?_)
  · exact (Kept.mk' h246)
  · clear_value y204
    split
    · exact (Kept.ite (Kept.mk' h246) h246)
    · exact h246

theorem powerLimiterSample_kept {s0 : State} {mw : ℕ} {ma : ℕ} {t : ℕ} {s : State} (h_s : Kept s0 s) :
    Kept s0 (powerLimiterSample mw ma t s) := by
  unfold powerLimiterSample
  extract_lets -merge -useContext +onlyGivenNames y40
  have h41 : Kept s0 y40 := (State_at_kept h_s)
  extract_lets -merge -useContext +onlyGivenNames y82
  extract_lets -merge -useContext +onlyGivenNames y123
  extract_lets -merge -useContext +onlyGivenNames i124
  extract_lets -merge -useContext +onlyGivenNames y164
  have h165 : Kept s0 y164 := (Kept.mk' h41)
  extract_lets -merge -useContext +onlyGivenNames y206
  have h207 : Kept s0 y206 := (State_setF_kept (State_setF_kept h165))
  exact (Kept.ite (State_limitPower_kept h207) h207)

theorem execPowerLimiterSample_kept {s0 : State} {mw : ℕ} {ma : ℕ} {t : ℕ} {s : State} (h_s : Kept s0 s) :
    KeptNext s0 (execPowerLimiterSample mw ma t s) := by
  unfold execPowerLimiterSample
  exact (KeptNext.next (powerLimiterSample_kept h_s))

theorem voltageRamp_kept {s0 : State} {t : ℕ} {s : State} (h_s : Kept s0 s) :
    Kept s0 (voltageRamp t s) := by
  unfold voltageRamp
  extract_lets -merge -useContext +onlyGivenNames y40
  have h41 : Kept s0 y40 := (State_at_kept h_s)
  exact (Kept.ite (State_setRails_kept h41) h41)

theorem execVoltageRamp_kept {s0 : State} {t : ℕ} {s : State} (h_s : Kept s0 s) :
    KeptNext s0 (execVoltageRamp t s) := by
  unfold execVoltageRamp
  exact (KeptNext.next (voltageRamp_kept h_s))

theorem State_showSensors_kept {s0 : State} {s : State} {d : ℕ} {l : List ℕ} (h_s : Kept s0 s) :
    Kept s0 (State.showSensors s d l) := by
  unfold State.showSensors
  exact (Kept.foldl h_s (fun x0 x2 h1 => (by
    split
    · exact (State_setF_kept h1)
    · exact (State_setF_kept (Kept.ite (State_noBin_kept h1) h1)))))

theorem State_thermSillage_kept {s0 : State} {s : State} (h_s : Kept s0 s) :
    Kept s0 (State.thermSillage s) := by
  unfold State.thermSillage
  extract_lets -merge -useContext +onlyGivenNames y40
  extract_lets -merge -useContext +onlyGivenNames y81
  have h82 : Kept s0 y81 := (Kept.foldl h_s (fun x83 x85 h84 => (by
    split
    · extract_lets -merge -useContext +onlyGivenNames y130
      have h131 : Kept s0 y130 := (State_extreme_kept (State_extreme_kept h84))
      exact (Kept.ite (State_sil1_kept h131) h131)
    · exact h84)))
  exact (Kept.ite (Kept.mk' h82) h82)

theorem State_thermStep_kept {s0 : State} {s : State} {d : ℕ} (h_s : Kept s0 s) :
    Kept s0 (State.thermStep s d) := by
  unfold State.thermStep
  exact (Kept.mk' h_s)

theorem State_thermControl_kept {s0 : State} {s : State} {tj : ℤ} (h_s : Kept s0 s) :
    Kept s0 (State.thermControl s tj) := by
  unfold State.thermControl
  extract_lets -merge -useContext +onlyGivenNames y40
  extract_lets -merge -useContext +onlyGivenNames y81
  extract_lets -merge -useContext +onlyGivenNames y122
  extract_lets -merge -useContext +onlyGivenNames y163
  extract_lets -merge -useContext +onlyGivenNames y204
  extract_lets -merge -useContext +onlyGivenNames y245
  extract_lets -merge -useContext +onlyGivenNames i246
  extract_lets -merge -useContext +onlyGivenNames y286
  have h287 : Kept s0 y286 := (Kept.mk' h_s)
  extract_lets -merge -useContext +onlyGivenNames y328
  have h329 : Kept s0 y328 := (Kept.ite (State_raiseSafe_kept h287) (Kept.ite (State_clearSafe_kept h287) h287))
  refine Kept.ite' (fun _ => ?_) (fun _ => ?_)
  · exact (State_thermStep_kept h329)
  · exact (Kept.ite (State_thermStep_kept h329) h329)

theorem thermalSample_kept {s0 : State} {vals : List ℕ} {t : ℕ} {s : State} (h_s : Kept s0 s) :
    Kept s0 (thermalSample vals t s) := by
  unfold thermalSample
  extract_lets -merge -useContext +onlyGivenNames y40
  have h41 : Kept s0 y40 := (State_at_kept h_s)
  extract_lets -merge -useContext +onlyGivenNames y82
  have h83 : Kept s0 y82 := (Kept.foldl h41 (fun x84 x86 h85 => (State_showSensors_kept h85)))
  extract_lets -merge -useContext +onlyGivenNames y127
  have h128 : Kept s0 y127 := (Kept.ite (State_thermSillage_kept h83) h83)
  extract_lets -merge -useContext +onlyGivenNames y169
  have h170 : Kept s0 y169 := (Kept.ite (State_thermControl_kept h128) h128)
  split
  · exact (Kept.ite (State_withdrawGuest_kept h170) h170)
  · exact h170

theorem execThermalSample_kept {s0 : State} {vals : List ℕ} {t : ℕ} {s : State} (h_s : Kept s0 s) :
    KeptNext s0 (execThermalSample vals t s) := by
  unfold execThermalSample
  exact (KeptNext.next (thermalSample_kept h_s))

theorem thermalTrip_kept {s0 : State} {d : ℕ} {t : ℕ} {s : State} (h_s : Kept s0 s) :
    Kept s0 (thermalTrip d t s) := by
  unfold thermalTrip
  extract_lets -merge -useContext +onlyGivenNames y40
  have h41 : Kept s0 y40 := (State_at_kept h_s)
  refine Kept.ite' (fun _ => ?_) (fun _ => ?_)
  · exact (State_setF_kept (State_holdMain_kept (Kept.mk' h41)))
  · refine Kept.ite' (fun _ => ?_) (fun _ => ?_)
    · exact (State_failIsland_kept h41)
    · exact (Kept.ite (State_failIsland_kept h41) h41)

theorem execThermalTrip_kept {s0 : State} {d : ℕ} {t : ℕ} {s : State} (h_s : Kept s0 s) :
    KeptNext s0 (execThermalTrip d t s) := by
  unfold execThermalTrip
  exact (KeptNext.next (thermalTrip_kept h_s))

theorem tripRelease_kept {s0 : State} {st : Start} {t : ℕ} {s : State} (h_s : Kept s0 s) :
    Kept s0 (tripRelease st t s) := by
  unfold tripRelease
  extract_lets -merge -useContext +onlyGivenNames y40
  have h41 : Kept s0 y40 := (State_at_kept h_s)
  exact (Kept.ite (State_releaseMain_kept (State_beginWarm_kept h41)) h41)

theorem execTripRelease_kept {s0 : State} {st : Start} {t : ℕ} {s : State} (h_s : Kept s0 s) :
    KeptNext s0 (execTripRelease st t s) := by
  unfold execTripRelease
  exact (KeptNext.next (tripRelease_kept h_s))

theorem State_coolNext_kept {s0 : State} {s : State} {rise : ℤ} {like : Bool} {sum : ℕ} {pw : ℕ} {before : List (ℕ × ℕ)} (h_s : Kept s0 s) :
    Kept s0 (State.coolNext s rise like sum pw before) := by
  unfold State.coolNext
  split
  · exact (Kept.ite (State_setF_kept (Kept.mk' h_s)) h_s)
  · refine Kept.ite' (fun _ => ?_) (fun _ => ?_)
    · exact (Kept.mk' h_s)
    · exact (Kept.ite (State_askMode_kept (State_setF_kept (Kept.mk' h_s))) h_s)
  · refine Kept.ite' (fun _ => ?_) (fun _ => ?_)
    · extract_lets -merge -useContext +onlyGivenNames y46
      extract_lets -merge -useContext +onlyGivenNames i47
      extract_lets -merge -useContext +onlyGivenNames y87
      have h88 : Kept s0 y87 := (Kept.mk' h_s)
      exact (Kept.ite (State_askMode_kept (State_setF_kept (Kept.mk' h88))) (State_setF_kept h88))
    · exact (State_setF_kept (Kept.mk' h_s))

theorem coolantWindow_kept {s0 : State} {t : ℕ} {s : State} (h_s : Kept s0 s) :
    Kept s0 (coolantWindow t s) := by
  unfold coolantWindow
  extract_lets -merge -useContext +onlyGivenNames y40
  have h41 : Kept s0 y40 := (State_at_kept h_s)
  refine Kept.ite' (fun _ => ?_) (fun _ => ?_)
  · exact h41
  · extract_lets -merge -useContext +onlyGivenNames y82
    extract_lets -merge -useContext +onlyGivenNames y123
    extract_lets -merge -useContext +onlyGivenNames y164
    extract_lets -merge -useContext +onlyGivenNames i165
    extract_lets -merge -useContext +onlyGivenNames y205
    have h206 : Kept s0 y205 := (Kept.mk' h41)
    clear_value y164
    split
    · exact h206
    · extract_lets -merge -useContext +onlyGivenNames y251
      exact (State_coolNext_kept (State_setF_kept h206))

theorem execCoolantWindow_kept {s0 : State} {t : ℕ} {s : State} (h_s : Kept s0 s) :
    KeptNext s0 (execCoolantWindow t s) := by
  unfold execCoolantWindow
  exact (KeptNext.next (coolantWindow_kept h_s))

theorem State_ageDie_kept {s0 : State} {s : State} {d : ℕ} {age : ℕ} (h_s : Kept s0 s) :
    Kept s0 (State.ageDie s d age) := by
  unfold State.ageDie
  extract_lets -merge -useContext +onlyGivenNames y40
  extract_lets -merge -useContext +onlyGivenNames y81
  have h82 : Kept s0 y81 := (State_setF_kept h_s)
  refine Kept.ite' (fun _ => ?_) (fun _ => ?_)
  · exact h82
  · extract_lets -merge -useContext +onlyGivenNames y123
    extract_lets -merge -useContext +onlyGivenNames y164
    have h165 : Kept s0 y164 := (Kept.ite (State_noBin_kept (State_setF_kept h82)) h82)
    exact (Kept.ite (Kept.mk' h165) h165)

theorem ageingMeasure_kept {s0 : State} {ages : List ℕ} {t : ℕ} {s : State} (h_s : Kept s0 s) :
    Kept s0 (ageingMeasure ages t s) := by
  unfold ageingMeasure
  extract_lets -merge -useContext +onlyGivenNames y40
  have h41 : Kept s0 y40 := (State_at_kept h_s)
  refine Kept.ite' (fun _ => ?_) (fun _ => ?_)
  · extract_lets -merge -useContext +onlyGivenNames i42
    extract_lets -merge -useContext +onlyGivenNames y82
    have h83 : Kept s0 y82 := (Kept.mk' h41)
    exact (Kept.foldl h83 (fun x84 x86 h85 => (State_ageDie_kept h85)))
  · exact h41

theorem execAgeingMeasure_kept {s0 : State} {ages : List ℕ} {t : ℕ} {s : State} (h_s : Kept s0 s) :
    KeptNext s0 (execAgeingMeasure ages t s) := by
  unfold execAgeingMeasure
  exact (KeptNext.next (ageingMeasure_kept h_s))

end Sys2Proof.Machine
end

