-- ==== Sys2Proof/Laws/Memory.lean ====
section
/-! SUPPORT. Writes over words without a memory error: no group fails (05 R126, R127). -/

namespace Sys2Proof.Machine

theorem State.putBytes_ecc (s : State) (a : Nat) (bs : List Byte) : (s.putBytes a bs).ecc = s.ecc := by
  induction bs generalizing s a with
  | nil => rfl
  | cons b t ih =>
    simp only [State.putBytes]
    rw [ih]
    rfl

theorem State.store_clean {s : State} (h : s.ecc = []) (a : Nat) (bs : List Byte) : (s.store a bs).ecc = [] := by
  simp [State.store, State.eccClear, State.putBytes_ecc, h]

theorem State.uncorrectable_clean {s : State} (h : s.ecc = []) (a n : Nat) : s.uncorrectable a n = false := by
  simp [State.uncorrectable, h]

theorem State.lineBad_clean {s : State} (h : s.ecc = []) {a : Nat} (ha : mainSize ≤ a) (n : Nat) : s.lineBad a n = false := by
  have : ¬ a < mainSize := by omega
  simp [State.lineBad, State.lineOut, State.uncorrectable_clean h, this]

theorem pieces_from {g fuel a n : Nat} {p : Nat × Nat} (h : p ∈ pieces g fuel a n) : a ≤ p.1 := by
  induction fuel generalizing a n with
  | zero => simp [pieces] at h
  | succ k ih =>
    unfold pieces at h
    split at h
    · simp at h
    · simp only [List.mem_cons] at h
      rcases h with rfl | h
      · exact Nat.le_refl _
      · have := ih h
        omega

/-- A write of words fails nowhere while no word has a memory error. -/
theorem State.writeWords_clean {s : State} (h : s.ecc = []) (a : Nat) (bs : List Byte) :
    (s.writeWords a bs).2 = false ∧ (s.writeWords a bs).1.ecc = [] := by
  unfold State.writeWords
  have key : ∀ (l : List (Nat × Nat)) (acc : State × Bool × List Byte), acc.1.ecc = [] → acc.2.1 = false →
      ∀ r, r = l.foldl (fun (acc : State × Bool × List Byte) (p : Nat × Nat) =>
        let (s, bad, rest) := acc
        let here := rest.take p.2
        let rest' := rest.drop p.2
        let base := p.1 - p.1 % 8
        if p.2 = 8 then (s.store p.1 here, bad, rest')
        else if s.uncorrectable base 8 then (s, true, rest')
        else (((s.correctIn base 8).store p.1 here).eccClear base 8, bad, rest')) acc → r.1.ecc = [] ∧ r.2.1 = false := by
    intro l
    induction l with
    | nil => intro acc h1 h2 r hr; subst hr; exact ⟨h1, h2⟩
    | cons p l ih =>
      intro acc h1 h2 r hr
      rw [List.foldl_cons] at hr
      refine ih _ ?_ ?_ r hr
      all_goals
        dsimp only
        split
        · first | exact State.store_clean h1 _ _ | exact h2
        · rw [State.uncorrectable_clean h1]
          simp [h1, State.correctIn, State.eccClear, State.store_clean h1, h2]
  have := key (pieces 8 (bs.length / 8 + 2) a bs.length) (s, false, bs) h rfl _ rfl
  exact ⟨this.2, this.1⟩

/-- What lies in main memory ends within it. -/
theorem place_main {a n : Nat} (h : place a n = .main) : n + a ≤ mainSize := by
  unfold place at h
  split at h
  · assumption
  · split at h
    · dsimp only at h
      split at h <;> cases h
    · split at h
      · dsimp only at h
        split at h <;> cases h
      · split at h
        · dsimp only at h
          split at h <;> cases h
        · split at h <;> cases h

/-- A write outside main memory fails nowhere while no word has a memory error. -/
theorem State.writeMem_clean {s : State} (h : s.ecc = []) (point p : Nat) {a : Nat} (ha : mainSize < a) (bs : List Byte) :
    (s.writeMem point p a bs).2 = false := by
  unfold State.writeMem
  split
  · next hp =>
    have := place_main hp
    omega
  · exact (State.writeWords_clean h a bs).1

/-- Nor does it leave one. -/
theorem State.writeMem_ecc {s : State} (h : s.ecc = []) (point p : Nat) {a : Nat} (ha : mainSize < a) (bs : List Byte) :
    (s.writeMem point p a bs).1.ecc = [] := by
  unfold State.writeMem
  split
  · next hp =>
    have := place_main hp
    omega
  · exact (State.writeWords_clean h a bs).2

/-- Reads outside main memory find every byte while no word has a memory error. -/
theorem State.readFails_clean {s : State} (h : s.ecc = []) (point p : Nat) {a : Nat} (ha : mainSize ≤ a) (n : Nat) :
    s.readFails point p a n = false := by
  rw [State.readFails, List.any_eq_false]
  intro q hq
  have := pieces_from (by simpa [linesOf] using hq)
  simp [State.lineBad_clean h (Nat.le_trans ha this)]

/-- Such a read leaves nothing behind. -/
theorem State.noteRead_clean {s : State} (h : s.ecc = []) (point p : Nat) {a : Nat} (ha : mainSize ≤ a) (n : Nat) :
    s.noteRead point p a n = s := by
  have key : ∀ (l : List (Nat × Nat)), (∀ q ∈ l, a ≤ q.1) → l.foldl (fun s (b, k) =>
      if s.lineBad b k then
        match s.shadow point p b with
        | some b' =>
          if s.lineBad b' k then s
          else
            let s := s.fallback b
            if bit (s.getF MC_STATUS mcCHOK) (channelOf b) then
              let l := b - b % 64
              s.store l (byteList (s.bytes (b' - b' % 64) 64))
            else s
        | none => s
      else s) s = s := by
    intro l
    induction l with
    | nil => intro _; rfl
    | cons q l ih =>
      intro hq
      rw [List.foldl_cons]
      simp only [State.lineBad_clean h (Nat.le_trans ha (hq q (List.mem_cons_self ..)))]
      exact ih (fun r hr => hq r (List.mem_cons_of_mem _ hr))
  rw [State.noteRead, h, State.readEffect]
  exact key _ (fun q hq => pieces_from (by simpa [linesOf] using hq))

/-- Where no word has a memory error, a step of writing an image outside main memory succeeds, -/
theorem State.putImage_clean {s : State} (h : s.ecc = []) (c : Nat) {a : Nat} (ha : mainSize < a) (k : Nat) (im : List Nat) :
    ∃ t, s.putImage c a k im = (t, 0) ∧ t.ecc = [] := by
  unfold State.putImage
  extract_lets lo hi
  have e := State.writeMem_clean h c (s.partOf c) (a := a + lo) (by omega) (byteList ((im.drop lo).take (hi - lo)))
  have g := State.writeMem_ecc h c (s.partOf c) (a := a + lo) (by omega) (byteList ((im.drop lo).take (hi - lo)))
  generalize s.writeMem c (s.partOf c) (a + lo) (byteList ((im.drop lo).take (hi - lo))) = r at e g
  obtain ⟨s1, bad⟩ := r
  simp only at e g
  subst e
  by_cases hk : k < 4
  · exact ⟨s1, by simp [hk], g⟩
  · have e' := State.writeMem_clean g c (s1.partOf c) ha (byteList (im.take 64))
    have g' := State.writeMem_ecc g c (s1.partOf c) ha (byteList (im.take 64))
    refine ⟨(s1.writeMem c (s1.partOf c) a (byteList (im.take 64))).1, ?_, g'⟩
    simp [hk, e']

/-! Reading a memory touches no cell's registers. -/

theorem foldl_cells {α : Type} {f : State → α → State} (h : ∀ s x, (f s x).cells = s.cells) (l : List α) (s : State) :
    (l.foldl f s).cells = s.cells := by
  induction l generalizing s with
  | nil => rfl
  | cons x l ih => rw [List.foldl_cons, ih, h]

theorem State.putBytes_cells (s : State) (a : Nat) (bs : List Byte) : (s.putBytes a bs).cells = s.cells := by
  induction bs generalizing s a with
  | nil => rfl
  | cons b t ih => simp only [State.putBytes]; rw [ih]; rfl

theorem State.store_cells (s : State) (a : Nat) (bs : List Byte) : (s.store a bs).cells = s.cells := by
  rw [State.store, State.eccClear]
  exact State.putBytes_cells s a bs

theorem State.countEcc1_cells (s : State) (a : Nat) (b : Bool) : (s.countEcc1 a b).cells = s.cells := by
  unfold State.countEcc1
  split <;> simp

theorem State.chanError_cells (s : State) (a : Nat) : (s.chanError a).cells = s.cells := by
  unfold State.chanError
  extract_lets
  split
  all_goals rfl

theorem State.countEcc_cells (s : State) (a : Nat) (b : Bool) : (s.countEcc a b).cells = s.cells := by
  unfold State.countEcc
  extract_lets t
  have : t.cells = s.cells := State.countEcc1_cells s a b
  split
  · exact (State.chanError_cells _ _).trans this
  · exact this

theorem State.fallback_cells (s : State) (b : Nat) : (s.fallback b).cells = s.cells := by
  have : (s.sil1 375 (48 + b / 0x10000 % 4)).cells = s.cells := State.sil1_cells ..
  unfold State.fallback
  extract_lets t
  split
  · exact (State.countEcc_cells t b true).trans this
  · exact this

theorem State.takeOut_cells (s : State) (a : Nat) : (s.takeOut a).cells = s.cells := by
  unfold State.takeOut
  split <;> rfl

theorem State.correct_cells (s : State) (w : Nat) : (s.correct w).cells = s.cells := by
  unfold State.correct
  extract_lets a t
  have : t.cells = s.cells := State.countEcc_cells s a false
  split
  · split
    · exact (State.takeOut_cells _ _).trans this
    · exact this
  · split
    · exact (State.takeOut_cells _ _).trans this
    · exact this
  · exact this

theorem State.noteRead_cells (s : State) (point p a n : Nat) : (s.noteRead point p a n).cells = s.cells := by
  unfold State.noteRead State.readEffect
  refine (foldl_cells (fun s (x : Nat × Nat) => State.correct_cells s x.1) _ _).trans ?_
  refine foldl_cells (fun s x => ?_) _ _
  dsimp only
  split
  · split
    · split
      · rfl
      · split
        · exact (State.store_cells _ _ _).trans (State.fallback_cells s _)
        · exact State.fallback_cells s _
    · rfl
  · rfl

end Sys2Proof.Machine
end

