-- ==== Sys2Proof/Laws/PerInstr.lean ====
section
/-! SUPPORT. One lemma per command about its syntax: a well-formed command has a writer and a written word that the device has
(01 R18, R19), and no word of the command table spells it. -/

namespace Sys2Proof.Laws.Shape

set_option Elab.async false

/-- Who writes, in a command that is a register write. -/
def writer (i : Instr) : Option Who :=
  match i with
  | .nop _ => none
  | .loop _ => none
  | .br _ => none
  | .call _ => none
  | .ret _ => none
  | .wait _ => none
  | .post _ => none
  | .bar _ => none
  | .barrierRelease _ => none
  | .sadd _ => none
  | .ssub _ => none
  | .smul _ => none
  | .sand _ => none
  | .sor _ => none
  | .sxor _ => none
  | .sshl _ => none
  | .sshr _ => none
  | .ssra _ => none
  | .smin _ => none
  | .smax _ => none
  | .sminu _ => none
  | .smaxu _ => none
  | .saddi _ => none
  | .sandi _ => none
  | .sori _ => none
  | .sxori _ => none
  | .sshli _ => none
  | .sshri _ => none
  | .ssrai _ => none
  | .sli _ => none
  | .slui _ => none
  | .aadd _ => none
  | .aaddi _ => none
  | .amov _ => none
  | .smova _ => none
  | .sld _ => none
  | .ald _ => none
  | .streamInstructionBegin _ _ => none
  | .streamInstructionComplete _ _ => none
  | .postStallRelease _ _ => none
  | .tokenStall _ _ _ => none
  | .ldt _ _ => none
  | .ldw _ _ => none
  | .gath _ _ => none
  | .tzero _ _ => none
  | .tmma _ _ => none
  | .trd _ _ => none
  | .vadd _ _ => none
  | .vsub _ _ => none
  | .vmul _ _ => none
  | .vfma _ _ => none
  | .vmax _ _ => none
  | .vmin _ _ => none
  | .vexp _ _ => none
  | .vrcp _ _ => none
  | .vrsq _ _ => none
  | .vcmp _ _ => none
  | .vsel _ _ => none
  | .vand _ _ => none
  | .vor _ _ => none
  | .vxor _ _ => none
  | .vmov _ _ => none
  | .vbcast _ _ => none
  | .vld _ _ => none
  | .vst _ _ => none
  | .cvt _ _ => none
  | .cvtv _ _ => none
  | .rstat _ _ => none
  | .rnorm _ _ => none
  | .vdw _ _ => none
  | .stt _ _ => none
  | .scat _ _ => none
  | .wopen _ _ => none
  | .wclose _ _ => none
  | .ckpt _ _ => none
  | .commit _ _ => none
  | .enq _ => none
  | .halt _ => none
  | .snapInstruction _ => none
  | .scrub _ => none
  | .rdfl _ => none
  | .clrfl _ => none
  | .unitReset who _ _ => some who
  | .jobReset who _ _ => some who
  | .stop who _ _ => some who
  | .resume who _ _ => some who
  | .snap who _ _ => some who
  | .restore who _ _ => some who
  | .pload who _ _ => some who
  | .workItemTake _ _ => none
  | .arrive _ => none
  | .barHart who _ _ => some who
  | .remoteWriteArrival _ => none
  | .commitArrival _ => none
  | .releaseArrival _ => none
  | .generationTokenWait _ _ => none
  | .winCtlOpen who _ _ _ => some who
  | .winCtlClose who _ _ _ => some who
  | .winMaskWrite who _ _ _ => some who
  | .eccWriteBack _ => none
  | .wordTest _ _ => none
  | .patrol _ _ _ _ => none
  | .edcRetry _ _ _ => none
  | .regionEntryWrite who _ _ _ => some who
  | .regionEntrySwitch _ _ _ => none
  | .fillGo who _ => some who
  | .fillDone => none
  | .frame _ _ => none
  | .imageRowProduce _ => none
  | .lineTimeout _ _ => none
  | .fwd _ => none
  | .bwd _ => none
  | .ctxBind _ => none
  | .ctxAppend _ => none
  | .ctxCommit _ => none
  | .ctxFork _ => none
  | .ctxRelease _ => none
  | .contextGrant _ => none
  | .attnCfgWrite who _ _ _ => some who
  | .attnCtxSel who _ _ => some who
  | .calibrationUpdate _ _ => none
  | .calibrationStoreWrite _ => none
  | .frameStartEvent _ => none
  | .lsyncPulse _ _ => none
  | .step who _ _ => some who
  | .heldStepEvent _ => none
  | .trigFsSeqWrite who _ _ => some who
  | .echoCfgWrite who _ _ => some who
  | .streamStale _ _ => none
  | .lift _ => none
  | .scatter _ => none
  | .raster _ => none
  | .update => none
  | .forecast => none
  | .deleteTrack => none
  | .trkNextIdWrite who _ => some who
  | .trkSel who _ => some who
  | .check _ => none
  | .finalCheck _ => none
  | .drydownCompute _ => none
  | .recordEmit _ => none
  | .handoverTimeout _ => none
  | .statusFrame _ _ => none
  | .push who _ _ => some who
  | .swTailWrite who _ _ _ => some who
  | .qcfgHeadWrite who _ _ => some who
  | .completionPush _ _ => none
  | .unreadableEntry _ => none
  | .slotBoundary _ _ => none
  | .frameSelfWrap _ _ => none
  | .frameStartReceive _ _ _ => none
  | .deadlineExpiry _ _ => none
  | .admitJob _ _ => none
  | .withdraw _ _ => none
  | .restart _ _ => none
  | .backupLaunch _ _ _ => none
  | .suspectEvaluation _ => none
  | .depositArrival _ _ => none
  | .comparisonTimeout _ _ => none
  | .memberErrorNotice _ _ => none
  | .resync _ => none
  | .split who _ _ => some who
  | .join who _ _ => some who
  | .grow who _ _ => some who
  | .apCkptWrite who _ _ => some who
  | .latentOverdue _ => none
  | .islandSupervisionCycle _ _ _ => none
  | .islandHardwareFail _ _ => none
  | .heartbeatLoss _ _ => none
  | .islandReboot _ _ => none
  | .handoverDecision _ => none
  | .peerRecordReceive _ _ _ => none
  | .islandFrameRealign _ _ _ => none
  | .failureDetectorSample _ => none
  | .fence who _ => some who
  | .unfence who _ => some who
  | .unitReinit _ _ => none
  | .blotterEntry _ _ _ => none
  | .blotterExtra _ _ _ => none
  | .quarantineEvaluation _ _ _ _ => none
  | .quarantineTableWrite _ => none
  | .modeRequest _ _ => none
  | .drydown _ _ => none
  | .safeEnter _ _ => none
  | .safeClear _ _ => none
  | .unitResetRequest _ _ => none
  | .warmResetRequest _ _ => none
  | .warmReset _ _ => none
  | .quarSel who _ => some who
  | .freeze who _ _ => some who
  | .freezeTimeout _ => none
  | .nonceRequest who _ _ => some who
  | .sillageClear who _ _ => some who
  | .nonceExpiry _ => none
  | .sillagePersist _ => none
  | .flcPulse _ => none
  | .lineFault _ _ => none
  | .speedUpdate _ => none
  | .plausibilitySample _ => none
  | .flcOdoWrite who _ => some who
  | .mirrorRefresh _ => none
  | .sign who _ _ => some who
  | .openSession who _ _ => some who
  | .setK who _ _ => some who
  | .reseal who _ _ => some who
  | .fwUpdate who _ _ => some who
  | .closeSession who _ _ => some who
  | .block who _ _ => some who
  | .sessionTimeout _ => none
  | .debugOpenSeal _ => none
  | .flaconPowerOn _ => none
  | .vanaFall _ => none
  | .nonce who _ _ => some who
  | .unlock who _ _ _ => some who
  | .provision who _ _ => some who
  | .attest who _ _ => some who
  | .firmwareUpdate who _ _ _ => some who
  | .trngHealthFail _ => none
  | .storeWrite _ _ => none
  | .packetReceive _ _ _ _ _ => none
  | .ackReceive _ _ _ _ => none
  | .nakReceive _ _ _ _ => none
  | .creditReceive _ _ _ _ => none
  | .replayTimeout _ _ _ => none
  | .linkRetrain _ _ _ _ => none
  | .bondUncorrectable _ _ _ _ => none
  | .linkTestMode who _ _ _ _ _ => some who
  | .flaconLinkRetry _ _ _ => none
  | .guestPowerSample _ _ => none
  | .guestFence who _ => some who
  | .gstWinWrite who _ _ => some who
  | .combineBufferEmit _ _ _ _ _ => none
  | .lock _ _ _ _ => none
  | .apSplit _ _ _ => none
  | .lockstepMismatch _ => none
  | .rigStep who _ _ => some who
  | .rigInj who _ _ => some who
  | .pcieInboundRequest _ _ _ _ _ => none
  | .apertureAccess who _ _ _ => some who
  | .pcieCfgaGo who _ _ => some who
  | .voltageRamp _ => none
  | .powerLimiterSample _ _ _ => none
  | .vbusLowThroughput _ => none
  | .pwrEnRise _ => none
  | .railGroupGood _ _ => none
  | .supplyMonitorSample _ _ => none
  | .pwrEnFall _ => none
  | .vbusLoss _ => none
  | .vbusRestore _ => none
  | .porstNLow _ => none
  | .porstNRelease _ _ => none
  | .resetNLow _ => none
  | .resetNRelease _ _ => none
  | .clockFault _ => none
  | .thermalSample _ _ => none
  | .thermalTrip _ _ => none
  | .tripRelease _ _ => none
  | .coolantWindow _ => none
  | .ageingMeasure _ _ => none
  | .csiFrameStart _ _ _ => none
  | .csiEmbeddedData _ _ _ _ => none
  | .csiLine _ _ _ _ _ _ => none
  | .csiFrameEnd _ _ _ => none
  | .frameEndTimeout _ _ => none
  | .camCfgWrite who _ _ => some who
  | .ringDoorbell who _ _ => some who
  | .ethTransmit _ _ => none
  | .ethReceive _ _ _ _ => none
  | .gptpSync _ _ _ => none
  | .qbvCtlWrite who _ _ => some who
  | .qbvListInForce _ _ => none
  | .odometryFrame _ _ _ => none
  | .odometryStale _ _ => none
  | .canTransmit _ _ => none
  | .canReceive _ _ _ _ _ _ => none
  | .canBusOff _ _ => none
  | .registerWrite who _ _ => some who
  | .syncLoss _ _ => none
  | .ethLinkChange _ _ _ _ => none
  | .pcieLinkChange _ _ _ _ => none
  | .canErrorPassive _ _ => none
  | .machineTimerCompare _ _ => none
  | .jobLost _ _ => none
  | .powerCycle _ => none
  | .lostMirrorCopy _ => none
  | .secNonceExpiry _ => none
  | .trngHealthPass _ => none
  | .tck _ _ => none
  | .gateControlEntry _ _ => none
  | .unitInternalFault _ => none

/-- The 64-bit word that a command writes. -/
def word (i : Instr) : Option Nat :=
  match i with
  | .nop _ => none
  | .loop _ => none
  | .br _ => none
  | .call _ => none
  | .ret _ => none
  | .wait _ => none
  | .post _ => none
  | .bar _ => none
  | .barrierRelease _ => none
  | .sadd _ => none
  | .ssub _ => none
  | .smul _ => none
  | .sand _ => none
  | .sor _ => none
  | .sxor _ => none
  | .sshl _ => none
  | .sshr _ => none
  | .ssra _ => none
  | .smin _ => none
  | .smax _ => none
  | .sminu _ => none
  | .smaxu _ => none
  | .saddi _ => none
  | .sandi _ => none
  | .sori _ => none
  | .sxori _ => none
  | .sshli _ => none
  | .sshri _ => none
  | .ssrai _ => none
  | .sli _ => none
  | .slui _ => none
  | .aadd _ => none
  | .aaddi _ => none
  | .amov _ => none
  | .smova _ => none
  | .sld _ => none
  | .ald _ => none
  | .streamInstructionBegin _ _ => none
  | .streamInstructionComplete _ _ => none
  | .postStallRelease _ _ => none
  | .tokenStall _ _ _ => none
  | .ldt _ _ => none
  | .ldw _ _ => none
  | .gath _ _ => none
  | .tzero _ _ => none
  | .tmma _ _ => none
  | .trd _ _ => none
  | .vadd _ _ => none
  | .vsub _ _ => none
  | .vmul _ _ => none
  | .vfma _ _ => none
  | .vmax _ _ => none
  | .vmin _ _ => none
  | .vexp _ _ => none
  | .vrcp _ _ => none
  | .vrsq _ _ => none
  | .vcmp _ _ => none
  | .vsel _ _ => none
  | .vand _ _ => none
  | .vor _ _ => none
  | .vxor _ _ => none
  | .vmov _ _ => none
  | .vbcast _ _ => none
  | .vld _ _ => none
  | .vst _ _ => none
  | .cvt _ _ => none
  | .cvtv _ _ => none
  | .rstat _ _ => none
  | .rnorm _ _ => none
  | .vdw _ _ => none
  | .stt _ _ => none
  | .scat _ _ => none
  | .wopen _ _ => none
  | .wclose _ _ => none
  | .ckpt _ _ => none
  | .commit _ _ => none
  | .enq _ => none
  | .halt _ => none
  | .snapInstruction _ => none
  | .scrub _ => none
  | .rdfl _ => none
  | .clrfl _ => none
  | .unitReset _ _ w => some w
  | .jobReset _ _ w => some w
  | .stop _ _ w => some w
  | .resume _ _ w => some w
  | .snap _ _ w => some w
  | .restore _ _ w => some w
  | .pload _ _ w => some w
  | .workItemTake _ _ => none
  | .arrive _ => none
  | .barHart _ _ w => some w
  | .remoteWriteArrival _ => none
  | .commitArrival _ => none
  | .releaseArrival _ => none
  | .generationTokenWait _ _ => none
  | .winCtlOpen _ _ _ w => some w
  | .winCtlClose _ _ _ w => some w
  | .winMaskWrite _ _ _ w => some w
  | .eccWriteBack _ => none
  | .wordTest _ _ => none
  | .patrol _ _ _ _ => none
  | .edcRetry _ _ _ => none
  | .regionEntryWrite _ _ _ _ => none
  | .regionEntrySwitch _ _ _ => none
  | .fillGo _ w => some w
  | .fillDone => none
  | .frame _ _ => none
  | .imageRowProduce _ => none
  | .lineTimeout _ _ => none
  | .fwd _ => none
  | .bwd _ => none
  | .ctxBind _ => none
  | .ctxAppend _ => none
  | .ctxCommit _ => none
  | .ctxFork _ => none
  | .ctxRelease _ => none
  | .contextGrant _ => none
  | .attnCfgWrite _ _ _ w => some w
  | .attnCtxSel _ _ w => some w
  | .calibrationUpdate _ _ => none
  | .calibrationStoreWrite _ => none
  | .frameStartEvent _ => none
  | .lsyncPulse _ _ => none
  | .step _ w _ => some w
  | .heldStepEvent _ => none
  | .trigFsSeqWrite _ _ w => some w
  | .echoCfgWrite _ _ w => some w
  | .streamStale _ _ => none
  | .lift _ => none
  | .scatter _ => none
  | .raster _ => none
  | .update => none
  | .forecast => none
  | .deleteTrack => none
  | .trkNextIdWrite _ w => some w
  | .trkSel _ w => some w
  | .check _ => none
  | .finalCheck _ => none
  | .drydownCompute _ => none
  | .recordEmit _ => none
  | .handoverTimeout _ => none
  | .statusFrame _ _ => none
  | .push _ _ _ => none
  | .swTailWrite _ _ _ _ => none
  | .qcfgHeadWrite _ _ w => some w
  | .completionPush _ _ => none
  | .unreadableEntry _ => none
  | .slotBoundary _ _ => none
  | .frameSelfWrap _ _ => none
  | .frameStartReceive _ _ _ => none
  | .deadlineExpiry _ _ => none
  | .admitJob _ _ => none
  | .withdraw _ _ => none
  | .restart _ _ => none
  | .backupLaunch _ _ _ => none
  | .suspectEvaluation _ => none
  | .depositArrival _ _ => none
  | .comparisonTimeout _ _ => none
  | .memberErrorNotice _ _ => none
  | .resync _ => none
  | .split _ _ w => some w
  | .join _ _ w => some w
  | .grow _ _ w => some w
  | .apCkptWrite _ _ w => some w
  | .latentOverdue _ => none
  | .islandSupervisionCycle _ _ _ => none
  | .islandHardwareFail _ _ => none
  | .heartbeatLoss _ _ => none
  | .islandReboot _ _ => none
  | .handoverDecision _ => none
  | .peerRecordReceive _ _ _ => none
  | .islandFrameRealign _ _ _ => none
  | .failureDetectorSample _ => none
  | .fence _ _ => none
  | .unfence _ _ => none
  | .unitReinit _ _ => none
  | .blotterEntry _ _ _ => none
  | .blotterExtra _ _ _ => none
  | .quarantineEvaluation _ _ _ _ => none
  | .quarantineTableWrite _ => none
  | .modeRequest _ _ => none
  | .drydown _ _ => none
  | .safeEnter _ _ => none
  | .safeClear _ _ => none
  | .unitResetRequest _ _ => none
  | .warmResetRequest _ _ => none
  | .warmReset _ _ => none
  | .quarSel _ w => some w
  | .freeze _ w _ => some w
  | .freezeTimeout _ => none
  | .nonceRequest _ w _ => some w
  | .sillageClear _ w _ => some w
  | .nonceExpiry _ => none
  | .sillagePersist _ => none
  | .flcPulse _ => none
  | .lineFault _ _ => none
  | .speedUpdate _ => none
  | .plausibilitySample _ => none
  | .flcOdoWrite _ w => some w
  | .mirrorRefresh _ => none
  | .sign _ w _ => some w
  | .openSession _ w _ => some w
  | .setK _ w _ => some w
  | .reseal _ w _ => some w
  | .fwUpdate _ w _ => some w
  | .closeSession _ w _ => some w
  | .block _ w _ => some w
  | .sessionTimeout _ => none
  | .debugOpenSeal _ => none
  | .flaconPowerOn _ => none
  | .vanaFall _ => none
  | .nonce _ w _ => some w
  | .unlock _ w _ _ => some w
  | .provision _ w _ => some w
  | .attest _ w _ => some w
  | .firmwareUpdate _ w _ _ => some w
  | .trngHealthFail _ => none
  | .storeWrite _ _ => none
  | .packetReceive _ _ _ _ _ => none
  | .ackReceive _ _ _ _ => none
  | .nakReceive _ _ _ _ => none
  | .creditReceive _ _ _ _ => none
  | .replayTimeout _ _ _ => none
  | .linkRetrain _ _ _ _ => none
  | .bondUncorrectable _ _ _ _ => none
  | .linkTestMode _ _ w _ _ _ => some w
  | .flaconLinkRetry _ _ _ => none
  | .guestPowerSample _ _ => none
  | .guestFence _ w => some w
  | .gstWinWrite _ _ w => some w
  | .combineBufferEmit _ _ _ _ _ => none
  | .lock _ _ _ _ => none
  | .apSplit _ _ _ => none
  | .lockstepMismatch _ => none
  | .rigStep _ w _ => some w
  | .rigInj _ w _ => some w
  | .pcieInboundRequest _ _ _ _ _ => none
  | .apertureAccess _ _ _ _ => none
  | .pcieCfgaGo _ w _ => some w
  | .voltageRamp _ => none
  | .powerLimiterSample _ _ _ => none
  | .vbusLowThroughput _ => none
  | .pwrEnRise _ => none
  | .railGroupGood _ _ => none
  | .supplyMonitorSample _ _ => none
  | .pwrEnFall _ => none
  | .vbusLoss _ => none
  | .vbusRestore _ => none
  | .porstNLow _ => none
  | .porstNRelease _ _ => none
  | .resetNLow _ => none
  | .resetNRelease _ _ => none
  | .clockFault _ => none
  | .thermalSample _ _ => none
  | .thermalTrip _ _ => none
  | .tripRelease _ _ => none
  | .coolantWindow _ => none
  | .ageingMeasure _ _ => none
  | .csiFrameStart _ _ _ => none
  | .csiEmbeddedData _ _ _ _ => none
  | .csiLine _ _ _ _ _ _ => none
  | .csiFrameEnd _ _ _ => none
  | .frameEndTimeout _ _ => none
  | .camCfgWrite _ _ w => some w
  | .ringDoorbell _ _ w => some w
  | .ethTransmit _ _ => none
  | .ethReceive _ _ _ _ => none
  | .gptpSync _ _ _ => none
  | .qbvCtlWrite _ _ w => some w
  | .qbvListInForce _ _ => none
  | .odometryFrame _ _ _ => none
  | .odometryStale _ _ => none
  | .canTransmit _ _ => none
  | .canReceive _ _ _ _ _ _ => none
  | .canBusOff _ _ => none
  | .registerWrite _ _ w => some w
  | .syncLoss _ _ => none
  | .ethLinkChange _ _ _ _ => none
  | .pcieLinkChange _ _ _ _ => none
  | .canErrorPassive _ _ => none
  | .machineTimerCompare _ _ => none
  | .jobLost _ _ => none
  | .powerCycle _ => none
  | .lostMirrorCopy _ => none
  | .secNonceExpiry _ => none
  | .trngHealthPass _ => none
  | .tck _ _ => none
  | .gateControlEntry _ _ => none
  | .unitInternalFault _ => none

/-- A well-formed command names a writer of the device and a word of 64 bits; no table word spells it. -/
def Statement (i : Instr) : Prop :=
  (wellFormed i = true → (∀ x, writer i = some x → x.ok = true) ∧ ∀ v, word i = some v → v < 2 ^ 64) ∧
    ∀ n w, decodeTableWord n w ≠ some i

theorem none_spelled (i : Instr) (n w : Nat) : decodeTableWord n w ≠ some i := by
  intro h; cases h

theorem of_none {i : Instr} (h : writer i = none) (k : word i = none) : Statement i := by
  refine ⟨fun _ => ⟨fun x e => ?_, fun v e => ?_⟩, none_spelled i⟩
  · rw [h] at e; cases e
  · rw [k] at e; cases e

theorem nop (c : Nat) : Statement (.nop c) := of_none rfl rfl
theorem loop (c : Nat) : Statement (.loop c) := of_none rfl rfl
theorem br (c : Nat) : Statement (.br c) := of_none rfl rfl
theorem call (c : Nat) : Statement (.call c) := of_none rfl rfl
theorem ret (c : Nat) : Statement (.ret c) := of_none rfl rfl
theorem wait (c : Nat) : Statement (.wait c) := of_none rfl rfl
theorem post (c : Nat) : Statement (.post c) := of_none rfl rfl
theorem bar (c : Nat) : Statement (.bar c) := of_none rfl rfl
theorem barrierRelease (c : Nat) : Statement (.barrierRelease c) := of_none rfl rfl
theorem sadd (c : Nat) : Statement (.sadd c) := of_none rfl rfl
theorem ssub (c : Nat) : Statement (.ssub c) := of_none rfl rfl
theorem smul (c : Nat) : Statement (.smul c) := of_none rfl rfl
theorem sand (c : Nat) : Statement (.sand c) := of_none rfl rfl
theorem sor (c : Nat) : Statement (.sor c) := of_none rfl rfl
theorem sxor (c : Nat) : Statement (.sxor c) := of_none rfl rfl
theorem sshl (c : Nat) : Statement (.sshl c) := of_none rfl rfl
theorem sshr (c : Nat) : Statement (.sshr c) := of_none rfl rfl
theorem ssra (c : Nat) : Statement (.ssra c) := of_none rfl rfl
theorem smin (c : Nat) : Statement (.smin c) := of_none rfl rfl
theorem smax (c : Nat) : Statement (.smax c) := of_none rfl rfl
theorem sminu (c : Nat) : Statement (.sminu c) := of_none rfl rfl
theorem smaxu (c : Nat) : Statement (.smaxu c) := of_none rfl rfl
theorem saddi (c : Nat) : Statement (.saddi c) := of_none rfl rfl
theorem sandi (c : Nat) : Statement (.sandi c) := of_none rfl rfl
theorem sori (c : Nat) : Statement (.sori c) := of_none rfl rfl
theorem sxori (c : Nat) : Statement (.sxori c) := of_none rfl rfl
theorem sshli (c : Nat) : Statement (.sshli c) := of_none rfl rfl
theorem sshri (c : Nat) : Statement (.sshri c) := of_none rfl rfl
theorem ssrai (c : Nat) : Statement (.ssrai c) := of_none rfl rfl
theorem sli (c : Nat) : Statement (.sli c) := of_none rfl rfl
theorem slui (c : Nat) : Statement (.slui c) := of_none rfl rfl
theorem aadd (c : Nat) : Statement (.aadd c) := of_none rfl rfl
theorem aaddi (c : Nat) : Statement (.aaddi c) := of_none rfl rfl
theorem amov (c : Nat) : Statement (.amov c) := of_none rfl rfl
theorem smova (c : Nat) : Statement (.smova c) := of_none rfl rfl
theorem sld (c : Nat) : Statement (.sld c) := of_none rfl rfl
theorem ald (c : Nat) : Statement (.ald c) := of_none rfl rfl
theorem streamInstructionBegin (c : Nat) (st : Strm) : Statement (.streamInstructionBegin c st) := of_none rfl rfl
theorem streamInstructionComplete (c : Nat) (st : Strm) : Statement (.streamInstructionComplete c st) := of_none rfl rfl
theorem postStallRelease (c : Nat) (st : Strm) : Statement (.postStallRelease c st) := of_none rfl rfl
theorem tokenStall (c : Nat) (st : Strm) (t : Nat) : Statement (.tokenStall c st t) := of_none rfl rfl
theorem ldt (c : Nat) (ph : Phase) : Statement (.ldt c ph) := of_none rfl rfl
theorem ldw (c : Nat) (ph : Phase) : Statement (.ldw c ph) := of_none rfl rfl
theorem gath (c : Nat) (ph : Phase) : Statement (.gath c ph) := of_none rfl rfl
theorem tzero (c : Nat) (ph : Phase) : Statement (.tzero c ph) := of_none rfl rfl
theorem tmma (c : Nat) (ph : Phase) : Statement (.tmma c ph) := of_none rfl rfl
theorem trd (c : Nat) (ph : Phase) : Statement (.trd c ph) := of_none rfl rfl
theorem vadd (c : Nat) (ph : Phase) : Statement (.vadd c ph) := of_none rfl rfl
theorem vsub (c : Nat) (ph : Phase) : Statement (.vsub c ph) := of_none rfl rfl
theorem vmul (c : Nat) (ph : Phase) : Statement (.vmul c ph) := of_none rfl rfl
theorem vfma (c : Nat) (ph : Phase) : Statement (.vfma c ph) := of_none rfl rfl
theorem vmax (c : Nat) (ph : Phase) : Statement (.vmax c ph) := of_none rfl rfl
theorem vmin (c : Nat) (ph : Phase) : Statement (.vmin c ph) := of_none rfl rfl
theorem vexp (c : Nat) (ph : Phase) : Statement (.vexp c ph) := of_none rfl rfl
theorem vrcp (c : Nat) (ph : Phase) : Statement (.vrcp c ph) := of_none rfl rfl
theorem vrsq (c : Nat) (ph : Phase) : Statement (.vrsq c ph) := of_none rfl rfl
theorem vcmp (c : Nat) (ph : Phase) : Statement (.vcmp c ph) := of_none rfl rfl
theorem vsel (c : Nat) (ph : Phase) : Statement (.vsel c ph) := of_none rfl rfl
theorem vand (c : Nat) (ph : Phase) : Statement (.vand c ph) := of_none rfl rfl
theorem vor (c : Nat) (ph : Phase) : Statement (.vor c ph) := of_none rfl rfl
theorem vxor (c : Nat) (ph : Phase) : Statement (.vxor c ph) := of_none rfl rfl
theorem vmov (c : Nat) (ph : Phase) : Statement (.vmov c ph) := of_none rfl rfl
theorem vbcast (c : Nat) (ph : Phase) : Statement (.vbcast c ph) := of_none rfl rfl
theorem vld (c : Nat) (ph : Phase) : Statement (.vld c ph) := of_none rfl rfl
theorem vst (c : Nat) (ph : Phase) : Statement (.vst c ph) := of_none rfl rfl
theorem cvt (c : Nat) (ph : Phase) : Statement (.cvt c ph) := of_none rfl rfl
theorem cvtv (c : Nat) (ph : Phase) : Statement (.cvtv c ph) := of_none rfl rfl
theorem rstat (c : Nat) (ph : Phase) : Statement (.rstat c ph) := of_none rfl rfl
theorem rnorm (c : Nat) (ph : Phase) : Statement (.rnorm c ph) := of_none rfl rfl
theorem vdw (c : Nat) (ph : Phase) : Statement (.vdw c ph) := of_none rfl rfl
theorem stt (c : Nat) (ph : Phase) : Statement (.stt c ph) := of_none rfl rfl
theorem scat (c : Nat) (ph : Phase) : Statement (.scat c ph) := of_none rfl rfl
theorem wopen (c : Nat) (ph : Phase) : Statement (.wopen c ph) := of_none rfl rfl
theorem wclose (c : Nat) (ph : Phase) : Statement (.wclose c ph) := of_none rfl rfl
theorem ckpt (c : Nat) (ph : Phase) : Statement (.ckpt c ph) := of_none rfl rfl
theorem commit (c : Nat) (ph : Phase) : Statement (.commit c ph) := of_none rfl rfl
theorem enq (c : Nat) : Statement (.enq c) := of_none rfl rfl
theorem halt (c : Nat) : Statement (.halt c) := of_none rfl rfl
theorem snapInstruction (c : Nat) : Statement (.snapInstruction c) := of_none rfl rfl
theorem scrub (c : Nat) : Statement (.scrub c) := of_none rfl rfl
theorem rdfl (c : Nat) : Statement (.rdfl c) := of_none rfl rfl
theorem clrfl (c : Nat) : Statement (.clrfl c) := of_none rfl rfl
theorem unitReset (who : Who) (u : Nat) (w : Nat) : Statement (.unitReset who u w) := by
  refine ⟨fun h => ⟨fun x e => ?_, fun v e => ?_⟩, none_spelled _⟩ <;> simp_all [wellFormed, writer, word]
theorem jobReset (who : Who) (u : Nat) (w : Nat) : Statement (.jobReset who u w) := by
  refine ⟨fun h => ⟨fun x e => ?_, fun v e => ?_⟩, none_spelled _⟩ <;> simp_all [wellFormed, writer, word]
theorem stop (who : Who) (u : Nat) (w : Nat) : Statement (.stop who u w) := by
  refine ⟨fun h => ⟨fun x e => ?_, fun v e => ?_⟩, none_spelled _⟩ <;> simp_all [wellFormed, writer, word]
theorem resume (who : Who) (u : Nat) (w : Nat) : Statement (.resume who u w) := by
  refine ⟨fun h => ⟨fun x e => ?_, fun v e => ?_⟩, none_spelled _⟩ <;> simp_all [wellFormed, writer, word]
theorem snap (who : Who) (u : Nat) (w : Nat) : Statement (.snap who u w) := by
  refine ⟨fun h => ⟨fun x e => ?_, fun v e => ?_⟩, none_spelled _⟩ <;> simp_all [wellFormed, writer, word]
theorem restore (who : Who) (u : Nat) (w : Nat) : Statement (.restore who u w) := by
  refine ⟨fun h => ⟨fun x e => ?_, fun v e => ?_⟩, none_spelled _⟩ <;> simp_all [wellFormed, writer, word]
theorem pload (who : Who) (u : Nat) (w : Nat) : Statement (.pload who u w) := by
  refine ⟨fun h => ⟨fun x e => ?_, fun v e => ?_⟩, none_spelled _⟩ <;> simp_all [wellFormed, writer, word]
theorem workItemTake (u : Nat) (t : Nat) : Statement (.workItemTake u t) := of_none rfl rfl
theorem arrive (u : Nat) : Statement (.arrive u) := of_none rfl rfl
theorem barHart (who : Who) (p : Nat) (w : Nat) : Statement (.barHart who p w) := by
  refine ⟨fun h => ⟨fun x e => ?_, fun v e => ?_⟩, none_spelled _⟩ <;> simp_all [wellFormed, writer, word]
theorem remoteWriteArrival (n : Nat) : Statement (.remoteWriteArrival n) := of_none rfl rfl
theorem commitArrival (n : Nat) : Statement (.commitArrival n) := of_none rfl rfl
theorem releaseArrival (n : Nat) : Statement (.releaseArrival n) := of_none rfl rfl
theorem generationTokenWait (c : Nat) (win : Nat) : Statement (.generationTokenWait c win) := of_none rfl rfl
theorem winCtlOpen (who : Who) (u : Nat) (win : Nat) (w : Nat) : Statement (.winCtlOpen who u win w) := by
  refine ⟨fun h => ⟨fun x e => ?_, fun v e => ?_⟩, none_spelled _⟩ <;> simp_all [wellFormed, writer, word]
theorem winCtlClose (who : Who) (u : Nat) (win : Nat) (w : Nat) : Statement (.winCtlClose who u win w) := by
  refine ⟨fun h => ⟨fun x e => ?_, fun v e => ?_⟩, none_spelled _⟩ <;> simp_all [wellFormed, writer, word]
theorem winMaskWrite (who : Who) (u : Nat) (win : Nat) (w : Nat) : Statement (.winMaskWrite who u win w) := by
  refine ⟨fun h => ⟨fun x e => ?_, fun v e => ?_⟩, none_spelled _⟩ <;> simp_all [wellFormed, writer, word]
theorem eccWriteBack (a : Nat) : Statement (.eccWriteBack a) := of_none rfl rfl
theorem wordTest (a : Nat) (pass : Bool) : Statement (.wordTest a pass) := of_none rfl rfl
theorem patrol (ch : Nat) (corrected : List Nat) (uncorrectable : List Nat) (t : Nat) : Statement (.patrol ch corrected uncorrectable t) := of_none rfl rfl
theorem edcRetry (ch : Nat) (a : Nat) (mismatches : Nat) : Statement (.edcRetry ch a mismatches) := of_none rfl rfl
theorem regionEntryWrite (who : Who) (p : Nat) (e : Nat) (lo : Nat) : Statement (.regionEntryWrite who p e lo) := by
  refine ⟨fun h => ⟨fun x e => ?_, fun v e => ?_⟩, none_spelled _⟩ <;> simp_all [wellFormed, writer, word]
theorem regionEntrySwitch (point : Nat) (p : Nat) (e : Nat) : Statement (.regionEntrySwitch point p e) := of_none rfl rfl
theorem fillGo (who : Who) (w : Nat) : Statement (.fillGo who w) := by
  refine ⟨fun h => ⟨fun x e => ?_, fun v e => ?_⟩, none_spelled _⟩ <;> simp_all [wellFormed, writer, word]
theorem fillDone : Statement (.fillDone) := of_none rfl rfl
theorem frame (u : Nat) (t : Nat) : Statement (.frame u t) := of_none rfl rfl
theorem imageRowProduce (u : Nat) : Statement (.imageRowProduce u) := of_none rfl rfl
theorem lineTimeout (u : Nat) (t : Nat) : Statement (.lineTimeout u t) := of_none rfl rfl
theorem fwd (u : Nat) : Statement (.fwd u) := of_none rfl rfl
theorem bwd (u : Nat) : Statement (.bwd u) := of_none rfl rfl
theorem ctxBind (u : Nat) : Statement (.ctxBind u) := of_none rfl rfl
theorem ctxAppend (u : Nat) : Statement (.ctxAppend u) := of_none rfl rfl
theorem ctxCommit (u : Nat) : Statement (.ctxCommit u) := of_none rfl rfl
theorem ctxFork (u : Nat) : Statement (.ctxFork u) := of_none rfl rfl
theorem ctxRelease (u : Nat) : Statement (.ctxRelease u) := of_none rfl rfl
theorem contextGrant (u : Nat) : Statement (.contextGrant u) := of_none rfl rfl
theorem attnCfgWrite (who : Who) (u : Nat) (pool : Bool) (w : Nat) : Statement (.attnCfgWrite who u pool w) := by
  refine ⟨fun h => ⟨fun x e => ?_, fun v e => ?_⟩, none_spelled _⟩ <;> simp_all [wellFormed, writer, word]
theorem attnCtxSel (who : Who) (u : Nat) (w : Nat) : Statement (.attnCtxSel who u w) := by
  refine ⟨fun h => ⟨fun x e => ?_, fun v e => ?_⟩, none_spelled _⟩ <;> simp_all [wellFormed, writer, word]
theorem calibrationUpdate (p : Nat) (t : Nat) : Statement (.calibrationUpdate p t) := of_none rfl rfl
theorem calibrationStoreWrite (t : Nat) : Statement (.calibrationStoreWrite t) := of_none rfl rfl
theorem frameStartEvent (t : Nat) : Statement (.frameStartEvent t) := of_none rfl rfl
theorem lsyncPulse (n : Nat) (t : Nat) : Statement (.lsyncPulse n t) := of_none rfl rfl
theorem step (who : Who) (w : Nat) (t : Nat) : Statement (.step who w t) := by
  refine ⟨fun h => ⟨fun x e => ?_, fun v e => ?_⟩, none_spelled _⟩ <;> simp_all [wellFormed, writer, word]
theorem heldStepEvent (t : Nat) : Statement (.heldStepEvent t) := of_none rfl rfl
theorem trigFsSeqWrite (who : Who) (n : Nat) (w : Nat) : Statement (.trigFsSeqWrite who n w) := by
  refine ⟨fun h => ⟨fun x e => ?_, fun v e => ?_⟩, none_spelled _⟩ <;> simp_all [wellFormed, writer, word]
theorem echoCfgWrite (who : Who) (n : Nat) (w : Nat) : Statement (.echoCfgWrite who n w) := by
  refine ⟨fun h => ⟨fun x e => ?_, fun v e => ?_⟩, none_spelled _⟩ <;> simp_all [wellFormed, writer, word]
theorem streamStale (n : Nat) (t : Nat) : Statement (.streamStale n t) := of_none rfl rfl
theorem lift (u : Nat) : Statement (.lift u) := of_none rfl rfl
theorem scatter (u : Nat) : Statement (.scatter u) := of_none rfl rfl
theorem raster (u : Nat) : Statement (.raster u) := of_none rfl rfl
theorem update : Statement (.update) := of_none rfl rfl
theorem forecast : Statement (.forecast) := of_none rfl rfl
theorem deleteTrack : Statement (.deleteTrack) := of_none rfl rfl
theorem trkNextIdWrite (who : Who) (w : Nat) : Statement (.trkNextIdWrite who w) := by
  refine ⟨fun h => ⟨fun x e => ?_, fun v e => ?_⟩, none_spelled _⟩ <;> simp_all [wellFormed, writer, word]
theorem trkSel (who : Who) (w : Nat) : Statement (.trkSel who w) := by
  refine ⟨fun h => ⟨fun x e => ?_, fun v e => ?_⟩, none_spelled _⟩ <;> simp_all [wellFormed, writer, word]
theorem check (u : Nat) : Statement (.check u) := of_none rfl rfl
theorem finalCheck (t : Nat) : Statement (.finalCheck t) := of_none rfl rfl
theorem drydownCompute (t : Nat) : Statement (.drydownCompute t) := of_none rfl rfl
theorem recordEmit (t : Nat) : Statement (.recordEmit t) := of_none rfl rfl
theorem handoverTimeout (t : Nat) : Statement (.handoverTimeout t) := of_none rfl rfl
theorem statusFrame (b : Bool) (t : Nat) : Statement (.statusFrame b t) := of_none rfl rfl
theorem push (who : Who) (q : Nat) (bytes : List Nat) : Statement (.push who q bytes) := by
  refine ⟨fun h => ⟨fun x e => ?_, fun v e => ?_⟩, none_spelled _⟩ <;> simp_all [wellFormed, writer, word]
theorem swTailWrite (who : Who) (q : Nat) (off : Nat) (bytes : List Nat) : Statement (.swTailWrite who q off bytes) := by
  refine ⟨fun h => ⟨fun x e => ?_, fun v e => ?_⟩, none_spelled _⟩ <;> simp_all [wellFormed, writer, word]
theorem qcfgHeadWrite (who : Who) (q : Nat) (w : Nat) : Statement (.qcfgHeadWrite who q w) := by
  refine ⟨fun h => ⟨fun x e => ?_, fun v e => ?_⟩, none_spelled _⟩ <;> simp_all [wellFormed, writer, word]
theorem completionPush (u : Nat) (t : Nat) : Statement (.completionPush u t) := of_none rfl rfl
theorem unreadableEntry (u : Nat) : Statement (.unreadableEntry u) := of_none rfl rfl
theorem slotBoundary (u : Nat) (t : Nat) : Statement (.slotBoundary u t) := of_none rfl rfl
theorem frameSelfWrap (u : Nat) (t : Nat) : Statement (.frameSelfWrap u t) := of_none rfl rfl
theorem frameStartReceive (u : Nat) (seq : Nat) (t : Nat) : Statement (.frameStartReceive u seq t) := of_none rfl rfl
theorem deadlineExpiry (u : Nat) (t : Nat) : Statement (.deadlineExpiry u t) := of_none rfl rfl
theorem admitJob (p : Nat) (t : Nat) : Statement (.admitJob p t) := of_none rfl rfl
theorem withdraw (p : Nat) (t : Nat) : Statement (.withdraw p t) := of_none rfl rfl
theorem restart (p : Nat) (t : Nat) : Statement (.restart p t) := of_none rfl rfl
theorem backupLaunch (q : Nat) (n : Nat) (t : Nat) : Statement (.backupLaunch q n t) := of_none rfl rfl
theorem suspectEvaluation (t : Nat) : Statement (.suspectEvaluation t) := of_none rfl rfl
theorem depositArrival (n : Nat) (t : Nat) : Statement (.depositArrival n t) := of_none rfl rfl
theorem comparisonTimeout (g : Nat) (t : Nat) : Statement (.comparisonTimeout g t) := of_none rfl rfl
theorem memberErrorNotice (g : Nat) (pos : Nat) : Statement (.memberErrorNotice g pos) := of_none rfl rfl
theorem resync (g : Nat) : Statement (.resync g) := of_none rfl rfl
theorem split (who : Who) (g : Nat) (w : Nat) : Statement (.split who g w) := by
  refine ⟨fun h => ⟨fun x e => ?_, fun v e => ?_⟩, none_spelled _⟩ <;> simp_all [wellFormed, writer, word]
theorem join (who : Who) (g : Nat) (w : Nat) : Statement (.join who g w) := by
  refine ⟨fun h => ⟨fun x e => ?_, fun v e => ?_⟩, none_spelled _⟩ <;> simp_all [wellFormed, writer, word]
theorem grow (who : Who) (g : Nat) (w : Nat) : Statement (.grow who g w) := by
  refine ⟨fun h => ⟨fun x e => ?_, fun v e => ?_⟩, none_spelled _⟩ <;> simp_all [wellFormed, writer, word]
theorem apCkptWrite (who : Who) (p : Nat) (w : Nat) : Statement (.apCkptWrite who p w) := by
  refine ⟨fun h => ⟨fun x e => ?_, fun v e => ?_⟩, none_spelled _⟩ <;> simp_all [wellFormed, writer, word]
theorem latentOverdue (t : Nat) : Statement (.latentOverdue t) := of_none rfl rfl
theorem islandSupervisionCycle (b : Bool) (t : Nat) (pass : Bool) : Statement (.islandSupervisionCycle b t pass) := of_none rfl rfl
theorem islandHardwareFail (b : Bool) (t : Nat) : Statement (.islandHardwareFail b t) := of_none rfl rfl
theorem heartbeatLoss (b : Bool) (t : Nat) : Statement (.heartbeatLoss b t) := of_none rfl rfl
theorem islandReboot (b : Bool) (t : Nat) : Statement (.islandReboot b t) := of_none rfl rfl
theorem handoverDecision (t : Nat) : Statement (.handoverDecision t) := of_none rfl rfl
theorem peerRecordReceive (b : Bool) (bytes : List Nat) (t : Nat) : Statement (.peerRecordReceive b bytes t) := of_none rfl rfl
theorem islandFrameRealign (b : Bool) (got : Bool) (t : Nat) : Statement (.islandFrameRealign b got t) := of_none rfl rfl
theorem failureDetectorSample (t : Nat) : Statement (.failureDetectorSample t) := of_none rfl rfl
theorem fence (who : Who) (u : Nat) : Statement (.fence who u) := by
  refine ⟨fun h => ⟨fun x e => ?_, fun v e => ?_⟩, none_spelled _⟩ <;> simp_all [wellFormed, writer, word]
theorem unfence (who : Who) (u : Nat) : Statement (.unfence who u) := by
  refine ⟨fun h => ⟨fun x e => ?_, fun v e => ?_⟩, none_spelled _⟩ <;> simp_all [wellFormed, writer, word]
theorem unitReinit (u : Nat) (pass : Bool) : Statement (.unitReinit u pass) := of_none rfl rfl
theorem blotterEntry (u : Nat) (t : Nat) (ok : Bool) : Statement (.blotterEntry u t ok) := of_none rfl rfl
theorem blotterExtra (u : Nat) (t : Nat) (ok : Bool) : Statement (.blotterExtra u t ok) := of_none rfl rfl
theorem quarantineEvaluation (e : Nat) (busy : Nat) (total : Nat) (t : Nat) : Statement (.quarantineEvaluation e busy total t) := of_none rfl rfl
theorem quarantineTableWrite (t : Nat) : Statement (.quarantineTableWrite t) := of_none rfl rfl
theorem modeRequest (p : Nat) (t : Nat) : Statement (.modeRequest p t) := of_none rfl rfl
theorem drydown (p : Nat) (t : Nat) : Statement (.drydown p t) := of_none rfl rfl
theorem safeEnter (p : Nat) (t : Nat) : Statement (.safeEnter p t) := of_none rfl rfl
theorem safeClear (p : Nat) (t : Nat) : Statement (.safeClear p t) := of_none rfl rfl
theorem unitResetRequest (p : Nat) (t : Nat) : Statement (.unitResetRequest p t) := of_none rfl rfl
theorem warmResetRequest (p : Nat) (t : Nat) : Statement (.warmResetRequest p t) := of_none rfl rfl
theorem warmReset (st : Start) (t : Nat) : Statement (.warmReset st t) := of_none rfl rfl
theorem quarSel (who : Who) (w : Nat) : Statement (.quarSel who w) := by
  refine ⟨fun h => ⟨fun x e => ?_, fun v e => ?_⟩, none_spelled _⟩ <;> simp_all [wellFormed, writer, word]
theorem freeze (who : Who) (w : Nat) (t : Nat) : Statement (.freeze who w t) := by
  refine ⟨fun h => ⟨fun x e => ?_, fun v e => ?_⟩, none_spelled _⟩ <;> simp_all [wellFormed, writer, word]
theorem freezeTimeout (t : Nat) : Statement (.freezeTimeout t) := of_none rfl rfl
theorem nonceRequest (who : Who) (w : Nat) (t : Nat) : Statement (.nonceRequest who w t) := by
  refine ⟨fun h => ⟨fun x e => ?_, fun v e => ?_⟩, none_spelled _⟩ <;> simp_all [wellFormed, writer, word]
theorem sillageClear (who : Who) (w : Nat) (t : Nat) : Statement (.sillageClear who w t) := by
  refine ⟨fun h => ⟨fun x e => ?_, fun v e => ?_⟩, none_spelled _⟩ <;> simp_all [wellFormed, writer, word]
theorem nonceExpiry (t : Nat) : Statement (.nonceExpiry t) := of_none rfl rfl
theorem sillagePersist (t : Nat) : Statement (.sillagePersist t) := of_none rfl rfl
theorem flcPulse (t : Nat) : Statement (.flcPulse t) := of_none rfl rfl
theorem lineFault (on : Bool) (t : Nat) : Statement (.lineFault on t) := of_none rfl rfl
theorem speedUpdate (t : Nat) : Statement (.speedUpdate t) := of_none rfl rfl
theorem plausibilitySample (t : Nat) : Statement (.plausibilitySample t) := of_none rfl rfl
theorem flcOdoWrite (who : Who) (w : Nat) : Statement (.flcOdoWrite who w) := by
  refine ⟨fun h => ⟨fun x e => ?_, fun v e => ?_⟩, none_spelled _⟩ <;> simp_all [wellFormed, writer, word]
theorem mirrorRefresh (t : Nat) : Statement (.mirrorRefresh t) := of_none rfl rfl
theorem sign (who : Who) (w : Nat) (t : Nat) : Statement (.sign who w t) := by
  refine ⟨fun h => ⟨fun x e => ?_, fun v e => ?_⟩, none_spelled _⟩ <;> simp_all [wellFormed, writer, word]
theorem openSession (who : Who) (w : Nat) (t : Nat) : Statement (.openSession who w t) := by
  refine ⟨fun h => ⟨fun x e => ?_, fun v e => ?_⟩, none_spelled _⟩ <;> simp_all [wellFormed, writer, word]
theorem setK (who : Who) (w : Nat) (t : Nat) : Statement (.setK who w t) := by
  refine ⟨fun h => ⟨fun x e => ?_, fun v e => ?_⟩, none_spelled _⟩ <;> simp_all [wellFormed, writer, word]
theorem reseal (who : Who) (w : Nat) (t : Nat) : Statement (.reseal who w t) := by
  refine ⟨fun h => ⟨fun x e => ?_, fun v e => ?_⟩, none_spelled _⟩ <;> simp_all [wellFormed, writer, word]
theorem fwUpdate (who : Who) (w : Nat) (t : Nat) : Statement (.fwUpdate who w t) := by
  refine ⟨fun h => ⟨fun x e => ?_, fun v e => ?_⟩, none_spelled _⟩ <;> simp_all [wellFormed, writer, word]
theorem closeSession (who : Who) (w : Nat) (t : Nat) : Statement (.closeSession who w t) := by
  refine ⟨fun h => ⟨fun x e => ?_, fun v e => ?_⟩, none_spelled _⟩ <;> simp_all [wellFormed, writer, word]
theorem block (who : Who) (w : Nat) (t : Nat) : Statement (.block who w t) := by
  refine ⟨fun h => ⟨fun x e => ?_, fun v e => ?_⟩, none_spelled _⟩ <;> simp_all [wellFormed, writer, word]
theorem sessionTimeout (t : Nat) : Statement (.sessionTimeout t) := of_none rfl rfl
theorem debugOpenSeal (t : Nat) : Statement (.debugOpenSeal t) := of_none rfl rfl
theorem flaconPowerOn (t : Nat) : Statement (.flaconPowerOn t) := of_none rfl rfl
theorem vanaFall (t : Nat) : Statement (.vanaFall t) := of_none rfl rfl
theorem nonce (who : Who) (w : Nat) (t : Nat) : Statement (.nonce who w t) := by
  refine ⟨fun h => ⟨fun x e => ?_, fun v e => ?_⟩, none_spelled _⟩ <;> simp_all [wellFormed, writer, word]
theorem unlock (who : Who) (w : Nat) (cut : Bool) (t : Nat) : Statement (.unlock who w cut t) := by
  refine ⟨fun h => ⟨fun x e => ?_, fun v e => ?_⟩, none_spelled _⟩ <;> simp_all [wellFormed, writer, word]
theorem provision (who : Who) (w : Nat) (t : Nat) : Statement (.provision who w t) := by
  refine ⟨fun h => ⟨fun x e => ?_, fun v e => ?_⟩, none_spelled _⟩ <;> simp_all [wellFormed, writer, word]
theorem attest (who : Who) (w : Nat) (t : Nat) : Statement (.attest who w t) := by
  refine ⟨fun h => ⟨fun x e => ?_, fun v e => ?_⟩, none_spelled _⟩ <;> simp_all [wellFormed, writer, word]
theorem firmwareUpdate (who : Who) (w : Nat) (upto : Nat) (t : Nat) : Statement (.firmwareUpdate who w upto t) := by
  refine ⟨fun h => ⟨fun x e => ?_, fun v e => ?_⟩, none_spelled _⟩ <;> simp_all [wellFormed, writer, word]
theorem trngHealthFail (t : Nat) : Statement (.trngHealthFail t) := of_none rfl rfl
theorem storeWrite (id : Nat) (res : Nat) : Statement (.storeWrite id res) := of_none rfl rfl
theorem packetReceive (l : Nat) (d : Nat) (bytes : List Nat) (bad : Bool) (t : Nat) : Statement (.packetReceive l d bytes bad t) := of_none rfl rfl
theorem ackReceive (l : Nat) (d : Nat) (seq : Nat) (t : Nat) : Statement (.ackReceive l d seq t) := of_none rfl rfl
theorem nakReceive (l : Nat) (d : Nat) (seq : Nat) (t : Nat) : Statement (.nakReceive l d seq t) := of_none rfl rfl
theorem creditReceive (l : Nat) (d : Nat) (hs : List Nat) (ds : List Nat) : Statement (.creditReceive l d hs ds) := of_none rfl rfl
theorem replayTimeout (l : Nat) (d : Nat) (t : Nat) : Statement (.replayTimeout l d t) := of_none rfl rfl
theorem linkRetrain (l : Nat) (bad0 : Nat) (bad1 : Nat) (t : Nat) : Statement (.linkRetrain l bad0 bad1 t) := of_none rfl rfl
theorem bondUncorrectable (cd : Nat) (u : Nat) (st : Strm) (t : Nat) : Statement (.bondUncorrectable cd u st t) := of_none rfl rfl
theorem linkTestMode (who : Who) (l : Nat) (w : Nat) (bad0 : Nat) (bad1 : Nat) (t : Nat) : Statement (.linkTestMode who l w bad0 bad1 t) := by
  refine ⟨fun h => ⟨fun x e => ?_, fun v e => ?_⟩, none_spelled _⟩ <;> simp_all [wellFormed, writer, word]
theorem flaconLinkRetry (bad0 : Nat) (bad1 : Nat) (t : Nat) : Statement (.flaconLinkRetry bad0 bad1 t) := of_none rfl rfl
theorem guestPowerSample (mw : Nat) (t : Nat) : Statement (.guestPowerSample mw t) := of_none rfl rfl
theorem guestFence (who : Who) (w : Nat) : Statement (.guestFence who w) := by
  refine ⟨fun h => ⟨fun x e => ?_, fun v e => ?_⟩, none_spelled _⟩ <;> simp_all [wellFormed, writer, word]
theorem gstWinWrite (who : Who) (n : Nat) (w : Nat) : Statement (.gstWinWrite who n w) := by
  refine ⟨fun h => ⟨fun x e => ?_, fun v e => ?_⟩, none_spelled _⟩ <;> simp_all [wellFormed, writer, word]
theorem combineBufferEmit (h : Nat) (out : Bool) (q : Nat) (off : Nat) (v : Nat) : Statement (.combineBufferEmit h out q off v) := of_none rfl rfl
theorem lock (p : Nat) (hart : Nat) (m : Bool) (parked : Bool) : Statement (.lock p hart m parked) := of_none rfl rfl
theorem apSplit (p : Nat) (hart : Nat) (m : Bool) : Statement (.apSplit p hart m) := of_none rfl rfl
theorem lockstepMismatch (p : Nat) : Statement (.lockstepMismatch p) := of_none rfl rfl
theorem rigStep (who : Who) (w : Nat) (t : Nat) : Statement (.rigStep who w t) := by
  refine ⟨fun h => ⟨fun x e => ?_, fun v e => ?_⟩, none_spelled _⟩ <;> simp_all [wellFormed, writer, word]
theorem rigInj (who : Who) (w : Nat) (t : Nat) : Statement (.rigInj who w t) := by
  refine ⟨fun h => ⟨fun x e => ?_, fun v e => ?_⟩, none_spelled _⟩ <;> simp_all [wellFormed, writer, word]
theorem pcieInboundRequest (bar : Nat) (off : Nat) (wr : Bool) (bytes : List Nat) (len : Nat) : Statement (.pcieInboundRequest bar off wr bytes len) := of_none rfl rfl
theorem apertureAccess (who : Who) (off : Nat) (wr : Bool) (bytes : List Nat) : Statement (.apertureAccess who off wr bytes) := by
  refine ⟨fun h => ⟨fun x e => ?_, fun v e => ?_⟩, none_spelled _⟩ <;> simp_all [wellFormed, writer, word]
theorem pcieCfgaGo (who : Who) (w : Nat) (resp : Nat) : Statement (.pcieCfgaGo who w resp) := by
  refine ⟨fun h => ⟨fun x e => ?_, fun v e => ?_⟩, none_spelled _⟩ <;> simp_all [wellFormed, writer, word]
theorem voltageRamp (t : Nat) : Statement (.voltageRamp t) := of_none rfl rfl
theorem powerLimiterSample (mw : Nat) (ma : Nat) (t : Nat) : Statement (.powerLimiterSample mw ma t) := of_none rfl rfl
theorem vbusLowThroughput (t : Nat) : Statement (.vbusLowThroughput t) := of_none rfl rfl
theorem pwrEnRise (t : Nat) : Statement (.pwrEnRise t) := of_none rfl rfl
theorem railGroupGood (st : Start) (t : Nat) : Statement (.railGroupGood st t) := of_none rfl rfl
theorem supplyMonitorSample (mv : List Nat) (t : Nat) : Statement (.supplyMonitorSample mv t) := of_none rfl rfl
theorem pwrEnFall (t : Nat) : Statement (.pwrEnFall t) := of_none rfl rfl
theorem vbusLoss (t : Nat) : Statement (.vbusLoss t) := of_none rfl rfl
theorem vbusRestore (t : Nat) : Statement (.vbusRestore t) := of_none rfl rfl
theorem porstNLow (t : Nat) : Statement (.porstNLow t) := of_none rfl rfl
theorem porstNRelease (st : Start) (t : Nat) : Statement (.porstNRelease st t) := of_none rfl rfl
theorem resetNLow (t : Nat) : Statement (.resetNLow t) := of_none rfl rfl
theorem resetNRelease (st : Start) (t : Nat) : Statement (.resetNRelease st t) := of_none rfl rfl
theorem clockFault (t : Nat) : Statement (.clockFault t) := of_none rfl rfl
theorem thermalSample (vals : List Nat) (t : Nat) : Statement (.thermalSample vals t) := of_none rfl rfl
theorem thermalTrip (d : Nat) (t : Nat) : Statement (.thermalTrip d t) := of_none rfl rfl
theorem tripRelease (st : Start) (t : Nat) : Statement (.tripRelease st t) := of_none rfl rfl
theorem coolantWindow (t : Nat) : Statement (.coolantWindow t) := of_none rfl rfl
theorem ageingMeasure (ages : List Nat) (t : Nat) : Statement (.ageingMeasure ages t) := of_none rfl rfl
theorem csiFrameStart (n : Nat) (vc : Nat) (t : Nat) : Statement (.csiFrameStart n vc t) := of_none rfl rfl
theorem csiEmbeddedData (n : Nat) (vc : Nat) (data : List Nat) (t : Nat) : Statement (.csiEmbeddedData n vc data t) := of_none rfl rfl
theorem csiLine (n : Nat) (vc : Nat) (dt : Nat) (data : List Nat) (ok : Bool) (t : Nat) : Statement (.csiLine n vc dt data ok t) := of_none rfl rfl
theorem csiFrameEnd (n : Nat) (vc : Nat) (t : Nat) : Statement (.csiFrameEnd n vc t) := of_none rfl rfl
theorem frameEndTimeout (n : Nat) (t : Nat) : Statement (.frameEndTimeout n t) := of_none rfl rfl
theorem camCfgWrite (who : Who) (n : Nat) (w : Nat) : Statement (.camCfgWrite who n w) := by
  refine ⟨fun h => ⟨fun x e => ?_, fun v e => ?_⟩, none_spelled _⟩ <;> simp_all [wellFormed, writer, word]
theorem ringDoorbell (who : Who) (g : Nat) (w : Nat) : Statement (.ringDoorbell who g w) := by
  refine ⟨fun h => ⟨fun x e => ?_, fun v e => ?_⟩, none_spelled _⟩ <;> simp_all [wellFormed, writer, word]
theorem ethTransmit (p : Nat) (t : Nat) : Statement (.ethTransmit p t) := of_none rfl rfl
theorem ethReceive (p : Nat) (frame : List Nat) (fcsOk : Bool) (t : Nat) : Statement (.ethReceive p frame fcsOk t) := of_none rfl rfl
theorem gptpSync (p : Nat) (time : Nat) (t : Nat) : Statement (.gptpSync p time t) := of_none rfl rfl
theorem qbvCtlWrite (who : Who) (p : Nat) (w : Nat) : Statement (.qbvCtlWrite who p w) := by
  refine ⟨fun h => ⟨fun x e => ?_, fun v e => ?_⟩, none_spelled _⟩ <;> simp_all [wellFormed, writer, word]
theorem qbvListInForce (p : Nat) (t : Nat) : Statement (.qbvListInForce p t) := of_none rfl rfl
theorem odometryFrame (b : Bool) (bytes : List Nat) (t : Nat) : Statement (.odometryFrame b bytes t) := of_none rfl rfl
theorem odometryStale (b : Bool) (t : Nat) : Statement (.odometryStale b t) := of_none rfl rfl
theorem canTransmit (c : Nat) (t : Nat) : Statement (.canTransmit c t) := of_none rfl rfl
theorem canReceive (c : Nat) (id : Nat) (ide : Bool) (brs : Bool) (data : List Nat) (t : Nat) : Statement (.canReceive c id ide brs data t) := of_none rfl rfl
theorem canBusOff (c : Nat) (t : Nat) : Statement (.canBusOff c t) := of_none rfl rfl
theorem registerWrite (who : Who) (a : Nat) (w : Nat) : Statement (.registerWrite who a w) := by
  refine ⟨fun h => ⟨fun x e => ?_, fun v e => ?_⟩, none_spelled _⟩ <;> simp_all [wellFormed, writer, word]
theorem syncLoss (p : Nat) (t : Nat) : Statement (.syncLoss p t) := of_none rfl rfl
theorem ethLinkChange (p : Nat) (up : Bool) (speed : Nat) (t : Nat) : Statement (.ethLinkChange p up speed t) := of_none rfl rfl
theorem pcieLinkChange (up : Bool) (gen : Nat) (width : Nat) (t : Nat) : Statement (.pcieLinkChange up gen width t) := of_none rfl rfl
theorem canErrorPassive (c : Nat) (t : Nat) : Statement (.canErrorPassive c t) := of_none rfl rfl
theorem machineTimerCompare (h : Nat) (t : Nat) : Statement (.machineTimerCompare h t) := of_none rfl rfl
theorem jobLost (j : Nat) (t : Nat) : Statement (.jobLost j t) := of_none rfl rfl
theorem powerCycle (t : Nat) : Statement (.powerCycle t) := of_none rfl rfl
theorem lostMirrorCopy (t : Nat) : Statement (.lostMirrorCopy t) := of_none rfl rfl
theorem secNonceExpiry (t : Nat) : Statement (.secNonceExpiry t) := of_none rfl rfl
theorem trngHealthPass (t : Nat) : Statement (.trngHealthPass t) := of_none rfl rfl
theorem tck (tms : Bool) (tdi : Bool) : Statement (.tck tms tdi) := of_none rfl rfl
theorem gateControlEntry (p : Nat) (t : Nat) : Statement (.gateControlEntry p t) := of_none rfl rfl
theorem unitInternalFault (u : Nat) : Statement (.unitInternalFault u) := of_none rfl rfl

end Sys2Proof.Laws.Shape
end

