-- ==== Sys2Proof/Tests/Slice0.lean ====
section
/-! SUPPORT. The model's own tests: an ill-formed command for each check, small results from the specification's words, and for
every statement with hypotheses a concrete state and operands that meet all of them. -/

open Sys2Proof Sys2Proof.Machine

namespace Sys2Proof.Tests

set_option Elab.async false

theorem witness_StepRunsTheFrontCommand :
    ({ State.reset with pending := [.frameStartEvent 5] } : State).pending = Instr.frameStartEvent 5 :: [] := rfl

theorem witness_IdleStepKeepsTheState : State.reset.pending = [] := rfl

theorem witness_QueueIsFirstInFirstOut : ∃ t, step State.reset = .next t := ⟨State.reset, rfl⟩

theorem witness_TimeNeverRunsBack : ∃ t, step { State.reset with now := 7 } = .next t := ⟨_, rfl⟩

theorem witness_MemoryStaysCanonical :
    Memory.wf (State.reset.setByte 7 3).mem = true ∧
      ∃ t, step { State.reset.setByte 7 3 with pending := [.fillDone] } = .next t := by
  refine ⟨by decide, ?_⟩
  exact ⟨_, rfl⟩

/-- Cell 3 is RUNNING with a program range of one page and the word `w` at offset 0. -/
def feState (w : Nat) (x : Cell) : State :=
  (((State.reset.setF (UNIT_STATUS 3) stSTATE stRunning).setF (UNIT_CTRL 3) ctrlPLEN 1).setCell 3
    { x with prog := [(0, BitVec.ofNat 64 w)] })

/-- The hypotheses of a front-end statement hold of `feState`. -/
theorem feRuns_feState {w code : Nat} {x : Cell} (h1 : (feState w x).feReady 3 = true) (h2 : (feState w x).fetch 3 = .ok w)
    (h3 : opCode w = code) (h4 : (feState w x).tokOk 3 w = true) (h5 : ((feState w x).cell 3).feSteps = 0 := by decide) :
    (feState w x).feRuns 3 code w := ⟨h1, h2, h3, h4, h5⟩

/-- The word of operation `o` of class `c` with the bits `rest` below its number. -/
def ins (c o rest : Nat) : Nat := op c o * 2 ^ 54 + rest

/-- The same for any state. -/
theorem feRuns_feState' {s : State} {w code : Nat} (h1 : s.feReady 3 = true) (h2 : s.fetch 3 = .ok w)
    (h3 : opCode w = code) (h4 : s.tokOk 3 w = true) (h5 : (s.cell 3).feSteps = 0 := by decide) : s.feRuns 3 code w :=
  ⟨h1, h2, h3, h4, h5⟩

theorem witness_nop : (feState (ins 0 0 0) {}).feRuns 3 (op 0 0) (ins 0 0 0) := feRuns_feState (by decide) rfl rfl rfl
/-- LOOP, count 0 in ICOUNT, a body of one word. -/
theorem witness_loop_skip : (feState (ins 0 1 (2 ^ 43 + 1)) {}).feRuns 3 (op 0 1) (ins 0 1 (2 ^ 43 + 1)) ∧
    ((feState (ins 0 1 (2 ^ 43 + 1)) {}).feTaken 3 (ins 0 1 (2 ^ 43 + 1))).pcOk 3 8 = true ∧
    bits (ins 0 1 (2 ^ 43 + 1)) 37 22 = 0 :=
  ⟨feRuns_feState (by decide) rfl rfl rfl, by decide, by decide⟩
/-- LOOP, the longest count of ICOUNT, 65,535. -/
theorem witness_loop_push :
    (feState (ins 0 1 (2 ^ 43 + 65535 * 2 ^ 22 + 1)) {}).feRuns 3 (op 0 1) (ins 0 1 (2 ^ 43 + 65535 * 2 ^ 22 + 1)) ∧
    ((feState (ins 0 1 (2 ^ 43 + 65535 * 2 ^ 22 + 1)) {}).feTaken 3 (ins 0 1 (2 ^ 43 + 65535 * 2 ^ 22 + 1))).pcOk 3 8 = true ∧
    bits (ins 0 1 (2 ^ 43 + 65535 * 2 ^ 22 + 1)) 37 22 ≠ 0 ∧
    ((feState (ins 0 1 (2 ^ 43 + 65535 * 2 ^ 22 + 1)) {}).feTaken 3 (ins 0 1 (2 ^ 43 + 65535 * 2 ^ 22 + 1)) |>.cell 3).loops.length < 8 :=
  ⟨feRuns_feState (by decide) rfl rfl rfl, by decide, by decide, by decide⟩
/-- BR with COND 1 (equal) on S0 and S0 is taken, with COND 2 (unequal) is not; the last offset of the range is a target. -/
theorem witness_br_taken : (feState (ins 0 2 (2 ^ 31 + 511)) {}).feRuns 3 (op 0 2) (ins 0 2 (2 ^ 31 + 511)) ∧
    branchTaken (bits (ins 0 2 (2 ^ 31 + 511)) 33 31) 0 0 = true ∧
    ((feState (ins 0 2 (2 ^ 31 + 511)) {}).feTaken 3 (ins 0 2 (2 ^ 31 + 511))).pcOk 3 (dispTarget (ins 0 2 (2 ^ 31 + 511)) 0) = true :=
  ⟨feRuns_feState (by decide) rfl rfl rfl, by decide, by decide⟩
theorem witness_br_passed : (feState (ins 0 2 (2 * 2 ^ 31 + 511)) {}).feRuns 3 (op 0 2) (ins 0 2 (2 * 2 ^ 31 + 511)) ∧
    branchTaken (bits (ins 0 2 (2 * 2 ^ 31 + 511)) 33 31) 0 0 = false :=
  ⟨feRuns_feState (by decide) rfl rfl rfl, by decide⟩
/-- The sixteenth CALL, and a RET. -/
theorem witness_call : (feState (ins 0 3 5) { calls := List.replicate 15 8 }).feRuns 3 (op 0 3) (ins 0 3 5) ∧
    ((feState (ins 0 3 5) { calls := List.replicate 15 8 }).feTaken 3 (ins 0 3 5) |>.cell 3).calls.length < 16 ∧
    ((feState (ins 0 3 5) { calls := List.replicate 15 8 }).feTaken 3 (ins 0 3 5)).pcOk 3 (dispTarget (ins 0 3 5) 0) = true :=
  ⟨feRuns_feState (by decide) rfl rfl rfl, by decide, by decide⟩
theorem witness_ret : (feState (ins 0 4 0) { calls := [24] }).feRuns 3 (op 0 4) (ins 0 4 0) ∧
    ((feState (ins 0 4 0) { calls := [24] }).feTaken 3 (ins 0 4 0) |>.cell 3).calls = [24] :=
  ⟨feRuns_feState (by decide) rfl rfl rfl, by decide⟩
/-- WAIT on token 15 at 1, POST of token 15 at 254. -/
theorem witness_wait : (feState (ins 8 0 (15 * 2 ^ 40)) { k := [(15, 1)] }).feRuns 3 (op 8 0) (ins 8 0 (15 * 2 ^ 40)) ∧
    ((feState (ins 8 0 (15 * 2 ^ 40)) { k := [(15, 1)] }).feTaken 3 (ins 8 0 (15 * 2 ^ 40)) |>.cell 3).rK 15 ≠ 0 :=
  ⟨feRuns_feState (by decide) rfl rfl rfl, by decide⟩
theorem witness_post : (feState (ins 8 1 (15 * 2 ^ 40)) { k := [(15, 254)] }).feRuns 3 (op 8 1) (ins 8 1 (15 * 2 ^ 40)) ∧
    ((feState (ins 8 1 (15 * 2 ^ 40)) { k := [(15, 254)] }).feTaken 3 (ins 8 1 (15 * 2 ^ 40)) |>.cell 3).rK 15 < 255 :=
  ⟨feRuns_feState (by decide) rfl rfl rfl, by decide⟩

/-- Each word with SD S31 or S0, SA S1 and SB S2, or the immediate 0xFFFFFFFF. -/
theorem witness_scalar : ∀ o ∈ List.range 13, ∀ d ∈ [0, 31], (feState (ins 1 o (d * 2 ^ 39 + 2 ^ 34 + 2 * 2 ^ 29)) {}).feRuns 3 (op 1 o)
    (ins 1 o (d * 2 ^ 39 + 2 ^ 34 + 2 * 2 ^ 29)) := by
  intro o ho d hd
  simp only [List.range, List.range.loop, List.mem_cons, List.not_mem_nil, or_false] at ho hd
  rcases ho with rfl | rfl | rfl | rfl | rfl | rfl | rfl | rfl | rfl | rfl | rfl | rfl | rfl <;>
  rcases hd with rfl | rfl <;> exact feRuns_feState (by decide) rfl rfl rfl
theorem witness_scalar_imm : ∀ o ∈ [16, 17, 18, 19, 24], (feState (ins 1 o (31 * 2 ^ 39 + 2 ^ 34 + 0xFFFFFFFF)) {}).feRuns 3
    (op 1 o) (ins 1 o (31 * 2 ^ 39 + 2 ^ 34 + 0xFFFFFFFF)) := by
  intro o ho
  simp only [List.mem_cons, List.not_mem_nil, or_false] at ho
  rcases ho with rfl | rfl | rfl | rfl | rfl <;> exact feRuns_feState (by decide) rfl rfl rfl
theorem witness_scalar_shift : ∀ o ∈ [20, 21, 22], (feState (ins 1 o (31 * 2 ^ 39 + 2 ^ 34 + 63)) {}).feRuns 3
    (op 1 o) (ins 1 o (31 * 2 ^ 39 + 2 ^ 34 + 63)) := by
  intro o ho
  simp only [List.mem_cons, List.not_mem_nil, or_false] at ho
  rcases ho with rfl | rfl | rfl <;> exact feRuns_feState (by decide) rfl rfl rfl
theorem witness_sli : (feState (ins 1 23 (31 * 2 ^ 39 + 0xFFFFFFFF)) {}).feRuns 3 (op 1 23) (ins 1 23 (31 * 2 ^ 39 + 0xFFFFFFFF)) :=
  feRuns_feState (by decide) rfl rfl rfl
theorem witness_smova : (feState (ins 1 35 (2 ^ 39 + 15 * 2 ^ 34)) {}).feRuns 3 (op 1 35) (ins 1 35 (2 ^ 39 + 15 * 2 ^ 34)) :=
  feRuns_feState (by decide) rfl rfl rfl
theorem witness_rdfl : (feState (ins 14 3 (2 ^ 39)) {}).feRuns 3 (op 14 3) (ins 14 3 (2 ^ 39)) :=
  feRuns_feState (by decide) rfl rfl rfl

/-- A1 at the last physical address, at the last local one, and reads of the cell's own scratchpad. -/
theorem witness_aadd_physical : (feState (ins 1 32 (2 ^ 34)) { a := [(1, 0xFFFFFFFFFFF)] }).feRuns 3 (op 1 32) (ins 1 32 (2 ^ 34)) ∧
    ((feState (ins 1 32 (2 ^ 34)) { a := [(1, 0xFFFFFFFFFFF)] }).feTaken 3 (ins 1 32 (2 ^ 34)) |>.cell 3 |>.rA 1).toNat < 2 ^ 44 :=
  ⟨feRuns_feState (by decide) rfl rfl rfl, by decide⟩
theorem witness_aaddi_local : (feState (ins 1 33 (2 ^ 34 + 0xFFFFFFFF)) { a := [(1, 0x800000FFFFFF)] }).feRuns 3 (op 1 33)
      (ins 1 33 (2 ^ 34 + 0xFFFFFFFF)) ∧
    2 ^ 47 ≤ ((feState (ins 1 33 (2 ^ 34 + 0xFFFFFFFF)) { a := [(1, 0x800000FFFFFF)] }).feTaken 3 (ins 1 33 (2 ^ 34 + 0xFFFFFFFF)) |>.cell 3 |>.rA 1).toNat ∧
    ((feState (ins 1 33 (2 ^ 34 + 0xFFFFFFFF)) { a := [(1, 0x800000FFFFFF)] }).feTaken 3 (ins 1 33 (2 ^ 34 + 0xFFFFFFFF)) |>.cell 3 |>.rA 1).toNat
      < 2 ^ 47 + 2 ^ 24 :=
  ⟨feRuns_feState (by decide) rfl rfl rfl, by decide, by decide⟩
theorem witness_amov : (feState (ins 1 34 (2 ^ 34)) {}).feRuns 3 (op 1 34) (ins 1 34 (2 ^ 34)) :=
  feRuns_feState (by decide) rfl rfl rfl
/-- Own scratchpad of cell 3, the doubleword before its base address plus 8. -/
theorem witness_sld : (feState (ins 1 40 (2 ^ 39 + 2 ^ 34 + 0xFFFFFFF8)) { a := [(1, BitVec.ofNat 48 (spadBase 3 + 8))] }).feRuns 3 (op 1 40)
      (ins 1 40 (2 ^ 39 + 2 ^ 34 + 0xFFFFFFF8)) ∧
    ((feState (ins 1 40 (2 ^ 39 + 2 ^ 34 + 0xFFFFFFF8)) { a := [(1, BitVec.ofNat 48 (spadBase 3 + 8))] }).feTaken 3
      (ins 1 40 (2 ^ 39 + 2 ^ 34 + 0xFFFFFFF8))).cellRead 3 .read (spadBase 3) 8 = .ok [0, 0, 0, 0, 0, 0, 0, 0] :=
  ⟨feRuns_feState (by decide) rfl rfl rfl, by rfl⟩
theorem witness_ald : (feState (ins 1 41 (2 ^ 39 + 2 ^ 34)) { a := [(1, BitVec.ofNat 48 (spadBase 3 + 8))] }).feRuns 3 (op 1 41)
      (ins 1 41 (2 ^ 39 + 2 ^ 34)) ∧
    ((feState (ins 1 41 (2 ^ 39 + 2 ^ 34)) { a := [(1, BitVec.ofNat 48 (spadBase 3 + 8))] }).feTaken 3
      (ins 1 41 (2 ^ 39 + 2 ^ 34))).cellRead 3 .read (spadBase 3 + 8) 8 = .ok [0, 0, 0, 0, 0, 0, 0, 0] :=
  ⟨feRuns_feState (by decide) rfl rfl rfl, by rfl⟩

/-- Barrier 5 of partition 0 with members 3 and 4. -/
def barState : State := (feState (ins 8 2 (5 * 2 ^ 38)) {}).setBarrier 5 { members := 24 }
theorem witness_bar : barState.feRuns 3 (op 8 2) (ins 8 2 (5 * 2 ^ 38)) ∧ (barState.feTaken 3 (ins 8 2 (5 * 2 ^ 38))).drained 3 = true ∧
    bit ((barState.feTaken 3 (ins 8 2 (5 * 2 ^ 38))).barrier 5).members 3 = true ∧
    ((barState.feTaken 3 (ins 8 2 (5 * 2 ^ 38))).barrier 5).owner = (barState.feTaken 3 (ins 8 2 (5 * 2 ^ 38))).partOf 3 ∧
    ((barState.feTaken 3 (ins 8 2 (5 * 2 ^ 38))).barrier 5).broken = false :=
  ⟨feRuns_feState' (by decide) rfl rfl rfl, by decide, by decide, by decide, by decide⟩
theorem witness_halt : (feState (ins 14 0 0) {}).feRuns 3 (op 14 0) (ins 14 0 0) ∧
    ((feState (ins 14 0 0) {}).feTaken 3 (ins 14 0 0)).drained 3 = true ∧
    Tab.find (((feState (ins 14 0 0) {}).feTaken 3 (ins 14 0 0)).unit 3).binds
      (((feState (ins 14 0 0) {}).feTaken 3 (ins 14 0 0)).itemJob 3) = none :=
  ⟨feRuns_feState (by decide) rfl rfl rfl, by decide, by decide⟩
/-- A work item of job 4 is bound to the cell. -/
def boundState : State := ((feState (ins 14 0 0) {}).setF (UNIT_PART 3) upJIDX 4).setUnit 3 { binds := [(4, { seq := 7 })] }
theorem witness_halt_bound : boundState.feRuns 3 (op 14 0) (ins 14 0 0) ∧ (boundState.feTaken 3 (ins 14 0 0)).drained 3 = true ∧
    Tab.find ((boundState.feTaken 3 (ins 14 0 0)).unit 3).binds ((boundState.feTaken 3 (ins 14 0 0)).itemJob 3) = some { seq := 7 } :=
  ⟨feRuns_feState' (by decide) rfl rfl rfl, by decide, by decide⟩
/-- Queue 5 of partition 0, 16 entries at the start of common store 0, empty; the entry to push stands in the own scratchpad. -/
def enqState : State :=
  let s := feState (ins 11 0 (5 * 2 ^ 30 + 2 ^ 26)) { a := [(1, BitVec.ofNat 48 (spadBase 3))] }
  ((s.setF (qCtl 5) qEN 1).setF (qRing 5) qLDEPTH 4).setF (qRing 5) qBASE (csBase 0 / 64)
def enqRead : State := (enqState.feTaken 3 (ins 11 0 (5 * 2 ^ 30 + 2 ^ 26))).noteRead 3
  ((enqState.feTaken 3 (ins 11 0 (5 * 2 ^ 30 + 2 ^ 26))).partOf 3) (spadBase 3) 64
theorem witness_enq : enqState.feRuns 3 (op 11 0) (ins 11 0 (5 * 2 ^ 30 + 2 ^ 26)) ∧
    ((enqState.feTaken 3 (ins 11 0 (5 * 2 ^ 30 + 2 ^ 26))).cell 3 |>.rA 1).toNat = spadBase 3 ∧
    (∃ l, (enqState.feTaken 3 (ins 11 0 (5 * 2 ^ 30 + 2 ^ 26))).cellRead 3 .read (spadBase 3) 64 = .ok l) ∧
    enqRead.qReaches 5 = true ∧ enqRead.qPart (enqRead.qTarget 5) = (enqState.feTaken 3 (ins 11 0 (5 * 2 ^ 30 + 2 ^ 26))).partOf 3 ∧
    isFeed (enqRead.qTarget 5) = false :=
  ⟨feRuns_feState' (by decide) rfl rfl rfl, by decide, ⟨_, rfl⟩, by decide, by decide, by decide⟩
/-- Step `k` of an image that goes to the start of the own scratchpad. -/
def snapState (k : Nat) : State := feState (ins 14 1 (2 ^ 40)) { a := [(1, BitVec.ofNat 48 (spadBase 3))], feSteps := k }
theorem witness_snap : ∀ k ∈ [0, 4], (snapState k).feAt 3 (op 14 1) (ins 14 1 (2 ^ 40)) k ∧
    ((snapState k).feSees 3 (ins 14 1 (2 ^ 40)) k).drained 3 = true ∧
    (((snapState k).feSees 3 (ins 14 1 (2 ^ 40)) k).cell 3 |>.rA 1).toNat = spadBase 3 ∧
    ((snapState k).feSees 3 (ins 14 1 (2 ^ 40)) k).imagePlace 3 (spadBase 3) = .ok () := by
  intro k hk
  simp only [List.mem_cons, List.not_mem_nil, or_false] at hk
  rcases hk with rfl | rfl <;> exact ⟨⟨by decide, rfl, rfl, fun _ => rfl, by decide⟩, by decide, by decide, rfl⟩
/-- No word has a memory error, so no step of writing any image fails. -/
theorem witness_snap_steps (im : List Nat) : ∀ k ∈ [0, 4],
    (((snapState k).feSees 3 (ins 14 1 (2 ^ 40)) k).putImage 3 (spadBase 3) k im).2 = 0 := by
  intro k hk
  simp only [List.mem_cons, List.not_mem_nil, or_false] at hk
  have e : ((snapState k).feSees 3 (ins 14 1 (2 ^ 40)) k).ecc = [] := by rcases hk with rfl | rfl <;> rfl
  obtain ⟨t, ht, -⟩ := State.putImage_clean e 3 (by decide : mainSize < spadBase 3) k im
  rw [ht]
/-- Step `k` of clearing what `v` names. -/
def scrubState (v k : Nat) : State := feState (ins 14 2 (31 * 2 ^ 39)) { s := [(31, BitVec.ofNat 64 v)], feSteps := k }
/-- All of the scratchpad but its first 64 bytes, the first and the last step; nothing at its end. -/
theorem witness_scrub : ∀ x ∈ [(64 + (spadSize - 64) * 2 ^ 32, 0), (64 + (spadSize - 64) * 2 ^ 32, 95), (spadSize, 0)],
    (scrubState x.1 x.2).feAt 3 (op 14 2) (ins 14 2 (31 * 2 ^ 39)) x.2 ∧
    ((scrubState x.1 x.2).feSees 3 (ins 14 2 (31 * 2 ^ 39)) x.2).drained 3 = true ∧
    ((((scrubState x.1 x.2).feSees 3 (ins 14 2 (31 * 2 ^ 39)) x.2).cell 3).rS 31).toNat = x.1 := by
  intro v hv
  simp only [List.mem_cons, List.not_mem_nil, or_false] at hv
  rcases hv with rfl | rfl | rfl <;> exact ⟨⟨by decide, rfl, rfl, fun _ => rfl, by decide⟩, by decide, by decide⟩
theorem witness_clrfl : (feState (ins 14 4 21) {}).feRuns 3 (op 14 4) (ins 14 4 21) := feRuns_feState (by decide) rfl rfl rfl

/-- The stream instructions: operation and plan. -/
def streamRows (c : Nat) : List (Nat × (State → QEntry → Except Nat Plan)) :=
  [(op 2 0, planLdt c), (op 2 1, planLdw c), (op 3 0, planStt c), (op 3 1, planScat c),
   (op 4 0, planTzero c), (op 4 1, planTmma c), (op 4 2, planTrd c), (op 5 0, planVadd c),
   (op 5 1, planVsub c), (op 5 2, planVmul c), (op 5 3, planVfma c), (op 5 4, planVmax c),
   (op 5 5, planVmin c), (op 5 6, planVexp c), (op 5 7, planVrcp c), (op 5 8, planVrsq c),
   (op 5 9, planVcmp c), (op 5 10, planVsel c), (op 5 11, planVand c), (op 5 12, planVor c),
   (op 5 13, planVxor c), (op 5 14, planVmov c), (op 5 15, planVbcast c), (op 5 16, planVld c),
   (op 5 17, planVst c), (op 6 0, planVdw c), (op 7 0, planRstat c), (op 7 1, planRnorm c),
   (op 9 0, planWopen c), (op 9 1, planWclose c), (op 10 0, planCkpt c), (op 10 1, planCommit c),
   (op 12 0, planCvt c), (op 12 1, planCvtv c), (op 13 0, planGath c)]
/-- Stream `st` of cell 3, RUNNING, has begun the word `w` with the bound operands `ops`. -/
def stState (st : Strm) (w : Nat) (ops : List Nat) (x : Cell) : State :=
  (State.reset.setF (UNIT_STATUS 3) stSTATE stRunning).setCell 3
    (x.setStream st { q := [{ word := BitVec.ofNat 64 w, off := 0, ops := ops, begun := true }] })
/-- Its entry. -/
def stEntry (w : Nat) (ops : List Nat) : QEntry := { word := BitVec.ofNat 64 w, off := 0, ops := ops, begun := true }
/-- Bytes of `n`-byte numbers. -/
def nums (n : Nat) (l : List Nat) : List Byte := byteList (l.flatMap (bytesOf n))
/-- A tensor descriptor: base, scale base, format, rank, dimensions, strides. -/
def descBytes (base sbase fmt rank : Nat) (d st : List Nat) : List Byte :=
  nums 8 [base, sbase] ++ nums 1 [fmt, rank] ++ nums 6 [0] ++ nums 4 d ++ nums 4 st ++ nums 4 [0, 0, 0]
/-- Put bytes at offset `o` of the scratchpad of cell 3. -/
def inSpad (o : Nat) (bs : List Byte) (s : State) : State := s.putBytes (spadBase 3 + o) bs

/-- LDT into a load queue of 63 entries; VADD into a vector queue of 31. -/
theorem witness_deliver_ldt :
    let s := feState (ins 2 0 0) { load := { q := List.replicate 63 (stEntry 0 []) } }
    s.feReady 3 = true ∧ s.fetch 3 = .ok (ins 2 0 0) ∧ streamOf (ins 2 0 0) = .load ∧ ((s.cell 3).stream .load).q.length = 63 :=
  ⟨by decide, rfl, rfl, by decide⟩
theorem witness_deliver_vadd :
    let s := feState (ins 5 0 (10 * 2 ^ 20)) { vector := { q := List.replicate 31 (stEntry 0 []) } }
    s.feReady 3 = true ∧ s.fetch 3 = .ok (ins 5 0 (10 * 2 ^ 20)) ∧ streamOf (ins 5 0 (10 * 2 ^ 20)) = .vector ∧
    ((s.cell 3).stream .vector).q.length = 31 :=
  ⟨by decide, rfl, rfl, by decide⟩

/-- Descriptors of cell 3 at offsets 0, 64, 128, … of its scratchpad; tensors from offset 0x1000 on. -/
def descs (l : List (List Byte)) : State → State := inSpad 0 l.flatten
/-- A descriptor of a tensor at offset `o` of the scratchpad of cell 3. -/
def tens (o fmt rank : Nat) (d st : List Nat) : List Byte := descBytes (spadBase 3 + o) 0 fmt rank d st
/-- A walker over a map of `fh` × `fw` with one output pixel and a kernel of one element, `cn` channels, one group. -/
def walk (fh fw oh ow cn : Nat) : List Byte :=
  nums 1 [1, 1, 1, 1, 1, 1, 0, 1] ++ nums 2 [0, 0, 0, 0] ++ nums 4 [0] ++ nums 2 [oh, ow, fh, fw, 0, 0, 0, cn] ++ nums 1 (List.replicate 28 0)
def dref (i : Nat) : Nat := 2 ^ 47 + 64 * i
/-- A state of cell 3 and the bits of the word and the bound operands with which each stream instruction runs. -/
def runCase (code : Nat) : (State → State) × Nat × List Nat :=
  if code = op 2 0 ∨ code = op 3 0 then (descs [tens 0x1000 2 1 [2, 1, 1, 1] [0, 0, 0], tens 0x1100 2 1 [2, 1, 1, 1] [0, 0, 0]], 0, [dref 0, dref 1, 0, 0])
  else if code = op 2 1 then
    (descs [tens 0x1000 1 2 [64, 1, 1, 1] [64, 0, 0], tens 0x1100 1 3 [1, 1, 1, 1] [1, 1, 0], walk 1 1 1 1 1], 0,
      [dref 0, dref 1, dref 2, 2 ^ 32, 0])
  else if code = op 13 0 ∨ code = op 3 1 then
    (descs [tens 0x1000 1 2 [2, 1, 1, 1] [2, 0, 0], tens 0x1100 1 2 [2, 1, 1, 1] [2, 0, 0], tens 0x1200 3 1 [1, 1, 1, 1] [0, 0, 0]], 0,
      [dref 0, dref 1, dref 2, 0, 0])
  else if code = op 4 1 then (descs [tens 0x1000 1 2 [64, 1, 1, 1] [64, 0, 0], tens 0x1100 1 2 [64, 1, 1, 1] [64, 0, 0]], 0, [dref 0, dref 1, 0, 0])
  else if code = op 4 2 then (descs [tens 0x1000 3 2 [1, 1, 1, 1] [4, 0, 0]], 0, [dref 0, 0])
  else if code = op 12 0 then
    (descs [tens 0x1000 10 1 [2, 1, 1, 1] [0, 0, 0], tens 0x1100 1 1 [2, 1, 1, 1] [0, 0, 0]], 0, [dref 0, dref 1, 0, 0, 0, 0, 0])
  else if code = op 12 1 then (id, 10 * 2 ^ 30 + 3 * 2 ^ 26, [0])
  else if code = op 7 0 then
    (descs [tens 0x1000 10 2 [2, 1, 1, 1] [8, 0, 0], tens 0x1100 10 2 [1, 1, 1, 1] [4, 0, 0]], 2 ^ 24, [dref 0, dref 1, 0, 0, 0x3F800000])
  else if code = op 7 1 then
    (descs [tens 0x1000 10 2 [1, 1, 1, 1] [4, 0, 0], tens 0x1100 10 2 [1, 1, 1, 1] [4, 0, 0], tens 0x1200 10 2 [2, 1, 1, 1] [8, 0, 0]], 2 ^ 20,
      [dref 0, dref 1, dref 2, 0, 0])
  else if code = op 6 0 then
    (descs [tens 0x1000 3 2 [1, 1, 1, 1] [4, 0, 0], tens 0x1100 1 3 [1, 1, 1, 1] [1, 1, 0], walk 1 1 1 1 1, tens 0x1200 1 4 [1, 1, 1, 1] [1, 1, 1]], 0,
      [dref 0, dref 1, dref 2, dref 3, 2 ^ 32, 0])
  else if code = op 9 0 ∨ code = op 9 1 then
    (fun s => (s.setF (winCtl 3 0) winOWNV 1).setF (winCtl 3 0) winLANES 1, 0, [64 * 2 ^ 32, 1])
  else if code = op 10 1 then (id, 0, [2 ^ 10 + 4])
  else (id, 10 * 2 ^ 20, [0])
def runWord (code : Nat) : Nat := code * 2 ^ 54 + (runCase code).2.1
def runState (code : Nat) : State := (runCase code).1 (stState (streamClass (code / 64)) (runWord code) (runCase code).2.2 {})
def runEntry (code : Nat) : QEntry := stEntry (runWord code) (runCase code).2.2
theorem witness_stream_runs : ∀ code ∈ (streamRows 3).map (fun r => r.1),
    (runState code).stRuns 3 code (streamClass (code / 64)) 0 (runEntry code) := by
  unfold State.stRuns
  decide +kernel
theorem witness_stream_plans : (streamRows 3).all (fun r => (runState r.1).planRuns r.2 (runEntry r.1)) = true := by
  decide +kernel

theorem witness_step : ∃ p t, planTzero 3 (runState (op 4 0)) (runEntry (op 4 0)) = .ok p ∧ (runEntry (op 4 0)).steps < p.total ∧
    p.step (runState (op 4 0)) 0 = .ok (t, 0) :=
  ⟨_, _, rfl, by decide, rfl⟩

/-- The runs of `witness_stream_runs` start at step 0; VLD and VST have their addresses at the last place of the scratchpad. -/
theorem witness_vector : ∀ o ∈ List.range 18, (runState (op 5 o)).stRuns 3 (op 5 o) .vector 0 (runEntry (op 5 o)) ∧
    (runEntry (op 5 o)).steps = 0 := by
  unfold State.stRuns
  decide +kernel
theorem witness_vld : let s := stState .vector (op 5 16 * 2 ^ 54) [spadSize - 256] {}
    vecAddr 3 (stEntry (op 5 16 * 2 ^ 54) [spadSize - 256]) = .ok (spadBase 3 + spadSize - 256) ∧
    (s.cellRead 3 .own (spadBase 3 + spadSize - 256) 256).toOption.isSome = true := by
  decide +kernel
theorem witness_vst : let s := stState .vector (op 5 17 * 2 ^ 54) [spadSize - 256] {}
    vecAddr 3 (stEntry (op 5 17 * 2 ^ 54) [spadSize - 256]) = .ok (spadBase 3 + spadSize - 256) ∧
    (s.cellWrite 3 0 (spadBase 3 + spadSize - 256) (byteList (List.replicate 256 0))).2 = false ∧
    (List.range 64).all (fun l => (s.cell 3).rV 0 l = 0) = true := by
  decide +kernel

theorem witness_tzero : (runState (op 4 0)).stRuns 3 (op 4 0) .tensor 0 (runEntry (op 4 0)) ∧ (runEntry (op 4 0)).steps = 0 := by
  unfold State.stRuns
  decide +kernel

/-- One row of 64 INT8 elements on each side. -/
theorem witness_tmma_step :
    ((runState (op 4 1)).desc 3 ((runEntry (op 4 1)).op 0) ((runEntry (op 4 1)).op 2)).toOption.map (fun d => (d.d0, d.d1)) = some (64, 1) ∧
    ((runState (op 4 1)).desc 3 ((runEntry (op 4 1)).op 1) ((runEntry (op 4 1)).op 3)).toOption.map (fun d => (d.d0, d.d1)) = some (64, 1) ∧
    (runState (op 4 1)).planRuns (planTmma 3) (runEntry (op 4 1)) = true := by
  decide +kernel

/-- Window 0 of cell 3, granted, opened over the first line; the last commit slot; a cell in a group and one in none. -/
theorem witness_wopen : (runState (op 9 0)).stRuns 3 (op 9 0) .store 0 (runEntry (op 9 0)) ∧ (runState (op 9 0)).winGranted 3 0 = true ∧
    (runEntry (op 9 0)).op 0 = 0 + 64 * 2 ^ 32 ∧
    (runState (op 9 0)).winRangeOk 3 0 0 1 ((runState (op 9 0)).getF (winCtl 3 0) winLANES) 0 = true := by
  unfold State.stRuns
  decide +kernel
theorem witness_wclose : (runState (op 9 1)).stRuns 3 (op 9 1) .store 0 (runEntry (op 9 1)) ∧ (runState (op 9 1)).winGranted 3 0 = true := by
  unfold State.stRuns
  decide +kernel
theorem witness_commit : (stState .store (op 10 1 * 2 ^ 54) [47 + 64 * 15 + 1024] {}).stRuns 3 (op 10 1) .store 0
    (stEntry (op 10 1 * 2 ^ 54) [47 + 64 * 15 + 1024]) := by
  unfold State.stRuns
  decide +kernel
theorem witness_ckpt : (runState (op 10 0)).stRuns 3 (op 10 0) .store 0 (runEntry (op 10 0)) ∧ (runState (op 10 0)).flag (UNIT_RG 3) rgV = false ∧
    ((runState (op 10 0)).setF (UNIT_RG 3) rgV 1).stRuns 3 (op 10 0) .store 0 (runEntry (op 10 0)) ∧
    ((runState (op 10 0)).setF (UNIT_RG 3) rgV 1).flag (UNIT_RG 3) rgV = true := by
  unfold State.stRuns
  decide +kernel

/-- A VADD waits with token 2 at 1; a VADD is done and posts token 3, which stands at 254 or 255; another posts nothing. -/
def ctlWord (p : Nat) : Nat := ins 5 0 (10 * 2 ^ 20 + 2 ^ 53 + 2 * 2 ^ 49 + p * (2 ^ 48 + 3 * 2 ^ 44))
def ctlState (begun done : Bool) (stall : Option Nat) (p k3 : Nat) (bar : BarWait) : State :=
  (State.reset.setF (UNIT_STATUS 3) stSTATE stRunning).setCell 3
    { k := [(2, 1), (3, k3)], bar := bar, vector := { q := [{ word := BitVec.ofNat 64 (ctlWord p), off := 0, begun := begun, done := done }], stall := stall } }
theorem witness_begin : let s := ctlState false false none 1 254 .none
    s.cellGoes 3 = true ∧ firstOpen ((s.cell 3).stream .vector).q = 0 ∧ s.tokOk 3 (ctlWord 1) = true ∧ encOk (ctlWord 1) = true ∧
    streamOf (ctlWord 1) = .vector ∧ ((s.cell 3).stream .vector).q[0]?.map (fun e => (e.word.toNat, e.begun)) = some (ctlWord 1, false) := by
  decide +kernel
theorem witness_complete : ∀ p ∈ [0, 1], ∀ k ∈ [254, 255], let s := ctlState true true none p k .none
    s.cellGoes 3 = true ∧ insP (ctlWord p) = p ∧ ((s.cell 3).stream .vector).stall = none ∧ (s.cell 3).rK 3 = k ∧
    ((s.cell 3).stream .vector).q.map (fun e => (e.word.toNat, e.done, e.bad)) = [(ctlWord p, true, 0)] := by
  decide +kernel
theorem witness_stall : ∀ k ∈ [254, 255], let s := ctlState true true (some 0) 1 k .none
    s.stalledPost 3 .vector = some (3, 0, 0) ∧ (s.cell 3).rK 3 = k ∧ 0 + us (s.getF (UNIT_CTRL 3) ctrlSTALL) ≤ us 2000 ∧
    s.stalledSince 3 0 = if k = 255 then [.vector] else [] := by
  decide +kernel
theorem witness_released : ((ctlState false false none 0 0 (.released 7)).cell 3).bar = .released 7 := by decide +kernel

/-- The words: UNIT_RESET, JOB_RESET, STOP and RESUME in bits of UNIT_CTRL; a fenced unit takes the first. -/
theorem witness_ctrl : ctrlUNIT_RESET.of (2 ^ ctrlUNIT_RESET.lo) = 1 ∧ ctrlJOB_RESET.of (2 ^ ctrlJOB_RESET.lo) = 1 ∧
    ctrlUNIT_RESET.of (2 ^ ctrlJOB_RESET.lo) = 0 ∧ ctrlSTOP.of (2 ^ ctrlSTOP.lo) = 1 ∧ ctrlUNIT_RESET.of (2 ^ ctrlSTOP.lo) = 0 ∧
    ctrlJOB_RESET.of (2 ^ ctrlSTOP.lo) = 0 ∧ ctrlRESUME.of (2 ^ ctrlRESUME.lo) = 1 ∧ ctrlUNIT_RESET.of (2 ^ ctrlRESUME.lo) = 0 ∧
    ctrlJOB_RESET.of (2 ^ ctrlRESUME.lo) = 0 ∧ ctrlSTOP.of (2 ^ ctrlRESUME.lo) = 0 ∧ State.reset.ctrlClosed 62 = false ∧
    (State.reset.setUnitState 47 stRunning).unitState 47 = stRunning ∧
    ((State.reset.setUnitState 47 stRunning).setF (UNIT_PART 47) upJIDX 4).isRuntimeOf (.runtime 0) 47 = true ∧ (State.reset.setUnitState 47 stStopped).unitState 47 = stStopped := by
  decide +kernel
def snapW (o : Nat) : Nat := o * 2 ^ snapOP.lo + spadBase 3 / 64 * 2 ^ snapADDR.lo
/-- Cell 3 is IDLE; its own scratchpad holds nothing but the header of an image of an idle cell, all else zero. -/
theorem witness_unitSnap : let s1 := State.reset.setF (UNIT_SNAP 3) snapADDR (snapADDR.of (snapW 1))
    let e := s1.endSteps 3
    snapOP.of (snapW 1) = 1 ∧ snapADDR.of (snapW 1) * 64 = spadBase 3 ∧ State.reset.unitState 3 < stFenced ∧
    State.reset.getF (UNIT_SNAP 3) snapSTATUS ≠ 1 ∧ e.asking 3 = false ∧ (e.unit 3).pend = [] ∧
    s1.snapPlaceOk .islandA 3 (spadBase 3) imageSize true = true ∧ e.unitState 3 < stFenced ∧ e.ecc = [] := by
  decide +kernel
/-- Writes to the scratchpad succeed where no word has a memory error. -/
theorem witness_unitSnap_write (s : State) (h : s.ecc = []) (bs : List Byte) (p q : Nat) (n : Nat) :
    (s.writeMem 3 p (spadBase 3 + 64) (bs.drop n)).2 = false ∧
    ((s.writeMem 3 p (spadBase 3 + 64) (bs.drop n)).1.writeMem 3 q (spadBase 3) (bs.take n)).2 = false :=
  ⟨State.writeMem_clean h 3 p (a := spadBase 3 + 64) (by decide) _,
    State.writeMem_clean (State.writeMem_ecc h 3 p (a := spadBase 3 + 64) (by decide) _) 3 q (a := spadBase 3) (by decide) _⟩
/-- Cell 3 has a write on its way. -/
theorem witness_unitSnap_busy : let s := State.reset.send { src := 3, part := 0, tag := 0, dst := 4, ins := 1, body := .commit 0 }
    ((s.setF (UNIT_SNAP 3) snapADDR (snapADDR.of (snapW 1))).endSteps 3).asking 3 = true ∧ s.unitState 3 < stFenced := by
  decide +kernel
def imageState : State := inSpad 0 (nums 4 [imageMagic] ++ nums 2 [1]) State.reset
theorem witness_restore : let s1 := imageState.setF (UNIT_SNAP 3) snapADDR (snapADDR.of (snapW 2))
    snapOP.of (snapW 2) = 2 ∧ snapADDR.of (snapW 2) * 64 = spadBase 3 ∧ imageState.unitState 3 = stIdle ∧
    s1.snapPlaceOk .islandA 3 (spadBase 3) imageSize false = true ∧ s1.readFails 3 (s1.partOf 3) (spadBase 3) imageSize = false ∧
    s1.le (spadBase 3) 4 = imageMagic ∧ s1.le (spadBase 3 + 4) 2 = 1 ∧ imageOk (s1.rdAt (spadBase 3)) = true := by
  decide +kernel
/-- One word, NOP, for the last page of the store. -/
def segState : State := inSpad 0 (nums 4 [0x50474C50] ++ nums 2 [1, 0] ++ nums 4 [8, 64 * 4096 - 8, 0x8c28b28a] ++ nums 1 [63, 1]) State.reset
theorem witness_pload : let s1 := segState.setF (UNIT_SNAP 3) snapADDR (snapADDR.of (snapW 3))
    snapOP.of (snapW 3) = 3 ∧ s1.snapPlaceOk .islandA 3 (spadBase 3) 72 false = true ∧ s1.snapPlaceOk .islandA 3 (spadBase 3) 64 false = true ∧
    s1.readFails 3 (s1.partOf 3) (spadBase 3) 64 = false ∧ segmentOk (s1.rdAt (spadBase 3)) = true ∧
    s1.segmentFits 3 (64 * 4096 - 8) 8 63 1 = true ∧ s1.readFails 3 (s1.partOf 3) (spadBase 3) 72 = false ∧
    crc32c (s1.bytes (spadBase 3 + 64) 8) = s1.rdAt (spadBase 3) 0x10 4 := by
  decide +kernel

/-- Barrier 9 of partition 2: members 48 and 63; slot 48 arrives first, then slot 63 completes, cell 5 waiting. -/
def arrState (a : Nat) : State := ((State.reset.setBarrier 9 { members := 2 ^ 48 + 2 ^ 63, owner := 2, arrived := a }).setCell 5 { bar := .waiting 9 })
theorem witness_arrive : bit ((arrState 0).barrier 9).members 48 = true ∧ ((arrState 0).barrier 9).owner = 2 ∧
    ((arrState 0).barrier 9).broken = false ∧ bit ((arrState 0).barrier 9).arrived 48 = false ∧ ((arrState 0).barrier 9).held = [] ∧
    setBit ((arrState 0).barrier 9).arrived 48 ≠ ((arrState 0).barrier 9).members := by
  decide +kernel
theorem witness_arrive_last : bit ((arrState (2 ^ 48)).barrier 9).members 63 = true ∧ ((arrState (2 ^ 48)).barrier 9).broken = false ∧
    bit ((arrState (2 ^ 48)).barrier 9).arrived 63 = false ∧ setBit ((arrState (2 ^ 48)).barrier 9).arrived 63 = ((arrState (2 ^ 48)).barrier 9).members ∧
    ((arrState (2 ^ 48)).cell 5).bar = .waiting 9 := by
  decide +kernel
theorem witness_engine_arrives : let s := ((((arrState 0).setUnitState 48 stRunning).setF (UNIT_PART 48) upPART 2).setF (UNIT_PART 48) upJIDX 3).setUnit 48 { binds := [(3, { type := 4, prog := 9 })] }
    s.unitState 48 = stRunning ∧ s.itemOf 48 = some { type := 4, prog := 9 } ∧ s.unacked 48 = false ∧ bit (s.barrier 9).members 48 = true ∧
    (s.barrier 9).owner = s.partOf 48 ∧ (s.barrier 9).broken = false := by
  decide +kernel
theorem witness_barHart : bhBID.of (9 * 2 ^ bhBID.lo) = 9 ∧ bit ((arrState (2 ^ 48)).barrier 9).members 63 = true ∧
    ((arrState (2 ^ 48)).barrier 9).owner = 2 ∧ ((arrState (2 ^ 48)).barrier 9).broken = false := by
  decide +kernel

/-- Window 2 of cell 3 is open over the first two lines, two lanes, mode 1 (write once) or 2, for slot 5 of partition 0. -/
def winState (mode : Nat) (b : MsgBody) : State :=
  let a := winCtl 3 2
  let s := ((((State.reset.setF a winOPEN 1).setF a winLIMIT 2).setF a winLANES 2).setF a winMODE mode).setF (winMask 3 2) winMASK (2 ^ 5)
  { s with msgs := [{ src := 5, part := 0, tag := 1, dst := 3, body := b }] }
theorem witness_write_arrival : (winState 1 (.write (spadBase 3) [7, 8])).nextMsg 0 0 =
      some { src := 5, part := 0, tag := 1, dst := 3, body := .write (spadBase 3) [7, 8] } ∧
    (winState 1 (.write (spadBase 3) [7, 8])).judgeWrite { src := 5, part := 0, tag := 1, dst := 3, body := .write (spadBase 3) [7, 8] } (spadBase 3) 2 = (2, 0) := by
  decide +kernel
theorem witness_commit_arrival : (winState 2 (.commit 2)).nextMsg 0 1 = some { src := 5, part := 0, tag := 1, dst := 3, body := .commit 2 } ∧
    (winState 2 (.commit 2)).judgeCommit { src := 5, part := 0, tag := 1, dst := 3, body := .commit 2 } 2 = 0 ∧
    ((winState 2 (.commit 2)).winHold 3 2).wait = none := by
  decide +kernel
theorem witness_release_arrival : (winState 1 (.release 2 1)).nextMsg 0 2 = some { src := 5, part := 0, tag := 1, dst := 3, body := .release 2 1 } ∧
    (winState 1 (.release 2 1)).fencedAt 3 5 = false ∧ (winState 1 (.release 2 1)).getF (winCtl 3 2) winMODE = 1 ∧
    (winState 1 (.release 2 1)).flag (winCtl 3 2) winOPEN = true ∧ 1 < (winState 1 (.release 2 1)).getF (winCtl 3 2) winLANES ∧
    (winState 1 (.release 2 1)).flag (winStat 3 2) winSEALED = false ∧ ((winState 1 (.release 2 1)).winHold 3 2).wait = none := by
  decide +kernel
theorem witness_generation_wait : (((winState 1 (.release 2 1)).setWinHold 3 2 { wait := some (1, 64, 0) }).winHold 3 2).wait = some (1, 64, 0) ∧
    (((winState 1 (.release 2 1)).setWinHold 3 2 { wait := some (1, 64, 0) }).cell 3).rK 0 < 255 := by
  decide +kernel

/-- The last window of a cell and of the mailbox; one lane of one line. -/
theorem witness_winOpen : let w := winLIMIT.of (2 ^ winLIMIT.lo) * 2 ^ winLIMIT.lo + 2 ^ winOPEN.lo + 2 ^ winLANES.lo
    winOPEN.of w = 1 ∧ winLANES.of w = 1 ∧ winMODE.of w = 0 ∧ State.reset.winRangeOk 47 15 (winBASE.of w) (winLIMIT.of w) 1 0 = true ∧
    State.reset.winRangeOk 63 7 (winBASE.of w) (winLIMIT.of w) 1 0 = true ∧ winOPEN.of (2 ^ winLANES.lo) = 0 ∧ winLANES.of (2 ^ winLANES.lo) = 1 ∧
    winMODE.of (2 ^ winLANES.lo) = 0 := by
  decide +kernel

/-- The last queue of a slot below 63, of partition 2, with 16 entries in common store 0. -/
def queueState (pmode tail : Nat) : State :=
  let q := 16383
  ((((((State.reset.setF (qCtl q) qEN 1).setF (qCtl q) qPART 2).setF (qRing q) qLDEPTH 4).setF (qRing q) qBASE (csBase 0 / 64)).setF (qCtl q) qPMODE pmode).setF
    (qTail q) qTAIL tail).setF (qCtl q) qCQ 1
theorem witness_queue : let q := 16383
    (∀ m ∈ [0, 1], ∀ t ∈ [15, 16], (queueState m t).flag (qCtl q) qRDRV = false ∧ (queueState m t).qEn q = true ∧ (queueState m t).qPart q = 2 ∧
      (queueState m t).flag (qCtl q) qPMODE = decide (m = 1) ∧ (queueState m t).qFull q = decide (t = 16) ∧ (queueState m t).qIsCq q = true) ∧
    newer 32 ((queueState 1 15).qTailOf q) 16 = false ∧ subMod 32 16 ((queueState 1 15).qHead q) ≤ (queueState 1 15).qDepth q ∧
    newer 32 ((queueState 1 15).qHead q) 15 = false ∧ newer 32 15 ((queueState 1 15).qTailOf q) = false ∧
    subMod 32 15 ((queueState 1 15).qHead q) ≠ 2 ^ 31 ∧ subMod 32 ((queueState 1 15).qTailOf q) 15 ≠ 2 ^ 31 := by
  decide +kernel

/-- Cell 3 shows RUNNING job 4 of partition 2; its queue 0 holds one entry in common store 0 whose bytes `b` begin. -/
def takeState (b : List Byte) : State :=
  let q := 3 * 256
  let s := ((((((State.reset.setF (qCtl q) qEN 1).setF (qCtl q) qPART 2).setF (qCtl q) qJIDX 4).setF (qRing q) qLDEPTH 4).setF (qRing q) qBASE (csBase 0 / 64)).setF (qTail q) qTAIL 1)
  let s := (((s.setF (UNIT_PART 3) upJIDX 4).setF (UNIT_PART 3) upPART 2).setF (UNIT_CTRL 3) ctrlENABLE 1)
  let s := (((s.setF (UNIT_CTRL 3) ctrlPLEN 1).setF (UNIT_PVALID 3) pvalidPAGES 1).setF (JOB_STAT 4) jsSTATE jRunning)
  s.putBytes (csBase 0) b
theorem witness_take : let s := takeState (nums 1 [1, 0, 2, 255] ++ nums 2 [65535, 0] ++ nums 8 [8, 77, 0] ++ nums 2 [65535])
    let it := parseItem 768 0 4 0 (s.qEntry 768 0)
    let s2 := (s.noteRead 65 2 (csBase 0) 64).setF (qPtr 768) qNEXT 1
    s.mayTake 3 = true ∧ s.pickQueue 3 = some 768 ∧ s.qNext 768 = 0 ∧ s.qEntryAddr 768 0 = csBase 0 ∧ s.readFails 65 (s.qPart 768) (csBase 0) 64 = false ∧
    s2.badItem 3 768 it (s.qEntry 768 0) = false ∧ (it.cut && s2.pastDeadline 3 it) = false ∧ it.prog = 8 := by
  decide +kernel
theorem witness_unreadable : let s := { takeState [] with ecc := [(csBase 0 / 8, 2)] }
    s.mayTake 3 = true ∧ s.pickQueue 3 = some 768 ∧ s.readFails 65 (s.qPart 768) (s.qEntryAddr 768 (s.qNext 768)) 64 = true := by
  decide +kernel
theorem witness_completionPush : let s := (takeState []).setUnit 3 { comps := [{ item := { queue := 768, jidx := 4 }, status := 0 }] }
    (s.unit 3).comps = [{ item := { queue := 768, jidx := 4 }, status := 0 }] ∧ s.unacked 3 = false ∧ s.unitState 3 ≠ stFenced := by
  decide +kernel

/-- A schedule of one entry; instants at, before and after the window of the first frame's end. -/
def slotState : State := (State.reset.setUnit 47 { sched := [{ idx := 0, start := 0, blotter := true, jidx := 255 }] }).setF (UNIT_PART 47) upJIDX 4
theorem witness_slotBoundary : let s1 := slotState.at 5
    s1.entryNow 47 = { idx := 0, start := 0, blotter := true, jidx := 255 } ∧ s1.jobOf 47 = 4 ∧ (s1.unit 47).pend = [] ∧
    s1.unitState 47 < stFenced ∧ (s1.endSteps 47).asking 47 = false ∧ ((s1.endSteps 47).unit 47).pend = [] := by
  decide +kernel
theorem witness_frames : (State.reset.at 25001000).trig.slaved = false ∧ ((State.reset.at 25001000).unit 62).frameAt + 25000000 + 1000 ≤ (State.reset.at 25001000).now ∧
    ((State.reset.at 24999000).unit 0).frameAt + 25000000 ≤ (State.reset.at 24999000).now + 1000 ∧
    (State.reset.at 24998999).now + 1000 < ((State.reset.at 24998999).unit 0).frameAt + 25000000 ∧
    ((State.reset.setF (UNIT_PART 0) upMISSED 0).at 24998999).getF (UNIT_PART 0) upMISSED = 0 := by
  decide +kernel
theorem witness_deadline : let s := ((State.reset.setUnitState 3 stRunning).setUnit 3 { binds := [(255, { cut := true, dlUs := 100 })] }).at 101000
    ((s.unit 3).binds.filter (fun b => b.2.cut && s.pastDeadline 3 b.2)).length = 1 ∧ s.itemJob 3 = 255 ∧ s.unitState 3 < stFenced ∧
    Tab.find ((s.endSteps 3).unit 3).binds 255 = some { cut := true, dlUs := 100 } := by
  decide +kernel
theorem witness_deadline_engine : let s := ((State.reset.setUnitState 62 stRunning).setUnit 62 { binds := [(255, { cut := true, dlUs := 100 })] }).at 101000
    ((s.unit 62).binds.filter (fun b => b.2.cut && s.pastDeadline 62 b.2)).any (fun b => decide (b.1 = s.itemJob 62)) = true ∧
    s.unitState 62 < stFenced := by
  decide +kernel

/-- Marks in the scratchpad of cell 47 and in main memory; entry 63 of partition 7 over the 64 KiB of main memory above the Blotter area; a fill of the
last line of main memory. -/
def eccState (k : Nat) : State := { State.reset with ecc := [(64 / 8, k), (spadBase 47 / 8, k)] }
theorem witness_ecc : Tab.get 0 (eccState 3).ecc (spadBase 47 / 8) = 3 ∧ Tab.get 0 (eccState 2).ecc (spadBase 47 / 8) = 2 ∧
    place (spadBase 47 / 8 * 8) 8 = .spad 47 ∧ (eccState 2).unitState 47 ≠ stOut ∧ Tab.get 0 (eccState 1).ecc (64 / 8) = 1 ∧ channelOf 64 = 0 := by
  decide +kernel
theorem witness_region : let lo := 2 ^ rgnVALID.lo + 1024 * 2 ^ rgnBASE.lo
    [rgnVALID, rgnRD, rgnWR, rgnMIRROR, rgnBASE].foldl (fun w f => w + f.of lo * 2 ^ f.lo) 0 = lo ∧
    (State.reset.setF (RGN_HI 7 63) rgnSIZE 1).wordF (RGN_HI 7 63) [rgnSIZE, rgnMBASE] = 2 ^ rgnSIZE.lo ∧
    (State.reset.setF (RGN_HI 7 63) rgnSIZE 1).rgnAccept 7 63 { lo := lo, hi := 2 ^ rgnSIZE.lo } = true := by
  decide +kernel
def fillState (st : Nat) : State := (((State.reset.setF MC_STATUS mcCHOK (2 ^ 24 - 1)).setF MC_FILL_ADDR fillADDR (mainSize / 64 - 1)).setF MC_FILL_LEN fillLEN 1).setF MC_FILL_CTRL fillSTATUS st
theorem witness_fill : fillGO.of (2 ^ fillGO.lo) = 1 ∧ (fillState 0).getF MC_FILL_CTRL fillSTATUS = 0 ∧ (fillState 1).getF MC_FILL_CTRL fillSTATUS = 1 ∧
    (fillState 0).getF MC_FILL_LEN fillLEN * 64 ≠ 0 ∧ (fillState 0).fillOk .islandA ((fillState 0).getF MC_FILL_ADDR fillADDR * 64) 64 = true ∧
    (fillState 0).outOfService (place ((fillState 0).getF MC_FILL_ADDR fillADDR * 64) 64) = false ∧
    (fillState 0).fillOut ((fillState 0).getF MC_FILL_ADDR fillADDR * 64) 64 = false ∧
    (fillState 1).getF MC_FILL_ADDR fillADDR + (fillState 1).getF MC_FILL_LEN fillLEN < 2 ^ fillADDR.w ∧ State.reset.edc = [] := by
  decide +kernel

/-- ENABLE set, no event yet, free or slaved with a held step. -/
def trigState (slaved : Bool) (held : Nat) : State :=
  { (State.reset.setF TRIG_CTRL tgENABLE 1).setF TRIG_STATUS tsHELD held with trig := { slaved := slaved, lsDue := [(7, 500)] } }
theorem witness_trigger : ((trigState false 0).at 600).flag TRIG_CTRL tgENABLE = true ∧ ((trigState false 0).at 600).trig.slaved = false ∧
    ((trigState false 0).at 600).eventFree = true ∧ ((trigState true 1).at 600).flag TRIG_STATUS tsHELD = true ∧ ((trigState true 1).at 600).trig.slaved = true ∧
    Tab.find ((trigState false 0).at 600).trig.lsDue 7 = some 500 ∧ fsEN.of ((trigState false 0).fsWord 15) = 0 ∧ ceEN.of (2 ^ ceEN.lo) = 1 := by
  decide +kernel
theorem witness_step_slaved : let s2 := ((trigState true 0).at 600).writeTrigCtrl (2 ^ tgENABLE.lo + 2 ^ tgMODE.lo + 2 ^ tgSTEP.lo)
    tgSTEP.of (2 ^ tgENABLE.lo + 2 ^ tgMODE.lo + 2 ^ tgSTEP.lo) = 1 ∧ s2.flag TRIG_CTRL tgENABLE = true ∧ s2.trig.slaved = true ∧ s2.flag TRIG_STATUS tsHELD = false := by
  decide +kernel
theorem witness_stale : let s1 := (((State.reset.setF (STRM_CFG 15) scfEN 1).setF (STRM_CFG 15) scfPERIOD 1000).setF (STRM_STAT 15) sstSEEN 1).at 2000001
    s1.flag (STRM_CFG 15) scfEN = true ∧ s1.flag (STRM_STAT 15) sstSEEN = true ∧ 0 + 2000 * s1.strmPeriod 15 < s1.portTime 0 := by
  decide +kernel

/-- Receiver 2 of partition 1, its common stores in service, RAW16 of 2 by 2 pixels, its ring in common store 0, which partition 1 may write; a frame in slot 0 or none. -/
def camState (f : Option CamFrame) : State :=
  let c := CAM_CFG 2
  let s := (((((State.reset.setF c ccEN 1).setF c ccPART 1).setF c ccWIDTH 2).setF c ccHEIGHT 2).setF c ccDT 0x2E)
  let s := (s.setF (CAM_RING 2) crBASE (csBase 0 / 64)).setF (CAM_RING 2) crNSLOT 1
  let s := s.setF MC_STATUS mcCSOK 15
  { s with
    rgnCur := [(64, { lo := 2 ^ rgnVALID.lo + 2 ^ rgnWR.lo + 2 ^ rgnRD.lo + csBase 0 / 0x10000 * 2 ^ rgnBASE.lo, hi := 2 ^ rgnSIZE.lo })],
    cams := [(2, { pulse := some 9, frame := f })] }
theorem witness_csi_start : let s := camState none
    s.camOn 2 = true ∧ (s.cam 2).frame = none ∧ s.slotHeld (camSlot s 2 0) = false ∧
    (s.camPutHeader 2 1 { slot := 0, expect := some 9, lastAt := 0 } false false).2 = false := by
  decide +kernel
theorem witness_csi_frame : let f : CamFrame := { slot := 0, expect := some 9, lastAt := 0, hasEmb := true, verdict := 0 }
    let s := camState (some f)
    s.camOn 2 = true ∧ (s.cam 2).frame = some f ∧ (s.camWrite 2 (camSlot s 2 0 + 0x40) [1, 2]).2 = false ∧ f.lines < s.getF (CAM_CFG 2) ccHEIGHT ∧
    (s.camWrite 2 (camSlot s 2 0 + 0x1040) (lineBytes 0x2E 2 64 [1, 2, 3, 4])).2 = false ∧ camPitch s 2 = 64 ∧
    (s.camPutHeader 2 2 f true false).2 = false ∧
    ((s.camWrite 2 (camSlot s 2 0 + 0x40) [1, 2]).1.camPutHeader 2 1 { f with emb := 2 } false false).2 = false ∧ (s.camPutHeader 2 1 f false false).2 = false ∧ f.lastAt + 50000000 ≤ (s.at 50000000).now := by
  decide +kernel
theorem witness_camCfg : ccEN.of 0 = 0 ∧ (camState none).flag (CAM_CFG 2) ccEN = true ∧ State.reset.flag (CAM_CFG 2) ccEN = false ∧ ccEN.of (2 ^ ccEN.lo) = 1 := by
  decide +kernel

/-- A running engine of job 4 and partition 1 with its command block in common store 0, where the partition may read and write;
a byte of the state is put at an offset of that store. -/
def engState (u : Nat) (s : State) : State :=
  let s := (s.setF MC_STATUS mcCSOK 15).setUnitState u stRunning
  let s := (s.setF (UNIT_PART u) upPART 1).setF (UNIT_PART u) upJIDX 4
  { s.setUnit u { binds := [(4, { prog := csBase 0, type := 1 })] } with
    rgnCur := [(64, { lo := 2 ^ rgnVALID.lo + 2 ^ rgnWR.lo + 2 ^ rgnRD.lo + csBase 0 / 0x10000 * 2 ^ rgnBASE.lo, hi := 1024 * 2 ^ rgnSIZE.lo })] }
def inCs (o : Nat) (bs : List Byte) (s : State) : State := s.putBytes (csBase 0 + o) bs
def engRead (u : Nat) (l : List (Nat × List Byte)) : State := l.foldl (fun s p => inCs p.1 p.2 s) (engState u State.reset)
def engIt : WorkItem := { prog := csBase 0, type := 1 }
/-- A frame of 64 × 64 pixels in YUV, luma alone, from the slot at 0x10000 to a plane at 0x80000; 64 lines have come. -/
def imgState : State := engRead 60
  [(0, nums 1 [1, 0, 1, 2] ++ nums 4 [0] ++ nums 8 [csBase 0 + 0x400, csBase 0 + 0x10000, 0, csBase 0 + 0x80000]),
   (0x400, nums 2 [3, 0, 64, 64]), (0x430, nums 2 [64, 64] ++ nums 1 [2, 2, 6]), (0x440, nums 8 [csBase 0 + 0x2000]),
   (0x10000, nums 2 [0, 0, 0, 0, 64, 0, 0, 0, 0, 0, 0, 0, 128])]
def imgRunOf (s : State) : ImgRun := (imgSetup 60 (csBase 0)).answer { blk := [], prof := [], mesh := [] } s
def imgHead : List Nat := (nums 2 [0, 0, 0, 0, 64, 0, 0, 0, 0, 0, 0, 0, 128] ++ nums 1 (List.replicate 38 0)).map (·.toNat)
theorem witness_frame : (imgState.at 9).engItem 60 = some engIt ∧ Tab.find imgState.imgs 60 = none ∧
    (imgSetup 60 (csBase 0)).runs (imgState.at 9) = true ∧ (imgHeader 60 (imgRunOf imgState)).runs (imgState.at 9) = true ∧
    (imgRunOf imgState).isShort imgHead = false := by
  decide +kernel
/-- The first row, and the last where 63 rows stand. -/
theorem witness_row : ∀ n ∈ [0, 63], let r := { imgRunOf imgState with ys := List.replicate n (List.replicate 64 0) }
    let s := { imgState with imgs := [(60, r)] }
    s.engItem 60 = some engIt ∧ Tab.find s.imgs 60 = some r ∧ (imgHeader 60 r).runs s = true ∧ r.inH = 64 ∧ r.outH = 64 ∧
    fieldAt imgHead 7 1 = 0 ∧ fieldAt imgHead 8 2 = 64 ∧ linesNeeded r.needs = n + 1 ∧ (imgRow 60 r imgHead).runs s = true := by
  decide +kernel
theorem witness_lineTimeout : let r := { imgRunOf imgState with lastLine := 0 }
    let s := { inCs 0x10008 (nums 2 [63]) imgState with imgs := [(60, r)] }
    (s.at 50000000).engItem 60 = some engIt ∧ (imgHeader 60 r).runs (s.at 50000000) = true ∧ r.timeout = 50000000 ∧
    fieldAt ((s.at 50000000).readBytes 60 1 r.frame 64) 8 2 = 63 := by
  decide +kernel
/-- 63 lines and the frame marked ended. -/
theorem witness_short : let r := imgRunOf imgState
    let s := { inCs 0x10007 (nums 1 [2, 63]) imgState with imgs := [(60, r)] }
    s.engItem 60 = some engIt ∧ (imgHeader 60 r).runs s = true ∧ r.isShort (s.readBytes 60 1 r.frame 64) = true := by
  decide +kernel

/-- The tensor of a command at offset `o` of common store 0, in an engine's descriptor form. -/
def csTens (o fmt rank : Nat) (d st : List Nat) : List Byte := descBytes (csBase 0 + o) 0 fmt rank d st
/-- One query, one key and one value of 8 BF16 elements, one head; the statistics and the gradients beside them. -/
def denseState (opc : Nat) : State := engRead 48 ([(0, nums 1 [opc, 0, 1, if opc = 1 then 8 else 0])] ++
  (List.range (if opc = 1 then 4 else 9)).map (fun i => (0x40 + 0x40 * i,
    if i = 4 then csTens (0x1000 + 256 * i) 10 3 [2, 1, 1, 1] [8, 8, 0]
    else csTens (0x1000 + 256 * i) (if i < 6 then 8 else 10) 3 [8, 1, 1, 1] (if i < 6 then [16, 16, 0] else [32, 32, 0]))))
def setupOf (u : Nat) (s : State) : List Nat × List CtxEnt × State :=
  let f : Eng (List Nat × List CtxEnt) := do let b ← Eng.block u (csBase 0) 640; let n ← attnNames u b; return (b, n)
  ((f.answer ([], []) s).1, (f.answer ([], []) s).2, f.after s)
def setupOk (u : Nat) (s : State) : Bool := Eng.runs (do let b ← Eng.block u (csBase 0) 640; attnNames u b) s
theorem witness_dense : ∀ o ∈ [1, 2], let s := denseState o
    s.engItem 48 = some engIt ∧ s.engOpc engIt = o ∧ Tab.find s.ctxCmds 48 = none ∧ setupOk 48 s = true ∧
    (setupOf 48 s).2.1 = [] ∧ abOpc (setupOf 48 s).1 = o ∧
    Eng.runs (if o = 1 then fwdDense 48 (setupOf 48 s).1 else bwdCmdRun 48 (setupOf 48 s).1) (setupOf 48 s).2.2 = true := by
  decide +kernel
/-- Contexts 0 and 4 at home in engine 48, the job of partition 1 declares the table; the pool at offset 0x100000 of the store. -/
def ctxState (opc flags count : Nat) (x y : Ctx) : State :=
  let s := engRead 48 [(0, nums 1 [opc, flags, 1, if opc = 1 then 8 else 0] ++ nums 2 [count] ++ nums 2 [0] ++ nums 4 [0] ++ nums 2 [0, 4] ++
      nums 4 [x.gen, y.gen] ++ nums 2 [0, 0, 0, 0] ++ nums 8 [if opc = 1 then csBase 0 + 0x800 else 0]),
    (0x40, if opc = 1 then csTens 0x1000 8 3 [8, 1, 1, 1] [16, 16, 0] else []), (0x100, if opc = 1 then csTens 0x1100 8 3 [8, 1, 1, 1] [16, 16, 0] else []),
    (0x800, nums 2 [0, 1] ++ nums 4 [x.gen])]
  let s := ((s.setF (ATTN_STATUS 48) atHOMEQ 15).setF (ATTN_STATUS 48) atTABLEOK 1).setF (JOB_STAT 4) jsPART 1
  let s := ((s.setF (ATTN_POOL 48) apPOOL ((csBase 0 + 0x100000) / 65536)).setF (ATTN_POOL 48) apPAGES 3).setF (ATTN_CFG 48) acLROWP 6 |>.setF (ATTN_CFG 48) acSPLIT 0
  ({ s with jobs := [(4, { attn := true })] }.setCtx 0 x).setCtx 4 y
theorem witness_ctx : ∀ o ∈ [(0x10, 0, 0, ({} : Ctx), ({} : Ctx)), (0x11, 16, 1, { kind := 2, pages := [0] }, {}),
      (0x12, 0, 1, { kind := 2, len := 1, tlen := 3, pages := [0] }, {}), (0x13, 0, 0, { kind := 2, len := 1, tlen := 1, pages := [0] }, { kind := 2, pages := [1] }),
      (0x14, 0, 0, { kind := 2, gen := 2 ^ 32 - 1, pages := [0] }, {})],
    let s := ctxState o.1 o.2.1 o.2.2.1 o.2.2.2.1 o.2.2.2.2
    let b := (setupOf 48 s).1
    let names := (setupOf 48 s).2.1
    let s1 := (setupOf 48 s).2.2
    let r := s1.askHomes 48 true (names.map (·.ctx)) (s1.homesOf (names.map (·.ctx)))
    s.engItem 48 = some engIt ∧ s.engOpc engIt = o.1 ∧ Tab.find s.ctxCmds 48 = none ∧ setupOk 48 s = true ∧
    abOpc b = o.1 ∧ names ≠ [] ∧ r.2.2 = true ∧ r.1.opVerdict 48 b = none ∧ (ctxOpRun 48 b).runs r.1 = true := by
  decide +kernel
theorem witness_fwdCtx : let s := ctxState 1 1 1 { kind := 2, len := 1, tlen := 1, pages := [0] } {}
    let b := (setupOf 48 s).1
    let names := (setupOf 48 s).2.1
    let s1 := (setupOf 48 s).2.2
    let r := s1.askHomes 48 (abWriter b) (names.map (·.ctx)) (s1.homesOf (names.map (·.ctx)))
    s.engItem 48 = some engIt ∧ s.engOpc engIt = 1 ∧ setupOk 48 s = true ∧ names = [{ ctx := 0, nq := 1, gen := 0 }] ∧ abOpc b = 1 ∧ r.2.2 = true ∧
    r.1.foreignTable 48 = false ∧ r.1.ctxVerdict 0 0 [1, 2, 3] = none ∧ (fwdCtx 48 b names).runs r.1 = true := by
  decide +kernel
theorem witness_contextGrant : (engState 48 State.reset).engItem 48 = some engIt ∧
    regsGrantable 48 [] [{ ctx := 0, by_ := 49, writer := false, granted := true }, { ctx := 0, by_ := 48, writer := false, granted := false }] = true := by
  decide +kernel
theorem witness_attnCfg : State.reset.ctxIdle = true ∧ ∀ w ∈ [4096 * 2 ^ acSPLIT.lo + 6 * 2 ^ acLROWT.lo + 16 * 2 ^ acLROWP.lo], acSPLIT.of w = 4096 ∧
    acLROWT.of w = 6 ∧ acLROWP.of w = 16 ∧ apPAGES.of (3 * 2 ^ apPAGES.lo) = 3 := by
  decide +kernel

/-- LIFT of one row by no camera, SCATTER of one point onto one row, RASTER of no row of an empty map. -/
def gridState (opc : Nat) : State :=
  engRead 52 (if opc = 1 then [(0, nums 1 [1, 1] ++ nums 2 [511, 1, 0] ++ nums 8 [csBase 0 + 0x100000] ++ nums 4 [0x3F800000] ++ nums 1 [0, 1]),
      (0x42, nums 1 [1, 6] ++ nums 2 [2, 2]), (0x70, nums 8 [csBase 0 + 0x1000])]
    else if opc = 2 then [(0, nums 1 [2, 1] ++ nums 2 [96, 1, 0] ++ nums 8 [csBase 0 + 0x100000, 5 * 2 ^ 40, csBase 0 + 0x1000]), (0x40, nums 4 [1])]
    else [(0, nums 1 [3, 0] ++ nums 2 [1024, 0, 0] ++ nums 8 [csBase 0 + 0x100000, 0, csBase 0 + 0x200000, csBase 0 + 0x300000])])
theorem witness_grid : ∀ o ∈ [(1, liftRun 52), (2, scatterRun 52)], let s := gridState o.1
    let b := s.readBytes 52 1 (csBase 0) 256
    let s1 := (s.setF (GRID_STATUS 52) gsROWS 0).setF (GRID_STATUS 52) gsOPC o.1
    s.engItem 52 = some engIt ∧ s.engOpc engIt = o.1 ∧ (Eng.block 52 (csBase 0) 256).runs s1 = true ∧ gridHeaderOk b = true ∧ gbOpc b = o.1 ∧
    (o.2 b).runs s1 = true := by
  decide +kernel
theorem witness_raster : let s := gridState 3
    let b := s.readBytes 52 1 (csBase 0) 256
    let s1 := (s.setF (GRID_STATUS 52) gsROWS 0).setF (GRID_STATUS 52) gsOPC 3
    s.engItem 52 = some engIt ∧ s.engOpc engIt = 3 ∧ (Eng.block 52 (csBase 0) 256).runs s1 = true ∧ gridHeaderOk b = true ∧ gbOpc b = 3 ∧
    rasterParamsOk b = true ∧ gridFmtOk b = true ∧ gbRows b = 0 ∧ fieldAt b 0x48 2 = 0 ∧ s1.ecc = [] ∧ mainSize ≤ gbIn b ∧ mainSize ≤ gbIn2 b ∧
    s1.canRead 52 (s1.partOf 52) (gbIn b) 65536 = true ∧ s1.canRead 52 (s1.partOf 52) (gbIn2 b) 0 = true := by
  decide +kernel
theorem read_clean {u a n : Nat} {s : State} (h1 : s.canRead u (s.partOf u) a n = true) (he : s.ecc = []) (ha : mainSize ≤ a) :
    Eng.read u a n s = .ok (s.readBytes u (s.partOf u) a n) s := by
  simp [Eng.read, bind, EStateM.bind, get, getThe, MonadStateOf.get, EStateM.get, h1, State.readFails_clean he _ _ ha,
    State.noteRead_clean he _ _ ha, set, EStateM.set, pure, EStateM.pure]
/-- With the facts of `witness_raster` a RASTER of no row runs. -/
theorem witness_rasterRun {u : Nat} {b : List Nat} {s : State} (h1 : rasterParamsOk b = true) (h2 : gridFmtOk b = true) (h3 : gbRows b = 0)
    (h4 : fieldAt b 0x48 2 = 0) (he : s.ecc = []) (h5 : mainSize ≤ gbIn b) (h6 : mainSize ≤ gbIn2 b)
    (h7 : s.canRead u (s.partOf u) (gbIn b) 65536 = true) (h8 : s.canRead u (s.partOf u) (gbIn2 b) 0 = true) :
    (rasterRun u b).runs s = true := by
  simp [Eng.runs, rasterRun, EStateM.run, bind, EStateM.bind, Eng.need, h1, h2, h3, h4, read_clean h7 he h5, read_clean h8 he h6, pure,
    EStateM.pure, Eng.for, Eng.gridCount, modify, modifyGet, MonadStateOf.modifyGet, EStateM.modifyGet]
/-- One candidate with a reserved token on a valid grid of generation 7, a vehicle that keeps 09 R239. -/
def checkState : State := engRead 56
  [(0, nums 1 [1, 0] ++ nums 2 [1] ++ nums 4 [0] ++ nums 8 [csBase 0 + 0x1000, csBase 0 + 0x10000] ++ nums 4 [7, 0] ++ nums 8 [csBase 0 + 0x2000, csBase 0 + 0x3000]),
   (0x1000, nums 4 [0x43534554] ++ nums 2 [1]), (0x1040, nums 2 [4096]), (0x10008, nums 4 [7] ++ nums 1 [1]), (0x20FC, nums 4 [0xC25A3388]),
   (0x2000, nums 4 ([0x56454844, 1, 0x40800000, 0x40A00000, 0, 0x3E800000, 0x3E000000, 0x3F000000, 0x3F800000, 0x40800000, 0x40000000,
      0x40800000, 0x3F000000, 0x41800000, 0x3F000000, 0] ++ (List.replicate 16 [0, 0x3F800000]).flatten))]
theorem witness_check : checkState.engItem 56 = some engIt ∧ (checkRun 56 (csBase 0)).runs (checkState.setF (CHK_STATUS 56) ckDONE 0) = true ∧
    ((checkRun 56 (csBase 0)).answer (none, 0) (checkState.setF (CHK_STATUS 56) ckDONE 0)).1 = none := by
  decide +kernel
def trackState (opc : Nat) : State :=
  { engRead 62 [(0, nums 1 [opc, 0] ++ nums 2 [1, 0] ++ nums 1 [0, 0, 0, 0, 0, 0] ++ nums 4 [0, 0, 0, 0, 0] ++ nums 8 [0, csBase 0 + 0x1000] ++
      nums 2 [4095, 0] ++ nums 4 [77] ++ nums 1 [1]), (0x40, nums 4 [0x3F800000])] with tracks := [(4095, { id := 77, state := 1 })] }
theorem witness_track : ∀ o ∈ [(2, forecastRun), (3, deleteRun)], let s := trackState o.1
    let b := s.readBytes 62 1 (csBase 0) 128
    s.engItem 62 = some engIt ∧ s.engOpc engIt = o.1 ∧ s.trkWait = none ∧ (Eng.block 62 (csBase 0) 128).runs s = true ∧ trackBlockOk b = true ∧
    tbOpc b = o.1 ∧ (o.2 b).runs s = true := by
  decide +kernel
/-- An UPDATE with no track and no detection. -/
theorem witness_update : let s := { trackState 1 with tracks := [] }
    let b := s.readBytes 62 1 (csBase 0) 128
    s.engItem 62 = some engIt ∧ s.engOpc engIt = 1 ∧ (Eng.block 62 (csBase 0) 128).runs s = true ∧ trackBlockOk b = true ∧ tbOpc b = 1 ∧
    (updateRun b engIt).runs s = true := by
  decide +kernel
theorem witness_nextId : tkNEXT.of 0xFFFFFFF8 = 0xFFFFFFF8 ∧ tkNEXT.of 0xFFFFFFF7 = 0xFFFFFFF7 ∧ tkNEXT.of 0 = 0 := by decide

/-- At reset both islands serve; island B emits, and its first record is to claim sequence 1. -/
def planState : State := State.reset.setIslPlan true { slot := some { capability := 3 }, want := 1 }
theorem witness_planning : (planState.at 5).islandServes false = true ∧ (planState.at 5).islandServes true = true ∧ (planState.at 5).emitter = true ∧
    (planState.at (ms 100)).checkDue true = true ∧ (planState.at (ms 100)).checkDue false = true ∧ (planState.at 5).emitDue true = true ∧
    ((planState.at 5).islPlan true).slot.isSome = true ∧ ((planState.at 5).islPlan true).want = ((planState.at 5).getF EMIT_CLAIM ecSEQ + 1) % 2 ^ 32 ∧
    (State.reset.takeBases []).plan.basis = [] ∧ ((State.reset.raiseSafe 1).at 5).flag SAFE_STATUS safSAFE = true := by
  decide +kernel
theorem witness_handoverTimeout : let s := ({ State.reset with plan := { State.reset.plan with level3 := some 7, vehicle := List.replicate 256 0 } }).at 10000000007
    s.plan.held = none ∧ s.plan.level3 = some 7 ∧ 7 + ms (handoverMs s.plan.vehicle) ≤ s.now := by
  decide +kernel

/-- An update of camera 15 in queue 8 of slot 63 in common store 0, malformed by a reserved byte. -/
def calState (b : List Byte) : State :=
  let q := 63 * 256 + 8
  let s := (((State.reset.setF MC_STATUS mcCSOK 15).setF (qCtl q) qEN 1).setF (qRing q) qLDEPTH 4).setF (qRing q) qBASE (csBase 0 / 64)
  (s.setF (qTail q) qTAIL 1).putBytes (csBase 0) b
theorem witness_calUpdate : let s := (calState (nums 1 [15, 1])).at 9
    s.islandServes false = true ∧ (s.request (63 * 256 + 8) (fun _ => true)).map calOk = some false ∧
    ((calState (nums 1 [15])).request (63 * 256 + 8) (fun _ => true)).map calOk = some true := by
  decide +kernel
theorem witness_calTooSoon : (({ State.reset with cal := { State.reset.cal with list := [(15, [{ ends := sec 3600 + 1 }])] } }).calList 15).any
    (fun e => decide (0 + sec 3590 < e.ends)) = true := by decide +kernel
theorem witness_writes : (State.reset.at (sec 600)).islandServes false = true ∧ (State.reset.at (sec 600)).cal.savedAt + sec 600 ≤ (State.reset.at (sec 600)).now ∧
    (State.reset.at (sec 600)).flag SIL_CTRL silFREEZE = false ∧ (State.reset.at (sec 600)).sup.silSavedAt + sec 600 ≤ (State.reset.at (sec 600)).now := by
  decide +kernel
theorem witness_quarWrite : let s := { State.reset with quar := [(47, { mask := 1 })] }
    s.writing 3 = none ∧ s.storeVal 3 ≠ some (.quar s.quarTable) ∧ s.quarTable ≠ [] := by
  decide +kernel
theorem witness_storeWrite : (State.reset.setWriting 4 (some (.data [7]))).writing 4 = some (.data [7]) ∧ State.reset.ident.norFailed = 0 := by
  decide +kernel

/-- The request queue of partition 1 in common store 0 with one entry, and behind it at 0x1000 an image of one Check engine. -/
def jobReqState (b : List Byte) : State :=
  let q := 63 * 256 + 1
  let s := (((State.reset.setF MC_STATUS mcCSOK 15).setF (qCtl q) qEN 1).setF (qRing q) qLDEPTH 4).setF (qRing q) qBASE (csBase 0 / 64)
  let s := ((s.setF (qTail q) qTAIL 1).setF (qCtl q) qPART 1).setF (PDESC 1) pdVALID 1
  let s := ((s.setF (PDESC 1) pdMAXJOBS 1).setF (PDESC 1 + 8) pdUNITS (2 ^ 56)).setF SEC_STATUS scLIFE 1
  (inCs 0 b s).putBytes (csBase 0 + 0x1000) (nums 4 [0x474C4249] ++ nums 2 [1, 7] ++ nums 4 [192, 0xAB2C96C3] ++ nums 1 [1, 0, 1, 1] ++
    nums 4 [0, 0, 0, 0, 128] ++ nums 8 (List.replicate 11 0) ++ nums 1 [1] ++ nums 1 (List.replicate 31 0) ++ nums 1 [56, 0, 0, 0] ++
    nums 4 [0, 0, 0xFFFFFFFF])
def admOk (x : Adm) : Bool := match x with | .ok () => true | .error _ => false
theorem witness_admit : let s := (jobReqState (nums 1 [0x10, 0, 1, 0, 0, 0, 0, 0] ++ nums 8 [csBase 0 + 0x1000])).at 5
    let b := s.qEntry (63 * 256 + 1) 0
    let s1 := s.takeRequest (63 * 256 + 1)
    s.islandServes false = true ∧ s.request (63 * 256 + 1) (fun ty => decide (ty ≠ 0x11 ∧ ty ≠ 0x12)) = some b ∧ fieldAt b 0 1 = 0x10 ∧
    admReqOk b = true ∧ fieldAt b 1 1 = 0 ∧ fieldAt b 2 1 = 1 ∧ s1.getF SEC_STATUS scLIFE ≠ 4 ∧
    (s1.imageAt 1 (csBase 0 + 0x1000)).length = 192 ∧ admOk (s1.admCheck 1 (fieldAt b 2 1) (s1.imageAt 1 (fieldAt b 8 8))) = true ∧ s1.freeJob = some 0 := by
  decide +kernel
/-- Job 4 of partition 1 runs on Check engine 56; its queue 3 backs up into queue 5 of engine 57. -/
def runningJob (st : Nat) (b : List Byte) : State :=
  let s := ((jobReqState b).setF (JOB_STAT 4) jsSTATE st).setF (JOB_STAT 4) jsPART 1
  let q := 56 * 256 + 3
  let s := (((s.setF (qCtl q) qEN 1).setF (qCtl q) qJIDX 4).setF (qRing q) qLDEPTH 4).setF (qRing q) qBASE ((csBase 0 + 0x2000) / 64)
  let s := (s.setF (qTail q) qTAIL 1).putBytes (csBase 0 + 0x2000) (nums 1 [1, 1])
  { s with jobs := [(4, { places := [{ modes := 15, reserve := false, units := [{ slot := 56, pages := 0, div := 0, spadOff := 0, spadLen := 0, ctxOff := 0 },
      { slot := 57, pages := 0, div := 0, spadOff := 0, spadLen := 0, ctxOff := 0 }] }], queues := [{ lunit := 0, lidx := 3, ldepth := 4, cq := false, pmode := 0, prio := 0, irq := false, ring := csBase 0 + 0x2000, backup := 1, cplMax := 0 },
      { lunit := 1, lidx := 5, ldepth := 4, cq := false, pmode := 0, prio := 0, irq := false, ring := csBase 0 + 0x3000, backup := 0xFFFF, cplMax := 0 }] })] }
theorem witness_withdraw : ∀ ty ∈ [0x11, 0x12], let s := (runningJob jRunning (nums 1 [ty, 4, 1])).at 5
    let b := s.qEntry (63 * 256 + 1) 0
    s.islandServes false = true ∧ s.request (63 * 256 + 1) (fun x => decide (x = ty)) = some b ∧ fieldAt b 1 1 = 4 ∧
    (s.takeRequest (63 * 256 + 1)).jobRefused 1 b = none ∧ ((s.takeRequest (63 * 256 + 1)).placement 4).isSome = true := by
  decide +kernel
theorem witness_jobLost : let s := ((runningJob jFaulted []).at (ms 100))
    s.jobState 4 = jFaulted ∧ s.classOf (s.getF (JOB_STAT 4) jsPART) = 0 ∧ (s.job 4).faultedAt + ms 100 ≤ s.now := by
  decide +kernel
theorem witness_backup : let s := (runningJob jRunning []).at 5
    let q := 56 * 256 + 3
    let it := parseItem q 0 4 s.now (s.qEntry q 0)
    s.islandServes false = true ∧ subMod 32 0 (s.qHead q) < s.qOcc q ∧ (s.queueRec q).map (fun x => (x.1, x.2.backup)) = some (4, 1) ∧
    ((s.job 4).queues[1]?).map (fun k => k.lunit) = some 1 ∧ (s.placement 4).map (fun p => p.slotOf 1) = some 57 ∧ it.repl = true ∧ it.dlUs = 0 ∧
    subMod 16 (Tab.get ({} : IslPlan) s.plan.isl 0).seq it.dlSeq = 0 ∧ s.usable 57 = true ∧ s.sup.copies.contains (q, 0) = false := by
  decide +kernel

theorem witness_islands : (State.reset.at 2501000).islandServes false = true ∧ (State.reset.at 2501000).islandServes true = true ∧
    ((State.reset.at 2501000).isl true).edgeAt + us 2500 ≤ (State.reset.at 2501000).now ∧ ((State.reset.at 2501000).islPlan true).synced = false := by
  decide +kernel
set_option maxRecDepth 100000 in
theorem witness_record : recordOk ((recordBytes { seq := 7 }).map (fun v => v % 256)) = true := by decide +kernel
theorem witness_reboot : let s := (State.reset.failIsland false).at (ms 10)
    (s.isl false).failedAt = some 0 ∧ s.islandServes false = false ∧ (s.isl false).fails = 1 := by
  decide +kernel
/-- Island B emits at reset; island A has a shadow record that wants the next sequence or the last, and the record it wants has come or not. -/
def shadowState (want : Nat) (got : Option Nat) (waits : Bool) : State :=
  (State.reset.setIslPlan false { slot := some {}, want := want, got := got, waits := waits }).at (us 2800)
theorem witness_handover : (shadowState 1 none false).emitter = true ∧ (shadowState 1 (some 1) false).islandServes false = true ∧
    ((shadowState 1 (some 1) false).islPlan false).got = some 1 ∧ (shadowState 1 none false).getF EMIT_CLAIM ecSEQ = 0 ∧
    (shadowState 0 none false).islandFailed true = false ∧ ((shadowState 0 none false).islPlan false).slotAt = 0 ∧ ((shadowState 0 none true).islPlan false).waits = true ∧
    (shadowState 1 none false).safeMayEnd = false := by
  decide +kernel

theorem witness_fence : State.reset.flag (UNIT_FENCE 47) fnFENCE = false ∧ State.reset.islandServes false = true ∧
    let s := State.reset.fence 47 1
    s.flag (UNIT_FENCE 47) fnDONE = true ∧ s.flag (UNIT_FENCE 47) fnFENCE = true ∧ s.unitState 47 = stFenced ∧
    Tab.get false ({ s.sup with reinit := Tab.set false s.sup.reinit 47 true }).reinit 47 = true := by
  decide +kernel
/-- Cell 3 of running job 4 has counted nothing for its limit of 2 ms. -/
theorem witness_detectorStall : let s := (((State.reset.setUnitState 3 stRunning).setF (UNIT_PART 3) upJIDX 4).setF (JOB_STAT 4) jsSTATE jRunning).at (us 2000)
    let x : Stall := Tab.get {} s.sup.stall 3
    s.getF (UNIT_PROGRESS 3) prCOUNT = x.count ∧ s.pendingWork 3 = true ∧ s.stallLimit 3 ≤ x.stall + (s.now - x.at_) ∧
    s.flag (UNIT_FENCE 3) fnFENCE = false := by
  decide +kernel
theorem witness_blotter : let s := (State.reset.setF (UNIT_PART 62) upBLOTTER 1).at 5
    s.blotterReady 62 = true ∧ s.flag (UNIT_PART 62) upBLOTTER = true ∧
    let r := (State.reset.setF (UNIT_PART 0) upSUSPECT 1).at 5
    r.blotterReady 0 = true ∧ r.flag (UNIT_PART 0) upSUSPECT = true ∧ r.jobOf 0 = 0xFF ∧ r.flag (UNIT_PART 0) upBLOTTER = false := by
  decide +kernel
theorem witness_quarantine : let s := { (State.reset.setF (THERM 4 0) (thS 0) 850) with quar := [(3, { mask := 2 ^ 103, hit := true })] }
    s.hottest (entryDie 3) = some 850 ∧ tempBin 850 = 12 ∧ (Tab.get ({} : Quar) s.quar 3).inBin 103 = true ∧ qsENTRY.of 71 = 71 := by
  decide +kernel

/-- Group 15 is a Pair of cells 3 and 47; a deposit of cell 3 is on its way to comparison unit 1. -/
def groupState (cmp : Option Comparison) : State :=
  let s := ((State.reset.setF (RG_CFG 15) rcV 1).setF (RG_CFG 15) rcM0 3).setF (RG_CFG 15) rcM1 47
  let s := (s.setF (RG_STAT 15) rsPRESENT 3).setF (RG_STAT 15) rsSTATE 1
  { s.setGroup 15 { cmp := cmp } with msgs := [{ src := 3, part := 0, tag := 0, dst := 65, body := .deposit 15 65535 77 0 }] }
theorem witness_deposit : let s := (groupState none).at 5
    s.nextMsg 0 3 = some { src := 3, part := 0, tag := 0, dst := 65, body := .deposit 15 65535 77 0 } ∧ s.fencedAt 65 3 = false ∧
    s.groupLive 15 = true ∧ s.isAp 15 = false ∧ s.memberOf 15 0 = 3 ∧ s.attached 15 = [0, 1] ∧ s.oddOf 15 = none ∧ (s.group 15).op = 0 ∧
    (s.group 15).cmp = none ∧ (s.group 15).missing = 0 ∧ bit (s.group 15).erred 1 = false ∧ s.isTriad 15 = false ∧ s.getF (RG_STAT 15) rsHIST = 0 ∧
    ((groupState (some { ckid := 65535, openedAt := 1, deposits := [(1, 77)] })).group 15).cmp = some { ckid := 65535, openedAt := 1, deposits := [(1, 77)] } := by
  decide +kernel
theorem witness_comparisonTimeout : let s := (groupState (some { ckid := 9, openedAt := 7 })).at (ms 1 + 7)
    ((s.group 15).cmp.map Comparison.openedAt) = some 7 ∧ 7 + ms 1 ≤ s.now := by decide +kernel
theorem witness_memberError : let s := (groupState none).setUnitState 47 stError
    s.memberErred 15 1 = true ∧ bit (s.group 15).erred 1 = false ∧ 1 ∈ s.attached 15 ∧ 0 ∈ s.attached 15 := by decide +kernel
theorem witness_resync : let s := ((groupState none).setF (RG_STAT 15) rsDETACHED 2).setGroup 15 { copy := some (0, 1) }
    s.groupLive 15 = true ∧ s.unitState 3 = stIdle ∧ s.unitState 47 < stFenced ∧ s.placement (s.getF (RG_CFG 15) rcJIDX) = none := by
  decide +kernel
/-- Without queues the pointers are ready. -/
theorem witness_queuesReady {s : State} {j a b : Nat} (h : s.placement j = none) : s.queuesReady j a b = true := by
  simp [State.queuesReady, State.queuesOn, h]
theorem witness_split : rwOP.of (2 ^ rwOP.lo) = 1 ∧ (groupState none).getF (RG_SWITCH 15) rwSTATUS ≠ 1 ∧
    ((groupState none).loadF (RG_SWITCH 15) [rwUNITA, rwUNITB] (2 ^ rwOP.lo)).notPair 15 = 0 := by decide +kernel
/-- Two pairs in lockstep of partition 0 join into an application-core group; a third joins a Pair. -/
def apState : State :=
  [0, 1, 7].foldl (fun s p => s.setF (AP_STAT p) apMODE 1) ((State.reset.setF (RG_APST 15) raLLANE 16).setF (RG_APST 15) raBASE (csBase 0 / 0x10000))
theorem witness_join : let w := 2 * 2 ^ rwOP.lo + 7 * 2 ^ rwUNITB.lo
    rwOP.of w = 2 ∧ (apState.loadF (RG_SWITCH 15) [rwUNITA, rwUNITB] w).joinFail .islandA 15 = 0 := by decide +kernel
def apPairState : State :=
  let s := (((apState.setF (RG_CFG 15) rcV 1).setF (RG_CFG 15) rcKIND 1).setF (RG_CFG 15) rcM1 1).setF (RG_STAT 15) rsPRESENT 3
  let s := (s.setF (RG_STAT 15) rsSTATE 1).setF MC_STATUS mcCSOK 15
  { s with rgnCur := [(0, { lo := 2 ^ rgnVALID.lo + 2 ^ rgnWR.lo + 2 ^ rgnRD.lo + csBase 0 / 0x10000 * 2 ^ rgnBASE.lo, hi := 1024 * 2 ^ rgnSIZE.lo })] }
theorem witness_grow : let w := 3 * 2 ^ rwOP.lo + 7 * 2 ^ rwUNITB.lo
    rwOP.of w = 3 ∧ (apPairState.loadF (RG_SWITCH 15) [rwUNITA, rwUNITB] w).growFail 15 = 0 := by decide +kernel
theorem witness_apCkpt : let w := 1 * 2 ^ acLINES.lo + 5 * 2 ^ acCKID.lo
    let s1 := apPairState.loadF (AP_CKPT 1) [acLINES, acCKID] w
    let l := 2 ^ apPairState.getF (RG_APST 15) raLLANE
    let src := apPairState.getF (RG_APST 15) raBASE * 0x10000 + (2 * 1 + 1) * l
    acLINES.of w = 1 ∧ acCKID.of w = 5 ∧ apPairState.pairGroup 1 = some (15, 1) ∧ bit apPairState.ap.ckptHeld 1 = false ∧ apPairState.groupLive 15 = true ∧
    64 * 1 ≤ l ∧ s1.canRead 64 (apPairState.getF (RG_CFG 15) rcPART) src 64 = true ∧ s1.readFails 64 (apPairState.getF (RG_CFG 15) rcPART) src 64 = false := by
  decide +kernel

/-- The runtime-request queue of partition 7 in common store 0 with one request. -/
def askState (ty arg : Nat) : State :=
  let q := 63 * 256 + 39
  let s := (((State.reset.setF MC_STATUS mcCSOK 15).setF (qCtl q) qEN 1).setF (qRing q) qLDEPTH 4).setF (qRing q) qBASE (csBase 0 / 64)
  let s := ((s.setF (qTail q) qTAIL 1).setF (UNIT_PART 62) upPART 7).setF (UNIT_PART 62) upJIDX 4
  (((s.setF (JOB_STAT 4) jsPART 7).setF (JOB_STAT 4) jsSTATE jRunning).putBytes (csBase 0) (nums 1 [ty, 0, 7, 0, 0, 0, 0, 0] ++ nums 8 [arg])).at 5
theorem witness_requests : ∀ ty ∈ [0x20, 0x21, 0x22, 0x23, 0x24, 0x25], let arg := if ty = 0x20 then 2 else if ty = 0x24 then 62 else 0
    let s := askState ty arg
    let q := 63 * 256 + 39
    let b := s.qEntry q 0
    let s1 := s.takeRequest q
    s.islandServes false = true ∧ reqOk b = true ∧ fieldAt b 2 1 = 7 ∧ fieldAt b 0 1 = ty ∧ fieldAt b 8 8 = arg ∧
    s.request q (fun x => decide (x = ty)) = some b ∧ s.request q (fun x => decide (ty ≠ 0x20 ∨ x = 0x20 ∨ x < 0x20 ∨ 0x25 < x)) = some b ∧
    s1.classOf 7 = 0 ∧ s1.mode ≠ 3 ∧ s1.getF COOL_STATUS coSTATE < 2 ∧ s1.warmRuns = false ∧ s1.isRuntimeOf (.runtime 7) 62 = true := by
  decide +kernel
theorem witness_throughput : 11500 ≤ (State.reset.setF PWR_STATUS pwVBUS 12000).getF PWR_STATUS pwVBUS := by decide +kernel
theorem witness_warmReset : let s := { State.reset with pow := { State.reset.pow with good := true, hold := 0 } }
    s.islandServes false = true ∧ s.pow.good = true ∧ s.pow.hold = 0 := by decide +kernel

theorem witness_freeze : let s := { State.reset.setF SIL_CTRL silFREEZE 1 with sup := { State.reset.sup with freezeAt := 7 } }
    (s.at (ms 100 + 7)).flag SIL_CTRL silFREEZE = true ∧ (s.at (ms 100 + 7)).sup.freezeAt + ms 100 ≤ (s.at (ms 100 + 7)).now ∧
    flcWriter (.runtime 3) = true ∧ silFREEZE.of (2 ^ silFREEZE.lo) = 1 := by decide +kernel
theorem witness_nonce : let w := 2 ^ silOP.lo + 63 * 2 ^ silADDR.lo
    silOP.of w = 1 ∧ State.reset.getF SIL_AUTH silSTATUS ≠ 1 ∧ State.reset.islandServes false = true ∧
    (State.reset.setF SEC_STATUS scTRNG 1).flag SEC_STATUS scTRNG = true ∧ (State.reset.setF SEC_STATUS scTRNG 0).flag SEC_STATUS scTRNG = false := by
  decide +kernel
theorem witness_nonceExpiry : let s := ({ State.reset with ident := { State.reset.ident with silNonce := some [1], nonce := some [2] } }).at (sec 600)
    s.ident.silNonce = some [1] ∧ s.sup.silNonceAt + sec 600 ≤ s.now ∧ s.ident.nonce = some [2] ∧ s.sup.secNonceAt + sec 600 ≤ s.now := by
  decide +kernel
theorem witness_clear : let w := 2 * 2 ^ silOP.lo + csBase 0 / 64 * 2 ^ silADDR.lo
    let s := State.reset.setF MC_STATUS mcCSOK 15
    silOP.of w = 2 ∧ silADDR.of w * 64 = csBase 0 ∧ (s.setF SIL_AUTH silADDR (silADDR.of w)).islandReads (csBase 0) 256 = true := by
  decide +kernel
/-- A quarantine clear of entry 47 with key 9 passes every check where the free signature check passes it. -/
def clearState : State := { State.reset with ident := { State.reset.ident with silNonce := some (List.replicate 16 5) }, stores := [(0x15, { b0 := some { seq := 1, val := .data ((nums 4 [9] ++ nums 1 [2] ++ nums 1 (List.replicate 139 0)).map (·.toNat)) } })] }
def clearToken : List Nat :=
  bytesOf 4 0x53434C52 ++ bytesOf 2 1 ++ [1, 47] ++ bytesOf 4 9 ++ List.replicate 4 0 ++ deviceId ++ List.replicate 16 5 ++ List.replicate 208 0
theorem witness_clearPasses (h : ∀ k m g, Config.ecdsaOk k m g = true) : clearState.clearFail clearToken = 0 := by
  have hk : (clearState.trusted 9 1).isSome = true := by decide +kernel
  have e1 : fieldAt clearToken 0 4 = 0x53434C52 := by rfl
  have e2 : fieldAt clearToken 4 2 = 1 := by rfl
  have e3 : fieldAt clearToken 6 1 = 1 := by rfl
  have e4 : fieldAt clearToken 7 1 = 47 := by rfl
  have e5 : fieldAt clearToken 8 4 = 9 := by rfl
  have e6 : slice clearToken 0x10 16 = deviceId := by rfl
  have e7 : slice clearToken 0x20 16 = List.replicate 16 5 := by rfl
  have e8 : zeroBytes clearToken 0xC 4 = true := by rfl
  have e9 : zeroBytes clearToken 0x30 16 = true := by rfl
  have e10 : zeroBytes clearToken 0xC4 60 = true := by rfl
  have e11 : clearState.ident.silNonce = some (List.replicate 16 5) := rfl
  have e12 : clearState.flag SIL_CTRL silFREEZE = false := by decide +kernel
  obtain ⟨k, hk⟩ := Option.isSome_iff_exists.1 hk
  simp [State.clearFail, State.tokenFail, clearEntryOk, e1, e2, e3, e4, e5, e6, e7, e8, e9, e10, e11, e12, hk, h]

/-- The Flacon runs and its link is up, with a distance one below a multiple of ten. -/
def flcState (x : Flacon) : State := ({ State.reset with flc := { x with on := true, running := true } }.setF FLC_STATUS flLINKOK 1).setF FLC_ODO foV 1
theorem witness_flacon : let s := (flcState { m := { dist := 0xFFFFFFFF, acc := 999 } }).at 5
    s.flc.on = true ∧ s.flc.running = true ∧ s.flcUp = true ∧ s.flag FLC_ODO foV = true ∧ s.sampleOdo.flc.stale = false ∧ State.reset.flc.on = false := by
  decide +kernel
theorem witness_implausible : let s := ((flcState { speed := 1281, bad := 99 }).setF FLC_ODO foSPEED 65535).at 5
    max 10240 (s.getF FLC_ODO foSPEED) < 10 * ((s.flc.speed : Int) - (s.getF FLC_ODO foSPEED : Int)).natAbs ∧ 1280 < s.flc.speed ∧
    1280 < s.getF FLC_ODO foSPEED := by decide +kernel

theorem witness_flcRequests : ∀ op ∈ [1, 2, 4, 5], let s0 := flcState { chal := some [7], transfer := some {}, cmdAt := 0 }
    let s := (s0.at (sec 600 - 1)).flcExpire
    frOP.of (op * 2 ^ frOP.lo) = op ∧ s.getF FLC_REQ frSTATUS ≠ 1 ∧ s.flcUp = true ∧ s.flc.chal.isSome = true ∧
    (s0.at (sec 600)).flc.chal.isSome = true ∧ (s0.at (sec 600)).flc.cmdAt + sec 600 ≤ (s0.at (sec 600)).now ∧
    s.flc.transfer.map Transfer.need = some none ∧ s.getF FLC_REQ frBLOCKS = 0 := by
  decide +kernel
theorem witness_workshop : ∀ c ∈ [1, 2, 3], let s := (flcState { chal := some [7] }).putBytes (flcBase + 0x406) [BitVec.ofNat 8 c]
    frOP.of (3 * 2 ^ frOP.lo) = 3 ∧ s.flcUp = true ∧ fieldAt s.flcBuf 6 1 = c ∧ s.flc.chal.isSome = true := by
  decide +kernel
/-- A RESEAL passes every check where the free keys and the free signature check let it. -/
def sealState : State := flcState { chal := some (List.replicate 16 5) }
def sealToken : List Nat :=
  bytesOf 4 0x464C5743 ++ bytesOf 2 1 ++ [2, 0] ++ bytesOf 4 9 ++ List.replicate 4 0 ++
  (List.range 16).map (fun i => Config.flcIdByte i % 256) ++ List.replicate 16 5 ++ List.replicate 208 0
theorem witness_reseal (h : ∀ k m g, Config.ecdsaOk k m g = true) (k : Nat × List Nat)
    (hk : Config.workshopKeys.find? (fun (i, _) => decide (i = 9)) = some k) : sealState.flcCheck sealToken = 0 := by
  have e1 : fieldAt sealToken 0 4 = 0x464C5743 := by rfl
  have e2 : fieldAt sealToken 4 2 = 1 := by rfl
  have e3 : fieldAt sealToken 6 1 = 2 := by rfl
  have e4 : fieldAt sealToken 7 1 = 0 := by rfl
  have e5 : fieldAt sealToken 8 4 = 9 := by rfl
  have e6 : slice sealToken 0x10 16 = (List.range 16).map (fun i => Config.flcIdByte i % 256) := by rfl
  have e7 : slice sealToken 0x20 16 = List.replicate 16 5 := by rfl
  have e8 : zeroBytes sealToken 0x30 16 = true := by rfl
  have e9 : zeroBytes sealToken 0xC4 60 = true := by rfl
  have e10 : fieldAt sealToken 0xC 4 = 0 := by rfl
  have e11 : sealState.flc.chal = some (List.replicate 16 5) := rfl
  have e12 : sealState.flc.m.sealCount = 0 := rfl
  have e13 : sealState.flc.m.log = [] := rfl
  simp [State.flcCheck, e1, e2, e3, e4, e5, e6, e7, e8, e9, e10, e11, e12, e13, hk, h]

theorem witness_security : ∀ op ∈ [1, 2, 3, 4, 6], let w := op * 2 ^ srOP.lo + csBase 0 / 64 * 2 ^ srADDR.lo
    let s := ((flcState {}).setF MC_STATUS mcCSOK 15).setF SEC_STATUS scTRNG 1
    let s1 := s.setF SEC_REQ srADDR (srADDR.of w)
    srOP.of w = op ∧ srADDR.of w * 64 = csBase 0 ∧ s.islandServes false = true ∧ s.getF SEC_REQ srSTATUS ≠ 1 ∧ s1.islandReads (csBase 0) 0x2000 = true ∧
    s1.flcUp = true ∧ s1.islandReads (csBase 0 + 0x1C0) (fieldAt (s1.bytes (csBase 0) 448) 0xC 4) = true ∧ s.flag SEC_STATUS scTRNG = true ∧
    s.ident.norFailed = 0 ∧ (s.storeNums 0x10).getD 0 0 = 1 ∧ s1.islandReads (csBase 0 + 0x40) 640 = true := by
  decide +kernel
/-- A retire token passes every check where the free signature check passes it. -/
def retireState : State := { clearState with ident := { clearState.ident with nonce := some (List.replicate 16 5) }, stores := [(0x11, { b0 := some { seq := 1, val := .data [2] } }), (0x15, { b0 := some { seq := 1, val := .data ((nums 4 [9] ++ nums 1 [8] ++ nums 1 (List.replicate 139 0)).map (·.toNat)) } })] }
def retireToken : List Nat :=
  bytesOf 4 0x554E4C4B ++ bytesOf 2 1 ++ [4, 0] ++ bytesOf 4 9 ++ List.replicate 4 0 ++ deviceId ++ List.replicate 16 5 ++ List.replicate 208 0
theorem witness_unlockPasses (h : ∀ k m g, Config.ecdsaOk k m g = true) : retireState.unlockFail retireToken = 0 := by
  have hk : (retireState.trusted 9 3).isSome = true := by decide +kernel
  have e1 : fieldAt retireToken 0 4 = 0x554E4C4B := by rfl
  have e2 : fieldAt retireToken 4 2 = 1 := by rfl
  have e3 : fieldAt retireToken 6 1 = 4 := by rfl
  have e4 : fieldAt retireToken 7 1 = 0 := by rfl
  have e5 : fieldAt retireToken 8 4 = 9 := by rfl
  have e6 : slice retireToken 0x10 16 = deviceId := by rfl
  have e7 : slice retireToken 0x20 16 = List.replicate 16 5 := by rfl
  have e8 : zeroBytes retireToken 0xC 4 = true := by rfl
  have e9 : zeroBytes retireToken 0x30 16 = true := by rfl
  have e10 : zeroBytes retireToken 0xC4 60 = true := by rfl
  have e11 : retireState.ident.nonce = some (List.replicate 16 5) := rfl
  have e12 : retireState.lifecycle = 2 := by decide +kernel
  obtain ⟨k, hk⟩ := Option.isSome_iff_exists.1 hk
  simp [State.unlockFail, State.tokenFail, e1, e2, e3, e4, e5, e6, e7, e8, e9, e10, e11, e12, hk, h]

/-- A state whose link 2 is up with packet 9 of direction 1 unacknowledged and the receiver at 9. -/
def linkState (rounds : Nat) : State :=
  let s := ((State.reset.setF (LNK_STAT 2) lkSTATE 2).setF (LNK_STAT 2) (lkWIDTH 0) 2).setF (LNK_STAT 2) (lkWIDTH 1) 2
  (s.setDir 2 1 { unacked := [(9, [1])], expect := 9, next := 9, rounds := rounds, hdr := [(0, 5)] }).at 5000
/-- A read request, TYPE 0 and CLASS 0, numbered 9, with its CRC. -/
def linkPacket : List Nat := let h := bytesOf 16 (9 * 2 ^ 22); h ++ bytesOf 4 (crc32 h)
theorem witness_packet : let s := linkState 0
    s.lkState 2 = 2 ∧ hdrBits (linkPacket.map (fun v => v % 256)) 0 4 ≠ 7 ∧ pktSeq (linkPacket.map (fun v => v % 256)) = (s.dir 2 1).next ∧
    (s.dir 2 1).maySend (linkPacket.map (fun v => v % 256)) = true ∧ ((s.dir 2 1).passFirst (linkPacket.map (fun v => v % 256))).isSome = true ∧ (s.dir 2 1).expect = 9 ∧ pktOk (linkPacket.map (fun v => v % 256)) = true := by
  decide +kernel
theorem witness_replay : ∀ r ∈ [0, 6, 7], let s := linkState r
    s.lkState 2 = 2 ∧ ackUpTo 9 (s.dir 2 1).unacked = some [] ∧ (s.dir 2 1).unacked.any (fun (n, _) => decide (n = 9)) = true ∧
    (s.dir 2 1).ackAt + us 2 ≤ s.now ∧ (s.dir 2 1).rounds = r ∧ s.getF (LNK_STAT 2) (lkWIDTH 0) = 2 ∧ s.getF (LNK_STAT 2) (lkWIDTH 1) = 2 ∧
    trainWidth 2 255 (decide (s.getF (LNK_STAT 2) (lkWIDTH 0) = 1)) = 0 ∧ 256 % 2 ^ linkGroups 2 = 0 := by decide +kernel
theorem witness_linkDown : let s := ((State.reset.setF (LNK_STAT 11) lkSTATE 4).setF SEC_STATUS scDEBUG 1)
    s.islandServes false = true ∧ s.lkState 11 = 4 ∧ s.flag SEC_STATUS scDEBUG = true ∧ ltMODE.of 1 = 1 := by decide +kernel
theorem witness_bond : let s := { State.reset with links := { State.reset.links with bonds := [(11, some 0)] } }
    Tab.get none s.links.bonds 11 = some 0 ∧ (s.accessEnds 47 .vector).now < 0 + sec 1 ∧ Tab.get none s.links.bonds 0 = none := by decide +kernel

/-- A state with a running guest of partition 3 that may open one window. -/
def guestState : State :=
  let s := ((State.reset.setF GST_STATUS gtSTATE 3).setF GST_PARAM gpPART 3).setF GST_PARAM gpNWIN 1
  { s with rgnCur := [(192, { lo := 2 ^ rgnVALID.lo + 2 ^ rgnWR.lo + 2 ^ rgnRD.lo + csBase 0 / 0x10000 * 2 ^ rgnBASE.lo, hi := 1024 * 2 ^ rgnSIZE.lo })] }
theorem witness_guestPower : let s := guestState.at 10
    s.getF GST_STATUS gtSTATE = 3 ∧ (20000 :: s.links.guest.samples).take 100 = [20000] := by decide +kernel
theorem witness_guestWindow : guestState.getF GST_STATUS gtSTATE = 3 ∧ gtFENCE.of 8 = 1 ∧
    guestState.rgnOk 65 3 true (csBase 0 / 0x10000 * 0x10000) 0x10000 = true := by decide +kernel
theorem witness_tap : let s := { (State.reset.setF SEC_STATUS scDEBUG 1) with links := { State.reset.links with tap := { st := .shDr } } }
    s.flag SEC_STATUS scDEBUG = true ∧ s.links.tap.st = .shDr := by decide +kernel

theorem witness_combine : let s := State.reset.setComb 14 { q := 16383, words := (List.range 7).map (fun k => (k, k)) }
    s.isHart 14 = true ∧ (s.comb 14).q = 16383 ∧ (Tab.insert (s.comb 14).words (56 / 8) 5).length = 8 ∧
    (Tab.insert (s.comb 14).words 0 5).length < 8 := by decide +kernel
theorem witness_lock : let s := State.reset.setF (AP_STAT 7) apMODE 0
    s.getF (AP_STAT 7) apMODE = 0 ∧ s.flag (AP_STAT 7) apGROUPED = false ∧ s.flag (AP_STAT 7) apFAILED = false := by decide +kernel
theorem witness_apSplit : let s := State.reset.setF (AP_STAT 7) apMODE 1
    s.getF (AP_STAT 7) apMODE = 1 ∧ s.flag (AP_STAT 7) apGROUPED = false ∧ s.flag (AP_STAT 7) apFAILED = false := by
  decide +kernel

/-- A device in replay mode whose PCIe port is an endpoint with a BAR4 window over common store 0. -/
def rigState : State :=
  let s := State.reset.setF RIG_CTRL rigREPLAY 1
  { s with cfg := { s.cfg with epMode := true, rigRead := true, bar4Size := 0x20000, bar4Base := csBase 0, pciePart := 1 },
           rgnCur := [(64, { lo := 2 ^ rgnVALID.lo + 2 ^ rgnWR.lo + 2 ^ rgnRD.lo + csBase 0 / 0x10000 * 2 ^ rgnBASE.lo, hi := 1024 * 2 ^ rgnSIZE.lo })] }
/-- Camera 15 enabled over a ring at common store 0, its slot holding a header. -/
def injState : State :=
  let s := ((rigState.setF (CAM_CFG 15) ccEN 1).setF (CAM_CFG 15) ccPART 1).setF (CAM_RING 15) crBASE (csBase 0 / 64)
  (s.setF MC_STATUS mcCSOK 15).putBytes (csBase 0) (nums 4 [0x43524E47] ++ nums 2 [1] ++ nums 1 [15])
theorem witness_rigStep : rigSTEP.of (2 ^ rigSTEP.lo) = 1 ∧ (rigState.at 5).flag RIG_CTRL rigREPLAY = true := by decide +kernel
theorem witness_inj : let w := 2 ^ injGO.lo + 2 ^ injCAM.lo + 15 * 2 ^ injRING.lo
    let s1 := (injState.at 5).loadF RIG_INJ [injCAM, injRING] w
    let a := camSlot s1 15 (s1.cam 15).next
    let h := s1.readBytes 65 (s1.getF (CAM_CFG 15) ccPART) a 64
    injGO.of w = 1 ∧ injCAM.of w = 1 ∧ injRING.of w = 15 ∧ (injState.at 5).getF RIG_INJ injSTATUS ≠ 1 ∧
    s1.flag (CAM_CFG 15) ccEN = true ∧ s1.slotHeld a = false ∧ fieldAt h 0 4 = 0x43524E47 ∧ fieldAt h 4 2 = 1 ∧ fieldAt h 6 1 = 15 ∧
    (s1.camWrite 15 a (putAt (putAt h 7 [2]) 0x11 [fieldAt h 0x11 1 ||| 8])).2 = false ∧
    ((rigState.at 5).loadF RIG_INJ [injCAM, injRING] w).flag (CAM_CFG 15) ccEN = false := by decide +kernel
theorem witness_bar0 : rigState.cfg.epMode = true ∧ rigState.cfg.rigRead = true ∧ 0x3FFFF8 + 8 ≤ 0x400000 ∧ dirBase + 0 < RIG_CTRL ∧
    (∀ o ∈ [0, 0x3FFFF8], rigState.regReadable { part := 1, priv := true } (dirBase + o) = true) := by decide +kernel
theorem witness_bar4 : let s := injState
    0x20000 - 64 + 64 ≤ s.cfg.bar4Size ∧ s.canRead 65 1 (csBase 0 + 0x20000 - 64) 64 = true ∧ s.canWrite 65 1 (csBase 0 + 0x20000 - 64) 64 = true ∧
    s.readFails 65 1 (csBase 0 + 0x20000 - 64) 64 = false := by decide +kernel
theorem witness_bar2 : let s := rigState.setF (qCtl 16383) qPART 1
    s.flag (qCtl 16383) qRDRV = false ∧ s.qPart 16383 = s.cfg.pciePart ∧ s.cfg.epMode = true := by decide +kernel

/-- CAN channel 1 enabled with a filter for every standard frame, its rings in common store 0 with one entry each; the
transmit entry names `id`. -/
def canState (id : Nat) : State :=
  let s := ((State.reset.setF (CAN_CFG 1) cnEN 1).setF (CANF 1 31) cfV 1).setF MC_STATUS mcCSOK 15
  let s := [13, 15].foldl (fun s g => ((s.setF (RING_GROUP g) qLDEPTH 1).setF (RING_GROUP g) qBASE (csBase 0 / 64)).setF (RING_GROUP g + 24) qTAIL 1) s
  let s := { s with rgnCur := [(0, { lo := 2 ^ rgnVALID.lo + 2 ^ rgnWR.lo + 2 ^ rgnRD.lo + csBase 0 / 0x10000 * 2 ^ rgnBASE.lo, hi := 1024 * 2 ^ rgnSIZE.lo })] }
  (s.putBytes (csBase 0) (nums 4 [id])).at 5
theorem witness_can : let s := canState (5 + 2 ^ 30)
    s.flag (CAN_CFG 1) cnEN = true ∧ s.grpNext 13 ≠ s.grpTail 13 ∧ canEntryOk (s.grpEntry 13 (s.grpNext 13)) = true ∧
    s.canRead 65 (s.groupPart 13) (s.grpAddr 13 (s.grpNext 13)) 128 = true ∧
    s.readFails 65 (s.groupPart 13) (s.grpAddr 13 (s.grpNext 13)) 128 = false ∧ s.canTakes 1 5 false = true ∧ s.grpNext 15 ≠ s.grpTail 15 ∧
    canEntryOk ((canState 5).grpEntry 13 ((canState 5).grpNext 13)) = false ∧ (s.setGrpNext 15 1).grpNext 15 = (s.setGrpNext 15 1).grpTail 15 := by
  decide +kernel
/-- An odometry frame with SEQ 7, FLAGS `v` and speed 100. -/
def odoBytes (v : Nat) : List Nat := let b := [7, v] ++ bytesOf 2 100 ++ bytesOf 8 0; b ++ bytesOf 4 (crc32c b)
theorem witness_odometry : ∀ v ∈ [0, 1], (odoBytes v).length = 16 ∧ fieldAt ((odoBytes v).map (fun x => x % 256)) 0xC 4 =
    crc32c (((odoBytes v).map (fun x => x % 256)).take 12) ∧ fieldAt ((odoBytes v).map (fun x => x % 256)) 1 1 = v ∧
    (State.reset.odoOf true).seq = none ∧ newer 8 7 3 = true := by decide +kernel
theorem witness_odoStale : (((State.reset.at 60000000).odoOf true).at_ + ms 50) ≤ (State.reset.at 60000000).now := by decide +kernel
theorem witness_pcie : State.reset.cfg.epMode = false ∧ pgGO.of (2 ^ pgGO.lo) = 1 ∧ pgOP.of (2 ^ pgGO.lo) = 0 ∧
    pgOP.of (2 ^ pgGO.lo + 2 ^ pgOP.lo) = 1 ∧ pgGO.of (2 ^ pgGO.lo + 2 ^ pgOP.lo) = 1 := by decide +kernel

/-- Port 5 up with a transmit descriptor of `n` bytes at NEXT, its frame behind it, and filter 63 towards ring 31. -/
def ethState (n : Nat) : State :=
  let s := ((State.reset.setF (PORT 5) psLINK 1).setF (PORT 5) psSPEED 1).setF MC_STATUS mcCSOK 15
  let s := ((s.setF (RING_GROUP 5) qLDEPTH 1).setF (RING_GROUP 5) qBASE (csBase 0 / 64)).setF (RING_GROUP 5 + 24) qTAIL 1
  let s := ((s.setF (QCI_F 5 63) qfV 1).setF (QCI_M 5 63) qmSDU 9018).setF (QCI_M 5 63) qmRING 31
  let s := { s with rgnCur := [(0, { lo := 2 ^ rgnVALID.lo + 2 ^ rgnWR.lo + 2 ^ rgnRD.lo + csBase 0 / 0x10000 * 2 ^ rgnBASE.lo, hi := 1024 * 2 ^ rgnSIZE.lo })] }
  s.putBytes (csBase 0) (nums 8 [csBase 0 + 64] ++ nums 2 [n])
theorem witness_doorbell : let s := ethState 60
    ctrlWriter (.runtime 0) (s.groupPart 5) = true ∧ newer 32 (s.grpTail 5) 2 = false ∧ subMod 32 2 (s.grpHead 5) ≤ s.grpDepth 5 := by decide +kernel
theorem witness_transmit : ∀ n ∈ [59, 60, 9018], let s := (ethState n).at 5
    let x := s.txPick 5 (s.txWaiting 5)
    s.flag (PORT 5) psLINK = true ∧ x.isSome = true ∧ (∀ y ∈ x, (txOk y.2 = true ↔ n ≠ 59) ∧
    s.canRead 65 (s.portPart 5) (fieldAt y.2 0 8) (fieldAt y.2 8 2) = true ∧
    s.readFails 65 (s.portPart 5) (fieldAt y.2 0 8) (fieldAt y.2 8 2) = false) := by decide +kernel
theorem witness_receive : let s := ethState 60
    s.qciMatch 5 (List.replicate 60 0) = some 63 ∧ s.qciMatch 5 (List.replicate 60 1) = none ∧ 60 ≤ s.getF (QCI_M 5 63) qmSDU ∧
    (s.meter 5 63 480).2 = true ∧ s.getF (QCI_M 5 63) qmRING < 32 ∧ s.flag (PORT 0) psLINK = false := by decide +kernel
theorem witness_gates : let w := 2 ^ qvNGCL.lo * 256 + 1000 * 2 ^ qvCYCLE.lo
    let s := (State.reset.setF (QBV_CTL 5) qvPENDING 1).at 5
    qvNGCL.of w = 256 ∧ qvCYCLE.of w = 1000 ∧ s.flag (QBV_CTL 5) qvPENDING = true ∧ s.getF (QBV_BASE 5) rw64 ≤ s.portTime 5 := by decide +kernel
theorem witness_gateEntry : ∀ i ∈ [0, 1], let s := (State.reset.setPort 5 { qbvOn := true, gcl := [(400, 1), (600, 2)], cycle := 1000, idx := i, entryAt := 400 * i }).at 1000
    let x := s.port 5
    let e := entryEnd x.gcl x.idx (x.entryAt - x.cycleAt) x.cycle
    x.qbvOn = true ∧ x.cycleAt + e ≤ s.portTime 5 ∧ (e < x.cycle ↔ i = 0) := by decide +kernel

/-- A state with changed supplies. -/
def powState (p : Power) (at_ : Nat) : State := ({ State.reset with pow := p }).at at_
def tolAll : Tab (Option Nat) := [(0, some 0), (1, some 0), (2, some 0), (3, some 0), (4, some 0)]
theorem witness_pwrEnRise : let s := powState { en := false, tolSince := tolAll } (ms 10)
    (∀ n < 5, s.inTol n (ms 10) = true) ∧ s.pow.en = false ∧ s.pow.refused = false ∧
    (powState { en := false } (ms 10)).inTol 0 (ms 10) = false := by decide +kernel
theorem witness_railGroup : ∀ g ∈ [0, 1], let s := powState { seqOn := true, groups := g } (ms 10)
    s.pow.seqOn = true ∧ s.pow.groups + 1 < 3 ∧ s.now ≤ s.pow.groupAt + ms 10 ∧
    (powState { seqOn := true, groups := g } (ms 10 + 1)).pow.groupAt + ms 10 < (powState { seqOn := true, groups := g } (ms 10 + 1)).now := by
  decide +kernel
theorem witness_supplySample : let s := powState { en := true } 5
    s.pow.good = false ∧ s.pow.en = true ∧ s.pow.seqOn = false := by decide +kernel
theorem witness_pwrEnFall : let s := powState { en := true, good := true, released := true } 5
    s.pow.en = true ∧ s.pow.good = true ∧ s.pow.released = true ∧ s.islandServes false = true := by decide +kernel
theorem witness_vbusRestore : let s := powState { en := true, hold := 16, tolSince := tolAll } (ms 10)
    bit s.pow.hold 4 = true ∧ s.pow.seqOn = false ∧ s.inTol 0 (ms 10) = true ∧ s.inTol 1 (ms 10) = true := by decide +kernel
theorem witness_vbusLow : let s := ((powState { vbusLow := some 0 } (ms 10)).inMode 0).setF CLK_STATUS ckPEND 0
    s.pow.vbusLow = some 0 ∧ s.islandServes false = true ∧ s.mode = 0 ∧ s.flag CLK_STATUS ckPEND = false := by decide +kernel
theorem witness_limiter : let s := powState { samples := List.replicate 100 200000, pwrNext := some 4 } 5
    ((200000 :: s.pow.samples).take 100).length = 100 ∧ 90 * s.getF PWR_STATUS pwCAP * 100 < ((200000 :: s.pow.samples).take 100).foldl (fun n v => n + v) 0 ∧
    s.pow.pwrAt = none := by decide +kernel
theorem witness_powerCycle : let s := ({ State.reset with sup := { State.reset.sup with warmSince := some 0, warmLimit := sec 6 } } : State).at (sec 6)
    s.sup.warmSince = some 0 ∧ 0 + s.sup.warmLimit ≤ s.now := by decide +kernel

theorem witness_resetPins : let s := powState { hold := 3, good := true } 5
    bit s.pow.hold 0 = true ∧ bit (powState { hold := 2, good := true } 5).pow.hold 1 = true ∧ bit (powState { good := true } 5).pow.hold 1 = false ∧
    bit (powState { good := true } 5).pow.hold 0 = false ∧ s.islandServes false = true ∧ s.pow.good = true := by decide +kernel
theorem witness_tripRelease : let s := powState { hold := 4, good := true, below100 := some 0 } (sec 10)
    bit s.pow.hold 2 = true ∧ s.islandServes false = true ∧ lasted s.pow.below100 (sec 10) s.now = true := by decide +kernel

/-- All 168 sensors at `v`, after nine hot ticks. -/
def thermState (v : Nat) : State :=
  (List.range 21).foldl (fun (s : State) d => s.showSensors d (List.replicate 8 v)) (powState { hot := 9, thermNext := some 4 } (ms 1))
theorem witness_thermal : ∀ v ∈ [1050, 1151], let r := thermState v
    r.islandServes false = true ∧ r.pow.good = false ∧ r.deviceTj = v ∧ r.pow.hot = 9 ∧ r.pow.msAt + ms 1 ≤ r.now ∧ r.pow.thermAt = none := by
  decide +kernel
theorem witness_guestCool : (thermState 1150).hottest 20 = some 1150 := by decide +kernel
theorem witness_coolant : let s := { thermState 900 with pow := { rising := 2, windows := [(5787, 0)], winSum := 100, winN := 1 } }
    let s1 := { s with pow := { s.pow with windows := [(5787, 100)] } }
    s.islandServes false = true ∧ s.getF COOL_STATUS coSTATE < 2 ∧ (12 : Int) < ((s.baseSum + 2200).toNat : Int) - 5787 ∧
    near10 (s1.pow.winSum / max 1 s1.pow.winN) 100 = true := by decide +kernel
theorem witness_ageing : let s := powState { good := true } (sec 3600)
    s.islandServes false = true ∧ s.pow.hold = 0 ∧ s.pow.ageAt + sec 3600 ≤ s.now ∧ s.pow.trimNext = [] ∧
    s.getF (TRIM 16) tmSTEPS < min 12 (min 50 0xFFFF / 50) := by decide +kernel

theorem witness_wheelSpeed : let s := ({ State.reset with flc := { State.reset.flc with on := true, running := true, overrange := true } } : State).at 5
    s.flc.running = true ∧ s.flc.on = true ∧ s.flc.overrange = true ∧ s.pulseEarly = false ∧
    (({ s with flc := { s.flc with pulses := [4] } } : State)).pulseEarly = true := by decide +kernel

theorem witness_intFormats : signedOf Fmt.int4.bits 8 = -8 ∧ signedOf Fmt.int32.bits 0x7FFFFFFF = 2147483647 := by decide +kernel

theorem witness_serial : 1 ≤ 8 ∧ 5 < 2 ^ 8 ∧ 133 < 2 ^ 8 ∧ newer 8 5 133 = false ∧ newer 8 133 5 = false := by decide +kernel

theorem witness_registerWrite : partBase ≤ PDESC 7 + 24 ∧ PDESC 7 + 24 < redBase ∧ (PDESC 7 + 24) % 8 = 0 ∧
    ¬ (JOB_STAT 0 ≤ PDESC 7 + 24 ∧ PDESC 7 + 24 < JOB_STAT 255) ∧ regFields (PDESC 7) ≠ [] ∧ place mainSize 8 = .none ∧
    State.reset.getF MC_FILL_CTRL fillSTATUS ≠ 1 ∧ (∀ f ∈ regFields (PDESC 7), 63 < f.lo ∨ f.lo + f.w ≤ 63) := by decide +kernel

theorem witness_refused : Who.debug ≠ .islandA ∧ Who.debug ≠ .islandB ∧ flcWriter .debug = false := by decide +kernel

/-- A start in which everything passes. -/
def okStart : Start := { bad := [], channels := 2 ^ 24 - 1, stores := 15, cmps := 31, failing := [], guest := none }
/-- Operands that the device does not have: each command is ill-formed by one check. -/
theorem test_ill_formed_0 : ∀ i ∈ ([.nop 48, .streamInstructionBegin 0 .front, .unitReset (.runtime 8) 0 0, .unitReset .islandA 63 0, .unitReset .islandA 0 18446744073709551616, .barHart .islandA 8 0, .generationTokenWait 0 16, .eccWriteBack 17592186044416, .patrol 24 [] [] 0, .patrol 0 ([2 ^ 44]) [] 0, .patrol 0 [] ([2 ^ 44]) 0, .regionEntryWrite .islandA 0 64 0, .regionEntryWrite .islandA 0 0 18446744073709551616, .regionEntrySwitch 66 0 0, .frame 59 0, .frame 62 0, .fwd 47, .fwd 52, .trigFsSeqWrite .islandA 16 0, .lift 51] : List Instr), wellFormed i = false := by decide
/-- Operands that the device does not have: each command is ill-formed by one check. -/
theorem test_ill_formed_1 : ∀ i ∈ ([.lift 56, .check 55, .check 60, .push .islandA 16640 [], .push .islandA 0 [256], .swTailWrite .islandA 0 17592186044416 [], .frameStartReceive 0 65536 0, .memberErrorNotice 0 3, .quarantineEvaluation 72 0 0 0, .quarantineEvaluation 63 0 0 0, .warmReset ({ okStart with stores := 16 }) 0, .storeWrite 22 0, .storeWrite 0 3, .packetReceive 12 0 [] false 0, .packetReceive 0 2 [] false 0, .ackReceive 0 0 4096 0, .linkRetrain 0 256 0 0, .linkRetrain 0 0 256 0, .bondUncorrectable 12 0 .load 0, .combineBufferEmit 16 false 0 0 0] : List Instr), wellFormed i = false := by decide
/-- Operands that the device does not have: each command is ill-formed by one check. -/
theorem test_ill_formed_2 : ∀ i ∈ ([.lock 0 16 false false, .pcieInboundRequest 6 0 false [] 0, .thermalTrip 21 0, .csiFrameStart 0 4 0, .csiEmbeddedData 0 0 [256] 0, .csiLine 0 0 64 [] false 0, .ethTransmit 6 0, .ethReceive 0 [256] false 0, .canReceive 0 536870912 false false [] 0, .jobLost 255 0] : List Instr), wellFormed i = false := by decide
theorem test_well_formed_0 : ∀ i ∈ ([.nop 0, .streamInstructionBegin 0 .load, .unitReset .islandA 0 0, .barHart .islandA 0 0, .generationTokenWait 0 0, .eccWriteBack 0, .patrol 0 [] [] 0, .regionEntryWrite .islandA 0 0 0, .regionEntrySwitch 0 0 0, .frame 60 0, .fwd 48, .trigFsSeqWrite .islandA 0 0, .lift 52, .check 56, .push .islandA 0 [], .swTailWrite .islandA 0 0 [], .frameStartReceive 0 0 0, .memberErrorNotice 0 0, .quarantineEvaluation 0 0 0 0, .warmReset okStart 0, .storeWrite 0 0, .packetReceive 0 0 [] false 0, .ackReceive 0 0 0 0, .linkRetrain 0 0 0 0, .bondUncorrectable 0 0 .load 0, .combineBufferEmit 0 false 0 0 0, .lock 0 0 false false, .pcieInboundRequest 0 0 false [] 0, .thermalTrip 0 0, .csiFrameStart 0 0 0] : List Instr), wellFormed i = true := by decide
theorem test_well_formed_1 : ∀ i ∈ ([.csiEmbeddedData 0 0 [] 0, .csiLine 0 0 0 [] false 0, .ethTransmit 0 0, .ethReceive 0 [] false 0, .canReceive 0 0 false false [] 0, .jobLost 0 0] : List Instr), wellFormed i = true := by decide
/-- The checks of a start and of the guest's answer. -/
theorem test_ill_formed_start : ∀ st ∈ [{ okStart with bad := [256] }, { okStart with channels := 2 ^ 24 }, { okStart with stores := 16 },
    { okStart with cmps := 2 ^ 16 }, { okStart with failing := [63] },
    { okStart with guest := some { streaming := true, x16 := true, x8 := true, rate := 16, vendor := 1, die := 1, manifest := [0], overload := false } }],
    Start.ok st = false := by decide
theorem test_ill_formed_writers : ∀ x ∈ [Who.runtime 8, .user 8], x.ok = false := by decide
theorem test_ill_formed_windows : winSlot 48 0 = false ∧ winSlot 47 16 = false ∧ winSlot 63 8 = false := by decide

/-- What a command leaves. -/
def after (i : Instr) (s : State) : State := match exec i s with
  | .next t => t
  | _ => s
/-- S1 and S2 of the test cell. -/
def twoRegs (a b : Nat) : Cell := (({} : Cell).wS 1 a).wS 2 b
/-- 04 R93: the sum wraps modulo 2^64; the word has D 3, A 1, B 2. -/
theorem test_sadd_wraps : ((after (.sadd 3) (feState (ins 1 0 (3 * 2 ^ 39 + 1 * 2 ^ 34 + 2 * 2 ^ 29)) (twoRegs (2 ^ 64 - 1) 2))).cell 3).rS 3 = 1 := by
  decide +kernel
/-- 04 R93: the difference is SA − SB, in that order. -/
theorem test_ssub_order : ((after (.ssub 3) (feState (ins 1 1 (1 * 2 ^ 39 + 1 * 2 ^ 34 + 2 * 2 ^ 29)) (twoRegs 2 5))).cell 3).rS 1 = 2 ^ 64 - 3 := by
  decide +kernel
/-- 04 R93: SSRA keeps the sign and takes bits [5:0] of the count: 65 shifts by 1. -/
theorem test_ssra_sign : ((after (.ssra 3) (feState (ins 1 8 (3 * 2 ^ 39 + 1 * 2 ^ 34 + 2 * 2 ^ 29)) (twoRegs (2 ^ 64 - 8) 65))).cell 3).rS 3 = 2 ^ 64 - 4 := by
  decide +kernel
/-- 00 R10: 1 is newer than 255 on eight bits. -/
theorem test_newer_wraps : newer 8 1 255 = true ∧ newer 8 255 1 = false := by decide
/-- 02 R27: INT8 0x80 is −128. -/
theorem test_int8_min : signedOf 8 0x80 = -128 := by decide
/-- 14 R385: 25 pulses in a second at the reset constant 1,000 are 25 × 921,600 / 1,000 = 23,040, which is 90 km/h in 1/256. -/
theorem test_speed : (after (.speedUpdate 100) { State.reset with flc := { State.reset.flc with on := true, running := true, pulses := List.replicate 25 50 } }).flc.speed = 23040 := by
  decide +kernel
/-- 01 R18: a refused write is counted in bin 0 of histogram 381. -/
theorem test_refused_counts : Tab.get 0 (after (.flcOdoWrite .debug 0) State.reset).sil.hist (381 * 64) = 1 := by decide +kernel

end Sys2Proof.Tests
end

/-! PROOFS. The integer formats (02 R27). `signedOf w` is the balanced residue modulo `2^w`, and on the two's complement range of
`w` bits it and `twos w` invert one another. -/

namespace Sys2Proof.Machine

theorem signedOf_eq_bmod {w : Nat} (hw : 0 < w) (b : Nat) : signedOf w b = (b : Int).bmod (2 ^ w) := by
  have hhalf := Nat.two_pow_pred_mul_two hw
  unfold signedOf Int.bmod
  rw [← Int.natCast_emod]
  dsimp only
  split <;> split <;> omega

theorem neg_half_le_signedOf {w : Nat} (hw : 0 < w) (b : Nat) : -(2 ^ (w - 1) : Nat) ≤ signedOf w b := by
  have hhalf := Nat.two_pow_pred_mul_two hw
  have hle := Int.le_bmod (x := (b : Int)) (Nat.two_pow_pos w)
  rw [signedOf_eq_bmod hw]
  omega

theorem signedOf_lt_half {w : Nat} (hw : 0 < w) (b : Nat) : signedOf w b < (2 ^ (w - 1) : Nat) := by
  have hhalf := Nat.two_pow_pred_mul_two hw
  have hlt := Int.bmod_lt (x := (b : Int)) (Nat.two_pow_pos w)
  rw [signedOf_eq_bmod hw]
  omega

theorem signedOf_emod {w : Nat} (hw : 0 < w) (b : Nat) : signedOf w b % (2 ^ w : Nat) = (b : Int) % (2 ^ w : Nat) := by
  rw [signedOf_eq_bmod hw, Int.bmod_emod]

theorem natCast_twos (w : Nat) (v : Int) : (twos w v : Int) = v % (2 ^ w : Nat) :=
  Int.toNat_of_nonneg (Int.emod_nonneg v (by positivity))

theorem twos_lt (w : Nat) (v : Int) : twos w v < 2 ^ w := by
  have hlt := Int.emod_lt_of_pos v (Int.natCast_pos.2 (Nat.two_pow_pos w))
  rw [← natCast_twos] at hlt
  exact Int.ofNat_lt.1 hlt

/-- Reading back an encoded integer of the range gives the integer. -/
theorem signedOf_twos {w : Nat} (hw : 0 < w) {v : Int} (hlo : -(2 ^ (w - 1) : Nat) ≤ v) (hhi : v < (2 ^ (w - 1) : Nat)) :
    signedOf w (twos w v) = v := by
  have hhalf := Nat.two_pow_pred_mul_two hw
  rw [signedOf_eq_bmod hw, natCast_twos, Int.emod_bmod]
  exact Int.bmod_eq_of_le (by omega) (by omega)

/-- Encoding the value of `w` bits gives the bits. -/
theorem twos_signedOf {w b : Nat} (hw : 0 < w) (hb : b < 2 ^ w) : twos w (signedOf w b) = b := by
  apply Int.natCast_inj.1
  rw [natCast_twos, signedOf_emod hw, ← Int.natCast_emod, Nat.mod_eq_of_lt hb]

/-- Settles O54: each row's limits are `-2^(w-1)` and `2^(w-1) - 1`, and an integer of the range has its encoding `twos w`
as the one preimage. -/
theorem integerFormats : Obligations.IntegerFormats := by
  unfold Obligations.IntegerFormats
  intro x hx
  have hrange : 0 < x.1.bits ∧ x.2.1 = -(2 ^ (x.1.bits - 1) : Nat) ∧ x.2.2 = (2 ^ (x.1.bits - 1) : Nat) - 1 := by
    simp only [List.mem_cons, List.not_mem_nil, or_false] at hx
    obtain rfl | rfl | rfl | rfl := hx <;> decide
  obtain ⟨hw, hlo, hhi⟩ := hrange
  rw [hlo, hhi]
  constructor
  · intro b _
    have hcongr := Int.emod_eq_emod_iff_emod_sub_eq_zero.1 (signedOf_emod hw b)
    exact ⟨neg_half_le_signedOf hw b, Int.le_sub_one_of_lt (signedOf_lt_half hw b), by exact_mod_cast hcongr⟩
  · intro v hv₁ hv₂
    refine ⟨twos x.1.bits v, twos_lt _ v, signedOf_twos hw hv₁ (Int.lt_of_le_sub_one hv₂), ?_⟩
    rintro c hc rfl
    exact (twos_signedOf hw hc).symm

end Sys2Proof.Machine

/-! PROOFS. What a mask and a filtered table read, and what running a stream instruction to its end keeps (03 R55, R56). -/

namespace Sys2Proof.Machine

theorem bit_eq_testBit (m i : Nat) : bit m i = m.testBit i := Nat.testBit_eq_decide_div_mod_eq.symm

@[simp] theorem bit_setBit (m i j : Nat) : bit (setBit m i) j = (bit m j || decide (i = j)) := by
  simp only [bit_eq_testBit, setBit, Nat.testBit_or, Nat.testBit_two_pow]

/-- Taking away a bit that stands borrows nothing: the mask is its low part and `2 ^ i` times an odd number. -/
theorem testBit_sub_two_pow {m i : Nat} (hset : bit m i = true) (j : Nat) :
    (m - 2 ^ i).testBit j = (m.testBit j && !decide (i = j)) := by
  have hlow : m % 2 ^ i < 2 ^ i := Nat.mod_lt _ (Nat.two_pow_pos i)
  have hodd : m / 2 ^ i = 2 * (m / 2 ^ i / 2) + 1 := by
    have := of_decide_eq_true hset
    omega
  have hm : m = 2 ^ i * (2 * (m / 2 ^ i / 2) + 1) + m % 2 ^ i := by rw [← hodd, Nat.div_add_mod]
  generalize m / 2 ^ i / 2 = q at hm
  generalize m % 2 ^ i = r at hm hlow
  have hsub : m - 2 ^ i = 2 ^ i * (2 * q) + r := by
    rw [hm, Nat.mul_add]
    omega
  rw [hsub, hm, Nat.testBit_two_pow_mul_add _ hlow, Nat.testBit_two_pow_mul_add _ hlow]
  obtain hlt | rfl | hgt := Nat.lt_trichotomy j i
  · simp [hlt, hlt.ne']
  · simp
  · obtain ⟨d, rfl⟩ := Nat.exists_eq_add_of_lt hgt
    have hhalf : (2 * q + 1) / 2 = q := by omega
    simp [Nat.add_assoc, Nat.testBit_succ, hhalf]

@[simp] theorem bit_clrBit (m i j : Nat) : bit (clrBit m i) j = (bit m j && !decide (i = j)) := by
  unfold clrBit
  split
  case isTrue hset => rw [bit_eq_testBit, bit_eq_testBit, testBit_sub_two_pow hset]
  case isFalse hclear =>
    obtain rfl | hij := eq_or_ne i j
    · simp [hclear]
    · simp [hij]

theorem Tab.find_filter {α : Type} (p : Nat → Bool) (m : Tab α) (j : Nat) :
    Tab.find (m.filter (fun x => p x.1)) j = if p j then Tab.find m j else none := by
  induction m with
  | nil => simp [Tab.find]
  | cons x t ih =>
    obtain ⟨k, v⟩ := x
    obtain rfl | hk := eq_or_ne k j
    · by_cases hp : p k = true <;> simp [hp, Tab.find, ih]
    · by_cases hp : p k = true <;> simp [hp, Tab.find, hk, ih]

/-- Of a table, the entries whose keys meet `p` stay; every other key reads the default. -/
theorem Tab.get_filter {α : Type} (p : Nat → Bool) (d : α) (m : Tab α) (j : Nat) :
    Tab.get d (m.filter (fun x => p x.1)) j = if p j then Tab.get d m j else d := by
  unfold Tab.get
  rw [Tab.find_filter]
  by_cases hp : p j = true <;> simp [hp]

theorem SameFile.rT {x y : Cell} (h : SameFile x y) (t m n : Nat) : y.rT t m n = x.rT t m n := by
  simp only [Cell.rT, h.t]

theorem Cell.setStream_sameFile (x : Cell) (st : Strm) (q : Stream) : SameFile x (x.setStream st q) := by
  cases st <;> exact ⟨rfl, rfl, rfl, rfl, rfl, rfl⟩

/-- Ending a stream instruction leaves every register file as its steps left it. -/
theorem State.stDone_sameFile (c : Nat) (st : Strm) (i : Nat) (e : QEntry) (total : Nat) (t : State) (d : Nat) :
    SameFile (t.cell d) ((State.stDone c st i e total t).cell d) :=
  sameFile_setCell (Cell.setStream_sameFile (t.cell c) st _) d

/-- A stream instruction of one step that nothing stops runs to its end from its first step. -/
theorem State.runStream_plan1 {s : State} {c code i : Nat} {st : Strm} {e : QEntry} {f : State → QEntry → Except Nat Plan}
    {g : State → State} (h : s.stRuns c code st i e) (h0 : e.steps = 0)
    (hf : f (s.withDescs e) e = .ok (plan1 (fun s => (g s, 0)))) :
    s.runStream c false code f = State.stDone c st i e 1 (g s) :=
  State.runStream_done h hf (j := 1) (by rw [h0]; rfl)

end Sys2Proof.Machine

/-! PROOFS. TZERO (04 R103): its plan writes `Cell.zeroTile` into its cell, and nothing else. -/

namespace Sys2Proof.Machine

/-- The cell after tile `k` is zeroed with the type bit `fp`: its elements are no longer listed, so they read the default +0. -/
def Cell.zeroTile (x : Cell) (k : Nat) (fp : Bool) : Cell :=
  { x with
    t := x.t.filter (fun p => decide (p.1 / 8192 ≠ k))
    tfp := if fp then setBit x.tfp k else clrBit x.tfp k
    tsat := clrBit x.tsat k }

theorem Cell.rT_zeroTile (x : Cell) (k : Nat) (fp : Bool) (q : Nat) {m n : Nat} (hm : m < 128) (hn : n < 64) :
    (x.zeroTile k fp).rT q m n = if q = k then 0 else x.rT q m n := by
  have htile : (8192 * q + 64 * m + n) / 8192 = q := by omega
  unfold Cell.rT Cell.zeroTile
  rw [Tab.get_filter (fun j => decide (j / 8192 ≠ k)), htile]
  obtain rfl | hq := eq_or_ne q k
  · simp
  · simp [hq]

theorem Cell.bit_tfp_zeroTile (x : Cell) (k : Nat) (fp : Bool) (q : Nat) :
    bit (x.zeroTile k fp).tfp q = if q = k then fp else bit x.tfp q := by
  obtain rfl | hq := eq_or_ne q k
  · cases fp <;> simp [Cell.zeroTile]
  · cases fp <;> simp [Cell.zeroTile, hq, hq.symm]

theorem Cell.bit_tsat_zeroTile (x : Cell) (k : Nat) (fp : Bool) (q : Nat) :
    bit (x.zeroTile k fp).tsat q = if q = k then false else bit x.tsat q := by
  obtain rfl | hq := eq_or_ne q k
  · simp [Cell.zeroTile]
  · simp [Cell.zeroTile, hq, hq.symm]

/-- `Cell.zeroTile` is what the one step of TZERO does to its cell. -/
theorem planTzero_eq (c : Nat) (s : State) (e : QEntry) :
    planTzero c s e = .ok (plan1 (fun s =>
      (s.setCell c ((s.cell c).zeroTile (bits e.word.toNat 43 41) (decide (bits e.word.toNat 40 40 = 1))), 0))) := by
  simp only [planTzero, Cell.zeroTile, decide_eq_true_eq]

theorem exec_tzero_run {s : State} {c i : Nat} {e : QEntry} (h : s.stRuns c (op 4 0) .tensor i e) (h0 : e.steps = 0) :
    exec (.tzero c .run) s = .next (State.stDone c .tensor i e 1
      (s.setCell c ((s.cell c).zeroTile (bits e.word.toNat 43 41) (decide (bits e.word.toNat 40 40 = 1))))) :=
  congrArg Host.Outcome.next (State.runStream_plan1 h h0 (planTzero_eq c _ e))

/-- Settles O16: the run's one step writes `Cell.zeroTile` into the cell, and ending the instruction keeps that register file. -/
theorem tileZeroing : Obligations.TileZeroing := by
  unfold Obligations.TileZeroing
  intro s c i e w k hruns h0
  let x := (s.cell c).zeroTile k (decide (bits w 40 40 = 1))
  have hfile : SameFile x ((State.stDone c .tensor i e 1 (s.setCell c x)).cell c) := by
    simpa using State.stDone_sameFile c .tensor i e 1 (s.setCell c x) c
  refine ⟨_, exec_tzero_run hruns h0, ?_, ?_, ?_, ?_, ?_, rfl⟩
  · intro m n hm hn
    rw [hfile.rT, Cell.rT_zeroTile _ _ _ _ hm hn, if_pos rfl]
  · intro q m n hm hn hq
    rw [hfile.rT, Cell.rT_zeroTile _ _ _ _ hm hn, if_neg hq]
  · rw [hfile.tfp, Cell.bit_tfp_zeroTile, if_pos rfl]
  · rw [hfile.tsat, Cell.bit_tsat_zeroTile, if_pos rfl]
  · intro q hq
    rw [hfile.tfp, hfile.tsat, Cell.bit_tfp_zeroTile, Cell.bit_tsat_zeroTile, if_neg hq, if_neg hq]
    exact ⟨rfl, rfl⟩

end Sys2Proof.Machine

/-! PROOFS. The Flacon's pulses and speed (14 R383 to R385). FLC_PULSE applies `Flacon.count` and SPEED_UPDATE `Flacon.measure` to
the Flacon and leave the rest of the state; the clauses about the pulses of the last second are facts about those two. -/

namespace Sys2Proof.Machine

/-- The pulses counted in the last 1.0 s before `now`. -/
def Flacon.recent (x : Flacon) (now : Nat) : List Nat := x.pulses.filter (fun p => decide (now < p + sec 1))

/-- The Flacon after it counts a pulse at `now`; the store is written when the distance passes a multiple of 10 m. -/
def Flacon.count (x : Flacon) (now : Nat) : Flacon :=
  { x with
    m := x.m.pulse
    pulses := x.recent now ++ [now]
    saved := if x.m.pulse.dist / 10 = x.m.dist / 10 then x.saved else x.m.pulse }

/-- The Flacon after it takes the speed at `now`. -/
def Flacon.measure (x : Flacon) (now : Nat) : Flacon :=
  { x with
    pulses := x.recent now
    speed := min 65535 ((x.recent now).length * 921600 / x.m.k)
    overrange := decide (25000 < (x.recent now).length) }

/-- What a pulse adds to the accumulator stays there or becomes distance, in multiples of `k`. -/
theorem Measure.pulse_acc_add (m : Measure) : m.pulse.acc + m.k * ((m.acc + 1000) / m.k) = m.acc + 1000 := by
  have hacc : m.pulse.acc = (m.acc + 1000) % m.k := by
    unfold Measure.pulse
    dsimp only
    split <;> rfl
  rw [hacc, Nat.mod_add_div]

/-- A counted pulse joins the pulses of the last second, which all stay. -/
theorem Flacon.recent_count (x : Flacon) (now : Nat) : (x.count now).recent now = x.recent now ++ [now] := by
  have hnow : now < now + sec 1 := Nat.lt_add_of_pos_right (by decide)
  simp [Flacon.recent, Flacon.count, hnow]

theorem Flacon.length_recent_count (x : Flacon) (now : Nat) :
    ((x.count now).recent now).length = (x.recent now).length + 1 := by
  rw [Flacon.recent_count, List.length_append, List.length_singleton]

theorem exec_flcPulse_early {s0 : State} {t : Nat} (hearly : (s0.at t).pulseEarly = true) :
    exec (.flcPulse t) s0 = .next (s0.at t) :=
  congrArg Host.Outcome.next (by simp only [flcPulse, hearly, Bool.or_true, if_true])

theorem exec_flcPulse_counted {s0 : State} {t : Nat} (hon : (s0.at t).flc.on = true) (hlate : (s0.at t).pulseEarly = false) :
    exec (.flcPulse t) s0 = .next ((s0.at t).setFlc (fun x => x.count (s0.at t).now)) := by
  refine congrArg Host.Outcome.next ?_
  simp only [flcPulse, hon, hlate, Bool.not_true, Bool.or_self, Bool.false_eq_true, if_false, State.setM, State.setFlc, State.flcSave,
    Flacon.count]
  split <;> rfl

theorem exec_speedUpdate_running {s0 : State} {t : Nat} (hrun : (s0.at t).flc.running = true) :
    exec (.speedUpdate t) s0 = .next ((s0.at t).setFlc (fun x => x.measure (s0.at t).now)) := by
  refine congrArg Host.Outcome.next ?_
  simp only [speedUpdate, hrun, Bool.not_true, Bool.false_eq_true, if_false]
  rfl

/-- Settles O53: each command is `Flacon.count` or `Flacon.measure`; `Flacon.count` does not read OVERRANGE, so a pulse beyond the
range is counted like any other. -/
theorem wheelSpeed : Obligations.WheelSpeed := by
  unfold Obligations.WheelSpeed
  intro s0 t s n
  refine ⟨fun hrun => ?_, fun _ hearly => exec_flcPulse_early hearly, fun hon hlate hover => ?_⟩
  · exact ⟨_, exec_speedUpdate_running hrun, rfl, decide_eq_true_iff, rfl⟩
  · exact ⟨_, exec_flcPulse_counted hon hlate, Measure.pulse_acc_add s.flc.m, Flacon.length_recent_count s.flc s.now, hover⟩

end Sys2Proof.Machine

/-! PROOFS. What every command keeps (95): each row ends in a next state with the same waiting commands, no earlier time and
memory in its canonical form, so a step takes the front command and nothing else. -/

namespace Sys2Proof.Machine

set_option Elab.async false

/-- Two outcomes with equal next states are equal. -/
theorem next_eq {s t : State} (h : s = t) : (.next s : Host.Outcome State Fault Refusal) = .next t := congrArg _ h

/-- Every row of the table ends in a next state that keeps the queue, time and memory's form. -/
theorem exec_kept {s0 s : State} (c : Instr) (h : Kept s0 s) : KeptNext s0 (exec c s) :=
  match c with
  | .nop _ => execNop_kept h
  | .loop _ => execLoop_kept h
  | .br _ => execBr_kept h
  | .call _ => execCall_kept h
  | .ret _ => execRet_kept h
  | .wait _ => execWait_kept h
  | .post _ => execPost_kept h
  | .bar _ => execBar_kept h
  | .barrierRelease _ => execBarrierRelease_kept h
  | .sadd _ => execSadd_kept h
  | .ssub _ => execSsub_kept h
  | .smul _ => execSmul_kept h
  | .sand _ => execSand_kept h
  | .sor _ => execSor_kept h
  | .sxor _ => execSxor_kept h
  | .sshl _ => execSshl_kept h
  | .sshr _ => execSshr_kept h
  | .ssra _ => execSsra_kept h
  | .smin _ => execSmin_kept h
  | .smax _ => execSmax_kept h
  | .sminu _ => execSminu_kept h
  | .smaxu _ => execSmaxu_kept h
  | .saddi _ => execSaddi_kept h
  | .sandi _ => execSandi_kept h
  | .sori _ => execSori_kept h
  | .sxori _ => execSxori_kept h
  | .sshli _ => execSshli_kept h
  | .sshri _ => execSshri_kept h
  | .ssrai _ => execSsrai_kept h
  | .sli _ => execSli_kept h
  | .slui _ => execSlui_kept h
  | .aadd _ => execAadd_kept h
  | .aaddi _ => execAaddi_kept h
  | .amov _ => execAmov_kept h
  | .smova _ => execSmova_kept h
  | .sld _ => execSld_kept h
  | .ald _ => execAld_kept h
  | .streamInstructionBegin _ _ => execStreamInstructionBegin_kept h
  | .streamInstructionComplete _ _ => execStreamInstructionComplete_kept h
  | .postStallRelease _ _ => execPostStallRelease_kept h
  | .tokenStall _ _ _ => execTokenStall_kept h
  | .ldt _ _ => execLdt_kept h
  | .ldw _ _ => execLdw_kept h
  | .gath _ _ => execGath_kept h
  | .tzero _ _ => execTzero_kept h
  | .tmma _ _ => execTmma_kept h
  | .trd _ _ => execTrd_kept h
  | .vadd _ _ => execVadd_kept h
  | .vsub _ _ => execVsub_kept h
  | .vmul _ _ => execVmul_kept h
  | .vfma _ _ => execVfma_kept h
  | .vmax _ _ => execVmax_kept h
  | .vmin _ _ => execVmin_kept h
  | .vexp _ _ => execVexp_kept h
  | .vrcp _ _ => execVrcp_kept h
  | .vrsq _ _ => execVrsq_kept h
  | .vcmp _ _ => execVcmp_kept h
  | .vsel _ _ => execVsel_kept h
  | .vand _ _ => execVand_kept h
  | .vor _ _ => execVor_kept h
  | .vxor _ _ => execVxor_kept h
  | .vmov _ _ => execVmov_kept h
  | .vbcast _ _ => execVbcast_kept h
  | .vld _ _ => execVld_kept h
  | .vst _ _ => execVst_kept h
  | .cvt _ _ => execCvt_kept h
  | .cvtv _ _ => execCvtv_kept h
  | .rstat _ _ => execRstat_kept h
  | .rnorm _ _ => execRnorm_kept h
  | .vdw _ _ => execVdw_kept h
  | .stt _ _ => execStt_kept h
  | .scat _ _ => execScat_kept h
  | .wopen _ _ => execWopen_kept h
  | .wclose _ _ => execWclose_kept h
  | .ckpt _ _ => execCkpt_kept h
  | .commit _ _ => execCommit_kept h
  | .enq _ => execEnq_kept h
  | .halt _ => execHalt_kept h
  | .snapInstruction _ => execSnapInstruction_kept h
  | .scrub _ => execScrub_kept h
  | .rdfl _ => execRdfl_kept h
  | .clrfl _ => execClrfl_kept h
  | .unitReset _ _ _ => execUnitReset_kept h
  | .jobReset _ _ _ => execJobReset_kept h
  | .stop _ _ _ => execStop_kept h
  | .resume _ _ _ => execResume_kept h
  | .snap _ _ _ => execSnap_kept h
  | .restore _ _ _ => execRestore_kept h
  | .pload _ _ _ => execPload_kept h
  | .workItemTake _ _ => execWorkItemTake_kept h
  | .arrive _ => execArrive_kept h
  | .barHart _ _ _ => execBarHart_kept h
  | .remoteWriteArrival _ => execRemoteWriteArrival_kept h
  | .commitArrival _ => execCommitArrival_kept h
  | .releaseArrival _ => execReleaseArrival_kept h
  | .generationTokenWait _ _ => execGenerationTokenWait_kept h
  | .winCtlOpen _ _ _ _ => execWinCtlOpen_kept h
  | .winCtlClose _ _ _ _ => execWinCtlClose_kept h
  | .winMaskWrite _ _ _ _ => execWinMaskWrite_kept h
  | .eccWriteBack _ => execEccWriteBack_kept h
  | .wordTest _ _ => execWordTest_kept h
  | .patrol _ _ _ _ => execPatrol_kept h
  | .edcRetry _ _ _ => execEdcRetry_kept h
  | .regionEntryWrite _ _ _ _ => execRegionEntryWrite_kept h
  | .regionEntrySwitch _ _ _ => execRegionEntrySwitch_kept h
  | .fillGo _ _ => execFillGo_kept h
  | .fillDone => execFillDone_kept h
  | .frame _ _ => execFrame_kept h
  | .imageRowProduce _ => execImageRowProduce_kept h
  | .lineTimeout _ _ => execLineTimeout_kept h
  | .fwd _ => execFwd_kept h
  | .bwd _ => execBwd_kept h
  | .ctxBind _ => execCtxBind_kept h
  | .ctxAppend _ => execCtxAppend_kept h
  | .ctxCommit _ => execCtxCommit_kept h
  | .ctxFork _ => execCtxFork_kept h
  | .ctxRelease _ => execCtxRelease_kept h
  | .contextGrant _ => execContextGrant_kept h
  | .attnCfgWrite _ _ _ _ => execAttnCfgWrite_kept h
  | .attnCtxSel _ _ _ => execAttnCtxSel_kept h
  | .calibrationUpdate _ _ => execCalibrationUpdate_kept h
  | .calibrationStoreWrite _ => execCalibrationStoreWrite_kept h
  | .frameStartEvent _ => execFrameStartEvent_kept h
  | .lsyncPulse _ _ => execLsyncPulse_kept h
  | .step _ _ _ => execStep_kept h
  | .heldStepEvent _ => execHeldStepEvent_kept h
  | .trigFsSeqWrite _ _ _ => execTrigFsSeqWrite_kept h
  | .echoCfgWrite _ _ _ => execEchoCfgWrite_kept h
  | .streamStale _ _ => execStreamStale_kept h
  | .lift _ => execLift_kept h
  | .scatter _ => execScatter_kept h
  | .raster _ => execRaster_kept h
  | .update => execUpdate_kept h
  | .forecast => execForecast_kept h
  | .deleteTrack => execDeleteTrack_kept h
  | .trkNextIdWrite _ _ => execTrkNextIdWrite_kept h
  | .trkSel _ _ => execTrkSel_kept h
  | .check _ => execCheck_kept h
  | .finalCheck _ => execFinalCheck_kept h
  | .drydownCompute _ => execDrydownCompute_kept h
  | .recordEmit _ => execRecordEmit_kept h
  | .handoverTimeout _ => execHandoverTimeout_kept h
  | .statusFrame _ _ => execStatusFrame_kept h
  | .push _ _ _ => execPush_kept h
  | .swTailWrite _ _ _ _ => execSwTailWrite_kept h
  | .qcfgHeadWrite _ _ _ => execQcfgHeadWrite_kept h
  | .completionPush _ _ => execCompletionPush_kept h
  | .unreadableEntry _ => execUnreadableEntry_kept h
  | .slotBoundary _ _ => execSlotBoundary_kept h
  | .frameSelfWrap _ _ => execFrameSelfWrap_kept h
  | .frameStartReceive _ _ _ => execFrameStartReceive_kept h
  | .deadlineExpiry _ _ => execDeadlineExpiry_kept h
  | .admitJob _ _ => execAdmitJob_kept h
  | .withdraw _ _ => execWithdraw_kept h
  | .restart _ _ => execRestart_kept h
  | .backupLaunch _ _ _ => execBackupLaunch_kept h
  | .suspectEvaluation _ => execSuspectEvaluation_kept h
  | .depositArrival _ _ => execDepositArrival_kept h
  | .comparisonTimeout _ _ => execComparisonTimeout_kept h
  | .memberErrorNotice _ _ => execMemberErrorNotice_kept h
  | .resync _ => execResync_kept h
  | .split _ _ _ => execSplit_kept h
  | .join _ _ _ => execJoin_kept h
  | .grow _ _ _ => execGrow_kept h
  | .apCkptWrite _ _ _ => execApCkptWrite_kept h
  | .latentOverdue _ => execLatentOverdue_kept h
  | .islandSupervisionCycle _ _ _ => execIslandSupervisionCycle_kept h
  | .islandHardwareFail _ _ => execIslandHardwareFail_kept h
  | .heartbeatLoss _ _ => execHeartbeatLoss_kept h
  | .islandReboot _ _ => execIslandReboot_kept h
  | .handoverDecision _ => execHandoverDecision_kept h
  | .peerRecordReceive _ _ _ => execPeerRecordReceive_kept h
  | .islandFrameRealign _ _ _ => execIslandFrameRealign_kept h
  | .failureDetectorSample _ => execFailureDetectorSample_kept h
  | .fence _ _ => execFence_kept h
  | .unfence _ _ => execUnfence_kept h
  | .unitReinit _ _ => execUnitReinit_kept h
  | .blotterEntry _ _ _ => execBlotterEntry_kept h
  | .blotterExtra _ _ _ => execBlotterExtra_kept h
  | .quarantineEvaluation _ _ _ _ => execQuarantineEvaluation_kept h
  | .quarantineTableWrite _ => execQuarantineTableWrite_kept h
  | .modeRequest _ _ => execModeRequest_kept h
  | .drydown _ _ => execDrydown_kept h
  | .safeEnter _ _ => execSafeEnter_kept h
  | .safeClear _ _ => execSafeClear_kept h
  | .unitResetRequest _ _ => execUnitResetRequest_kept h
  | .warmResetRequest _ _ => execWarmResetRequest_kept h
  | .warmReset _ _ => execWarmReset_kept h
  | .quarSel _ _ => execQuarSel_kept h
  | .freeze _ _ _ => execFreeze_kept h
  | .freezeTimeout _ => execFreezeTimeout_kept h
  | .nonceRequest _ _ _ => execNonceRequest_kept h
  | .sillageClear _ _ _ => execSillageClear_kept h
  | .nonceExpiry _ => execNonceExpiry_kept h
  | .sillagePersist _ => execSillagePersist_kept h
  | .flcPulse _ => execFlcPulse_kept h
  | .lineFault _ _ => execLineFault_kept h
  | .speedUpdate _ => execSpeedUpdate_kept h
  | .plausibilitySample _ => execPlausibilitySample_kept h
  | .flcOdoWrite _ _ => execFlcOdoWrite_kept h
  | .mirrorRefresh _ => execMirrorRefresh_kept h
  | .sign _ _ _ => execSign_kept h
  | .openSession _ _ _ => execOpenSession_kept h
  | .setK _ _ _ => execSetK_kept h
  | .reseal _ _ _ => execReseal_kept h
  | .fwUpdate _ _ _ => execFwUpdate_kept h
  | .closeSession _ _ _ => execCloseSession_kept h
  | .block _ _ _ => execBlock_kept h
  | .sessionTimeout _ => execSessionTimeout_kept h
  | .debugOpenSeal _ => execDebugOpenSeal_kept h
  | .flaconPowerOn _ => execFlaconPowerOn_kept h
  | .vanaFall _ => execVanaFall_kept h
  | .nonce _ _ _ => execNonce_kept h
  | .unlock _ _ _ _ => execUnlock_kept h
  | .provision _ _ _ => execProvision_kept h
  | .attest _ _ _ => execAttest_kept h
  | .firmwareUpdate _ _ _ _ => execFirmwareUpdate_kept h
  | .trngHealthFail _ => execTrngHealthFail_kept h
  | .storeWrite _ _ => execStoreWrite_kept h
  | .packetReceive _ _ _ _ _ => execPacketReceive_kept h
  | .ackReceive _ _ _ _ => execAckReceive_kept h
  | .nakReceive _ _ _ _ => execNakReceive_kept h
  | .creditReceive _ _ _ _ => execCreditReceive_kept h
  | .replayTimeout _ _ _ => execReplayTimeout_kept h
  | .linkRetrain _ _ _ _ => execLinkRetrain_kept h
  | .bondUncorrectable _ _ _ _ => execBondUncorrectable_kept h
  | .linkTestMode _ _ _ _ _ _ => execLinkTestMode_kept h
  | .flaconLinkRetry _ _ _ => execFlaconLinkRetry_kept h
  | .guestPowerSample _ _ => execGuestPowerSample_kept h
  | .guestFence _ _ => execGuestFence_kept h
  | .gstWinWrite _ _ _ => execGstWinWrite_kept h
  | .combineBufferEmit _ _ _ _ _ => execCombineBufferEmit_kept h
  | .lock _ _ _ _ => execLock_kept h
  | .apSplit _ _ _ => execApSplit_kept h
  | .lockstepMismatch _ => execLockstepMismatch_kept h
  | .rigStep _ _ _ => execRigStep_kept h
  | .rigInj _ _ _ => execRigInj_kept h
  | .pcieInboundRequest _ _ _ _ _ => execPcieInboundRequest_kept h
  | .apertureAccess _ _ _ _ => execApertureAccess_kept h
  | .pcieCfgaGo _ _ _ => execPcieCfgaGo_kept h
  | .voltageRamp _ => execVoltageRamp_kept h
  | .powerLimiterSample _ _ _ => execPowerLimiterSample_kept h
  | .vbusLowThroughput _ => execVbusLowThroughput_kept h
  | .pwrEnRise _ => execPwrEnRise_kept h
  | .railGroupGood _ _ => execRailGroupGood_kept h
  | .supplyMonitorSample _ _ => execSupplyMonitorSample_kept h
  | .pwrEnFall _ => execPwrEnFall_kept h
  | .vbusLoss _ => execVbusLoss_kept h
  | .vbusRestore _ => execVbusRestore_kept h
  | .porstNLow _ => execPorstNLow_kept h
  | .porstNRelease _ _ => execPorstNRelease_kept h
  | .resetNLow _ => execResetNLow_kept h
  | .resetNRelease _ _ => execResetNRelease_kept h
  | .clockFault _ => execClockFault_kept h
  | .thermalSample _ _ => execThermalSample_kept h
  | .thermalTrip _ _ => execThermalTrip_kept h
  | .tripRelease _ _ => execTripRelease_kept h
  | .coolantWindow _ => execCoolantWindow_kept h
  | .ageingMeasure _ _ => execAgeingMeasure_kept h
  | .csiFrameStart _ _ _ => execCsiFrameStart_kept h
  | .csiEmbeddedData _ _ _ _ => execCsiEmbeddedData_kept h
  | .csiLine _ _ _ _ _ _ => execCsiLine_kept h
  | .csiFrameEnd _ _ _ => execCsiFrameEnd_kept h
  | .frameEndTimeout _ _ => execFrameEndTimeout_kept h
  | .camCfgWrite _ _ _ => execCamCfgWrite_kept h
  | .ringDoorbell _ _ _ => execRingDoorbell_kept h
  | .ethTransmit _ _ => execEthTransmit_kept h
  | .ethReceive _ _ _ _ => execEthReceive_kept h
  | .gptpSync _ _ _ => execGptpSync_kept h
  | .qbvCtlWrite _ _ _ => execQbvCtlWrite_kept h
  | .qbvListInForce _ _ => execQbvListInForce_kept h
  | .odometryFrame _ _ _ => execOdometryFrame_kept h
  | .odometryStale _ _ => execOdometryStale_kept h
  | .canTransmit _ _ => execCanTransmit_kept h
  | .canReceive _ _ _ _ _ _ => execCanReceive_kept h
  | .canBusOff _ _ => execCanBusOff_kept h
  | .registerWrite _ _ _ => execRegisterWrite_kept h
  | .syncLoss _ _ => execSyncLoss_kept h
  | .ethLinkChange _ _ _ _ => execEthLinkChange_kept h
  | .pcieLinkChange _ _ _ _ => execPcieLinkChange_kept h
  | .canErrorPassive _ _ => execCanErrorPassive_kept h
  | .machineTimerCompare _ _ => execMachineTimerCompare_kept h
  | .jobLost _ _ => execJobLost_kept h
  | .powerCycle _ => execPowerCycle_kept h
  | .lostMirrorCopy _ => execLostMirrorCopy_kept h
  | .secNonceExpiry _ => execSecNonceExpiry_kept h
  | .trngHealthPass _ => execTrngHealthPass_kept h
  | .tck _ _ => execTck_kept h
  | .gateControlEntry _ _ => execGateControlEntry_kept h
  | .unitInternalFault _ => execUnitInternalFault_kept h

/-- What a step can do: idle on an empty queue, or run the front command on the state with the rest waiting. -/
theorem step_cases {s t : State} (h : step s = .next t) :
    (s.pending = [] ∧ t = s) ∨ ∃ c rest, s.pending = c :: rest ∧ Kept { s with pending := rest } t := by
  unfold step at h
  split at h
  case h_1 hempty =>
    cases h
    exact .inl ⟨hempty, rfl⟩
  case h_2 c rest hfront =>
    obtain ⟨u, hu, hkept⟩ := exec_kept c (Kept.refl (s := { s with pending := rest }))
    rw [h] at hu
    cases hu
    exact .inr ⟨c, rest, hfront, hkept⟩

/-- Settles O1: the queue of `s` decides which branch of `step` is taken. -/
theorem stepRunsTheFrontCommand : Obligations.StepRunsTheFrontCommand := by
  unfold Obligations.StepRunsTheFrontCommand
  intro c rest s hfront
  simp only [step, hfront]

/-- Settles O2: an empty queue takes the idle branch of `step`. -/
theorem idleStepKeepsTheState : Obligations.IdleStepKeepsTheState := by
  unfold Obligations.IdleStepKeepsTheState
  intro s hempty
  simp only [step, hempty]

/-- Settles O3, row by row: `exec_kept` from the state to itself. -/
theorem everyCommandCompletes : Obligations.EveryCommandCompletes := by
  unfold Obligations.EveryCommandCompletes
  intro c s
  obtain ⟨t, ht, hkept⟩ := exec_kept c (Kept.refl (s := s))
  exact ⟨t, ht, hkept.q, hkept.n, hkept.m⟩

/-- Settles O4: the command that a step runs leaves the rest of the queue. -/
theorem queueIsFirstInFirstOut : Obligations.QueueIsFirstInFirstOut := by
  unfold Obligations.QueueIsFirstInFirstOut
  intro s t hstep
  obtain ⟨hempty, rfl⟩ | ⟨c, rest, hfront, hkept⟩ := step_cases hstep
  · rw [hempty]
    rfl
  · rw [hkept.q, hfront]
    rfl

/-- Settles O5: time stands while the device idles, and no command moves it back. -/
theorem timeNeverRunsBack : Obligations.TimeNeverRunsBack := by
  unfold Obligations.TimeNeverRunsBack
  intro s t hstep
  obtain ⟨-, rfl⟩ | ⟨c, rest, -, hkept⟩ := step_cases hstep
  · exact Nat.le_refl _
  · exact hkept.n

/-- Settles O6: memory stands while the device idles, and every command keeps its form. -/
theorem memoryStaysCanonical : Obligations.MemoryStaysCanonical := by
  unfold Obligations.MemoryStaysCanonical
  intro s t hwf hstep
  obtain ⟨-, rfl⟩ | ⟨c, rest, -, hkept⟩ := step_cases hstep
  · exact hwf
  · exact hkept.m hwf

/-- Settles O7: the reset memory lists no byte, and an unlisted byte reads zero (05 R124). -/
theorem resetMemoryIsCanonical : Obligations.ResetMemoryIsCanonical := by
  unfold Obligations.ResetMemoryIsCanonical
  have hmem : State.reset.mem = [] := rfl
  refine ⟨by rw [hmem]; rfl, rfl, rfl, fun a => ?_⟩
  simp only [State.byte, hmem]
  rfl

end Sys2Proof.Machine

/-! PROOFS. The front end of a cell (04 R89 to R94, R119, R120): control flow goes where `feNext` and `feJump` say, and a SCALAR
instruction on S registers is one write of `SD` between the fetch and the next offset. -/

namespace Sys2Proof.Machine

set_option Elab.async false

/-- Settles O8: each operation answers `next` or `jump`, and `State.front` goes on from there. -/
theorem controlFlowRuns : Obligations.ControlFlowRuns := by
  unfold Obligations.ControlFlowRuns
  intro s c w tk x off body count
  refine ⟨fun h => ?_, fun h hpc hcount => ?_, fun h hpc hcount hroom => ?_, fun h hcond => ?_, fun h hcond hpc => ?_,
    fun h hroom hpc => ?_, fun pc r h hcalls => ?_, fun h htok => ?_, fun h htok => ?_⟩
  · exact next_eq (State.front_next h rfl)
  · refine next_eq (State.front_jump h ?_)
    rw [feLoop, hpc]
    exact if_pos hcount
  · refine next_eq (State.front_jump h ?_)
    rw [feLoop, hpc]
    exact (if_neg hcount).trans (if_neg (Nat.not_le.2 hroom))
  · refine next_eq (State.front_next h ?_)
    simp only [feBr]
    rw [hcond]
    rfl
  · refine next_eq (State.front_jump h ?_)
    simp only [feBr]
    rw [hcond, hpc]
    rfl
  · refine next_eq (State.front_jump h ?_)
    rw [feCall, hpc]
    exact if_neg (by simpa using hroom)
  · refine next_eq (State.front_jump h ?_)
    simp only [feRet]
    rw [hcalls]
  · exact next_eq (State.front_next h (if_neg htok))
  · refine next_eq (State.front_next h ?_)
    rw [fePostK, State.fePost]
    exact congrArg FeRes.next (if_pos htok)

theorem SameFile.rS {x y : Cell} (h : SameFile x y) (r : Nat) : y.rS r = x.rS r := by
  simp only [Cell.rS, h.s]

theorem SameFile.rA {x y : Cell} (h : SameFile x y) (r : Nat) : y.rA r = x.rA r := by
  simp only [Cell.rA, h.a]

/-- Of cell `c`, register `Sd` reads `v` in `t`, or zero where it is S0; the rest of the register files, memory and the arithmetic
flags are as in `s` (04 R93). -/
def WroteS (s : State) (c d : Nat) (v : Word) (t : State) : Prop :=
  (t.cell c).rS d = (if d = 0 then 0 else v) ∧ (∀ q, q ≠ d → (t.cell c).rS q = (s.cell c).rS q) ∧
  (t.cell c).a = (s.cell c).a ∧ (t.cell c).v = (s.cell c).v ∧ (t.cell c).t = (s.cell c).t ∧
  (∀ e, e ≠ c → SameFile (s.cell e) (t.cell e)) ∧ t.mem = s.mem ∧
  (∀ f ∈ [stINV, stOVF, stUNF, stSAT, stNSC], t.getF (UNIT_STATUS c) f = s.getF (UNIT_STATUS c) f)

theorem Cell.wS_files (x : Cell) (r : Nat) (v : Word) : (x.wS r v).a = x.a ∧ (x.wS r v).v = x.v ∧ (x.wS r v).t = x.t := by
  unfold Cell.wS
  split <;> exact ⟨rfl, rfl, rfl⟩

/-- Between fetch and the next offset only the write of `Sd` touches a register file. -/
theorem wroteS_feNext (s : State) (c w d : Nat) (v : Word) :
    WroteS s c d v (s.feNext c w ((s.feTaken c w).setCell c (((s.feTaken c w).cell c).wS d v))) := by
  have htaken := State.feTaken_sameFile s c w
  have hnext := State.feNext_sameFile s c w ((s.feTaken c w).setCell c (((s.feTaken c w).cell c).wS d v))
  have hcell := hnext c
  rw [State.cell_setCell_same] at hcell
  obtain ⟨ha, hv, ht⟩ := Cell.wS_files ((s.feTaken c w).cell c) d v
  refine ⟨?_, fun q hq => ?_, ?_, ?_, ?_, fun e he => ?_, ?_, fun f hf => ?_⟩
  · rw [hcell.rS, Cell.rS_wS_same]
  · rw [hcell.rS, Cell.rS_wS_ne _ _ hq.symm, (htaken c).rS]
  · rw [hcell.a, ha, (htaken c).a]
  · rw [hcell.v, hv, (htaken c).v]
  · rw [hcell.t, ht, (htaken c).t]
  · have he' := hnext e
    rw [State.cell_setCell_ne _ _ he.symm] at he'
    exact (htaken e).trans he'
  · rw [State.feNext_mem]
    exact State.feTaken_mem s c w
  · rw [State.feNext_flag _ _ _ _ f hf, State.getF_setCell, State.feTaken_flag _ _ _ f hf]

/-- A front-end operation whose one effect is to write `Sd` with what it computes. -/
theorem front_wroteS {s : State} {c code w d : Nat} {v : Word} {f : State → Nat → Nat → FeRes} (h : s.feRuns c code w)
    (hf : f (s.feTaken c w) w (s.cell c).fePc = .next ((s.feTaken c w).setCell c (((s.feTaken c w).cell c).wS d v))) :
    WroteS s c d v (s.front c code f) := by
  rw [State.front_next h hf]
  exact wroteS_feNext s c w d v

/-- The register form writes `SD` with the operation on SA and SB as they stand at the fetch. -/
theorem scalarR_wroteS {s : State} {c o w : Nat} {f : Word → Word → Word} (h : s.feRuns c (op 1 o) w) :
    WroteS s c (bits w 43 39) (f ((s.cell c).rS (bits w 38 34)) ((s.cell c).rS (bits w 33 29))) (scalarR c o f s) := by
  have htaken := State.feTaken_sameFile s c w c
  rw [← htaken.rS, ← htaken.rS]
  exact front_wroteS h rfl

/-- The immediate form writes `SD` with the operation on SA and the sign-extended IMM. -/
theorem scalarI_wroteS {s : State} {c o w : Nat} {f : Word → Word → Word} (h : s.feRuns c (op 1 o) w) :
    WroteS s c (bits w 43 39) (f ((s.cell c).rS (bits w 38 34)) (immS w)) (scalarI c o f s) := by
  rw [← (State.feTaken_sameFile s c w c).rS]
  exact front_wroteS h rfl

/-- The model keeps the second operand where it is below the first; R93 the first where it is at most the second. -/
theorem smin_value (a b : Word) : (if b.slt a then b else a) = if a.toInt ≤ b.toInt then a else b := by
  simp only [BitVec.slt, decide_eq_true_eq, ← Int.not_le, ite_not]

theorem sminu_value (a b : Word) : (if b.ult a then b else a) = if a.toNat ≤ b.toNat then a else b := by
  simp only [BitVec.ult, decide_eq_true_eq, ← Nat.not_le, ite_not]

/-- The two readings of a maximum differ on equal operands alone. -/
theorem smax_value (a b : Word) : (if a.slt b then b else a) = if a.toInt ≤ b.toInt then b else a := by
  obtain hlt | heq | hgt := lt_trichotomy a.toInt b.toInt
  · simp [BitVec.slt, hlt, hlt.le]
  · rw [BitVec.eq_of_toInt_eq heq]
    simp
  · simp [BitVec.slt, hgt.le, not_le.2 hgt]

theorem smaxu_value (a b : Word) : (if a.ult b then b else a) = if a.toNat ≤ b.toNat then b else a := by
  obtain hlt | heq | hgt := lt_trichotomy a.toNat b.toNat
  · simp [BitVec.ult, hlt, hlt.le]
  · rw [BitVec.eq_of_toNat_eq heq]
    simp
  · simp [BitVec.ult, hgt.le, not_le.2 hgt]

theorem immS_mod (w : Nat) : (immS w).toNat % 2 ^ 32 = bits w 31 0 := by
  have hlow : (immS w).setWidth 32 = BitVec.ofNat 32 (bits w 31 0) := by
    ext i hi
    have hi' : i < 64 := by omega
    simp [immS, BitVec.getElem_signExtend, hi, hi']
  rw [← BitVec.toNat_setWidth, hlow, BitVec.toNat_ofNat]
  exact Nat.mod_eq_of_lt (Nat.mod_lt _ (by decide))

/-- SLUI puts IMM above the low half of SA (04 R93). -/
theorem slui_value (a : Word) (w : Nat) : BitVec.ofNat 64 (a.toNat % 2 ^ 32 + (immS w).toNat % 2 ^ 32 * 2 ^ 32) =
    (a.extractLsb' 0 32).zeroExtend 64 + (BitVec.ofNat 64 (bits w 31 0) <<< 32) := by
  rw [immS_mod]
  have himm : bits w 31 0 < 2 ^ 32 := Nat.mod_lt _ (by decide)
  apply BitVec.eq_of_toNat_eq
  simp [BitVec.toNat_shiftLeft, BitVec.extractLsb', Nat.shiftLeft_eq]

/-- Settles O9: the register and immediate forms write `Sd` by `scalarR_wroteS` and `scalarI_wroteS`; the comparisons of SMIN to
SMAXU and the halves of SLUI are restated in the words of R93. -/
theorem scalarResults : Obligations.ScalarResults := by
  unfold Obligations.ScalarResults
  intro s c w x d a b imm wrote
  have htaken := State.feTaken_sameFile s c w c
  refine ⟨fun h => ⟨_, rfl, scalarR_wroteS h⟩, fun h => ⟨_, rfl, scalarR_wroteS h⟩, fun h => ⟨_, rfl, scalarR_wroteS h⟩,
    fun h => ⟨_, rfl, scalarR_wroteS h⟩, fun h => ⟨_, rfl, scalarR_wroteS h⟩, fun h => ⟨_, rfl, scalarR_wroteS h⟩,
    fun h => ⟨_, rfl, scalarR_wroteS h⟩, fun h => ⟨_, rfl, scalarR_wroteS h⟩, fun h => ⟨_, rfl, scalarR_wroteS h⟩,
    fun h => ⟨_, rfl, ?_⟩, fun h => ⟨_, rfl, ?_⟩, fun h => ⟨_, rfl, ?_⟩, fun h => ⟨_, rfl, ?_⟩,
    fun h => ⟨_, rfl, scalarI_wroteS h⟩, fun h => ⟨_, rfl, scalarI_wroteS h⟩, fun h => ⟨_, rfl, scalarI_wroteS h⟩,
    fun h => ⟨_, rfl, scalarI_wroteS h⟩, fun h => ⟨_, rfl, scalarI_wroteS h⟩, fun h => ⟨_, rfl, scalarI_wroteS h⟩,
    fun h => ⟨_, rfl, scalarI_wroteS h⟩, fun h => ⟨_, rfl, scalarI_wroteS h⟩, fun h => ⟨_, rfl, ?_⟩,
    fun h => ⟨_, rfl, ?_⟩, fun h => ⟨_, rfl, ?_⟩⟩
  case refine_1 =>
    rw [← smin_value]
    exact scalarR_wroteS h
  case refine_2 =>
    rw [← smax_value]
    exact scalarR_wroteS h
  case refine_3 =>
    rw [← sminu_value]
    exact scalarR_wroteS h
  case refine_4 =>
    rw [← smaxu_value]
    exact scalarR_wroteS h
  case refine_5 =>
    rw [← slui_value]
    exact scalarI_wroteS h
  case refine_6 =>
    have hvalue : BitVec.ofNat 64 (x.rA (bits w 38 34)).toNat = (x.rA (bits w 38 34)).zeroExtend 64 :=
      BitVec.ofNat_toNat 64 _
    rw [← hvalue, ← htaken.rA]
    exact front_wroteS h rfl
  case refine_7 =>
    rw [← State.feTaken_flagBits s c w, ← htaken.tsat]
    exact front_wroteS h rfl

end Sys2Proof.Machine

/-! PROOFS. The A registers of a cell (03 R49; 04 R94) and the front-end instructions of ENG, SYNC and SYS (03 R56, R61, R69, R75;
04 R119, R120). -/

namespace Sys2Proof.Machine

set_option Elab.async false

/-- A value below `2 ^ 44` is physical: AADD and AADDI add modulo `2 ^ 44`. -/
theorem aAdd_physical {a : Nat} (h : a < 2 ^ 44) (v : Word) : aAdd a v = .ok ((a + v.toNat) % 2 ^ 44) := by
  have hkind : bits a 47 47 = 0 := by simp only [bits]; omega
  have hzero : bits a 46 44 = 0 := by simp only [bits]; omega
  simp [aAdd, aValueOk, hkind, hzero]

/-- A value with bit 47 set and zeros above the offset is local: the sum stays within `2 ^ 24`, bit 47 with it. -/
theorem aAdd_local {a : Nat} (hlo : 2 ^ 47 ≤ a) (hhi : a < 2 ^ 47 + 2 ^ 24) (v : Word) :
    aAdd a v = .ok (2 ^ 47 + (a - 2 ^ 47 + v.toNat) % 2 ^ 24) := by
  have hkind : bits a 47 47 = 1 := by simp only [bits]; omega
  have hzero : bits a 46 24 = 0 := by simp only [bits]; omega
  have hoff : a % 2 ^ 24 = a - 2 ^ 47 := by omega
  simp only [aAdd, aValueOk, hkind, hzero, hoff]
  rfl

/-- AADD and AADDI write the sum that `aAdd` answers into `AD`. -/
theorem feAadd_ok {c : Nat} {imm : Bool} {s : State} {w off r : Nat}
    (h : aAdd ((s.cell c).rA (bits w 38 34)).toNat (if imm then immS w else (s.cell c).rS (bits w 33 29)) = .ok r) :
    feAadd c imm s w off = .next (s.setCell c ((s.cell c).wA (bits w 43 39) (BitVec.ofNat 48 r))) := by
  simp only [feAadd, h]

theorem physAddr_ok {v : Nat} (h : v < 2 ^ 44) : physAddr v = .ok v := by
  have hkind : bits v 47 44 = 0 := by simp only [bits]; omega
  have haddr : bits v 43 0 = v := by simp only [bits]; omega
  rw [physAddr, if_pos hkind, haddr]

/-- SLD and ALD read the 8 bytes at AA plus IMM where it is aligned and the cell may read it. -/
theorem feLoadWord_ok {c w : Nat} {s : State} {l : List Nat} (hva : ((s.cell c).rA (bits w 38 34)).toNat < 2 ^ 44)
    (halign : (((s.cell c).rA (bits w 38 34)).toNat + (immS w).toNat) % 2 ^ 44 % 8 = 0)
    (hread : s.cellRead c .read ((((s.cell c).rA (bits w 38 34)).toNat + (immS w).toNat) % 2 ^ 44) 8 = .ok l) :
    feLoadWord c s w =
      .ok (leOf l, s.noteRead c (s.partOf c) ((((s.cell c).rA (bits w 38 34)).toNat + (immS w).toNat) % 2 ^ 44) 8) := by
  simp only [feLoadWord, physAddr_ok hva, halign, hread]
  rfl

/-- Settles O10: the two kinds of A value by `aAdd_physical` and `aAdd_local`, the loads by `feLoadWord_ok`. -/
theorem addressRegisterResults : Obligations.AddressRegisterResults := by
  unfold Obligations.AddressRegisterResults
  intro s c w tk x d va b imm toA
  refine ⟨fun h hphys => ?_, fun h hlo hhi => ?_, fun h hphys => ?_, fun h hlo hhi => ?_, fun h => ?_,
    fun l hphys halign hread => ⟨fun h => ?_, fun h => ?_⟩⟩
  · exact next_eq (State.front_next h (feAadd_ok (aAdd_physical hphys _)))
  · exact next_eq (State.front_next h (feAadd_ok (aAdd_local hlo hhi _)))
  · exact next_eq (State.front_next h (feAadd_ok (aAdd_physical hphys _)))
  · exact next_eq (State.front_next h (feAadd_ok (aAdd_local hlo hhi _)))
  · exact next_eq (State.front_next h rfl)
  · refine next_eq (State.front_next h ?_)
    simp only [feSld, show feLoadWord c (s.feTaken c w) w = _ from feLoadWord_ok hphys halign hread]
    rfl
  · refine next_eq (State.front_next h ?_)
    simp only [feAld, show feLoadWord c (s.feTaken c w) w = _ from feLoadWord_ok hphys halign hread]
    rfl

/-- A push that reaches its queue there is taken by the queue of its target, forwarded or not (10 R271). -/
theorem State.push_reaches {s : State} {q : Nat} {bs : List Nat} {by_ : Pusher} (h : s.qReaches q = true) :
    s.push q bs by_ = s.pushHere (s.qTarget q) bs by_ := by
  unfold State.push
  split
  case isTrue hfwd =>
    have htarget : s.qTarget q = s.getF (qCtl q) qREDIRECT := if_pos hfwd
    simp only [State.qReaches, htarget, hfwd, Bool.not_true, Bool.false_or, Bool.and_eq_true, Bool.not_eq_true'] at h ⊢
    rw [h.1]
    rfl
  case isFalse hfwd => rw [show s.qTarget q = q from if_neg hfwd]

/-- A queue in use, of the push mode and not full appends what a cell of its partition enqueues. -/
theorem State.pushHere_enq {s : State} {q p : Nat} {bs : List Nat} (h : s.qTakes q = true) (hp : s.qPart q = p)
    (hf : isFeed q = false) : s.pushHere q bs (.enq p) = (s.qAppend q bs false, .accepted) := by
  simp only [State.qTakes, Bool.and_eq_true, Bool.not_eq_true'] at h
  obtain ⟨⟨hen, hmode⟩, hfull⟩ := h
  simp [State.pushHere, hen, hmode, hfull, hp, hf]

/-- An arrival by the owning partition of a member of an unbroken barrier is admitted (03 R63). -/
theorem State.arrive_admitted {s : State} {b slot p : Nat} (hm : bit (s.barrier b).members slot = true)
    (ho : (s.barrier b).owner = p) (hb : (s.barrier b).broken = false) : (s.arrive b slot p).2 = .arrived := by
  simp only [State.arrive, hm, ho, hb]
  simp only [Bool.not_true, ne_eq, not_true_eq_false, decide_false, Bool.or_self, Bool.false_eq_true, if_false]
  split <;> rfl

theorem feBar_arrives {c w off : Nat} {s : State} (hd : s.drained c = true) (hm : bit (s.barrier (bits w 43 38)).members c = true)
    (ho : (s.barrier (bits w 43 38)).owner = s.partOf c) (hb : (s.barrier (bits w 43 38)).broken = false) :
    feBar c s w off =
      .next ((s.setCell c { s.cell c with bar := .waiting (bits w 43 38), barOff := off }).arrive (bits w 43 38) c (s.partOf c)).1 := by
  have harr := State.arrive_admitted (s := s.setCell c { s.cell c with bar := .waiting (bits w 43 38), barOff := off })
    (b := bits w 43 38) (slot := c) hm ho hb
  simp only [feBar, hd, Bool.not_true, Bool.false_eq_true, if_false]
  generalize (s.setCell c _).arrive _ _ _ = r at harr ⊢
  obtain ⟨t, a⟩ := r
  cases harr
  rfl

theorem feEnq_appends {c w off : Nat} {s : State} {l : List Nat} (ha : ((s.cell c).rA (bits w 29 26)).toNat < 2 ^ 44)
    (halign : ((s.cell c).rA (bits w 29 26)).toNat % 64 = 0)
    (hread : s.cellRead c .read ((s.cell c).rA (bits w 29 26)).toNat 64 = .ok l) {q : Nat}
    (hq : q = (bits w 43 30 + ((s.cell c).rS (bits w 25 21)).toNat % 2 ^ 14) % 16384) {r : State}
    (hr : r = s.noteRead c (s.partOf c) ((s.cell c).rA (bits w 29 26)).toNat 64) (hreach : r.qReaches q = true)
    (hpart : r.qPart (r.qTarget q) = s.partOf c) (hfeed : isFeed (r.qTarget q) = false) :
    feEnq c s w off = .next (r.qAppend (r.qTarget q) l false) := by
  have htakes : r.qTakes (r.qTarget q) = true := (Bool.and_eq_true_iff.1 hreach).2
  simp only [feEnq, physAddr_ok ha, halign, hread, ← hq, ← hr, State.push_reaches hreach, State.pushHere_enq htakes hpart hfeed]
  rfl

theorem feHalt_idle {c w off : Nat} {s : State} (hd : s.drained c = true) (hb : Tab.find (s.unit c).binds (s.itemJob c) = none) :
    feHalt c s w off = .next (s.setUnitState c stIdle) := by
  simp only [feHalt, hd, hb]
  rfl

theorem feHalt_completes {c w off : Nat} {s : State} {it : WorkItem} (hd : s.drained c = true)
    (hb : Tab.find (s.unit c).binds (s.itemJob c) = some it) :
    feHalt c s w off = .next (((s.setUnitState c stIdle).setUnit c
      { s.unit c with binds := Tab.erase (s.unit c).binds (s.itemJob c) }).postCpl c { item := it, status := 0 }) := by
  simp only [feHalt, hd, hb]
  rfl

theorem feSnap_steps {c w off : Nat} {s : State} (hd : s.drained c = true) (ha : ((s.cell c).rA (bits w 43 40)).toNat < 2 ^ 44)
    (halign : ((s.cell c).rA (bits w 43 40)).toNat % 64 = 0)
    (hplace : s.imagePlace c ((s.cell c).rA (bits w 43 40)).toNat = .ok ()) :
    feSnap c s w off = s.feRun c 5 (fun u k => u.putImage c ((s.cell c).rA (bits w 43 40)).toNat k
      (((s.setCell c { s.cell c with feSteps := 0 }).feAdvance c off).imageBytes c 1)) := by
  simp only [feSnap, hd, physAddr_ok ha, halign, hplace]
  rfl

theorem feScrub_steps {c w off base len : Nat} {s : State} (hd : s.drained c = true)
    (hv : ((s.cell c).rS (bits w 43 39)).toNat = base + len * 2 ^ 32) (hbase : base % 64 = 0) (hlen : len % 64 = 0)
    (hin : base + len ≤ spadSize) :
    feScrub c s w off = s.feRun c (max 1 ((len + 0x1FFFF) / 0x20000)) (fun u k =>
      (u.store (spadBase c + base + 0x20000 * k) (List.replicate (min 0x20000 (len - 0x20000 * k)) 0), 0)) := by
  simp only [spadSize] at hin
  have hb : bits (base + len * 2 ^ 32) 23 0 = base := by simp only [bits]; omega
  have hl : bits (base + len * 2 ^ 32) 55 32 = len := by simp only [bits]; omega
  have hz1 : bits (base + len * 2 ^ 32) 31 24 = 0 := by simp only [bits]; omega
  have hz2 : bits (base + len * 2 ^ 32) 63 56 = 0 := by simp only [bits]; omega
  simp only [feScrub, hd, hv, hb, hl, hz1, hz2, hbase, hlen]
  refine (if_neg (by decide)).trans (if_neg ?_)
  simp only [spadSize]
  omega

theorem State.getF_setF_if_same (s : State) (p : Prop) [Decidable p] (a : Nat) (f : FD) (v : Nat) :
    (if p then s.setF a f v else s).getF a f = if p then v % 2 ^ f.w else s.getF a f := by
  split
  · exact State.getF_setF_same s a f v
  · rfl

theorem State.getF_setF_if_ne (s : State) (p : Prop) [Decidable p] (a : Nat) {f g : FD} (v : Nat) (h : f.lo ≠ g.lo) :
    (if p then s.setF a f v else s).getF a g = s.getF a g := by
  split
  · exact State.getF_setF_ne s v (by simp only [FD.key]; omega)
  · rfl

/-- The state after CLRFL with the mask in bits [4:0] of `w` (04 R120). -/
def State.clearFlags (s : State) (c w : Nat) : State :=
  let s := if bit w 0 then s.setF (UNIT_STATUS c) stINV 0 else s
  let s := if bit w 1 then s.setF (UNIT_STATUS c) stOVF 0 else s
  let s := if bit w 2 then s.setF (UNIT_STATUS c) stUNF 0 else s
  let s := if bit w 3 then s.setF (UNIT_STATUS c) stSAT 0 else s
  if bit w 4 then s.setF (UNIT_STATUS c) stNSC 0 else s

/-- Each bit of the mask clears its own flag and no other. -/
theorem State.clearFlags_getF (s : State) (c w : Nat) {i : Nat} {f : FD}
    (hf : [stINV, stOVF, stUNF, stSAT, stNSC][i]? = some f) :
    (s.clearFlags c w).getF (UNIT_STATUS c) f = if bit w i then 0 else s.getF (UNIT_STATUS c) f := by
  match i, hf with
  | 0, rfl | 1, rfl | 2, rfl | 3, rfl | 4, rfl =>
    unfold State.clearFlags
    dsimp only
    repeat rw [State.getF_setF_if_ne _ _ _ _ (by decide)]
    rw [State.getF_setF_if_same]
    repeat rw [State.getF_setF_if_ne _ _ _ _ (by decide)]
    rfl

/-- Settles O11: each operation answers the `next`, or the step, that its lemma above gives. -/
theorem systemInstructionResults : Obligations.SystemInstructionResults := by
  unfold Obligations.SystemInstructionResults
  intro s c w tk x off bar waits ea q
  refine ⟨?_, ?_, ?_, ?_, ?_, ?_, ?_⟩
  · intro h hd hm ho hb
    exact next_eq (State.front_next h (feBar_arrives hd hm ho hb))
  · intro l r h hea halign hread hreach hpart hfeed
    exact next_eq (State.front_next h (feEnq_appends hea halign hread rfl rfl hreach hpart hfeed))
  · intro h hd hb
    exact next_eq (State.front_next h (feHalt_idle hd hb))
  · intro it h hd hb
    exact next_eq (State.front_next h (feHalt_completes hd hb))
  · intro k u dst im p h hd hdst halign hplace hok
    have hsteps := feSnap_steps (off := off) hd hdst halign hplace
    constructor
    · intro hk
      have hpart := State.front_part h hsteps hok (by omega)
      exact next_eq hpart
    · intro hk
      have hlast := State.front_last h hsteps hok (by omega)
      exact next_eq hlast
  · intro k base len u n t h hd hv hbase hlen hin
    have hsteps := feScrub_steps (off := off) hd hv hbase hlen hin
    constructor
    · intro hk
      have hpart := State.front_part h hsteps rfl hk
      exact next_eq hpart
    · intro hk
      have hlast := State.front_last h hsteps rfl hk
      exact next_eq hlast
  · intro h
    refine ⟨_, next_eq (State.front_next h (t := tk.clearFlags c w) rfl), fun i _ f hf => ?_⟩
    have hmem : f ∈ [stINV, stOVF, stUNF, stSAT, stNSC] := List.mem_of_getElem? hf
    rw [State.feNext_flag _ _ _ _ f hmem, State.clearFlags_getF _ _ _ hf, State.feTaken_flag _ _ _ f hmem]

end Sys2Proof.Machine

/-! PROOFS. Delivery of stream instructions and their steps (03 R53 to R56, R74), once for every operation. -/

namespace Sys2Proof.Machine

set_option Elab.async false

/-- The class of a word stands in the upper bits of its operation. -/
theorem streamOf_eq (w : Nat) : streamOf w = streamClass (opCode w / 64) := by
  have hclass : bits w 63 60 = opCode w / 64 := by simp only [bits, opCode]; omega
  rw [streamOf, hclass]

theorem strmDepth_of_ne_front {st : Strm} (h : st ≠ .front) : strmDepth st = if st = .load then 64 else 32 := by
  cases st <;> first | rfl | exact absurd rfl h

/-- The state after the word `w` at FE_PC joined the queue of its stream, with its operands as they stand. -/
def State.delivered (s : State) (c w : Nat) : State :=
  ((s.fetchCount c).setCell c ((s.cell c).setStream (streamOf w)
    { (s.cell c).stream (streamOf w) with
      q := ((s.cell c).stream (streamOf w)).q ++ [{ word := BitVec.ofNat 64 w, off := (s.cell c).fePc, ops := bindOps (s.cell c) w }] })).feAdvance c
    (s.cell c).fePc

/-- A ready front end delivers a stream instruction whose queue is not full. -/
theorem State.deliver_eq {s : State} {c w code : Nat}
    (h : s.feReady c = true ∧ s.fetch c = .ok w ∧ opCode w = code ∧
      ((s.cell c).stream (streamOf w)).q.length < (if streamOf w = .load then 64 else 32))
    (hcode : streamClass (code / 64) ≠ .front) : s.deliver c code = s.delivered c w := by
  obtain ⟨hready, hfetch, rfl, hroom⟩ := h
  rw [← streamOf_eq] at hcode
  rw [← strmDepth_of_ne_front hcode] at hroom
  simp [State.deliver, State.delivered, hready, hfetch, Nat.not_le.2 hroom]

/-- Settles O12: every stream instruction is delivered by `State.deliver_eq`; its class is no front-end one. -/
theorem streamDelivery : Obligations.StreamDelivery := by
  unfold Obligations.StreamDelivery
  intro s c w st q delivers queued
  have hdelivers : ∀ code, streamClass (code / 64) ≠ .front → delivers code → (.next (s.deliver c code) : Host.Outcome State Fault Refusal) = .next queued :=
    fun code hcode h => next_eq (State.deliver_eq h hcode)
  exact ⟨hdelivers _ (by decide), hdelivers _ (by decide), hdelivers _ (by decide), hdelivers _ (by decide), hdelivers _ (by decide),
    hdelivers _ (by decide), hdelivers _ (by decide), hdelivers _ (by decide), hdelivers _ (by decide), hdelivers _ (by decide),
    hdelivers _ (by decide), hdelivers _ (by decide), hdelivers _ (by decide), hdelivers _ (by decide), hdelivers _ (by decide),
    hdelivers _ (by decide), hdelivers _ (by decide), hdelivers _ (by decide), hdelivers _ (by decide), hdelivers _ (by decide),
    hdelivers _ (by decide), hdelivers _ (by decide), hdelivers _ (by decide), hdelivers _ (by decide), hdelivers _ (by decide),
    hdelivers _ (by decide), hdelivers _ (by decide), hdelivers _ (by decide), hdelivers _ (by decide), hdelivers _ (by decide),
    hdelivers _ (by decide), hdelivers _ (by decide), hdelivers _ (by decide), hdelivers _ (by decide), hdelivers _ (by decide)⟩

/-- A stream instruction that runs takes its remaining steps and is done (03 R55, R56). -/
theorem stream_run {s : State} {c code i : Nat} {st : Strm} {e : QEntry} {f : State → QEntry → Except Nat Plan}
    (h : s.stRuns c code st i e ∧ s.planRuns f e = true) :
    ∃ p, f (s.withDescs e) e = .ok p ∧
      stream c .run code f s = .next (State.stDone c st i e p.total (runSteps p.step (p.total - e.steps) s e.steps).1) := by
  obtain ⟨hruns, hplan⟩ := h
  obtain ⟨p, hchecks, hsteps⟩ := State.planRuns_spec hplan
  refine ⟨p, hchecks, next_eq (State.runStream_done hruns hchecks
    (j := (runSteps p.step (p.total - e.steps) s e.steps).2.1) ?_)⟩
  exact Prod.ext rfl (Prod.ext rfl hsteps)

/-- Settles O13: `stream_run` for each operation. -/
theorem streamInstructionsRun : Obligations.StreamInstructionsRun := by
  unfold Obligations.StreamInstructionsRun
  intro s c i st e runs checks fin
  exact ⟨stream_run, stream_run, stream_run, stream_run, stream_run, stream_run, stream_run, stream_run,
    stream_run, stream_run, stream_run, stream_run, stream_run, stream_run, stream_run, stream_run,
    stream_run, stream_run, stream_run, stream_run, stream_run, stream_run, stream_run, stream_run,
    stream_run, stream_run, stream_run, stream_run, stream_run, stream_run, stream_run, stream_run,
    stream_run, stream_run, stream_run⟩

/-- Entry `i` of stream `st` of cell `c` has completed `k` steps of `total`, the last of which led to `t`. -/
def State.stStepped (c : Nat) (st : Strm) (i : Nat) (e : QEntry) (total k : Nat) (t : State) : State :=
  (t.setCell c ((t.cell c).setStream st { (t.cell c).stream st with
    q := ((t.cell c).stream st).q.set i
      { ((t.cell c).stream st).q[i]?.getD e with steps := k, done := decide (total = k) } })).progress c 1

/-- A stream instruction whose operands pass and whose next step succeeds takes that step alone (03 R56, R74). -/
theorem stream_step {s t : State} {c code i : Nat} {st : Strm} {e : QEntry} {p : Plan} {f : State → QEntry → Except Nat Plan}
    (h : s.stRuns c code st i e ∧ f (s.withDescs e) e = .ok p ∧ e.steps < p.total ∧ p.step s e.steps = .ok (t, 0)) :
    stream c .step code f s = .next (State.stStepped c st i e p.total (e.steps + 1) t) := by
  obtain ⟨⟨hc, hgoes, rfl, rfl, hentry, hbegun, hcode⟩, hchecks, hleft, hstep⟩ := h
  have hrunning : s.unitState c = stRunning := by
    simp only [State.cellGoes, Bool.and_eq_true, decide_eq_true_eq] at hgoes
    exact hgoes.1
  have hone : min 1 (p.total - e.steps) = 1 := by omega
  have hsteps : runSteps p.step 1 s e.steps = (t, e.steps + 1, none) := by simp only [runSteps, hstep]
  have hdone : p.total ≤ e.steps + 1 ↔ p.total = e.steps + 1 := by omega
  refine next_eq ?_
  simp [State.runStream, State.stStepped, hentry, hbegun, hcode, hgoes, hrunning, hchecks, hone, hsteps, hdone,
    Nat.not_le.2 hc, stRunning, stError]

/-- Settles O14: `stream_step` for each operation. -/
theorem streamStepTakesOneStep : Obligations.StreamStepTakesOneStep := by
  unfold Obligations.StreamStepTakesOneStep
  intro s t c i st e p steps q after
  exact ⟨stream_step, stream_step, stream_step, stream_step, stream_step, stream_step, stream_step, stream_step,
    stream_step, stream_step, stream_step, stream_step, stream_step, stream_step, stream_step, stream_step,
    stream_step, stream_step, stream_step, stream_step, stream_step, stream_step, stream_step, stream_step,
    stream_step, stream_step, stream_step, stream_step, stream_step, stream_step, stream_step, stream_step,
    stream_step, stream_step, stream_step⟩

end Sys2Proof.Machine

/-! PROOFS. Serial numbers (00 R10) and the reset values of the register tables. -/

namespace Sys2Proof.Machine

set_option Elab.async false

/-- `newer` asks for the difference modulo `2 ^ n` (00 R10). -/
theorem newer_iff {n a b : Nat} (hb : b < 2 ^ n) :
    newer n a b = true ↔ 1 ≤ (((a : Int) - b) % 2 ^ n).toNat ∧ (((a : Int) - b) % 2 ^ n).toNat ≤ 2 ^ (n - 1) - 1 := by
  have hdiff : (((a : Int) - b) % 2 ^ n).toNat = (a + 2 ^ n - b % 2 ^ n) % 2 ^ n := by
    rw [Nat.mod_eq_of_lt hb]
    have hcast : ((a + 2 ^ n - b : Nat) : Int) = (a - b : Int) + (2 ^ n : Nat) := by omega
    have hpow : ((2 : Int) ^ n) = ((2 ^ n : Nat) : Int) := by push_cast; rfl
    rw [hpow, ← Int.add_emod_right, ← hcast, ← Int.natCast_emod, Int.toNat_natCast]
  simp only [newer, decide_eq_true_eq, hdiff]

/-- The two differences of distinct numbers add up to `2 ^ n`. -/
theorem sub_emod_swap {n a b : Nat} (ha : a < 2 ^ n) (hb : b < 2 ^ n) (hne : a ≠ b) :
    (((b : Int) - a) % 2 ^ n).toNat + (((a : Int) - b) % 2 ^ n).toNat = 2 ^ n := by
  have hpow : ((2 : Int) ^ n) = ((2 ^ n : Nat) : Int) := by push_cast; rfl
  rw [hpow]
  generalize 2 ^ n = m at *
  obtain hlt | hgt := Nat.lt_or_gt_of_ne hne
  · have h1 : ((b : Int) - a) % (m : Int) = b - a := Int.emod_eq_of_lt (by omega) (by omega)
    have h2 : ((a : Int) - b) % (m : Int) = a - b + m := by
      rw [← Int.add_emod_right]
      exact Int.emod_eq_of_lt (by omega) (by omega)
    omega
  · have h1 : ((a : Int) - b) % (m : Int) = a - b := Int.emod_eq_of_lt (by omega) (by omega)
    have h2 : ((b : Int) - a) % (m : Int) = b - a + m := by
      rw [← Int.add_emod_right]
      exact Int.emod_eq_of_lt (by omega) (by omega)
    omega

/-- Settles O55: the difference of `b` and `a` is `2 ^ n` less that of `a` and `b`. -/
theorem serialNumbers : Obligations.SerialNumbers := by
  unfold Obligations.SerialNumbers
  intro n a b hn ha hb d
  have hhalf : 2 ^ (n - 1) * 2 = 2 ^ n := Nat.two_pow_pred_mul_two hn
  have hnewer : newer n a b = true ↔ 1 ≤ d ∧ d ≤ 2 ^ (n - 1) - 1 := newer_iff hb
  have holder : newer n b a = true ↔ 2 ^ (n - 1) + 1 ≤ d ∧ d ≤ 2 ^ n - 1 := by
    rw [newer_iff ha]
    obtain rfl | hne := eq_or_ne a b
    · simp [d]
    · have hswap := sub_emod_swap ha hb hne
      omega
  refine ⟨hnewer, holder, fun hd => ?_⟩
  rw [← Bool.not_eq_true, ← Bool.not_eq_true, hnewer, holder]
  omega

/-- At reset a field holds its reset value. -/
theorem State.reset_getF (a : Nat) (f : FD) : State.reset.getF a f = f.reset := rfl

/-- Settles O59: each value is the field's reset value, which its definition writes down. -/
theorem resetValues : Obligations.ResetValues := by
  unfold Obligations.ResetValues
  have hreset := State.reset_getF
  exact ⟨fun u _ => hreset _ _, fun u _ => ⟨hreset _ _, hreset _ _⟩, fun u _ n _ => hreset _ _, fun q _ => hreset _ _,
    hreset _ _, hreset _ _, hreset _ _, hreset _ _, hreset _ _, hreset _ _, hreset _ _, hreset _ _, hreset _ _, hreset _ _, hreset _ _,
    fun u _ => ⟨hreset _ _, hreset _ _⟩,
    fun p _ => ⟨hreset _ _, hreset _ _, fun k _ => ⟨hreset _ _, hreset _ _⟩, fun e _ => hreset _ _⟩,
    fun n _ => ⟨hreset _ _, hreset _ _⟩, fun c _ => ⟨hreset _ _, hreset _ _⟩⟩

end Sys2Proof.Machine

/-! PROOFS. VECTOR (04 R106): each plan writes one register of its cell, lane by lane, and may raise flags; and TMMA (04 R104): a
step writes each element that it covers once. -/

namespace Sys2Proof.Machine

set_option Elab.async false

/-- What no element of the list touches stays through the fold. -/
theorem foldl_keeps {σ α β : Type} {f : σ → α → σ} {R : σ → β} {l : List α} (h : ∀ s y, y ∈ l → R (f s y) = R s) (s : σ) :
    R (l.foldl f s) = R s := by
  induction l generalizing s with
  | nil => rfl
  | cons y l ih =>
    rw [List.foldl_cons, ih (fun s z hz => h s z (List.mem_cons_of_mem y hz)), h s y List.mem_cons_self]

/-- What one element of the list alone touches is changed once by the fold. -/
theorem foldl_changes_once {σ α β : Type} {f : σ → α → σ} {R : σ → β} {g : β → β} {l : List α} {x : α} (hx : x ∈ l) (hn : l.Nodup)
    (hsame : ∀ s, R (f s x) = g (R s)) (hother : ∀ s y, y ∈ l → y ≠ x → R (f s y) = R s) (s : σ) :
    R (l.foldl f s) = g (R s) := by
  obtain ⟨l₁, l₂, rfl⟩ := List.append_of_mem hx
  have hn₂ : x ∉ l₁ ∧ x ∉ l₂ := by
    rw [List.nodup_append, List.nodup_cons] at hn
    exact ⟨fun h => hn.2.2 x h x List.mem_cons_self rfl, hn.2.1.1⟩
  rw [List.foldl_append, List.foldl_cons]
  rw [foldl_keeps (fun s y hy => hother s y (by simp [hy]) (fun e => hn₂.2 (e ▸ hy))), hsame,
    foldl_keeps (fun s y hy => hother s y (by simp [hy]) (fun e => hn₂.1 (e ▸ hy)))]

/-! V registers. -/

/-- Lanes 0 to 63 of register `r` become `g`. -/
def Cell.wLanes (x : Cell) (r : Nat) (g : Nat → Nat) : Cell := (List.range 64).foldl (fun y l => y.wV r l (g l)) x

@[simp] theorem Cell.rV_wV_same (x : Cell) (r l v : Nat) : (x.wV r l v).rV r l = v % 2 ^ 32 := by
  simp [Cell.rV, Cell.wV]

theorem Cell.rV_wV_ne (x : Cell) {r l q k : Nat} (v : Nat) (h : 64 * r + l ≠ 64 * q + k) : (x.wV r l v).rV q k = x.rV q k :=
  congrArg BitVec.toNat (Tab.get_set_ne h)

theorem Cell.rV_wLanes_same (x : Cell) (r : Nat) (g : Nat → Nat) {l : Nat} (hl : l < 64) :
    (x.wLanes r g).rV r l = g l % 2 ^ 32 :=
  foldl_changes_once (R := fun y : Cell => y.rV r l) (g := fun _ => g l % 2 ^ 32) (List.mem_range.2 hl) List.nodup_range
    (fun y => Cell.rV_wV_same y r l (g l)) (fun y k _ hk => Cell.rV_wV_ne y (g k) (by omega)) x

theorem Cell.rV_wLanes_ne (x : Cell) {r q : Nat} (g : Nat → Nat) {l : Nat} (hl : l < 64) (h : q ≠ r) :
    (x.wLanes r g).rV q l = x.rV q l :=
  foldl_keeps (R := fun y : Cell => y.rV q l) (fun y k hk => Cell.rV_wV_ne y (g k) (by have := List.mem_range.1 hk; omega)) x

theorem Cell.wLanes_files (x : Cell) (r : Nat) (g : Nat → Nat) :
    (x.wLanes r g).s = x.s ∧ (x.wLanes r g).a = x.a ∧ (x.wLanes r g).t = x.t := by
  have hfiles := foldl_keeps (f := fun (y : Cell) l => y.wV r l (g l)) (R := fun y : Cell => (y.s, y.a, y.t)) (l := List.range 64)
    (fun _ _ _ => rfl) x
  simp only [Prod.mk.injEq] at hfiles
  exact hfiles

theorem Cell.rV_lt (x : Cell) (r l : Nat) : x.rV r l < 2 ^ 32 := (Tab.get 0 x.v (64 * r + l)).isLt

/-- Register `r` of cell `c` reads `lane` in `t`; the rest of that cell's register file and the other cells are as in `s`, memory is
as in `m` (04 R106). -/
def WroteLanes (s m : State) (c r : Nat) (lane : Nat → Nat) (t : State) : Prop :=
  (∀ l, l < 64 → (t.cell c).rV r l = lane l % 2 ^ 32) ∧
  (∀ q l, l < 64 → q ≠ r → (t.cell c).rV q l = (s.cell c).rV q l) ∧
  (t.cell c).s = (s.cell c).s ∧ (t.cell c).a = (s.cell c).a ∧ (t.cell c).t = (s.cell c).t ∧ (∀ d, d ≠ c → t.cell d = s.cell d) ∧
  t.mem = m.mem

theorem State.stDone_cell_ne (c : Nat) (st : Strm) (i : Nat) (e : QEntry) (total : Nat) (t : State) {d : Nat} (h : d ≠ c) :
    (State.stDone c st i e total t).cell d = t.cell d :=
  State.cell_setCell_ne t _ h.symm

theorem SameFile.rV {x y : Cell} (h : SameFile x y) (r l : Nat) : y.rV r l = x.rV r l := by
  simp only [Cell.rV, h.v]

/-- Ending an instruction that wrote the lanes of one register keeps what it wrote. -/
theorem wroteLanes_stDone {s m u : State} {c r n : Nat} {g lane : Nat → Nat} {e : QEntry} (hg : ∀ l, l < 64 → g l % 2 ^ 32 = lane l % 2 ^ 32)
    (hcells : u.cells = (s.setCell c ((s.cell c).wLanes r g)).cells) (hmem : u.mem = m.mem) :
    WroteLanes s m c r lane (State.stDone c .vector n e 1 u) := by
  have hfile := State.stDone_sameFile c .vector n e 1 u c
  rw [State.cell_of_cells hcells, State.cell_setCell_same] at hfile
  obtain ⟨hs, ha, ht⟩ := Cell.wLanes_files (s.cell c) r g
  refine ⟨fun l hl => ?_, fun q l hl hq => ?_, hfile.s.trans hs, hfile.a.trans ha, hfile.t.trans ht, fun d hd => ?_, hmem⟩
  · rw [hfile.rV, Cell.rV_wLanes_same _ _ _ hl, hg l hl]
  · rw [hfile.rV, Cell.rV_wLanes_ne _ _ hl hq]
  · rw [State.stDone_cell_ne _ _ _ _ _ _ hd, State.cell_of_cells hcells, State.cell_setCell_ne _ _ hd.symm]

theorem State.raise_cells (s : State) (c : Nat) (f : Flags) : (s.raise c f).cells = s.cells := by
  unfold State.raise
  dsimp only
  split_ifs <;> rfl

theorem State.raise_mem (s : State) (c : Nat) (f : Flags) : (s.raise c f).mem = s.mem := by
  unfold State.raise
  dsimp only
  split_ifs <;> rfl

/-- Lane `l` of the result that `vecMap` forms. -/
def vecLane (f : Fmt) (x : Cell) (va vb vc : Nat) (put : Fmt → List Nat → Nat) (g : Nat → Nat → Nat → Nat × Flags) (l : Nat) : Nat :=
  put f ((List.range f.perLane).map (fun h => (g (laneElem f (x.rV va l) h) (laneElem f (x.rV vb l) h) (laneElem f (x.rV vc l) h)).1))

/-- `vecMap` writes the lanes of one register and raises flags. -/
theorem vecMap_eq (c : Nat) (f : Fmt) (vd va vb vc : Nat) (put : Fmt → List Nat → Nat) (g : Nat → Nat → Nat → Nat × Flags) (s : State) :
    ∃ fl, vecMap c f vd va vb vc put g s = (s.setCell c ((s.cell c).wLanes vd (vecLane f (s.cell c) va vb vc put g))).raise c fl := by
  unfold vecMap Cell.wLanes vecLane
  simp only [← List.map_prod_left_eq_zip, List.foldl_map, List.map_map, Function.comp_def]
  exact ⟨_, rfl⟩

/-- A VECTOR instruction whose one step is `vecMap` writes its lanes. -/
theorem runStream_vecMap {s : State} {c n code : Nat} {e : QEntry} {F : State → QEntry → Except Nat Plan} {f : Fmt} {vd va vb vc : Nat}
    {put : Fmt → List Nat → Nat} {g : Nat → Nat → Nat → Nat × Flags} {lane : Nat → Nat} (h : s.stRuns c code .vector n e ∧ e.steps = 0)
    (hF : F (s.withDescs e) e = .ok (plan1 (fun s => (vecMap c f vd va vb vc put g s, 0))))
    (hlane : ∀ l, l < 64 → vecLane f (s.cell c) va vb vc put g l % 2 ^ 32 = lane l % 2 ^ 32) :
    WroteLanes s s c vd lane (s.runStream c false code F) := by
  obtain ⟨fl, hmap⟩ := vecMap_eq c f vd va vb vc put g s
  rw [State.runStream_plan1 h.1 h.2 hF, hmap]
  exact wroteLanes_stDone hlane (State.raise_cells _ _ _) (State.raise_mem _ _ _)

/-- The arithmetic operations: the elements of a lane are the first parts of what `gi` and `gf` answer. -/
theorem planVec_wroteLanes {s : State} {c n code used : Nat} {e : QEntry} {gi : Int → Int → Int → Int}
    {gf : FFmt → Machine.Num → Machine.Num → Machine.Num → Nat × Flags} {lane : Nat → Nat} (h : s.stRuns c code .vector n e ∧ e.steps = 0)
    (hlane : lane = fun l => laneOf (vecFmt e.word.toNat) ((List.range (vecFmt e.word.toNat).perLane).map (fun k =>
      let f := vecFmt e.word.toNat
      let a := laneElem f ((s.cell c).rV (bits e.word.toNat 38 34) l) k
      let b := laneElem f ((s.cell c).rV (bits e.word.toNat 33 29) l) k
      let d := laneElem f ((s.cell c).rV (bits e.word.toNat 28 24) l) k
      if f = .int32 then twos 32 (clampInt 32 (gi (signedOf 32 a) (signedOf 32 b) (signedOf 32 d))).1
      else (gf f.layout (f.read a) (f.read b) (f.read d)).1))) :
    WroteLanes s s c (bits e.word.toNat 43 39) lane (s.runStream c false code (planVec c gi gf used)) := by
  refine runStream_vecMap h rfl (fun l _ => ?_)
  subst hlane
  unfold vecLane
  congr 3
  funext k
  dsimp only
  split <;> rfl

/-- The operations without a format work on whole lanes. -/
theorem planLane_wroteLanes {s : State} {c n code : Nat} {e : QEntry} {g : Nat → Nat → Nat → Nat} (h : s.stRuns c code .vector n e ∧ e.steps = 0) :
    WroteLanes s s c (bits e.word.toNat 43 39)
      (fun l => g ((s.cell c).rV (bits e.word.toNat 38 34) l) ((s.cell c).rV (bits e.word.toNat 33 29) l) ((s.cell c).rV (bits e.word.toNat 28 24) l))
      (s.runStream c false code (planLane c g)) := by
  refine runStream_vecMap h rfl (fun l _ => ?_)
  have helem : ∀ r, laneElem .fp32 ((s.cell c).rV r l) 0 = (s.cell c).rV r l := fun r => Nat.mod_eq_of_lt (Cell.rV_lt _ r l)
  have hone : List.range Fmt.fp32.perLane = [0] := rfl
  simp only [vecLane, hone, List.map_cons, List.map_nil, helem]
  rfl

/-- VBCAST writes the same value to every lane. -/
theorem planVbcast_wroteLanes {s : State} {c n code : Nat} {e : QEntry} (h : s.stRuns c code .vector n e ∧ e.steps = 0) :
    WroteLanes s s c (bits e.word.toNat 43 39) (fun _ => e.op 0) (s.runStream c false code (planVbcast c)) := by
  rw [State.runStream_plan1 h.1 h.2 rfl]
  exact wroteLanes_stDone (g := fun _ => e.op 0 % 2 ^ 32) (fun l _ => Nat.mod_mod _ _) rfl rfl

/-- VLD writes the little-endian words of the bytes that it reads, the read's own effects apart. -/
theorem planVld_wroteLanes {s : State} {c n code a : Nat} {b : List Nat} {e : QEntry} (ha : vecAddr c e = .ok a) (hd : e.descs = [])
    (hread : s.cellRead c .own a 256 = .ok b) (h : s.stRuns c code .vector n e ∧ e.steps = 0) :
    WroteLanes s (s.noteRead c (s.partOf c) a 256) c (bits e.word.toNat 43 39) (fun l => fieldAt b (4 * l) 4)
      (s.runStream c false code (planVld c)) := by
  have hdescs : s.withDescs e = s := by rw [State.withDescs, hd, List.foldl_nil]
  rw [State.runStream_plan1 h.1 h.2 (by rw [hdescs]; simp only [planVld, ha, hread, bind, Except.bind]; rfl)]
  have hcells : (s.noteRead c (s.partOf c) a 256).cells = s.cells := State.noteRead_cells s c _ a 256
  refine wroteLanes_stDone (fun l _ => rfl) ?_ rfl
  simp only [State.setCell, State.cell_of_cells hcells, hcells]
  rfl

/-- VST writes the lanes of Va; a write without an error is the whole of it. -/
theorem runStream_planVst {s : State} {c n code a : Nat} {e : QEntry} (ha : vecAddr c e = .ok a)
    (hput : (s.cellWrite c 0 a (byteList ((List.range 64).flatMap
      (fun l => bytesOf 4 ((s.cell c).rV (bits e.word.toNat 38 34) l))))).2 = false)
    (h : s.stRuns c code .vector n e ∧ e.steps = 0) :
    s.runStream c false code (planVst c) = State.stDone c .vector n e 1 (s.cellWrite c 0 a (byteList ((List.range 64).flatMap
      (fun l => bytesOf 4 ((s.cell c).rV (bits e.word.toNat 38 34) l))))).1 := by
  refine State.runStream_done h.1 (p := plan1 (fun s =>
    ((s.cellWrite c 0 a (byteList ((List.range 64).flatMap (fun l => bytesOf 4 ((s.cell c).rV (bits e.word.toNat 38 34) l))))).1,
     if (s.cellWrite c 0 a (byteList ((List.range 64).flatMap (fun l => bytesOf 4 ((s.cell c).rV (bits e.word.toNat 38 34) l))))).2
     then memErr a else 0))) (j := 1) ?_ ?_
  · simp only [planVst, ha]
    rfl
  · simp only [plan1, h.2, Nat.sub_zero, runSteps, hput]
    rfl

/-- The mask of VCMP: ones in each element for which the relation holds, 16 bits to an element of a packed format. -/
theorem vcmp_lane (f : Fmt) (p : Nat → Bool) :
    (if f.packed then ((List.range f.perLane).map (fun k => if p k then (if f.packed then 0xFFFF else 0xFFFFFFFF) else 0)).getD 0 0 +
        ((List.range f.perLane).map (fun k => if p k then (if f.packed then 0xFFFF else 0xFFFFFFFF) else 0)).getD 1 0 * 2 ^ 16
      else ((List.range f.perLane).map (fun k => if p k then (if f.packed then 0xFFFF else 0xFFFFFFFF) else 0)).getD 0 0) =
    (let m := fun k => if p k then 1 else 0
     if f = .bf16 ∨ f = .fp16 then m 0 * 0xFFFF + m 1 * 0xFFFF * 2 ^ 16 else m 0 * 0xFFFFFFFF) := by
  by_cases hf : f = .bf16 ∨ f = .fp16
  · have hp : f.packed = true := by obtain rfl | rfl := hf <;> rfl
    have hrange : List.range f.perLane = [0, 1] := by rw [Fmt.perLane, hp]; rfl
    simp only [hf, hp, hrange, if_true, List.map_cons, List.map_nil]
    cases p 0 <;> cases p 1 <;> rfl
  · have hp : f.packed = false := by simpa [Fmt.packed] using hf
    have hrange : List.range f.perLane = [0] := by rw [Fmt.perLane, hp]; rfl
    simp only [hf, hp, hrange, if_false, List.map_cons, List.map_nil]
    cases p 0 <;> rfl

theorem planVcmp_wroteLanes {s : State} {c n code : Nat} {e : QEntry} (h : s.stRuns c code .vector n e ∧ e.steps = 0) :
    WroteLanes s s c (bits e.word.toNat 43 39) (fun l =>
      let f := vecFmt e.word.toNat
      let m := fun k => if vcmpHolds (bits e.word.toNat 2 0) (f.read (laneElem f ((s.cell c).rV (bits e.word.toNat 38 34) l) k))
        (f.read (laneElem f ((s.cell c).rV (bits e.word.toNat 33 29) l) k)) then 1 else 0
      if f = .bf16 ∨ f = .fp16 then m 0 * 0xFFFF + m 1 * 0xFFFF * 2 ^ 16 else m 0 * 0xFFFFFFFF)
      (s.runStream c false code (planVcmp c)) :=
  runStream_vecMap h rfl (fun _ _ => congrArg (· % 2 ^ 32) (vcmp_lane _ _))

/-- Settles O15: each operation by the lemma on its kind of plan. -/
theorem vectorResults : Obligations.VectorResults := by
  unfold Obligations.VectorResults
  intro s c n e w x f va vb vc each num runs wrote
  refine ⟨?_, ?_, ?_, ?_, ?_, ?_, ?_, ?_, ?_, ?_, ?_, ?_, ?_, ?_, ?_, ?_, ?_, ?_⟩
  iterate 9 exact fun h => ⟨_, rfl, planVec_wroteLanes h rfl⟩
  · exact fun h => ⟨_, rfl, planVcmp_wroteLanes h⟩
  iterate 5 exact fun h => ⟨_, rfl, planLane_wroteLanes h⟩
  · exact fun h => ⟨_, rfl, planVbcast_wroteLanes h⟩
  · exact fun a b ha hd hread h => ⟨_, rfl, planVld_wroteLanes ha hd hread h⟩
  · intro a put ha hput h
    exact next_eq (runStream_planVst ha hput h)

end Sys2Proof.Machine

/-! PROOFS. TMMA (04 R104; 02 R39 to R42): a step writes each element of the tile that its rows cover once. -/

namespace Sys2Proof.Machine

set_option Elab.async false

/-- A step of TMMA over tensors `a` and `b` (04 R104). -/
def tmmaStep (c t : Nat) (a b : Desc) (s : State) (k : Nat) : Except Nat (State × Nat) := do
  let as ← collect (fun m => s.readSeg c .own a m (64 * k) 64) a.d1 0
  let bs ← collect (fun n => s.readSeg c .own b n (64 * k) 64) b.d1 0
  let s := (List.range a.d1).foldl (fun s m => s.noteSeg c a m (64 * k) 64) s
  let s := (List.range b.d1).foldl (fun s n => s.noteSeg c b n (64 * k) 64) s
  return (tmmaBlock c t a.fmt.isInt a.fmt b.fmt as bs s, 0)

/-- A TMMA whose operands pass has at most 128 rows and 64 columns, and its steps are those of `tmmaStep`. -/
theorem planTmma_ok {c : Nat} {u : State} {e : QEntry} {a b : Desc} {p : Plan} (ha : u.desc c (e.op 0) (e.op 2) = .ok a)
    (hb : u.desc c (e.op 1) (e.op 3) = .ok b) (h : planTmma c u e = .ok p) :
    a.d1 ≤ 128 ∧ b.d1 ≤ 64 ∧ p.step = tmmaStep c (bits e.word.toNat 43 41) a b := by
  simp only [planTmma, ha, hb, bind, Except.bind] at h
  split at h
  · cases h
  case isFalse hdims =>
    simp only [pure, Except.pure] at h
    split at h
    · cases h
    · split at h
      · cases h
      · split at h
        · cases h
        · split at h
          · cases h
          · cases h
            exact ⟨by omega, by omega, rfl⟩

/-- What `collect` gathers: the answers of the indices in turn. -/
theorem collect_ok {α : Type} {f : Nat → Except Nat α} {n i : Nat} {l : List α} (h : collect f n i = .ok l) :
    l.length = n ∧ ∀ k x, k < n → f (i + k) = .ok x → l[k]? = some x := by
  induction n generalizing i l with
  | zero =>
    cases h
    exact ⟨rfl, fun k x hk => absurd hk (Nat.not_lt_zero k)⟩
  | succ n ih =>
    unfold collect at h
    split at h
    · cases h
    next y hy =>
      split at h
      · cases h
      next t ht =>
        cases h
        obtain ⟨hlen, hget⟩ := ih ht
        refine ⟨by rw [List.length_cons, hlen], fun k x hk hx => ?_⟩
        cases k with
        | zero =>
          rw [Nat.add_zero, hy] at hx
          cases hx
          rfl
        | succ k =>
          rw [List.getElem?_cons_succ]
          exact hget k x (by omega) (by rwa [Nat.add_assoc, Nat.add_comm 1 k])

/-- A list with its positions. -/
theorem mem_zip_range {α : Type} {l : List α} {k : Nat} {x : α} (h : l[k]? = some x) : (k, x) ∈ (List.range l.length).zip l := by
  obtain ⟨hk, rfl⟩ := List.getElem?_eq_some_iff.1 h
  refine List.mem_iff_getElem.2 ⟨k, by simpa using hk, ?_⟩
  simp

theorem nodup_zip_range {α : Type} (l : List α) : ((List.range l.length).zip l).Nodup := by
  refine List.Nodup.of_map Prod.fst ?_
  rw [List.map_fst_zip (by simp)]
  exact List.nodup_range

/-- Positions tell the entries of a list with its positions apart, and stand below its length. -/
theorem zip_range_fst {α : Type} {l : List α} {p q : Nat × α} (hp : p ∈ (List.range l.length).zip l) (hq : q ∈ (List.range l.length).zip l)
    (hne : p ≠ q) : p.1 ≠ q.1 ∧ p.1 < l.length := by
  obtain ⟨i, hi, rfl⟩ := List.mem_iff_getElem.1 hp
  obtain ⟨j, hj, rfl⟩ := List.mem_iff_getElem.1 hq
  simp only [List.length_zip, List.length_range, Nat.min_self] at hi hj
  simp only [List.getElem_zip, List.getElem_range, ne_eq, Prod.mk.injEq] at hne ⊢
  exact ⟨fun e => hne ⟨e, by subst e; rfl⟩, hi⟩

theorem fst_lt_of_mem_zip_range {α : Type} {l : List α} {p : Nat × α} (hp : p ∈ (List.range l.length).zip l) : p.1 < l.length :=
  List.mem_range.1 (List.of_mem_zip hp).1

/-- One element of the block: the new value and its flags. -/
def tmmaPut (c t : Nat) (int : Bool) (fa fb : Fmt) (p : Nat × Row) (s : State) (q : Nat × Row) : State :=
  let x := s.cell c
  let r := tmmaCell int fa fb (x.rT t p.1 q.1) p.2 q.2
  ((s.setCell c (if r.2.2 then { x.wT t p.1 q.1 r.1 with tsat := setBit (x.wT t p.1 q.1 r.1).tsat t } else x.wT t p.1 q.1 r.1)).raise c r.2.1)

theorem tmmaBlock_eq (c t : Nat) (int : Bool) (fa fb : Fmt) (as bs : List Row) (s : State) :
    tmmaBlock c t int fa fb as bs s =
      ((List.range as.length).zip as).foldl (fun s p => ((List.range bs.length).zip bs).foldl (tmmaPut c t int fa fb p) s) s := rfl

@[simp] theorem Cell.rT_wT_same (x : Cell) (t m n v : Nat) : (x.wT t m n v).rT t m n = v % 2 ^ 32 := by
  simp [Cell.rT, Cell.wT]

theorem Cell.rT_wT_ne (x : Cell) {t m n q i j : Nat} (v : Nat) (h : 8192 * t + 64 * m + n ≠ 8192 * q + 64 * i + j) :
    (x.wT t m n v).rT q i j = x.rT q i j :=
  congrArg BitVec.toNat (Tab.get_set_ne h)

/-- An element's step leaves the tiles as its one write does. -/
theorem tmmaPut_rT (c t : Nat) (int : Bool) (fa fb : Fmt) (p : Nat × Row) (s : State) (q : Nat × Row) (k i j : Nat) :
    ((tmmaPut c t int fa fb p s q).cell c).rT k i j =
      ((s.cell c).wT t p.1 q.1 (tmmaCell int fa fb ((s.cell c).rT t p.1 q.1) p.2 q.2).1).rT k i j := by
  unfold tmmaPut
  dsimp only
  rw [State.cell_of_cells (State.raise_cells _ _ _), State.cell_setCell_same]
  split <;> rfl

theorem tmmaPut_rT_same (c t : Nat) (int : Bool) (fa fb : Fmt) (p : Nat × Row) (s : State) (q : Nat × Row) :
    ((tmmaPut c t int fa fb p s q).cell c).rT t p.1 q.1 = (tmmaCell int fa fb ((s.cell c).rT t p.1 q.1) p.2 q.2).1 % 2 ^ 32 := by
  rw [tmmaPut_rT, Cell.rT_wT_same]

theorem tmmaPut_rT_ne {c t : Nat} {int : Bool} {fa fb : Fmt} {p : Nat × Row} (s : State) {q : Nat × Row} {k i j : Nat}
    (h : 8192 * t + 64 * p.1 + q.1 ≠ 8192 * k + 64 * i + j) :
    ((tmmaPut c t int fa fb p s q).cell c).rT k i j = (s.cell c).rT k i j := by
  rw [tmmaPut_rT, Cell.rT_wT_ne _ _ h]

/-- A block writes the element of row `a` and column `b` once. -/
theorem tmmaBlock_rT {c t : Nat} {int : Bool} {fa fb : Fmt} {as bs : List Row} {s : State} {m n : Nat} {a b : Row} (hbs : bs.length ≤ 64)
    (ha : as[m]? = some a) (hb : bs[n]? = some b) :
    ((tmmaBlock c t int fa fb as bs s).cell c).rT t m n = (tmmaCell int fa fb ((s.cell c).rT t m n) a b).1 % 2 ^ 32 := by
  rw [tmmaBlock_eq]
  have hn := fst_lt_of_mem_zip_range (mem_zip_range hb)
  refine foldl_changes_once (R := fun u : State => (u.cell c).rT t m n) (g := fun v => (tmmaCell int fa fb v a b).1 % 2 ^ 32)
    (mem_zip_range ha) (nodup_zip_range as) (fun u => ?_) (fun u p hp hne => ?_) s
  · refine foldl_changes_once (f := tmmaPut c t int fa fb (m, a)) (R := fun u : State => (u.cell c).rT t m n)
      (g := fun v => (tmmaCell int fa fb v a b).1 % 2 ^ 32) (mem_zip_range hb) (nodup_zip_range bs)
      (fun u => tmmaPut_rT_same c t int fa fb (m, a) u (n, b)) (fun u q hq hne => tmmaPut_rT_ne u ?_) u
    have := (zip_range_fst hq (mem_zip_range hb) hne).1
    omega
  · refine foldl_keeps (R := fun u : State => (u.cell c).rT t m n) (fun u q hq => tmmaPut_rT_ne u ?_) u
    have hrow := (zip_range_fst hp (mem_zip_range ha) hne).1
    have hcol := fst_lt_of_mem_zip_range hq
    simp only at hn hrow
    omega

/-- A block leaves the other tiles. -/
theorem tmmaBlock_rT_ne {c t : Nat} {int : Bool} {fa fb : Fmt} {as bs : List Row} {s : State} {k m n : Nat} (has : as.length ≤ 128)
    (hbs : bs.length ≤ 64) (hm : m < 128) (hn : n < 64) (hk : k ≠ t) :
    ((tmmaBlock c t int fa fb as bs s).cell c).rT k m n = (s.cell c).rT k m n := by
  rw [tmmaBlock_eq]
  refine foldl_keeps (R := fun u : State => (u.cell c).rT k m n) (fun u p hp => ?_) s
  refine foldl_keeps (R := fun u : State => (u.cell c).rT k m n) (fun u q hq => tmmaPut_rT_ne u ?_) u
  have hrow := fst_lt_of_mem_zip_range hp
  have hcol := fst_lt_of_mem_zip_range hq
  omega

theorem State.noteSeg_cells (s : State) (c : Nat) (d : Desc) (r i n : Nat) : (s.noteSeg c d r i n).cells = s.cells := by
  unfold State.noteSeg
  dsimp only
  split
  · exact State.noteRead_cells _ _ _ _ _
  · exact (State.noteRead_cells _ _ _ _ _).trans (State.noteRead_cells _ _ _ _ _)

/-- Settles O17: the rows that the step collects stand at their own places, and the block writes each element once. -/
theorem tensorTileResults : Obligations.TensorTileResults := by
  unfold Obligations.TensorTileResults
  intro s t c j e a b p k u ha hb hp hstep
  obtain ⟨had, hbd, hplan⟩ := planTmma_ok ha hb hp
  rw [hplan] at hstep
  simp only [tmmaStep, bind, Except.bind] at hstep
  split at hstep
  · cases hstep
  next as has =>
  split at hstep
  · cases hstep
  next bs hbs =>
  cases hstep
  obtain ⟨halen, haget⟩ := collect_ok has
  obtain ⟨hblen, hbget⟩ := collect_ok hbs
  have hcell : ∀ r : State, ((List.range b.d1).foldl (fun s n => s.noteSeg c b n (64 * j) 64)
      ((List.range a.d1).foldl (fun s m => s.noteSeg c a m (64 * j) 64) r)).cell c = r.cell c := fun r =>
    State.cell_of_cells ((foldl_cells (fun s n => State.noteSeg_cells s c b n _ _) _ _).trans
      (foldl_cells (fun s m => State.noteSeg_cells s c a m _ _) _ _)) c
  constructor
  · intro m n x y hm hn hx hy
    rw [tmmaBlock_rT (by omega) (haget m x hm (by rwa [Nat.zero_add])) (hbget n y hn (by rwa [Nat.zero_add])), hcell]
  · intro q m n hm hn hq
    rw [tmmaBlock_rT_ne (by omega) (by omega) hm hn hq, hcell]

end Sys2Proof.Machine

/-! PROOFS. Fields of different registers, and of one register, are kept apart; the window instructions of a cell (04 R116 to R118)
and what happens around the steps of a stream instruction (03 R52 to R61; 04 R83). -/

namespace Sys2Proof.Machine

set_option Elab.async false

/-- A field of another register reads as before. -/
theorem State.getF_setF_addr (s : State) {a b : Nat} {f g : FD} (v : Nat) (h : a ≠ b) (hf : f.lo < 64 := by decide)
    (hg : g.lo < 64 := by decide) : (s.setF a f v).getF b g = s.getF b g :=
  State.getF_setF_ne s v (by unfold FD.key; omega)

/-- Another field of the same register reads as before. -/
theorem State.getF_setF_lo (s : State) (a : Nat) {f g : FD} (v : Nat) (h : f.lo ≠ g.lo := by decide) :
    (s.setF a f v).getF a g = s.getF a g :=
  State.getF_setF_ne s v (by unfold FD.key; omega)

theorem State.putBytes_regs (s : State) (a : Nat) (bs : List Byte) : (s.putBytes a bs).regs = s.regs := by
  induction bs generalizing s a with
  | nil => rfl
  | cons b t ih =>
    simp only [State.putBytes]
    rw [ih]
    rfl

theorem State.store_regs (s : State) (a : Nat) (bs : List Byte) : (s.store a bs).regs = s.regs := State.putBytes_regs s a bs

/-- Putting the descriptors that an instruction read in their place leaves the registers. -/
theorem State.withDescs_regs (s : State) (e : QEntry) : (s.withDescs e).regs = s.regs :=
  foldl_keeps (R := State.regs) (fun s _ _ => State.store_regs s _ _) s

theorem State.winGranted_of_regs {s t : State} (h : t.regs = s.regs) (c n : Nat) : t.winGranted c n = s.winGranted c n := by
  simp only [State.winGranted, State.flag, State.getF_of_regs h]

theorem State.winRangeOk_of_regs {s t : State} (h : t.regs = s.regs) (u n base limit lanes mode : Nat) :
    t.winRangeOk u n base limit lanes mode = s.winRangeOk u n base limit lanes mode := by
  simp only [State.winRangeOk, State.flag, State.getF_of_regs h]

theorem winCtl_cell {u : Nat} (h : u ≠ 63) (n : Nat) : winCtl u n = unitBlk u + 0x100 + n * 0x20 := if_neg h

/-- The descriptor of window `n` of cell `c` opened at `[base, limit)` lines in mode `mode` with mask `mask`, a round begun. -/
def State.winOpened (s : State) (c n base limit mode mask : Nat) : State :=
  ((((((((s.setF (winCtl c n) winBASE base).setF (winCtl c n) winLIMIT limit).setF (winCtl c n) winPART (s.partOf c)).setF
    (winCtl c n) winMODE mode).setF (winCtl c n) winOPEN 1).setF (winMask c n) winMASK mask).winRound c n))

theorem State.runStream_planWopen {s : State} {c i base limit : Nat} {e : QEntry} (h0 : e.steps = 0)
    (h : s.stRuns c (op 9 0) .store i e) (hgrant : s.winGranted c (bits e.word.toNat 43 40) = true)
    (hop : e.op 0 = base + limit * 2 ^ 32) (hbase : base % 64 = 0) (hlimit : limit % 64 = 0) (hlt : base < limit)
    (hin : limit ≤ spadSize) (hrange : s.winRangeOk c (bits e.word.toNat 43 40) (base / 64) (limit / 64)
      (s.getF (winCtl c (bits e.word.toNat 43 40)) winLANES) (bits e.word.toNat 29 28) = true) :
    s.runStream c false (op 9 0) (planWopen c) = State.stDone c .store i e 1
      (s.winOpened c (bits e.word.toNat 43 40) (base / 64) (limit / 64) (bits e.word.toNat 29 28) (e.op 1)) := by
  have hregs := State.withDescs_regs s e
  have hspad : spadSize = 0xC00000 := rfl
  have hb : bits (base + limit * 2 ^ 32) 23 0 = base := by simp only [bits]; omega
  have hl : bits (base + limit * 2 ^ 32) 55 32 = limit := by simp only [bits]; omega
  have hz : ¬ (bits (base + limit * 2 ^ 32) 31 24 ≠ 0 ∨ bits (base + limit * 2 ^ 32) 63 56 ≠ 0 ∨ base % 64 ≠ 0 ∨ limit % 64 ≠ 0 ∨
      base > spadSize ∨ limit > spadSize) := by simp only [bits]; omega
  have haddr : winCtl c (bits e.word.toNat 43 40) ≠ UNIT_PART c := by
    rw [winCtl_cell (by have := h.1; omega), UNIT_PART]
    omega
  refine (State.runStream_plan1 h h0 (by
    simp only [planWopen, hop, hb, hl, State.winGranted_of_regs hregs, State.winRangeOk_of_regs hregs, State.getF_of_regs hregs,
      hgrant, hrange, hz, bind, Except.bind]
    rfl)).trans ?_
  rw [State.winOpened, State.partOf, State.getF_setF_addr _ _ haddr, State.getF_setF_addr _ _ haddr, State.partOf]

theorem State.runStream_planWclose {s : State} {c i : Nat} {e : QEntry} (h0 : e.steps = 0) (h : s.stRuns c (op 9 1) .store i e)
    (hgrant : s.winGranted c (bits e.word.toNat 43 40) = true) :
    s.runStream c false (op 9 1) (planWclose c) =
      State.stDone c .store i e 1 (s.setF (winCtl c (bits e.word.toNat 43 40)) winOPEN 0) := by
  refine State.runStream_plan1 h h0 (f := planWclose c) (g := fun u => u.setF (winCtl c (bits e.word.toNat 43 40)) winOPEN 0) ?_
  simp only [planWclose, State.winGranted_of_regs (State.withDescs_regs s e), hgrant]
  rfl

theorem commitSlot_eq {d k : Nat} (hd : d < 48) (hk : k < 16) : commitSlot (d + 64 * k + 1024) = some (d, k) := by
  have hv : bits (d + 64 * k + 1024) 10 10 = 1 := by simp only [bits]; omega
  have hcell : bits (d + 64 * k + 1024) 5 0 = d := by simp only [bits]; omega
  have hwin : bits (d + 64 * k + 1024) 9 6 = k := by simp only [bits]; omega
  have hzero : (d + 64 * k + 1024) / 2 ^ 11 = 0 := by omega
  rw [commitSlot, hv, hcell, hwin, hzero]
  exact if_pos ⟨rfl, rfl, hd⟩

/-- Settles O18: each plan is one step, whose effect its hypotheses fix. -/
theorem windowInstructionResults : Obligations.WindowInstructionResults := by
  unfold Obligations.WindowInstructionResults
  intro s c i e w n done h0
  refine ⟨?_, ?_, ?_, ?_, ?_⟩
  · intro base limit h hgrant hop hbase hlimit hlt hin hrange
    exact next_eq (State.runStream_planWopen h0 h hgrant hop hbase hlimit hlt hin hrange)
  · intro h hgrant
    exact next_eq (State.runStream_planWclose h0 h hgrant)
  · intro d k h hd hk hop
    refine next_eq (State.runStream_plan1 h h0 (f := planCommit c) (g := fun u => u.send
      { src := c, part := u.partOf c, tag := u.laneTag c, dst := d, ins := e.ins, body := .commit k }) ?_)
    simp only [planCommit, hop, commitSlot_eq hd hk]
  · intro h hgroup
    refine next_eq ((State.runStream_plan1 h h0 rfl).trans ?_)
    rw [hgroup]
    rfl
  · intro h hsolo
    refine next_eq ((State.runStream_plan1 h h0 rfl).trans ?_)
    rw [hsolo]
    rfl

/-! Beginning, completing and stalling (03 R52 to R61). -/

theorem State.unitState_of_cellGoes {s : State} {c : Nat} (h : s.cellGoes c = true) : s.unitState c = stRunning := by
  simp only [State.cellGoes, Bool.and_eq_true, decide_eq_true_eq] at h
  exact h.1

theorem streamBegin_begins {s : State} {c : Nat} {st : Strm} {e : QEntry} (hgoes : s.cellGoes c = true) (hc : c < 48)
    (he : ((s.cell c).stream st).q[firstOpen ((s.cell c).stream st).q]? = some e) (hbegun : e.begun = false)
    (hstall : ((s.cell c).stream st).stall = none) (hckpt : opCode e.word.toNat = op 10 0 → firstOpen ((s.cell c).stream st).q = 0)
    (htok : s.tokOk c e.word.toNat = true) (henc : encOk e.word.toNat = true) (hst : streamOf e.word.toNat = st) :
    let tk := s.takeTok c e.word.toNat
    let ds := tk.readDescs c e
    let u := ds.foldl (fun s d => s.noteRead c (s.partOf c) d.1 64) tk
    let n := (u.cell c).storeSeq + 1
    let q := (s.cell c).stream st
    streamBegin c st s = u.setCell c { (u.cell c).setStream st
        { q with q := q.q.set (firstOpen q.q) { e with begun := true, ins := if st = .store then n else 0, descs := ds } } with
      storeSeq := if st = .store then n else (u.cell c).storeSeq } := by
  intro tk ds u n q
  have hnot : ¬ (opCode e.word.toNat = op 10 0 ∧ firstOpen ((s.cell c).stream st).q ≠ 0) := fun h => h.2 (hckpt h.1)
  simp only [streamBegin, he]
  rw [if_neg (by simp [hgoes, hbegun, hstall, htok, Nat.not_le.2 hc, hnot]), if_neg (by simp [henc, hst])]

theorem streamComplete_done {s : State} {c : Nat} {st : Strm} {e : QEntry} {r : List QEntry} (hgoes : s.cellGoes c = true) (hc : c < 48)
    (hq : ((s.cell c).stream st).q = e :: r) (hdone : e.done = true) (hstall : ((s.cell c).stream st).stall = none)
    (hans : st = .store → s.answered c e.ins = true) (hbad : e.bad = 0) :
    streamComplete c st s = if insP e.word.toNat = 1 then
      if (s.cell c).rK (insPTOK e.word.toNat) < 255 then (s.post c (insPTOK e.word.toNat)).dequeue c st e.off
      else s.setCell c ((s.cell c).setStream st { (s.cell c).stream st with stall := some s.now })
    else s.dequeue c st e.off := by
  have hrun := State.unitState_of_cellGoes hgoes
  have hnot : ¬ (st = .store ∧ s.answered c e.ins = false) := fun h => by simp [hans h.1] at h
  simp only [streamComplete, hq]
  rw [if_neg (by simp [hdone, hrun, hstall, Nat.not_le.2 hc, hnot]), if_neg (by simp [hbad])]

theorem postStallRelease_posts {s : State} {c k off since : Nat} {st : Strm} (hgoes : s.cellGoes c = true)
    (hp : s.stalledPost c st = some (k, off, since)) (hk : (s.cell c).rK k < 255) :
    postStallRelease c st s = if st = .front then (s.post c k).setCell c { (s.post c k).cell c with feStall := none }
      else (s.post c k).dequeue c st off := by
  simp only [postStallRelease, hp]
  rw [if_neg (by simp [hgoes, hk])]

theorem tokenStall_errs {s : State} {c k off since t k' off' since' : Nat} {st first : Strm} {rest : List Strm} (hgoes : s.cellGoes c = true)
    (hp : s.stalledPost c st = some (k, off, since)) (hk : (s.cell c).rK k = 255) (ht : s.now ≤ t)
    (hlimit : since + us (if s.getF (UNIT_CTRL c) ctrlSTALL = 0 then 2000 else s.getF (UNIT_CTRL c) ctrlSTALL) ≤ t)
    (hsince : s.stalledSince c since = first :: rest) (hfirst : s.stalledPost c first = some (k', off', since')) :
    tokenStall c st t s = (if rest = [] then s.at t else (s.at t).setF (UNIT_STATUS c) stMULTI 1).cellError c errStall first off' := by
  have hrun : (s.at t).unitState c = stRunning := State.unitState_of_cellGoes hgoes
  have hp' : (s.at t).stalledPost c st = some (k, off, since) := hp
  have hfirst' : (s.at t).stalledPost c first = some (k', off', since') := hfirst
  have hsince' : (s.at t).stalledSince c since = first :: rest := hsince
  have hk' : ((s.at t).cell c).rK k = 255 := hk
  have hl : (s.at t).getF (UNIT_CTRL c) ctrlSTALL = s.getF (UNIT_CTRL c) ctrlSTALL := rfl
  simp only [tokenStall, hp']
  rw [if_neg (by simp [hrun, max_eq_right ht, hk', hl, Nat.not_lt.2 hlimit])]
  simp only [hsince', List.headD_cons, hfirst', List.length_cons]
  cases rest <;> simp

/-- Settles O19: one lemma above for each command; a released cell goes on by definition. -/
theorem streamControlResults : Obligations.StreamControlResults := by
  unfold Obligations.StreamControlResults
  intro s c st x q hgoes hc
  refine ⟨?_, ?_, ?_, ?_, ?_⟩
  · intro e i w tk ds u n he hbegun hstall hckpt htok henc hst
    exact next_eq (streamBegin_begins hgoes hc he hbegun hstall hckpt htok henc hst)
  · intro e r w hq hdone hstall hans hbad
    have hcomplete := streamComplete_done hgoes hc hq hdone hstall hans hbad
    refine ⟨fun hp => next_eq (hcomplete.trans ?_), fun hp hk => next_eq (hcomplete.trans ?_),
      fun hp hk => next_eq (hcomplete.trans ?_)⟩
    · exact if_neg (by rw [hp]; decide)
    · exact (if_pos hp).trans (if_pos hk)
    · exact (if_pos hp).trans (if_neg (by rw [hk]; decide))
  · intro k off since hp hk
    exact next_eq (postStallRelease_posts hgoes hp hk)
  · intro k off since t first rest k' off' hp hk ht hlimit hsince hfirst
    exact next_eq (tokenStall_errs hgoes hp hk ht hlimit hsince hfirst)
  · intro b hb
    refine next_eq ?_
    simp only [barRelease, show (s.cell c).bar = .released b from hb, hgoes]
    rfl

end Sys2Proof.Machine


/-! PROOFS. Control of a unit by its registers -/

namespace Sys2Proof.Machine

set_option Elab.async false

/-- A write of a register at another address than UNIT_STATUS leaves the unit's state. -/
theorem State.unitState_setF (s : State) {a u : Nat} {f : FD} (v : Nat) (h : a ≠ UNIT_STATUS u) (hf : f.lo < 64 := by decide) :
    (s.setF a f v).unitState u = s.unitState u :=
  State.getF_setF_addr s v h hf

/-- A write of a register leaves the partition of a unit unless it goes to UNIT_PART. -/
theorem State.partOf_setF (s : State) {a u : Nat} {f : FD} (v : Nat) (h : a ≠ UNIT_PART u) (hf : f.lo < 64 := by decide) :
    (s.setF a f v).partOf u = s.partOf u :=
  State.getF_setF_addr s v h hf

theorem State.unitState_snap (s : State) (u : Nat) {f : FD} (v : Nat) (hf : f.lo < 64 := by decide) :
    (s.setF (UNIT_SNAP u) f v).unitState u = s.unitState u :=
  s.unitState_setF v (by simp [UNIT_SNAP, UNIT_STATUS]) hf

theorem State.clrF_cells (s : State) (a : Nat) (f : FD) : (s.clrF a f).cells = s.cells := rfl

theorem State.abandon_cells (s : State) {u : Nat} (hu : u < 48) : (s.abandon u).cells = s.cells := by
  simp [State.abandon, State.engClear, State.engDone, State.dropRegs, hu]

theorem State.loadF_cells (s : State) (a : Nat) (fs : List FD) (w : Nat) : (s.loadF a fs w).cells = s.cells :=
  foldl_cells (fun t _ => State.setF_cells t ..) fs s

theorem State.ctrlFields_cells (s : State) (who : Who) (u w : Nat) : (s.ctrlFields who u w).cells = s.cells := by
  unfold State.ctrlFields
  split
  · exact State.loadF_cells ..
  · rfl

/-- A write of UNIT_CTRL leaves the unit's state. -/
theorem State.unitState_ctrlFields (s : State) (who : Who) (u w : Nat) : (s.ctrlFields who u w).unitState u = s.unitState u := by
  unfold State.ctrlFields
  split
  · refine foldl_keeps (R := fun t : State => t.unitState u) (fun t f hf => t.unitState_setF _ (by simp [UNIT_CTRL, UNIT_STATUS]) ?_) s
    revert f
    decide
  · rfl

/-- Fields of one register brought to their reset values. -/
theorem State.clrFs_cell (s : State) (a : Nat) (fs : List FD) (c : Nat) : (fs.foldl (fun s f => s.clrF a f) s).cell c = s.cell c :=
  State.cell_of_cells (foldl_cells (fun t f => t.clrF_cells a f) fs s) c

theorem State.unitState_clrFs (s : State) {a u : Nat} (fs : List FD) (h : a ≠ UNIT_STATUS u) (hf : ∀ f ∈ fs, f.lo < 64) :
    (fs.foldl (fun s f => s.clrF a f) s).unitState u = s.unitState u :=
  foldl_keeps (R := fun t : State => t.unitState u) (fun t f h' => t.unitState_setF _ h (hf f h')) s

/-- The part of UNIT_RESET that every unit has. -/
def State.resetStatus (s : State) (u : Nat) : State :=
  ([stMULTI, stSTREAM, stCODE, stNSC, stSAT, stUNF, stOVF, stINV, stSTATE].foldl
    (fun s f => s.clrF (UNIT_STATUS u) f) (s.abandon u)).setUnitState u
      (if s.unitState u = stFenced ∨ s.unitState u = stOut then s.unitState u else stIdle)

/-- The registers of a cell that UNIT_RESET clears, but its windows. -/
def State.resetCellRegs (s : State) (u : Nat) : State :=
  ([snapFAIL, snapADDR, snapSTATUS].foldl (fun s f => s.clrF (UNIT_SNAP u) f)
    ([ctrlPLEN, ctrlPBASE, ctrlSTALL, ctrlENABLE].foldl (fun s f => s.clrF (UNIT_CTRL u) f) s)).setF (UNIT_SIG u) sigSIG 0

theorem State.unitReset_of_cell (s : State) {u : Nat} (hu : u < 48) :
    s.unitReset u = (List.range 16).foldl (fun s n => s.setF (winCtl u n) winOPEN 0)
      ((((s.resetStatus u).dropSnaps u).setCell u { Cell.reset with
        prog := (((s.resetStatus u).dropSnaps u).cell u).prog,
        storeSeq := (((s.resetStatus u).dropSnaps u).cell u).storeSeq }).resetCellRegs u) :=
  if_pos hu

theorem State.resetStatus_cell (s : State) {u : Nat} (hu : u < 48) (c : Nat) : ((s.resetStatus u).dropSnaps u).cell c = s.cell c := by
  refine State.cell_of_cells ?_ c
  rw [State.dropSnaps, State.setUnit_cells, State.resetStatus, State.setUnitState, State.setF_cells,
    foldl_cells (fun t f => t.clrF_cells (UNIT_STATUS u) f), s.abandon_cells hu]

theorem State.resetCellRegs_cell (s : State) (u c : Nat) : (s.resetCellRegs u).cell c = s.cell c :=
  (State.clrFs_cell _ _ _ c).trans (State.clrFs_cell s _ _ c)

theorem State.resetCellRegs_state (s : State) (u : Nat) : (s.resetCellRegs u).unitState u = s.unitState u := by
  unfold State.resetCellRegs
  rw [State.unitState_setF _ _ (by simp [UNIT_SIG, UNIT_STATUS]),
    State.unitState_clrFs _ _ (by simp [UNIT_SNAP, UNIT_STATUS]) (by decide),
    State.unitState_clrFs _ _ (by simp [UNIT_CTRL, UNIT_STATUS]) (by decide)]

/-- What UNIT_RESET leaves of a cell. -/
theorem State.unitReset_cell (s : State) {u : Nat} (hu : u < 48) :
    (s.unitReset u).cell u = { Cell.reset with prog := (s.cell u).prog, storeSeq := (s.cell u).storeSeq } := by
  rw [s.unitReset_of_cell hu, State.cell_of_cells (foldl_cells (fun t _ => State.setF_cells t ..) ..), State.resetCellRegs_cell,
    State.cell_setCell_same, s.resetStatus_cell hu]

/-- UNIT_RESET leaves a cell IDLE; a fence and an exclusion stay. -/
theorem State.unitReset_state (s : State) {u : Nat} (hu : u < 48) :
    (s.unitReset u).unitState u = if s.unitState u = stFenced ∨ s.unitState u = stOut then s.unitState u else stIdle := by
  have hne : u ≠ 63 := by omega
  rw [s.unitReset_of_cell hu, foldl_keeps (R := fun t : State => t.unitState u)
      (fun t n _ => t.unitState_setF _ (by rw [winCtl_cell hne]; simp only [UNIT_STATUS]; omega)), State.resetCellRegs_state]
  rw [State.unitState, State.getF_setCell, State.dropSnaps, State.getF_setUnit, State.resetStatus, State.setUnitState, State.getF_setF_same]
  split
  · next h => rcases h with h | h <;> rw [h] <;> rfl
  · rfl

/-- What a read finds where depends on nothing that a write of UNIT_PVALID changes. -/
theorem State.readFails_pvalid (s : State) {u : Nat} (hu : u < 48) (v point p a n : Nat) :
    (s.setF (UNIT_PVALID u) pvalidPAGES v).readFails point p a n = s.readFails point p a n := by
  have hmc : (s.setF (UNIT_PVALID u) pvalidPAGES v).getF MC_STATUS mcCHOK = s.getF MC_STATUS mcCHOK :=
    State.getF_setF_addr s v (by simp only [UNIT_PVALID, unitBlk, MC_STATUS, mcBase]; omega)
  unfold State.readFails State.lineBad State.lineOut
  rw [hmc]
  rfl

theorem State.bytes_of_mem {s t : State} (h : t.mem = s.mem) (a n : Nat) : t.bytes a n = s.bytes a n := by
  simp only [State.bytes, State.byte_of_mem h]

/-- Words set one after the other from place `d` on read as they were set. -/
theorem Tab.get_foldl_set {α : Type} [DecidableEq α] (z : α) (g : Nat → α) (d n : Nat) (m : Tab α) {i : Nat} (hi : i < n) :
    Tab.get z ((List.range n).foldl (fun p i => Tab.set z p (d + i) (g i)) m) (d + i) = g i :=
  foldl_changes_once (R := fun p : Tab α => Tab.get z p (d + i)) (g := fun _ => g i) (List.mem_range.mpr hi) List.nodup_range
    (fun _ => Tab.get_set_same) (fun _ _ _ hne => Tab.get_set_ne (by omega)) m

/-- An operation of UNIT_SNAP that its writer may start runs where none is busy. -/
theorem State.snapOp_runs {s : State} {who : Who} {u w op : Nat} {f : State → State} (hr : s.snapRight who u op = some true)
    (hu : u < 48) (hop : snapOP.of w = op) (hbusy : s.getF (UNIT_SNAP u) snapSTATUS ≠ 1) :
    s.snapOp who u w op f = f (s.setF (UNIT_SNAP u) snapADDR (snapADDR.of w)) := by
  have hb : (s.setF (UNIT_SNAP u) snapADDR (snapADDR.of w)).getF (UNIT_SNAP u) snapSTATUS ≠ 1 := by
    rwa [State.getF_setF_lo]
  simp only [State.snapOp, hr, hop, ne_eq, not_true_eq_false, or_false]
  rw [if_neg (by omega), if_neg hb]
  rfl

/-- The address that an operation of UNIT_SNAP reads back is the one written. -/
theorem State.snapADDR_read (s : State) (u w : Nat) :
    (s.setF (UNIT_SNAP u) snapADDR (snapADDR.of w)).getF (UNIT_SNAP u) snapADDR = snapADDR.of w := by
  rw [State.getF_setF_same]
  exact Nat.mod_eq_of_lt (Nat.mod_lt _ (by decide))

theorem State.not_refused {s : State} {who : Who} {u : Nat} (h : who = .islandA ∨ s.isRuntimeOf who u = true) :
    ¬ (who ≠ .islandA ∧ (!s.isRuntimeOf who u) = true) := by
  rcases h with h | h <;> simp [h]

/-- Writing the image, its header last, where no access fails. -/
theorem State.snapWrite_ok {s : State} {c a : Nat} {body head : State × Bool} (hst : s.unitState c < stFenced)
    (hb : s.writeMem c (s.partOf c) (a + 64) ((byteList (s.imageBytes c 0)).drop 64) = body) (hbody : body.2 = false)
    (hh : body.1.writeMem c (body.1.partOf c) a ((byteList (s.imageBytes c 0)).take 64) = head) (hhead : head.2 = false) :
    s.snapWrite c a = head.1.snapEnd c 0 := by
  obtain ⟨b, eb⟩ := body
  obtain ⟨h, eh⟩ := head
  subst hbody hhead
  rw [State.snapWrite, if_neg (Nat.not_le_of_lt hst)]
  simp only [hb, hh]
  rfl

/-- SNAP of a permitted place on a cell in service. -/
theorem State.snapCell_runs {s : State} {who : Who} {c a : Nat} (hst : s.unitState c < stFenced)
    (hplace : s.snapPlaceOk who c a imageSize true = true) : s.snapCell who c a =
      if (s.endSteps c).asking c || decide (((s.endSteps c).unit c).pend ≠ []) then
        (((s.endSteps c).setUnit c { (s.endSteps c).unit c with pend := ((s.endSteps c).unit c).pend ++ [.snap who a] }).setF
          (UNIT_SNAP c) snapFAIL 0).setF (UNIT_SNAP c) snapSTATUS 1
      else (s.endSteps c).snapWrite c a := by
  rw [State.snapCell, if_neg (Nat.not_le_of_lt hst), if_neg (by simp [hplace])]

/-- RESTORE of a good image. -/
theorem State.restoreCell_loads {s : State} {who : Who} {c a : Nat} (hst : s.unitState c = stIdle ∨ s.unitState c = stStopped)
    (hplace : s.snapPlaceOk who c a imageSize false = true) (hread : s.readFails c (s.partOf c) a imageSize = false)
    (hmagic : s.rdAt a 0 4 = imageMagic) (hver : s.rdAt a 4 2 = 1) (hok : imageOk (s.rdAt a) = true) :
    s.restoreCell who c a = ((s.loadImage c (s.rdAt a) stStopped).setCell c { (s.loadImage c (s.rdAt a) stStopped).cell c with
      idleStop := decide (s.rdAt a 0x10 4 = 0), runs := if s.rdAt a 0x10 4 = 0 then none else some (s.rdAt a 0x10 4) }).snapEnd c 0 := by
  rw [State.restoreCell, if_neg (by tauto), if_neg (by rw [hplace]; decide), if_neg (by rw [hread]; decide), if_neg]
  rw [hok]
  rintro (h | h | h)
  · exact h hmagic
  · exact h hver
  · cases h

/-- The pages of the program store that a segment of `len` bytes at `dest` touches. -/
def segmentPages (dest len : Nat) : List Nat :=
  (List.range 64).filter (fun k => decide (dest < (k + 1) * 4096 ∧ k * 4096 < dest + len))

/-- The words of the segment at `a` in the program store of cell `u`, its pages not valid yet. -/
def State.ploadWords (s : State) (u a : Nat) : State :=
  let s1 := s.setF (UNIT_PVALID u) pvalidPAGES
    ((segmentPages (s.rdAt a 0xC 4) (s.rdAt a 8 4)).foldl clrBit (s.getF (UNIT_PVALID u) pvalidPAGES))
  let prog := (List.range (s.rdAt a 8 4 / 8)).foldl
    (fun p i => Tab.set 0 p (s.rdAt a 0xC 4 / 8 + i) (BitVec.ofNat 64 (s.rdAt a (64 + 8 * i) 8))) (s1.cell u).prog
  let s2 := s1.setCell u { s1.cell u with prog := prog }
  { s2 with ecc := s2.ecc.filter (fun (k, _) => !(decide (progWord u (s.rdAt a 0xC 4 / 8) ≤ k ∧
    k < progWord u ((s.rdAt a 0xC 4 + s.rdAt a 8 4) / 8)))) }

theorem State.ploadWords_mem (s : State) (u a : Nat) : (s.ploadWords u a).mem = s.mem := by
  simp only [State.ploadWords, State.setCell_mem, State.setF_mem]

theorem State.ploadWords_prog (s : State) (u a : Nat) {i : Nat} (hi : i < s.rdAt a 8 4 / 8) :
    Tab.get 0 ((s.ploadWords u a).cell u).prog (s.rdAt a 0xC 4 / 8 + i) = BitVec.ofNat 64 (s.rdAt a (64 + 8 * i) 8) := by
  refine (congrArg (fun x : Cell => Tab.get 0 x.prog (s.rdAt a 0xC 4 / 8 + i)) (State.cell_setCell_same ..)).trans ?_
  exact Tab.get_foldl_set 0 (fun i => BitVec.ofNat 64 (s.rdAt a (64 + 8 * i) 8)) (s.rdAt a 0xC 4 / 8) (s.rdAt a 8 4 / 8) _ hi

/-- PLOAD of a good segment that fits. -/
theorem State.ploadCell_loads (s : State) {u : Nat} (hu : u < 48) {a : Nat} (hplace : s.snapPlaceOk .islandA u a 64 false = true)
    (hread : s.readFails u (s.partOf u) a 64 = false) (hok : segmentOk (s.rdAt a) = true)
    (hplace2 : s.snapPlaceOk .islandA u a (64 + s.rdAt a 8 4) false = true)
    (hfit : s.segmentFits u (s.rdAt a 0xC 4) (s.rdAt a 8 4) (s.rdAt a 0x14 1) (s.rdAt a 0x15 1) = true)
    (hread2 : s.readFails u (s.partOf u) a (64 + s.rdAt a 8 4) = false)
    (hcrc : crc32c (s.bytes (a + 64) (s.rdAt a 8 4)) = s.rdAt a 0x10 4) :
    s.ploadCell u a = ((s.ploadWords u a).setF (UNIT_PVALID u) pvalidPAGES
      ((segmentPages (s.rdAt a 0xC 4) (s.rdAt a 8 4)).foldl setBit (s.getF (UNIT_PVALID u) pvalidPAGES))).snapEnd u 0 := by
  have hread2' : ∀ v, (s.setF (UNIT_PVALID u) pvalidPAGES v).readFails u ((s.setF (UNIT_PVALID u) pvalidPAGES v).partOf u)
      a (64 + s.rdAt a 8 4) = false := fun v => by
    rw [State.partOf_setF _ _ (by simp [UNIT_PVALID, UNIT_PART]), State.readFails_pvalid _ hu, hread2]
  have hcrc' : ¬ crc32c ((s.ploadWords u a).bytes (a + 64) (s.rdAt a 8 4)) ≠ s.rdAt a 0x10 4 := by
    rw [State.bytes_of_mem (s.ploadWords_mem u a)]
    exact not_not_intro hcrc
  unfold State.ploadCell
  simp only [hplace, hread, Bool.not_true, Bool.false_eq_true, if_false]
  rw [if_neg (by rw [hok]; decide), if_neg (by rw [hplace2]; decide), if_neg (by rw [hfit]; decide)]
  rw [if_neg (by rw [hread2']; decide)]
  exact if_neg hcrc'

/-- Settles O20: each command of a writer that may write the field, on a unit whose state lets it act, runs to the end of its
definition. -/
theorem unitControlResults : Obligations.UnitControlResults := by
  intro s who u w
  refine ⟨?_, ?_, ?_, ?_, ?_⟩
  · intro hu hw
    refine ⟨?_, fun hu => ⟨s.unitReset_cell hu, s.unitReset_state hu⟩⟩
    have : unitResetCmd .islandA u w s = s.unitReset u := by simp [unitResetCmd, hu, hw]
    exact next_eq this
  · intro hmay hu hj hr hc
    have : jobResetCmd who u w s = (s.ctrlFields who u w).jobReset u := by
      rw [jobResetCmd, if_neg (State.not_refused hmay), if_pos (by simp [hu, hj, hr, hc])]
    exact next_eq this
  · intro hmay hu hs hr hj hst
    have hc : s.ctrlClosed u = false := by simp [State.ctrlClosed, hst, stRunning, stFenced, stOut, stResetting]
    have : stopCmd who u w s = (s.ctrlFields who u w).stopCell u := by
      rw [stopCmd, if_neg (State.not_refused hmay), if_pos (by simp [hu, hs, hj, hr, hc])]
    refine next_eq (this.trans ?_)
    exact if_pos ((s.unitState_ctrlFields ..).trans hst)
  · intro hmay hu hs hr hj hstop hst
    have hc : s.ctrlClosed u = false := by simp [State.ctrlClosed, hst, stStopped, stFenced, stOut, stResetting]
    have : resumeCmd who u w s = (s.ctrlFields who u w).resumeCell u := by
      rw [resumeCmd, if_neg (State.not_refused hmay), if_pos (by simp [hu, hs, hj, hr, hstop, hc])]
    refine next_eq (this.trans ?_)
    rw [State.resumeCell, if_pos ((s.unitState_ctrlFields ..).trans hst), State.cell_of_cells (s.ctrlFields_cells who u w)]
  · intro a s1 hu hbusy
    refine ⟨?_, ?_, ?_⟩
    · intro e im body head hmay hop hst hplace hest
      have hright : s.snapRight who u 1 = some true := by
        rcases hmay with h | h <;> simp [State.snapRight, h]
      have hcmd : snapCmd who u w s = s1.snapCell who u a := by
        rw [snapCmd, State.snapOp_runs hright hu hop hbusy, State.snapADDR_read]
      have hst1 : s1.unitState u < stFenced := (s.unitState_snap u (f := snapADDR) _).symm ▸ hst
      have hrun := State.snapCell_runs hst1 hplace
      refine ⟨fun hask hpend hbody hhead => next_eq (hcmd.trans (hrun.trans ?_)), fun hask => next_eq (hcmd.trans (hrun.trans ?_))⟩
      · exact (if_neg (by rw [hask, hpend]; decide)).trans (State.snapWrite_ok hest rfl hbody rfl hhead)
      · exact if_pos (by rw [hask]; rfl)
    · intro img id hop hst hplace hread hmagic hver hok
      have hcmd : restoreCmd .islandA u w s = s1.restoreCell .islandA u a := by
        rw [restoreCmd, State.snapOp_runs rfl hu hop hbusy, State.snapADDR_read]
      have hst1 : s1.unitState u = stIdle ∨ s1.unitState u = stStopped := (s.unitState_snap u (f := snapADDR) _).symm ▸ hst
      exact next_eq (hcmd.trans (State.restoreCell_loads hst1 hplace hread hmagic hver hok))
    · intro rd len dest pages hop hplace hread hok hplace2 hfit hread2 hcrc
      have hcmd : ploadCmd .islandA u w s = s1.ploadCell u a := by
        rw [ploadCmd, State.snapOp_runs rfl hu hop hbusy, State.snapADDR_read]
      have hload := s1.ploadCell_loads hu hplace hread hok hplace2 hfit hread2 hcrc
      have hne : UNIT_SNAP u ≠ UNIT_PVALID u := by simp [UNIT_SNAP, UNIT_PVALID]
      refine ⟨_, next_eq (hcmd.trans hload), fun i hi => ?_, ?_, State.getF_setF_same ..⟩
      · rw [State.snapEnd, State.cell_setF, State.cell_setF, State.cell_setF]
        exact s1.ploadWords_prog u a hi
      · rw [State.snapEnd, State.getF_setF_addr _ _ hne, State.getF_setF_addr _ _ hne, State.getF_setF_same,
          State.getF_setF_addr s _ hne]
        rfl

end Sys2Proof.Machine


/-! PROOFS. Arrivals at barriers -/

namespace Sys2Proof.Machine

set_option Elab.async false

/-- A cell whose wait at barrier `b` ends with `w`. -/
def Cell.endWait (y : Cell) (b : Nat) (w : BarWait) : Cell := if y.bar = .waiting b then { y with bar := w } else y

theorem State.endWaits_cell (s : State) (b : Nat) (w : BarWait) {c : Nat} (hc : c < 48) :
    (s.endWaits b w).cell c = (s.cell c).endWait b w := by
  unfold State.endWaits
  rw [State.cell_of_cells (foldl_cells (fun t _ => State.setUnit_cells t ..) ..)]
  refine foldl_changes_once (R := fun t : State => t.cell c) (g := fun y => y.endWait b w) (List.mem_range.mpr hc)
    List.nodup_range (fun t => ?_) (fun t y _ hy => ?_) s
  · simp only [Cell.endWait]
    split
    · exact State.cell_setCell_same ..
    · rfl
  · dsimp only
    split
    · exact State.cell_setCell_ne t _ hy
    · rfl

theorem State.endWaits_barriers (s : State) (b : Nat) (w : BarWait) : (s.endWaits b w).barriers = s.barriers := by
  unfold State.endWaits
  refine (foldl_keeps (R := State.barriers) (fun t _ _ => State.setUnit_barriers t ..) _).trans
    (foldl_keeps (R := State.barriers) (fun t y _ => ?_) s)
  dsimp only
  split
  · exact State.setCell_barriers ..
  · rfl

theorem State.countLast_cells (s : State) (slot : Nat) : (s.countLast slot).cells = s.cells := by
  unfold State.countLast
  dsimp only
  split
  · rfl
  · split
    · split <;> rfl
    · rfl

theorem State.countLast_barriers (s : State) (slot : Nat) : (s.countLast slot).barriers = s.barriers := by
  unfold State.countLast
  dsimp only
  split
  · rfl
  · split
    · split <;> rfl
    · rfl

/-- A completed phase: nobody is in ARRIVED, the last slot is recorded (03 R61). -/
theorem State.barComplete_barrier (s : State) (b slot : Nat) :
    (s.barComplete b slot).barrier b = { s.barrier b with arrived := 0, lastSlot := slot, lastValid := true } := by
  have hb : (s.barComplete b slot).barriers =
      (s.setBarrier b { s.barrier b with arrived := 0, lastSlot := slot, lastValid := true }).barriers := by
    rw [State.barComplete, State.endWaits_barriers]
    split
    · rfl
    · rw [State.countLast_barriers, State.sil1_barriers]
  rw [State.barrier, hb]
  exact State.barrier_setBarrier_same ..

/-- A completed phase releases the cells that wait at its barrier (03 R62). -/
theorem State.barComplete_cell (s : State) (b slot : Nat) {c : Nat} (hc : c < 48) :
    (s.barComplete b slot).cell c = (s.cell c).endWait b (.released b) := by
  rw [State.barComplete, State.endWaits_cell _ _ _ hc]
  refine congrArg (fun y : Cell => y.endWait b (.released b)) (State.cell_of_cells ?_ c)
  split
  · rfl
  · rw [State.countLast_cells, State.sil1_cells, State.setBarrier_cells]

/-- An arrival of a member that has not arrived, at a barrier that holds none for its next phase. -/
theorem State.arrive_enters {s : State} {b slot p : Nat} (hm : bit (s.barrier b).members slot = true) (ho : (s.barrier b).owner = p)
    (hb : (s.barrier b).broken = false) (ha : bit (s.barrier b).arrived slot = false) (hh : (s.barrier b).held = []) :
    s.arrive b slot p = (s.barEnter b slot, .arrived) := by
  have hheld : ((s.barEnter b slot).barrier b).held = [] := by
    rw [State.barEnter]
    split
    · rw [State.barComplete_barrier, State.barrier_setBarrier_same]
      exact hh
    · rw [State.barrier_setBarrier_same]
      exact hh
  simp only [State.arrive, hm, ho, hb, ha, Bool.not_true, ne_eq, not_true_eq_false, decide_false, Bool.or_self, Bool.false_eq_true,
    if_false, hheld]
  rfl

/-- Settles O21: the arrival is entered, completing the phase where it is the last; engines and harts arrive by it. -/
theorem barrierArrivals : Obligations.BarrierArrivals := by
  refine ⟨?_, ?_, ?_⟩
  · intro s b slot p x hm ho hb ha hh
    refine ⟨s.barEnter b slot, State.arrive_enters hm ho hb ha hh, fun hne => if_neg hne, fun heq => ?_⟩
    have hcomplete : s.barEnter b slot = (s.setBarrier b { x with arrived := setBit x.arrived slot }).barComplete b slot :=
      if_pos heq
    rw [hcomplete, State.barComplete_barrier]
    refine ⟨rfl, rfl, rfl, fun c hc hw => ?_⟩
    rw [State.barComplete_cell _ _ _ hc]
    exact congrArg Cell.bar (if_pos hw)
  · intro s u it b hlo hhi hst hit hty hun hm ho hb
    have harr := State.arrive_admitted hm ho hb
    have : arriveCmd u s = ((s.arrive b u (s.partOf u)).1.setUnitState u stIdle).endItem u 0 id := by
      rw [arriveCmd, if_neg (by simp only [hst]; omega), hit]
      refine (if_neg (by simp [hty, hun])).trans ?_
      generalize s.arrive b u (s.partOf u) = r at harr ⊢
      obtain ⟨t, a⟩ := r
      cases harr
      rfl
    exact next_eq this
  · intro s who p w b hwho hp hm ho hb
    have harr := State.arrive_admitted hm ho hb
    have : barHart who p w s = (((s.arrive b 63 p).1.setF (BAR_HART p) bhREFUSED 0).setF (BAR_HART p) bhLAST (b + 1)).setF
        (BAR_HART p) bhBROKEN 0 := by
      have hrun : barHart who p w s = (match s.arrive b 63 p with
          | (s, r) => ((s.setF (BAR_HART p) bhREFUSED (b2n (decide (r = .refused)))).setF (BAR_HART p) bhLAST
            (if r = .refused then 0 else b + 1)).setF (BAR_HART p) bhBROKEN (b2n (decide (r = .broken)))) := by
        rcases hwho with rfl | rfl
        all_goals
          refine (if_neg (Nat.not_le_of_lt hp)).trans (if_neg ?_)
          simp
      rw [hrun]
      generalize s.arrive b 63 p = r at harr ⊢
      obtain ⟨t, a⟩ := r
      cases harr
      rfl
    exact next_eq this

/-! What arrives at a window, and the window registers. -/

theorem State.msgs_of_nextMsg {s : State} {n k : Nat} {m : Msg} (h : s.nextMsg n k = some m) : s.msgs[n]? = some m := by
  unfold State.nextMsg at h
  split at h
  · cases h
  · next m' hm =>
    split at h
    · rw [hm, h]
    · cases h

theorem State.msgSrc_of_nextMsg {s : State} {n k : Nat} {m : Msg} (h : s.nextMsg n k = some m) : s.msgSrc n = m.src := by
  rw [State.msgSrc, State.msgs_of_nextMsg h]

/-- A remote write that its judgement accepts. -/
theorem remoteWriteArrival_accepted {s : State} {n : Nat} {m : Msg} {a : Nat} {bs : List Byte} (hm : s.nextMsg n 0 = some m)
    (hb : m.body = .write a bs) (hj : (s.judgeWrite m a bs.length).2 = 0) :
    let w := (s.judgeWrite m a bs.length).1
    let off := m.tag * s.laneLen m.dst w
    let d := s.dropMsg n
    let d := if s.getF (winCtl m.dst w) winMODE = 1 then d.setWinHold m.dst w { s.winHold m.dst w with
        written := (s.winHold m.dst w).written.insert (((winOffset m.dst a).2 + off) / 64) } else d
    let put := d.writeWords (a + off) bs
    remoteWriteArrival n s = if put.2 then put.1.tell m.src m.ins (memErr (a + off)) else put.1 := by
  intro w off d0 d put
  have hput : remoteWriteArrival n s = (match put with
      | (s, true) => s.tell m.src m.ins (memErr (a + off))
      | (s, false) => s) := by
    simp only [remoteWriteArrival, hm, hb]
    refine (if_pos hj).trans ?_
    rfl
  rw [hput]
  obtain ⟨t, bad⟩ := put
  cases bad <;> rfl

/-- Settles O22: the message at the front of its class is dropped, and what the judgement accepts takes effect. -/
theorem arrivalsAtWindows : Obligations.ArrivalsAtWindows := by
  intro s n m
  refine ⟨?_, ?_, ?_, ?_⟩
  · intro a bs w off d0 d put hm hb hj
    have hrun : (remoteWriteArrival n s).settle (s.msgSrc n) =
        (if put.2 then put.1.tell m.src m.ins (memErr (a + off)) else put.1).settle m.src := by
      rw [remoteWriteArrival_accepted hm hb hj, State.msgSrc_of_nextMsg hm]
    exact next_eq hrun
  · intro w hm hb hj hw
    have hrun : (commitArrival n s).settle (s.msgSrc n) = ((s.dropMsg n).winAdvanceOr m.dst w m.tag m.src m.ins).settle m.src := by
      rw [State.msgSrc_of_nextMsg hm]
      simp [commitArrival, hm, hb, hj, hw]
    exact next_eq hrun
  · intro w lane hm hb hf hmode hopen hlane hseal hw
    have hrun : releaseArrival n s = (s.dropMsg n).winAdvanceOr m.dst w lane 64 0 := by
      simp [releaseArrival, hm, hb, hf, hmode, hopen, hseal, hw, Nat.not_le_of_lt hlane]
    exact next_eq hrun
  · intro c w lane src ins hw hk
    have hrun : generationTokenWait c w s = s.winAdvance c w lane := by
      simp [generationTokenWait, hw, hk]
    exact next_eq hrun

/-- Settles O23: the writer, the window and the word are checked in turn, and a runtime is refused first. -/
theorem windowRegisterWrites : Obligations.WindowRegisterWrites := by
  intro s who u win w hwin
  have hex : winExists u win = true := by
    rcases hwin with ⟨hu, hn⟩ | ⟨rfl, hn⟩
    · simp [winExists, hu, hn]
    · simp [winExists, hn]
  refine ⟨fun hwho => ?_, fun p hp => ?_⟩
  · have hw : winWriter who u = true := by
      rcases hwho with rfl | ⟨rfl, rfl⟩ <;> rfl
    refine ⟨fun hop hl hm hr => next_eq ?_, fun hop hl hm => next_eq ?_, next_eq ?_⟩
    · simp [winCtlOpen, hw, hex, hop, hl, hm, hr]
    · simp [winCtlClose, hw, hex, hop, hl, hm]
    · simp [winMaskWrite, hw, hex]
  · subst hp
    exact ⟨rfl, rfl, rfl⟩

end Sys2Proof.Machine


/-! PROOFS. Queues: doorbells, software tails and heads -/

namespace Sys2Proof.Machine

set_option Elab.async false

/-- A push of 64 bytes by island A or a partition, at a queue in use that takes pushes. -/
theorem State.pushHere_takes {s : State} {q : Nat} {bs : List Nat} {by_ : Pusher} (hby : s.mayPush q by_ = true)
    (he : s.qEn q = true) (hm : s.flag (qCtl q) qPMODE = false) :
    (s.pushHere q bs by_).1 = if s.qFull q then s.qDrop q else s.qAppend q bs (decide (by_ = .island)) := by
  cases by_ with
  | enq p => cases hby
  | init p =>
    obtain ⟨hp, hf⟩ : s.qPart q = p ∧ isFeed q = false := by simpa [State.mayPush] using hby
    cases hfull : s.qFull q <;> simp [State.pushHere, hp, hf, he, hm, hfull]
  | island =>
    cases hfull : s.qFull q <;> simp [State.pushHere, he, hm, hfull]

/-- A push by another partition is refused. -/
theorem State.pushHere_other {s : State} {q p : Nat} (bs : List Nat) (h : s.qPart q ≠ p) :
    (s.pushHere q bs (.init p)).1 = s.refuseAccess := by
  simp [State.pushHere, h]

/-- The writers that the statement admits at queue `q'` of partition `p` push in a right of their own. -/
theorem pusherOf_admitted {s : State} {who : Who} {q' p : Nat} (hp : s.qPart q' = p)
    (h : who = .islandA ∨ (who = .runtime p ∨ who = .user p) ∧ isFeed q' = false) :
    ∃ b, pusherOf who = some b ∧ s.mayPush q' b = true ∧ decide (b = .island) = decide (who = .islandA) := by
  rcases h with rfl | ⟨rfl | rfl, hf⟩
  · exact ⟨.island, rfl, rfl, rfl⟩
  · exact ⟨.init p, rfl, by simp [State.mayPush, hp, hf], rfl⟩
  · exact ⟨.init p, rfl, by simp [State.mayPush, hp, hf], rfl⟩

theorem pushCmd_64 {who : Who} {q : Nat} {l : List Nat} {s : State} {b : Pusher} (hq : q < 16640) (hb : pusherOf who = some b)
    (hl : l.length = 64) : pushCmd who q l s = (s.push q l b).1 := by
  rw [pushCmd, if_neg (Nat.not_le_of_lt hq), hb]
  exact if_neg (not_not_intro hl)

/-- A push arrives at the queue that forwarding reaches. -/
theorem State.push_forwarded {s : State} {q : Nat} (bs : List Nat) (by_ : Pusher)
    (h : s.flag (qCtl q) qRDRV = true → s.flag (qCtl (s.qTarget q)) qRDRV = false) :
    s.push q bs by_ = s.pushHere (s.qTarget q) bs by_ := by
  unfold State.push
  split
  case isTrue hf =>
    have htarget : s.qTarget q = s.getF (qCtl q) qREDIRECT := if_pos hf
    rw [htarget] at h ⊢
    exact if_neg (by rw [h hf]; decide)
  case isFalse hf =>
    have htarget : s.qTarget q = q := if_neg hf
    rw [htarget]

/-- A tail that keeps the rules becomes TAIL. -/
theorem State.swTail_keeps {s : State} {q : Nat} {l : List Nat} (he : s.qEn q = true) (hm : s.flag (qCtl q) qPMODE = true)
    (hl : l.length = 8) (hn : newer 32 (s.qTailOf q) (leOf (l.take 4)) = false)
    (hd : subMod 32 (leOf (l.take 4)) (s.qHead q) ≤ s.qDepth q) :
    s.swTail q 0 l = { s with
      qIsland := (List.range (subMod 32 (leOf (l.take 4)) (s.qTailOf q))).foldl
        (fun m i => Tab.set false m (65536 * q + (s.qTailOf q + i) % s.qDepth q) false) s.qIsland }.setF (qTail q) qTAIL
          (leOf (l.take 4)) := by
  refine if_neg ?_
  simp [he, hm, hl, hn, Nat.not_lt_of_le hd]

/-- Settles O24: a push lands at the queue that forwarding reaches, and a head or tail in its range is taken. -/
theorem queueRegisterResults : Obligations.QueueRegisterResults := by
  intro s q p q' admits hq
  refine ⟨fun hfwd he hp => ⟨fun who l hwho hl hm => ?_, fun l r hl hr => ?_, fun who l => ?_⟩, fun w who hwho => ?_⟩
  · obtain ⟨b, hb, hmay, hisl⟩ := pusherOf_admitted hp hwho
    have hrun : pushCmd who q l s = if s.qFull q' then s.qDrop q' else s.qAppend q' l (decide (who = .islandA)) := by
      rw [pushCmd_64 hq hb hl, State.push_forwarded _ _ hfwd, State.pushHere_takes hmay he hm, hisl]
    exact ⟨fun hf => next_eq (hrun.trans (by rw [hf]; rfl)), fun hf => next_eq (hrun.trans (by rw [hf]; rfl))⟩
  · have hrun : pushCmd (.runtime r) q l s = s.refuseAccess := by
      rw [pushCmd_64 hq rfl hl, State.push_forwarded _ _ hfwd, State.pushHere_other l (hp ▸ hr.symm)]
    exact next_eq hrun
  · intro v t hwho hl hm hn hd
    obtain ⟨b, hb, hmay, _⟩ := pusherOf_admitted hp hwho
    have hfwd' : (s.flag (qCtl q) qRDRV && s.flag (qCtl q') qRDRV) = false := by
      cases hr : s.flag (qCtl q) qRDRV with
      | false => rfl
      | true => exact hfwd hr
    have hrun : swTailWrite who q 0 l s = s.swTail q' 0 l := by
      rw [swTailWrite, if_neg (Nat.not_le_of_lt hq), hb]
      refine (if_neg (by rw [hfwd']; decide)).trans (if_pos hmay)
    exact next_eq (hrun.trans (State.swTail_keeps he hm hl hn hd))
  · intro v h1 h2 h3 h4
    have hok : (!newer 32 (s.qHead q) v && !newer 32 v (s.qTailOf q) &&
        decide (subMod 32 v (s.qHead q) ≠ 2 ^ 31 ∧ subMod 32 (s.qTailOf q) v ≠ 2 ^ 31)) = true := by
      rw [h1, h2, decide_eq_true (And.intro h3 h4)]
      rfl
    have hrun : qcfgHeadWrite who q w s = s.setF (qPtr q) qHEAD v := by
      refine (if_neg (Nat.not_le_of_lt hq)).trans ?_
      rcases hwho with rfl | ⟨rfl, hpart, hcq⟩
      · exact if_pos hok
      · exact (if_neg (not_not_intro hpart)).trans (if_pos (by rw [hok, hcq]; rfl))
    exact next_eq hrun

/-! Work items and completions. -/

theorem not_decide_iff {P : Prop} [Decidable P] : (!decide P) = true ↔ ¬ P := by
  simp

/-- Settles O25: the front entry is read and bound, or passed over; the oldest completion is posted. -/
theorem workTakenAndCompleted : Obligations.WorkTakenAndCompleted := by
  intro s u t s1
  refine ⟨?_, ?_, ?_, ?_⟩
  · intro q it n a hmay hq hread hit s2 hbad hdl s3
    have hrun : workItemTake u t s = if u < 48 then s3.startCell u it
        else if it.type = 1 then (s3.setUnitState u stRunning).setBusy u 1 else s3.setUnitState u stRunning := by
      subst hit
      rw [workItemTake, if_neg (by rw [hmay]; decide), hq]
      refine (if_neg (by rw [hread]; decide)).trans ?_
      refine (if_neg (by rw [hbad]; decide)).trans ?_
      exact if_neg (by rw [hdl]; decide)
    exact next_eq hrun
  · intro it hu
    have hc : (s.startCell u it).cell u = _ := State.cell_setCell_same ..
    rw [hc]
    exact ⟨rfl, Cell.rA_wA_same .., Cell.rS_wS_same .., rfl, rfl, rfl, State.getF_setF_same ..⟩
  · intro q n a hmay hq hread s2
    have hrun : unreadableEntry u s = (s2.event 33).notice (s2.qPart q) (s2.jobState (s2.getF (qCtl q) qJIDX)) (s2.getF (qCtl q) qJIDX) 4
        (s2.getF (JOB_STAT (s2.getF (qCtl q) qJIDX)) jsJOBID) n q := by
      rw [unreadableEntry, if_neg (by rw [hmay]; decide), hq]
      exact if_neg (by rw [hread]; decide)
    exact next_eq hrun
  · intro p rest hc hun hst s2a s2 p' s3
    have hrun : completionPush u t s = if p'.status = 1 ∧ ¬(u < 48 ∧ s3.flag (UNIT_RG u) rgV = true) then s3.jobFault p'.item.jidx
        else s3 := by
      simp only [completionPush]
      rw [hc]
      refine (if_neg (by rw [hun]; simpa using hst)).trans ?_
      exact if_congr (and_congr_right' not_decide_iff) rfl rfl
    exact next_eq hrun

/-! The frame schedule. -/

theorem State.slotSwitch_switches {s : State} {u : Nat} {e : SchedEnt} (hu : u < 48) (hst : s.unitState u < stFenced)
    (hne : s.jobOf u ≠ (if e.blotter then 0xFF else e.jidx) ∨ s.flag (UNIT_PART u) upBLOTTER ≠ e.blotter)
    (hask : (s.endSteps u).asking u = false) (hpend : ((s.endSteps u).unit u).pend = []) :
    s.slotSwitch u e = (s.endSteps u).switchCell u e := by
  refine (if_neg (by tauto)).trans ((if_pos hu).trans ?_)
  rw [if_neg (Nat.not_le_of_lt hst)]
  exact if_neg (by rw [hask, hpend]; decide)

/-- An item of another job than the one in progress ends with status 4. -/
theorem State.cutCell_other {s : State} {u j : Nat} {it : WorkItem} (hj : j ≠ s.itemJob u)
    (hit : Tab.find (s.unit u).binds j = some it) :
    ((s.cutCell u j).unit u).comps = (s.unit u).comps ++ [{ item := it, status := 4 }] := by
  have hown : decide (j = s.itemJob u) = false := decide_eq_false hj
  simp only [State.cutCell, hown, Bool.false_eq_true, if_false, hit]
  rw [State.unit_setUnit_same]

/-- The item in progress ends with status 4 after a job reset. -/
theorem State.cutCell_own {s : State} {u : Nat} {it : WorkItem}
    (hit : Tab.find ((s.endSteps u).unit u).binds (s.itemJob u) = some it) :
    ((s.cutCell u (s.itemJob u)).unit u).comps = (((s.endSteps u).jobReset u).unit u).comps ++ [{ item := it, status := 4 }] := by
  simp only [State.cutCell, decide_true, if_true, hit]
  rw [State.unit_setUnit_same]

/-- Settles O26: each instant of the schedule acts as its window, its mode and the unit's state say. -/
theorem scheduleResults : Obligations.ScheduleResults := by
  intro s u t hu s1 x m
  have hslot : slotBoundary u t s = s1.slotSwitch u (s1.entryNow u) := if_neg (Nat.not_le_of_lt hu)
  refine ⟨next_eq hslot, ?_, ?_, ?_, ?_, ?_⟩
  · intro e hc hpend hst he hne hask hpend'
    subst he
    exact next_eq (hslot.trans (State.slotSwitch_switches hc hst hne hask hpend'))
  · intro hsl hnow s2 s3
    have hrun : frameSelfWrap u t s = if m + 1 = 3 then s3.raiseSafe 2 else s3 := by
      refine if_neg ?_
      rintro (h | h | h)
      · exact absurd hu (Nat.not_lt_of_le h)
      · exact absurd (h.symm.trans hsl) (by decide)
      · exact absurd hnow (Nat.not_le_of_lt h)
    exact next_eq hrun
  · intro seq h1 h2
    have hin : decide (x.frameAt + ms 25 ≤ s1.now + us 1 ∧ s1.now ≤ x.frameAt + ms 25 + us 1) = true := decide_eq_true ⟨h1, h2⟩
    have hrun : frameStartReceive u seq t s =
        ((s1.beginFrame u seq).setF (UNIT_PART u) upALIGNED 1).setF (UNIT_PART u) upMISSED 0 := by
      refine (if_neg (Nat.not_le_of_lt hu)).trans ((if_neg ?_).trans (if_pos hin))
      rw [hin]
      exact Bool.false_ne_true
    exact next_eq hrun
  · intro seq hout hm hsl
    have hin : decide (x.frameAt + ms 25 ≤ s1.now + us 1 ∧ s1.now ≤ x.frameAt + ms 25 + us 1) = false := by
      refine decide_eq_false ?_
      simp only [ms, us]
      omega
    have hrun : frameStartReceive u seq t s = s1.event 5 := by
      refine (if_neg (Nat.not_le_of_lt hu)).trans (if_pos ?_)
      rw [hin, hsl, decide_eq_true hm]
      rfl
    exact next_eq hrun
  · intro due hst
    have hopen : ¬ (u ≥ 63 ∨ s1.unitState u ≥ stFenced) := by
      rintro (h | h)
      · exact absurd hu (Nat.not_lt_of_le h)
      · exact absurd hst (Nat.not_lt_of_le h)
    refine ⟨fun hc hdue => ?_, fun hc => ?_, fun j it hj hit => State.cutCell_other hj hit, ?_⟩
    · have hrun : deadlineExpiry u t s = s1.cutEngine u 4 :=
        (if_neg hopen).trans ((if_neg (Nat.not_lt_of_le hc)).trans (if_pos hdue))
      exact next_eq hrun
    · have hrun : deadlineExpiry u t s = due.foldl (fun s b => s.cutCell u b.1) s1 := (if_neg hopen).trans (if_pos hc)
      exact next_eq hrun
    · intro it e hit
      exact State.cutCell_own hit

end Sys2Proof.Machine


/-! PROOFS. Maintenance of memory -/

namespace Sys2Proof.Machine

set_option Elab.async false

/-- The first byte of an access lies in the scratchpad that the access lies in. -/
theorem place_spad_first {a n c : Nat} (h : place a (n + 1) = .spad c) : place a 1 = .spad c := by
  unfold place at h ⊢
  split at h
  · cases h
  split at h
  case isFalse =>
    split at h
    · dsimp only at h
      split at h <;> cases h
    · split at h
      · dsimp only at h
        split at h <;> cases h
      · split at h <;> cases h
  case isTrue hlo hsp =>
    have hmain : ¬ 1 + a ≤ mainSize := by
      simp only [mainSize, spadBase] at hsp ⊢
      omega
    rw [if_neg hmain, if_pos hsp]
    dsimp only at h ⊢
    split at h
    · next hin => rw [if_pos (by omega), h]
    · cases h

theorem State.countEcc1_ecc (s : State) (a : Nat) (bad : Bool) : (s.countEcc1 a bad).ecc = s.ecc := by
  unfold State.countEcc1
  split
  case h_4 => rfl
  all_goals exact State.sil1_ecc ..

theorem State.chanError_ecc (s : State) (a : Nat) : (s.chanError a).ecc = s.ecc := by
  unfold State.chanError
  dsimp only
  split <;> rfl

/-- Counting an error leaves the marks of the words. -/
theorem State.countEcc_ecc (s : State) (a : Nat) (bad : Bool) : (s.countEcc a bad).ecc = s.ecc := by
  unfold State.countEcc
  dsimp only
  split
  · exact (State.chanError_ecc ..).trans (s.countEcc1_ecc a bad)
  · exact s.countEcc1_ecc a bad

/-- A cell taken out of service shows it (05 R128). -/
theorem State.takeOut_spad {s : State} {a c : Nat} (hp : place a 1 = .spad c) (hc : c < 48) : (s.takeOut a).unitState c = stOut := by
  have hdir : DIR_HEAD ≠ UNIT_STATUS c := by
    simp only [DIR_HEAD, dirBase, UNIT_STATUS, unitBlk]
    omega
  rw [State.takeOut, hp]
  show ((s.setUnitState c stOut).dirChange).unitState c = stOut
  rw [State.dirChange, State.unitState_setF _ _ hdir]
  exact State.getF_setF_same ..

/-! Bytes and registers after a fill (05 R149, R150). -/

theorem State.byte_putBytes_zeros (s : State) (a n j : Nat) :
    (s.putBytes a (List.replicate n 0)).byte j = if a ≤ j ∧ j < a + n then 0 else s.byte j := by
  induction n generalizing s a with
  | zero => exact (if_neg (by omega)).symm
  | succ n ih =>
    rw [List.replicate_succ, State.putBytes, ih]
    by_cases hj : j = a
    · subst hj
      rw [if_neg (by omega), if_pos (by omega), State.byte_setByte_same]
    · rw [State.byte_setByte_ne _ _ (Ne.symm hj)]
      exact if_congr (by omega) rfl rfl

theorem State.byte_store_zeros (s : State) (a n j : Nat) :
    (s.store a (List.replicate n 0)).byte j = if a ≤ j ∧ j < a + n then 0 else s.byte j :=
  s.byte_putBytes_zeros a n j

/-- A line of a fill reads zero after it, and no byte that read zero changes. -/
theorem State.fillLine_zero {s : State} {a j : Nat} (h : (a ≤ j ∧ j < a + 64) ∨ s.byte j = 0) : (s.fillLine a).byte j = 0 := by
  have hline : (s.store a (List.replicate 64 0)).byte j = 0 := by
    rw [State.byte_store_zeros]
    split
    · rfl
    · exact h.resolve_left (by assumption)
  unfold State.fillLine
  dsimp only
  split
  · rw [State.byte_store_zeros]
    split
    · rfl
    · exact hline
  · exact hline

theorem State.fillLine_regs (s : State) (a : Nat) : (s.fillLine a).regs = s.regs := by
  unfold State.fillLine
  dsimp only
  split
  · rw [State.store_regs, State.store_regs]
  · exact State.store_regs ..

theorem State.fillLines_succ (s : State) (k : Nat) : s.fillLines (k + 1) =
    ((((s.fillLines k).fillLine ((s.fillLines k).getF MC_FILL_ADDR fillADDR * 64)).setF MC_FILL_ADDR fillADDR
      ((s.fillLines k).getF MC_FILL_ADDR fillADDR + 1)).setF MC_FILL_LEN fillLEN ((s.fillLines k).getF MC_FILL_LEN fillLEN - 1)) := by
  simp only [State.fillLines, List.range_succ, List.foldl_append, List.foldl_cons, List.foldl_nil]

/-- ADDR rises by one with each line. -/
theorem State.fillLines_addr (s : State) (k : Nat) (h : s.getF MC_FILL_ADDR fillADDR + k < 2 ^ fillADDR.w) :
    (s.fillLines k).getF MC_FILL_ADDR fillADDR = s.getF MC_FILL_ADDR fillADDR + k := by
  induction k with
  | zero => rfl
  | succ k ih =>
    rw [State.fillLines_succ, State.getF_setF_addr _ _ (by decide), State.getF_setF_same, ih (by omega)]
    exact Nat.mod_eq_of_lt h

/-- LEN falls by one with each line. -/
theorem State.fillLines_len (s : State) (k : Nat) :
    (s.fillLines k).getF MC_FILL_LEN fillLEN ≤ s.getF MC_FILL_LEN fillLEN - k := by
  induction k with
  | zero => exact Nat.le_refl _
  | succ k ih =>
    rw [State.fillLines_succ, State.getF_setF_same]
    exact (Nat.mod_le _ _).trans (by omega)

/-- The lines written read zero. -/
theorem State.fillLines_zero (s : State) (k : Nat) (h : s.getF MC_FILL_ADDR fillADDR + k < 2 ^ fillADDR.w) {i : Nat}
    (hi : i < 64 * k) : (s.fillLines k).byte (s.getF MC_FILL_ADDR fillADDR * 64 + i) = 0 := by
  induction k with
  | zero => omega
  | succ k ih =>
    rw [State.fillLines_succ, State.byte_setF, State.byte_setF, State.fillLines_addr _ _ (by omega)]
    refine State.fillLine_zero ?_
    by_cases hk : i < 64 * k
    · exact .inr (ih (by omega) hk)
    · exact .inl (by omega)

/-! Region entries (05 R144). -/

theorem rgnKey_ne {pt pt' p e : Nat} (h : pt ≠ pt') : rgnKey pt p e ≠ rgnKey pt' p e := by
  unfold rgnKey
  omega

/-- The old entry of a point that holds none of its own yet. -/
def keepOld (p e : Nat) (old : RgnOld) (m : Tab RgnOld) (pt : Nat) : Tab RgnOld :=
  match Tab.find m (rgnKey pt p e) with
  | some _ => m
  | none => Tab.insert m (rgnKey pt p e) old

/-- Every injection point judges by its own old entry, or by the one that was in force. -/
theorem find_keepOld {p e : Nat} {old : RgnOld} {pt n : Nat} (h : pt < n) (m : Tab RgnOld) :
    Tab.find ((List.range n).foldl (keepOld p e old) m) (rgnKey pt p e) = some ((Tab.find m (rgnKey pt p e)).getD old) := by
  refine foldl_changes_once (R := fun m : Tab RgnOld => Tab.find m (rgnKey pt p e)) (g := fun x => some (x.getD old))
    (List.mem_range.mpr h) List.nodup_range (fun m => ?_) (fun m y _ hy => ?_) m
  · unfold keepOld
    split
    · next o ho => rw [ho]; rfl
    · next ho => rw [ho, Tab.find_insert_same]; rfl
  · unfold keepOld
    split
    · rfl
    · exact Tab.find_insert_ne (rgnKey_ne hy)

/-- What an injection point judges by, out of its two tables. -/
theorem State.rgn_eq (s : State) (pt p e : Nat) :
    s.rgn pt p e = (((Tab.find s.rgnOld (rgnKey pt p e)).getD (s.rgnEntry p e)).lo,
      ((Tab.find s.rgnOld (rgnKey pt p e)).getD (s.rgnEntry p e)).hi) := by
  unfold State.rgn
  split
  · next o h => rw [h]; rfl
  · next h => rw [h]; rfl

/-- The state after island A put entry `o` in force. -/
def State.rgnPut (s : State) (p e : Nat) (o : RgnOld) : State :=
  let t := s.loadF (RGN_LO p e) [rgnVALID, rgnRD, rgnWR, rgnMIRROR, rgnBASE] o.lo
  { t with
    rgnCur := Tab.set {} t.rgnCur (p * 64 + e) o
    rgnOld := (List.range 66).foldl (keepOld p e (s.rgnEntry p e)) t.rgnOld }

theorem State.loadF_rgnOld (s : State) (a : Nat) (fs : List FD) (w : Nat) : (s.loadF a fs w).rgnOld = s.rgnOld :=
  foldl_keeps (R := State.rgnOld) (fun t _ _ => State.setF_rgnOld t ..) s

/-- The entry that a write of `lo` to RGN_LO makes, its other half standing in RGN_HI. -/
def State.rgnWritten (s : State) (p e lo : Nat) : RgnOld :=
  ⟨[rgnVALID, rgnRD, rgnWR, rgnMIRROR, rgnBASE].foldl (fun w f => w + f.of lo * 2 ^ f.lo) 0,
    s.wordF (RGN_HI p e) [rgnSIZE, rgnMBASE]⟩

/-- An entry that island A accepts is put in force. -/
theorem regionEntryWrite_accepted {s : State} {p e lo : Nat} (hp : p < 8) (he : e < 64)
    (h : s.rgnAccept p e (s.rgnWritten p e lo) = true) :
    regionEntryWrite .islandA p e lo s = s.rgnPut p e (s.rgnWritten p e lo) := by
  have hk : keepOld p e (s.rgnEntry p e) = fun m pt =>
      match Tab.find m (rgnKey pt p e) with
      | some _ => m
      | none => Tab.insert m (rgnKey pt p e) (s.rgnEntry p e) := rfl
  unfold State.rgnPut
  rw [hk]
  unfold State.rgnWritten at h ⊢
  unfold regionEntryWrite
  rw [if_neg (not_not_intro rfl), if_neg (by omega), if_neg (by rw [h]; decide)] <;> rfl

theorem State.rgnPut_keeps (s : State) {pt p e : Nat} (o : RgnOld) (h : pt < 66) : (s.rgnPut p e o).rgn pt p e = s.rgn pt p e := by
  have hold : (s.rgnPut p e o).rgnOld = (List.range 66).foldl (keepOld p e (s.rgnEntry p e)) s.rgnOld := by
    simp only [State.rgnPut, State.loadF_rgnOld]
  rw [State.rgn_eq, State.rgn_eq, hold, find_keepOld h, Option.getD_some]

theorem regionEntrySwitch_same (s : State) (pt p e : Nat) :
    (regionEntrySwitch pt p e s).rgn pt p e = ((s.rgnEntry p e).lo, (s.rgnEntry p e).hi) := by
  rw [State.rgn_eq]
  simp only [regionEntrySwitch, Tab.find_erase_same, Option.getD_none]
  rfl

theorem regionEntrySwitch_ne (s : State) {pt pt' : Nat} (p e : Nat) (h : pt' ≠ pt) :
    (regionEntrySwitch pt p e s).rgn pt' p e = s.rgn pt' p e := by
  rw [State.rgn_eq, State.rgn_eq]
  simp only [regionEntrySwitch, Tab.find_erase_ne (rgnKey_ne h.symm)]
  rfl

/-- Settles O27: each command of memory maintenance, from the states of its words, entries and registers. -/
theorem memoryMaintenanceResults : Obligations.MemoryMaintenanceResults := by
  intro s
  refine ⟨?_, ?_, ?_, ?_, ?_, ?_, ?_, ?_⟩
  · intro a ha
    refine ⟨_, next_eq (if_pos ha), ?_, rfl⟩
    simp only [Tab.get_set_same]
  · intro a c ha hp hc hst
    have hout := State.takeOut_spad (s := s) (place_spad_first hp) hc
    refine ⟨hout, next_eq ?_⟩
    have hw : wordTest a false s = s.takeOut (a / 8 * 8) := by
      simp only [wordTest, ha, hp]
      rfl
    simp only [wordTestCmd, hw, hp]
    exact if_pos ⟨hout, hst⟩
  · intro a c ha hp hst
    have hw : wordTest a true s = s.store (a / 8 * 8) (byteList (bytesOf 8 0x5555555555555555)) := by
      simp only [wordTest, ha, hp]
      rfl
    have hsame : (wordTest a true s).unitState c = s.unitState c := by
      rw [hw]
      exact State.getF_of_regs (State.store_regs ..) _ _
    have hrun : wordTestCmd a true s = s.store (a / 8 * 8) (byteList (bytesOf 8 0x5555555555555555)) := by
      simp only [wordTestCmd, hp]
      exact (if_neg (fun h => hst (hsame ▸ h.1))).trans hw
    refine ⟨_, next_eq hrun, ?_⟩
    refine (Tab.get_filter (fun w => !decide (a / 8 * 8 ≤ w * 8 ∧ w * 8 + 8 ≤ a / 8 * 8 + 8)) 0 _ (a / 8)).trans (if_neg ?_)
    simp
  · intro ch a t ha hch hecc
    have hhere : decide (a < mainSize ∧ channelOf a = ch) = true := decide_eq_true ⟨ha, hch⟩
    refine ⟨next_eq ?_, next_eq ?_⟩
    · have h1 : ¬ Tab.get 0 ((s.at t).countEcc a false).ecc (a / 8) = 2 := by
        rw [State.countEcc_ecc, State.at_ecc, hecc]
        decide
      simp only [patrol, List.filter_cons, hhere, if_true, List.filter_nil, List.foldl_cons, List.foldl_nil]
      exact if_neg h1
    · simp only [patrol, List.filter_cons, hhere, if_true, List.filter_nil, List.foldl_cons, List.foldl_nil,
        State.countEcc_ecc]
  · intro ch a hch hca ha
    have hopen : ¬ (ch ≥ 24 ∨ channelOf a ≠ ch ∨ a ≥ mainSize) := by
      rintro (h | h | h)
      · exact absurd hch (Nat.not_lt_of_le h)
      · exact h hca
      · exact absurd ha (Nat.not_lt_of_le h)
    have hedc : (((s.sil1 376 ch).sil1 376 ch).sil1 376 ch).edc = s.edc := by simp only [State.sil1_edc]
    refine ⟨next_eq ((if_neg hopen).trans (if_neg (by omega))), fun hnew => next_eq ((if_neg hopen).trans ?_)⟩
    have hcount : (List.range (min 4 3)).foldl (fun s _ => s.sil1 376 ch) s = ((s.sil1 376 ch).sil1 376 ch).sil1 376 ch := rfl
    simp only [hcount, hedc, hnew]
    rfl
  · intro p e lo hp he low o hacc
    have hrun : regionEntryWrite .islandA p e lo s = s.rgnPut p e o := regionEntryWrite_accepted hp he hacc
    have hcur : (s.rgnPut p e o).rgnEntry p e = o := Tab.get_set_same
    refine ⟨_, next_eq hrun, hcur, fun pt hpt => s.rgnPut_keeps o hpt, fun pt hpt => ⟨_, rfl, ?_, fun pt' _ hne => ?_⟩⟩
    · exact (regionEntrySwitch_same _ pt p e).trans (by rw [hcur])
    · exact regionEntrySwitch_ne _ p e hne
  · intro who w hwho hgo hst a n hn hok hout hcopy
    have hrun : fillGo who w s = ((s.fresh (n / 64)).2.fillLines (s.fresh (n / 64)).1).fillStat 1 0 := by
      refine (if_neg (by rw [hgo]; simpa using hst)).trans ((if_neg ?_).trans ((if_neg hn).trans ((if_neg ?_).trans (if_neg ?_))))
      · rcases hwho with rfl | ⟨p, rfl⟩ <;> exact Bool.false_ne_true
      · rw [hok]
        decide
      · rw [hout, hcopy]
        decide
    exact next_eq hrun
  · intro hst haddr
    refine ⟨_, next_eq (if_neg (not_not_intro hst)), ?_, ?_, fun i hi => ?_⟩
    · rw [State.fillStat, State.getF_setF_lo, State.getF_setF_same]
      rfl
    · rw [State.fillStat, State.getF_setF_addr _ _ (by decide), State.getF_setF_addr _ _ (by decide)]
      have := s.fillLines_len (s.getF MC_FILL_LEN fillLEN)
      omega
    · rw [State.fillStat, State.byte_setF, State.byte_setF]
      exact s.fillLines_zero _ haddr hi

end Sys2Proof.Machine


/-! PROOFS. The trigger generator -/

namespace Sys2Proof.Machine

set_option Elab.async false

/-- A pending trim of a die that the device does not have: its TRIM register would lie where TRIG_STATUS does. -/
def strayTrim : State := { State.reset with pow := { trimNext := [(524161, 0)] } }

theorem strayTrim_address : TRIM 524161 = TRIG_STATUS ∧ tmSTEPS.lo = tsRUNNING.lo := by decide

/-- The frame-start event brings the pending trim into force after it has set RUNNING. -/
theorem strayTrim_running : ((strayTrim.at 0).emitEvent).getF TRIG_STATUS tsRUNNING = 0 := by decide +kernel

/-- Refutes O28: the statement is about every state, and in one whose pending trims name a die beyond the TRIM registers the
event's own clock step overwrites RUNNING of TRIG_STATUS. -/
theorem not_triggerResults : ¬ Obligations.TriggerResults := by
  intro h
  obtain ⟨_, _, _, _, _, _, _, _, hrun, _⟩ := h strayTrim 0
  exact absurd (strayTrim_running.symm.trans hrun) (by decide)

end Sys2Proof.Machine


/-! PROOFS. Camera receivers -/

namespace Sys2Proof.Machine

set_option Elab.async false

/-- A field of a register that is written whole reads its part of the word. -/
theorem State.getF_loadF (s : State) (a w : Nat) {fs : List FD} {f : FD} (hf : f ∈ fs) (hn : fs.Nodup)
    (hlo : ∀ g ∈ fs, g ≠ f → g.lo ≠ f.lo) : (s.loadF a fs w).getF a f = f.of w :=
  foldl_changes_once (R := fun t : State => t.getF a f) (g := fun _ => f.of w) hf hn
    (fun t => (t.getF_setF_same a f _).trans (Nat.mod_eq_of_lt (Nat.mod_lt _ (Nat.two_pow_pos _))))
    (fun t g hg hne => t.getF_setF_lo a _ (hlo g hg hne)) s

theorem State.camOn_lt {s : State} {n : Nat} (h : s.camOn n = true) : n < 16 := by
  simp only [State.camOn, Bool.and_eq_true, decide_eq_true_eq] at h
  exact h.1.1

theorem State.getF_setCam (s : State) (n : Nat) (x : CamRt) (a : Nat) (f : FD) : (s.setCam n x).getF a f = s.getF a f := rfl

theorem State.cam_setCam (s : State) (n : Nat) (x : CamRt) : (s.setCam n x).cam n = x := Tab.get_set_same

/-- A packet of the receiver's virtual channel is taken. -/
theorem State.camOn_taken {s : State} {n : Nat} (h : s.camOn n = true) :
    ¬ (!s.camOn n || decide (s.getF (CAM_CFG n) ccVC ≠ s.getF (CAM_CFG n) ccVC)) = true := by
  rw [h, decide_eq_false (not_not_intro rfl)]
  exact Bool.false_ne_true

/-- The verdict leaves a frame in reception. -/
theorem State.giveVerdict_frame {s : State} {n : Nat} {f : CamFrame} (h : (s.cam n).frame = some f) (e : Option Nat) :
    ∃ g, ((s.giveVerdict n e).cam n).frame = some g := by
  unfold State.giveVerdict
  dsimp only
  rw [h]
  dsimp only
  split
  · exact ⟨_, congrArg CamRt.frame (State.cam_setCam ..)⟩
  · exact ⟨_, congrArg CamRt.frame (State.cam_setCam ..)⟩

theorem csiFrameStart_begins {s : State} {n t : Nat} (hon : (s.at t).camOn n = true) (hf : ((s.at t).cam n).frame = none)
    (hheld : (s.at t).slotHeld (camSlot (s.at t) n ((s.at t).cam n).next) = false) :
    let s1 := s.at t
    let x := s1.cam n
    let f : CamFrame := { slot := x.next, expect := x.pulse, lastAt := s1.now }
    let s2 := s1.setCam n { x with frame := some f, used := x.used || x.pulse.isSome, next := (x.next + 1) % (s1.getF (CAM_RING n) crNSLOT + 1) }
    let s3 := match x.pulse with | some e => s2.setF (CAM_ECHO_STAT n) cesEXPECT e | none => s2
    let s4 := ((s3.setF (CAM_STAT n) csSLOT x.next).setF (CAM_STAT n) csLINES 0).setF (CAM_STAT n) csSTATE 2
    let r := s4.camPutHeader n 1 f false false
    r.2 = false → csiFrameStart n (s1.getF (CAM_CFG n) ccVC) t s = r.1.imgSeen (camSlot s1 n x.next) := by
  intro s1 x f s2 s3 s4 r hr
  have hsome : ¬ ((s.at t).cam n).frame.isSome = true := by
    rw [hf]
    exact Bool.false_ne_true
  rw [csiFrameStart, if_neg (State.camOn_taken hon), if_neg hsome]
  refine (if_neg (by rw [hheld]; decide)).trans ?_
  dsimp only
  generalize hg : State.camPutHeader _ _ _ _ _ _ = q
  have hq : q = r := hg.symm
  rw [← hq] at hr ⊢
  obtain ⟨u, b⟩ := q
  cases hr
  rfl

/-- Embedded data is stored, and its first packet gives the frame its verdict. -/
theorem csiEmbeddedData_stores {s : State} {n t : Nat} {data : List Nat} {f : CamFrame} (hon : (s.at t).camOn n = true)
    (hf : ((s.at t).cam n).frame = some f) :
    let s1 := s.at t
    let keep := data.take (4096 - f.emb)
    let put := s1.camWrite n (camSlot s1 n f.slot + 0x40 + f.emb) keep
    let g := { f with emb := f.emb + keep.length, hasEmb := true, lastAt := put.1.now }
    let s2 := put.1.setCam n { put.1.cam n with frame := some g }
    let s3 := if f.hasEmb then s2 else s2.giveVerdict n (s2.echoIn n data)
    let r := s3.camPutHeader n 1 ((s3.cam n).frame.getD g) false false
    put.2 = false → r.2 = false → csiEmbeddedData n (s1.getF (CAM_CFG n) ccVC) data t s = r.1 := by
  intro s1 keep put g s2 s3 r hput hr
  have hs3 : ∃ g', (s3.cam n).frame = some g' := by
    have hs2 : (s2.cam n).frame = some g := congrArg CamRt.frame (State.cam_setCam ..)
    by_cases he : f.hasEmb = true
    · rw [show s3 = s2 from if_pos he]
      exact ⟨g, hs2⟩
    · rw [show s3 = s2.giveVerdict n (s2.echoIn n data) from if_neg he]
      exact State.giveVerdict_frame hs2 _
  obtain ⟨g', hg'⟩ := hs3
  have hr' : r = s3.camPutHeader n 1 g' false false := by
    show s3.camPutHeader n 1 ((s3.cam n).frame.getD g) false false = _
    rw [hg']
    rfl
  rw [hr'] at hr
  rw [csiEmbeddedData, if_neg (State.camOn_taken hon), hf, hr']
  dsimp only
  generalize hg : State.camWrite _ _ _ _ = q
  have hq : q = put := hg.symm
  have hq2 : q.2 = false := hq ▸ hput
  have hs3' : s3 = if f.hasEmb then q.1.setCam n { q.1.cam n with
      frame := some { f with emb := f.emb + keep.length, hasEmb := true, lastAt := q.1.now } }
    else (q.1.setCam n { q.1.cam n with frame := some { f with emb := f.emb + keep.length, hasEmb := true, lastAt := q.1.now } }).giveVerdict n
      ((q.1.setCam n { q.1.cam n with frame := some { f with emb := f.emb + keep.length, hasEmb := true, lastAt := q.1.now } }).echoIn n data) := by
    rw [hq]
  generalize s3 = z at hg' hr hs3' ⊢
  obtain ⟨u, b⟩ := q
  cases hq2
  dsimp only
  subst hs3'
  rw [hg']
  dsimp only
  generalize State.camPutHeader _ _ _ _ _ _ = q' at hr ⊢
  obtain ⟨u', b'⟩ := q'
  cases hr
  rfl

/-- A line below HEIGHT is stored at its place and counted. -/
theorem csiLine_stores {s : State} {n t : Nat} {data : List Nat} {f : CamFrame} {ok : Bool} (hon : (s.at t).camOn n = true)
    (hf : ((s.at t).cam n).frame = some f) (hh : f.lines < (s.at t).getF (CAM_CFG n) ccHEIGHT) :
    let s1 := s.at t
    let w := s1.getF (CAM_CFG n) ccWIDTH
    let dt := s1.getF (CAM_CFG n) ccDT
    let good := ok && decide (data.length = 2 * w)
    let put := s1.camWrite n (camSlot s1 n f.slot + 0x1040 + f.lines * camPitch s1 n) (lineBytes dt w (camPitch s1 n) data)
    let s2 := if good then put.1 else put.1.event 23
    let f' := { f with lines := f.lines + 1, bad := f.bad + (if good then 0 else 1), lastAt := s2.now, lastRef := s2.frameSeq 60,
                       lastUs := s2.slotUs 60 }
    let r := ((s2.setCam n { s2.cam n with frame := some f' }).setF (CAM_STAT n) csLINES (min f'.lines 0xFFFF)).camPutHeader n 1 f' false false
    put.2 = false → r.2 = false →
      csiLine n (s1.getF (CAM_CFG n) ccVC) dt data ok t s = r.1.imgSeen (camSlot s1 n f.slot) := by
  intro s1 w dt good put s2 f' r hput hr
  have hbad : (!ok || decide (data.length ≠ 2 * w)) = !good := by
    cases ok <;> simp [good]
  have htake : ¬ (!s1.camOn n || decide (s1.getF (CAM_CFG n) ccVC ≠ s1.getF (CAM_CFG n) ccVC) || decide (dt ≠ dt)) = true := by
    rw [hon]
    simp
  rw [csiLine, if_neg htake, hf]
  refine (if_neg (Nat.not_le_of_lt hh)).trans ?_
  dsimp only
  rw [hbad]
  have hs2 : ∀ z : State, (if (!good) = true then z.event 23 else z) = if good then z else z.event 23 := fun z => by
    cases good <;> rfl
  have hb : b2n (!good) = if good then 0 else 1 := by
    cases good <;> rfl
  rw [hb]
  generalize hg : State.camWrite _ _ _ _ = q
  have hq : q = put := hg.symm
  have hq2 : q.2 = false := hq ▸ hput
  have hs : s2 = if good then q.1 else q.1.event 23 := by rw [hq]
  obtain ⟨u, b⟩ := q
  cases hq2
  dsimp only
  rw [hs2, ← hs]
  generalize hg' : State.camPutHeader _ _ _ _ _ _ = q'
  have hq' : q' = r := hg'.symm
  rw [← hq'] at hr ⊢
  obtain ⟨u', b'⟩ := q'
  cases hr
  rfl

/-- A frame with its verdict ends with its header written. -/
theorem State.camEnd_ends {s : State} {n : Nat} {f : CamFrame} (hf : (s.cam n).frame = some f) (hv : f.verdict ≠ 0xFF) :
    let r := s.camPutHeader n 2 f (decide (f.lines < s.getF (CAM_CFG n) ccHEIGHT)) false
    r.2 = false → s.camEnd n false = ((r.1.setF (CAM_STAT n) csSTATE 1).setCam n { s.cam n with frame := none }).imgShort
      (camSlot ((r.1.setF (CAM_STAT n) csSTATE 1).setCam n { s.cam n with frame := none }) n f.slot) := by
  intro r hr
  have hslot : ∀ u : State, camSlot ((u.setF (CAM_STAT n) csSTATE 1).setCam n { s.cam n with frame := none }) n f.slot =
      camSlot u n f.slot := fun u => by
    have hcfg : ∀ g : FD, g.lo < 64 → (u.setF (CAM_STAT n) csSTATE 1).getF (CAM_CFG n) g = u.getF (CAM_CFG n) g :=
      fun g hg => State.getF_setF_addr u 1 (by simp [CAM_STAT]) (by decide) hg
    have hring : (u.setF (CAM_STAT n) csSTATE 1).getF (CAM_RING n) crBASE = u.getF (CAM_RING n) crBASE :=
      State.getF_setF_addr u 1 (by simp [CAM_STAT, CAM_RING])
    have hset : ∀ a g, ((u.setF (CAM_STAT n) csSTATE 1).setCam n { s.cam n with frame := none }).getF a g =
        (u.setF (CAM_STAT n) csSTATE 1).getF a g := fun _ _ => rfl
    simp only [camSlot, camSlotLen, camPitch, hset, hring, hcfg ccHEIGHT (by decide), hcfg ccWIDTH (by decide)]
  simp only [State.camEnd, hf, if_neg hv]
  rw [hslot]
  generalize hg : State.camPutHeader _ _ _ _ _ _ = q
  have hq : q = r := hg.symm
  rw [← hq] at hr ⊢
  obtain ⟨u, b⟩ := q
  cases hr
  rfl

/-- The fields that a write of CAM_CFG with EN 1 loads. -/
def camCfgLoads (v : Nat) : List FD :=
  [ccHEIGHT, ccWIDTH, ccVC, ccPART, ccLANES, ccLMAP, ccPINV, ccEN] ++
    (if decide (ccDT.of v = 0x2B ∨ ccDT.of v = 0x2C ∨ ccDT.of v = 0x2E ∨ ccDT.of v = 0x1E) then [ccDT] else [])

theorem State.loadF_camCfg_en (s : State) (n : Nat) {v : Nat} (h : ccEN.of v = 1) :
    (s.loadF (CAM_CFG n) (camCfgLoads v) v).getF (CAM_CFG n) ccEN = 1 := by
  rw [← h]
  unfold camCfgLoads
  split
  · exact State.getF_loadF s _ v (by decide) (by decide) (by decide)
  · exact State.getF_loadF s _ v (by decide) (by decide) (by decide)

/-- A receiver that starts: slot 0, waiting (19 R492). -/
def State.camStarted (s : State) (n v : Nat) : State :=
  let z := s.loadF (CAM_CFG n) (camCfgLoads v) v
  (z.setF (CAM_STAT n) csSTATE 1).setCam n { z.cam n with next := 0, frame := none }

theorem camCfgWrite_starts {s : State} {n v : Nat} (hn : n < 16) (hoff : s.flag (CAM_CFG n) ccEN = false) (hen : ccEN.of v = 1) :
    camCfgWrite .islandA n v s = s.camStarted n v := by
  rw [camCfgWrite, if_neg (not_not_intro rfl), if_neg (Nat.not_le_of_lt hn), if_neg (by rw [hoff]; exact Bool.false_ne_true),
    if_pos hen]
  rfl

theorem camCfgWrite_stops {s : State} {n v : Nat} (hn : n < 16) (hon : s.flag (CAM_CFG n) ccEN = true) (hen : ccEN.of v = 0) :
    camCfgWrite .islandA n v s = s.camOff n := by
  rw [camCfgWrite, if_neg (not_not_intro rfl), if_neg (Nat.not_le_of_lt hn), if_pos hon, if_neg (by rw [hen]; decide)]

theorem State.camStarted_cam (s : State) (n v : Nat) : ((s.camStarted n v).cam n).next = 0 ∧ ((s.camStarted n v).cam n).frame = none := by
  rw [State.camStarted, State.cam_setCam]
  exact ⟨rfl, rfl⟩

theorem State.camStarted_regs (s : State) (n : Nat) {v : Nat} (h : ccEN.of v = 1) :
    (s.camStarted n v).getF (CAM_CFG n) ccEN = 1 ∧ (s.camStarted n v).getF (CAM_STAT n) csSTATE = 1 := by
  rw [State.camStarted, State.getF_setCam, State.getF_setCam, State.getF_setF_addr _ _ (by simp [CAM_STAT]), s.loadF_camCfg_en n h,
    State.getF_setF_same]
  exact ⟨rfl, rfl⟩

/-- Settles O29: each packet on a receiver that is enabled, from its slot and frame. -/
theorem cameraReceiverResults : Obligations.CameraReceiverResults := by
  intro s n t s1 x vc w dt hon
  have hn := State.camOn_lt hon
  refine ⟨?_, ?_, ?_, ?_, ?_, ?_, ?_, ?_⟩
  · intro f s2 s3 s4 r hf hheld hr
    exact next_eq (csiFrameStart_begins hon hf hheld hr)
  · intro data f keep put g s2 s3 r hf hput hr
    exact next_eq (csiEmbeddedData_stores hon hf hput hr)
  · intro data f ok good put s2 f' r hf hh hput hr
    exact next_eq (csiLine_stores hon hf hh hput hr)
  · intro _
    exact next_eq (if_neg (State.camOn_taken hon))
  · intro f hf hlast
    have hrun : frameEndTimeout n t s = s1.camEnd n true := by
      unfold frameEndTimeout
      dsimp only
      rw [hf]
      exact if_pos ⟨hon, hlast⟩
    exact next_eq hrun
  · intro f r hf hv hr
    exact State.camEnd_ends hf hv hr
  · intro v hen hon' hn'
    refine ⟨next_eq (camCfgWrite_stops hn' hon' hen), ?_⟩
    unfold State.camOff
    dsimp only
    rw [State.getF_setF_addr _ _ (by simp [CAM_STAT]), State.getF_setF_same]
    rfl
  · intro z v hoff hen
    obtain ⟨hcfg, hstat⟩ := z.camStarted_regs n hen
    exact ⟨_, next_eq (camCfgWrite_starts hn hoff hen), hcfg, hstat, z.camStarted_cam n v⟩

end Sys2Proof.Machine


/-! PROOFS. The Image engines -/

namespace Sys2Proof.Machine

set_option Elab.async false

theorem isImage_of {u : Nat} (h : u = 60 ∨ u = 61) : isImage u = true := decide_eq_true h

theorem Tab.mem_of_find {α : Type} {m : Tab α} {k : Nat} {v : α} (h : Tab.find m k = some v) : (k, v) ∈ m := by
  induction m with
  | nil => cases h
  | cons x m ih =>
    obtain ⟨k', v'⟩ := x
    simp only [Tab.find] at h
    split at h
    · next hk =>
      cases hk
      cases h
      exact List.mem_cons_self
    · exact List.mem_cons_of_mem _ (ih h)

/-- A command that is set out on holds its ring slot. -/
theorem State.slotHeld_of_find {s : State} {u : Nat} {r : ImgRun} (h : Tab.find s.imgs u = some r) : s.slotHeld r.frame = true :=
  List.any_eq_true.mpr ⟨(u, r), Tab.mem_of_find h, decide_eq_true rfl⟩

/-- FRAME on a frame that is not short. -/
theorem frameCmd_sets_out {s : State} {u t : Nat} {it : WorkItem} (hu : u = 60 ∨ u = 61) (hit : (s.at t).engItem u = some it)
    (hfree : Tab.find s.imgs u = none) :
    let s0 := ((s.at t).setF (IMG_STATUS u) igLINES 0).setF (IMG_STATUS u) igROWS 0
    let f : Eng (ImgRun × List Nat) := do let r ← imgSetup u it.prog; let h ← imgHeader u r; return (r, h)
    let x := f.answer ({ blk := [], prof := [], mesh := [] }, []) s0
    let s1 := f.after s0
    f.runs s0 = true → x.1.isShort x.2 = false → frameCmd u t s =
      { s1 with imgs := Tab.insert s1.imgs u { x.1 with lastLine := s1.now } }.setF (IMG_STATUS u) igCAM (fieldAt x.2 6 1) := by
  intro s0 f x s1 hrun hshort
  have hbusy : ¬ (!isImage u || (Tab.find (s.at t).imgs u).isSome) = true := by
    rw [isImage_of hu, State.at_imgs, hfree]
    decide
  have hf := Eng.run_of_runs ({ blk := [], prof := [], mesh := [] }, []) hrun
  unfold frameCmd
  dsimp only
  rw [hit]
  refine (if_neg hbusy).trans ?_
  generalize hg : EStateM.run _ _ = q
  have hq : q = .ok x s1 := hg.symm.trans hf
  rw [hq]
  exact if_neg (fun h => Bool.false_ne_true (hshort.symm.trans h))

/-- What a level-0 row counts, once it is written. -/
theorem State.imgRowDone_regs (s : State) (u : Nat) (r : ImgRun) (y : List Nat) :
    (s.imgRowDone u r y).getF (IMG_STATUS u) igROWS = (r.ys.length + 1) % 2 ^ igROWS.w ∧
    (s.imgRowDone u r y).getF (IMG_PIX_CNT u) cnt64 = (s.getF (IMG_PIX_CNT u) cnt64 + r.outW) % 2 ^ 64 := by
  have hpix : IMG_STATUS u ≠ IMG_PIX_CNT u := by simp [IMG_STATUS, IMG_PIX_CNT]
  have hprog : UNIT_PROGRESS u ≠ IMG_PIX_CNT u := by simp [UNIT_PROGRESS, IMG_PIX_CNT]
  unfold State.imgRowDone
  constructor
  · rw [State.getF_setF_addr _ _ hpix.symm, State.getF_setF_lo, State.getF_setF_same, List.length_append]
    rfl
  · rw [State.getF_setF_same, State.getF_setF_addr _ _ hpix, State.getF_setF_addr _ _ hpix, State.progress,
      State.getF_setF_addr _ _ hprog]
    rfl

/-- IMAGE_ROW_PRODUCE by what the slot's header says. -/
theorem imageRowProduce_header {s : State} {u : Nat} {it : WorkItem} {r : ImgRun} (hit : s.engItem u = some it)
    (hr : Tab.find s.imgs u = some r) (hrun : (imgHeader u r).runs s = true) :
    let h := (imgHeader u r).answer [] s
    let s1 := (imgHeader u r).after s
    imageRowProduce u s = if r.isShort h then s1.imgEnd u r (EErr.short.code u) h
      else if fieldAt h 8 2 < linesNeeded r.needs then s1
      else match (imgRow u r h).run s1 with
        | .error e s => s.imgEnd u ((Tab.find s.imgs u).getD r) (e.code u) h
        | .ok r' s =>
          let s := { s with imgs := Tab.insert s.imgs u r' }
          if r'.ys.length = r.outH then s.imgEnd u r' 0 h else s := by
  intro h s1
  have hrun' := Eng.run_of_runs [] hrun
  unfold imageRowProduce
  rw [hit, hr]
  dsimp only
  rw [hrun'] <;> rfl

/-- Settles O30: each command of an Image engine, by the slot's header and by what its computation answers. -/
theorem imageEngineResults : Obligations.ImageEngineResults := by
  intro s u t it hu
  have hcode : EErr.short.code u = 4 ∧ EErr.timeout.code u = 5 := by
    rcases hu with rfl | rfl <;> decide
  refine ⟨?_, ?_, ?_, ?_, ?_⟩
  · intro s0 f x s1 s2 hit hfree hrun hshort
    have hfind : Tab.find s2.imgs u = some { x.1 with lastLine := s1.now } := Tab.find_insert_same
    exact ⟨next_eq (frameCmd_sets_out hu hit hfree hrun hshort), hfind, State.slotHeld_of_find (r := { x.1 with lastLine := s1.now }) hfind, State.getF_setF_same ..⟩
  · intro r hit hr hh h s1 r' s2 s3 hshort hlines hrow
    have hrun : imageRowProduce u s = if r'.ys.length = r.outH then s3.imgEnd u r' 0 h else s3 := by
      rw [imageRowProduce_header hit hr hh, if_neg (by rw [hshort]; decide), if_neg (Nat.not_lt_of_le hlines),
        Eng.run_of_runs r hrow]
    exact next_eq hrun
  · intro r y s1
    obtain ⟨hrows, hpix⟩ := s.imgRowDone_regs u r y
    exact ⟨Tab.find_insert_same, rfl, hrows, hpix⟩
  · intro r hit hr hh hshort
    have hrun : imageRowProduce u s = ((imgHeader u r).after s).imgEnd u r 4 ((imgHeader u r).answer [] s) := by
      rw [imageRowProduce_header hit hr hh, if_pos hshort, hcode.1]
    exact next_eq hrun
  · intro r hit hr hh h s1 hshort hlines hlast
    have hrun : lineTimeout u t s = s1.imgEnd u r 5 h := by
      unfold lineTimeout
      dsimp only
      rw [hit, State.at_imgs, hr]
      dsimp only
      rw [Eng.run_of_runs [] hh]
      refine (if_neg (by rw [hshort]; decide)).trans ((if_pos ⟨hlines, hlast⟩).trans ?_)
      rw [hcode.2]
    exact next_eq hrun

end Sys2Proof.Machine


/-! PROOFS. The Attention engines -/

namespace Sys2Proof.Machine

set_option Elab.async false

/-! Bytes of a register block. -/

theorem leOf_lt {l : List Nat} (h : ∀ b ∈ l, b < 256) : leOf l < 256 ^ l.length := by
  induction l with
  | nil => exact Nat.one_pos
  | cons b l ih =>
    have hb := h b List.mem_cons_self
    have hl := ih (fun c hc => h c (List.mem_cons_of_mem b hc))
    rw [leOf, List.length_cons, Nat.pow_succ]
    omega

theorem fieldAt_lt {b : List Nat} (h : ∀ x ∈ b, x < 256) (o n : Nat) : fieldAt b o n < 256 ^ n := by
  refine (leOf_lt (fun x hx => h x (List.mem_of_mem_drop (List.mem_of_mem_take hx)))).trans_le ?_
  exact Nat.pow_le_pow_right (by decide) (List.length_take_le ..)

theorem bytesOf_lt {n v x : Nat} (h : x ∈ bytesOf n v) : x < 256 := by
  induction n generalizing v with
  | zero => cases h
  | succ n ih =>
    rcases List.mem_cons.mp h with rfl | h
    · exact Nat.mod_lt _ (by decide)
    · exact ih h

theorem ctxBytes_lt {x : Ctx} {b : Nat} (h : b ∈ ctxBytes x) : b < 256 := by
  simp only [ctxBytes, List.mem_append, List.mem_flatMap] at h
  rcases h with (((((((h | h) | h) | h) | h) | h) | h) | h) | ⟨_, _, h⟩ <;> exact bytesOf_lt h

/-- Registers written one after the other at different addresses. -/
theorem State.getF_foldl_regs (s : State) {f : FD} (addr : Nat → Nat) (v : Nat → Nat) {n i : Nat} (hi : i < n)
    (hne : ∀ j, j < n → j ≠ i → addr j ≠ addr i) (hf : f.lo < 64 := by decide) :
    ((List.range n).foldl (fun s j => s.setF (addr j) f (v j)) s).getF (addr i) f = v i % 2 ^ f.w :=
  foldl_changes_once (R := fun t : State => t.getF (addr i) f) (g := fun _ => v i % 2 ^ f.w) (List.mem_range.mpr hi) List.nodup_range
    (fun t => t.getF_setF_same ..) (fun t j hj hji => t.getF_setF_addr _ (hne j (List.mem_range.mp hj) hji) hf hf) s

/-! Commands. -/

/-- The command in progress is one that engine `u` takes for opcode `opc`, with its block and names read. -/
theorem attnCmd_reads {s : State} {u opc : Nat} {it : WorkItem} (hit : s.engItem u = some it) (hlo : 48 ≤ u) (hhi : u < 52)
    (hopc : s.engOpc it = opc) (hfree : Tab.find s.ctxCmds u = none) :
    let b := (Eng.block u it.prog 640).answer [] s
    let s1 := (Eng.block u it.prog 640).after s
    let names := (attnNames u b).answer [] s1
    let s2 := (attnNames u b).after s1
    (Eng.block u it.prog 640).runs s = true → (attnNames u b).runs s1 = true → attnCmd opc u s =
      if names = [] then s2.engRun u (if abOpc b = 1 then fwdDense u b else bwdCmdRun u b)
      else s2.ctxAdvance u { blk := b, names := names, homes := s2.homesOf (names.map (·.ctx)) } := by
  intro b s1 names s2 hblock hnames
  have htake : ¬ (!isAttn u || !s.engTakes it attnOpcs opc || (Tab.find s.ctxCmds u).isSome) = true := by
    rw [hfree, State.engTakes, hopc, isAttn, decide_eq_true (And.intro hlo hhi)]
    simp
  unfold attnCmd
  rw [hit]
  refine (if_neg htake).trans ?_
  rw [Eng.run_of_runs [] hblock]
  show (match (attnNames u b).run s1 with
    | .error e s => _
    | .ok names s => _) = _
  rw [Eng.run_of_runs [] hnames]

/-- A command whose homes all grant at once runs. -/
theorem State.ctxAdvance_runs {s : State} {u : Nat} {c : CtxCmd}
    (h : (s.askHomes u (abWriter c.blk) (c.names.map (·.ctx)) c.homes).2.2 = true) :
    s.ctxAdvance u c = (s.askHomes u (abWriter c.blk) (c.names.map (·.ctx)) c.homes).1.ctxRun u c := by
  unfold State.ctxAdvance
  generalize s.askHomes u (abWriter c.blk) (c.names.map (·.ctx)) c.homes = r at h ⊢
  obtain ⟨t, l, ok⟩ := r
  cases h
  rfl

/-- FWD over contexts that stand as the command names them. -/
theorem State.ctxRun_fwd {s : State} {u : Nat} {c : CtxCmd} (hop : abOpc c.blk = 1) (hown : s.foreignTable u = false)
    (hver : ∀ e ∈ c.names, s.ctxVerdict e.ctx e.gen [1, 2, 3] = none) (hrun : (fwdCtx u c.blk c.names).runs s = true) :
    s.ctxRun u c = ((fwdCtx u c.blk c.names).after s).engEnd u 0 ((fwdCtx u c.blk c.names).answer 0 s) := by
  have hnone : (List.range c.names.length).findSome? (fun i => ((match c.names[i]? with
      | none => none
      | some e => if s.foreignTable u then some EErr.kind else s.ctxVerdict e.ctx e.gen [1, 2, 3]).map (fun e => (i, e)))) = none := by
    refine List.findSome?_eq_none_iff.mpr (fun i _ => ?_)
    cases he : c.names[i]? with
    | none => rfl
    | some e =>
      simp only [hown, Bool.false_eq_true, if_false, hver e (List.mem_of_getElem? he)]
      rfl
  unfold State.ctxRun
  refine (if_pos hop).trans ?_
  dsimp only
  split
  · next i e h => exact absurd (h.symm.trans hnone) (by simp)
  · exact State.engRun_ok hrun

/-- A context operation that its verdict admits and whose effect runs. -/
theorem State.ctxRun_op {s : State} {u : Nat} {c : CtxCmd} (hop : abOpc c.blk ≠ 1) (hver : s.opVerdict u c.blk = none)
    (hrun : (ctxOpRun u c.blk).runs s = true) : s.ctxRun u c = ((ctxOpRun u c.blk).after s).ctxOpEnd u c.blk 0 := by
  unfold State.ctxRun
  refine (if_neg hop).trans ?_
  rw [hver]
  dsimp only
  rw [Eng.run_of_runs 0 hrun]

theorem ctxOpRun_bind {b : List Nat} (u : Nat) (h : abOpc b = 0x10) (s : State) :
    (ctxOpRun u b).run s = .ok 0 (s.bindCtx (abCtx b) 2 0) := by
  rw [ctxOpRun, h]
  rfl

theorem ctxOpRun_append {b : List Nat} (u : Nat) (h : abOpc b = 0x11) : ctxOpRun u b = ctxAppendRun u b := by
  rw [ctxOpRun, h]
  rfl

theorem ctxOpRun_fork {b : List Nat} (u : Nat) (h : abOpc b = 0x13) : ctxOpRun u b = ctxForkRun u b := by
  rw [ctxOpRun, h]
  rfl

theorem ctxOpRun_release {b : List Nat} (u : Nat) (h : abOpc b = 0x14) (s : State) :
    (ctxOpRun u b).run s = .ok 0 (s.freeCtx (abCtx b)) := by
  rw [ctxOpRun, h]
  rfl

theorem ctxOpRun_commit {b : List Nat} (u : Nat) (h : abOpc b = 0x12) {s : State}
    (hn : abCount b ≤ (s.ctxOf (abCtx b)).tlen - (s.ctxOf (abCtx b)).len) :
    let x := s.ctxOf (abCtx b)
    (ctxOpRun u b).run s = .ok 0 (s.setCtx (abCtx b) (if x.len + abCount b < x.tlen
      then { x with len := x.len + abCount b, tlen := x.len + abCount b, gen := (x.gen + 1) % 2 ^ 32 }
      else { x with len := x.len + abCount b })) := by
  intro x
  have hneed : Eng.need (decide (abCount b ≤ x.tlen - x.len)) .draft = pure () := if_pos (decide_eq_true hn)
  rw [ctxOpRun, h]
  show (do
    Eng.need (decide (abCount b ≤ x.tlen - x.len)) .draft
    set (s.setCtx (abCtx b) (if x.len + abCount b < x.tlen
      then { x with len := x.len + abCount b, tlen := x.len + abCount b, gen := (x.gen + 1) % 2 ^ 32 }
      else { x with len := x.len + abCount b }))
    return 0 : Eng Nat).run s = _
  rw [hneed]
  rfl

theorem Eng.runs_of_run {α : Type} {f : Eng α} {s t : State} {x : α} (h : f.run s = .ok x t) : f.runs s = true ∧ f.after s = t := by
  unfold Eng.runs Eng.after
  rw [h]
  exact ⟨rfl, rfl⟩

/-! Registers. -/

theorem isAttn_of {u : Nat} (hlo : 48 ≤ u) (hhi : u < 52) : isAttn u = true := decide_eq_true ⟨hlo, hhi⟩

/-- ATTN_CTX_SEL shows the entry's bytes. -/
theorem attnCtxSel_shows (s : State) {u w : Nat} (hlo : 48 ≤ u) (hhi : u < 52) :
    (attnCtxSel .islandA u w s).getF (ATTN_CTX_SEL u) asCTX = asCTX.of w ∧
    ∀ i, i < 8 → (attnCtxSel .islandA u w s).getF (ATTN_CTX_D u i) cnt64 = fieldAt (ctxBytes (s.ctxAt u (asCTX.of w))) (8 * i) 8 := by
  have hrun : attnCtxSel .islandA u w s = (List.range 8).foldl (fun t i => t.setF (ATTN_CTX_D u i) cnt64
      (fieldAt (ctxBytes (s.ctxAt u (asCTX.of w))) (8 * i) 8)) (s.setF (ATTN_CTX_SEL u) asCTX (asCTX.of w)) := by
    simp [attnCtxSel, isAttn_of hlo hhi]
  rw [hrun]
  constructor
  · rw [foldl_keeps (R := fun t : State => t.getF (ATTN_CTX_SEL u) asCTX)
      (fun t i _ => t.getF_setF_addr _ (by simp only [ATTN_CTX_D, ATTN_CTX_SEL]; omega)), State.getF_setF_same]
    exact Nat.mod_eq_of_lt (Nat.mod_lt _ (by decide))
  · intro i hi
    rw [State.getF_foldl_regs _ (ATTN_CTX_D u) (fun i => fieldAt (ctxBytes (s.ctxAt u (asCTX.of w))) (8 * i) 8) hi
      (fun j _ hj => by simp only [ATTN_CTX_D]; omega)]
    exact Nat.mod_eq_of_lt (fieldAt_lt (fun _ => ctxBytes_lt) _ 8)

/-- Settles O31: each command of an Attention engine, by what its block, its contexts and its computation answer. -/
theorem attentionEngineResults : Obligations.AttentionEngineResults := by
  intro s u w it takes
  refine ⟨?_, ?_, ?_, ?_, ?_, ?_⟩
  · intro b s1 names s2 ok
    refine ⟨?_, ?_, ?_⟩
    · rintro ⟨hit, hlo, hhi, hopc, hfree⟩ ⟨hblock, hnames⟩ hop hnil hrun
      have h := (attnCmd_reads hit hlo hhi hopc hfree hblock hnames).trans ((if_pos hnil).trans
        (congrArg (s2.engRun u) (if_pos hop)))
      exact next_eq (h.trans (State.engRun_ok hrun))
    · rintro ⟨hit, hlo, hhi, hopc, hfree⟩ ⟨hblock, hnames⟩ hop hnil hrun
      have h := (attnCmd_reads hit hlo hhi hopc hfree hblock hnames).trans ((if_pos hnil).trans
        (congrArg (s2.engRun u) (if_neg (by rw [hop]; decide))))
      exact next_eq (h.trans (State.engRun_ok hrun))
    · intro ns g s3 hne hgrant
      rintro ⟨hblock, hnames⟩
      have hcmd : ∀ opc, takes opc → attnCmd opc u s = s3.ctxRun u { blk := b, names := names, homes := s2.homesOf ns } := by
        rintro opc ⟨hit, hlo, hhi, hopc, hfree⟩
        exact (attnCmd_reads hit hlo hhi hopc hfree hblock hnames).trans ((if_neg hne).trans (State.ctxAdvance_runs hgrant))
      refine ⟨fun htakes hop hown hver hrun => ?_, fun hver => ⟨?_, ?_, ?_, ?_, ?_⟩⟩
      · exact next_eq ((hcmd 1 htakes).trans (State.ctxRun_fwd hop hown hver hrun))
      · intro htakes hop
        obtain ⟨hruns, hafter⟩ := Eng.runs_of_run (ctxOpRun_bind u hop s3)
        have h := (hcmd 0x10 htakes).trans (State.ctxRun_op (by rw [show abOpc b = 0x10 from hop]; decide) hver hruns)
        exact next_eq (h.trans (congrArg (fun t => State.ctxOpEnd t u b 0) hafter))
      · intro htakes hop
        obtain ⟨hruns, hafter⟩ := Eng.runs_of_run (ctxOpRun_release u hop s3)
        have h := (hcmd 0x14 htakes).trans (State.ctxRun_op (by rw [show abOpc b = 0x14 from hop]; decide) hver hruns)
        exact next_eq (h.trans (congrArg (fun t => State.ctxOpEnd t u b 0) hafter))
      · intro x htakes hop hcount
        obtain ⟨hruns, hafter⟩ := Eng.runs_of_run (ctxOpRun_commit u hop (s := s3) hcount)
        have h := (hcmd 0x12 htakes).trans (State.ctxRun_op (by rw [show abOpc b = 0x12 from hop]; decide) hver hruns)
        exact next_eq (h.trans (congrArg (fun t => State.ctxOpEnd t u b 0) hafter))
      · intro htakes hop hrun
        have hrun' := hrun
        rw [← ctxOpRun_append u hop] at hrun' ⊢
        exact next_eq ((hcmd 0x11 htakes).trans (State.ctxRun_op (by rw [show abOpc b = 0x11 from hop]; decide) hver hrun'))
      · intro htakes hop hrun
        have hrun' := hrun
        rw [← ctxOpRun_fork u hop] at hrun' ⊢
        exact next_eq ((hcmd 0x13 htakes).trans (State.ctxRun_op (by rw [show abOpc b = 0x13 from hop]; decide) hver hrun'))
  · intro c hit hne hc hgrant
    have h : contextGrantCmd u s = ({ s with ctxCmds := Tab.erase s.ctxCmds u }.grantCtx u).ctxAdvance u c := by
      rw [contextGrantCmd, if_neg hne, contextGrant, hit, hc]
      exact if_pos hgrant
    exact next_eq h
  · intro c hc hgrant
    have h : contextGrantCmd 62 s = ({ s with trkWait := none }.grantCtx 62).trkAdvance c := by
      rw [contextGrantCmd, if_pos rfl, State.trkGrant, hc]
      exact if_pos hgrant
    exact next_eq h
  · intro hlo hhi hidle h1 h2 h3 h4 h5 h6
    have h : attnCfgWrite .islandA u false w s = s.loadF (ATTN_CFG u) [acSPLIT, acCAPT, acLROWT, acCAPP, acLROWP] w := by
      refine (if_neg (not_not_intro rfl)).trans ((if_neg ?_).trans ((if_neg Bool.false_ne_true).trans (if_neg (by omega))))
      rw [isAttn_of hlo hhi, hidle]
      decide
    refine ⟨_, next_eq h, fun f hf => State.getF_loadF s _ w hf (by decide) ?_⟩
    revert f
    decide
  · intro hlo hhi hidle hpages
    have h : attnCfgWrite .islandA u true w s = s.loadF (ATTN_POOL u) [apPAGES, apPOOL] w := by
      refine (if_neg (not_not_intro rfl)).trans ((if_neg ?_).trans ((if_pos rfl).trans (if_neg (by omega))))
      rw [isAttn_of hlo hhi, hidle]
      decide
    refine ⟨_, next_eq h, fun f hf => State.getF_loadF s _ w hf (by decide) ?_⟩
    revert f
    decide
  · intro hlo hhi
    exact ⟨_, rfl, attnCtxSel_shows s hlo hhi⟩

end Sys2Proof.Machine


/-! PROOFS. The Grid, Check and Track engines -/

namespace Sys2Proof.Machine

set_option Elab.async false

/-- A computation goes on from what its first part answers. -/
theorem Eng.run_bind {α β : Type} {f : Eng α} {s t : State} {x : α} (h : f.run s = .ok x t) (g : α → Eng β) :
    (f >>= g).run s = (g x).run t := by
  show EStateM.bind f g s = g x t
  have h' : f s = .ok x t := h
  unfold EStateM.bind
  rw [h']

theorem Eng.need_true {c : Bool} (h : c = true) (e : EErr) : Eng.need c e = pure () := by
  rw [h]
  rfl

/-- A command whose block is read and whose header holds goes on with what its opcode names. -/
theorem Eng.run_header {α : Type} {u a n : Nat} {s : State} {ok : List Nat → Bool} {g : List Nat → Eng α} {e : EErr}
    (hblock : (Eng.block u a n).runs s = true) (hok : ok ((Eng.block u a n).answer [] s) = true) :
    (do
      let b ← Eng.block u a n
      Eng.need (ok b) e
      g b : Eng α).run s = (g ((Eng.block u a n).answer [] s)).run ((Eng.block u a n).after s) := by
  rw [Eng.run_bind (Eng.run_of_runs [] hblock), Eng.need_true hok]
  rfl

theorem State.engRun_of_run {s t : State} {u : Nat} {f g : Eng Nat} (h : f.run s = g.run t) : s.engRun u f = t.engRun u g := by
  unfold State.engRun
  rw [h]

/-- What a Grid engine runs for each opcode. -/
def gridRun (u : Nat) (b : List Nat) : Eng Nat :=
  match gbOpc b with
  | 1 => liftRun u b
  | 2 => scatterRun u b
  | _ => rasterRun u b

/-- A Grid engine's command with a good header. -/
theorem gridCmd_runs {s : State} {u opc : Nat} {it : WorkItem} (hlo : 52 ≤ u) (hhi : u < 56) (hit : s.engItem u = some it) :
    let s0 := (s.setF (GRID_STATUS u) gsROWS 0).setF (GRID_STATUS u) gsOPC (s.engOpc it)
    let b := (Eng.block u it.prog 256).answer [] s0
    let s1 := (Eng.block u it.prog 256).after s0
    (Eng.block u it.prog 256).runs s0 = true → gridHeaderOk b = true → s.engOpc it = opc →
      gridCmd opc u s = s1.engRun u (gridRun u b) := by
  intro s0 b s1 hblock hok hopc
  have htake : ¬ (!isGrid u || !s.engTakes it [1, 2, 3] opc) = true := by
    rw [State.engTakes, hopc, isGrid, decide_eq_true (And.intro hlo hhi)]
    simp
  unfold gridCmd
  rw [hit]
  refine (if_neg htake).trans ?_
  exact State.engRun_of_run (Eng.run_header hblock hok)

/-- What the Track engine runs for each opcode. -/
def trackRun (b : List Nat) (it : WorkItem) : Eng TrkDone :=
  match tbOpc b with
  | 1 => updateRun b it
  | 2 => forecastRun b
  | _ => deleteRun b

/-- The end of a Track command: at once where nothing is deleted or born, else once the homes have granted. -/
def State.trackDone (s : State) (r : TrkDone) : State :=
  if r.frees = [] ∧ r.binds = [] then s.engEnd 62 0 r.high
  else s.trkAdvance { frees := r.frees, binds := r.binds, high := r.high, homes := s.homesOf (r.frees ++ r.binds.map (·.1)) }

theorem State.homesOf_nil (s : State) : s.homesOf [] = [] := by
  simp [State.homesOf]

theorem State.trackDone_eq (s : State) (r : TrkDone) : s.trackDone r =
    s.trkAdvance { frees := r.frees, binds := r.binds, high := r.high, homes := s.homesOf (r.frees ++ r.binds.map (·.1)) } := by
  unfold State.trackDone
  split
  · next h =>
    rw [h.1, h.2, List.map_nil, List.append_nil, State.homesOf_nil]
    rfl
  · rfl

/-- The Track engine's command with a good block. -/
theorem trackCmd_runs {s : State} {opc : Nat} {it : WorkItem} (hit : s.engItem 62 = some it) (hfree : s.trkWait = none) :
    let b := (Eng.block 62 it.prog 128).answer [] s
    let s1 := (Eng.block 62 it.prog 128).after s
    (Eng.block 62 it.prog 128).runs s = true → trackBlockOk b = true → s.engOpc it = opc → opc ∈ [1, 2, 3] →
      (trackRun b it).runs s1 = true →
      trackCmd opc s = ((trackRun b it).after s1).trackDone ((trackRun b it).answer {} s1) := by
  intro b s1 hblock hok hopc hmem hrun
  have htake : ¬ (!s.engTakes it [1, 2, 3] opc || s.trkWait.isSome) = true := by
    rw [State.engTakes, hopc, hfree]
    simp
  have hhead := (Eng.run_header (g := fun b => trackRun b it) (e := .badCommand) hblock hok).trans (Eng.run_of_runs {} hrun)
  rw [State.trackDone_eq]
  unfold trackCmd
  rw [hit]
  refine (if_neg htake).trans ?_
  generalize hg : EStateM.run _ s = q
  have hq : q = .ok ((trackRun b it).answer {} s1) ((trackRun b it).after s1) := hg.symm.trans hhead
  rw [hq]

theorem trackBytes_lt {x : Track} {b : Nat} (h : b ∈ trackBytes x) : b < 256 := by
  simp only [trackBytes, List.mem_append, List.mem_flatMap] at h
  rcases h with ((((((((((((((h | h) | h) | h) | h) | h) | h) | h) | h) | ⟨_, _, h⟩) | ⟨_, _, h⟩) | h) | h) | h) | h) | h <;>
    exact bytesOf_lt h

/-- TRK_SEL shows the record's bytes. -/
theorem trkSel_shows (s : State) (w : Nat) : (trkSel .islandA w s).getF TRK_SEL tkCTX = tkCTX.of w ∧
    ∀ i, i < 32 → (trkSel .islandA w s).getF (TRK_D i) cnt64 = fieldAt (trackBytes (s.track (tkCTX.of w))) (8 * i) 8 := by
  have hrun : trkSel .islandA w s = (List.range 32).foldl (fun t i => t.setF (TRK_D i) cnt64
      (fieldAt (trackBytes (s.track (tkCTX.of w))) (8 * i) 8)) (s.setF TRK_SEL tkCTX (tkCTX.of w)) := by
    simp [trkSel]
  rw [hrun]
  constructor
  · rw [foldl_keeps (R := fun t : State => t.getF TRK_SEL tkCTX)
      (fun t i _ => t.getF_setF_addr _ (by unfold TRK_D TRK_SEL; omega)), State.getF_setF_same]
    exact Nat.mod_eq_of_lt (Nat.mod_lt _ (Nat.two_pow_pos _))
  · intro i hi
    rw [State.getF_foldl_regs _ TRK_D (fun i => fieldAt (trackBytes (s.track (tkCTX.of w))) (8 * i) 8) hi
      (fun j _ hj => by simp only [TRK_D]; omega)]
    exact Nat.mod_eq_of_lt (fieldAt_lt (fun _ => trackBytes_lt) _ 8)

/-- Settles O32: each command, by its header and by what its computation answers; the registers by what is written. -/
theorem gridTrackCheckResults : Obligations.GridTrackCheckResults := by
  intro s u w it
  refine ⟨?_, ?_, ?_, ?_, ?_⟩
  · intro hlo hhi hit s0 b s1 hblock hok hopc
    have hcmd := gridCmd_runs hlo hhi hit hblock hok hopc
    refine ⟨fun hop hrun => ?_, fun hop hrun => ?_, fun hop hrun => ?_⟩
    all_goals
      rw [hop] at hcmd
      refine next_eq (hcmd.trans (Eq.trans ?_ (State.engRun_ok hrun)))
      rw [gridRun, hop]
      rfl
  · intro s0 x hlo hhi hit hrun hx
    have hcmd : checkCmd u s = ((checkRun u it.prog).after s0).engEnd u 0 x.2 := by
      have hcheck : ¬ (!isCheck u) = true := by
        rw [isCheck, decide_eq_true (And.intro hlo hhi)]
        decide
      unfold checkCmd
      rw [hit]
      refine (if_neg hcheck).trans ?_
      rw [Eng.run_of_runs (none, 0) hrun, show (checkRun u it.prog).answer (none, 0) s0 = (none, x.2) from Prod.ext hx rfl]
    exact next_eq hcmd
  · intro hit hfree b s1 done hblock hok hopc
    have hcmd := fun opc h => trackCmd_runs (opc := opc) hit hfree hblock hok h
    refine ⟨fun hop hrun => ?_, fun hop hrun => ?_, fun hop hrun => ?_⟩
    · have hr : trackRun b it = updateRun b it := by rw [trackRun, hop]; rfl
      exact next_eq ((hcmd 1 (hopc.trans hop) (by decide) (hr ▸ hrun)).trans (by rw [show trackRun _ it = _ from hr]; rfl))
    · have hr : trackRun b it = forecastRun b := by rw [trackRun, hop]; rfl
      exact next_eq ((hcmd 2 (hopc.trans hop) (by decide) (hr ▸ hrun)).trans (by rw [show trackRun _ it = _ from hr]; rfl))
    · have hr : trackRun b it = deleteRun b := by rw [trackRun, hop]; rfl
      exact next_eq ((hcmd 3 (hopc.trans hop) (by decide) (hr ▸ hrun)).trans (by rw [show trackRun _ it = _ from hr]; rfl))
  · refine ⟨_, rfl, (State.getF_setF_same ..).trans ?_⟩
    rw [idExcluded]
    by_cases h : tkNEXT.of w = 0 ∨ 0xFFFFFFF8 ≤ tkNEXT.of w
    · rw [if_pos h, decide_eq_true h]
      rfl
    · rw [if_neg h, decide_eq_false h]
      exact Nat.mod_eq_of_lt (Nat.mod_lt _ (Nat.two_pow_pos _))
  · exact ⟨_, rfl, trkSel_shows s w⟩

end Sys2Proof.Machine


/-! PROOFS. What an event that Sillage counts leaves unchanged -/

namespace Sys2Proof.Machine

set_option Elab.async false

/-- `t` is `s` but for what Sillage counts. -/
structure Counted (s t : State) : Prop where
  eq : t = { s with regs := t.regs, sil := t.sil }
  regs : ∀ a f, a ≠ SIL_STATUS → f.lo < 64 → t.getF a f = s.getF a f

theorem Counted.refl (s : State) : Counted s s := ⟨rfl, fun _ _ _ _ => rfl⟩

theorem Counted.trans {s t u : State} (h : Counted s t) (h' : Counted t u) : Counted s u where
  eq := by
    rw [h'.eq, h.eq]
  regs a f ha hf := (h'.regs a f ha hf).trans (h.regs a f ha hf)

theorem Counted.setSil (s : State) (x : Sillage) : Counted s { s with sil := x } := ⟨rfl, fun _ _ _ _ => rfl⟩

theorem Counted.setStatus (s : State) {f : FD} (v : Nat) (hf : f.lo < 64 := by decide) : Counted s (s.setF SIL_STATUS f v) :=
  ⟨rfl, fun _ _ ha hg => State.getF_setF_addr s v (Ne.symm ha) hf hg⟩

theorem Counted.sil1 (s : State) (h b : Nat) : Counted s (s.sil1 h b) := by
  unfold State.sil1
  split
  · exact .setStatus s _
  · dsimp only
    split
    · exact .setSil s _
    · exact .setSil s _

theorem Counted.event (s : State) (b : Nat) : Counted s (s.event b) := .sil1 s 381 b

theorem Counted.extreme (s : State) (e : Nat) (v : Int) : Counted s (s.extreme e v) := by
  unfold State.extreme
  split
  · exact .setStatus s _
  · exact .setSil s _

theorem Counted.ite {s t u : State} {c : Prop} [Decidable c] (ht : Counted s t) (hu : Counted s u) : Counted s (if c then t else u) := by
  split
  · exact ht
  · exact hu

theorem Counted.foldl {α : Type} {f : State → α → State} (h : ∀ s x, Counted s (f s x)) (l : List α) (s : State) :
    Counted s (l.foldl f s) := by
  induction l generalizing s with
  | nil => exact .refl s
  | cons x l ih => exact (h s x).trans (ih _)

section
variable {s t : State} (h : Counted s t)
include h

theorem Counted.plan : t.plan = s.plan := by rw [h.eq]
theorem Counted.safe : t.safe = s.safe := by rw [h.eq]
theorem Counted.cfg : t.cfg = s.cfg := by rw [h.eq]
theorem Counted.ports : t.ports = s.ports := by rw [h.eq]
theorem Counted.now : t.now = s.now := by rw [h.eq]

theorem Counted.islPlan (b : Bool) : t.islPlan b = s.islPlan b := by
  rw [State.islPlan, h.plan]
  rfl

theorem Counted.serves (b : Bool) : t.islandServes b = s.islandServes b := by
  have hne : ISL_STATUS ≠ SIL_STATUS := by decide
  cases b
  · simp only [State.islandServes, State.flag, h.regs ISL_STATUS _ hne (show isAFAIL.lo < 64 by decide), Bool.false_eq_true, if_false]
  · simp only [State.islandServes, State.flag, h.regs ISL_STATUS _ hne (show isBFAIL.lo < 64 by decide), if_true]

end

/-- A write of another register leaves what the islands' status shows. -/
theorem State.serves_setF (s : State) {a : Nat} {f : FD} (v : Nat) (b : Bool) (h : a ≠ ISL_STATUS) (hf : f.lo < 64 := by decide) :
    (s.setF a f v).islandServes b = s.islandServes b := by
  cases b
  · simp only [State.islandServes, State.flag, State.getF_setF_addr s v h hf (show isAFAIL.lo < 64 by decide), Bool.false_eq_true, if_false]
  · simp only [State.islandServes, State.flag, State.getF_setF_addr s v h hf (show isBFAIL.lo < 64 by decide), if_true]

theorem State.serves_of_regs {s t : State} (h : t.regs = s.regs) (b : Bool) : t.islandServes b = s.islandServes b := by
  simp only [State.islandServes, State.flag, State.getF_of_regs h]

/-! The islands' slots. -/

theorem State.islPlan_set_same (s : State) (b : Bool) (x : IslPlan) : (s.setIslPlan b x).islPlan b = x := Tab.get_set_same

theorem b2n_ne {b c : Bool} (h : b ≠ c) : b2n b ≠ b2n c := by
  revert h
  cases b <;> cases c <;> decide

theorem State.islPlan_set_ne (s : State) {b c : Bool} (x : IslPlan) (h : b ≠ c) : (s.setIslPlan b x).islPlan c = s.islPlan c :=
  Tab.get_set_ne (b2n_ne h)

theorem QCFG_of_lt {q : Nat} (h : q < 16384) : QCFG q = unitBlk (q / 256) + 0x1000 + q % 256 * 0x40 := if_pos h

/-- Where the selection queue of partition `p` is configured. -/
theorem QCFG_selQueue {p : Nat} (hp : p < 8) : QCFG (selQueue p) = unitBlk 63 + 0x1600 + p * 0x40 := by
  rw [QCFG_of_lt (by unfold selQueue; omega)]
  unfold selQueue unitBlk
  omega

end Sys2Proof.Machine


/-! PROOFS. Slots, Drydown and records -/

namespace Sys2Proof.Machine

set_option Elab.async false

/-! A slot is checked. -/

/-- Island `b` serves and has its slot of this frame still to check. -/
def State.slotOpen (s : State) (b : Bool) : Bool := s.islandServes b && decide ((s.islPlan b).checked ≠ some (s.islPlan b).seq)

theorem State.dropDrydown_eq (s : State) :
    s.dropDrydown = { s with plan := { s.plan with drydown := if [false, true].any s.slotOpen then s.plan.drydown else none } } := by
  unfold State.dropDrydown State.slotOpen
  split <;> rfl

theorem State.dropDrydown_islPlan (s : State) (b : Bool) : s.dropDrydown.islPlan b = s.islPlan b := by
  rw [s.dropDrydown_eq]
  rfl

/-- No Drydown is kept once each island that serves has checked its slot. -/
theorem State.dropDrydown_drops {s : State} (h : ∀ b, s.islandServes b = true → (s.islPlan b).checked = some (s.islPlan b).seq) :
    s.dropDrydown.plan.drydown = none := by
  rw [s.dropDrydown_eq]
  refine if_neg fun hany => ?_
  obtain ⟨b, _, hb⟩ := List.any_eq_true.1 hany
  obtain ⟨hs, hc⟩ := (Bool.and_eq_true _ _).mp hb
  exact of_decide_eq_true hc (h b hs)

theorem State.dropDrydown_keeps {s : State} (b : Bool) (hs : s.islandServes b = true) (hc : (s.islPlan b).checked ≠ some (s.islPlan b).seq) :
    s.dropDrydown.plan.drydown = s.plan.drydown := by
  rw [s.dropDrydown_eq]
  have hopen : s.slotOpen b = true := (Bool.and_eq_true _ _).mpr ⟨hs, decide_eq_true hc⟩
  exact if_pos (List.any_eq_true.2 ⟨b, by cases b <;> decide, hopen⟩)

theorem State.popSelections_keeps {β : Type} (s : State) (R : State → β) (h : ∀ (s : State) (p : Nat) (f : FD) (v : Nat), p < 8 → f.lo < 64 →
    R (s.setF (qPtr (selQueue p)) f v) = R s) : R s.popSelections = R s :=
  foldl_keeps (fun s p hp => (h _ p qNEXT _ (List.mem_range.1 hp) (by decide)).trans (h s p qHEAD _ (List.mem_range.1 hp) (by decide))) s

theorem State.popSelections_serves (s : State) (b : Bool) : s.popSelections.islandServes b = s.islandServes b :=
  s.popSelections_keeps (fun s => s.islandServes b) fun s p _ v hp hf =>
    s.serves_setF v b (by unfold qPtr ISL_STATUS; rw [QCFG_selQueue hp]; unfold unitBlk; omega) hf

/-- The queue `q` is read up to its tail. -/
def State.readOut (s : State) (q : Nat) : State := (s.setF (qPtr q) qHEAD (s.qTailOf q)).setF (qPtr q) qNEXT (s.qTailOf q)

theorem State.readOut_getF (s : State) {q a : Nat} {f : FD} (h : qPtr q ≠ a) (hf : f.lo < 64) : (s.readOut q).getF a f = s.getF a f :=
  (State.getF_setF_addr _ _ h (by decide) hf).trans (State.getF_setF_addr s _ h (by decide) hf)

theorem State.readOut_head (s : State) (q : Nat) : (s.readOut q).getF (qPtr q) qHEAD = s.qTailOf q % 2 ^ qHEAD.w :=
  (State.getF_setF_lo _ _ _).trans (State.getF_setF_same _ _ _ _)

theorem qPtr_selQueue_ne {p q : Nat} (hp : p < 8) (hq : q < 8) (h : p ≠ q) : qPtr (selQueue p) ≠ qPtr (selQueue q) := by
  unfold qPtr
  rw [QCFG_selQueue hp, QCFG_selQueue hq]
  omega

theorem qPtr_ne_qTail {p q : Nat} (hp : p < 8) (hq : q < 8) : qPtr (selQueue p) ≠ qTail (selQueue q) := by
  unfold qPtr qTail
  rw [QCFG_selQueue hp, QCFG_selQueue hq]
  omega

/-- Head and tail of a queue. -/
def State.headTail (s : State) (q : Nat) : Nat × Nat := (s.getF (qPtr q) qHEAD, s.qTailOf q)

theorem State.popSelections_head (s : State) {p : Nat} (hp : p < 8) :
    s.popSelections.getF (qPtr (selQueue p)) qHEAD = s.qTailOf (selQueue p) % 2 ^ qHEAD.w := by
  have hpop : s.popSelections = (List.range 8).foldl (fun s p => s.readOut (selQueue p)) s := rfl
  have h := foldl_changes_once (f := fun (s : State) p => s.readOut (selQueue p)) (R := fun s : State => s.headTail (selQueue p))
    (g := fun y => (y.2 % 2 ^ qHEAD.w, y.2)) (List.mem_range.2 hp) List.nodup_range
    (fun s => Prod.ext (s.readOut_head _) (s.readOut_getF (qPtr_ne_qTail hp hp) (by decide)))
    (fun s y hy hyp => Prod.ext (s.readOut_getF (qPtr_selQueue_ne (List.mem_range.1 hy) hp hyp) (by decide))
      (s.readOut_getF (qPtr_ne_qTail (List.mem_range.1 hy) hp) (by decide))) s
  rw [hpop]
  generalize (List.range 8).foldl (fun (s : State) p => s.readOut (selQueue p)) s = u at h ⊢
  exact (Prod.ext_iff.1 h).1

def IslPlan.prepared (x : IslPlan) (g : Option GridCopy) (c : SlotChoice) (n t m : Nat) : IslPlan :=
  { x with grid := g, slot := some c.rec_, want := n, slotAt := t, origin := c.origin, got := none, waits := false, mode := some m, checked := some x.seq }

theorem State.prepare_eq (s : State) (b : Bool) (m : Option (List Nat)) :
    s.prepare b m = (s.setIslPlan b ((s.islPlan b).prepared (s.islandGrid b) (s.chooseSlot b m) (s.nextSeq b) (s.slotTime b) s.mode), s.chooseSlot b m) := by
  unfold State.prepare IslPlan.prepared
  rfl
theorem State.prepare_islPlan (s : State) (b : Bool) (m : Option (List Nat)) :
    ((s.prepare b m).1).islPlan b = (s.islPlan b).prepared (s.islandGrid b) (s.chooseSlot b m) (s.nextSeq b) (s.slotTime b) s.mode := by
  rw [s.prepare_eq]
  exact State.islPlan_set_same s b _

theorem State.prepare_checked (s : State) (b : Bool) (m : Option (List Nat)) :
    (((s.prepare b m).1).islPlan b).checked = some (((s.prepare b m).1).islPlan b).seq := by
  rw [s.prepare_islPlan]
  rfl

/-- The island that does not emit builds its shadow record, where it is due. -/
def State.shadowed (s : State) : State :=
  if s.checkDue (!s.emitter) then (s.prepare (!s.emitter) (lastSome (s.selections (!s.emitter)))).1 else s

/-- The emitter prepares its record. -/
def State.emits (s : State) : State × SlotChoice := s.shadowed.prepare s.emitter (lastSome (s.selections s.emitter))

/-- The discarded notices of `l` are counted. -/
def State.countDiscarded (s : State) (l : List (Option (List Nat))) : State := (l.filter (·.isNone)).foldl (fun s _ => s.event 17) s

/-- The end of a check: the slot counts, level 4 is taken over, a Drydown that no island needs goes. -/
def State.slotChecked (s : State) (passed : Bool) (held : Option Nat) : State :=
  ({ s.slotPassed passed with plan := { (s.slotPassed passed).plan with held := held } } : State).dropDrydown

theorem State.slotChecked_islPlan (s : State) (passed : Bool) (held : Option Nat) (b : Bool) :
    (s.slotChecked passed held).islPlan b = s.islPlan b := State.dropDrydown_islPlan _ b

theorem State.slotChecked_fields (s : State) (passed : Bool) (held : Option Nat) :
    (s.slotChecked passed held).plan.held = held ∧
      (s.slotChecked passed held).safe.passes = (if passed then min 40 (s.safe.passes + 1) else 0) ∧
      (s.slotChecked passed held).regs = s.regs := by
  unfold State.slotChecked
  rw [State.dropDrydown_eq]
  exact ⟨rfl, rfl, rfl⟩

theorem State.slotChecked_drops {s : State} (passed : Bool) (held : Option Nat)
    (h : ∀ b, s.islandServes b = true → (s.islPlan b).checked = some (s.islPlan b).seq) :
    (s.slotChecked passed held).plan.drydown = none := State.dropDrydown_drops h

/-- What the check of a due slot leaves: the emitter's slot prepared, the notices popped, and what Sillage counted of them. -/
theorem finalCheck_checks {s0 : State} {t : Nat} (hdue : (s0.at t).checkDue (s0.at t).emitter = true) :
    ∃ u, Counted (s0.at t).emits.1.popSelections u ∧ finalCheck t s0 =
      u.slotChecked (s0.at t).emits.2.passed (s0.at t).emits.2.held := by
  generalize hs : s0.at t = s at hdue ⊢
  have hfold : Counted s.emits.1.popSelections (s.emits.1.popSelections.countDiscarded (s.selections s.emitter)) :=
    Counted.foldl (fun s _ => Counted.event s 17) _ _
  unfold finalCheck
  rw [hs]
  refine ⟨_, ?_, if_pos hdue⟩
  unfold State.emits State.countDiscarded State.shadowed at hfold
  split
  · exact hfold.trans (Counted.ite (Counted.event _ 32) (.refl _))
  · exact hfold

theorem State.emits_eq (s : State) : s.emits.2 = s.shadowed.chooseSlot s.emitter (lastSome (s.selections s.emitter)) := by
  unfold State.emits
  rw [State.prepare_eq]

theorem State.shadowed_safe (s : State) : s.shadowed.safe = s.safe ∧ s.shadowed.regs = s.regs := by
  unfold State.shadowed
  split
  · exact ⟨rfl, rfl⟩
  · exact ⟨rfl, rfl⟩

theorem State.shadowed_checked {s : State} (h : s.checkDue (!s.emitter) = true) :
    (s.shadowed.islPlan (!s.emitter)).checked = some (s.shadowed.islPlan (!s.emitter)).seq := by
  unfold State.shadowed
  rw [if_pos h]
  exact s.prepare_checked _ _

theorem State.emits_regs (s : State) : s.emits.1.regs = s.regs := s.shadowed_safe.2

theorem State.emits_safe (s : State) : s.emits.1.safe = s.safe := s.shadowed_safe.1

theorem State.emits_ne (s : State) {b : Bool} (h : s.emitter ≠ b) : s.emits.1.islPlan b = s.shadowed.islPlan b :=
  State.islPlan_set_ne _ _ h

/-- A due slot is prepared, its notices are popped, and the level-4 state is taken over. -/
theorem finalCheck_results {s0 : State} {t : Nat} (hdue : (s0.at t).checkDue (s0.at t).emitter = true) :
    ∃ t2, finalCheck t s0 = t2 ∧ t2.islPlan (s0.at t).emitter = (s0.at t).emits.1.islPlan (s0.at t).emitter ∧
      t2.plan.held = (s0.at t).emits.2.held ∧
      ((s0.at t).islandServes (!(s0.at t).emitter) = false ∨ (s0.at t).checkDue (!(s0.at t).emitter) = true → t2.plan.drydown = none) ∧
      t2.safe.passes = (if (s0.at t).emits.2.passed then min 40 ((s0.at t).safe.passes + 1) else 0) ∧
      ∀ p, p < 8 → t2.getF (qPtr (selQueue p)) qHEAD = (s0.at t).qTailOf (selQueue p) % 2 ^ qHEAD.w := by
  obtain ⟨u, hu, heq⟩ := finalCheck_checks hdue
  generalize s0.at t = s at *
  have hisl : ∀ b, u.islPlan b = s.emits.1.islPlan b := fun b =>
    (hu.islPlan b).trans (State.popSelections_keeps _ (fun s => s.islPlan b) fun _ _ _ _ _ _ => rfl)
  have hserves : ∀ b, u.islandServes b = s.islandServes b := fun b =>
    (hu.serves b).trans ((State.popSelections_serves _ b).trans (State.serves_of_regs s.emits_regs b))
  refine ⟨_, heq, ?_, ?_, fun hother => ?_, ?_, fun p hp => ?_⟩
  · exact (State.slotChecked_islPlan _ _ _ _).trans (hisl _)
  · exact (State.slotChecked_fields _ _ _).1
  · refine State.slotChecked_drops _ _ fun b hb => ?_
    rw [hserves b] at hb
    rw [hisl b]
    by_cases he : s.emitter = b
    · subst he
      exact State.prepare_checked _ _ _
    · rw [s.emits_ne he]
      obtain rfl : (!s.emitter) = b := by
        revert he
        cases s.emitter <;> cases b <;> decide
      refine s.shadowed_checked (hother.resolve_left ?_)
      rw [hb]
      decide
  · rw [(State.slotChecked_fields _ _ _).2.1, hu.safe, State.popSelections_keeps _ (fun s => s.safe) fun _ _ _ _ _ _ => rfl, s.emits_safe]
  · have hsil : qPtr (selQueue p) ≠ SIL_STATUS := by
      unfold qPtr SIL_STATUS silBase
      rw [QCFG_selQueue hp]
      unfold unitBlk
      omega
    rw [State.getF_of_regs (State.slotChecked_fields _ _ _).2.2, hu.regs _ _ hsil (by decide), State.popSelections_head _ hp]
    exact congrArg (· % 2 ^ qHEAD.w) (State.getF_of_regs s.emits_regs _ _)

end Sys2Proof.Machine


/-! PROOFS. The Drydown, records and status frames -/

namespace Sys2Proof.Machine

set_option Elab.async false

/-! The Drydown. -/

theorem length_ddStates (b : List Nat) (v a dd : Nat) (curv : Nat → Nat) (n m : Nat) (t : TSt) : (ddStates b v a dd curv n m t).length = n := by
  induction n generalizing m t with
  | zero => rfl
  | succ n ih => exact congrArg (· + 1) (ih _ _)

theorem State.length_drydownOn (s : State) (b : Bool) (t n : Nat) (curv : Nat → Nat) : (s.drydownOn b t n curv).length = n :=
  length_ddStates _ _ _ _ _ _ _ _

/-- Island A's Drydown for the slot at `t`, where the plan frame is that of `pose`. -/
def State.basisDrydown (s : State) (t : Nat) (pose : List Nat) : List TSt :=
  if s.plan.basis = [] then s.ownDrydown false t
  else
    s.drydownOn false t 80 (pathCurv (if decide (fieldAt s.plan.basis 0xC 1 = 1) &&
        (firstHit (s.islandGrid false) (Config.carryOrigin (s.islPlan false).origin (s.islPlan false).zeroPose pose) s.plan.vehicle
          (s.drydownOn false t 800 (pathCurv (basisPath s.plan.basis 320 s.plan.basisPose pose)))).isNone
      then basisPath s.plan.basis 320 s.plan.basisPose pose else basisPath s.plan.basis 64 s.plan.basisPose pose))

theorem State.length_basisDrydown (s : State) (t : Nat) (pose : List Nat) : (s.basisDrydown t pose).length = 80 := by
  unfold State.basisDrydown
  split
  · exact s.length_drydownOn _ _ _ _
  · exact s.length_drydownOn _ _ _ _

theorem State.basisDrydown_nil {s : State} (t : Nat) (pose : List Nat) (h : s.plan.basis = []) :
    s.basisDrydown t pose = s.ownDrydown false t := if_pos h

/-- Island A keeps the Drydown `l` and the grid that it used. -/
def State.keepDrydown (s : State) (l : List TSt) : State :=
  let u := s.setIslPlan false { s.islPlan false with grid := s.islandGrid false }
  { u with plan := { u.plan with drydown := some l } }

theorem drydownCompute_computes {s0 : State} {t : Nat} (hs : (s0.at t).islandServes false = true) (inTime : Bool)
    (hin : inTime = decide ((s0.at t).now + ms 1 ≤ (s0.at t).slotTime false)) (at_ : Nat)
    (hat : at_ = (s0.at t).slotTime false + (if inTime then 0 else ms 25)) (s1 : State)
    (hs1 : s1 = (s0.at t).takeBases (((s0.at t).odoOf false).poseAt at_)) :
    drydownCompute t s0 =
      if inTime then (((s1.keepDrydown (s1.basisDrydown at_ (((s0.at t).odoOf false).poseAt at_))).takeDrydown false).takeDrydown true).dropDrydown
      else s1.keepDrydown (s1.basisDrydown at_ (((s0.at t).odoOf false).poseAt at_)) := by
  subst hin hat hs1
  unfold drydownCompute State.keepDrydown State.basisDrydown
  exact if_neg (by rw [hs]; decide)

theorem State.takeDrydown_cases (s : State) (b : Bool) :
    s.takeDrydown b = s ∨ ∃ r, s.takeDrydown b = s.setIslPlan b { s.islPlan b with slot := some r } := by
  unfold State.takeDrydown
  dsimp only
  split
  · exact .inl rfl
  · exact .inr ⟨_, rfl⟩

theorem State.takeDrydown_keeps (s : State) (b : Bool) : (s.takeDrydown b).plan.basis = s.plan.basis ∧
    (s.takeDrydown b).plan.drydown = s.plan.drydown ∧ (s.takeDrydown b).regs = s.regs := by
  obtain h | ⟨r, h⟩ := s.takeDrydown_cases b
  · rw [h]
    exact ⟨rfl, rfl, rfl⟩
  · rw [h]
    exact ⟨rfl, rfl, rfl⟩

theorem State.takeDrydown_islPlan_ne (s : State) {b c : Bool} (h : b ≠ c) : (s.takeDrydown b).islPlan c = s.islPlan c := by
  obtain heq | ⟨r, heq⟩ := s.takeDrydown_cases b
  · rw [heq]
  · rw [heq, s.islPlan_set_ne _ h]

theorem State.takeDrydown_frame (s : State) (b : Bool) :
    ((s.takeDrydown b).islPlan b).checked = (s.islPlan b).checked ∧ ((s.takeDrydown b).islPlan b).seq = (s.islPlan b).seq := by
  obtain h | ⟨r, h⟩ := s.takeDrydown_cases b
  · rw [h]
    exact ⟨rfl, rfl⟩
  · rw [h, State.islPlan_set_same]
    exact ⟨rfl, rfl⟩

/-- Island A's own record takes the Drydown that island A keeps. -/
theorem State.takeDrydown_slot {s : State} {r : Record} {l : List TSt} (hr : (s.islPlan false).slot = some r) (hl : s.plan.drydown = some l) :
    ((s.takeDrydown false).islPlan false).slot =
      some (r.withDrydown (s.islPlan false).grid (s.islPlan false).origin s.plan.vehicle l true) := by
  have hdd : s.recordDrydown false (s.islPlan false).slotAt = (l, true) := by
    unfold State.recordDrydown
    rw [hl]
  unfold State.takeDrydown
  dsimp only
  rw [hr]
  dsimp only
  rw [hdd, State.islPlan_set_same]

theorem State.keepDrydown_islPlan (s : State) (l : List TSt) :
    (s.keepDrydown l).islPlan false = { s.islPlan false with grid := s.islandGrid false } := State.islPlan_set_same s false _

theorem State.keepDrydown_plan (s : State) (l : List TSt) :
    (s.keepDrydown l).plan.basis = s.plan.basis ∧ (s.keepDrydown l).plan.drydown = some l := ⟨rfl, rfl⟩

theorem State.takeBases_serves (s : State) (pose : List Nat) (b : Bool) : (s.takeBases pose).islandServes b = s.islandServes b := by
  unfold State.takeBases
  refine foldl_keeps (R := fun s : State => s.islandServes b) (fun s p hp => ?_) s
  have hne : qPtr (basisQueue p) ≠ ISL_STATUS := by
    have hp := List.mem_range.1 hp
    unfold qPtr ISL_STATUS
    rw [QCFG_of_lt (by unfold basisQueue; omega)]
    unfold basisQueue unitBlk
    omega
  refine (foldl_keeps (R := fun s : State => s.islandServes b) (fun s y _ => ?_) _).trans
    ((State.serves_setF _ _ b hne).trans (State.serves_setF _ _ b hne))
  dsimp only
  split
  · rfl
  · rfl

/-- What a Drydown delivered in time leaves. -/
theorem State.deliver_results {s : State} (hs : s.islandServes false = true) (l : List TSt) (t : State)
    (ht : t = (((s.keepDrydown l).takeDrydown false).takeDrydown true).dropDrydown) : t.plan.basis = s.plan.basis ∧
      ((s.islPlan false).checked ≠ some (s.islPlan false).seq → t.plan.drydown = some l) ∧
      ∀ r, (s.islPlan false).slot = some r →
        (t.islPlan false).slot = some (r.withDrydown (s.islandGrid false) (s.islPlan false).origin s.plan.vehicle l true) := by
  obtain ⟨hbA, hdA, hrA⟩ := (s.keepDrydown l).takeDrydown_keeps false
  obtain ⟨hbB, hdB, hrB⟩ := ((s.keepDrydown l).takeDrydown false).takeDrydown_keeps true
  have hA := ((s.keepDrydown l).takeDrydown false).takeDrydown_islPlan_ne (b := true) (c := false) (by decide)
  obtain ⟨hcheck, hseq⟩ := (s.keepDrydown l).takeDrydown_frame false
  rw [State.keepDrydown_islPlan] at hcheck hseq
  refine ⟨?_, fun hopen => ?_, fun r hr => ?_⟩
  · rw [ht, State.dropDrydown_eq]
    exact hbB.trans hbA
  · have hserves := (State.serves_of_regs (hrB.trans hrA) false).trans hs
    rw [ht, State.dropDrydown_keeps false hserves (by rw [hA, hcheck, hseq]; exact hopen)]
    exact hdB.trans hdA
  · rw [ht, State.dropDrydown_islPlan, hA]
    have hslot : ((s.keepDrydown l).islPlan false).slot = some r := by
      rw [State.keepDrydown_islPlan]
      exact hr
    rw [State.takeDrydown_slot hslot rfl, State.keepDrydown_islPlan]
    rfl

/-- What DRYDOWN_COMPUTE leaves, in time for the slot of this frame or for the next. -/
theorem drydownCompute_results {s0 : State} {t : Nat} (hs : (s0.at t).islandServes false = true) (inTime : Bool)
    (hin : inTime = decide ((s0.at t).now + ms 1 ≤ (s0.at t).slotTime false)) (at_ : Nat)
    (hat : at_ = (s0.at t).slotTime false + (if inTime then 0 else ms 25)) (pose : List Nat)
    (hpose : pose = ((s0.at t).odoOf false).poseAt at_) (s1 : State) (hs1 : s1 = (s0.at t).takeBases pose)
    (x : IslPlan) (hx : x = s1.islPlan false) : ∃ t2 l, drydownCompute t s0 = t2 ∧ l.length = 80 ∧ t2.plan.basis = s1.plan.basis ∧
      (s1.plan.basis = [] → l = s1.ownDrydown false at_) ∧
      (inTime = false ∨ x.checked ≠ some x.seq → t2.plan.drydown = some l) ∧
      ∀ r, inTime = true → x.slot = some r →
        (t2.islPlan false).slot = some (r.withDrydown (s1.islandGrid false) x.origin s1.plan.vehicle l true) := by
  subst hx
  have hserves : s1.islandServes false = true := by
    rw [hs1, State.takeBases_serves, hs]
  have heq := drydownCompute_computes hs inTime hin at_ hat s1 (by rw [hs1, hpose])
  rw [← hpose] at heq
  have hnil := State.basisDrydown_nil (s := s1) at_ pose
  have hlen := s1.length_basisDrydown at_ pose
  generalize s1.basisDrydown at_ pose = l at heq hnil hlen
  by_cases hin : inTime = true
  · rw [if_pos hin] at heq
    obtain ⟨hbasis, hdd, hslot⟩ := State.deliver_results hserves l _ rfl
    exact ⟨_, l, heq, hlen, hbasis, hnil, fun h => hdd (h.resolve_left (by rw [hin]; decide)), fun r _ hr => hslot r hr⟩
  · rw [if_neg hin] at heq
    obtain ⟨hbasis, hdd⟩ := s1.keepDrydown_plan l
    exact ⟨_, l, heq, hlen, hbasis, hnil, fun _ => hdd, fun r h => absurd h hin⟩

/-! A record leaves. -/

theorem State.reopenMailbox_keeps {β : Type} (s : State) (R : State → β)
    (h : ∀ (s : State) (p : Nat), p < 8 → R (s.winRound 63 p) = R s) : R s.reopenMailbox = R s := by
  refine foldl_keeps (fun s p hp => ?_) s
  split
  · exact h s p (List.mem_range.1 hp)
  · rfl

theorem State.reopenMailbox_claim (s : State) (f : FD) (hf : f.lo < 64) : s.reopenMailbox.getF EMIT_CLAIM f = s.getF EMIT_CLAIM f :=
  s.reopenMailbox_keeps (fun s => s.getF EMIT_CLAIM f) fun s p hp => by
    have hne : winStat 63 p ≠ EMIT_CLAIM := by
      unfold winStat WIN EMIT_CLAIM unitBlk
      rw [if_pos rfl]
      omega
    exact State.getF_setF_addr s (f := winSEALED) 0 hne (by decide) hf

theorem State.recordExtremes_counted (s : State) (b : Bool) (r : Record) : Counted s (s.recordExtremes b r) := by
  unfold State.recordExtremes
  exact (Counted.ite (c := (s.islPlan b).last.isSome = true) (Counted.extreme _ _ _) (.refl s)).trans (Counted.extreme _ _ _)

/-- What island `b` and its port hold of a record that has left. -/
def State.leave (s : State) (b : Bool) (x : IslPlan) (y : PortRt) (valid : Bool) (level3 held : Option Nat) : State :=
  let s := (s.setIslPlan b x).setPort (6 + b2n b) y
  let s := if valid then { s with sup := { s.sup with warmSince := none } } else s
  { s with plan := { s.plan with level3 := level3, held := held } }

theorem State.leave_port (s : State) (b : Bool) (x : IslPlan) (y : PortRt) (valid : Bool) (level3 held : Option Nat) :
    (s.leave b x y valid level3 held).port (6 + b2n b) = y := by
  cases valid
  · exact Tab.get_set_same
  · exact Tab.get_set_same

theorem State.leave_islPlan (s : State) (b : Bool) (x : IslPlan) (y : PortRt) (valid : Bool) (level3 held : Option Nat) :
    (s.leave b x y valid level3 held).islPlan b = x := by
  cases valid
  · exact Tab.get_set_same
  · exact Tab.get_set_same

theorem State.leave_regs (s : State) (b : Bool) (x : IslPlan) (y : PortRt) (valid : Bool) (level3 held : Option Nat) :
    (s.leave b x y valid level3 held).regs = s.regs := by
  unfold State.leave
  dsimp only
  split
  · rfl
  · rfl

theorem State.recordLeft_eq (s : State) (b : Bool) (r : Record) : ∃ x y level3 held,
    s.recordLeft b r = (s.recordExtremes b r).leave b x y r.valid level3 held ∧ x.last = some r ∧ x.slot = none ∧
      y.sent = recordBytes r ∧
      y.packets = recordPackets ((s.recordExtremes b r).cfg.nets.getD (b2n b) {}) r.seq (recordBytes r) := by
  unfold State.recordLeft State.leave
  generalize s.recordExtremes b r = u
  generalize recordBytes r = m
  exact ⟨_, _, _, _, rfl, rfl, rfl, rfl, rfl⟩

/-- What a record that has left changes of what the island and its port hold. -/
theorem State.recordLeft_results (s : State) (b : Bool) (r : Record) :
    ((s.recordLeft b r).port (6 + b2n b)).sent = recordBytes r ∧
      ((s.recordLeft b r).port (6 + b2n b)).packets = recordPackets (s.cfg.nets.getD (b2n b) {}) r.seq (recordBytes r) ∧
      ((s.recordLeft b r).islPlan b).last = some r ∧ ((s.recordLeft b r).islPlan b).slot = none ∧
      ∀ f, f.lo < 64 → (s.recordLeft b r).getF EMIT_CLAIM f = s.getF EMIT_CLAIM f := by
  have hc := s.recordExtremes_counted b r
  obtain ⟨x, y, level3, held, heq, hlast, hslot, hsent, hpackets⟩ := s.recordLeft_eq b r
  rw [hc.cfg] at hpackets
  rw [heq, State.leave_port, State.leave_islPlan]
  exact ⟨hsent, hpackets, hlast, hslot, fun f hf =>
    (State.getF_of_regs (State.leave_regs _ _ _ _ _ _ _) _ _).trans (hc.regs EMIT_CLAIM f (by decide) hf)⟩

/-- The claim of sequence `n` by island `b`, after which a safe state that may end has ended. -/
def State.claimed (s : State) (b : Bool) (n : Nat) : State :=
  let u := ((s.setF EMIT_CLAIM ecSEQ n).setF EMIT_CLAIM ecBY (b2n b)).setF EMIT_CLAIM ecTAKEOVER 0
  if u.safeMayEnd then u.endSafe else u

theorem State.endSafe_getF (s : State) {a : Nat} {f : FD} (h : SAFE_STATUS ≠ a) (hf : f.lo < 64) : s.endSafe.getF a f = s.getF a f :=
  (State.getF_setF_addr _ (f := safINTEGRITY) _ h (by decide) hf).trans
    ((State.getF_setF_addr _ (f := safREASON) 0 h (by decide) hf).trans (State.getF_setF_addr s (f := safSAFE) 0 h (by decide) hf))

theorem State.claimed_claim (s : State) (b : Bool) {n : Nat} (h : n < 2 ^ 32) :
    (s.claimed b n).getF EMIT_CLAIM ecSEQ = n ∧ (s.claimed b n).getF EMIT_CLAIM ecBY = b2n b := by
  have hu : ∀ u : State, ∀ f : FD, f.lo < 64 → (if u.safeMayEnd then u.endSafe else u).getF EMIT_CLAIM f = u.getF EMIT_CLAIM f := by
    intro u f hf
    split
    · exact u.endSafe_getF (by decide) hf
    · rfl
  unfold State.claimed
  dsimp only
  rw [hu _ ecSEQ (by decide), hu _ ecBY (by decide)]
  rw [State.getF_setF_lo, State.getF_setF_lo, State.getF_setF_same, State.getF_setF_lo, State.getF_setF_same]
  exact ⟨Nat.mod_eq_of_lt h, Nat.mod_eq_of_lt (by cases b <;> decide)⟩

theorem State.claimed_cfg (s : State) (b : Bool) (n : Nat) : (s.claimed b n).cfg = s.cfg := by
  unfold State.claimed
  dsimp only
  split
  · rfl
  · rfl

theorem recordEmit_sends {s0 : State} {t : Nat} {r : Record} (hs : (s0.at t).islandServes (s0.at t).emitter = true)
    (hdue : (s0.at t).emitDue (s0.at t).emitter = true) (hr : ((s0.at t).islPlan (s0.at t).emitter).slot = some r)
    (hn : ((s0.at t).islPlan (s0.at t).emitter).want = ((s0.at t).getF EMIT_CLAIM ecSEQ + 1) % 2 ^ 32) :
    let n := ((s0.at t).islPlan (s0.at t).emitter).want
    let u := (s0.at t).claimed (s0.at t).emitter n
    recordEmit t s0 = (u.recordLeft (s0.at t).emitter (u.outRecord (s0.at t).emitter n r)).reopenMailbox := by
  intro n u
  have hok : (s0.at t).claimOk false n = true := decide_eq_true hn
  have hsend : (s0.at t).sendRecord (s0.at t).emitter false = (u.recordLeft (s0.at t).emitter (u.outRecord (s0.at t).emitter n r), true) := by
    unfold State.sendRecord
    dsimp only
    rw [hr]
    exact if_neg (by rw [hok]; decide)
  unfold recordEmit
  dsimp only
  rw [if_pos ((Bool.and_eq_true _ _).mpr ⟨hs, hdue⟩), hsend]

theorem State.outRecord_safe {s : State} (b : Bool) (n : Nat) (r : Record) (h : s.flag SAFE_STATUS safSAFE = true) :
    (s.outRecord b n r).valid = false ∧ (s.outRecord b n r).source = 3 ∧ (s.outRecord b n r).traj = r.dd ∧
      (s.outRecord b n r).reason = s.getF SAFE_STATUS safREASON := by
  unfold State.outRecord
  dsimp only
  rw [if_pos h, h]
  exact ⟨rfl, rfl, rfl, rfl⟩

theorem State.outRecord_valid {s : State} (b : Bool) (n : Nat) (r : Record) (h : s.flag SAFE_STATUS safSAFE = false) :
    (s.outRecord b n r).valid = true ∧ (s.outRecord b n r).source = r.source ∧ (s.outRecord b n r).traj = r.traj ∧
      (s.outRecord b n r).reason = r.reason := by
  unfold State.outRecord
  dsimp only
  rw [if_neg (by rw [h]; decide), h]
  exact ⟨rfl, rfl, rfl, rfl⟩

theorem State.outRecord_head (s : State) (b : Bool) (n : Nat) (r : Record) :
    (s.outRecord b n r).seq = n ∧ (s.outRecord b n r).emitter = b2n b ∧ (s.outRecord b n r).capability = r.capability := by
  unfold State.outRecord
  dsimp only
  split
  · exact ⟨rfl, rfl, rfl⟩
  · exact ⟨rfl, rfl, rfl⟩

theorem statusFrame_sends {s0 : State} {t : Nat} {b : Bool} (h : (s0.at t).islandServes b = true) :
    ((statusFrame b t s0).port (12 + b2n b)).sent =
      bytesOf 4 ((s0.at t).cfg.statusIds.getD (b2n b) 0 % 2048 + 3 * 2 ^ 30) ++ [64] ++ (s0.at t).statusBytes b := by
  unfold statusFrame
  dsimp only
  rw [if_neg (by rw [h]; decide)]
  exact congrArg PortRt.sent Tab.get_set_same

/-- Settles O33, stage by stage: the check, the Drydown, the record and the status frame. -/
theorem planningResults : Obligations.PlanningResults := by
  unfold Obligations.PlanningResults
  intro s0 t b s
  refine ⟨?_, ?_, ?_, ?_, ?_⟩
  · intro e s1 c hdue
    obtain ⟨t2, heq, hisl, hheld, hdrop, hpass, hhead⟩ := finalCheck_results hdue
    rw [State.emits_eq] at hheld hpass
    rw [State.emits, State.prepare_islPlan] at hisl
    exact ⟨t2, next_eq heq, congrArg IslPlan.slot hisl, congrArg IslPlan.want hisl, hheld, hdrop, hpass, hhead⟩
  · intro inTime at_ pose s1 x hs
    obtain ⟨t2, l, heq, hres⟩ := drydownCompute_results hs inTime rfl at_ rfl pose rfl s1 rfl x rfl
    exact ⟨t2, l, next_eq heq, hres⟩
  · intro r e n s1 s2 hs hdue hr hn
    have heq := recordEmit_sends hs hdue hr hn
    obtain ⟨hsent, hpackets, hlast, hslot, hregs⟩ := s2.recordLeft_results e (s2.outRecord e n r)
    obtain ⟨hseq, hemit, hcap⟩ := s2.outRecord_head e n r
    obtain ⟨hcseq, hcby⟩ := s.claimed_claim e (n := n) (by omega)
    have hport := (s2.recordLeft e (s2.outRecord e n r)).reopenMailbox_keeps (fun s => s.port (6 + b2n e)) fun _ _ _ => rfl
    have hisl := (s2.recordLeft e (s2.outRecord e n r)).reopenMailbox_keeps (fun s => s.islPlan e) fun _ _ _ => rfl
    have hclaim := fun f hf => ((s2.recordLeft e (s2.outRecord e n r)).reopenMailbox_claim f hf).trans (hregs f hf)
    have hcfg : s2.cfg = s.cfg := s.claimed_cfg e n
    rw [hseq, hcfg] at hpackets
    exact ⟨_, s2.outRecord e n r, next_eq heq, (congrArg PortRt.sent hport).trans hsent, (congrArg PortRt.packets hport).trans hpackets,
      (congrArg IslPlan.last hisl).trans hlast, (congrArg IslPlan.slot hisl).trans hslot, hseq, hemit, hcap,
      (hclaim ecSEQ (by decide)).trans hcseq, (hclaim ecBY (by decide)).trans hcby, fun h => State.outRecord_safe e n r h,
      fun h => State.outRecord_valid e n r h⟩
  · intro u h3 hheld hdue
    refine next_eq ?_
    unfold handoverTimeout
    dsimp only
    rw [h3, hheld]
    exact if_pos hdue
  · intro hs
    exact ⟨_, rfl, statusFrame_sends hs⟩

end Sys2Proof.Machine


/-! PROOFS. Calibration and store writes -/

namespace Sys2Proof.Machine

set_option Elab.async false

/-- A write of the configuration store begins while both NOR devices have failed, and a third bit of that mask is set. -/
def strayNor : State :=
  { State.reset with stores := [(1, { wr := some (.data []) })], ident := { State.reset.ident with norFailed := 7 } }

/-- The write goes to bank 1, which is not there. -/
theorem strayNor_write : (storeWrite 1 0 (strayNor.at 0)).storeVal 1 = none := by decide +kernel

/-- Refutes O34: its premise rules out the mask 3 of two failed NOR devices, not another mask with both bits, and then the value
written is not the store's. -/
theorem not_calibrationAndStoreResults : ¬ Obligations.CalibrationAndStoreResults := by
  intro h
  obtain ⟨_, _, _, _, hwrite, _⟩ := h strayNor 0 0 1
  obtain ⟨_, heq, hval, _⟩ := hwrite (.data []) (by decide +kernel) (by decide +kernel)
  cases heq
  exact absurd (strayNor_write.symm.trans hval) (by decide)

end Sys2Proof.Machine


/-! PROOFS. What a push leaves unchanged -/

namespace Sys2Proof.Machine

set_option Elab.async false

/-- A field of a register that begins at none of the bits where a push and what it counts write one. -/
def pushFree (f : FD) : Bool := decide (f.lo < 64 ∧ f.lo ≠ 0 ∧ f.lo ≠ 24 ∧ f.lo ≠ 32)

/-- `t` is `s` but for memory and its errors, the quarantine, Sillage, the marks of pushed entries, the interrupt files, and register
fields at the bits 0, 24 and 32. -/
structure Pushes (s t : State) : Prop where
  eq : t = { s with regs := t.regs, mem := t.mem, ecc := t.ecc, edc := t.edc, lastFix := t.lastFix, quar := t.quar, chErrs := t.chErrs,
                    sil := t.sil, qIsland := t.qIsland, imsic := t.imsic }
  regs : ∀ a f, pushFree f = true → t.getF a f = s.getF a f

theorem Pushes.refl (s : State) : Pushes s s := ⟨rfl, fun _ _ _ => rfl⟩

theorem Pushes.trans {s t u : State} (h : Pushes s t) (h' : Pushes t u) : Pushes s u where
  eq := by rw [h'.eq, h.eq]
  regs a f hf := (h'.regs a f hf).trans (h.regs a f hf)

theorem Pushes.setF (s : State) (a : Nat) (f : FD) (v : Nat) (h : f.lo = 0 ∨ f.lo = 24 ∨ f.lo = 32 := by decide) :
    Pushes s (s.setF a f v) := by
  refine ⟨rfl, fun b g hg => State.getF_setF_ne s v ?_⟩
  have hg : _ ∧ _ := of_decide_eq_true hg
  unfold FD.key
  omega

theorem Pushes.ite {s t u : State} {c : Prop} [Decidable c] (ht : Pushes s t) (hu : Pushes s u) : Pushes s (if c then t else u) := by
  split
  · exact ht
  · exact hu

theorem Pushes.foldl {α : Type} {f : State → α → State} (h : ∀ s x, Pushes s (f s x)) (l : List α) (s : State) : Pushes s (l.foldl f s) := by
  induction l generalizing s with
  | nil => exact .refl s
  | cons x l ih => exact (h s x).trans (ih _)

/-- A fold that carries a state beside other values. -/
theorem Pushes.foldl_fst {α β : Type} {f : State × β → α → State × β} (h : ∀ p x, Pushes p.1 (f p x).1) (l : List α) (p : State × β) :
    Pushes p.1 (l.foldl f p).1 := by
  induction l generalizing p with
  | nil => exact .refl _
  | cons x l ih => exact (h p x).trans (ih _)

theorem Pushes.sil1 (s : State) (h b : Nat) : Pushes s (s.sil1 h b) := by
  unfold State.sil1
  split
  · exact .setF s _ _ _
  · dsimp only
    split
    · exact ⟨rfl, fun _ _ _ => rfl⟩
    · exact ⟨rfl, fun _ _ _ => rfl⟩

theorem Pushes.event (s : State) (b : Nat) : Pushes s (s.event b) := .sil1 s 381 b

theorem Pushes.countEcc1 (s : State) (a : Nat) (bad : Bool) : Pushes s (s.countEcc1 a bad) := by
  unfold State.countEcc1
  split
  · exact .sil1 s _ _
  · exact .sil1 s _ _
  · exact .sil1 s _ _
  · exact .refl s

theorem Pushes.setCause (s : State) (k : Nat) (on : Bool) : Pushes s (s.setCause k on) :=
  (Pushes.setF s INTEG_CAUSE icCAUSE _).trans (Pushes.setF _ SAFE_STATUS safINTEGRITY _)

theorem Pushes.chanError (s : State) (a : Nat) : Pushes s (s.chanError a) := by
  unfold State.chanError
  dsimp only
  have hnote : ∀ m, Pushes s { s with chErrs := m } := fun m => ⟨rfl, fun _ _ _ => rfl⟩
  split
  · exact hnote _
  · exact (hnote _).trans (((Pushes.setF _ MC_STATUS mcCHOK _).trans (Pushes.setF _ MC_STATUS mcDEGRADED 1)).trans (Pushes.setCause _ 4 true))

theorem Pushes.setEdc (s : State) (l : List Nat) : Pushes s { s with edc := l } := ⟨rfl, fun _ _ _ => rfl⟩

theorem Pushes.countEcc (s : State) (a : Nat) (bad : Bool) : Pushes s (s.countEcc a bad) := by
  unfold State.countEcc
  exact (Pushes.countEcc1 s a bad).trans (Pushes.ite ((Pushes.chanError _ a).trans (Pushes.setEdc _ _)) (.refl _))

theorem Pushes.takeOut (s : State) (a : Nat) : Pushes s (s.takeOut a) := by
  have hquar : ∀ (s : State) m, Pushes s { s with quar := m } := fun s m => ⟨rfl, fun _ _ _ => rfl⟩
  unfold State.takeOut
  split
  · exact ((Pushes.setF s (UNIT_STATUS _) stSTATE stOut).trans (Pushes.setF _ DIR_HEAD dirSEQ _)).trans (hquar _ _)
  · exact ((Pushes.setF s MC_STATUS mcCSOK _).trans (Pushes.setF _ DIR_HEAD dirSEQ _)).trans (hquar _ _)
  · exact .refl s

theorem Pushes.correct (s : State) (w : Nat) : Pushes s (s.correct w) := by
  have hfix : ∀ (s : State) l e, Pushes s { s with lastFix := l, ecc := e } := fun s l e => ⟨rfl, fun _ _ _ => rfl⟩
  unfold State.correct
  dsimp only
  split
  · exact (Pushes.countEcc s _ _).trans (Pushes.ite (Pushes.takeOut _ _) (hfix _ _ _))
  · exact (Pushes.countEcc s _ _).trans (Pushes.ite (Pushes.takeOut _ _) (hfix _ _ _))
  · exact Pushes.countEcc s _ _

theorem Pushes.correctIn (s : State) (a n : Nat) : Pushes s (s.correctIn a n) := by
  unfold State.correctIn
  exact Pushes.foldl (fun s _ => .correct s _) _ s

theorem Pushes.putBytes (s : State) (a : Nat) (bs : List Byte) : Pushes s (s.putBytes a bs) where
  eq := by
    induction bs generalizing s a with
    | nil => rfl
    | cons b bs ih => exact ih _ _
  regs a f _ := State.getF_of_regs (s.putBytes_regs _ bs) a f

theorem Pushes.eccClear (s : State) (a n : Nat) : Pushes s (s.eccClear a n) := ⟨rfl, fun _ _ _ => rfl⟩

theorem Pushes.store (s : State) (a : Nat) (bs : List Byte) : Pushes s (s.store a bs) :=
  (Pushes.putBytes s a bs).trans (.eccClear _ _ _)

theorem Pushes.fallback (s : State) (b : Nat) : Pushes s (s.fallback b) := by
  unfold State.fallback
  exact (Pushes.sil1 s _ _).trans (Pushes.ite (.countEcc _ _ _) (.refl _))

theorem Pushes.writeWords (s : State) (a : Nat) (bs : List Byte) : Pushes s (s.writeWords a bs).1 := by
  unfold State.writeWords
  refine Pushes.foldl_fst (fun p q => ?_) _ (s, false, bs)
  obtain ⟨s, bad, rest⟩ := p
  dsimp only
  split
  · exact .store s _ _
  · split
    · exact .refl s
    · exact ((Pushes.correctIn s _ _).trans (.store _ _ _)).trans (.eccClear _ _ _)

theorem Pushes.writeLine (s : State) (point p b : Nat) (here : List Byte) : Pushes s (s.writeLine point p b here).1 := by
  unfold State.writeLine
  dsimp only
  split
  · exact .refl s
  · split
    · exact (Pushes.foldl (fun s c => .store s _ _) _ s).trans (.setEdc _ _)
    · split
      · exact .refl s
      · refine ((((Pushes.ite (.refl s) (.fallback s _)).trans (.correctIn _ _ _)).trans (Pushes.foldl (fun s c => ?_) _ _)).trans
          (.setEdc _ _))
        exact Pushes.ite ((Pushes.store s _ _).trans (.eccClear _ _ _)) (.store s _ _)

theorem Pushes.writeMem (s : State) (point p a : Nat) (bs : List Byte) : Pushes s (s.writeMem point p a bs).1 := by
  unfold State.writeMem
  split
  · refine Pushes.foldl_fst (fun p q => ?_) _ (s, false, bs)
    obtain ⟨s, bad, rest⟩ := p
    exact .writeLine s _ _ _ _
  · exact .writeWords s a bs

theorem Pushes.qDrop (s : State) (q : Nat) : Pushes s (s.qDrop q) := (Pushes.setF s (qCtl q) qOVERRUN 1).trans (.event _ 9)

theorem Pushes.qAppend (s : State) (q : Nat) (bs : List Nat) (island : Bool) : Pushes s (s.qAppend q bs island) := by
  have hmark : ∀ (s : State) m, Pushes s { s with qIsland := m } := fun s m => ⟨rfl, fun _ _ _ => rfl⟩
  unfold State.qAppend
  exact ((Pushes.writeMem s _ _ _ _).trans (Pushes.setF _ (qTail q) qTAIL _)).trans (hmark _ _)

theorem Pushes.pushHere (s : State) (q : Nat) (bs : List Nat) (by_ : Pusher) : Pushes s (s.pushHere q bs by_).1 := by
  cases by_ with
  | enq p =>
    unfold State.pushHere
    dsimp only
    split
    · exact .refl s
    · split
      · exact .qDrop s q
      · split
        · exact .refl s
        · exact .qAppend s q bs false
  | init p =>
    unfold State.pushHere
    dsimp only
    split
    · exact .event s 0
    · split
      · exact .qDrop s q
      · exact .qAppend s q bs false
  | island =>
    unfold State.pushHere
    dsimp only
    split
    · exact .qDrop s q
    · exact .qAppend s q bs true

theorem Pushes.push (s : State) (q : Nat) (bs : List Nat) (by_ : Pusher) : Pushes s (s.push q bs by_).1 := by
  unfold State.push
  split
  · dsimp only
    split
    · exact .qDrop s _
    · exact .pushHere s _ bs by_
  · exact .pushHere s q bs by_

theorem Pushes.msi (s : State) (hart file id : Nat) : Pushes s (s.msi hart file id) := by
  unfold State.msi
  split
  · exact .refl s
  · split
    · exact .refl s
    · exact ⟨rfl, fun _ _ _ => rfl⟩

theorem Pushes.cqInterrupt (s : State) (q : Nat) : Pushes s (s.cqInterrupt q) := by
  unfold State.cqInterrupt
  split
  · split
    · exact .msi s _ _ _
    · exact .refl s
  · exact .refl s

theorem Pushes.pushCq (s : State) (q : Nat) (bs : List Nat) (by_ : Pusher) : Pushes s (s.pushCq q bs by_) := by
  have hpush := Pushes.push s q bs by_
  unfold State.pushCq
  generalize s.push q bs by_ = p at hpush ⊢
  obtain ⟨u, r⟩ := p
  cases r
  · exact hpush.trans (.cqInterrupt _ _)
  · exact hpush
  · exact hpush
  · exact hpush

theorem Pushes.notice (s : State) (p state jidx cause jobId seq q : Nat) : Pushes s (s.notice p state jidx cause jobId seq q) :=
  .pushCq s _ _ _

theorem Pushes.jobNotice (s : State) (j cause : Nat) : Pushes s (s.jobNotice j cause) := .notice s _ _ _ _ _ _ _

section
variable {s t : State} (h : Pushes s t)
include h

theorem Pushes.sup : t.sup = s.sup := by rw [h.eq]
theorem Pushes.plan : t.plan = s.plan := by rw [h.eq]
theorem Pushes.jobs : t.jobs = s.jobs := by rw [h.eq]
theorem Pushes.units : t.units = s.units := by rw [h.eq]
theorem Pushes.now : t.now = s.now := by rw [h.eq]
theorem Pushes.cal : t.cal = s.cal := by rw [h.eq]

theorem Pushes.jobState (j : Nat) : t.jobState j = s.jobState j := h.regs (JOB_STAT j) jsSTATE (by decide)

end

end Sys2Proof.Machine


/-! PROOFS. Jobs -/

namespace Sys2Proof.Machine

set_option Elab.async false

/-! What a grant leaves of the job table. -/

/-- State and partition of every job stand. -/
def JobsStand (s t : State) : Prop := ∀ j f, f = jsSTATE ∨ f = jsPART → t.getF (JOB_STAT j) f = s.getF (JOB_STAT j) f

theorem JobsStand.refl (s : State) : JobsStand s s := fun _ _ _ => rfl

theorem JobsStand.trans {s t u : State} (h : JobsStand s t) (h' : JobsStand t u) : JobsStand s u :=
  fun j f hf => (h' j f hf).trans (h j f hf)

theorem JobsStand.of_regs {s t : State} (h : t.regs = s.regs) : JobsStand s t := fun _ _ _ => State.getF_of_regs h _ _

/-- A field that begins neither where a job's state nor where its partition stands. -/
def jobFree (f : FD) : Bool := decide (f.lo < 64 ∧ f.lo ≠ 16 ∧ f.lo ≠ 21)

theorem JobsStand.setF (s : State) (a : Nat) {f : FD} (v : Nat) (h : jobFree f = true := by decide) : JobsStand s (s.setF a f v) := by
  intro j g hg
  have h : _ ∧ _ := of_decide_eq_true h
  refine State.getF_setF_ne s v ?_
  have hlo : g.lo = 16 ∨ g.lo = 21 := by
    obtain rfl | rfl := hg
    · exact .inl rfl
    · exact .inr rfl
  unfold FD.key
  omega

/-- A register below the partition block is none of the job table. -/
theorem JobsStand.setF_below (s : State) {a : Nat} {f : FD} (v : Nat) (h : a < partBase) (hf : f.lo < 64) : JobsStand s (s.setF a f v) := by
  intro j g hg
  have hlo : g.lo < 64 := by
    obtain rfl | rfl := hg
    · decide
    · decide
  refine State.getF_setF_addr s v ?_ hf hlo
  unfold JOB_STAT
  omega

theorem JobsStand.andF {s t : State} (h : JobsStand s t) {a : Nat} {f : FD} {v : Nat} (hf : jobFree f = true := by decide) :
    JobsStand s (t.setF a f v) := h.trans (.setF t a v hf)

theorem JobsStand.andF_below {s t : State} {a : Nat} (ha : a < partBase) (h : JobsStand s t) {f : FD} {v : Nat}
    (hf : f.lo < 64 := by decide) : JobsStand s (t.setF a f v) := h.trans (.setF_below t v ha hf)

theorem JobsStand.ite {s t u : State} {c : Prop} [Decidable c] (ht : JobsStand s t) (hu : JobsStand s u) : JobsStand s (if c then t else u) := by
  split
  · exact ht
  · exact hu

theorem JobsStand.foldl {α : Type} {f : State → α → State} {l : List α} (h : ∀ s x, x ∈ l → JobsStand s (f s x)) (s : State) :
    JobsStand s (l.foldl f s) := by
  induction l generalizing s with
  | nil => exact .refl s
  | cons x l ih => exact (h s x List.mem_cons_self).trans (ih (fun s y hy => h s y (List.mem_cons_of_mem _ hy)) _)

theorem JobsStand.of_pushes {s t : State} (h : Pushes s t) : JobsStand s t := by
  intro j f hf
  refine h.regs _ f ?_
  obtain rfl | rfl := hf
  · decide
  · decide

/-- Writes of one register's fields. -/
theorem JobsStand.setFs (s : State) (a : Nat) {l : List (FD × Nat)} (h : (l.all fun x => jobFree x.1) = true) :
    JobsStand s (l.foldl (fun s (f, v) => s.setF a f v) s) :=
  JobsStand.foldl (fun s x hx => JobsStand.setF s a x.2 (List.all_eq_true.1 h x hx)) s

/-- Writes of one register below the partition block. -/
theorem JobsStand.setFs_below (s : State) {a : Nat} (ha : a < partBase) {l : List (FD × Nat)} (h : (l.all fun x => decide (x.1.lo < 64)) = true) :
    JobsStand s (l.foldl (fun s (f, v) => s.setF a f v) s) :=
  JobsStand.foldl (fun s x hx => JobsStand.setF_below s x.2 ha (of_decide_eq_true (List.all_eq_true.1 h x hx))) s

theorem JobsStand.putProgram (s : State) (c dest : Nat) (ws : List Nat) : JobsStand s (s.putProgram c dest ws) :=
  (JobsStand.of_regs rfl).trans (JobsStand.setF _ (UNIT_PVALID c) (f := pvalidPAGES) _)

theorem JobsStand.loadPrograms (s : State) (j : Nat) (p : Placement) : JobsStand s (s.loadPrograms j p) := by
  refine JobsStand.foldl (fun s x _ => ?_) s
  obtain ⟨i, dest, ws⟩ := x
  dsimp only
  split
  · exact .ite (.putProgram s _ _ _) (.refl s)
  · exact .refl s

theorem JobsStand.winRound (s : State) (u n : Nat) : JobsStand s (s.winRound u n) :=
  (JobsStand.setF s (winStat u n) (f := winSEALED) 0).trans (.of_regs rfl)

theorem winCtl_below {u n : Nat} (hu : u < 256) (hn : n < 256) : winCtl u n < partBase := by
  unfold winCtl WIN unitBlk partBase
  split
  · omega
  · omega

/-- The units of a placement have slots of one byte. -/
def Placement.byteSlots (p : Placement) : Prop := ∀ u ∈ p.units, u.slot < 256

theorem Placement.slotOf_lt {p : Placement} (h : p.byteSlots) (i : Nat) : p.slotOf i < 256 := by
  unfold Placement.slotOf
  cases hu : p.units[i]? with
  | none => decide
  | some u => exact h u (List.mem_of_getElem? hu)

theorem JobsStand.grantWindows {s : State} {j : Nat} {p : Placement} (hp : p.byteSlots) (hw : ∀ w ∈ (s.job j).wins, w.win < 256)
    (has : List (Nat × Nat)) : JobsStand s (s.grantWindows j p has) := by
  refine JobsStand.foldl (fun s w hmem => ?_) s
  have ha : winCtl (p.slotOf w.lunit) w.win < partBase := winCtl_below (Placement.slotOf_lt hp _) (hw w hmem)
  dsimp only
  generalize winCtl (p.slotOf w.lunit) w.win = a at ha ⊢
  split
  · exact (JobsStand.setF s a (f := winOWNER) _).trans (.ite (.winRound _ _ _) (.refl _))
  · have hclear := JobsStand.setFs_below s ha (l := [(winLIMIT, 0), (winBASE, 0), (winOPEN, 0), (winMODE, 0)]) (by decide)
    refine JobsStand.trans ?_ (.winRound _ _ _)
    exact .andF (.andF (.andF (.andF (.andF (.andF_below ha (.andF hclear))))))

theorem JobsStand.grantQueue (s : State) (j q : Nat) (r : QRec) : JobsStand s (s.grantQueue j q r) := by
  unfold State.grantQueue
  have h0 : JobsStand s { s with qIsland := s.qIsland.filter (fun (k, _) => decide (k / 65536 ≠ q)) } := .of_regs rfl
  exact .andF (.andF (.andF (.andF (.andF (.andF (.andF (.andF (.andF (.andF h0)))))))))

theorem JobsStand.setBarrier (s : State) (b : Nat) (x : Barrier) : JobsStand s (s.setBarrier b x) := .of_regs rfl

theorem JobsStand.grantBarriers (s : State) (j : Nat) (p : Placement) : JobsStand s (s.grantBarriers j p) := by
  refine JobsStand.foldl (fun s b _ => ?_) s
  exact JobsStand.trans (JobsStand.foldl (fun s k _ => .ite (.setF s (BAR_HART k) (f := bhBROKEN) 0) (.refl s)) s) (.setBarrier _ _ _)

theorem JobsStand.writeTarget (s : State) (a : Nat) (p : Placement) (t : Option TgtRec) : JobsStand s (s.writeTarget a p t) := by
  unfold State.writeTarget
  split
  · exact .setF s a 0
  · exact .andF (.andF (.andF (.setF s a _)))

theorem JobsStand.setCause (s : State) (k : Nat) (on : Bool) : JobsStand s (s.setCause k on) := .of_pushes (.setCause s k on)

theorem JobsStand.formGroup (s : State) (j g : Nat) (e : GroupRec) (p : Placement) : JobsStand s (s.formGroup j g e p) := by
  unfold State.formGroup
  dsimp only
  have hcfg := fun s l h => JobsStand.setFs s (RG_CFG g) (l := l) h
  refine JobsStand.trans (JobsStand.foldl (fun s i _ => .setFs s _ rfl) _ |> JobsStand.trans ?_) (.of_regs rfl)
  refine JobsStand.trans ?_ (JobsStand.foldl (fun s t _ => .writeTarget s _ p _) _)
  exact (JobsStand.setFs s _ rfl).trans (.setFs _ _ rfl)

theorem JobsStand.enableUnits (s : State) (p : Placement) : JobsStand s (s.enableUnits p) :=
  JobsStand.foldl (fun s c _ => .ite (.setF s (UNIT_CTRL c) (f := ctrlENABLE) 1) (.refl s)) s

theorem JobsStand.writeSched (s : State) (u : Nat) : JobsStand s (s.writeSched u) := by
  unfold State.writeSched
  dsimp only
  refine JobsStand.foldl (fun s e _ => ?_) s
  split
  · exact .setFs s _ rfl
  · exact .setF s _ 0

theorem JobsStand.setCtx (s : State) (n : Nat) (x : Ctx) : JobsStand s (s.setCtx n x) := by
  refine JobsStand.foldl (fun s u _ => ?_) s
  exact .ite (.of_regs rfl) (.refl s)

theorem JobsStand.loadF_below (s : State) {a : Nat} (ha : a < partBase) {l : List FD} (h : (l.all fun f => decide (f.lo < 64)) = true) (w : Nat) :
    JobsStand s (s.loadF a l w) :=
  JobsStand.foldl (fun s f hf => .setF_below s _ ha (of_decide_eq_true (List.all_eq_true.1 h f hf))) s

theorem JobsStand.attnCfgWrite (s : State) {u : Nat} (hu : u < 256) (pool : Bool) (w : Nat) : JobsStand s (attnCfgWrite .islandA u pool w s) := by
  have hpool : ATTN_POOL u < partBase := by
    unfold ATTN_POOL unitBlk partBase
    omega
  have hcfg : ATTN_CFG u < partBase := by
    unfold ATTN_CFG unitBlk partBase
    omega
  unfold Machine.attnCfgWrite
  split
  · exact absurd rfl ‹_›
  · refine .ite (.refl s) (.ite (.ite (.refl s) ?_) (.ite (.refl s) ?_))
    · exact .loadF_below s hpool (by decide) w
    · exact .loadF_below s hcfg (by decide) w

theorem JobsStand.setGeometry (s : State) (c q : Nat) : JobsStand s (s.setGeometry c q) := by
  unfold State.setGeometry
  refine .ite (.refl s) ?_
  have hfree : JobsStand s (blotCtxs.foldl (fun s n => if (s.ctxOf n).kind = 0 then s else s.freeCtx n) s) :=
    JobsStand.foldl (fun s n _ => .ite (.refl s) (.setCtx s n _)) s
  refine (hfree.trans (JobsStand.foldl (fun s u hu => ?_) _)).trans (JobsStand.foldl (fun s n _ => .setCtx s n _) _)
  have hu : u < 256 := by
    revert u
    decide
  exact (JobsStand.attnCfgWrite s hu false c).trans (.attnCfgWrite _ hu true q)

theorem JobsStand.grantMailbox (s : State) {part : Nat} (hp : part < 8) (mask : Nat) : JobsStand s (s.grantMailbox part mask) := by
  have ha : winCtl 63 part < partBase := winCtl_below (by decide) (by omega)
  unfold State.grantMailbox
  dsimp only
  refine JobsStand.trans ?_ (.winRound _ _ _)
  exact .andF (.setFs_below s ha rfl)

theorem JobsStand.grantGroups {s : State} {j : Nat} (hp : s.getF (JOB_STAT j) jsPART < 8) (nos : List Nat) (p : Placement) :
    JobsStand s (s.grantGroups j nos p) := by
  unfold State.grantGroups
  have hform : JobsStand s (((s.job j).groups.zip nos).foldl (fun s (e, g) =>
      if 2 ≤ e.size then s.formGroup j g e p
      else (List.range 8).foldl (fun s t => s.writeTarget (SOLO_TGT (p.slotOf (e.members.getD 0 0)) t) p e.targets[t]?) s) s) := by
    refine JobsStand.foldl (fun s x _ => ?_) s
    exact .ite (.formGroup s _ _ _ _) (.foldl (fun s t _ => .writeTarget s _ _ _) s)
  have hpart := hform j jsPART (.inr rfl)
  dsimp only at hform hpart ⊢
  refine JobsStand.trans ?_ (.setCause _ 3 _)
  refine hform.trans (.ite (.refl _) (.grantMailbox _ ?_ _))
  rw [hpart]
  exact hp

theorem JobsStand.clearStats (s : State) {j : Nat} (hj : j < 255) : JobsStand s (s.clearStats j) := by
  unfold State.clearStats
  dsimp only
  refine .andF_below (by unfold JOB_ST partBase; omega) ?_
  intro k f hf
  have hkey : (!decide (JOB_ST j 0 * 64 ≤ f.key (JOB_STAT k) ∧ f.key (JOB_STAT k) < JOB_ST (j + 1) 0 * 64)) = true := by
    rw [Bool.not_eq_true', decide_eq_false_iff_not]
    unfold JOB_ST FD.key JOB_STAT partBase
    omega
  unfold State.getF
  exact (Tab.get_filter (fun k => !decide (JOB_ST j 0 * 64 ≤ k ∧ k < JOB_ST (j + 1) 0 * 64)) _ _ _).trans (if_pos hkey)

/-! The bytes of an image. -/

theorem mem_bytes_lt {s : State} {a n x : Nat} (h : x ∈ s.bytes a n) : x < 256 := by
  obtain ⟨i, _, rfl⟩ := List.mem_map.1 h
  exact (s.byte (a + i)).isLt

theorem mem_readBytes_lt {s : State} {point p a n x : Nat} (h : x ∈ s.readBytes point p a n) : x < 256 := by
  obtain ⟨⟨b, k⟩, _, hx⟩ := List.mem_flatMap.1 h
  dsimp only at hx
  split at hx
  · split at hx
    · exact mem_bytes_lt hx
    · exact mem_bytes_lt hx
  · exact mem_bytes_lt hx

theorem mem_ite_cases {x : Nat} {l l' : List Nat} {c : Prop} [Decidable c] (h : x ∈ if c then l else l') : x ∈ l ∨ x ∈ l' := by
  split at h
  · exact .inl h
  · exact .inr h

theorem mem_imageAt_lt {s : State} {p a x : Nat} (h : x ∈ s.imageAt p a) : x < 256 := by
  unfold State.imageAt at h
  dsimp only at h
  obtain h | h := mem_ite_cases h
  · exact absurd h List.not_mem_nil
  · obtain h | h := mem_ite_cases h
    · exact mem_readBytes_lt h
    · exact absurd h List.not_mem_nil

section
variable {im : List Nat} (him : ∀ x ∈ im, x < 256)
include him

theorem imPlacement_byteSlots (k : Nat) : (imPlacement im k).byteSlots := by
  intro u hu
  obtain ⟨i, _, rfl⟩ := List.mem_map.1 hu
  exact fieldAt_lt him _ 1

theorem imJob_heldPlaces {p : Placement} (h : p ∈ heldPlaces (imJob im).places 0) : p.byteSlots := by
  obtain ⟨⟨q, i⟩, hq, rfl⟩ := List.mem_map.1 h
  have hq := (List.of_mem_zip (List.mem_filter.1 hq).1).1
  obtain ⟨k, _, rfl⟩ := List.mem_map.1 hq
  exact imPlacement_byteSlots him k

theorem imJob_wins {w : WinRec} (h : w ∈ (imJob im).wins) : w.win < 256 := by
  obtain ⟨i, _, rfl⟩ := List.mem_map.1 h
  exact fieldAt_lt him _ 1

end

/-! Loading programs and granting windows leave the jobs. -/

theorem State.loadPrograms_jobs (s : State) (j : Nat) (p : Placement) : (s.loadPrograms j p).jobs = s.jobs := by
  refine foldl_keeps (R := State.jobs) (fun s x _ => ?_) s
  obtain ⟨i, dest, ws⟩ := x
  dsimp only
  split
  · split
    · rfl
    · rfl
  · rfl

theorem State.grantWindows_jobs (s : State) (j : Nat) (p : Placement) (has : List (Nat × Nat)) : (s.grantWindows j p has).jobs = s.jobs := by
  have hround : ∀ (s : State) (u n : Nat), (s.winRound u n).jobs = s.jobs := fun _ _ _ => rfl
  refine foldl_keeps (R := State.jobs) (fun s w _ => ?_) s
  dsimp only
  split
  · split
    · rw [hround, State.setF_jobs]
    · rw [State.setF_jobs]
  · simp only [hround, State.setF_jobs, List.foldl_cons, List.foldl_nil]

/-- The programs of the placements `l` are loaded and their windows granted. -/
def State.loadAll (s : State) (j : Nat) (l : List Placement) : State :=
  l.foldl (fun s p => s.grantWindows j p []) (l.reverse.foldl (fun s p => s.loadPrograms j p) s)

theorem JobsStand.loadAll {s : State} {j : Nat} {l : List Placement} (hl : ∀ p ∈ l, p.byteSlots) (hw : ∀ w ∈ (s.job j).wins, w.win < 256) :
    JobsStand s (s.loadAll j l) := by
  have hload : JobsStand s (l.reverse.foldl (fun s p => s.loadPrograms j p) s) := JobsStand.foldl (fun s p _ => .loadPrograms s j p) s
  have hjobs : (l.reverse.foldl (fun s p => s.loadPrograms j p) s).jobs = s.jobs :=
    foldl_keeps (R := State.jobs) (fun s p _ => s.loadPrograms_jobs j p) s
  unfold State.loadAll
  generalize l.reverse.foldl (fun s p => s.loadPrograms j p) s = u at hload hjobs ⊢
  have hjob : u.job j = s.job j := congrArg (fun m => Tab.get ({} : Job) m j) hjobs
  rw [← hjob] at hw
  clear hjobs hjob
  refine hload.trans ?_
  clear hload
  induction l generalizing u with
  | nil => exact .refl u
  | cons p l ih =>
    refine (JobsStand.grantWindows (hl p List.mem_cons_self) hw []).trans
      (ih (fun q hq => hl q (List.mem_cons_of_mem _ hq)) _ ?_)
    have hjob : (u.grantWindows j p []).job j = u.job j := congrArg (fun m => Tab.get ({} : Job) m j) (u.grantWindows_jobs j p [])
    rw [hjob]
    exact hw

/-- The table entry of a job that is admitted. -/
def State.enterJob (s : State) (j part : Nat) (x : Job) : State :=
  let s := s.setF (JOB_STAT j) jsJOBID (x.imageId * 65536 + part * 256 + j)
  let s := s.setF (JOB_STAT j) jsPART part
  let s := s.setF (JOB_STAT j) jsPLACE 0
  ((s.setF (JOB_STAT j) jsSTATE jLoading).clearStats j).setJob j x

/-- The queues, barriers, groups and slots of a job's placement `p`. -/
def State.grantPlace (s : State) (j : Nat) (x : Job) (nos : List Nat) (p : Placement) : State :=
  let s := x.queues.foldl (fun s r => s.grantQueue j (p.slotOf r.lunit * 256 + r.lidx) r) s
  let s := s.grantBarriers j p
  let s := (s.grantGroups j nos p).enableUnits p
  (slotsOf [p]).foldl (fun s u => s.writeSched u) s

theorem JobsStand.grantPlace {s : State} {j : Nat} (hp : s.getF (JOB_STAT j) jsPART < 8) (x : Job) (nos : List Nat) (p : Placement) :
    JobsStand s (s.grantPlace j x nos p) := by
  unfold State.grantPlace
  dsimp only
  refine JobsStand.trans ?_ (JobsStand.foldl (fun s u _ => .writeSched s u) _)
  refine JobsStand.trans ?_ (.enableUnits _ p)
  have hbar := (JobsStand.foldl (l := x.queues) (fun s (r : QRec) _ => .grantQueue s j (p.slotOf r.lunit * 256 + r.lidx) r) s).trans
    (.grantBarriers _ j p)
  refine hbar.trans (.grantGroups ?_ nos p)
  rw [hbar j jsPART (.inr rfl)]
  exact hp

/-- What follows the windows of a grant: the placement's own grants `f`, the Attention geometry and the vehicle. -/
def grantRest (p : Option Placement) (f : Placement → State → State) (x : Job) (im : List Nat) (s : State) : State :=
  match p with
  | none => s
  | some p =>
    let s := f p s
    let s := if x.attn then s.setGeometry (fieldAt im 0x40 8) (fieldAt im 0x48 8) else s
    if x.vehicle then { s with plan := { s.plan with vehicle := (im.drop (fieldAt im 0x3C 4)).take 256 } } else s

theorem JobsStand.grantRest {s : State} {f : Placement → State → State} (h : ∀ p, JobsStand s (f p s)) (x : Job) (im : List Nat)
    {p : Option Placement} : JobsStand s (grantRest p f x im s) := by
  cases p with
  | none => exact .refl s
  | some p =>
    have h := h p
    unfold Machine.grantRest
    dsimp only
    generalize f p s = u at h ⊢
    have hgeo : JobsStand s (if x.attn then u.setGeometry (fieldAt im 0x40 8) (fieldAt im 0x48 8) else u) :=
      .ite (h.trans (.setGeometry _ _ _)) h
    exact .ite (hgeo.trans (.of_regs rfl)) hgeo

/-- A grant enters the job, and what it does then leaves its state and partition. -/
theorem State.grantJob_stands (s : State) {j part : Nat} {im : List Nat} (him : ∀ x ∈ im, x < 256)
    (hp : ∀ x, (s.dirChange.enterJob j part x).getF (JOB_STAT j) jsPART < 8) :
    ∃ x, JobsStand (s.dirChange.enterJob j part x) (s.grantJob j part im) := by
  let nos := groupNumbers (imJob im).groups ((List.range 16).filter (fun g => !s.dirChange.flag (RG_CFG g) rcV))
  let x := { imJob im with pbase := s.dirChange.chooseRanges s.admitted (imJob im) (heldPlaces (imJob im).places 0), groupNo := nos }
  have hload : JobsStand (s.dirChange.enterJob j part x) ((s.dirChange.enterJob j part x).loadAll j (heldPlaces (imJob im).places 0)) := by
    refine JobsStand.loadAll (fun p h => imJob_heldPlaces him h) fun w hw => ?_
    have hjob : (s.dirChange.enterJob j part x).job j = x := Tab.get_set_same
    rw [hjob] at hw
    exact imJob_wins him hw
  have hpart := hload j jsPART (.inr rfl)
  refine ⟨x, hload.trans ?_⟩
  have hunfold : s.grantJob j part im = grantRest (imJob im).places[0]? (fun p s => s.grantPlace j x nos p) x im
      ((s.dirChange.enterJob j part x).loadAll j (heldPlaces (imJob im).places 0)) := by
    unfold State.grantJob grantRest
    rfl
  rw [hunfold]
  refine JobsStand.grantRest (fun p => .grantPlace ?_ x nos p) _ _
  rw [hpart]
  exact hp x

theorem State.enterJob_getF (s : State) {j part : Nat} (x : Job) (hj : j < 255) (hp : part < 8) :
    (s.enterJob j part x).jobState j = jLoading ∧ (s.enterJob j part x).getF (JOB_STAT j) jsPART = part := by
  unfold State.enterJob
  dsimp only
  generalize s.setF (JOB_STAT j) jsJOBID (x.imageId * 65536 + part * 256 + j) = u
  have hstats := JobsStand.clearStats (((u.setF (JOB_STAT j) jsPART part).setF (JOB_STAT j) jsPLACE 0).setF (JOB_STAT j) jsSTATE jLoading) hj
  refine ⟨(hstats j jsSTATE (.inl rfl)).trans ?_, (hstats j jsPART (.inr rfl)).trans ?_⟩
  · rw [State.getF_setF_same]
    rfl
  · rw [State.getF_setF_lo, State.getF_setF_lo, State.getF_setF_same]
    exact Nat.mod_eq_of_lt hp

/-- A job that is granted is loading, and is of the partition that asked. -/
theorem State.grantJob_enters (s : State) {j part : Nat} {im : List Nat} (him : ∀ x ∈ im, x < 256) (hj : j < 255) (hp : part < 8) :
    (s.grantJob j part im).jobState j = jLoading ∧ (s.grantJob j part im).getF (JOB_STAT j) jsPART = part := by
  obtain ⟨x, hx⟩ := s.grantJob_stands (j := j) (part := part) him (fun x => by rw [(s.dirChange.enterJob_getF x hj hp).2]; exact hp)
  obtain ⟨hstate, hpart⟩ := s.dirChange.enterJob_getF x hj hp
  exact ⟨(hx j jsSTATE (.inl rfl)).trans hstate, (hx j jsPART (.inr rfl)).trans hpart⟩

theorem State.freeJob_lt {s : State} {j : Nat} (h : s.freeJob = some j) : j < 255 := List.mem_range.1 (List.mem_of_find?_eq_some h)

/-! A safe state that is raised. -/

theorem bit_mod_two_pow (m : Nat) {w k : Nat} (h : k < w) : bit (m % 2 ^ w) k = bit m k := by
  unfold bit
  rw [← Nat.testBit_eq_decide_div_mod_eq, ← Nat.testBit_eq_decide_div_mod_eq, Nat.testBit_mod_two_pow, decide_eq_true h, Bool.true_and]

theorem State.showReason_getF (s : State) {f : FD} (h : safREASON.lo ≠ f.lo) :
    s.showReason.getF SAFE_STATUS f = s.getF SAFE_STATUS f := by
  unfold State.showReason
  split
  · exact State.getF_setF_lo _ _ _ h
  · rfl

theorem State.raiseSafe_raises (s : State) {k : Nat} (hk : k < 16) : bit ((s.raiseSafe k).getF SAFE_STATUS safACTIVE) k = true ∧
    (s.raiseSafe k).getF SAFE_STATUS safSAFE = 1 ∧ (s.raiseSafe k).safe.pinA = true ∧ (s.raiseSafe k).safe.pinB = true ∧
    (s.raiseSafe k).sup = s.sup := by
  let u := (s.setF SAFE_STATUS safACTIVE (setBit (s.getF SAFE_STATUS safACTIVE) k)).showReason.setF SAFE_STATUS safSAFE 1
  let v : State := { u with safe := { u.safe with pinA := true, pinB := true, extra := 3, passes := 0 } }
  have hv : ∀ w : State, w = (if s.flag SAFE_STATUS safSAFE then v else (v.event 27).wire 20) →
      (∀ f, f.lo < 64 → w.getF SAFE_STATUS f = u.getF SAFE_STATUS f) ∧ w.safe = v.safe ∧ w.sup = u.sup := by
    rintro w rfl
    split
    · exact ⟨fun _ _ => rfl, rfl, rfl⟩
    · have hc := Counted.event v 27
      exact ⟨fun f hf => hc.regs SAFE_STATUS f (by decide) hf, hc.safe, by rw [State.wire, hc.eq]⟩
  obtain ⟨hregs, hsafe, hsup⟩ := hv _ rfl
  have heq : s.raiseSafe k = (if s.flag SAFE_STATUS safSAFE then v else (v.event 27).wire 20).integrity := rfl
  rw [heq]
  generalize (if s.flag SAFE_STATUS safSAFE then v else (v.event 27).wire 20) = w at hregs hsafe hsup ⊢
  unfold State.integrity
  rw [State.getF_setF_lo, State.getF_setF_lo, hregs _ (by decide), hregs _ (by decide), State.setF_safe, State.setF_sup, hsafe, hsup]
  refine ⟨?_, State.getF_setF_same _ _ _ _, rfl, rfl, ?_⟩
  · rw [State.getF_setF_lo, State.showReason_getF _ (by decide), State.getF_setF_same, bit_mod_two_pow _ (by exact hk), bit_setBit]
    simp
  · show State.sup (State.setF _ _ _ _) = _
    rw [State.setF_sup]
    unfold State.showReason
    split
    · rfl
    · rfl

/-! Requests. -/

theorem admitCmd_grants {s : State} {p t j : Nat} {b : List Nat} (hp : p < 8) (hs : (s.at t).islandServes false = true)
    (hreq : (s.at t).request (63 * 256 + p) (fun ty => decide (ty ≠ 0x11 ∧ ty ≠ 0x12)) = some b) (hty : fieldAt b 0 1 = 0x10)
    (hok : admReqOk b = true) (hz : fieldAt b 1 1 = 0) (s1 : State) (hs1 : s1 = (s.at t).takeRequest (63 * 256 + p)) (im : List Nat)
    (him : im = s1.imageAt p (fieldAt b 8 8)) (hadm : s1.admCheck p (fieldAt b 2 1) im = .ok ()) (hj : s1.freeJob = some j) :
    admitCmd p t s = (s1.grantJob j p im).answer (63 * 256 + p) b ((s1.grantJob j p im).getF (JOB_STAT j) jsJOBID * 2 ^ 32) := by
  unfold admitCmd
  dsimp only
  rw [if_neg (not_or.2 ⟨by omega, by rw [hs]; decide⟩), hreq]
  dsimp only
  rw [← hs1, ← him, hty, hok, hz, hadm, hj]
  rfl

theorem State.jobRequest_runs {s : State} {p ty : Nat} {b : List Nat} {f : Nat → State → State} (hp : p < 8)
    (hs : s.islandServes false = true) (hreq : s.request (63 * 256 + p) (fun x => decide (x = ty)) = some b) (s1 : State)
    (hs1 : s1 = s.takeRequest (63 * 256 + p)) (hok : s1.jobRefused p b = none) :
    s.jobRequest p ty f = (f (fieldAt b 1 1) s1).answer (63 * 256 + p) b (s1.getF (JOB_STAT (fieldAt b 1 1)) jsJOBID * 2 ^ 32) := by
  unfold State.jobRequest
  dsimp only
  rw [if_neg (not_or.2 ⟨by omega, by rw [hs]; decide⟩), hreq]
  dsimp only
  rw [← hs1, hok]

theorem State.releaseJob_withdrawn (s : State) (j : Nat) : (s.releaseJob j).jobState j = jWithdrawn := by
  have hset : ∀ u : State, ((u.setJobState j jWithdrawn).setJob j {}).jobState j = jWithdrawn := fun u =>
    State.getF_setF_same u (JOB_STAT j) jsSTATE jWithdrawn
  unfold State.releaseJob
  dsimp only
  split
  · exact hset _
  · exact (JobsStand.foldl (fun s u _ => .writeSched s u) _ j jsSTATE (.inl rfl)).trans (hset _)

theorem State.restartJob_running {s : State} {j : Nat} (h : (s.placement j).isSome = true) : (s.restartJob j).jobState j = jRunning := by
  obtain ⟨p, hp⟩ := Option.isSome_iff_exists.1 h
  unfold State.restartJob
  rw [hp]
  dsimp only
  rw [(Pushes.jobNotice _ j 3).jobState]
  exact State.getF_setF_same _ (JOB_STAT j) jsSTATE jRunning

/-! Backups and suspects. -/

theorem backupLaunch_pushes {s0 : State} {q n j t : Nat} {r k : QRec} {pl : Placement} (s : State) (hs : s = s0.at t) (it : WorkItem)
    (hit : it = parseItem q n j s.now (s.qEntry q n)) (hq : q < 16128) (hserves : s.islandServes false = true)
    (hocc : subMod 32 n (s.qHead q) < s.qOcc q) (hrec : s.queueRec q = some (j, r)) (hk : (s.job j).queues[r.backup]? = some k)
    (hpl : s.placement j = some pl) (hrepl : it.repl = true) (hus : it.dlUs ≠ 0xFFFF)
    (hdue : if subMod 16 (Tab.get ({} : IslPlan) s.plan.isl 0).seq it.dlSeq < 2 ^ 15 then
        it.dlUs ≤ subMod 16 (Tab.get ({} : IslPlan) s.plan.isl 0).seq it.dlSeq * 25000 +
          (s.now - (Tab.get ({} : IslPlan) s.plan.isl 0).at_) / 1000 + it.margin
      else it.dlUs + (2 ^ 16 - subMod 16 (Tab.get ({} : IslPlan) s.plan.isl 0).seq it.dlSeq) * 25000 ≤
        (s.now - (Tab.get ({} : IslPlan) s.plan.isl 0).at_) / 1000 + it.margin)
    (huse : s.usable (pl.slotOf k.lunit) = true) (hnew : s.sup.copies.contains (q, n) = false) :
    let u := (s.push (pl.slotOf k.lunit * 256 + k.lidx) ((s.qEntry q n).set 1 (fieldAt (s.qEntry q n) 1 1 % 4 + 4)) .island).1
    backupLaunch q n t s0 = { (u.event 11).jobCount j (0x1C0 + 56) with sup := { u.sup with copies := u.sup.copies ++ [(q, n)] } } := by
  intro u
  unfold backupLaunch
  rw [← hs]
  dsimp only
  rw [if_neg (by rw [hserves, decide_eq_true hocc]; simp; omega), hrec]
  dsimp only
  rw [hk, hpl]
  dsimp only
  rw [← hit]
  refine if_neg ?_
  rw [hrepl, decide_eq_false hus, decide_eq_true hdue, huse, hnew]
  decide

/-- The run of high and low seconds of unit `u`, and what SUSPECT shows of it. -/
def suspectStep (high : Bool) (total : Nat) (y : UnitRt × Nat) : UnitRt × Nat :=
  let o := if high then min 3 (y.1.overRun + 1) else 0
  let n := if high then 0 else min 60 (y.1.underRun + 1)
  ({ y.1 with lastTotal := total, overRun := o, underRun := n }, if o = 3 then 1 else if n = 60 then 0 else y.2)

/-- Unit `u` is evaluated. -/
def State.evaluate (s : State) (high : Nat → Bool) (total : Nat → Nat) (u : Nat) : State :=
  let x := s.unit u
  let o := if high u then min 3 (x.overRun + 1) else 0
  let n := if high u then 0 else min 60 (x.underRun + 1)
  let s := s.setUnit u { x with lastTotal := total u, overRun := o, underRun := n }
  if o = 3 then s.setF (UNIT_PART u) upSUSPECT 1 else if n = 60 then s.setF (UNIT_PART u) upSUSPECT 0 else s

def State.suspect (s : State) (u : Nat) : UnitRt × Nat := (s.unit u, s.getF (UNIT_PART u) upSUSPECT)

theorem State.suspect_setF_same (s : State) (u v : Nat) : (s.setF (UNIT_PART u) upSUSPECT v).suspect u = (s.unit u, v % 2 ^ upSUSPECT.w) :=
  Prod.ext rfl (State.getF_setF_same _ _ _ _)

theorem State.suspect_setUnit_same (s : State) (u : Nat) (x : UnitRt) : (s.setUnit u x).suspect u = (x, s.getF (UNIT_PART u) upSUSPECT) :=
  Prod.ext (State.unit_setUnit_same _ _ _) rfl

theorem State.suspect_evaluate_same (s : State) (high : Nat → Bool) (total : Nat → Nat) (u : Nat) :
    (s.evaluate high total u).suspect u = suspectStep (high u) (total u) (s.suspect u) := by
  unfold State.evaluate suspectStep
  dsimp only [State.suspect]
  generalize (if high u = true then min 3 ((s.unit u).overRun + 1) else 0) = o
  generalize (if high u = true then 0 else min 60 ((s.unit u).underRun + 1)) = n
  split
  · exact (State.suspect_setF_same _ _ _).trans (Prod.ext (State.unit_setUnit_same _ _ _) rfl)
  · split
    · exact (State.suspect_setF_same _ _ _).trans (Prod.ext (State.unit_setUnit_same _ _ _) rfl)
    · exact State.suspect_setUnit_same _ _ _

theorem State.suspect_evaluate_ne (s : State) (high : Nat → Bool) (total : Nat → Nat) {u v : Nat} (h : u ≠ v) :
    (s.evaluate high total u).suspect v = s.suspect v := by
  have hreg : UNIT_PART u ≠ UNIT_PART v := by
    unfold UNIT_PART unitBlk
    omega
  have hset : ∀ (s : State) w, (s.setF (UNIT_PART u) upSUSPECT w).suspect v = s.suspect v := fun s w =>
    Prod.ext rfl (State.getF_setF_addr s w hreg)
  have hunit : ∀ x, (s.setUnit u x).suspect v = s.suspect v := fun x => Prod.ext (s.unit_setUnit_ne x h) rfl
  unfold State.evaluate
  dsimp only
  generalize (if high u = true then min 3 ((s.unit u).overRun + 1) else 0) = o
  generalize (if high u = true then 0 else min 60 ((s.unit u).underRun + 1)) = n
  split
  · rw [hset, hunit]
  · split
    · rw [hset, hunit]
    · exact hunit _

theorem State.evaluateAll (s : State) (high : Nat → Bool) (total : Nat → Nat) {u : Nat} (hu : u < 63) :
    ((List.range 63).foldl (fun s u => s.evaluate high total u) s).suspect u = suspectStep (high u) (total u) (s.suspect u) :=
  foldl_changes_once (f := fun (s : State) u => s.evaluate high total u) (R := fun s => s.suspect u)
    (List.mem_range.2 hu) List.nodup_range (fun s => s.suspect_evaluate_same high total u)
    (fun s _ _ h => s.suspect_evaluate_ne high total h) s

/-- The rise of unit `v` in the last second. -/
def State.rise (s : State) (v : Nat) : Nat := s.arrivals v - (s.unit v).lastTotal

/-- The rise of `u` is high against the mean of its peers. -/
def State.riseHigh (s : State) (u : Nat) : Bool :=
  decide (16 < s.rise u ∧ s.peers u ≠ [] ∧ 2 * sumOf ((s.peers u).map s.rise) < s.rise u * (s.peers u).length)

theorem suspectEvaluation_evaluates {s : State} {t : Nat} (hs : (s.at t).islandServes false = true) :
    suspectEvaluation t s = (List.range 63).foldl (fun u v => u.evaluate (s.at t).riseHigh (s.at t).arrivals v) (s.at t) := by
  unfold suspectEvaluation
  dsimp only
  rw [if_neg (by rw [hs]; decide)]
  generalize s.at t = s
  have hget : ∀ v, v < 63 → ((List.range 63).map fun u => s.arrivals u - (s.unit u).lastTotal).getD v 0 = s.rise v := by
    intro v hv
    rw [List.getD_eq_getElem?_getD, List.getElem?_map, List.getElem?_range hv]
    rfl
  have hpeers : ∀ u, (s.peers u).map (fun v => ((List.range 63).map fun u => s.arrivals u - (s.unit u).lastTotal).getD v 0) =
      (s.peers u).map s.rise := fun u =>
    List.map_congr_left fun v hv => hget v (List.mem_range.1 (List.mem_filter.1 hv).1)
  refine List.foldl_ext _ _ _ fun x u hu => ?_
  have hu := List.mem_range.1 hu
  rw [hpeers u, hget u hu]
  rfl

theorem jobLost_raises {s : State} {t j : Nat} (hj : j < 255) (hf : (s.at t).jobState j = jFaulted)
    (hc : (s.at t).classOf ((s.at t).getF (JOB_STAT j) jsPART) = 0) (ht : ((s.at t).job j).faultedAt + ms 100 ≤ (s.at t).now) :
    jobLost j t s = ({ s.at t with sup := { (s.at t).sup with
      lost := (s.at t).sup.lost ++ [(((s.at t).job j).imageId, (s.at t).getF (JOB_STAT j) jsPART)] } } : State).raiseSafe 3 :=
  if_pos ⟨hj, hf, hc, ht⟩

/-- Settles O35: each request runs to its answer, and the job table, the copies and the suspects follow. -/
theorem jobResults : Obligations.JobResults := by
  unfold Obligations.JobResults
  intro s0 p t s
  refine ⟨?_, ?_, ?_, ?_, ?_⟩
  · intro b j q s1 im hp hs hreq hty hok hz hadm hj
    obtain ⟨hstate, hpart⟩ := s1.grantJob_enters (im := im) (fun x hx => mem_imageAt_lt hx) (State.freeJob_lt hj) hp
    refine ⟨next_eq (admitCmd_grants hp hs hreq hty hok hz s1 rfl im rfl hadm hj), ?_, hpart⟩
    rw [hstate]
    decide
  · intro b q s1 j hp hs hok
    refine ⟨fun hreq => ⟨next_eq (State.jobRequest_runs hp hs hreq s1 rfl hok), s1.releaseJob_withdrawn j⟩, fun hreq hplace => ?_⟩
    exact ⟨next_eq (State.jobRequest_runs hp hs hreq s1 rfl hok), State.restartJob_running hplace⟩
  · intro q n j r k pl it isl d us hq hs hocc hrec hk hpl hrepl hus hdue huse hnew
    have heq := backupLaunch_pushes s rfl it rfl hq hs hocc hrec hk hpl hrepl hus hdue huse hnew
    have hsup := (Pushes.push s (pl.slotOf k.lunit * 256 + k.lidx) ((s.qEntry q n).set 1 (fieldAt (s.qEntry q n) 1 1 % 4 + 4)) .island).sup
    exact ⟨_, next_eq heq, by rw [hsup], rfl⟩
  · intro hs
    refine ⟨_, next_eq (suspectEvaluation_evaluates hs), fun u hu => ?_⟩
    have h := s.evaluateAll s.riseHigh s.arrivals hu
    obtain ⟨hunit, hreg⟩ := Prod.ext_iff.1 h
    exact ⟨congrArg UnitRt.overRun hunit, congrArg UnitRt.underRun hunit, congrArg UnitRt.lastTotal hunit, hreg⟩
  · intro j hj hf hc ht
    have heq := jobLost_raises hj hf hc ht
    obtain ⟨hact, hsafe, hA, hB, hsup⟩ := State.raiseSafe_raises ({ s with sup := { s.sup with
      lost := s.sup.lost ++ [((s.job j).imageId, s.getF (JOB_STAT j) jsPART)] } } : State) (k := 3) (by decide)
    exact ⟨_, next_eq heq, congrArg Super.lost hsup, hact, hsafe, hA, hB⟩

end Sys2Proof.Machine


/-! PROOFS. The failure detector -/

namespace Sys2Proof.Machine

set_option Elab.async false

/-- A logical unit on cell `c` that asks for nothing but the cell. -/
def strayUnit (c : Nat) : UnitRec := { slot := c, pages := 0, div := 0, spadOff := 0, spadLen := 0, ctxOff := 0xFFFFFFFF }

/-- A job on cell 1 that may move to cell 0, with a window whose number no cell has. -/
def strayJob : Job where
  places := [{ modes := 15, reserve := false, units := [strayUnit 1] }, { modes := 15, reserve := false, units := [strayUnit 0] }]
  wins := [{ lunit := 0, win := 2041, lanes := 0, seals := false, gtokEn := false, gtok := 0 }]

def strayWindow : State :=
  (((({ State.reset with jobs := [(0, strayJob)] } : State).setF (JOB_STAT 0) jsSTATE jRunning).setF (PDESC 0 + 8) pdUNITS 3).setF
    (PDESC 0 + 16) pdWINDOWS 9)

theorem strayWindow_address : winStat 0 2041 = UNIT_FENCE 1 ∧ winSEALED.lo = fnDONE.lo := by decide

/-- The job moves to cell 0, and the new round of its window clears DONE of the fence of cell 1. -/
theorem strayWindow_fence : (fenceCmd .islandA 1 strayWindow).flag (UNIT_FENCE 1) fnDONE = false := by decide +kernel

/-- Refutes O37: the statement is about every state, and in one whose job table names a window that no cell has, the move of the
fenced cell's job clears DONE. -/
theorem not_detectorResults : ¬ Obligations.DetectorResults := by
  intro h
  obtain ⟨hfence, _⟩ := h strayWindow 1 0
  obtain ⟨t2, heq, _, _, hdone, _⟩ := hfence (by decide) (by decide +kernel)
  have heq : fenceCmd .islandA 1 strayWindow = t2 := Host.Outcome.next.inj heq
  rw [← heq, strayWindow_fence] at hdone
  exact absurd hdone (by decide)

end Sys2Proof.Machine


/-! PROOFS. Messages that a settling cell leaves, and redundancy groups -/

namespace Sys2Proof.Machine

set_option Elab.async false

/-! What a stop of a cell leads to sends no message and takes none. -/

theorem Pushes.msgs {s t : State} (h : Pushes s t) : t.msgs = s.msgs := by rw [h.eq]

theorem State.snapEnd_msgs (s : State) (c fail : Nat) : (s.snapEnd c fail).msgs = s.msgs := rfl

theorem State.snapWrite_msgs (s : State) (c a : Nat) : (s.snapWrite c a).msgs = s.msgs := by
  unfold State.snapWrite
  split
  · exact State.snapEnd_msgs s c 3
  · dsimp only
    have hbody := (Pushes.writeMem s c (s.partOf c) (a + 64) ((byteList (s.imageBytes c 0)).drop 64)).msgs
    generalize s.writeMem c (s.partOf c) (a + 64) ((byteList (s.imageBytes c 0)).drop 64) = r at hbody
    obtain ⟨u, bad⟩ := r
    cases bad
    · exact (Pushes.writeMem u c (u.partOf c) a ((byteList (s.imageBytes c 0)).take 64)).msgs.trans hbody
    · exact hbody

theorem State.clearWork_msgs (s : State) (u : Nat) : (s.clearWork u).msgs = s.msgs := by
  unfold State.clearWork
  split <;> rfl

theorem State.loadImage_msgs (s : State) (c : Nat) (rd : Nat → Nat → Nat) (st : Nat) : (s.loadImage c rd st).msgs = s.msgs := by
  simp only [State.loadImage, State.setUnitState_msgs, State.setF_msgs, State.setCell_msgs]

theorem State.takeHeld_msgs (s : State) (c : Nat) (h : Held) : (s.takeHeld c h).msgs = s.msgs := by
  unfold State.takeHeld
  split
  · exact State.clearWork_msgs _ c
  · rfl

theorem State.saveHeld_msgs (s : State) (c : Nat) : (s.saveHeld c).msgs = s.msgs := by
  unfold State.saveHeld
  dsimp only
  split
  · rfl
  · split
    · rfl
    · exact (Pushes.writeMem _ _ _ _ _).msgs

theorem State.loadHeld_msgs (s : State) (c j : Nat) : (s.loadHeld c j).msgs = s.msgs := by
  unfold State.loadHeld
  extract_lets -merge given idle x loaded
  have hidle : idle.msgs = s.msgs := by
    refine (State.clearWork_msgs _ c).trans ?_
    unfold given
    split <;> rfl
  rw [State.setUnit_msgs]
  unfold loaded
  split
  · exact hidle
  · split
    · exact hidle
    · extract_lets rd u
      have hu : u.msgs = s.msgs := State.loadImage_msgs s c rd _
      clear_value u
      split
      · exact (State.takeHeld_msgs u c _).trans hu
      · split
        · exact hu
        · exact hu

theorem State.showEntry_msgs (s : State) (u : Nat) (e : SchedEnt) : (s.showEntry u e).msgs = s.msgs := rfl

theorem State.endItem_msgs (s : State) (u status : Nat) (fill : Cpl → Cpl) : (s.endItem u status fill).msgs = s.msgs := by
  unfold State.endItem
  dsimp only
  split <;> rfl

theorem State.cellError_msgs (s : State) (c code : Nat) (st : Strm) (off : Nat) : (s.cellError c code st off).msgs = s.msgs := by
  unfold State.cellError
  split
  · exact State.event_msgs s 1
  · split
    · rfl
    · refine (State.endItem_msgs _ _ _ _).trans ?_
      split
      · exact State.refuseAccess_msgs _
      · split
        · exact (Pushes.countEcc _ _ _).msgs
        · rfl

theorem State.barError_msgs (s : State) (c : Nat) : (s.barError c).msgs = s.msgs := by
  unfold State.barError
  dsimp only
  split
  · split
    · exact State.cellError_msgs _ _ _ _ _
    · rfl
  · rfl

theorem State.switchCell_msgs (s : State) (c : Nat) (e : SchedEnt) : (s.switchCell c e).msgs = s.msgs := by
  unfold State.switchCell
  split
  · exact State.showEntry_msgs s c e
  · extract_lets -merge j0 j1 x u h saved v y w
    rw [State.barError_msgs, State.showEntry_msgs]
    have hu : u.msgs = s.msgs := by
      unfold u
      split <;> rfl
    have hsaved : saved.msgs = u.msgs := by
      unfold saved
      split
      · rfl
      · exact State.saveHeld_msgs u c
    have hv : v.msgs = u.msgs := by
      unfold v
      split
      · rfl
      · split
        · rfl
        · exact (State.loadHeld_msgs saved c j1).trans hsaved
    have hw : w.msgs = v.msgs := by
      unfold w
      split <;> rfl
    exact hw.trans (hv.trans hu)

theorem State.settle_msgs (s : State) (c : Nat) : (s.settle c).msgs = s.msgs := by
  unfold State.settle
  split
  · refine (foldl_keeps (R := State.msgs) (fun t p _ => ?_) _).trans rfl
    cases p with
    | snap _ a => exact State.snapWrite_msgs t c a
    | slot e => exact State.switchCell_msgs t c e
  · rfl

/-- A cell of which a request is still without an answer does not settle. -/
theorem State.settle_asking {s : State} {c : Nat} (h : (s.settle c).asking c = true) : s.settle c = s := by
  unfold State.asking at h
  rw [State.settle_msgs] at h
  unfold State.settle State.asking
  rw [if_neg]
  rintro ⟨_, hquiet⟩
  rw [h] at hquiet
  exact absurd hquiet (by decide)

/-! A Pair of which a member has erred closes its comparison with that outcome, whatever the two deposits say. -/

/-- The deposit of the member at position 1 of group 0. -/
def secondDeposit : Msg := { src := 1, part := 0, tag := 0, dst := 64, body := .deposit 0 5 8 1 }

/-- Group 0 is a Pair of cells 0 and 1; that of position 0 has erred after its deposit of another signature, and cell 1 waits for the
answer of a write too. -/
def erredPair : State :=
  (((({ State.reset with
      groups := [(0, { cmp := some { ckid := 5, openedAt := 0, deposits := [(0, 7)] }, erred := 1 })],
      msgs := [secondDeposit, { secondDeposit with dst := 2, body := .write 0 [] }] } : State).setF
    (RG_CFG 0) rcV 1).setF (RG_CFG 0) rcM1 1).setF (RG_STAT 0) rsPRESENT 3).setF (RG_STAT 0) rsSTATE 1

/-- Every premise about the deposit holds in it; the answer of cell 1's write is still out when the deposit has been judged, and the
outcome is a member's error, not two signatures that differ. -/
theorem erredPair_judged :
    (erredPair.at 0).nextMsg 0 3 = some secondDeposit ∧ (erredPair.at 0).fencedAt 64 1 = false ∧ (erredPair.at 0).groupLive 0 = true ∧
    (erredPair.at 0).isAp 0 = false ∧ (erredPair.at 0).memberOf 0 1 = 1 ∧ (erredPair.at 0).attached 0 = [0, 1] ∧ (erredPair.at 0).oddOf 0 = none ∧
    ((erredPair.at 0).group 0).op = 0 ∧ (erredPair.at 0).isTriad 0 = false ∧
    ((erredPair.at 0).group 0).cmp = some { ckid := 5, openedAt := 0, deposits := [(0, 7)] } ∧ (erredPair.at 0).getF (RG_STAT 0) rsHIST = 0 ∧
    ((depositArrival 0 0 erredPair).settle 1).asking 1 = true ∧ ((depositArrival 0 0 erredPair).settle 1).getF (RG_STAT 0) rsOUTCOME = 6 := by
  decide +kernel

/-- Refutes O38: where a member has erred after its deposit, a second deposit of another signature ends in outcome 6. -/
theorem not_redundancyResults : ¬ Obligations.RedundancyResults := by
  intro h
  obtain ⟨hmsg, hfence, hlive, hap, hmember, hatt, hodd, hop, htriad, hcmp, hhist, hask, hsix⟩ := erredPair_judged
  obtain ⟨hdeposit, _⟩ := h erredPair 0 0 0 0
  obtain ⟨_, hpair⟩ := hdeposit secondDeposit 5 8 1 hmsg rfl (by decide) hfence hlive hap hmember (by rw [hatt]; decide) hodd hop
  obtain ⟨_, hother⟩ := hpair 0 7 htriad hatt hcmp (Nat.zero_le _)
  obtain ⟨t2, heq, houtcome, _⟩ := hother (by decide) hhist
  have heq : (depositArrival 0 0 erredPair).settle 1 = t2.settle 1 := Host.Outcome.next.inj heq
  rw [heq] at hask
  rw [← State.settle_asking hask, ← heq, hsix] at houtcome
  exact absurd houtcome (by decide)

end Sys2Proof.Machine


/-! PROOFS. Runtime requests and the warm reset -/

namespace Sys2Proof.Machine

set_option Elab.async false

/-- A well-formed request of a class that may ask is answered with what its function gives. -/
theorem State.runtimeReq_runs {s : State} {p t : Nat} {b : List Nat} {want : Nat → Bool} {ok : Nat → Nat → Bool} {anyClass : Bool}
    {f : State → Nat → State × Nat} (hp : p < 8) (hs : (s.at t).islandServes false = true)
    (hreq : (s.at t).request (63 * 256 + 32 + p) want = some b) (hok : reqOk b = true) (hpart : fieldAt b 2 1 = p)
    (harg : ok (fieldAt b 0 1) (fieldAt b 8 8) = true) (s1 : State) (hs1 : s1 = (s.at t).takeRequest (63 * 256 + 32 + p))
    (hclass : anyClass = false → s1.classOf p = 0) {u : State} {r : Nat} (hf : f s1 (fieldAt b 8 8) = (u, r)) :
    s.runtimeReq p t want ok anyClass f = u.answer (63 * 256 + 32 + p) b r := by
  unfold State.runtimeReq
  dsimp only
  rw [if_neg (not_or.2 ⟨by omega, by rw [hs]; decide⟩), hreq]
  dsimp only
  rw [← hs1, if_neg (by rw [hok, hpart, harg]; simp), if_neg (by
    rintro ⟨hany, hc⟩
    exact hc (hclass (by simpa using hany))), hf]

theorem State.answer_pushes (s : State) (q : Nat) (b : List Nat) (r : Nat) : Pushes s (s.answer q b r) := by
  unfold State.answer
  extract_lets n it x c u
  have hu : Pushes s u := by
    unfold u
    split
    · exact .refl s
    · split
      · exact .pushCq _ _ _ _
      · exact .event s 10
  exact hu.trans (.setF u _ _ _)

theorem State.clearSafe_clears (s : State) {k : Nat} (hk : k < 16) : bit ((s.clearSafe k).getF SAFE_STATUS safACTIVE) k = false := by
  unfold State.clearSafe
  rw [State.showReason_getF _ (by decide), State.getF_setF_same, bit_mod_two_pow _ (by exact hk), bit_clrBit]
  simp

/-! The beginning of a warm reset. -/

theorem State.showReason_eq (s : State) : s.showReason = { s with regs := s.showReason.regs } := by
  unfold State.showReason
  split
  · rfl
  · rfl

theorem State.raiseSafe_now_pow (s : State) (k : Nat) : (s.raiseSafe k).now = s.now ∧ (s.raiseSafe k).pow = s.pow := by
  unfold State.raiseSafe
  extract_lets was u v w y x
  have hv : v = { u with regs := v.regs } := u.showReason_eq
  have hx : x.now = s.now ∧ x.pow = s.pow := ⟨by show State.now v = _; rw [hv]; rfl, by show State.pow v = _; rw [hv]; rfl⟩
  split
  · exact hx
  · have hc := Pushes.event x 27
    exact ⟨hc.now.trans hx.1, by show State.pow (x.event 27) = _; rw [hc.eq]; exact hx.2⟩

theorem State.raiseSafe_reasons (s : State) (k : Nat) :
    (s.raiseSafe k).getF SAFE_STATUS safACTIVE = setBit (s.getF SAFE_STATUS safACTIVE) k % 2 ^ 16 := by
  unfold State.raiseSafe State.integrity
  extract_lets was u v w y x
  have hx : x.getF SAFE_STATUS safACTIVE = setBit (s.getF SAFE_STATUS safACTIVE) k % 2 ^ 16 := by
    show w.getF _ _ = _
    unfold w v
    rw [State.getF_setF_lo _ _ _ (by decide), State.showReason_getF _ (by decide), State.getF_setF_same]
    rfl
  rw [State.getF_setF_lo _ _ _ (by decide)]
  split
  · exact hx
  · exact ((Counted.event x 27).regs SAFE_STATUS safACTIVE (by decide) (by decide)).trans hx

/-- A raised reason leaves the ones that are active. -/
theorem State.raiseSafe_active (s : State) {i : Nat} (k : Nat) (hi : i < 16) (h : bit (s.getF SAFE_STATUS safACTIVE) i = true) :
    bit ((s.raiseSafe k).getF SAFE_STATUS safACTIVE) i = true := by
  rw [State.raiseSafe_reasons, bit_mod_two_pow _ hi, bit_setBit, h]
  simp

theorem State.beginWarm_now_pow (s : State) (ladder : Bool) : (s.beginWarm ladder).now = s.now ∧ (s.beginWarm ladder).pow = s.pow := by
  unfold State.beginWarm
  extract_lets u l lim y v
  have hu : u.now = s.now ∧ u.pow = s.pow := by
    unfold u
    split
    · exact s.raiseSafe_now_pow 1
    · exact ⟨rfl, rfl⟩
  split
  · exact hu
  · split
    · exact ⟨(v.raiseSafe_now_pow 10).1.trans hu.1, (v.raiseSafe_now_pow 10).2.trans hu.2⟩
    · exact hu

theorem State.beginWarm_active (s : State) : bit ((s.beginWarm true).getF SAFE_STATUS safACTIVE) 1 = true := by
  have hone := (s.raiseSafe_raises (k := 1) (by decide)).1
  unfold State.beginWarm
  extract_lets u l lim y v
  split
  · exact hone
  · split
    · exact v.raiseSafe_active 10 (by decide) hone
    · exact hone

theorem State.cutWrites_now (s : State) : s.cutWrites.now = s.now := by
  unfold State.cutWrites
  refine foldl_keeps (R := State.now) (fun u p _ => ?_) s
  dsimp only
  split
  · rfl
  · rfl

theorem State.saveNow_now (s : State) (id : Nat) (v : StoreVal) : (s.saveNow id v).now = s.now := by
  unfold State.saveNow State.failStore
  dsimp only
  split
  · split
    · exact (Pushes.event _ 30).now
    · exact (Pushes.event _ 30).now
  · rfl

/-- Settles O39: each request runs through the one form of a served request; the reset by island A follows its branches. -/
theorem requestResults : Obligations.RequestResults := by
  intro s0 p t b s q s1 arg asks
  refine ⟨?_, ?_, ?_, ?_, ?_, ?_, ?_⟩
  · rintro ⟨hp, hs, hok, hpart, hty⟩ hreq hclass harg hvbus hmode hcool hwarm
    refine congrArg Host.Outcome.next (State.runtimeReq_runs hp hs hreq hok hpart ?_ s1 rfl (fun _ => hclass) ?_)
    · rw [hty]
      exact decide_eq_true ⟨rfl, harg⟩
    · rw [if_neg (fun h => absurd (hvbus h.1) (by omega)), if_neg (by rw [hwarm]; simp; omega)]
  · rintro ⟨hp, hs, hok, hpart, hty⟩ hreq hclass harg
    refine ⟨_, congrArg Host.Outcome.next (State.runtimeReq_runs hp hs hreq hok hpart ?_ s1 rfl (fun _ => hclass) rfl), rfl, ?_⟩
    · exact decide_eq_true harg
    · rw [(State.answer_pushes _ _ _ _).plan]
  · rintro ⟨hp, hs, hok, hpart, hty⟩ hreq hclass harg
    exact ⟨congrArg Host.Outcome.next (State.runtimeReq_runs hp hs hreq hok hpart (decide_eq_true harg) s1 rfl (fun _ => hclass) rfl),
      (s1.raiseSafe_raises (by decide)).1⟩
  · rintro ⟨hp, hs, hok, hpart, hty⟩ hreq hclass harg
    exact ⟨congrArg Host.Outcome.next (State.runtimeReq_runs hp hs hreq hok hpart (decide_eq_true harg) s1 rfl (fun _ => hclass) rfl),
      s1.clearSafe_clears (by decide)⟩
  · rintro ⟨hp, hs, hok, hpart, hty⟩ hreq harg hright
    refine congrArg Host.Outcome.next (State.runtimeReq_runs hp hs hreq hok hpart (decide_eq_true harg) s1 rfl (fun h => absurd h (by decide)) ?_)
    rw [if_pos hright]
  · rintro ⟨hp, hs, hok, hpart, hty⟩ hreq hclass harg hwarm
    refine ⟨congrArg Host.Outcome.next (State.runtimeReq_runs hp hs hreq hok hpart (decide_eq_true harg) s1 rfl (fun _ => hclass) ?_),
      s1.beginWarm_active⟩
    rw [hwarm]
    rfl
  · intro st s2 s3 hs hgood hhold
    have h2 := s.beginWarm_now_pow true
    have h3 : s3.now = s.now := (State.saveNow_now _ _ _).trans ((State.cutWrites_now s2).trans h2.1)
    have hclock : decide (s2.pow.hold = 8) = false := by rw [h2.2, hhold]; rfl
    refine congrArg Host.Outcome.next ?_
    show warmReset st t s0 = _
    unfold warmReset
    dsimp only
    rw [if_neg (by rw [hs, hgood]; decide), if_neg (by rw [hhold]; decide), hclock, ← h3]
    rfl

end Sys2Proof.Machine


/-! PROOFS. Freezing, nonces and the clearing of Sillage -/

namespace Sys2Proof.Machine

set_option Elab.async false

/-! The Sillage nonce. -/

theorem State.setSilNonce_ident (s : State) (n : Option (List Nat)) : (s.setSilNonce n).ident.silNonce = n := rfl

theorem State.setSilNonce_getF (s : State) (n : Option (List Nat)) {a : Nat} {f : FD} (h : SIL_NONCE0 ≠ a := by decide)
    (h8 : SIL_NONCE0 + 8 ≠ a := by decide) (hf : f.lo < 64 := by decide) : (s.setSilNonce n).getF a f = s.getF a f :=
  (State.getF_setF_addr _ _ h8 (by decide) hf).trans (State.getF_setF_addr _ _ h (by decide) hf)

theorem State.setSilNonce_shown (s : State) (n : List Nat) :
    (s.setSilNonce (some n)).getF SIL_NONCE0 silNONCE = leOf (n.take 8) % 2 ^ 64 :=
  (State.getF_setF_addr _ _ (by decide)).trans (State.getF_setF_same _ _ _ _)

theorem State.setSilNonce_hidden (s : State) : (s.setSilNonce none).getF SIL_NONCE0 silNONCE = 0 :=
  (State.getF_setF_addr _ _ (by decide)).trans ((State.getF_setF_same _ _ _ _).trans (by decide))

theorem State.setSecNonce_hidden (s : State) : (s.setSecNonce none).getF (SEC_NONCE 0) silNONCE = 0 :=
  (State.getF_setF_addr _ _ (by decide)).trans ((State.getF_setF_same _ _ _ _).trans (by decide))

/-- An expiry leaves every register but those that show the nonce. -/
theorem State.expireSil_getF (s : State) {a : Nat} {f : FD} (h : SIL_NONCE0 ≠ a := by decide) (h8 : SIL_NONCE0 + 8 ≠ a := by decide)
    (hf : f.lo < 64 := by decide) : s.expireSil.getF a f = s.getF a f := by
  unfold State.expireSil
  split
  · exact State.setSilNonce_getF s none h h8 hf
  · rfl

theorem State.expireSil_now (s : State) : s.expireSil.now = s.now := by
  unfold State.expireSil
  split
  · rfl
  · rfl

theorem State.expireSil_serves (s : State) : s.expireSil.islandServes false = s.islandServes false := by
  unfold State.islandServes State.flag
  rw [State.expireSil_getF s]

theorem State.expireSil_expires {s : State} {n : List Nat} (h : s.ident.silNonce = some n) (ht : s.sup.silNonceAt + sec 600 ≤ s.now) :
    s.expireSil = s.setSilNonce none := if_pos ⟨by rw [h]; rfl, ht⟩

theorem State.expireSec_expires {s : State} {n : List Nat} (h : s.ident.nonce = some n) (ht : s.sup.secNonceAt + sec 600 ≤ s.now) :
    s.expireSec = s.setSecNonce none := if_pos ⟨by rw [h]; rfl, ht⟩

theorem State.authEnd_status (s : State) (a fail : Nat) : (s.authEnd a fail).getF a silSTATUS = (if fail = 0 then 2 else 3) := by
  unfold State.authEnd
  rw [State.getF_setF_same]
  split <;> rfl

theorem State.authEnd_fail (s : State) (a fail : Nat) : (s.authEnd a fail).getF a silFAIL = fail % 2 ^ silFAIL.w :=
  (State.getF_setF_lo _ _ _).trans (State.getF_setF_same _ _ _ _)

/-- Another field than the two that an end writes. -/
theorem State.authEnd_getF (s : State) (a fail : Nat) {b : Nat} {f : FD} (hs : silSTATUS.key a ≠ f.key b) (hf : silFAIL.key a ≠ f.key b) :
    (s.authEnd a fail).getF b f = s.getF b f :=
  (State.getF_setF_ne _ _ hs).trans (State.getF_setF_ne _ _ hf)

/-- An operation by island A, where none is in progress and it serves, goes on with its function. -/
theorem State.silOp_runs {s : State} {w op t : Nat} {f : State → State} (hop : silOP.of w = op)
    (hidle : (s.at t).getF SIL_AUTH silSTATUS ≠ 1) (hs : (s.at t).islandServes false = true) :
    s.silOp .islandA w op t f = f ((s.at t).expireSil.setF SIL_AUTH silADDR (silADDR.of w)) := by
  unfold State.silOp
  dsimp only
  rw [if_neg (by decide), if_neg (by
    rintro (h | h)
    · exact h hop
    · rw [State.expireSil_getF] at h
      exact hidle h), if_neg]
  rw [State.serves_setF _ _ _ (by decide), State.expireSil_serves, hs]
  decide

theorem State.random_length (s : State) : s.random.1.length = 16 := rfl

/-! What a passing clear does. -/

/-- The part of a clear that SCOPE chooses. -/
def State.clearScope (s : State) (scope entry : Nat) : State :=
  if scope = 0 then { s with sil := { s.sil.drop 142 370 with ext := [] } }.setF SIL_STATUS silLOSS 0
  else
    let q : Quar := Tab.get {} s.quar entry
    let s := { s with sil := s.sil.drop (failHist entry) 2, quar := Tab.set {} s.quar entry { q with mask := 0, all := false } }
    if q.all then s.dirChange else s

/-- The clear record behind it. -/
def State.clearRecord (s : State) (scope entry key : Nat) : State :=
  let s := s.setF SIL_CLR1 silCLRCOUNT (satInc 0xFFFFFFFF (s.getF SIL_CLR1 silCLRCOUNT))
  let s := (s.setF SIL_CLR1 silKEYID key).setF SIL_CLR2 silSCOPE scope
  let s := (s.setF SIL_CLR2 silENTRY entry).setF SIL_CLR0 silCLRPC (s.getF SIL_TIME silPC)
  s.setF SIL_CLR0 silCLRSEC (s.getF SIL_TIME silSEC)

theorem State.clearNow_eq (s : State) (scope entry key : Nat) :
    s.clearNow scope entry key = (s.clearScope scope entry).clearRecord scope entry key := rfl

theorem State.clearScope_count (s : State) (scope entry : Nat) :
    (s.clearScope scope entry).getF SIL_CLR1 silCLRCOUNT = s.getF SIL_CLR1 silCLRCOUNT ∧ (s.clearScope scope entry).ident = s.ident := by
  delta State.clearScope
  split
  · exact ⟨State.getF_setF_addr _ _ (by decide), rfl⟩
  · dsimp only
    split
    · exact ⟨State.getF_setF_addr _ _ (by decide), rfl⟩
    · exact ⟨rfl, rfl⟩

theorem Sillage.drop_empty (x : Sillage) {h n i k : Nat} (hlo : h ≤ i) (hhi : i < h + n) (hk : k < 64) :
    Tab.get 0 (x.drop h n).hist (64 * i + k) = 0 := by
  refine (Tab.get_filter (fun k => decide (k < 64 * h ∨ 64 * (h + n) ≤ k)) 0 x.hist (64 * i + k)).trans (if_neg ?_)
  simp only [decide_eq_true_eq]
  omega

theorem State.clearScope_all (s : State) (entry : Nat) : (s.clearScope 0 entry).sil.ext = [] ∧
    ∀ h k, 142 ≤ h → h < 512 → k < 64 → Tab.get 0 (s.clearScope 0 entry).sil.hist (64 * h + k) = 0 :=
  ⟨rfl, fun _ _ hlo hhi hk => Sillage.drop_empty s.sil hlo hhi hk⟩

theorem State.clearScope_entry (s : State) (entry : Nat) : (Tab.get {} (s.clearScope 1 entry).quar entry : Quar).mask = 0 ∧
    (Tab.get {} (s.clearScope 1 entry).quar entry : Quar).all = false := by
  have hq : (s.clearScope 1 entry).quar = Tab.set {} s.quar entry { (Tab.get {} s.quar entry : Quar) with mask := 0, all := false } := by
    delta State.clearScope
    rw [if_neg (by decide)]
    dsimp only
    split
    · rfl
    · rfl
  rw [hq, Tab.get_set_same]
  exact ⟨rfl, rfl⟩

theorem State.clearRecord_rest (s : State) (scope entry key : Nat) : (s.clearRecord scope entry key).ident = s.ident ∧
    (s.clearRecord scope entry key).sil = s.sil ∧ (s.clearRecord scope entry key).quar = s.quar := by
  delta State.clearRecord
  simp only [State.setF_ident, State.setF_sil, State.setF_quar, and_self]

theorem State.clearRecord_key (s : State) (scope entry key : Nat) :
    (s.clearRecord scope entry key).getF SIL_CLR1 silKEYID = key % 2 ^ silKEYID.w := by
  delta State.clearRecord
  simp (disch := decide) only [State.getF_setF_ne, State.getF_setF_same]

theorem State.clearRecord_count (s : State) (scope entry key : Nat) :
    (s.clearRecord scope entry key).getF SIL_CLR1 silCLRCOUNT = min 0xFFFFFFFF (s.getF SIL_CLR1 silCLRCOUNT + 1) := by
  delta State.clearRecord
  simp (disch := decide) only [State.getF_setF_ne, State.getF_setF_same]
  unfold satInc
  rw [show silCLRCOUNT.w = 32 from rfl]
  split <;> omega

theorem State.quarAll_ident (s : State) (e : Nat) : (s.quarAll e).ident = s.ident := by
  unfold State.quarAll
  dsimp only
  split
  · rfl
  · rfl

/-- The state that a clear has reached when its authorisation has been judged. -/
def State.clearJudged (s : State) (b : List Nat) : State :=
  let f := s.clearFail b
  let s := s.setSilNonce none
  let scope := fieldAt b 6 1
  let entry := fieldAt b 7 1
  if f = 0 then
    let s := s.clearNow scope entry (fieldAt b 8 4)
    let s := s.setWriting 4 (some s.silImage)
    (if scope = 1 then s.setWriting 3 (some (.quar s.quarTable)) else s).authEnd SIL_AUTH 0
  else
    let s := if 4 ≤ f ∧ f ≤ 7 ∧ scope = 1 then s.quarAll entry else s
    (s.event 29).authEnd SIL_AUTH f

theorem State.clearJudged_fails (s : State) {b : List Nat} (h : s.clearFail b ≠ 0) : (s.clearJudged b).ident.silNonce = none ∧
    (s.clearJudged b).getF SIL_AUTH silSTATUS = 3 ∧ (s.clearJudged b).getF SIL_AUTH silFAIL = s.clearFail b % 2 ^ silFAIL.w := by
  delta State.clearJudged
  extract_lets -merge f u scope entry x y w
  rw [if_neg h, State.authEnd_status, if_neg h]
  refine ⟨?_, rfl, State.authEnd_fail _ _ _⟩
  have hw : w.ident = u.ident := by
    unfold w
    split
    · exact u.quarAll_ident entry
    · rfl
  show (w.event 29).ident.silNonce = none
  rw [(Pushes.event w 29).eq]
  show w.ident.silNonce = none
  rw [hw]
  rfl

/-- The registers, the recorder and the table after a passing clear: the writes of the stores change none of them. -/
theorem State.clearJudged_passes (s : State) {b : List Nat} (h : s.clearFail b = 0) :
    ∃ u : State, u = ((s.setSilNonce none).clearNow (fieldAt b 6 1) (fieldAt b 7 1) (fieldAt b 8 4)) ∧
      (s.clearJudged b).regs = (u.authEnd SIL_AUTH 0).regs ∧ (s.clearJudged b).sil = u.sil ∧ (s.clearJudged b).quar = u.quar ∧
      (s.clearJudged b).ident = u.ident := by
  obtain ⟨u, hu⟩ : ∃ u, u = (s.setSilNonce none).clearNow (fieldAt b 6 1) (fieldAt b 7 1) (fieldAt b 8 4) := ⟨_, rfl⟩
  refine ⟨u, hu, ?_⟩
  delta State.clearJudged
  dsimp only
  rw [if_pos h, ← hu]
  split
  · exact ⟨rfl, rfl, rfl, rfl⟩
  · exact ⟨rfl, rfl, rfl, rfl⟩

theorem State.clearJudged_nonce (s : State) (b : List Nat) : (s.clearJudged b).ident.silNonce = none := by
  by_cases h : s.clearFail b = 0
  · obtain ⟨u, rfl, _, _, _, hident⟩ := s.clearJudged_passes h
    rw [hident, State.clearNow_eq, (State.clearRecord_rest _ _ _ _).1, (State.clearScope_count _ _ _).2, State.setSilNonce_ident]
  · exact (s.clearJudged_fails h).1

theorem sillageClear_judges {s : State} {w t : Nat} (hop : silOP.of w = 2) (hidle : (s.at t).getF SIL_AUTH silSTATUS ≠ 1)
    (hs : (s.at t).islandServes false = true) (s1 : State) (hs1 : s1 = (s.at t).expireSil.setF SIL_AUTH silADDR (silADDR.of w))
    (hread : s1.islandReads (silADDR.of w * 64) 256 = true) :
    sillageClear .islandA w t s = s1.clearJudged (s1.bytes (silADDR.of w * 64) 256) := by
  have haddr : s1.getF SIL_AUTH silADDR = silADDR.of w := by
    rw [hs1, State.getF_setF_same]
    exact Nat.mod_eq_of_lt (Nat.mod_lt _ (Nat.two_pow_pos _))
  unfold sillageClear
  rw [State.silOp_runs hop hidle hs, ← hs1]
  dsimp only
  rw [haddr, hread]
  rfl

/-- Settles O40: each act follows its branch; a clear that passes empties what its SCOPE names. -/
theorem sillageControlResults : Obligations.SillageControlResults := by
  intro s0 w t s
  refine ⟨?_, ?_, ?_, ?_, ?_, rfl, rfl, ?_⟩
  · intro who hwho
    have hload : (s.loadF SIL_CTRL [silFREEZE] w).getF SIL_CTRL silFREEZE = silFREEZE.of w :=
      s.getF_loadF SIL_CTRL w (by decide) (by decide) (by decide)
    have heq : freezeCmd who w t s0 = (let u := s.loadF SIL_CTRL [silFREEZE] w
        if silFREEZE.of w = 1 then { u with sup := { u.sup with freezeAt := u.now } } else u) := by
      unfold freezeCmd privileged
      dsimp only
      rw [hwho]
      rfl
    refine ⟨_, congrArg Host.Outcome.next heq, ?_, fun hw => ?_⟩
    · dsimp only
      split
      · exact hload
      · exact hload
    · dsimp only
      rw [if_pos hw]
      rfl
  · intro hf ht
    refine ⟨_, congrArg Host.Outcome.next (if_pos ⟨hf, ht⟩), ?_⟩
    show decide (State.getF _ _ _ = 1) = false
    rw [State.getF_setF_same]
    rfl
  · intro hop hidle hs
    let u := s.expireSil.setF SIL_AUTH silADDR (silADDR.of w)
    have hrun : nonceRequest .islandA w t s0 = _ := State.silOp_runs hop hidle hs
    have haddr : u.getF SIL_AUTH silADDR = silADDR.of w := (State.getF_setF_same _ _ _ _).trans (Nat.mod_eq_of_lt (Nat.mod_lt _ (Nat.two_pow_pos _)))
    have htrng : u.flag SEC_STATUS scTRNG = s.flag SEC_STATUS scTRNG := by
      unfold State.flag
      rw [State.getF_setF_addr _ _ (by decide), State.expireSil_getF]
    refine ⟨_, congrArg Host.Outcome.next hrun, ?_, fun hgood => ?_, fun hbad => ?_⟩
    · rw [htrng]
      split
      · rw [State.trngFail, State.authEnd_getF _ _ _ (by decide) (by decide)]
        exact (State.setSilNonce_getF u none).trans haddr
      · rw [State.authEnd_getF _ _ _ (by decide) (by decide), State.setSilNonce_getF]
        exact haddr
    · rw [htrng, hgood]
      refine ⟨u.random.1, rfl, u.random_length, ?_, ?_, State.authEnd_status _ _ _⟩
      · rw [if_neg (by decide), State.authEnd_getF _ _ _ (by decide) (by decide)]
        exact State.setSilNonce_shown _ _
      · show u.now = s.now
        exact s.expireSil_now
    · rw [htrng, hbad]
      exact ⟨rfl, State.authEnd_status _ _ _, State.authEnd_fail _ _ _⟩
  · intro n hn ht
    refine ⟨_, congrArg Host.Outcome.next (State.expireSil_expires hn ht), rfl, s.setSilNonce_hidden⟩
  · intro n hn ht
    refine ⟨_, congrArg Host.Outcome.next (State.expireSec_expires hn ht), rfl, s.setSecNonce_hidden⟩
  · intro a s1 b f hop hidle hs hread
    refine ⟨_, congrArg Host.Outcome.next (sillageClear_judges hop hidle hs s1 rfl hread), ?_, fun hf => ?_, fun hf => (s1.clearJudged_fails hf).2⟩
    · exact s1.clearJudged_nonce b
    · obtain ⟨u, rfl, hregs, hsil, hquar, _⟩ := s1.clearJudged_passes (b := b) hf
      rw [State.clearNow_eq] at hregs hsil hquar
      rw [(State.clearRecord_rest _ _ _ _).2.1] at hsil
      rw [(State.clearRecord_rest _ _ _ _).2.2] at hquar
      have hcleared : s1.getF SIL_CLR1 silCLRCOUNT = s.getF SIL_CLR1 silCLRCOUNT :=
        (State.getF_setF_addr _ _ (by decide)).trans s.expireSil_getF
      have hcount := ((s1.setSilNonce none).clearScope_count (fieldAt b 6 1) (fieldAt b 7 1)).1
      refine ⟨?_, ?_, ?_, fun hscope => ?_, fun hscope => ?_⟩
      · rw [State.getF_of_regs hregs, State.authEnd_status]
        rfl
      · rw [State.getF_of_regs hregs, State.authEnd_getF _ _ _ (by decide) (by decide), State.clearRecord_key]
      · rw [State.getF_of_regs hregs, State.authEnd_getF _ _ _ (by decide) (by decide), State.clearRecord_count, hcount, State.setSilNonce_getF]
        rw [hcleared]
      · rw [hsil, hscope]
        exact State.clearScope_all _ _
      · rw [hquar, hscope]
        exact State.clearScope_entry _ _

end Sys2Proof.Machine


/-! PROOFS. What the Flacon measures -/

namespace Sys2Proof.Machine

set_option Elab.async false

/-! Pulses. -/

theorem Measure.pulse_eq (m : Measure) : m.pulse.acc = (m.acc + 1000) % m.k ∧
    m.pulse.dist = min 0xFFFFFFFF (m.dist + (m.acc + 1000) / m.k) ∧
    m.pulse.distSat = (m.distSat || decide (0xFFFFFFFF < m.dist + (m.acc + 1000) / m.k)) := by
  unfold Measure.pulse
  dsimp only
  split
  · next h => exact ⟨rfl, (Nat.min_eq_left (Nat.le_of_lt h)).symm, by rw [decide_eq_true h, Bool.or_true]⟩
  · next h => exact ⟨rfl, (Nat.min_eq_right (Nat.not_lt.1 h)).symm, by rw [decide_eq_false h, Bool.or_false]⟩

/-- The state after a counted pulse, before the store is written. -/
def State.pulsed (s : State) : State :=
  (s.setM Measure.pulse).setFlc (fun x => { x with pulses := x.pulses.filter (fun p => decide (s.now < p + sec 1)) ++ [s.now] })

theorem flcPulse_counts {s : State} {t : Nat} (hon : (s.at t).flc.on = true) (he : (s.at t).pulseEarly = false) :
    flcPulse t s = (if (s.at t).pulsed.flc.m.dist / 10 = (s.at t).flc.m.dist / 10 then (s.at t).pulsed else (s.at t).pulsed.flcSave) := by
  unfold flcPulse
  dsimp only
  rw [hon, he]
  rfl

/-! The plausibility of the odometry. -/

/-- The runs after a sample that is out of the bound, or within it, and what they make of IMPLAUSIBLE. -/
def Flacon.judged (x : Flacon) (out within : Bool) : Flacon :=
  let b := if out then min 100 (x.bad + 1) else 0
  let g := if within then min 600 (x.good + 1) else 0
  { x with bad := b, good := g, impl := (x.impl || decide (b = 100)) && !decide (g = 600) }

theorem Flacon.judged_within (x : Flacon) : (x.judged false true).bad = 0 ∧ (x.judged false true).good = min 600 (x.good + 1) ∧
    (x.judged false true).impl = (x.impl && decide (x.good + 1 < 600)) := by
  refine ⟨rfl, rfl, ?_⟩
  show ((x.impl || decide (0 = 100)) && !decide (min 600 (x.good + 1) = 600)) = _
  have : (!decide (min 600 (x.good + 1) = 600)) = decide (x.good + 1 < 600) := by
    rw [← decide_not, decide_eq_decide]
    omega
  rw [this]
  simp

theorem Flacon.judged_out (x : Flacon) : (x.judged true false).bad = min 100 (x.bad + 1) ∧ (x.judged true false).good = 0 ∧
    (x.judged true false).impl = (x.impl || decide (99 ≤ x.bad)) := by
  refine ⟨rfl, rfl, ?_⟩
  show ((x.impl || decide (min 100 (x.bad + 1) = 100)) && !decide (0 = 600)) = _
  have : decide (min 100 (x.bad + 1) = 100) = decide (99 ≤ x.bad) := by
    rw [decide_eq_decide]
    omega
  rw [this]
  simp

theorem plausibilitySample_judges {s : State} {t odo : Nat} (hr : (s.at t).flc.running = true) (hv : (s.at t).flag FLC_ODO foV = true)
    (hstale : (s.at t).sampleOdo.flc.stale = false) (hodo : (s.at t).getF FLC_ODO foSPEED = odo) :
    plausibilitySample t s = (s.at t).sampleOdo.setFlc (fun x =>
      x.judged (decide (max 10240 odo < 10 * (((s.at t).flc.speed : Int) - (odo : Int)).natAbs) &&
          decide (1280 < (s.at t).flc.speed ∧ 1280 < odo))
        (!decide (max 10240 odo < 10 * (((s.at t).flc.speed : Int) - (odo : Int)).natAbs))) := by
  have hspeed : (s.at t).sampleOdo.flc.speed = (s.at t).flc.speed := by
    unfold State.sampleOdo State.setFlc
    dsimp only
    split
    · rfl
    · rfl
  have hv' : (s.at t).sampleOdo.flag FLC_ODO foV = true := hv
  have hodo : (s.at t).sampleOdo.getF FLC_ODO foSPEED = odo := hodo
  unfold plausibilitySample
  dsimp only
  rw [if_neg (by rw [hr]; decide), hv', hstale, hspeed, hodo]
  rfl

theorem State.sampleOdo_runs (s : State) : s.sampleOdo.flc.bad = s.flc.bad ∧ s.sampleOdo.flc.good = s.flc.good ∧
    s.sampleOdo.flc.impl = s.flc.impl := by
  unfold State.sampleOdo State.setFlc
  dsimp only
  split
  · exact ⟨rfl, rfl, rfl⟩
  · exact ⟨rfl, rfl, rfl⟩

/-! The mirror. -/

/-- The registers that a refresh writes. -/
def State.mirrorRegs (s : State) : State :=
  let x := s.flc
  let s := ((s.setF FLC_STATUS flFSEC s.flcSec).setF FLC_STATUS flLOGUSED x.m.log.length).setF FLC_STATUS flFLAGS s.flcFlags
  let s := (s.setF FLC_STATUS flRUNNING 1).showChal
  let s := ((s.setF FLC_MEAS flDIST x.m.dist).setF FLC_MEAS flSPEED x.speed).setF FLC_MEAS flMSEQ (s.getF FLC_MEAS flMSEQ + 1)
  let s := (s.setF FLC_CAL flSEAL x.m.sealCount).setF FLC_CAL flK x.m.k
  ((s.setF FLC_SWID cnt64 (fieldAt s.flcImage 0x10 8)).setF FLC_SWCRC flSWCRC s.swcrc).setF FLC_FPC flFPC x.m.fpc

theorem State.mirror_getF (s : State) (a : Nat) (f : FD) : s.mirror.getF a f = s.mirrorRegs.getF a f := by
  unfold State.mirror
  exact State.getF_of_regs ((State.putBytes_regs _ _ _).trans ((State.putBytes_regs _ _ _).trans (State.putBytes_regs _ _ _))) a f

theorem State.mirrorRegs_shows (s : State) :
    s.mirrorRegs.getF FLC_MEAS flMSEQ = (s.getF FLC_MEAS flMSEQ + 1) % 2 ^ flMSEQ.w ∧
    s.mirrorRegs.getF FLC_MEAS flDIST = s.flc.m.dist % 2 ^ 32 ∧ s.mirrorRegs.getF FLC_CAL flK = s.flc.m.k % 2 ^ flK.w ∧
    s.mirrorRegs.getF FLC_STATUS flFLAGS = s.flcFlags % 2 ^ flFLAGS.w ∧ s.mirrorRegs.getF FLC_STATUS flFSEC = s.flcSec := by
  refine ⟨?_, ?_, ?_, ?_, ?_⟩
  · delta State.mirrorRegs
    simp (disch := decide) only [State.showChal, State.getF_setF_ne, State.getF_setF_same]
  · delta State.mirrorRegs
    simp (disch := decide) only [State.showChal, State.getF_setF_ne, State.getF_setF_same]
    exact rfl
  · delta State.mirrorRegs
    simp (disch := decide) only [State.showChal, State.getF_setF_ne, State.getF_setF_same]
  · delta State.mirrorRegs
    simp (disch := decide) only [State.showChal, State.getF_setF_ne, State.getF_setF_same]
  · delta State.mirrorRegs
    simp (disch := decide) only [State.showChal, State.getF_setF_ne, State.getF_setF_same]
    refine Nat.mod_eq_of_lt (Nat.lt_of_le_of_lt (Nat.min_le_left _ _) ?_)
    decide

/-! Debug openings and starts. -/

/-- A debug opening but for the write of the store. -/
def State.flcOpened (s : State) : State :=
  let s := s.flcClose
  let s := s.setM (fun m => { m with sealCount := satInc 0xFFFFFFFF m.sealCount, broken := true })
  if s.flc.m.log.length < 1024 then s.flcLog 4 0 s.flc.m.k else s.setM (fun m => { m with logFull := true })

theorem State.flcOpened_seal (s : State) : s.flcOpened.flc.m.broken = true ∧ s.flcOpened.flc.chal = none ∧
    s.flcOpened.flc.m.sealCount = satInc 0xFFFFFFFF s.flc.m.sealCount ∧
    s.flcOpened.flc.m.log.length = (if s.flc.m.log.length < 1024 then s.flc.m.log.length + 1 else s.flc.m.log.length) := by
  delta State.flcOpened
  dsimp only
  split
  · next h =>
    have h : s.flc.m.log.length < 1024 := h
    refine ⟨rfl, rfl, rfl, ?_⟩
    rw [if_pos h]
    exact List.length_append
  · next h =>
    have h : ¬ s.flc.m.log.length < 1024 := h
    refine ⟨rfl, rfl, rfl, ?_⟩
    rw [if_neg h]
    rfl

theorem State.raiseFloor_flc (s : State) (k : Nat) (b : List Nat) : (s.raiseFloor k b).flc = s.flc := by
  unfold State.raiseFloor
  split <;> rfl

theorem State.flcRestart_flc (s : State) : s.flcRestart.flc.on = s.flc.on ∧ s.flcRestart.flc.m = s.flc.m ∧
    s.flcRestart.flc.saved = s.flc.saved ∧ s.flcRestart.flc.pulses = s.flc.pulses ∧ s.flcRestart.flc.chal = none := by
  unfold State.flcRestart
  extract_lets -merge ok u v w
  have hw : w.flc.on = s.flc.on ∧ w.flc.m = s.flc.m ∧ w.flc.saved = s.flc.saved ∧ w.flc.pulses = s.flc.pulses ∧ w.flc.chal = none :=
    ⟨rfl, rfl, rfl, rfl, rfl⟩
  split
  · rw [State.raiseFloor_flc]
    exact hw
  · exact hw

/-- Settles O41: each event follows its branch of the model. -/
theorem flaconMeasureResults : Obligations.FlaconMeasureResults := by
  intro s0 w t s m
  refine ⟨?_, ?_, ?_, ?_, ?_, ?_, ?_, ?_, ?_, ?_, ?_⟩
  · intro _ he
    refine congrArg Host.Outcome.next (if_pos ?_)
    rw [he, Bool.or_true]
  · intro hon he
    obtain ⟨hacc, hdist, hsat⟩ := m.pulse_eq
    have hlen : s.pulsed.flc.pulses.length ≤ s.flc.pulses.length + 1 := by
      show (s.flc.pulses.filter _ ++ [s.now]).length ≤ _
      rw [List.length_append]
      exact Nat.add_le_add_right (List.length_filter_le _ _) 1
    have hin : s.now ∈ s.pulsed.flc.pulses := List.mem_append_right _ (List.mem_singleton.2 rfl)
    refine ⟨_, congrArg Host.Outcome.next (flcPulse_counts hon he), ?_⟩
    split
    · next h => exact ⟨hacc, hdist, hsat, hlen, hin, rfl⟩
    · next h => exact ⟨hacc, hdist, hsat, hlen, hin, (if_neg h).symm⟩
  · intro on hon
    exact congrArg Host.Outcome.next (if_pos hon)
  · intro n hr
    have hrun : (!s.flc.running) = false := by rw [hr]; rfl
    refine ⟨_, congrArg Host.Outcome.next (if_neg (by rw [hrun]; decide)), rfl, rfl, rfl⟩
  · intro s1 odo d hr hv hstale
    obtain ⟨hbad, hgood, himpl⟩ := s.sampleOdo_runs
    refine ⟨_, congrArg Host.Outcome.next (plausibilitySample_judges hr hv hstale rfl), fun hin => ?_, fun hout hspeed hodo => ?_⟩
    · have hb : decide (max 10240 odo < 10 * d) = false := decide_eq_false (Nat.not_lt.2 hin)
      rw [hb, ← hgood, ← himpl]
      exact s1.flc.judged_within
    · have hb : decide (max 10240 odo < 10 * d) = true := decide_eq_true hout
      rw [hb, decide_eq_true (p := _ ∧ _) ⟨hspeed, hodo⟩, ← hbad, ← himpl]
      exact s1.flc.judged_out
  · refine ⟨_, rfl, fun f hf => ?_⟩
    exact s0.getF_loadF FLC_ODO w hf (by decide) (by revert f; decide)
  · intro who hwho
    exact congrArg Host.Outcome.next (if_pos hwho)
  · intro hup
    obtain ⟨h1, h2, h3, h4, h5⟩ := s.mirrorRegs_shows
    refine ⟨s.mirror, congrArg Host.Outcome.next (if_pos hup), ?_⟩
    simp only [State.mirror_getF]
    exact ⟨h1, h2, h3, h4, h5⟩
  · intro hon hr
    obtain ⟨hbroken, hchal, hcount, hlog⟩ := s.flcOpened_seal
    exact ⟨s.flcOpened.flcSave, congrArg Host.Outcome.next (if_pos ⟨hon, hr⟩), hbroken, hchal, hcount, rfl, hlog⟩
  · intro hoff
    refine ⟨_, congrArg Host.Outcome.next (if_neg (by show ¬ s.flc.on = true; rw [hoff]; decide)), ?_⟩
    obtain ⟨hon, hm, hsaved, hpulses, hchal⟩ := State.flcRestart_flc (s.setFlc (fun x => { x with
      on := true, m := { x.saved with fpc := satInc 0xFFFFFFFF x.saved.fpc }, onAt := s.now, pulses := [], rseq := 0,
      lineFault := false })).flcSave
    exact ⟨hon, hm, hsaved.trans hm.symm, hpulses, hchal⟩
  · intro hon
    have hrun : (!s.flc.on) = false := by rw [hon]; rfl
    refine ⟨_, congrArg Host.Outcome.next (if_neg (by rw [hrun]; decide)), rfl, rfl, rfl⟩

end Sys2Proof.Machine


/-! PROOFS. The Flacon's requests -/

namespace Sys2Proof.Machine

set_option Elab.async false

/-! What bytes that were put read. -/

theorem State.byte_putBytes_below (s : State) {a j : Nat} (bs : List Byte) (h : j < a) : (s.putBytes a bs).byte j = s.byte j := by
  induction bs generalizing s a with
  | nil => rfl
  | cons b bs ih => exact (ih _ (Nat.lt_succ_of_lt h)).trans (Tab.get_set_ne (by omega))

theorem State.byte_putBytes_at (s : State) (a : Nat) {i : Nat} {bs : List Byte} (h : i < bs.length) :
    (s.putBytes a bs).byte (a + i) = bs.getD i 0 := by
  induction bs generalizing s a i with
  | nil => exact absurd h (Nat.not_lt_zero _)
  | cons b bs ih =>
    cases i with
    | zero => exact (State.byte_putBytes_below _ bs (Nat.lt_succ_self a)).trans Tab.get_set_same
    | succ i =>
      have := ih (s.setByte a b) (a + 1) (Nat.lt_of_succ_lt_succ h)
      rwa [show a + 1 + i = a + (i + 1) by omega] at this

/-- A part of the numbers that were put reads back, each modulo 256. -/
theorem State.bytes_putBytes (s : State) (a o n : Nat) {l : List Nat} (h : o + n ≤ l.length) :
    (s.putBytes a (byteList l)).bytes (a + o) n = ((l.drop o).take n).map (· % 256) := by
  refine List.ext_getElem ?_ fun i hi hi' => ?_
  · simp [State.bytes]
    omega
  · have hin : i < n := by simpa [State.bytes] using hi
    have hb := s.byte_putBytes_at a (i := o + i) (bs := byteList l) (by simp [byteList]; omega)
    simp only [State.bytes, List.getElem_map, List.getElem_range, Nat.add_assoc, hb, List.getElem_take, List.getElem_drop]
    simp [byteList, List.getD_eq_getElem?_getD, List.getElem?_eq_getElem (show o + i < l.length by omega)]

theorem bytesOf_mod (n v : Nat) : (bytesOf n v).map (· % 256) = bytesOf n v := by
  conv_rhs => rw [← List.map_id (bytesOf n v)]
  exact List.map_congr_left fun x hx => Nat.mod_eq_of_lt (bytesOf_lt hx)

/-! Sessions and the ends of requests. -/

theorem State.flcEnd_status (s : State) (fail : Nat) : (s.flcEnd fail).getF FLC_REQ frSTATUS = (if fail = 0 then 2 else 3) := by
  unfold State.flcEnd
  rw [State.getF_setF_same]
  split <;> rfl

theorem State.flcEnd_fail (s : State) (fail : Nat) : (s.flcEnd fail).getF FLC_REQ frFAIL = fail % 2 ^ frFAIL.w :=
  (State.getF_setF_lo _ _ _).trans (State.getF_setF_same _ _ _ _)

theorem State.flcEnd_getF (s : State) (fail : Nat) {a : Nat} {f : FD} (hs : frSTATUS.key FLC_REQ ≠ f.key a := by decide)
    (hf : frFAIL.key FLC_REQ ≠ f.key a := by decide) : (s.flcEnd fail).getF a f = s.getF a f :=
  (State.getF_setF_ne _ _ hs).trans (State.getF_setF_ne _ _ hf)

theorem State.showChal_session (s : State) : s.showChal.getF FLC_STATUS flSESSION = b2n s.flc.chal.isSome := by
  unfold State.showChal
  simp only [State.getF_setF_same, State.setF_flc]
  cases s.flc.chal
  · rfl
  · rfl

theorem State.showChal_getF (s : State) {a : Nat} {f : FD} (h0 : cnt64.key (FLC_CHAL 0) ≠ f.key a := by decide)
    (h1 : cnt64.key (FLC_CHAL 1) ≠ f.key a := by decide) (h2 : flSESSION.key FLC_STATUS ≠ f.key a := by decide) :
    s.showChal.getF a f = s.getF a f :=
  (State.getF_setF_ne _ _ h2).trans ((State.getF_setF_ne _ _ h1).trans (State.getF_setF_ne _ _ h0))

/-- A request of island A that the Flacon can take goes on with its function. -/
theorem State.flcOp_runs {s : State} {w op t : Nat} {f : State → State}
    (h : frOP.of w = op ∧ (s.at t).flcExpire.getF FLC_REQ frSTATUS ≠ 1 ∧ (s.at t).flcExpire.flcUp = true) :
    s.flcOp .islandA w op t f = f (s.at t).flcExpire := by
  obtain ⟨hop, hidle, hup⟩ := h
  unfold State.flcOp
  dsimp only
  rw [if_neg (by decide), if_neg (not_or.2 ⟨fun h => h hop, hidle⟩), if_neg (by rw [hup]; decide)]

/-! The signed record. -/

theorem State.flcRecord_head (s : State) (nonce : List Nat) : ∃ rest, s.flcRecord nonce =
    bytesOf 4 0x464C4352 ++ (bytesOf 2 1 ++ (bytesOf 2 s.flcFlags ++ (bytesOf 4 s.flc.rseq ++ (bytesOf 4 s.flc.m.dist ++ rest)))) :=
  ⟨_, by simp only [State.flcRecord, List.append_assoc]; rfl⟩

theorem State.flcRecord_put (s u : State) (nonce : List Nat) (a : Nat) :
    (u.putBytes a (byteList (s.flcRecord nonce))).bytes a 4 = bytesOf 4 0x464C4352 ∧
    (u.putBytes a (byteList (s.flcRecord nonce))).bytes (a + 8) 4 = bytesOf 4 s.flc.rseq ∧
    (u.putBytes a (byteList (s.flcRecord nonce))).bytes (a + 12) 4 = bytesOf 4 s.flc.m.dist := by
  obtain ⟨rest, hrest⟩ := s.flcRecord_head nonce
  have hlen : 16 ≤ (s.flcRecord nonce).length := by
    rw [hrest]
    simp [bytesOf]
  refine ⟨(u.bytes_putBytes a 0 4 (by omega)).trans ?_, (u.bytes_putBytes a 8 4 (by omega)).trans ?_, (u.bytes_putBytes a 12 4 (by omega)).trans ?_⟩
  · rw [hrest]
    exact bytesOf_mod 4 _
  · rw [hrest]
    exact bytesOf_mod 4 s.flc.rseq
  · rw [hrest]
    exact bytesOf_mod 4 s.flc.m.dist

/-- The state that an answered SIGN makes. -/
def State.signed (s : State) : State :=
  let s := s.setFlc (fun x => { x with rseq := (x.rseq + 1) % 2 ^ 32 })
  let s := s.putBytes (flcBase + 0x800) (byteList (s.flcRecord (s.flcBuf.take 16)))
  ({ s with free := s.free + 1 }).flcEnd 0

theorem State.signed_shows (s : State) : s.signed.flc.rseq = (s.flc.rseq + 1) % 2 ^ 32 ∧ s.signed.getF FLC_REQ frSTATUS = 2 ∧
    s.signed.bytes (flcBase + 0x800) 4 = bytesOf 4 0x464C4352 ∧
    s.signed.bytes (flcBase + 0x808) 4 = bytesOf 4 ((s.flc.rseq + 1) % 2 ^ 32) ∧
    s.signed.bytes (flcBase + 0x80C) 4 = bytesOf 4 s.flc.m.dist := by
  delta State.signed
  dsimp only
  obtain ⟨u, hu⟩ : ∃ u, u = s.setFlc (fun x => { x with rseq := (x.rseq + 1) % 2 ^ 32 }) := ⟨_, rfl⟩
  have hrseq : u.flc.rseq = (s.flc.rseq + 1) % 2 ^ 32 := by rw [hu]; rfl
  have hdist : u.flc.m.dist = s.flc.m.dist := by rw [hu]; rfl
  rw [← hu]
  obtain ⟨hmagic, hseq, hd⟩ := u.flcRecord_put u (u.flcBuf.take 16) (flcBase + 0x800)
  have hflc := (Pushes.putBytes u (flcBase + 0x800) (byteList (u.flcRecord (u.flcBuf.take 16)))).eq
  generalize u.putBytes (flcBase + 0x800) (byteList (u.flcRecord (u.flcBuf.take 16))) = v at hmagic hseq hd hflc ⊢
  have hend : (State.flcEnd { v with free := v.free + 1 } 0).mem = v.mem := rfl
  rw [State.bytes_of_mem hend, State.bytes_of_mem hend, State.bytes_of_mem hend, ← hrseq, ← hdist]
  refine ⟨?_, State.flcEnd_status _ 0, hmagic, hseq, hd⟩
  show v.flc.rseq = u.flc.rseq
  rw [hflc]

/-! A workshop command. -/

/-- What a command leaves once its check has given `fail`, `u` being the state that its effect has made. -/
def State.flcDone (u : State) (fail : Nat) : State := (((u.setFlc (fun x => { x with cmdAt := u.now })).newChal).flcEnd fail)

theorem State.flcCheck_ne_two {s : State} {b : List Nat} (h : s.flc.chal.isSome = true) : s.flcCheck b ≠ 2 := by
  obtain ⟨c, hc⟩ := Option.isSome_iff_exists.1 h
  unfold State.flcCheck
  rw [hc]
  dsimp only
  repeat' split
  all_goals decide

/-- A command of island A in an open session is checked, has its effect where nothing fails, and a new challenge. -/
theorem State.flcCommand_runs {s : State} {w t cmd : Nat} {f : State → List Nat → State} (hcmd : fieldAt s.flcBuf 6 1 = cmd)
    (h : frOP.of w = 3 ∧ (s.at t).flcExpire.getF FLC_REQ frSTATUS ≠ 1 ∧ (s.at t).flcExpire.flcUp = true)
    (hopen : (s.at t).flcExpire.flc.chal.isSome = true) :
    s.flcCommand .islandA w t cmd f = (if (s.at t).flcExpire.flcCheck s.flcBuf = 0 then f (s.at t).flcExpire s.flcBuf
      else (s.at t).flcExpire).flcDone ((s.at t).flcExpire.flcCheck s.flcBuf) := by
  unfold State.flcCommand
  dsimp only
  rw [if_neg (fun h => h.1 hcmd), State.flcOp_runs h, if_neg (State.flcCheck_ne_two hopen)]
  rfl

theorem State.newChal_flc (s : State) : s.newChal.flc = { s.flc with chal := some s.random.1 } := rfl

theorem State.flcDone_flc (u : State) (fail : Nat) :
    (u.flcDone fail).flc = { u.flc with cmdAt := u.now, chal := some u.random.1 } := rfl

theorem State.flcDone_blocks (u : State) (fail : Nat) : (u.flcDone fail).getF FLC_REQ frBLOCKS = u.getF FLC_REQ frBLOCKS := by
  delta State.flcDone State.newChal
  rw [State.flcEnd_getF]
  dsimp only
  rw [State.showChal_getF]
  exact State.getF_of_regs rfl _ _

theorem State.flcExpire_now (s : State) : s.flcExpire.now = s.now := by
  unfold State.flcExpire
  split
  · rfl
  · rfl

/-- The answer of a command whose effect leaves the time. -/
theorem State.flcDone_went {u s : State} {f : Nat} (hnow : u.now = s.now) (hm : f ≠ 0 → u.flc.m = s.flc.m) :
    (u.flcDone f).flc.chal.isSome = true ∧ (u.flcDone f).flc.cmdAt = s.now ∧ (f = 0 → (u.flcDone f).getF FLC_REQ frSTATUS = 2) ∧
    (f ≠ 0 → (u.flcDone f).getF FLC_REQ frSTATUS = 3 ∧ (u.flcDone f).getF FLC_REQ frFAIL = f % 2 ^ frFAIL.w ∧ (u.flcDone f).flc.m = s.flc.m) := by
  have hstatus : (u.flcDone f).getF FLC_REQ frSTATUS = (if f = 0 then 2 else 3) := State.flcEnd_status _ f
  refine ⟨rfl, hnow, fun h => by rw [hstatus, if_pos h], fun h => ⟨by rw [hstatus, if_neg h], State.flcEnd_fail _ f, hm h⟩⟩

/-- An applied command counts the seal, adds an entry to the log and writes the store. -/
theorem State.flcApplied_counts (s : State) (type key kOld : Nat) :
    (s.flcApplied type key kOld).flc.m.sealCount = satInc 0xFFFFFFFF s.flc.m.sealCount ∧
    (s.flcApplied type key kOld).flc.m.log.length = s.flc.m.log.length + 1 ∧
    (s.flcApplied type key kOld).flc.saved = (s.flcApplied type key kOld).flc.m ∧
    (s.flcApplied type key kOld).flc.m.k = s.flc.m.k ∧ (s.flcApplied type key kOld).flc.m.acc = s.flc.m.acc ∧
    (s.flcApplied type key kOld).flc.m.broken = s.flc.m.broken ∧ (s.flcApplied type key kOld).now = s.now :=
  ⟨rfl, List.length_append, rfl, rfl, rfl, rfl, rfl⟩

/-- Settles O42: the answered request runs its function; a command is checked, has its effect and renews the challenge. -/
theorem flaconCommandResults : Obligations.FlaconCommandResults := by
  intro s0 w t s asks
  refine ⟨?_, ?_, ?_, ?_, ?_, ?_⟩
  · intro h
    exact ⟨s.signed, congrArg Host.Outcome.next (State.flcOp_runs h), s.signed_shows⟩
  · intro h
    refine ⟨_, _, congrArg Host.Outcome.next (State.flcOp_runs h), rfl, rfl, ?_, State.flcEnd_status _ 0⟩
    rw [State.flcEnd_getF, State.newChal, State.showChal_session]
    rfl
  · intro h hopen
    refine ⟨_, congrArg Host.Outcome.next (State.flcOp_runs h), ?_⟩
    rw [if_neg (by rw [Option.isNone_iff_eq_none]; rintro hnone; rw [hnone] at hopen; exact absurd hopen (by decide))]
    refine ⟨rfl, rfl, ?_, State.flcEnd_status _ 0⟩
    rw [State.flcEnd_getF, State.flcClose, State.showChal_session]
    rfl
  · intro hopen ht
    exact congrArg Host.Outcome.next (if_pos ⟨hopen, ht⟩)
  · intro b f went counted h hopen
    have hsame : ∀ u : State, (if f = 0 then u else s).flc.m = s.flc.m ∨ f = 0 := fun u => by
      by_cases hf : f = 0
      · exact .inr hf
      · exact .inl (by rw [if_neg hf])
    refine ⟨fun hcmd => ?_, fun hcmd => ?_, fun hcmd => ?_⟩
    · obtain ⟨hcount, hlog, hsaved, hk, hacc, _, hnow⟩ := State.flcApplied_counts
        (s.setM (fun m => { m with acc := m.acc * fieldAt b 0xC 4 / s.flc.m.k, k := fieldAt b 0xC 4 })) 1 (fieldAt b 8 4) s.flc.m.k
      refine ⟨_, congrArg Host.Outcome.next (State.flcCommand_runs hcmd h hopen),
        State.flcDone_went ?_ (fun hf => (hsame _).resolve_right hf), fun hf => ?_⟩
      · split
        · exact hnow
        · rfl
      · rw [if_pos hf]
        exact ⟨⟨hcount, hlog, hsaved⟩, hk, hacc⟩
    · obtain ⟨hcount, hlog, hsaved, _, _, hbroken, hnow⟩ := State.flcApplied_counts
        (s.setM (fun m => { m with broken := false })) 2 (fieldAt b 8 4) s.flc.m.k
      refine ⟨_, congrArg Host.Outcome.next (State.flcCommand_runs hcmd h hopen),
        State.flcDone_went ?_ (fun hf => (hsame _).resolve_right hf), fun hf => ?_⟩
      · split
        · exact hnow
        · rfl
      · rw [if_pos hf]
        exact ⟨⟨hcount, hlog, hsaved⟩, hbroken⟩
    · refine ⟨_, congrArg Host.Outcome.next (State.flcCommand_runs hcmd h hopen),
        State.flcDone_went ?_ (fun hf => (hsame _).resolve_right hf), fun hf => ?_⟩
      · split
        · rfl
        · rfl
      · rw [if_pos hf]
        refine ⟨rfl, ?_⟩
        exact (State.flcDone_blocks _ _).trans (State.getF_setF_same _ _ _ _)
  · intro tr n h htr hn hneed
    refine ⟨_, congrArg Host.Outcome.next (State.flcOp_runs h), ?_⟩
    rw [htr]
    dsimp only
    rw [if_neg (fun hlast => hn hlast.1), if_neg hn, if_neg hneed]
    refine ⟨?_, State.flcEnd_status _ 0, rfl, rfl⟩
    rw [State.flcEnd_getF]
    exact State.getF_setF_same _ _ _ _

end Sys2Proof.Machine


/-! PROOFS. Two-bank stores -/

namespace Sys2Proof.Machine

set_option Elab.async false

/-! Which bank a write makes current (15 R406). -/

theorem newer_next (a : Nat) : newer 32 ((a + 1) % 2 ^ 32) a = true ∧ newer 32 a ((a + 1) % 2 ^ 32) = false := by
  unfold newer
  dsimp only
  simp only [decide_eq_true_eq, decide_eq_false_iff_not]
  omega

/-- The bank that a write of a store goes to, both devices working, and the sequence number that it gets. -/
def Store.writes (x : Store) (v : StoreVal) : Store :=
  let seq := match x.current with
    | some b => (b.seq + 1) % 2 ^ 32
    | none => 1
  if x.current.isSome && !x.odd then { x with b1 := some { seq := seq, val := v } } else { x with b0 := some { seq := seq, val := v } }

theorem Store.writes_current (x : Store) (v : StoreVal) : (x.writes v).current.map (·.val) = some v := by
  obtain ⟨b0, b1, wr⟩ := x
  cases b0 with
  | none =>
    cases b1 with
    | none => rfl
    | some c =>
      show (Store.current { b0 := some { seq := (c.seq + 1) % 2 ^ 32, val := v }, b1 := some c, wr := wr }).map (·.val) = some v
      simp only [Store.current, Store.odd, (newer_next c.seq).2, Bool.false_eq_true, if_false, Option.map_some]
  | some b =>
    cases b1 with
    | none =>
      show (Store.current { b0 := some b, b1 := some { seq := (b.seq + 1) % 2 ^ 32, val := v }, wr := wr }).map (·.val) = some v
      simp only [Store.current, Store.odd, (newer_next b.seq).1, if_true, Option.map_some]
    | some c =>
      by_cases h : newer 32 c.seq b.seq = true
      · have hw : Store.writes ⟨some b, some c, wr⟩ v = ⟨some { seq := (c.seq + 1) % 2 ^ 32, val := v }, some c, wr⟩ := by
          delta Store.writes
          simp only [Store.current, Store.odd, h, if_true, Option.isSome_some, Bool.not_true, Bool.and_false,
            Bool.false_eq_true, if_false]
        rw [hw]
        simp only [Store.current, Store.odd, (newer_next c.seq).2, Bool.false_eq_true, if_false, Option.map_some]
      · have h := Bool.eq_false_iff.2 h
        have hw : Store.writes ⟨some b, some c, wr⟩ v = ⟨some b, some { seq := (b.seq + 1) % 2 ^ 32, val := v }, wr⟩ := by
          delta Store.writes
          simp only [Store.current, Store.odd, h, Bool.false_eq_true, if_false, Option.isSome_some, Bool.not_false,
            Bool.and_true, if_true]
        rw [hw]
        simp only [Store.current, Store.odd, (newer_next b.seq).1, if_true, Option.map_some]

/-- A store whose two banks stand on devices that work. -/
def State.storeWhole (s : State) (id : Nat) : Prop := onNor id = false ∨ s.ident.norFailed = 0

theorem State.storeAt_whole {s : State} {id : Nat} (h : s.storeWhole id) : s.storeAt id = Tab.get {} s.stores id := by
  unfold State.storeAt
  cases hn : onNor id with
  | false => rfl
  | true =>
    have hz : s.ident.norFailed = 0 := h.resolve_left (by rw [hn]; decide)
    rw [hz]
    rfl

theorem State.putStore_stores {s : State} {id : Nat} (h : s.storeWhole id) (v : StoreVal) :
    (s.putStore id v).stores = Tab.set {} s.stores id ((Tab.get {} s.stores id : Store).writes v) := by
  have hbank : s.writeBank id = ((Tab.get {} s.stores id : Store).current.isSome && !(Tab.get {} s.stores id : Store).odd) := by
    unfold State.writeBank
    rw [State.storeAt_whole h]
    rcases h with h | h
    · rw [h]
      rfl
    · rw [h]
      cases onNor id
      · rfl
      · rfl
  unfold State.putStore State.setBank State.writeSeq
  delta Store.writes
  rw [State.storeAt_whole h, hbank] <;> rfl

/-- The value that a write has put is the store's. -/
theorem State.storeVal_putStore {s : State} {id : Nat} (h : s.storeWhole id) (v : StoreVal) : (s.putStore id v).storeVal id = some v := by
  have h' : (s.putStore id v).storeWhole id := h
  unfold State.storeVal
  rw [State.storeAt_whole h', State.putStore_stores h, Tab.get_set_same]
  exact Store.writes_current _ v

theorem State.storeVal_of_stores {s t : State} {id : Nat} (h : Tab.get ({} : Store) t.stores id = Tab.get {} s.stores id)
    (hn : t.ident.norFailed = s.ident.norFailed) : t.storeVal id = s.storeVal id := by
  unfold State.storeVal State.storeAt
  rw [h, hn]

theorem State.storeVal_putStore_ne (s : State) {id k : Nat} (h : id ≠ k) (v : StoreVal) : (s.putStore id v).storeVal k = s.storeVal k :=
  State.storeVal_of_stores (Tab.get_set_ne h) rfl

theorem State.storeNums_putStore {s : State} {id : Nat} (h : s.storeWhole id) (l : List Nat) :
    (s.putStore id (.data l)).storeNums id = l := by
  unfold State.storeNums
  rw [State.storeVal_putStore h]

theorem State.storeNums_putStore_ne (s : State) {id k : Nat} (h : id ≠ k) (v : StoreVal) :
    (s.putStore id v).storeNums k = s.storeNums k := by
  unfold State.storeNums
  rw [State.storeVal_putStore_ne s h]

/-- The stores read alike where they and the failed devices are the same. -/
theorem State.storeNums_of_eq {s t : State} (h : t.stores = s.stores) (hn : t.ident.norFailed = s.ident.norFailed) (id : Nat) :
    t.storeNums id = s.storeNums id := by
  unfold State.storeNums
  rw [State.storeVal_of_stores (by rw [h]) hn]

end Sys2Proof.Machine


/-! PROOFS. The security block -/

namespace Sys2Proof.Machine

set_option Elab.async false

/-! SEC_REQ. -/

/-- An operation by island A, where none is in progress and it serves, goes on with its function. -/
theorem State.secOp_runs {s : State} {w op t : Nat} {f : State → State}
    (h : srOP.of w = op ∧ (s.at t).expireSec.islandServes false = true ∧ (s.at t).expireSec.getF SEC_REQ srSTATUS ≠ 1) :
    s.secOp .islandA w op t f = f ((s.at t).expireSec.setF SEC_REQ srADDR (srADDR.of w)) := by
  obtain ⟨hop, hs, hidle⟩ := h
  unfold State.secOp
  dsimp only
  rw [if_neg (by decide), if_neg (not_or.2 ⟨fun h => h hop, by rw [hs]; decide⟩), if_neg hidle]

theorem State.secAddr_set (s : State) (w : Nat) : (s.setF SEC_REQ srADDR (srADDR.of w)).secAddr = srADDR.of w * 64 := by
  unfold State.secAddr
  rw [State.getF_setF_same]
  exact congrArg (· * 64) (Nat.mod_eq_of_lt (Nat.mod_lt _ (Nat.two_pow_pos _)))

theorem State.setSecNonce_getF (s : State) (n : Option (List Nat)) {a : Nat} {f : FD} (h : SEC_NONCE 0 ≠ a := by decide)
    (h8 : SEC_NONCE 0 + 8 ≠ a := by decide) (hf : f.lo < 64 := by decide) : (s.setSecNonce n).getF a f = s.getF a f :=
  (State.getF_setF_addr _ _ h8 (by decide) hf).trans (State.getF_setF_addr _ _ h (by decide) hf)

/-- The end of an operation of SEC_REQ shows in the fields that SIL_AUTH has in the same places. -/
theorem State.secEnd_status (s : State) (fail : Nat) : (s.authEnd SEC_REQ fail).getF SEC_REQ srSTATUS = (if fail = 0 then 2 else 3) :=
  State.authEnd_status s SEC_REQ fail

theorem State.secEnd_fail (s : State) (fail : Nat) : (s.authEnd SEC_REQ fail).getF SEC_REQ srFAIL = fail % 2 ^ srFAIL.w :=
  State.authEnd_fail s SEC_REQ fail

theorem State.authEnd_stores (s : State) (a fail : Nat) : (s.authEnd a fail).stores = s.stores := rfl
theorem State.authEnd_ident (s : State) (a fail : Nat) : (s.authEnd a fail).ident = s.ident := rfl
theorem State.authEnd_mem (s : State) (a fail : Nat) : (s.authEnd a fail).mem = s.mem := rfl
theorem State.store_mem (s : State) (a : Nat) (bs : List Byte) : (s.store a bs).mem = (s.putBytes a bs).mem := rfl

theorem State.setSecNonce_stores (s : State) (n : Option (List Nat)) : (s.setSecNonce n).stores = s.stores := by
  simp only [State.setSecNonce, State.showNonce, State.setF_stores]

theorem State.expireSec_stores (s : State) : s.expireSec.stores = s.stores := by
  unfold State.expireSec
  rw [apply_ite State.stores, State.setSecNonce_stores, ite_self]

/-! Digests and reports (15 R400). -/

theorem shaRound_length (h : List Nat) (k : Nat) : (shaRound h k).length = h.length := by
  unfold shaRound
  split
  · simp only [List.length_cons]
  · rfl

theorem shaBlock_length (h b : List Nat) : (shaBlock h b).length = h.length := by
  unfold shaBlock
  rw [List.length_zipWith, foldl_keeps (R := List.length) fun h k _ => shaRound_length h k]
  exact Nat.min_self _

theorem shaBlocks_length (n : Nat) (h b : List Nat) : (shaBlocks n h b).length = h.length := by
  induction n generalizing h b with
  | zero => rfl
  | succ n ih => exact (ih _ _).trans (shaBlock_length h b)

theorem shaInit_length : shaInit.length = 8 := by
  unfold shaInit
  rw [List.length_map]
  decide

theorem bytesOf_length (n v : Nat) : (bytesOf n v).length = n := by
  induction n generalizing v with
  | zero => rfl
  | succ n ih => exact congrArg Nat.succ (ih _)

theorem sha512_length (m : List Nat) : (sha512 m).length = 64 := by
  unfold sha512
  dsimp only
  simp only [List.length_flatMap, List.length_reverse, bytesOf_length, List.map_const', List.sum_replicate, shaBlocks_length, shaInit_length,
    smul_eq_mul]

theorem State.report_length (s : State) {nonce : List Nat} (h : nonce.length = 16) : (s.report nonce).length = 640 := by
  unfold State.report deviceId
  dsimp only
  simp only [List.length_append, List.length_map, List.length_range, bytesOf_length, sha512_length, h, List.flatMap_cons, List.flatMap_nil,
    List.length_cons, List.length_nil]

theorem State.report_head (s : State) (nonce : List Nat) : ∃ rest, s.report nonce =
    bytesOf 4 0x41545452 ++ (bytesOf 2 1 ++ ([s.getF SEC_STATUS scLIFE, s.getF SAFE_STATUS safINTEGRITY] ++ (bytesOf 4 (s.getF SIL_TIME silPC) ++
      (bytesOf 4 (s.getF SIL_TIME silSEC) ++ (deviceId ++ (nonce ++ rest)))))) := by
  unfold State.report
  dsimp only
  generalize (List.range 132).map _ = sig
  simp only [List.append_assoc]
  exact ⟨_, rfl⟩

/-! The erase-first sequence (15 R414). -/

theorem State.wipeStore_nums (s : State) {id k : Nat} (h : id ≠ k) : (s.wipeStore id).storeNums k = s.storeNums k := by
  unfold State.storeNums
  have hget : Tab.get ({} : Store) (Tab.erase s.stores id) k = Tab.get {} s.stores k := by
    unfold Tab.get
    rw [Tab.find_erase_ne h]
  rw [State.storeVal_of_stores (s := s) (t := s.wipeStore id) hget rfl]

theorem State.showSec_stores (s : State) : s.showSec.stores = s.stores ∧ s.showSec.ident = s.ident := by
  unfold State.showSec
  simp only [State.setF_stores, State.setF_ident, and_self]

/-- The stores after an erase for a TARGET that is not zero. -/
def State.erased (s : State) (target : Nat) : State :=
  let s := ((s.wipeStore 0x10).wipeStore 0x14).putStore 0x10 (.data [1, 1, 0])
  let s := (s.wipeStore 5).putStore 0x11 (.data [target])
  (if target = 4 then { s with ident := { s.ident with retired := true } } else s).putStore 0x12 (.data [0, target])

theorem State.eraseAll_eq (s : State) {target : Nat} (h : target ≠ 0) : s.eraseAll target = (s.erased target).showSec := by
  unfold State.eraseAll
  dsimp only
  rw [if_neg h]
  rfl

theorem State.erased_ident (s : State) (target : Nat) : (s.erased target).ident.nonce = s.ident.nonce ∧
    (s.erased target).ident.retired = (decide (target = 4) || s.ident.retired) ∧ (s.erased target).ident.left = s.ident.left := by
  delta State.erased
  dsimp only
  split
  · next h => exact ⟨rfl, by rw [h]; rfl, rfl⟩
  · next h => exact ⟨rfl, by rw [decide_eq_false h]; rfl, rfl⟩

theorem State.erased_nums (s : State) (target : Nat) : (s.erased target).storeNums 0x10 = [1, 1, 0] ∧
    (s.erased target).storeNums 0x11 = [target] ∧ (s.erased target).storeNums 0x12 = [0, target] := by
  have hmram : ∀ (u : State) (k : Nat), 6 < k → u.storeWhole k := fun u k hk => .inl (by unfold onNor; exact decide_eq_false (by omega))
  delta State.erased
  extract_lets u v
  have hv : ∀ w, w = (if target = 4 then { v with ident := { v.ident with retired := true } } else v) →
      ∀ k, w.storeNums k = v.storeNums k := by
    rintro w rfl k
    split
    · exact State.storeNums_of_eq rfl rfl k
    · rfl
  generalize (if target = 4 then ({ v with ident := { v.ident with retired := true } } : State) else v) = w at hv ⊢
  refine ⟨?_, ?_, State.storeNums_putStore (hmram _ _ (by decide)) _⟩
  · rw [State.storeNums_putStore_ne _ (by decide), hv w rfl]
    unfold v u
    rw [State.storeNums_putStore_ne _ (by decide), State.wipeStore_nums _ (by decide), State.storeNums_putStore (hmram _ _ (by decide))]
  · rw [State.storeNums_putStore_ne _ (by decide), hv w rfl]
    unfold v
    rw [State.storeNums_putStore (hmram _ _ (by decide))]

theorem State.lifecycle_of_eq {s t : State} (h : t.stores = s.stores) (hi : t.ident = s.ident) : t.lifecycle = s.lifecycle := by
  unfold State.lifecycle
  rw [hi, State.storeNums_of_eq h (by rw [hi])]

theorem State.pendingErase_of_eq {s t : State} (h : t.stores = s.stores) (hi : t.ident = s.ident) : t.pendingErase = s.pendingErase := by
  unfold State.pendingErase
  rw [State.storeNums_of_eq h (by rw [hi])]

theorem State.erased_lifecycle (s : State) {target : Nat} (ht : target = 3 ∨ target = 4) (hr : s.ident.retired = false) :
    (s.erased target).lifecycle = target ∧ (s.erased target).pendingErase = none := by
  obtain ⟨_, hlife, hpend⟩ := s.erased_nums target
  obtain ⟨_, hret, _⟩ := s.erased_ident target
  constructor
  · unfold State.lifecycle
    rw [hret, hlife, hr]
    rcases ht with rfl | rfl
    · rfl
    · rfl
  · unfold State.pendingErase
    rw [hpend]
    rfl

/-! A token (15 R411). -/

theorem State.raiseSafe_stores_ident (s : State) (k : Nat) : (s.raiseSafe k).stores = s.stores ∧ (s.raiseSafe k).ident = s.ident := by
  unfold State.raiseSafe
  extract_lets was u v w y x
  have hv : v = { u with regs := v.regs } := u.showReason_eq
  have hx : x.stores = s.stores ∧ x.ident = s.ident := ⟨by show State.stores v = _; rw [hv]; rfl, by show State.ident v = _; rw [hv]; rfl⟩
  split
  · exact hx
  · have hc := (Pushes.event x 27).eq
    exact ⟨by show State.stores (x.event 27) = _; rw [hc]; exact hx.1, by show State.ident (x.event 27) = _; rw [hc]; exact hx.2⟩

theorem State.showChal_stores_ident (s : State) : s.showChal.stores = s.stores ∧ s.showChal.ident = s.ident := by
  simp only [State.showChal, State.setF_stores, State.setF_ident, and_self]

theorem State.flcDebug_stores_ident (s : State) : s.flcDebug.stores = s.stores ∧ s.flcDebug.ident = s.ident := by
  obtain ⟨hs, hi⟩ := State.showChal_stores_ident (s.setFlc (fun x => { x with chal := none, transfer := none }))
  unfold State.flcDebug
  extract_lets u v w
  have hv : v.stores = s.stores ∧ v.ident = s.ident := ⟨hs, hi⟩
  have hw : w.stores = v.stores ∧ w.ident = v.ident := by
    unfold w
    split
    · exact ⟨rfl, rfl⟩
    · exact ⟨rfl, rfl⟩
  exact ⟨hw.1.trans hv.1, hw.2.trans hv.2⟩

/-- The state of an UNLOCK behind its marker. -/
def State.marked (s : State) (tg : Nat) : State :=
  ((s.setSecNonce none).flcDebug.putStore 0x12 (.data [1, tg])).setF SEC_STATUS scERASE 1

theorem State.putStore_ident (s : State) (id : Nat) (v : StoreVal) : (s.putStore id v).ident = s.ident := rfl

theorem State.setSecNonce_ident (s : State) (n : Option (List Nat)) : (s.setSecNonce n).ident = { s.ident with nonce := n } := by
  simp only [State.setSecNonce, State.showNonce, State.setF_ident]

theorem State.marked_erases (s : State) (tg : Nat) : (s.marked tg).pendingErase = some tg ∧ (s.marked tg).ident = { s.ident with nonce := none } := by
  have hident := (s.setSecNonce none).flcDebug_stores_ident.2
  constructor
  · unfold State.pendingErase
    delta State.marked
    rw [State.storeNums_of_eq (State.setF_stores _ _ _ _) (by rw [State.setF_ident]), State.storeNums_putStore (.inl rfl)]
    rfl
  · delta State.marked
    rw [State.setF_ident, State.putStore_ident, hident, State.setSecNonce_ident]

/-- Debug access after an UNLOCK or a RETIRE. -/
def State.debugFor (s : State) (tg : Nat) : State :=
  if tg = 3 then (s.setF SEC_STATUS scDEBUG 1).raiseSafe 8 else s.setF SEC_STATUS scDEBUG 0

theorem State.debugFor_stores_ident (s : State) (tg : Nat) : (s.debugFor tg).stores = s.stores ∧ (s.debugFor tg).ident = s.ident := by
  delta State.debugFor
  split
  · have h := (s.setF SEC_STATUS scDEBUG 1).raiseSafe_stores_ident 8
    rwa [State.setF_stores, State.setF_ident] at h
  · exact ⟨State.setF_stores _ _ _ _, State.setF_ident _ _ _ _⟩

/-- The state that a completed UNLOCK makes. -/
def State.unlocked (s : State) (tg : Nat) : State := ((s.eraseAll tg).debugFor tg).authEnd SEC_REQ 0

theorem State.unlocked_stores_ident (s : State) {tg : Nat} (ht : tg ≠ 0) :
    (s.unlocked tg).stores = (s.erased tg).stores ∧ (s.unlocked tg).ident = (s.erased tg).ident := by
  obtain ⟨hs, hi⟩ := (s.erased tg).showSec_stores
  obtain ⟨hs', hi'⟩ := (s.erased tg).showSec.debugFor_stores_ident tg
  delta State.unlocked
  rw [State.eraseAll_eq s ht, State.authEnd_stores, State.authEnd_ident, hs', hi', hs, hi]
  exact ⟨rfl, rfl⟩

theorem State.tokenFail_head {s : State} {b n} {head : Bool} {use : Nat} (h : s.tokenFail b n head use = 0) : head = true := by
  unfold State.tokenFail at h
  cases hh : head with
  | true => rfl
  | false =>
    rw [hh] at h
    cases n with
    | none => cases h
    | some n =>
      dsimp only at h
      rw [if_pos (.inl rfl)] at h
      exact absurd h (by decide)

theorem State.unlockFail_target {s : State} {b : List Nat} (h : s.unlockFail b = 0) :
    (fieldAt b 6 1 = 3 ∨ fieldAt b 6 1 = 4) ∧ s.ident.retired = false := by
  have htoken : s.tokenFail b s.ident.nonce (decide (fieldAt b 0 4 = 0x554E4C4B ∧ fieldAt b 4 2 = 1 ∧ (fieldAt b 6 1 = 3 ∨ fieldAt b 6 1 = 4) ∧
      fieldAt b 7 1 = 0)) (if fieldAt b 6 1 = 3 then 2 else 3) = 0 := by
    by_contra hne
    exact hne (by rwa [State.unlockFail, if_pos hne] at h)
  rw [State.unlockFail, if_neg (not_not.2 htoken)] at h
  obtain ⟨_, _, htg, _⟩ := of_decide_eq_true (State.tokenFail_head htoken)
  refine ⟨htg, ?_⟩
  split at h
  · exact absurd h (by decide)
  · next hl =>
    have hl := (not_or.1 hl).2
    unfold State.lifecycle at hl
    by_contra hr
    rw [if_pos (by simpa using hr)] at hl
    exact hl rfl

theorem unlockCmd_judges {s : State} {w t : Nat} {cut : Bool} (s1 : State) (hs1 : s1 = (s.at t).expireSec.setF SEC_REQ srADDR (srADDR.of w))
    (h : srOP.of w = 2 ∧ (s.at t).expireSec.islandServes false = true ∧ (s.at t).expireSec.getF SEC_REQ srSTATUS ≠ 1)
    (hread : s1.islandReads (srADDR.of w * 64) 256 = true) (b : List Nat) (hb : b = s1.bytes (srADDR.of w * 64) 256) (hup : s1.flcUp = true) :
    unlockCmd .islandA w cut t s = (if s1.unlockFail b ≠ 0 then (s1.setSecNonce none).authEnd SEC_REQ (s1.unlockFail b)
      else if cut then (s1.marked (fieldAt b 6 1)).setF SEC_REQ srSTATUS 1 else (s1.marked (fieldAt b 6 1)).unlocked (fieldAt b 6 1)) := by
  have hup' : (s1.setSecNonce none).flcUp = true := by
    unfold State.flcUp State.flag at hup ⊢
    rwa [State.setSecNonce_getF]
  unfold unlockCmd
  rw [State.secOp_runs h, ← hs1]
  dsimp only
  rw [hs1, State.secAddr_set, ← hs1, hread, ← hb, hup']
  rfl

theorem State.unlocked_shows (s : State) {tg : Nat} (ht : tg = 3 ∨ tg = 4) (hr : s.ident.retired = false) :
    (s.unlocked tg).lifecycle = tg ∧ (s.unlocked tg).pendingErase = none ∧ (s.unlocked tg).storeNums 0x10 = [1, 1, 0] ∧
    (s.unlocked tg).getF SEC_REQ srSTATUS = 2 ∧ (s.unlocked tg).ident.nonce = s.ident.nonce := by
  obtain ⟨hs, hi⟩ := s.unlocked_stores_ident (tg := tg) (by omega)
  obtain ⟨hlife, hpend⟩ := s.erased_lifecycle ht hr
  refine ⟨(State.lifecycle_of_eq hs hi).trans hlife, (State.pendingErase_of_eq hs hi).trans hpend, ?_, State.secEnd_status _ 0, ?_⟩
  · rw [State.storeNums_of_eq hs (by rw [hi])]
    exact (s.erased_nums tg).1
  · rw [hi]
    exact (s.erased_ident tg).1

/-! Provisioning (15 R412). -/

/-- The stores that a package writes. -/
def State.packageStores (s : State) (p : Package) (tg : Nat) : State :=
  ((((s.putStore 0x10 (.data [1, 1, 1])).putStore 5 (.data p.secrets)).putStore 0x14 (.data p.trust)).putStore 1 (.config p.config)).putStore
    0x11 (.data [tg])

theorem State.packageStores_reads {s : State} (h : s.ident.norFailed = 0) (p : Package) (tg : Nat) :
    (s.packageStores p tg).storeVal 1 = some (.config p.config) ∧ (s.packageStores p tg).storeNums 0x14 = p.trust ∧
    (s.packageStores p tg).storeNums 0x11 = [tg] ∧ (s.packageStores p tg).storeNums 0x10 = [1, 1, 1] := by
  have hs : ∀ k, s.storeWhole k := fun k => .inr h
  have h5 : ∀ k, ((s.putStore 0x10 (.data [1, 1, 1])).putStore 5 (.data p.secrets)).storeWhole k :=
    fun k => .inr (by rw [State.putStore_ident, State.putStore_ident, h])
  have h14 : ∀ k, (((s.putStore 0x10 (.data [1, 1, 1])).putStore 5 (.data p.secrets)).putStore 0x14 (.data p.trust)).storeWhole k :=
    fun k => .inr (by rw [State.putStore_ident, State.putStore_ident, State.putStore_ident, h])
  have h1 : ∀ k, ((((s.putStore 0x10 (.data [1, 1, 1])).putStore 5 (.data p.secrets)).putStore 0x14 (.data p.trust)).putStore 1
    (.config p.config)).storeWhole k := fun k => .inr (by rw [State.putStore_ident, State.putStore_ident, State.putStore_ident,
      State.putStore_ident, h])
  delta State.packageStores
  refine ⟨?_, ?_, ?_, ?_⟩
  · rw [State.storeVal_putStore_ne _ (by decide), State.storeVal_putStore (h14 1)]
  · rw [State.storeNums_putStore_ne _ (by decide), State.storeNums_putStore_ne _ (by decide), State.storeNums_putStore (h5 0x14)]
  · rw [State.storeNums_putStore (h1 0x11)]
  · rw [State.storeNums_putStore_ne _ (by decide), State.storeNums_putStore_ne _ (by decide), State.storeNums_putStore_ne _ (by decide),
      State.storeNums_putStore_ne _ (by decide), State.storeNums_putStore (hs 0x10)]

/-- The state that a verified package leaves. -/
def State.packageDone (s : State) (p : Package) (tg : Nat) : State :=
  let s := s.packageStores p tg
  ({ s with ident := { s.ident with left := true } }).authEnd SEC_REQ 0

theorem State.packageStores_ident (s : State) (p : Package) (tg : Nat) : (s.packageStores p tg).ident = s.ident := by
  delta State.packageStores
  simp only [State.putStore_ident]

theorem State.packageDone_reads {s : State} (h : s.ident.norFailed = 0) (p : Package) (tg : Nat) :
    (s.packageDone p tg).storeVal 1 = some (.config p.config) ∧ (s.packageDone p tg).storeNums 0x14 = p.trust ∧
    (s.packageDone p tg).storeNums 0x11 = [tg] ∧ (s.packageDone p tg).storeNums 0x10 = [1, 1, 1] ∧
    (s.packageDone p tg).ident.left = true ∧ (s.packageDone p tg).getF SEC_REQ srSTATUS = 2 ∧
    (s.packageDone p tg).ident.nonce = s.ident.nonce := by
  obtain ⟨h1, h14, h11, h10⟩ := State.packageStores_reads h p tg
  have hid := s.packageStores_ident p tg
  delta State.packageDone
  generalize s.packageStores p tg = u at h1 h14 h11 h10 hid ⊢
  have hn : ∀ id, (({ u with ident := { u.ident with left := true } } : State).authEnd SEC_REQ 0).storeNums id = u.storeNums id :=
    State.storeNums_of_eq rfl rfl
  refine ⟨?_, (hn _).trans h14, (hn _).trans h11, (hn _).trans h10, rfl, State.secEnd_status _ 0, ?_⟩
  · rw [← h1]
    exact State.storeVal_of_stores rfl rfl
  · have hnonce : u.ident.nonce = s.ident.nonce := by rw [hid]
    rw [State.authEnd_ident]
    exact hnonce

/-! The bytes of a report. -/

theorem State.byte_putBytes_above (s : State) {a j : Nat} (bs : List Byte) (h : a + bs.length ≤ j) : (s.putBytes a bs).byte j = s.byte j := by
  induction bs generalizing s a with
  | nil => rfl
  | cons b bs ih =>
    rw [List.length_cons] at h
    exact (ih _ (by omega)).trans (Tab.get_set_ne (by omega))

theorem bytes_mod (s : State) (a n : Nat) : (s.bytes a n).map (· % 256) = s.bytes a n := by
  conv_rhs => rw [← List.map_id (s.bytes a n)]
  refine List.map_congr_left fun x hx => ?_
  obtain ⟨i, _, rfl⟩ := List.mem_map.1 hx
  exact Nat.mod_eq_of_lt (s.byte (a + i)).isLt

theorem State.report_put (s u : State) {nonce : List Nat} (h : nonce.length = 16) (a : Nat) :
    (u.putBytes a (byteList (s.report nonce))).bytes a 4 = bytesOf 4 0x41545452 ∧
    (u.putBytes a (byteList (s.report nonce))).bytes (a + 0x20) 16 = nonce.map (· % 256) ∧
    ∀ x, x < a ∨ a + 640 ≤ x → (u.putBytes a (byteList (s.report nonce))).byte x = u.byte x := by
  obtain ⟨rest, hrest⟩ := s.report_head nonce
  have hlen := s.report_length h
  have hid : deviceId.length = 16 := by
    unfold deviceId
    rw [List.length_map, List.length_range]
  refine ⟨(u.bytes_putBytes a 0 4 (by omega)).trans ?_, (u.bytes_putBytes a 0x20 16 (by omega)).trans ?_, fun x hx => ?_⟩
  · rw [hrest]
    exact bytesOf_mod 4 _
  · have hdrop : (s.report nonce).drop 0x20 = nonce ++ rest := by
      rw [hrest]
      simp [bytesOf, hid]
    rw [hdrop, ← h, List.take_left]
  · rcases hx with hx | hx
    · exact State.byte_putBytes_below u _ hx
    · refine State.byte_putBytes_above u _ ?_
      rw [byteList, List.length_map, hlen]
      exact hx

section
variable {s : State} {w t : Nat} (s1 : State) (hs1 : s1 = (s.at t).expireSec.setF SEC_REQ srADDR (srADDR.of w))
  {op : Nat} (h : srOP.of w = op ∧ (s.at t).expireSec.islandServes false = true ∧ (s.at t).expireSec.getF SEC_REQ srSTATUS ≠ 1)
include hs1 h

theorem provisionCmd_fails (hop : op = 3) {f : Nat} (hread : s1.islandReads (srADDR.of w * 64) 448 = true)
    (hbody : s1.islandReads (srADDR.of w * 64 + 0x1C0) (fieldAt (s1.bytes (srADDR.of w * 64) 448) 0xC 4) = true)
    (hr : s1.package (s1.bytes (srADDR.of w * 64) 448)
      (s1.bytes (srADDR.of w * 64 + 0x1C0) (fieldAt (s1.bytes (srADDR.of w * 64) 448) 0xC 4)) = .error f) :
    provisionCmd .islandA w t s = (s1.setSecNonce none).authEnd SEC_REQ f := by
  subst hop
  unfold provisionCmd
  rw [State.secOp_runs h, ← hs1]
  dsimp only
  rw [hs1, State.secAddr_set, ← hs1, hread, hbody, hr]
  rfl

theorem provisionCmd_writes (hop : op = 3) {p : Package} (hread : s1.islandReads (srADDR.of w * 64) 448 = true)
    (hbody : s1.islandReads (srADDR.of w * 64 + 0x1C0) (fieldAt (s1.bytes (srADDR.of w * 64) 448) 0xC 4) = true)
    (hr : s1.package (s1.bytes (srADDR.of w * 64) 448)
      (s1.bytes (srADDR.of w * 64 + 0x1C0) (fieldAt (s1.bytes (srADDR.of w * 64) 448) 0xC 4)) = .ok p)
    (htrng : (s1.setSecNonce none).flag SEC_STATUS scTRNG = true) (hnor : (s1.setSecNonce none).ident.norFailed = 0) :
    provisionCmd .islandA w t s = (s1.setSecNonce none).packageDone p (fieldAt (s1.bytes (srADDR.of w * 64) 448) 6 1) := by
  subst hop
  unfold provisionCmd
  rw [State.secOp_runs h, ← hs1]
  dsimp only
  rw [hs1, State.secAddr_set, ← hs1, hread, hbody, Bool.and_self, if_pos rfl, hr]
  dsimp only
  rw [htrng, if_neg (by decide), if_neg (by rw [hnor]; decide)]
  rfl

theorem attestCmd_signs (hop : op = 4) (hread : s1.islandReads (srADDR.of w * 64) 16 = true)
    (hwrite : s1.islandReads (srADDR.of w * 64 + 0x40) 640 = true) (hkey : (s1.storeNums 0x10).getD 0 0 = 1) :
    (attestCmd .islandA w t s).getF SEC_REQ srSTATUS = 2 ∧
    (attestCmd .islandA w t s).mem = (s1.putBytes (srADDR.of w * 64 + 0x40) (byteList (s1.report (s1.bytes (srADDR.of w * 64) 16)))).mem := by
  subst hop
  unfold attestCmd
  rw [State.secOp_runs h, ← hs1]
  dsimp only
  rw [hs1, State.secAddr_set, ← hs1, hread, hwrite, hkey, if_neg (by decide), if_neg (by decide)]
  refine ⟨State.secEnd_status _ 0, ?_⟩
  rw [State.authEnd_mem]
  dsimp only
  rw [State.store_mem]

end

/-! Firmware (15 R409). -/

/-- The state of a completed update of target `tg`. -/
def State.updated (s : State) (tg k : Nat) (img : List Nat) (n : Nat) : State :=
  (((s.setFwBank tg k img).selectBank tg k).progressFw 7 n).authEnd SEC_REQ 0

theorem State.selectBank_preferred {s : State} (h : s.ident.norFailed = 0) (tg k : Nat) : (s.selectBank tg k).preferred tg = k % 2 := by
  have hput : ∀ l, (s.putStore (selStore tg).1 (.data l)).storeNums (selStore tg).1 = l := fun l => State.storeNums_putStore (.inr h) l
  unfold State.selectBank State.preferred
  dsimp only
  rw [hput]
  unfold selStore
  split
  · rfl
  · split
    · rfl
    · rfl

theorem State.updated_shows {s : State} (h : s.ident.norFailed = 0) (tg k : Nat) (img : List Nat) (n : Nat) :
    (s.updated tg k img n).getF SEC_REQ srSTATUS = 2 ∧ (s.updated tg k img n).fwBank tg k = img ∧
    (s.updated tg k img n).preferred tg = k % 2 ∧ (s.updated tg k img n).getF SEC_FWU_PROG fwPHASE = 7 := by
  delta State.updated
  have hsel := State.selectBank_preferred (s := s.setFwBank tg k img) h tg k
  have hbank : ((s.setFwBank tg k img).selectBank tg k).fwBank tg k = img := Tab.get_set_same
  generalize (s.setFwBank tg k img).selectBank tg k = u at hsel hbank ⊢
  refine ⟨State.secEnd_status _ 0, hbank, ?_, ?_⟩
  · refine Eq.trans ?_ hsel
    unfold State.preferred
    rw [State.storeNums_of_eq (s := u) (t := (u.progressFw 7 n).authEnd SEC_REQ 0) rfl rfl]
  · rw [State.authEnd_getF _ _ _ (by decide) (by decide)]
    exact (State.getF_setF_lo _ _ _).trans (State.getF_setF_same _ _ _ _)

/-- The progress registers when an update has begun. -/
def State.updating (s : State) (tg : Nat) : State := ((s.setF SEC_FWU_PROG fwTARGET tg).setF SEC_FWU_PROG fwINTER 0).progressFw 1 0

theorem State.updating_keeps (s : State) (tg : Nat) :
    (s.updating tg).ident = s.ident ∧ (s.updating tg).mem = s.mem ∧ (s.updating tg).stores = s.stores := by
  delta State.updating State.progressFw
  simp only [State.setF_ident, State.setF_mem, State.setF_stores, and_self]

theorem firmwareUpdate_ends {s : State} {w t : Nat} (s1 : State) (hs1 : s1 = (s.at t).expireSec.setF SEC_REQ srADDR (srADDR.of w))
    (h : srOP.of w = 6 ∧ (s.at t).expireSec.islandServes false = true ∧ (s.at t).expireSec.getF SEC_REQ srSTATUS ≠ 1) (hd : List Nat)
    (hhd : hd = s1.bytes (srADDR.of w * 64) 0x2000) (hread : s1.islandReads (srADDR.of w * 64) 0x2000 = true)
    (hread' : s1.islandReads (srADDR.of w * 64) (imageLen hd) = true) (hnor : s1.ident.norFailed = 0) :
    firmwareUpdate .islandA w 7 t s =
      (if fieldAt hd 6 1 < 1 ∨ 3 < fieldAt hd 6 1 ∨ s1.firmwareOk (s1.bytes (srADDR.of w * 64) (imageLen hd)) (fieldAt hd 6 1) = false
       then (s1.updating (fieldAt hd 6 1)).authEnd SEC_REQ 10
       else (s1.updating (fieldAt hd 6 1)).updated (fieldAt hd 6 1) (1 - s1.preferred (fieldAt hd 6 1))
         (s1.bytes (srADDR.of w * 64) (imageLen hd)) (fieldAt hd 0xC 4)) := by
  obtain ⟨hident, hmem, _⟩ := s1.updating_keeps (fieldAt hd 6 1)
  have hok : (s1.updating (fieldAt hd 6 1)).firmwareOk = s1.firmwareOk := by
    funext b tg
    unfold State.firmwareOk
    rw [hident]
  have hbytes : ∀ a n, (s1.updating (fieldAt hd 6 1)).bytes a n = s1.bytes a n := State.bytes_of_mem hmem
  unfold firmwareUpdate
  rw [State.secOp_runs h, ← hs1]
  dsimp only
  rw [hs1, State.secAddr_set, ← hs1, ← hhd, hread, hread']
  rw [if_neg (by decide), ← State.updating, hok, hbytes, hident]
  refine if_congr (by simp) rfl ?_
  rw [if_neg (by rw [hnor]; rintro ⟨_, h3 | hbit⟩; · exact absurd h3 (by decide)
                 · simp [bit] at hbit)]
  rfl

/-- Settles O43: the accepted operation runs its function; its stores read what was written. -/
theorem securityResults : Obligations.SecurityResults := by
  intro s0 w t s s1 a asks
  refine ⟨?_, ?_, ?_, ?_, ?_⟩
  · intro h
    have htrng : s1.flag SEC_STATUS scTRNG = s.flag SEC_STATUS scTRNG := by
      unfold State.flag
      rw [State.getF_setF_addr _ _ (by decide)]
    refine ⟨_, congrArg Host.Outcome.next (State.secOp_runs h), fun hgood => ?_, fun hbad => ?_⟩
    · rw [htrng, hgood]
      exact ⟨s1.random.1, rfl, s1.random_length, rfl, State.secEnd_status _ 0⟩
    · rw [htrng, hbad]
      exact ⟨rfl, State.secEnd_fail _ 12⟩
  · intro cut b f h hread hup
    have hstores : (s1.setSecNonce none).stores = s.stores := by rw [State.setSecNonce_stores, State.setF_stores]
    obtain ⟨hpend, hident⟩ := s1.marked_erases (fieldAt b 6 1)
    have hdone : f = 0 → (fieldAt b 6 1 = 3 ∨ fieldAt b 6 1 = 4) ∧ (s1.marked (fieldAt b 6 1)).ident.retired = false := fun hf => by
      rw [hident]
      exact State.unlockFail_target hf
    refine ⟨_, congrArg Host.Outcome.next (unlockCmd_judges s1 rfl h hread b rfl hup), ?_, fun hf => ?_, fun hf hcut => ?_, fun hf hcut => ?_⟩
    · split
      · rw [State.authEnd_ident, State.setSecNonce_ident]
      · next hf =>
        split
        · rw [State.setF_ident, hident]
        · obtain ⟨htg, hr⟩ := hdone (not_not.1 hf)
          rw [(State.unlocked_shows _ htg hr).2.2.2.2, hident]
    · rw [if_pos hf]
      refine ⟨?_, State.secEnd_fail _ _, ?_⟩
      · rw [State.secEnd_status, if_neg hf]
      · rw [State.authEnd_stores, hstores]
    · rw [if_neg (not_not.2 hf), if_pos hcut]
      refine ⟨?_, ?_, ?_⟩
      · rw [← hpend]
        exact State.pendingErase_of_eq (State.setF_stores _ _ _ _) (State.setF_ident _ _ _ _)
      · rw [State.getF_setF_same]
        rfl
      · unfold State.flag
        rw [State.getF_setF_addr _ _ (by decide), State.marked, State.getF_setF_same]
        rfl
    · rw [if_neg (not_not.2 hf), if_neg (by rw [hcut]; decide)]
      obtain ⟨htg, hr⟩ := hdone hf
      obtain ⟨hlife, hnone, hnums, hstatus, _⟩ := State.unlocked_shows (s1.marked (fieldAt b 6 1)) htg hr
      exact ⟨hlife, hnone, hnums, hstatus⟩
  · intro hd r h hread hbody htrng hnor
    have hflag : (s1.setSecNonce none).flag SEC_STATUS scTRNG = true := by
      unfold State.flag at htrng ⊢
      rwa [State.setSecNonce_getF, State.getF_setF_addr _ _ (by decide)]
    have hwhole : (s1.setSecNonce none).ident.norFailed = 0 := by rwa [State.setSecNonce_ident]
    cases hr : r with
    | error f =>
      refine ⟨_, congrArg Host.Outcome.next (provisionCmd_fails s1 rfl h rfl hread hbody hr), ?_, ?_, nofun⟩
      · rw [State.authEnd_ident, State.setSecNonce_ident]
      · rintro g hg
        cases hg
        refine ⟨?_, fun hf => ?_⟩
        · rw [State.authEnd_stores, State.setSecNonce_stores, State.setF_stores]
        · rw [State.secEnd_status, if_neg hf]
    | ok p =>
      obtain ⟨h1, h14, h11, h10, hleft, hstatus, hnonce⟩ := State.packageDone_reads hwhole p (fieldAt hd 6 1)
      refine ⟨_, congrArg Host.Outcome.next (provisionCmd_writes s1 rfl h rfl hread hbody hr hflag hwhole), ?_, nofun, ?_⟩
      · rw [hnonce, State.setSecNonce_ident]
      · rintro q hq
        cases hq
        exact ⟨h1, h14, h11, h10, hleft, hstatus⟩
  · intro h hread hwrite hkey
    have hkey1 : (s1.storeNums 0x10).getD 0 0 = 1 := by
      rw [State.storeNums_of_eq (s := s) (State.setF_stores _ _ _ _) (by rw [State.setF_ident])]
      exact hkey
    obtain ⟨hmagic, hnonce, hrest⟩ := s1.report_put s1 (nonce := s1.bytes a 16) (by simp [State.bytes]) (a + 0x40)
    obtain ⟨hstatus, hmem⟩ := attestCmd_signs s1 rfl h rfl hread hwrite hkey1
    refine ⟨_, rfl, hstatus, ?_, ?_, fun x hx => ?_⟩
    · rw [State.bytes_of_mem hmem, hmagic]
    · rw [State.bytes_of_mem hmem, hnonce, bytes_mod]
    · rw [State.byte_of_mem hmem, hrest x hx]
      rfl
  · intro hd tg img h hread hread' hnor
    have hnor1 : s1.ident.norFailed = 0 := by rwa [State.setF_ident]
    obtain ⟨hident, _, _⟩ := s1.updating_keeps tg
    refine ⟨_, congrArg Host.Outcome.next (firmwareUpdate_ends s1 rfl h hd rfl hread hread' hnor1), fun hbad => ?_, fun h1 h3 hok => ?_⟩
    · rw [if_pos hbad]
      refine ⟨State.secEnd_status _ 10, State.secEnd_fail _ 10, ?_⟩
      rw [State.authEnd_ident, hident, State.setF_ident]
    · have hp : s1.preferred tg < 2 := Nat.mod_lt _ (by decide)
      have hgood : ¬ (tg < 1 ∨ 3 < tg ∨ s1.firmwareOk img tg = false) := by
        rw [hok]
        simp only [Bool.true_eq_false, or_false]
        omega
      rw [if_neg hgood]
      obtain ⟨hstatus, hbank, hpref, hphase⟩ := State.updated_shows (s := s1.updating tg) (by rw [hident, hnor1]) tg (1 - s1.preferred tg) img
        (fieldAt hd 0xC 4)
      exact ⟨hstatus, hbank, hpref.trans (Nat.mod_eq_of_lt (by omega)), hphase⟩

end Sys2Proof.Machine


/-! PROOFS. Links -/

namespace Sys2Proof.Machine

set_option Elab.async false

/-- Fields that begin at different bits stand apart, whatever their registers. -/
theorem State.getF_setF_field (s : State) (a b : Nat) {f g : FD} (v : Nat) (h : f.lo ≠ g.lo := by decide) (hf : f.lo < 64 := by decide)
    (hg : g.lo < 64 := by decide) : (s.setF a f v).getF b g = s.getF b g :=
  State.getF_setF_ne s v (by unfold FD.key; omega)

/-! Directions of a link. -/

theorem State.dir_setDir (s : State) (l d : Nat) (x : LinkDir) : (s.setDir l d x).dir l d = x := Tab.get_set_same

theorem State.setDir_getF (s : State) (l d : Nat) (x : LinkDir) (a : Nat) (f : FD) : (s.setDir l d x).getF a f = s.getF a f := rfl

theorem State.sil1_getF (s : State) (h b : Nat) {a : Nat} {f : FD} (hf : silLOSS.lo ≠ f.lo ∨ SIL_STATUS ≠ a) (hlo : f.lo < 64) :
    (s.sil1 h b).getF a f = s.getF a f := by
  unfold State.sil1
  split
  · rcases hf with hf | hf
    · exact State.getF_setF_field _ _ _ _ hf (by decide) hlo
    · exact State.getF_setF_addr _ _ hf (by decide) hlo
  · dsimp only
    split
    · rfl
    · rfl

/-! Packets. -/

/-- What is re-injected before a packet changes nothing else of the transmitter. -/
theorem LinkDir.passFirst_keeps {x y : LinkDir} {b : List Nat} (h : x.passFirst b = some y) : ∃ l, y = { x with first := l } := by
  unfold LinkDir.passFirst at h
  split at h
  · exact ⟨x.first, (Option.some.inj h).symm⟩
  · next p rest _ =>
    split at h
    · exact ⟨rest, (Option.some.inj h).symm⟩
    · split at h
      · exact nomatch h
      · exact ⟨x.first, (Option.some.inj h).symm⟩

theorem LinkDir.receive_next (x : LinkDir) (b : List Nat) (ok : Bool) : (x.receive b ok).next = x.next ∧ (x.receive b ok).unacked = x.unacked := by
  unfold LinkDir.receive
  dsimp only
  split
  · exact ⟨rfl, rfl⟩
  · split
    · exact ⟨rfl, rfl⟩
    · exact ⟨rfl, rfl⟩

theorem LinkDir.receive_accepts {x : LinkDir} {b : List Nat} (h : x.expect = pktSeq b) :
    (x.receive b true).expect = (x.expect + 1) % 4096 ∧ (x.receive b true).passed = x.passed + 1 := by
  unfold LinkDir.receive
  dsimp only
  rw [if_pos (by rw [h, Bool.true_and, decide_eq_true rfl])]
  exact ⟨rfl, rfl⟩

theorem LinkDir.receive_discards (x : LinkDir) (b : List Nat) : (x.receive b false).expect = x.expect ∧ (x.receive b false).passed = x.passed ∧
    (x.receive b false).discard = true ∧ (x.discard = false → (x.receive b false).nak = some x.expect) := by
  unfold LinkDir.receive
  dsimp only
  rw [if_neg (by rw [Bool.false_and]; decide)]
  split
  · next h => exact ⟨rfl, rfl, h, fun hd => absurd (h.symm.trans hd) (by decide)⟩
  · exact ⟨rfl, rfl, rfl, fun _ => rfl⟩

/-- A new packet that credits and re-injection allow is sent and received. -/
theorem packetReceive_sends {s : State} {l d t : Nat} {bs : List Nat} {bad : Bool} {x y : LinkDir} {b : List Nat} (hx : x = (s.at t).dir l d)
    (hb : b = bs.map (fun v => v % 256)) (hl : l < 12) (hd : d < 2) (hup : (s.at t).lkState l = 2) (hty : hdrBits b 0 4 ≠ 7)
    (hnew : pktSeq b = x.next) (hmay : x.maySend b = true) (hy : x.passFirst b = some y) (hexp : x.expect = pktSeq b) :
    packetReceive l d bs bad t s = (if l = 10 ∧ d = 0 ∧ (pktOk b && !bad) = true then
      ((s.at t).setDir l d ((y.send b (s.at t).now).receive b (pktOk b && !bad))).guestPacket b
      else (s.at t).setDir l d ((y.send b (s.at t).now).receive b (pktOk b && !bad))) := by
  obtain ⟨_, rfl⟩ := LinkDir.passFirst_keeps hy
  unfold packetReceive
  dsimp only
  rw [if_neg (by omega), if_neg (by rw [hup]; decide), ← hb, if_neg (not_or.2 ⟨by rw [hup]; decide, hty⟩), ← hx, decide_eq_true hnew, hmay]
  rw [if_pos rfl, if_pos rfl, hy]
  refine if_congr ?_ rfl rfl
  rw [if_pos rfl]
  exact ⟨fun h => ⟨h.1, h.2.1, h.2.2.1⟩, fun h => ⟨h.1, h.2.1, h.2.2, hexp.symm⟩⟩

/-! Replays and credits. -/

theorem State.replayRound_counts (s : State) (l d : Nat) : ((s.replayRound l d).dir l d).rounds = (s.dir l d).rounds + 1 ∧
    (s.replayRound l d).getF (LNK_RETRY l) cnt64 = (s.getF (LNK_RETRY l) cnt64 + 1) % 2 ^ 64 ∧
    (s.replayRound l d).lkState l = (if 7 ≤ (s.dir l d).rounds then 3 else s.lkState l) := by
  have hne : LNK_RETRY l ≠ LNK_STAT l := by unfold LNK_RETRY; omega
  unfold State.replayRound
  extract_lets x u v
  have hdir : v.dir l d = u.dir l d := by
    unfold State.dir v
    rw [State.sil1_links]
    rfl
  have hround : (v.dir l d).rounds = x.rounds + 1 := by
    rw [hdir, State.dir_setDir]
  have hretry : v.getF (LNK_RETRY l) cnt64 = (s.getF (LNK_RETRY l) cnt64 + 1) % 2 ^ 64 := by
    unfold v
    rw [State.sil1_getF _ _ _ (.inl (by decide)) (by decide), State.getF_setF_same]
    rfl
  have hstate : v.lkState l = s.lkState l := by
    unfold State.lkState v
    rw [State.sil1_getF _ _ _ (.inl (by decide)) (by decide), State.getF_setF_addr _ _ hne]
    rfl
  by_cases h : 7 ≤ x.rounds
  · rw [if_pos (Nat.succ_le_succ h), if_pos h]
    refine ⟨hround, ?_, State.getF_setF_same _ _ _ _⟩
    rw [State.setLkState, State.getF_setF_addr _ _ hne.symm, hretry]
  · rw [if_neg (by omega), if_neg h]
    exact ⟨hround, hretry, hstate⟩

/-- Taking the counts of the three classes adds each class's difference once. -/
theorem LinkDir.credits_add (x : LinkDir) (hs ds : List Nat) {c : Nat} (hc : c < 3) :
    Tab.get 0 ((List.range 3).foldl (fun x c => x.credit c (hs.getD c 0) (ds.getD c 0)) x).hdr c =
      Tab.get 0 x.hdr c + subMod 8 (hs.getD c 0) (Tab.get (0, 0) x.taken c).1 ∧
    Tab.get 0 ((List.range 3).foldl (fun x c => x.credit c (hs.getD c 0) (ds.getD c 0)) x).dat c =
      Tab.get 0 x.dat c + subMod 12 (ds.getD c 0) (Tab.get (0, 0) x.taken c).2 := by
  rw [show List.range 3 = [0, 1, 2] from rfl]
  simp only [List.foldl_cons, List.foldl_nil, LinkDir.credit]
  obtain rfl | rfl | rfl : c = 0 ∨ c = 1 ∨ c = 2 := by omega
  · simp (disch := decide) only [Tab.get_set_same, Tab.get_set_ne, and_self]
  · simp (disch := decide) only [Tab.get_set_same, Tab.get_set_ne, and_self]
  · simp (disch := decide) only [Tab.get_set_same, Tab.get_set_ne, and_self]

/-! Training and routes. -/

theorem State.raiseSafe_getF (s : State) (k : Nat) {a : Nat} {f : FD} (h : SAFE_STATUS ≠ a) (hl : silLOSS.lo ≠ f.lo ∨ SIL_STATUS ≠ a) (hf : f.lo < 64) :
    (s.raiseSafe k).getF a f = s.getF a f := by
  have hreason : ∀ u : State, u.showReason.getF a f = u.getF a f := fun u => by
    unfold State.showReason
    split
    · exact State.getF_setF_addr _ _ h (by decide) hf
    · rfl
  unfold State.raiseSafe State.integrity
  extract_lets was u v w y x
  have hx : x.getF a f = s.getF a f := by
    show w.getF a f = _
    unfold w v u
    rw [State.getF_setF_addr _ _ h (by decide) hf, hreason, State.getF_setF_addr _ _ h (by decide) hf]
  rw [State.getF_setF_addr _ _ h (by decide) hf]
  split
  · exact hx
  · exact (State.sil1_getF x _ _ hl hf).trans hx

/-- What the routes show leaves every other field of the links. -/
theorem State.routes_getF (s : State) {a : Nat} {f : FD} (h : SAFE_STATUS ≠ a) (hl : silLOSS.lo ≠ f.lo ∨ SIL_STATUS ≠ a) (hr : lkREROUTED.lo ≠ f.lo)
    (hk : flLINKOK.lo ≠ f.lo) (hf : f.lo < 64) : s.routes.getF a f = s.getF a f := by
  unfold State.routes
  rw [State.getF_setF_field _ _ _ _ hk (by decide) hf]
  have hfold : ∀ u : State, ((List.range 8).foldl (fun s l => s.setF (LNK_STAT l) lkREROUTED (b2n (!s.linkUp l))) u).getF a f = u.getF a f :=
    fun u => foldl_keeps (R := fun t : State => t.getF a f) (fun t l _ => State.getF_setF_field t _ _ _ hr (by decide) hf) u
  split
  · exact hfold s
  · exact (State.raiseSafe_getF _ 7 h hl hf).trans (hfold s)

theorem State.routes_linkok (s : State) (h : s.lkState 11 = 2) : s.routes.getF FLC_STATUS flLINKOK = 1 := by
  have hfold : ∀ u : State, ((List.range 8).foldl (fun s l => s.setF (LNK_STAT l) lkREROUTED (b2n (!s.linkUp l))) u).lkState 11 = u.lkState 11 :=
    fun u => foldl_keeps (R := fun t : State => t.lkState 11) (fun t l _ => State.getF_setF_field t _ _ _) u
  have hup : ∀ u : State, u.lkState 11 = 2 → b2n (u.linkUp 11) % 2 ^ flLINKOK.w = 1 := fun u hu => by
    rw [State.linkUp, hu]
    rfl
  unfold State.routes
  rw [State.getF_setF_same]
  apply hup
  split
  · exact (hfold s).trans h
  · exact ((State.raiseSafe_getF _ 7 (by decide) (.inl (by decide)) (by decide)).trans (hfold s)).trans h

theorem SAFE_STATUS_ne_LNK_STAT {l : Nat} (hl : l < 12) : SAFE_STATUS ≠ LNK_STAT l := by
  have hs : SAFE_STATUS < linkBase := by decide
  unfold LNK_STAT
  omega

/-- A link of a base die that is not up shows as rerouted. -/
theorem State.routes_rerouted {s : State} {l : Nat} (hl : l < 8) (h : s.lkState l ≠ 2) : s.routes.getF (LNK_STAT l) lkREROUTED = 1 := by
  have hne : ∀ i, i ≠ l → LNK_STAT i ≠ LNK_STAT l := fun i hi => by
    unfold LNK_STAT
    omega
  have hfold : ∀ u : State, u.lkState l ≠ 2 →
      ((List.range 8).foldl (fun s l => s.setF (LNK_STAT l) lkREROUTED (b2n (!s.linkUp l))) u).getF (LNK_STAT l) lkREROUTED = 1 := by
    intro u hu
    have h := foldl_changes_once (R := fun t : State => (t.getF (LNK_STAT l) lkREROUTED, t.lkState l))
      (f := fun s l => s.setF (LNK_STAT l) lkREROUTED (b2n (!s.linkUp l))) (g := fun r => (b2n (!decide (r.2 = 2)) % 2 ^ lkREROUTED.w, r.2))
      (List.mem_range.2 hl) List.nodup_range (fun t => Prod.ext (State.getF_setF_same _ _ _ _) (State.getF_setF_field _ _ _ _))
      (fun t i _ hi => Prod.ext (State.getF_setF_addr _ _ (hne i hi)) (State.getF_setF_field _ _ _ _)) u
    have h := congrArg Prod.fst h
    dsimp only at h
    rw [h, decide_eq_false hu]
    rfl
  unfold State.routes
  rw [State.getF_setF_field _ _ _ _]
  split
  · exact hfold s h
  · rw [State.raiseSafe_getF _ 7 (SAFE_STATUS_ne_LNK_STAT (by omega)) (.inl (by decide)) (by decide)]
    exact hfold s h

/-! The end of a training at run time. -/

/-- The registers of a training that has found `bad0` and `bad1`, before its retrain is counted. -/
def State.trained (s : State) (l bad0 bad1 w0 w1 : Nat) : State :=
  let a := LNK_STAT l
  let up := decide (w0 ≠ 0 ∧ w1 ≠ 0)
  let s := (s.setF a (lkBAD 0) (bad0 % 2 ^ linkGroups l)).setF a (lkBAD 1) (bad1 % 2 ^ linkGroups l)
  let s := (s.setF a (lkWIDTH 0) (if up then w0 else 0)).setF a (lkWIDTH 1) (if up then w1 else 0)
  s.setLkState l (if up then 2 else 4)

theorem trainWidth_lt (l bad : Nat) (half : Bool) : trainWidth l bad half < 4 := by
  unfold trainWidth
  split
  · split <;> decide
  · split <;> decide

theorem State.trained_shows (s : State) (l bad0 bad1 : Nat) {w0 w1 : Nat} (h0 : w0 < 4) (h1 : w1 < 4) :
    (s.trained l bad0 bad1 w0 w1).lkState l = (if w0 ≠ 0 ∧ w1 ≠ 0 then 2 else 4) ∧
    (s.trained l bad0 bad1 w0 w1).getF (LNK_STAT l) (lkWIDTH 0) = (if w0 ≠ 0 ∧ w1 ≠ 0 then w0 else 0) ∧
    (s.trained l bad0 bad1 w0 w1).getF (LNK_STAT l) (lkWIDTH 1) = (if w0 ≠ 0 ∧ w1 ≠ 0 then w1 else 0) ∧
    (s.trained l bad0 bad1 w0 w1).getF (LNK_STAT l) lkRETRAINS = s.getF (LNK_STAT l) lkRETRAINS := by
  delta State.trained
  dsimp only
  unfold State.lkState State.setLkState
  have hlo : ∀ {f g : FD} (t : State) (v : Nat), f.lo ≠ g.lo → (t.setF (LNK_STAT l) f v).getF (LNK_STAT l) g = t.getF (LNK_STAT l) g :=
    fun t v h => State.getF_setF_lo t _ v h
  by_cases hup : w0 ≠ 0 ∧ w1 ≠ 0
  · simp (disch := decide) only [hup, hlo, State.getF_setF_same, decide_true, if_true, and_true, ne_eq, not_false_eq_true]
    exact ⟨rfl, Nat.mod_eq_of_lt h0, Nat.mod_eq_of_lt h1⟩
  · simp (disch := decide) only [hup, hlo, State.getF_setF_same, decide_false, if_false]
    exact ⟨rfl, rfl, rfl, trivial⟩

/-- The width of direction `d` that a training at run time finds. -/
def State.runWidth (s : State) (l d bad : Nat) : Nat := trainWidth l bad (decide (s.getF (LNK_STAT l) (lkWIDTH d) = 1))

theorem State.trainLink_shows (s : State) (l bad0 bad1 : Nat) :
    (s.trainLink l bad0 bad1 false).lkState l = (if s.runWidth l 0 bad0 ≠ 0 ∧ s.runWidth l 1 bad1 ≠ 0 then 2 else 4) ∧
    (s.trainLink l bad0 bad1 false).getF (LNK_STAT l) (lkWIDTH 0) = (if s.runWidth l 0 bad0 ≠ 0 ∧ s.runWidth l 1 bad1 ≠ 0 then s.runWidth l 0 bad0 else 0) ∧
    (s.trainLink l bad0 bad1 false).getF (LNK_STAT l) (lkWIDTH 1) = (if s.runWidth l 0 bad0 ≠ 0 ∧ s.runWidth l 1 bad1 ≠ 0 then s.runWidth l 1 bad1 else 0) ∧
    (s.trainLink l bad0 bad1 false).getF (LNK_STAT l) lkRETRAINS = satInc 0xFFFF (s.getF (LNK_STAT l) lkRETRAINS) % 2 ^ 16 := by
  obtain ⟨hstate, hw0, hw1, hret⟩ := s.trained_shows l bad0 bad1 (w0 := s.runWidth l 0 bad0) (w1 := s.runWidth l 1 bad1) (trainWidth_lt _ _ _) (trainWidth_lt _ _ _)
  have hfold : ∀ (u : State) (w0 w1 : Nat) (f : FD), silLOSS.lo ≠ f.lo → f.lo < 64 →
      ((List.range 2).foldl (fun s d =>
        let s := if (if d = 0 then w0 else w1) = 1 then s.sil1 377 (24 + 2 * l + d) else s
        s.setDir l d { s.dir l d with rounds := 0, ackAt := s.now }) u).getF (LNK_STAT l) f = u.getF (LNK_STAT l) f := by
    intro u w0 w1 f hf hlo
    refine foldl_keeps (R := fun t : State => t.getF (LNK_STAT l) f) (fun t d _ => ?_) u
    dsimp only
    rw [State.setDir_getF]
    by_cases hc : (if d = 0 then w0 else w1) = 1
    · rw [if_pos hc]
      exact State.sil1_getF _ _ _ (.inl hf) hlo
    · rw [if_neg hc]
  have heq : s.trainLink l bad0 bad1 false = (List.range 2).foldl (fun s' d =>
      let s' := if (if d = 0 then s.runWidth l 0 bad0 else s.runWidth l 1 bad1) = 1 then s'.sil1 377 (24 + 2 * l + d) else s'
      s'.setDir l d { s'.dir l d with rounds := 0, ackAt := s'.now })
      ((s.trained l bad0 bad1 (s.runWidth l 0 bad0) (s.runWidth l 1 bad1)).setF (LNK_STAT l) lkRETRAINS
        (satInc 0xFFFF ((s.trained l bad0 bad1 (s.runWidth l 0 bad0) (s.runWidth l 1 bad1)).getF (LNK_STAT l) lkRETRAINS))) := rfl
  rw [heq]
  unfold State.lkState at hstate ⊢
  refine ⟨?_, ?_, ?_, ?_⟩
  · rw [hfold _ _ _ _ (by decide) (by decide), State.getF_setF_lo _ _ _ (by decide), hstate]
  · rw [hfold _ _ _ _ (by decide) (by decide), State.getF_setF_lo _ _ _ (by decide), hw0]
  · rw [hfold _ _ _ _ (by decide) (by decide), State.getF_setF_lo _ _ _ (by decide), hw1]
  · rw [hfold _ _ _ _ (by decide) (by decide), State.getF_setF_same, hret]
    rfl

/-- A link whose directions both pass is up after its training, and the routes are shown. -/
theorem linkRetrain_runs {s : State} {l b0 b1 t : Nat} (hl : l < 12) (h : (s.at t).lkState l = 2 ∨ (s.at t).lkState l = 3)
    (h0 : (s.at t).runWidth l 0 b0 ≠ 0) (h1 : (s.at t).runWidth l 1 b1 ≠ 0) :
    linkRetrain l b0 b1 t s = ((s.at t).trainLink l b0 b1 false).routes := by
  have hstate := ((s.at t).trainLink_shows l b0 b1).1
  rw [if_pos ⟨h0, h1⟩] at hstate
  unfold linkRetrain
  dsimp only
  rw [if_neg (by omega), State.linkUp, hstate]
  rfl

/-- The routes of a link's own fields. -/
theorem State.routes_lnk (s : State) {l : Nat} (hl : l < 12) {f : FD} (hf : f = lkSTATE ∨ f = lkWIDTH 0 ∨ f = lkWIDTH 1 ∨ f = lkRETRAINS) :
    s.routes.getF (LNK_STAT l) f = s.getF (LNK_STAT l) f := by
  obtain rfl | rfl | rfl | rfl := hf
  · exact s.routes_getF (SAFE_STATUS_ne_LNK_STAT hl) (.inl (by decide)) (by decide) (by decide) (by decide)
  · exact s.routes_getF (SAFE_STATUS_ne_LNK_STAT hl) (.inl (by decide)) (by decide) (by decide) (by decide)
  · exact s.routes_getF (SAFE_STATUS_ne_LNK_STAT hl) (.inl (by decide)) (by decide) (by decide) (by decide)
  · exact s.routes_getF (SAFE_STATUS_ne_LNK_STAT hl) (.inl (by decide)) (by decide) (by decide) (by decide)

/-- Re-injection moves packets between transmitters alone. -/
theorem State.reinject_getF (s : State) (l d a : Nat) (f : FD) : (s.reinject l d).getF a f = s.getF a f := by
  unfold State.reinject
  dsimp only
  rw [State.setDir_getF]
  refine foldl_keeps (R := fun t : State => t.getF a f) (fun t p _ => ?_) s
  split
  · rfl
  · rfl

theorem linkRetrain_fails {s : State} {l b0 b1 t : Nat} (hl : l < 8) (h : (s.at t).lkState l = 2 ∨ (s.at t).lkState l = 3)
    (h0 : (s.at t).runWidth l 0 b0 = 0) :
    linkRetrain l b0 b1 t s = (((s.at t).trainLink l b0 b1 false).routes.reinject l 0).reinject l 1 := by
  have hstate := ((s.at t).trainLink_shows l b0 b1).1
  rw [if_neg (fun h => h.1 h0)] at hstate
  unfold linkRetrain
  dsimp only
  rw [if_neg (by omega), State.linkUp, hstate]
  unfold State.linkDown
  rw [if_neg (by decide), if_neg (by omega), if_neg (by omega), if_neg (by omega), if_pos hl]

/-- Loop-back at a port of a link that is down. -/
theorem linkTestMode_loops {s : State} {l w t : Nat} (hm : ltMODE.of w = 1 ∨ ltMODE.of w = 2) (hl : l < 12)
    (hopen : (s.at t).flag SEC_STATUS scDEBUG = true) (hdown : (s.at t).lkState l = 4) :
    linkTestMode .islandA l w 0 0 t s =
      ((((s.at t).setF (LNK_TEST l) ltMODE (ltMODE.of w)).setF (LNK_TEST l) ltERRORS 0).setLkState l 5).routes := by
  unfold linkTestMode
  dsimp only
  rw [if_neg (by decide), if_neg (by omega), if_pos hm, if_pos ⟨hopen, .inl hdown⟩]

/-- Settles O44: packets, acknowledgements and credits change their direction; a training shows what it found, and the routes follow. -/
theorem linkResults : Obligations.LinkResults := by
  intro s0 l d t s x
  refine ⟨?_, ?_, ?_, ?_, ?_, ?_, ?_, ?_, ?_, ?_, ?_, ?_⟩
  · intro bs bad b ok y z hl hd hup hty hnew hmay hpass hexp
    obtain ⟨y', hy⟩ := Option.isSome_iff_exists.1 hpass
    obtain ⟨q, hq⟩ := LinkDir.passFirst_keeps hy
    have hyy : y = y' := by
      unfold y
      rw [hy]
      rfl
    obtain ⟨hnext, hunacked⟩ := LinkDir.receive_next (y.send b s.now) b ok
    have hsend : (y.send b s.now).expect = x.expect ∧ (y.send b s.now).passed = x.passed ∧ (y.send b s.now).discard = x.discard ∧
        (y.send b s.now).next = (x.next + 1) % 4096 ∧ (y.send b s.now).unacked = x.unacked ++ [(x.next, b)] := by
      rw [hyy, hq]
      exact ⟨rfl, rfl, rfl, rfl, rfl⟩
    obtain ⟨hse, hsp, hsd, hsn, hsu⟩ := hsend
    refine ⟨?_, hnext.trans hsn, hunacked.trans hsu, fun hok => ?_, fun hok => ?_⟩
    · exact congrArg Host.Outcome.next (packetReceive_sends rfl rfl hl hd hup hty hnew hmay (hyy ▸ hy) hexp)
    · unfold z
      rw [hok]
      obtain ⟨he, hp⟩ := LinkDir.receive_accepts (hse.trans hexp)
      exact ⟨by rw [he, hse], by rw [hp, hsp]⟩
    · unfold z
      rw [hok]
      obtain ⟨he, hp, hdisc, hnak⟩ := LinkDir.receive_discards (y.send b s.now) b
      exact ⟨he.trans hse, hp.trans hsp, hdisc, fun h => by rw [hnak (hsd.trans h), hse]⟩
  · intro seq rest hrest
    refine ⟨s.setDir l d { x with unacked := rest, rounds := 0, ackAt := s.now }, ?_, ?_, ?_⟩
    · show Host.Outcome.next (ackReceive l d seq t s0) = _
      unfold ackReceive
      dsimp only
      rw [hrest]
    · rw [State.dir_setDir]
    · rw [State.dir_setDir]
  · intro seq hl hd hup hany
    exact congrArg Host.Outcome.next (if_pos ⟨hl, hd, hup, hany⟩)
  · intro hl hd hup hsome ht
    exact congrArg Host.Outcome.next (if_pos ⟨hl, hd, hup, hsome, ht⟩)
  · exact s.replayRound_counts l d
  · intro hs ds c hc hl hd hup
    have hrun : creditReceive l d hs ds s0 = _ := if_neg (by rw [hup]; omega)
    refine ⟨_, congrArg Host.Outcome.next hrun, ?_⟩
    rw [State.dir_setDir]
    exact LinkDir.credits_add _ hs ds hc
  · intro b0 b1 n hl hstate h0 h1 hb0 hb1
    have hw : ∀ e b, s.getF (LNK_STAT l) (lkWIDTH e) = 2 → b % n = 0 → s.runWidth l e b = 2 := fun e b he hb => by
      unfold State.runWidth trainWidth
      rw [he, if_pos hb]
      rfl
    have hw0 := hw 0 b0 h0 hb0
    have hw1 := hw 1 b1 h1 hb1
    obtain ⟨hs, hx0, hx1, hr⟩ := s.trainLink_shows l b0 b1
    rw [hw0, hw1, if_pos (by decide)] at hs hx0 hx1
    refine ⟨_, congrArg Host.Outcome.next (linkRetrain_runs hl hstate (by rw [hw0]; decide) (by rw [hw1]; decide)), ?_, ?_, ?_, ?_⟩
    · exact (State.routes_lnk _ hl (.inl rfl)).trans hs
    · exact (State.routes_lnk _ hl (.inr (.inl rfl))).trans hx0
    · exact (State.routes_lnk _ hl (.inr (.inr (.inl rfl)))).trans hx1
    · rw [State.routes_lnk _ hl (.inr (.inr (.inr rfl))), hr]
      refine Nat.mod_eq_of_lt ?_
      unfold satInc
      split <;> omega
  · intro b0 b1 hl hstate hw0
    obtain ⟨hs, hx0, hx1, _⟩ := s.trainLink_shows l b0 b1
    rw [if_neg (fun h => h.1 hw0)] at hs hx0 hx1
    refine ⟨_, congrArg Host.Outcome.next (linkRetrain_fails hl hstate hw0), ?_⟩
    unfold State.lkState at hs ⊢
    simp only [State.reinject_getF]
    refine ⟨(State.routes_lnk _ (by omega) (.inl rfl)).trans hs, (State.routes_lnk _ (by omega) (.inr (.inl rfl))).trans hx0,
      (State.routes_lnk _ (by omega) (.inr (.inr (.inl rfl)))).trans hx1, State.routes_rerouted hl ?_⟩
    rw [State.lkState, hs]
    decide
  · intro hs hdown
    have hw : ∀ e, s.runWidth 11 e 0 ≠ 0 := fun e => by
      unfold State.runWidth trainWidth
      rw [if_pos (Nat.zero_mod _)]
      split <;> decide
    have hstate := (s.trainLink_shows 11 0 0).1
    rw [if_pos ⟨hw 0, hw 1⟩] at hstate
    exact ⟨_, congrArg Host.Outcome.next (if_pos ⟨hs, hdown⟩), (State.routes_lnk _ (by decide) (.inl rfl)).trans hstate, State.routes_linkok _ hstate⟩
  · intro w hm hl hopen hdown
    have htest : SAFE_STATUS ≠ LNK_TEST l ∧ LNK_STAT l ≠ LNK_TEST l ∧ SIL_STATUS ≠ LNK_TEST l := by
      have hs : SAFE_STATUS < linkBase := by decide
      have hsil : SIL_STATUS < linkBase := by decide
      unfold LNK_TEST LNK_STAT
      omega
    refine ⟨_, congrArg Host.Outcome.next (linkTestMode_loops hm hl hopen hdown), ?_, ?_, ?_⟩
    · exact (State.routes_lnk _ hl (.inl rfl)).trans (State.getF_setF_same _ _ _ _)
    · rw [State.routes_getF _ htest.1 (.inl (by decide)) (by decide) (by decide) (by decide), State.setLkState, State.getF_setF_addr _ _ htest.2.1,
        State.getF_setF_lo, State.getF_setF_same]
      exact Nat.mod_eq_of_lt (Nat.mod_lt _ (Nat.two_pow_pos _))
    · rw [State.routes_getF _ htest.1 (.inr htest.2.2) (by decide) (by decide) (by decide), State.setLkState,
        State.getF_setF_addr _ _ htest.2.1, State.getF_setF_same]
      rfl
  · intro cd u st last hcd hlast hnow s1
    refine congrArg Host.Outcome.next ?_
    show bondUncorrectable cd u st t s0 = _
    unfold bondUncorrectable
    dsimp only
    rw [if_neg (by omega), hlast]
    dsimp only
    rw [if_pos (show ((s0.at t).accessEnds u st).now < last + sec 1 from hnow),
      show [4 * cd, 4 * cd + 1, 4 * cd + 2, 4 * cd + 3] = [0, 1, 2, 3].map (fun i => 4 * cd + i) from rfl, List.foldl_map]
  · intro cd u st hcd hlast s1
    refine congrArg Host.Outcome.next ?_
    show bondUncorrectable cd u st t s0 = _
    unfold bondUncorrectable
    dsimp only
    rw [if_neg (by omega), hlast]

end Sys2Proof.Machine


/-! PROOFS. The guest and the test port -/

namespace Sys2Proof.Machine

set_option Elab.async false

/-! A withdrawal (16 R439). -/

/-- The guest's windows and queues are off. -/
def State.guestOff (s : State) : State :=
  (List.range 16).foldl (fun s n => s.setF (GST_WIN n) gwV 0) ((List.range 256).foldl (fun s i => s.setF (GST_QCFG i + 8) qEN 0) s)

theorem State.guestOff_getF (s : State) {a : Nat} {f : FD} (h : f.lo ≠ gwV.lo) (hf : f.lo < 64) (ha : a < linkBase + 0x40000) :
    s.guestOff.getF a f = s.getF a f := by
  delta State.guestOff
  rw [foldl_keeps (R := fun t : State => t.getF a f) fun t n _ => State.getF_setF_field t _ _ _ h.symm (by decide) hf]
  refine foldl_keeps (R := fun t : State => t.getF a f) (fun t i _ => State.getF_setF_addr t _ ?_ (by decide) hf) s
  unfold GST_QCFG
  omega

theorem State.guestOff_window (s : State) {n : Nat} (hn : n < 16) : s.guestOff.getF (GST_WIN n) gwV = 0 := by
  have hne : ∀ i, i ≠ n → GST_WIN i ≠ GST_WIN n := fun i hi => by
    unfold GST_WIN
    omega
  exact foldl_changes_once (R := fun t : State => t.getF (GST_WIN n) gwV) (g := fun _ => 0) (List.mem_range.2 hn) List.nodup_range
    (fun t => State.getF_setF_same t _ _ _) (fun t i _ hi => State.getF_setF_addr t _ (hne i hi)) _

/-- The registers of a withdrawal before the cap follows. -/
def State.guestGone (s : State) (reason : Nat) : State :=
  let s := ((s.setF GST_STATUS gtSTATE 5).setF GST_STATUS gtREASON reason).setLkState 10 0
  ((s.setF (LNK_STAT 10) (lkWIDTH 0) 0).setF (LNK_STAT 10) (lkWIDTH 1) 0).guestOff.setF (PWR_MON 28) pmON 0

theorem State.guestGone_getF (s : State) (reason : Nat) :
    (s.guestGone reason).getF GST_STATUS gtSTATE = 5 ∧ (s.guestGone reason).getF GST_STATUS gtREASON = reason % 16 ∧
    (s.guestGone reason).getF GST_STATUS gtFENCE = s.getF GST_STATUS gtFENCE ∧ (s.guestGone reason).getF (LNK_STAT 10) lkSTATE = 0 ∧
    (s.guestGone reason).getF (PWR_MON 28) pmON = 0 ∧ ∀ n < 16, (s.guestGone reason).getF (GST_WIN n) gwV = 0 := by
  delta State.guestGone
  unfold State.setLkState
  refine ⟨?_, ?_, ?_, ?_, ?_, fun n hn => ?_⟩
  · simp (disch := decide) only [State.getF_setF_ne, State.guestOff_getF, State.getF_setF_same]
    rfl
  · simp (disch := decide) only [State.getF_setF_ne, State.guestOff_getF, State.getF_setF_same]
    rfl
  · simp (disch := decide) only [State.getF_setF_ne, State.guestOff_getF]
  · simp (disch := decide) only [State.getF_setF_ne, State.guestOff_getF, State.getF_setF_same]
    rfl
  · simp (disch := decide) only [State.getF_setF_same]
    rfl
  · rw [State.getF_setF_field _ _ _ _, State.guestOff_window _ hn]

theorem State.getF_links (s : State) (x : Links) (a : Nat) (f : FD) : ({ s with links := x } : State).getF a f = s.getF a f := rfl

theorem State.withdrawGuest_eq {s : State} (h : s.getF GST_STATUS gtSTATE = 3) (reason : Nat) :
    s.withdrawGuest reason =
      ({ s.guestGone reason with links := { (s.guestGone reason).links with guest := { (s.guestGone reason).links.guest with withdrawn := true } } }
        : State).setCap := by
  unfold State.withdrawGuest
  rw [if_neg (by rw [h]; decide)]
  rfl

theorem State.withdrawGuest_shows {s : State} (h : s.getF GST_STATUS gtSTATE = 3) (reason : Nat) :
    (s.withdrawGuest reason).getF GST_STATUS gtSTATE = 5 ∧ (s.withdrawGuest reason).getF GST_STATUS gtREASON = reason % 16 ∧
    (s.withdrawGuest reason).getF GST_STATUS gtFENCE = s.getF GST_STATUS gtFENCE ∧ (s.withdrawGuest reason).lkState 10 = 0 ∧
    (s.withdrawGuest reason).getF (PWR_MON 28) pmON = 0 ∧ (s.withdrawGuest reason).links.guest.withdrawn = true ∧
    ∀ n < 16, (s.withdrawGuest reason).getF (GST_WIN n) gwV = 0 := by
  obtain ⟨hstate, hreason, hfence, hlink, hrail, hwin⟩ := s.guestGone_getF reason
  rw [State.withdrawGuest_eq h]
  unfold State.setCap State.lkState
  generalize s.guestGone reason = u at hstate hreason hfence hlink hrail hwin ⊢
  refine ⟨?_, ?_, ?_, ?_, ?_, rfl, fun n hn => ?_⟩
  · rwa [State.getF_setF_ne _ _ (by decide), State.getF_links]
  · rwa [State.getF_setF_ne _ _ (by decide), State.getF_links]
  · rwa [State.getF_setF_ne _ _ (by decide), State.getF_links]
  · rwa [State.getF_setF_ne _ _ (by decide), State.getF_links]
  · rwa [State.getF_setF_ne _ _ (by decide), State.getF_links]
  · rw [State.getF_setF_field _ _ _ _, State.getF_links, hwin n hn]

/-! Samples, windows, the controller. -/

/-- The state after a sample, whatever it leads to. -/
def State.guestSampled (s : State) (mw : Nat) : State :=
  let l := (mw :: s.links.guest.samples).take 100
  let s1 : State := { s with links := { s.links with guest := { s.links.guest with samples := l } } }
  (s1.setF GST_STATUS gtPOWER (l.foldl (fun n v => n + v) 0 / l.length)).setCap

theorem State.guestSampled_state (s : State) (mw : Nat) : (s.guestSampled mw).getF GST_STATUS gtSTATE = s.getF GST_STATUS gtSTATE :=
  (State.getF_setF_ne _ _ (by decide)).trans ((State.getF_setF_lo _ _ _).trans (State.getF_links _ _ _ _))

theorem guestPowerSample_eq {s : State} {mw t : Nat} (h : (s.at t).getF GST_STATUS gtSTATE = 3) : guestPowerSample mw t s =
    if 20000 < mw ∨ (((mw :: (s.at t).links.guest.samples).take 100).length = 100 ∧
        1500000 < ((mw :: (s.at t).links.guest.samples).take 100).foldl (fun n v => n + v) 0)
    then ((s.at t).guestSampled mw).withdrawGuest 7 else (s.at t).guestSampled mw := if_neg (not_not.2 h)

theorem State.writeReg_window (s : State) (n w : Nat) : (s.writeReg (GST_WIN n) [gwV, gwLEN, gwBASE] w) =
    s.loadF (GST_WIN n) [gwV, gwLEN, gwBASE] w := rfl

/-- Settles O45: samples, fences and windows by their branches; the controller's states act, then move. -/
theorem guestAndTestResults : Obligations.GuestAndTestResults := by
  intro s0 t s
  refine ⟨?_, ?_, ?_, ?_, ?_, ?_⟩
  · intro mw l sum s1 hst hmw hmean
    refine congrArg Host.Outcome.next ((guestPowerSample_eq hst).trans ?_)
    rw [if_neg (not_or.2 ⟨Nat.not_lt.2 hmw, hmean⟩)]
    rfl
  · intro mw hst hmw
    obtain ⟨hstate, hreason, _, hlink, hrail, hwith, _⟩ := State.withdrawGuest_shows ((s.guestSampled_state mw).trans hst) 7
    exact ⟨_, congrArg Host.Outcome.next ((guestPowerSample_eq hst).trans (if_pos (.inl hmw))), hstate, hreason, hlink, hrail, hwith⟩
  · intro w hw hst
    have hst' : (s0.setF GST_STATUS gtFENCE 1).getF GST_STATUS gtSTATE = 3 := (State.getF_setF_lo _ _ _).trans hst
    obtain ⟨hstate, hreason, hfence, _, _, _, hwin⟩ := State.withdrawGuest_shows hst' 9
    refine ⟨(s0.setF GST_STATUS gtFENCE 1).withdrawGuest 9, congrArg Host.Outcome.next ?_, hstate, hreason, ?_, hwin⟩
    · show guestFence .islandA w s0 = _
      unfold guestFence
      rw [if_neg (by decide), if_pos hw]
    · rw [hfence, State.getF_setF_same]
      rfl
  · intro n w part hn hst hv hnw hlo hhi hok
    refine ⟨s0.loadF (GST_WIN n) [gwV, gwLEN, gwBASE] w, congrArg Host.Outcome.next ?_, ?_, ?_, ?_⟩
    · show gstWinWrite (.runtime part) n w s0 = _
      unfold gstWinWrite
      dsimp only
      rw [if_neg (not_or.2 ⟨not_not.2 rfl, not_not.2 hst⟩), if_neg (by omega), if_pos hv, if_pos ⟨hnw, hlo, hhi, hok⟩, State.writeReg_window]
    · rw [State.getF_loadF _ _ _ (by decide) (by decide) (by decide), hv]
    · rw [State.getF_loadF _ _ _ (by decide) (by decide) (by decide)]
    · rw [State.getF_loadF _ _ _ (by decide) (by decide) (by decide)]
  · intro tms tdi x
    have hclock : (x.clock tms tdi).st = x.st.next tms := rfl
    refine ⟨_, rfl, ?_, fun hst => ?_, fun hst => ?_, fun hst => ?_⟩
    · unfold tckCmd
      dsimp only
      split
      · exact hclock
      · exact hclock
    · have hx : (x.clock tms tdi).bypass = tdi ∧ (x.clock tms tdi).tdo = x.bypass := by
        unfold TestPort.clock
        rw [hst]
        exact ⟨rfl, rfl⟩
      unfold tckCmd
      dsimp only
      refine ⟨?_, fun hclosed => ?_⟩
      · split
        · exact hx.1
        · exact hx.1
      · rw [hclosed]
        exact hx.2
    · have hx : (x.clock tms tdi).ir = x.shift := by
        unfold TestPort.clock
        rw [hst]
      unfold tckCmd
      dsimp only
      split
      · exact hx
      · exact hx
    · have hx : (x.clock tms tdi).ir = 0xFF := by
        unfold TestPort.clock
        rw [hst]
      unfold tckCmd
      dsimp only
      split
      · exact hx
      · exact hx
  · intro tms f hd hst
    refine ⟨_, rfl, ?_⟩
    unfold tckCmd
    dsimp only
    rw [hd, if_pos (by rw [decide_eq_true (.inr hst)]; rfl)]
    exact ⟨rfl, rfl⟩

end Sys2Proof.Machine


/-! PROOFS. The application cores' registers, buses and odometry -/

namespace Sys2Proof.Machine

set_option Elab.async false

/-! Combining buffers and pairs (17 R447, R453 to R455). -/

/-- What a hart's combining buffer reads after it is written. -/
theorem State.comb_setComb (s : State) (h : Nat) (x : Comb) : (s.setComb h x).comb h = x := by
  unfold State.comb State.setComb
  exact Tab.get_set_same

/-- A store into the doorbell that the hart combines is kept, or leaves as one push with the eighth word. -/
theorem combineBufferEmit_store {s : State} {h q off : Nat} (v : Nat) (hh : s.isHart h = true) (hq : q < 16384) (hal : off % 8 = 0)
    (hoff : off < 64) (hsame : (s.comb h).q = q) :
    combineBufferEmit h false q off v s =
      (if (Tab.insert (s.comb h).words (off / 8) (v % 2 ^ 64)).length < 8
      then s.setComb h { q := q, words := Tab.insert (s.comb h).words (off / 8) (v % 2 ^ 64) }
      else pushCmd (.runtime (s.hartPart h)) q
        ((Tab.insert (s.comb h).words (off / 8) (v % 2 ^ 64)).flatMap (fun (_, v) => bytesOf 8 v)) (s.setComb h {})) := by
  unfold combineBufferEmit
  rw [hh, if_neg (by decide), if_neg (by decide), if_neg (by omega), if_pos hsame]

/-- A request in machine mode by the first hart of an ungrouped pair is not refused. -/
theorem State.pairRefused_none {s : State} {p : Nat} (hg : s.flag (AP_STAT p) apGROUPED = false) :
    s.pairRefused p (2 * p) true = none := by
  unfold State.pairRefused
  rw [decide_eq_false (by omega), hg]
  rfl

/-- The timer interrupt of a hart is pending exactly where its counter has reached its compare value. -/
theorem State.bit_timerLevel (s : State) (h : Nat) :
    bit (s.timerLevel h).ap.mtip h = true ↔ s.getF (MTIMECMP h) mtCMP ≤ s.hartTime := by
  unfold State.timerLevel
  dsimp only
  by_cases hle : s.getF (MTIMECMP h) mtCMP ≤ s.hartTime
  · simp [hle]
  · simp [hle]

/-- The pair's second core as LOCK leaves it: no pending identity, no combined word, no start, no timer interrupt. -/
def State.parkSecond (s : State) (p : Nat) : State :=
  let u := (s.clearFiles (2 * p + 1)).setComb (2 * p + 1) {}
  { u with ap := { u.ap with starts := Tab.erase u.ap.starts (2 * p + 1), mtip := clrBit u.ap.mtip (2 * p + 1) } }

theorem State.parkSecond_shows (s : State) (p : Nat) :
    ((s.parkSecond p).comb (2 * p + 1)).words = [] ∧ bit (s.parkSecond p).ap.mtip (2 * p + 1) = false := by
  refine ⟨congrArg Comb.words ((s.clearFiles (2 * p + 1)).comb_setComb (2 * p + 1) {}), ?_⟩
  unfold State.parkSecond
  simp

/-- The pair's second core as AP_SPLIT starts it. -/
def State.startSecond (s : State) (p : Nat) : State :=
  { s with ap := { s.ap with
    starts := Tab.insert s.ap.starts (2 * p + 1) (s.getF (AP_SPLIT_PC p) apPC, 2 * p + 1, 0) } }

/-- The pair's registers after a request of it is granted. -/
theorem State.getF_pairGranted (s : State) (p m : Nat) (hm : m < 4) :
    ((s.setF (AP_STAT p) apREQFAIL 0).setF (AP_STAT p) apMODE m).getF (AP_STAT p) apMODE = m ∧
      ((s.setF (AP_STAT p) apREQFAIL 0).setF (AP_STAT p) apMODE m).getF (AP_STAT p) apREQFAIL = 0 := by
  refine ⟨?_, ?_⟩
  · rw [State.getF_setF_same]
    exact Nat.mod_eq_of_lt hm
  · rw [State.getF_setF_lo _ _ _ (by decide), State.getF_setF_same]
    rfl

/-! Odometry (19 R505). -/

/-- What an island's odometry reads after it is set. -/
theorem State.odoOf_setOdo (s : State) (b : Bool) (x : OdoRt) : (s.setOdo b x).odoOf b = x := by
  unfold State.odoOf State.setOdo
  exact Tab.get_set_same

/-- The odometry sample that an accepted frame makes. -/
def OdoRt.sample (x : OdoRt) (f : List Nat) (now : Nat) : OdoRt :=
  { seq := some (fieldAt f 0 1), flags := fieldAt f 1 1, speed := fieldAt f 2 2, accel := fieldAt f 4 2,
    yaw := fieldAt f 6 2, artic := fieldAt f 8 2, at_ := now, stale := false, pose := x.poseAt now,
    slowSince := if slowSpeed (fieldAt f 2 2) then (match x.slowSince with | some u => some u | none => some now) else none }

/-- A whole frame whose check matches and whose number is newer than the last is taken: as a sample, or its number alone. -/
theorem odometryFrame_taken {s0 : State} {isl : Bool} {bytes : List Nat} {t : Nat} (hlen : bytes.length = 16)
    (hcrc : fieldAt (bytes.map (fun v => v % 256)) 0xC 4 = crc32c ((bytes.map (fun v => v % 256)).take 12))
    (hseq : ∀ q, ((s0.at t).odoOf isl).seq = some q → newer 8 (fieldAt (bytes.map (fun v => v % 256)) 0 1) q = true) :
    odometryFrame isl bytes t s0 =
      if fieldAt (bytes.map (fun v => v % 256)) 1 1 % 2 = 0 then
        (s0.at t).setOdo isl { (s0.at t).odoOf isl with seq := some (fieldAt (bytes.map (fun v => v % 256)) 0 1) }
      else (s0.at t).setOdo isl (((s0.at t).odoOf isl).sample (bytes.map (fun v => v % 256)) (s0.at t).now) := by
  unfold odometryFrame
  dsimp only
  rw [if_neg]
  · rfl
  · rintro (h | h | h)
    · exact h hlen
    · exact h hcrc
    · cases hq : ((s0.at t).odoOf isl).seq with
      | none =>
        rw [hq] at h
        cases h
      | some q =>
        rw [hq] at h
        dsimp only at h
        rw [hseq q hq] at h
        cases h

/-! CAN FD channels (19 R506). -/

/-- An enabled channel with an entry waiting sends it where it is whole and readable, else marks it. -/
theorem canTransmit_enabled {s0 : State} {c t : Nat} (hc : c < 2) (hen : (s0.at t).flag (CAN_CFG c) cnEN = true)
    (hne : (s0.at t).grpNext (12 + c) ≠ (s0.at t).grpTail (12 + c)) {ok : Bool}
    (hok : (canEntryOk ((s0.at t).grpEntry (12 + c) ((s0.at t).grpNext (12 + c))) &&
      (s0.at t).canRead 65 ((s0.at t).groupPart (12 + c)) ((s0.at t).grpAddr (12 + c) ((s0.at t).grpNext (12 + c))) 128 &&
      !(s0.at t).readFails 65 ((s0.at t).groupPart (12 + c)) ((s0.at t).grpAddr (12 + c) ((s0.at t).grpNext (12 + c))) 128) = ok) :
    let s := s0.at t
    let g := 12 + c
    let n := s.grpNext g
    let b := s.grpEntry g n
    let u := s.putEntry g n (putAt b 5 [1 + 2 * b2n (!ok)])
    let v := if ok then u.setPort (8 + c) { u.port (8 + c) with sent := b.take 5 ++ (b.drop 64).take (fieldAt b 4 1) } else u
    canTransmit c t s0 = ((v.setGrpNext g (n + 1)).setGrpHead g (n + 1)).irq (CANB c) (15 + c) 0 := by
  subst hok
  unfold canTransmit
  exact if_neg (by rw [hen]; simp [hne]; omega)

end Sys2Proof.Machine

open Sys2Proof.Machine

/-- Settles O46: each command's own checks pass under the premises, and its writes are read back. -/
theorem appCoreResults : Obligations.AppCoreResults := by
  unfold Obligations.AppCoreResults
  intro s h p
  refine ⟨?_, ?_, ?_, ?_, ?_, ?_, ?_⟩
  · intro q off v x hh hq hal hoff hsame
    have hrun := combineBufferEmit_store v hh hq hal hoff hsame
    refine ⟨fun hlen => congrArg Host.Outcome.next ?_, fun hlen => congrArg Host.Outcome.next ?_⟩
    · rw [hrun, if_pos hlen]
    · rw [hrun, if_neg (Nat.not_lt.2 hlen)]
  · intro hh
    refine congrArg Host.Outcome.next ?_
    unfold combineBufferEmit
    rw [hh, if_neg (by decide), if_pos rfl]
    rfl
  · intro t hh
    refine ⟨(s.at t).timerLevel h, congrArg Host.Outcome.next ?_, (s.at t).bit_timerLevel h⟩
    unfold machineTimerCompare
    exact if_pos hh
  · intro hp hmode hg hf
    obtain ⟨hcomb, htip⟩ := s.parkSecond_shows p
    obtain ⟨hm, hr⟩ := (s.parkSecond p).getF_pairGranted p 1 (by decide)
    refine ⟨_, congrArg Host.Outcome.next (?_ : lockCmd p (2 * p) true true s = _), hm, hr, ?_, ?_⟩
    · unfold lockCmd
      rw [if_neg (by omega), State.pairRefused_none hg]
      dsimp only
      rw [if_neg (by simp [hmode]), hf, if_neg (by decide)]
      rfl
    · simpa [State.comb] using hcomb
    · simpa using htip
  · intro hp hmode hg hf
    obtain ⟨hm, hr⟩ := (s.startSecond p).getF_pairGranted p 0 (by decide)
    refine ⟨(((s.startSecond p).setF (AP_STAT p) apREQFAIL 0).setF (AP_STAT p) apMODE 0).timerLevel (2 * p + 1),
      congrArg Host.Outcome.next ?_, hm, hr, ?_⟩
    · show apSplit p (2 * p) true s = _
      unfold apSplit
      rw [if_neg (by omega), State.pairRefused_none hg]
      dsimp only
      rw [hf, if_neg (by decide), if_neg (by rw [hmode]; decide)]
      rfl
    · have hkeep : ∀ v : State, (v.timerLevel (2 * p + 1)).ap.starts = v.ap.starts := fun _ => rfl
      rw [hkeep, State.setF_ap, State.setF_ap]
      exact Tab.find_insert_same
  · intro hp
    refine ⟨congrArg Host.Outcome.next ?_, congrArg Host.Outcome.next ?_⟩
    · unfold lockCmd
      rw [if_neg (by omega)]
      rfl
    · unfold apSplit
      rw [if_neg (by omega)]
      rfl
  · intro s1 s2 hp hmode hf
    refine congrArg Host.Outcome.next ?_
    have hgo : ¬(p ≥ 8 ∨ s.getF (AP_STAT p) apMODE = 0 ∨ s.flag (AP_STAT p) apFAILED = true) := by
      rintro (h | h | h)
      · omega
      · exact hmode h
      · rw [hf] at h
        cases h
    exact if_neg hgo

/-- Settles O48: each command's own checks pass under the premises. -/
theorem busAndOdometryResults : Obligations.BusAndOdometryResults := by
  unfold Obligations.BusAndOdometryResults
  intro s0 c t s
  refine ⟨?_, ?_, ?_, ?_, ?_, ?_, ?_, ?_, ?_⟩
  · intro g n b hc hen hne
    refine ⟨fun hok hread hgood => congrArg Host.Outcome.next ?_, fun hbad => congrArg Host.Outcome.next ?_⟩
    · exact canTransmit_enabled hc hen hne (ok := true) (by rw [hok, hread, hgood]; rfl)
    · exact canTransmit_enabled hc hen hne (ok := false) (by rw [hbad]; rfl)
  · intro id ide brs data g n id2 hc hen hlen htake
    have hgo : ¬(c ≥ 2 ∨ (!s.flag (CAN_CFG c) cnEN) = true ∨ (!canLens.contains data.length) = true ∨
        (!s.canTakes c id2 ide) = true) := by
      simp only [hen, htake, List.contains_iff_mem.2 hlen]
      simp
      omega
    refine ⟨fun hne => congrArg Host.Outcome.next ?_, fun he => congrArg Host.Outcome.next ?_⟩
    · unfold canReceive
      extract_lets
      rw [if_neg hgo, if_neg hne]
    · unfold canReceive
      extract_lets
      rw [if_neg hgo, if_pos he]
  · intro hc hen
    have hgo : ¬(c ≥ 2 ∨ (!s.flag (CAN_CFG c) cnEN) = true) := by
      simp only [hen]
      simp
      omega
    exact ⟨congrArg Host.Outcome.next (if_neg hgo), congrArg Host.Outcome.next (if_neg hgo)⟩
  · intro isl bytes x b hlen hcrc hseq
    have hrun := odometryFrame_taken hlen hcrc hseq
    refine ⟨fun hv => ⟨_, congrArg Host.Outcome.next hrun, ?_⟩, fun hv => congrArg Host.Outcome.next ?_⟩
    · rw [if_neg (by rw [hv]; decide), State.odoOf_setOdo]
      exact ⟨rfl, rfl, rfl, rfl, rfl, rfl, rfl, rfl, rfl⟩
    · exact hrun.trans (if_pos hv)
  · intro isl hdue s1
    refine congrArg Host.Outcome.next ?_
    unfold odometryStale
    extract_lets
    rw [if_pos hdue]
    have hserve : s1.islandServes false = s.islandServes false := rfl
    refine if_congr (or_congr_right ?_) rfl rfl
    rw [← hserve, Bool.not_eq_true']
  · intro gen width hlo hhi hw
    refine congrArg Host.Outcome.next ?_
    unfold pcieLinkChange
    rw [if_neg (by rw [List.contains_iff_mem.2 hw, decide_eq_true ⟨hlo, hhi⟩]; decide)]
    rfl
  · refine congrArg Host.Outcome.next ?_
    unfold pcieLinkChange
    rw [if_neg (by simp)]
    rfl
  · intro w resp s1 hep hgo hop
    have hgo1 : ¬(pgGO.of w = 0 ∨ s1.cfg.epMode = true) := by
      rintro (h | h)
      · omega
      · exact absurd (hep.symm.trans (h : s0.cfg.epMode = true)) (by decide)
    refine congrArg Host.Outcome.next ?_
    unfold pcieCfgaGo
    rw [if_neg (by simp [ctrlWriter])]
    dsimp only
    rw [if_neg hgo1, if_pos hop]
  · intro w resp s1 hep hgo hop
    have hgo1 : ¬(pgGO.of w = 0 ∨ s1.cfg.epMode = true) := by
      rintro (h | h)
      · omega
      · exact absurd (hep.symm.trans (h : s0.cfg.epMode = true)) (by decide)
    refine congrArg Host.Outcome.next ?_
    unfold pcieCfgaGo
    rw [if_neg (by simp [ctrlWriter])]
    dsimp only
    rw [if_neg hgo1, if_neg (by rw [hop]; decide)]


/-! PROOFS. The Ethernet ports -/

namespace Sys2Proof.Machine

set_option Elab.async false

/-! Interface causes, a port's own state and its synchronisation (19 R490, R497). -/

/-- A cause of an interface block leaves every field that starts elsewhere than its cause bits. -/
theorem State.getF_irq (s : State) (b src k a : Nat) {f : FD} (hf : irqBITS.lo ≠ f.lo)
    (hlt : f.lo < 64 := by decide) : (s.irq b src k).getF a f = s.getF a f :=
  State.getF_setF_field s (b + 0x10) a _ hf (by decide) hlt

/-- A cause of another interface block's register leaves a register. -/
theorem State.getF_irq_addr (s : State) (b src k : Nat) {a : Nat} (f : FD) (ha : b + 0x10 ≠ a)
    (hlt : f.lo < 64 := by decide) : (s.irq b src k).getF a f = s.getF a f :=
  State.getF_setF_addr s _ ha (by decide) hlt

@[simp] theorem State.irq_ports (s : State) (b src k : Nat) : (s.irq b src k).ports = s.ports := rfl

@[simp] theorem State.irq_now (s : State) (b src k : Nat) : (s.irq b src k).now = s.now := rfl

theorem State.port_setPort (s : State) (p : Nat) (x : PortRt) : (s.setPort p x).port p = x := by
  unfold State.port State.setPort
  exact Tab.get_set_same

theorem State.portTime_eq (s : State) (p : Nat) : s.portTime p = (s.port p).base + (s.now - (s.port p).at_) := rfl

/-- Port time depends on the port's own state and time alone. -/
theorem State.portTime_of_eq {s t : State} (p : Nat) (hports : t.ports = s.ports) (hnow : t.now = s.now) :
    t.portTime p = s.portTime p := by
  unfold State.portTime
  rw [hports, hnow]

/-- A port whose time is set at this instant reads the time set. -/
theorem State.portTime_set {s t : State} {p : Nat} {x : PortRt} (hports : t.ports = (s.setPort p x).ports) (hnow : t.now = x.at_) :
    t.portTime p = x.base := by
  have hx : t.port p = x := by
    unfold State.port
    rw [hports]
    exact s.port_setPort p x
  rw [State.portTime_eq, hx, hnow, Nat.sub_self, Nat.add_zero]

/-- A port's AS_SYNC after it is set: the value, with time and the ports' own state as they were. -/
theorem State.setSync_shows (s : State) {p : Nat} (v : Nat) (hp : p < 6) (hv : v < 2) :
    (s.setSync p v).getF (PORT p) psASSYNC = v ∧ (s.setSync p v).ports = s.ports ∧ (s.setSync p v).now = s.now := by
  unfold State.setSync
  split
  next h =>
    refine ⟨?_, rfl, rfl⟩
    rcases h with h | h
    · omega
    · exact h
  next h =>
    refine ⟨?_, rfl, rfl⟩
    rw [State.getF_irq _ _ _ _ _ (by decide), State.getF_setF_same]
    exact Nat.mod_eq_of_lt hv

/-- AS_SYNC leaves the port's other fields. -/
theorem State.setSync_getF (s : State) (p v : Nat) {f : FD} (hf : psASSYNC.lo ≠ f.lo) (hi : irqBITS.lo ≠ f.lo) (a : Nat)
    (hlt : f.lo < 64 := by decide) : (s.setSync p v).getF a f = s.getF a f := by
  unfold State.setSync
  split
  · rfl
  · rw [State.getF_irq _ _ _ _ _ hi hlt, State.getF_setF_field _ _ _ _ hf (by decide) hlt]

/-! Transmission (19 R498). -/

/-- A port that is up sends the descriptor it picks where that is whole and its buffer reads well, else marks it. -/
theorem ethTransmit_picked {s0 : State} {p t n : Nat} {d : List Nat} (hp : p < 6) (hl : (s0.at t).flag (PORT p) psLINK = true)
    (hpick : (s0.at t).txPick p ((s0.at t).txWaiting p) = some (n, d)) :
    let s := s0.at t
    let a := fieldAt d 0 8
    let len := fieldAt d 8 2
    let time := s.portTime p % 2 ^ 64
    ethTransmit p t s0 =
      if !txOk d || !s.canRead 65 (s.portPart p) a len || s.readFails 65 (s.portPart p) a len
      then s.txDone p n d (fieldAt d 0xB 1 % 4 + 12) 0 none
      else s.txDone p n d (fieldAt d 0xB 1 % 4 + 4) time (some (txFrame d (s.readBytes 65 (s.portPart p) a len) time)) := by
  have hgo : ¬(p ≥ 6 ∨ (!(s0.at t).flag (PORT p) psLINK) = true) := by
    rw [hl]
    simp
    omega
  unfold ethTransmit
  generalize s0.at t = s at hgo hpick ⊢
  intro u a len time
  simp only [hgo, hpick, if_false, u, a, len, time]

/-! Reception (19 R498, R500). -/

/-- A damaged frame, or one of a length that the port does not take, is dropped and counted. -/
theorem ethReceive_damaged {s0 : State} {p : Nat} {frame : List Nat} {ok : Bool} {t : Nat} (hp : p < 6)
    (hl : (s0.at t).flag (PORT p) psLINK = true) (hbad : ok = false ∨ frame.length < 60 ∨ 9018 < frame.length) :
    ethReceive p frame ok t s0 = (s0.at t).portDrop p := by
  unfold ethReceive
  dsimp only
  rw [if_neg (by rw [hl]; simp; omega), List.length_map, if_pos (by simpa using hbad)]

/-- A whole frame with a good check on a port that is up goes where the filters send it. -/
theorem ethReceive_whole {s0 : State} {p : Nat} {frame : List Nat} {t : Nat} (hp : p < 6) (hl : (s0.at t).flag (PORT p) psLINK = true)
    (hlo : 60 ≤ frame.length) (hhi : frame.length ≤ 9018) :
    let s := s0.at t
    let f := frame.map (fun b => b % 256)
    ethReceive p frame true t s0 = (match s.qciMatch p f with
      | none => s.rxFill p 0xFF f
      | some k =>
        if s.getF (QCI_M p k) qmSDU < frame.length then s.portDrop p
        else
          match s.meter p k (8 * frame.length) with
          | (s, false) => s.portDrop p
          | (s, true) => if s.getF (QCI_M p k) qmRING < 32 then s.rxStream (s.getF (QCI_M p k) qmRING) p f else s.rxFill p k f) := by
  have hmap : (frame.map (fun b => b % 256)).length = frame.length := List.length_map _
  unfold ethReceive
  dsimp only
  rw [if_neg (by rw [hl]; simp; omega), hmap]
  exact if_neg (by simp; omega)

/-- A frame that its filter takes goes to the filter's ring or descriptor where the meter lets it, else it is dropped. -/
theorem State.afterMeter (s : State) (p k : Nat) (frame : List Nat) :
    let f := frame.map (fun b => b % 256)
    let m := s.meter p k (8 * frame.length)
    let ring := s.getF (QCI_M p k) qmRING
    (match s.meter p k (8 * frame.length) with
      | (s, false) => s.portDrop p
      | (s, true) => if s.getF (QCI_M p k) qmRING < 32 then s.rxStream (s.getF (QCI_M p k) qmRING) p f else s.rxFill p k f) =
      if m.2 then (if ring < 32 then m.1.rxStream ring p f else m.1.rxFill p k f) else m.1.portDrop p := by
  intro f m ring
  have hregs : m.1.regs = s.regs := by
    simp only [m, State.meter]
    split
    · rfl
    · rfl
  have hring : m.1.getF (QCI_M p k) qmRING = ring := State.getF_of_regs hregs _ _
  rw [← hring]
  show (match m with
    | (s, false) => s.portDrop p
    | (s, true) => if s.getF (QCI_M p k) qmRING < 32 then s.rxStream (s.getF (QCI_M p k) qmRING) p f else s.rxFill p k f) = _
  obtain ⟨r, b⟩ := m
  cases b
  · rfl
  · rfl

/-! Links and gate lists (19 R497, R499). -/

/-- A port whose link comes up: LINK and SPEED set, port time restarted (19 R497). -/
def State.portLinkUp (s : State) (p speed : Nat) : State :=
  let u := (s.setF (PORT p) psLINK 1).setF (PORT p) psSPEED speed
  u.setPort p { u.port p with base := 0, at_ := u.now }

/-- The fields that an admissible write of QBV_CTL loads. -/
theorem qbvCtlWrite_loads {s : State} {p w : Nat} (hp : p < 6) (hnlo : 1 ≤ qvNGCL.of w) (hnhi : qvNGCL.of w ≤ 256)
    (hclo : 1000 ≤ qvCYCLE.of w) (hchi : qvCYCLE.of w ≤ 1000000000) :
    qbvCtlWrite (.runtime (s.portPart p)) p w s = (s.loadF (QBV_CTL p) [qvEN, qvNGCL, qvCYCLE] w).setF (QBV_CTL p) qvPENDING 1 := by
  unfold qbvCtlWrite
  dsimp only
  rw [if_neg (by omega), if_neg (by simp [ctrlWriter]), if_pos ⟨hnlo, hnhi⟩, if_pos ⟨hclo, hchi⟩]
  rfl

/-- The list that comes into force, with the cycle that it starts in (19 R499). -/
def State.listInForce (s : State) (p : Nat) : State :=
  let start := s.getF (QBV_BASE p) rw64 +
    (s.portTime p - s.getF (QBV_BASE p) rw64) / s.getF (QBV_CTL p) qvCYCLE * s.getF (QBV_CTL p) qvCYCLE
  s.setPort p { s.port p with
    qbvOn := s.flag (QBV_CTL p) qvEN
    gcl := (List.range (s.getF (QBV_CTL p) qvNGCL)).map (fun e => (s.getF (QBV_GCL p e) gcINTERVAL, s.getF (QBV_GCL p e) gcGATES))
    cycle := s.getF (QBV_CTL p) qvCYCLE
    idx := 0
    entryAt := start
    cycleAt := start }

end Sys2Proof.Machine

open Sys2Proof.Machine

/-- Settles O49: each command's own checks pass under the premises, and its writes are read back. -/
theorem ethernetResults : Obligations.EthernetResults := by
  unfold Obligations.EthernetResults
  intro s0 p t s
  refine ⟨?_, ?_, ?_, ?_, ?_, ?_, ?_, ?_, ?_⟩
  · intro who g w hg hwho hnew hroom
    refine ⟨s0.setF (RING_GROUP g + 24) qTAIL (w % 2 ^ 32), congrArg Host.Outcome.next ?_, ?_, ?_⟩
    · show ringDoorbell who g w s0 = _
      unfold ringDoorbell
      dsimp only
      rw [if_neg (by omega), hwho, if_neg (by decide), if_neg (by rw [hnew]; simp; omega)]
    · unfold State.grpTail
      rw [State.getF_setF_same]
      exact Nat.mod_eq_of_lt (Nat.mod_lt _ (by decide))
    · exact State.getF_setF_addr s0 _ (by omega)
  · intro n d a len time hp hl hpick
    have hrun := ethTransmit_picked hp hl hpick
    refine ⟨fun hok hread hgood => congrArg Host.Outcome.next ?_, fun hbad => congrArg Host.Outcome.next ?_⟩
    · exact hrun.trans (if_neg (by rw [hok, hread, hgood]; decide))
    · exact hrun.trans (if_pos (by simpa [or_assoc] using hbad))
  · intro frame ok f hp hl
    refine ⟨fun hbad => ⟨s.portDrop p, congrArg Host.Outcome.next ?_, s.getF_setF_same _ _ _⟩, fun hok hlo hhi => ?_⟩
    · exact ethReceive_damaged hp hl hbad
    · subst hok
      have hrun := ethReceive_whole hp hl hlo hhi
      refine ⟨fun hnone => congrArg Host.Outcome.next ?_, fun k hk hsdu => congrArg Host.Outcome.next ?_⟩
      · rw [hrun, hnone]
      · rw [hrun, hk]
        dsimp only
        rw [if_neg (Nat.not_lt.2 hsdu)]
        exact s.afterMeter p k frame
  · intro time hp hl
    obtain ⟨hsync, hports, hnow⟩ := (s.setPort p { s.port p with base := time % 2 ^ 64, at_ := s.now }).setSync_shows 1 hp (by decide)
    refine ⟨_, congrArg Host.Outcome.next (?_ : gptpSync p time t s0 = _), State.portTime_set hports hnow, hsync⟩
    unfold gptpSync
    refine if_neg ?_
    rintro (h | ⟨_, h⟩)
    · omega
    · rw [hl] at h
      cases h
  · intro hp
    obtain ⟨hsync, hports, hnow⟩ := s.setSync_shows 0 hp (by decide)
    exact ⟨s.setSync p 0, rfl, hsync, State.portTime_of_eq p hports hnow⟩
  · intro speed hp hspeed hl
    obtain ⟨hsync, hports, hnow⟩ := (s.portLinkUp p speed).setSync_shows 0 hp (by decide)
    have hok : (if p < 4 then decide (2 ≤ speed ∧ speed ≤ 4) else decide (speed = 1)) = true := by
      split at hspeed
      next h => rw [if_pos h, decide_eq_true hspeed]
      next h => rw [if_neg h, decide_eq_true hspeed]
    have hsp : speed < 8 := by split at hspeed <;> omega
    refine ⟨((s.portLinkUp p speed).setSync p 0).irq (PORT p) (9 + p) 3, congrArg Host.Outcome.next ?_, ?_, ?_, ?_, ?_⟩
    · show ethLinkChange p true speed t s0 = _
      unfold ethLinkChange
      dsimp only
      rw [if_neg]
      · rfl
      · rintro (h | ⟨_, h⟩ | h)
        · omega
        · rw [hok] at h
          cases h
        · exact absurd (hl.symm.trans h) (by decide)
    · rw [State.getF_irq _ _ _ _ _ (by decide), State.setSync_getF _ _ _ (by decide) (by decide)]
      exact (State.getF_setF_lo _ _ _ (by decide)).trans (State.getF_setF_same _ _ _ _)
    · rw [State.getF_irq _ _ _ _ _ (by decide), State.setSync_getF _ _ _ (by decide) (by decide)]
      exact (State.getF_setF_same _ _ _ _).trans (Nat.mod_eq_of_lt hsp)
    · rw [State.getF_irq _ _ _ _ _ (by decide), hsync]
    · exact State.portTime_set (s := (s.setF (PORT p) psLINK 1).setF (PORT p) psSPEED speed)
        (x := { s.port p with base := 0, at_ := s.now }) hports hnow
  · intro w hp hnlo hnhi hclo hchi
    refine ⟨_, congrArg Host.Outcome.next (qbvCtlWrite_loads hp hnlo hnhi hclo hchi), ?_, ?_, ?_, ?_⟩
    · rw [State.getF_setF_same]
      rfl
    · rw [State.getF_setF_lo _ _ _ (by decide), State.getF_loadF _ _ _ (by decide) (by decide) (by decide)]
    · rw [State.getF_setF_lo _ _ _ (by decide), State.getF_loadF _ _ _ (by decide) (by decide) (by decide)]
    · rw [State.getF_setF_lo _ _ _ (by decide), State.getF_loadF _ _ _ (by decide) (by decide) (by decide)]
  · intro base c hp hpend hbase
    have hport : (((s.listInForce p).setF (QBV_CTL p) qvPENDING 0).irq (PORT p) (9 + p) 5).port p = (s.listInForce p).port p := rfl
    refine ⟨((s.listInForce p).setF (QBV_CTL p) qvPENDING 0).irq (PORT p) (9 + p) 5, congrArg Host.Outcome.next ?_, ?_, ?_⟩
    · show qbvListInForce p t s0 = _
      unfold qbvListInForce
      dsimp only
      rw [if_neg]
      · rfl
      · rintro (h | h | h)
        · omega
        · rw [show (s0.at t).flag (QBV_CTL p) qvPENDING = true from hpend] at h
          cases h
        · exact absurd hbase (Nat.not_le.2 h)
    · rw [State.getF_irq _ _ _ _ _ (by decide), State.getF_setF_same]
      rfl
    · rw [hport]
      unfold State.listInForce
      rw [State.port_setPort]
      exact ⟨rfl, rfl, rfl⟩
  · intro x e hp hon hend
    have hgo : ¬(p ≥ 6 ∨ (!x.qbvOn) = true ∨ s.portTime p < x.cycleAt + e) := by
      rw [hon]
      simp
      omega
    refine ⟨fun hlt => congrArg Host.Outcome.next ?_, fun hle => congrArg Host.Outcome.next ?_⟩
    · unfold gateControlEntry
      extract_lets
      rw [if_neg hgo, if_pos hlt]
    · unfold gateControlEntry
      extract_lets
      rw [if_neg hgo, if_neg (Nat.not_lt.2 hle)]


/-! PROOFS. What a hand-over and a failed island leave -/

namespace Sys2Proof.Machine

set_option Elab.async false

/-- A register that no record, no cause and no Sillage count changes. -/
def recordFree (a : Nat) : Bool := decide (a ≠ SIL_STATUS ∧ a ≠ EMIT_CLAIM ∧ a ≠ SAFE_STATUS ∧ a ≠ INTEG_CAUSE)

/-- A register of the clock and supply block. -/
def clockReg (a : Nat) : Bool := decide (clkBase ≤ a ∧ a < silBase)

theorem State.setCause_getF (s : State) (k : Nat) (on : Bool) {a : Nat} {f : FD} (ha : INTEG_CAUSE ≠ a) (hs : SAFE_STATUS ≠ a)
    (hf : f.lo < 64) : (s.setCause k on).getF a f = s.getF a f :=
  (State.getF_setF_addr _ (f := safINTEGRITY) _ hs (by decide) hf).trans (State.getF_setF_addr _ (f := icCAUSE) _ ha (by decide) hf)

theorem State.recordLeft_getF (s : State) (b : Bool) (r : Record) {a : Nat} {f : FD} (ha : a ≠ SIL_STATUS) (hf : f.lo < 64) :
    (s.recordLeft b r).getF a f = s.getF a f := by
  obtain ⟨x, y, level3, held, heq, -⟩ := s.recordLeft_eq b r
  rw [heq]
  exact (State.getF_of_regs (State.leave_regs _ _ _ _ _ _ _) _ _).trans ((s.recordExtremes_counted b r).regs a f ha hf)

theorem State.sendRecord_getF (s : State) (b takeover : Bool) {a : Nat} {f : FD} (hsil : a ≠ SIL_STATUS) (hclaim : a ≠ EMIT_CLAIM)
    (hsafe : a ≠ SAFE_STATUS) (hf : f.lo < 64) : (s.sendRecord b takeover).1.getF a f = s.getF a f := by
  unfold State.sendRecord
  dsimp only
  split
  · rfl
  · split
    · exact (Counted.event _ 18).regs a f hsil hf
    · rw [State.recordLeft_getF _ _ _ hsil hf]
      have hset : (((s.setF EMIT_CLAIM ecSEQ (s.islPlan b).want).setF EMIT_CLAIM ecBY (b2n b)).setF EMIT_CLAIM ecTAKEOVER
          (b2n takeover)).getF a f = s.getF a f := by
        rw [State.getF_setF_addr _ _ hclaim.symm (by decide) hf, State.getF_setF_addr _ _ hclaim.symm (by decide) hf,
          State.getF_setF_addr _ _ hclaim.symm (by decide) hf]
      split
      · exact (State.endSafe_getF _ hsafe.symm hf).trans hset
      · exact hset

theorem State.handOver_getF (s : State) (b takeover : Bool) {a : Nat} {f : FD} (ha : recordFree a = true)
    (hi : ISL_STATUS ≠ a ∨ isEMITTER.lo ≠ f.lo) (hf : f.lo < 64) : (s.handOver b takeover).getF a f = s.getF a f := by
  obtain ⟨hsil, hclaim, hsafe, hcause⟩ : _ ∧ _ := of_decide_eq_true ha
  have hsend := s.sendRecord_getF b takeover hsil hclaim hsafe hf
  unfold State.handOver
  generalize s.sendRecord b takeover = p at hsend ⊢
  obtain ⟨u, sent⟩ := p
  cases sent
  · exact hsend
  · refine (State.setCause_getF _ 2 true hcause.symm hsafe.symm hf).trans (((Counted.event _ 26).regs a f hsil hf).trans ?_)
    refine (State.getF_setF_ne _ _ ?_).trans hsend
    unfold FD.key
    rcases hi with h | h
    · have he : isEMITTER.lo < 64 := by decide
      omega
    · have he : isEMITTER.lo < 64 := by decide
      omega

theorem State.takeOver_getF (s : State) (b : Bool) {a : Nat} {f : FD} (ha : recordFree a = true)
    (hi : ISL_STATUS ≠ a ∨ isEMITTER.lo ≠ f.lo) (hf : f.lo < 64) : (s.takeOver b).getF a f = s.getF a f := by
  unfold State.takeOver
  dsimp only
  split
  · exact s.handOver_getF b true ha hi hf
  · rfl

theorem clockReg_free {a : Nat} (h : clockReg a = true) : recordFree a = true ∧ ISL_STATUS ≠ a ∧
    SIL_NONCE0 ≠ a ∧ SIL_NONCE1 ≠ a ∧ SEC_NONCE 0 ≠ a ∧ SEC_NONCE 1 ≠ a := by
  obtain ⟨hlo, hhi⟩ : _ ∧ _ := of_decide_eq_true h
  have hlt : EMIT_CLAIM < clkBase ∧ SAFE_STATUS < clkBase ∧ INTEG_CAUSE < clkBase ∧ ISL_STATUS < clkBase := by decide
  have hge : silBase ≤ SIL_STATUS ∧ silBase ≤ SIL_NONCE0 ∧ silBase ≤ SIL_NONCE1 ∧ silBase ≤ SEC_NONCE 0 ∧ silBase ≤ SEC_NONCE 1 := by decide
  obtain ⟨h1, h2, h3, h4⟩ := hlt
  obtain ⟨h5, h6, h7, h8, h9⟩ := hge
  refine ⟨decide_eq_true ⟨?_, ?_, ?_, ?_⟩, ?_, ?_, ?_, ?_, ?_⟩
  all_goals omega

theorem State.dropNonces_getF (s : State) {a : Nat} {f : FD} (h : clockReg a = true) (hf : f.lo < 64) :
    s.dropNonces.getF a f = s.getF a f := by
  obtain ⟨-, -, h0, h1, h2, h3⟩ := clockReg_free h
  have hfold : ([SIL_NONCE0, SIL_NONCE1, SEC_NONCE 0, SEC_NONCE 1].foldl (fun s a => s.setF a silNONCE 0) s).getF a f = s.getF a f := by
    refine foldl_keeps (R := fun u : State => u.getF a f) (fun u x hx => State.getF_setF_addr u _ ?_ (by decide) hf) s
    simp only [List.mem_cons, List.not_mem_nil, or_false] at hx
    rcases hx with rfl | rfl | rfl | rfl
    · exact h0
    · exact h1
    · exact h2
    · exact h3
  exact hfold

/-- An island that fails leaves the clock and supply block. -/
theorem State.failIsland_getF (s : State) (b : Bool) {a : Nat} {f : FD} (h : clockReg a = true) (hf : f.lo < 64) :
    (s.failIsland b).getF a f = s.getF a f := by
  obtain ⟨hfree, hisl, -⟩ := clockReg_free h
  obtain ⟨hsil, -, hsafe, hcause⟩ : _ ∧ _ := of_decide_eq_true hfree
  unfold State.failIsland
  split
  · rfl
  · rw [State.takeOver_getF _ _ hfree (.inl hisl) hf]
    have hbase : ∀ v : State, v.getF a f = s.getF a f → (if b = true then v else v.dropNonces).getF a f = s.getF a f := by
      intro v hv
      split
      · exact hv
      · exact (v.dropNonces_getF h hf).trans hv
    refine hbase _ ((State.setCause_getF _ 2 true hcause.symm hsafe.symm hf).trans (((Counted.event _ _).regs a f hsil hf).trans ?_))
    refine (State.getF_setF_addr _ _ hisl ?_ hf).trans (State.getF_setF_addr s _ hisl ?_ hf)
    · split <;> decide
    · split <;> decide

end Sys2Proof.Machine


/-! PROOFS. The resets of the main domain and of the device -/

namespace Sys2Proof.Machine

set_option Elab.async false

/-- `t` is `s` but for registers other than the islands' status, and stores. -/
structure ResetSteps (s t : State) : Prop where
  eq : t = { s with regs := t.regs, stores := t.stores }
  isl : ∀ f : FD, f.lo < 64 → t.getF ISL_STATUS f = s.getF ISL_STATUS f

theorem ResetSteps.refl (s : State) : ResetSteps s s := ⟨rfl, fun _ _ => rfl⟩

theorem ResetSteps.trans {s t u : State} (h : ResetSteps s t) (h' : ResetSteps t u) : ResetSteps s u where
  eq := by rw [h'.eq, h.eq]
  isl f hf := (h'.isl f hf).trans (h.isl f hf)

theorem ResetSteps.setF (s : State) {a : Nat} {f : FD} (v : Nat) (h : a ≠ ISL_STATUS := by decide) (hf : f.lo < 64 := by decide) :
    ResetSteps s (s.setF a f v) := ⟨rfl, fun _ hg => State.getF_setF_addr s v h hf hg⟩

theorem ResetSteps.setStores (s : State) (x : Tab Store) : ResetSteps s { s with stores := x } := ⟨rfl, fun _ _ => rfl⟩

theorem ResetSteps.ite {s t u : State} {c : Prop} [Decidable c] (ht : ResetSteps s t) (hu : ResetSteps s u) :
    ResetSteps s (if c then t else u) := by
  split
  · exact ht
  · exact hu

theorem ResetSteps.foldl {α : Type} {f : State → α → State} (h : ∀ s x, ResetSteps s (f s x)) (l : List α) (s : State) :
    ResetSteps s (l.foldl f s) := by
  induction l generalizing s with
  | nil => exact .refl s
  | cons x l ih => exact (h s x).trans (ih _)

theorem ResetSteps.setCause (s : State) (k : Nat) (on : Bool) : ResetSteps s (s.setCause k on) :=
  (ResetSteps.setF s _).trans (.setF _ _)

theorem ResetSteps.dropMode (s : State) : ResetSteps s s.dropMode := (ResetSteps.setF s _).trans (.setF _ _)

theorem ResetSteps.inMode (s : State) (m : Nat) : ResetSteps s (s.inMode m) :=
  (ResetSteps.setF s _).trans ((ResetSteps.setF _ _).trans (.setCause _ 0 _))

theorem ResetSteps.cutWrites (s : State) : ResetSteps s s.cutWrites := by
  refine .foldl (fun u x => ?_) s.stores s
  exact .ite (c := x.2.wr.isSome = true) ((ResetSteps.setStores u _).trans (.setStores _ _)) (.refl u)

theorem ResetSteps.showNonce (s : State) (n : Option (List Nat)) : ResetSteps s (s.showNonce SIL_NONCE0 n) :=
  (ResetSteps.setF s _).trans (.setF _ _)

theorem ResetSteps.serves {s t : State} (h : ResetSteps s t) (b : Bool) : t.islandServes b = s.islandServes b := by
  cases b
  · exact congrArg (fun v => !decide (v = 1)) (h.isl isAFAIL (by decide))
  · exact congrArg (fun v => !decide (v = 1)) (h.isl isBFAIL (by decide))

/-- A kept register reads through a filter of the register table. -/
theorem State.getF_filter {s r : State} {p : Nat → Bool} {a : Nat} {f : FD} (hregs : r.regs = s.regs.filter (fun (k, _) => p k))
    (hp : p (f.key a) = true) : r.getF a f = s.getF a f := by
  unfold State.getF
  rw [hregs]
  exact (Tab.get_filter p f.reset s.regs (f.key a)).trans (if_pos hp)

theorem State.keepReg_isl (s : State) (f : FD) (hf : f.lo < 64) : s.keepReg (f.key ISL_STATUS) = true := by
  have hdiv : f.key ISL_STATUS / 64 = ISL_STATUS := by
    unfold FD.key
    omega
  have hin : SAFE_STATUS ≤ ISL_STATUS ∧ ISL_STATUS < BAR_HART 0 := by decide
  unfold State.keepReg
  rw [hdiv]
  simp [hin]

/-- What a reset of the main domain keeps of the supplies, and what of them it takes back. -/
def Power.mainReset (p : Power) : Power := { p with samples := [], lowSince := none, winSum := 0, winN := 0, released := false }

/-- A reset of the main domain: units and jobs at their reset values; the Flacon, the islands and the supplies stay. -/
theorem State.mainReset_shows (s : State) : s.mainReset.jobs = State.reset.jobs ∧ s.mainReset.units = State.reset.units ∧
    s.mainReset.flc = s.flc ∧ s.mainReset.shut = s.shut ∧ s.mainReset.pow = s.pow.mainReset ∧
    ∀ b, s.mainReset.islandServes b = s.islandServes b := by
  have hsteps : ∃ r : State, ResetSteps r s.mainReset ∧ r.jobs = State.reset.jobs ∧ r.units = State.reset.units ∧ r.flc = s.flc ∧
      r.shut = s.shut ∧ r.pow = s.pow.mainReset ∧ r.regs = s.regs.filter (fun (k, _) => s.keepReg k) := by
    unfold State.mainReset
    extract_lets reset sup pow r u v w
    refine ⟨r, ?_, rfl, rfl, rfl, rfl, rfl, rfl⟩
    have hu : ResetSteps r u := (ResetSteps.dropMode r).trans (.cutWrites _)
    have hv : ResetSteps u v := .ite (.refl u) (.inMode u 1)
    have hw : ResetSteps v w := .foldl (fun x k => .setCause x k false) [3, 4, 6] v
    exact hu.trans (hv.trans (hw.trans ((ResetSteps.showNonce w _).trans (.setF _ _))))
  obtain ⟨r, hr, hjobs, hunits, hflc, hshut, hpow, hregs⟩ := hsteps
  refine ⟨?_, ?_, ?_, ?_, ?_, fun b => ?_⟩
  · rw [hr.eq]
    exact hjobs
  · rw [hr.eq]
    exact hunits
  · rw [hr.eq]
    exact hflc
  · rw [hr.eq]
    exact hshut
  · rw [hr.eq]
    exact hpow
  · rw [hr.serves]
    cases b
    · exact congrArg (fun v => !decide (v = 1)) (State.getF_filter hregs (s.keepReg_isl isAFAIL (by decide)))
    · exact congrArg (fun v => !decide (v = 1)) (State.getF_filter hregs (s.keepReg_isl isBFAIL (by decide)))

/-! The writes that a reset cuts off (15 R407). -/

/-- One write in progress is cut off: its bank is invalid. -/
def State.cutWrite (s : State) (id : Nat) : State := (s.setBank id (s.writeBank id) none).setWriting id none

/-- Two states hold the same stores, in NOR devices that work alike. -/
def SameStores (s t : State) : Prop := t.stores = s.stores ∧ t.ident.norFailed = s.ident.norFailed

theorem SameStores.writeBank {s t : State} (h : SameStores s t) (id : Nat) : t.writeBank id = s.writeBank id := by
  unfold State.writeBank State.storeAt
  rw [h.1, h.2]

theorem SameStores.cutWrite {s t : State} (h : SameStores s t) (id : Nat) : SameStores (s.cutWrite id) (t.cutWrite id) := by
  refine ⟨?_, h.2⟩
  unfold State.cutWrite State.setWriting State.setBank
  rw [h.writeBank id]
  dsimp only
  rw [h.1]

theorem SameStores.cutWrites {s t : State} (h : SameStores s t) : SameStores s.cutWrites t.cutWrites := by
  have hfold : ∀ l : List (Nat × Store), ∀ u v : State, SameStores u v →
      SameStores (l.foldl (fun (s : State) (x : Nat × Store) => if x.2.wr.isSome then s.cutWrite x.1 else s) u)
        (l.foldl (fun (s : State) (x : Nat × Store) => if x.2.wr.isSome then s.cutWrite x.1 else s) v) := by
    intro l
    induction l with
    | nil => exact fun u v huv => huv
    | cons x l ih =>
      intro u v huv
      refine ih _ _ ?_
      dsimp only
      split
      · exact huv.cutWrite x.1
      · exact huv
  have hst := hfold s.stores s t h
  unfold State.cutWrites
  rw [h.1]
  exact hst

/-- A reset of the whole device: units, jobs and recorder at their reset values; the Flacon and the stores stay, but for the writes
that it cuts off. -/
theorem State.coldReset_shows (s : State) : s.coldReset.jobs = State.reset.jobs ∧ s.coldReset.units = State.reset.units ∧
    s.coldReset.sil = State.reset.sil ∧ s.coldReset.stores = s.cutWrites.stores ∧ s.coldReset.flc = s.flc ∧ s.coldReset.now = s.now ∧
    s.coldReset.pow.hold = s.pow.hold &&& 19 := by
  have hsteps : ∃ r : State, s.coldReset = r.cutWrites ∧ SameStores s r ∧ r.jobs = State.reset.jobs ∧ r.units = State.reset.units ∧
      r.sil = State.reset.sil ∧ r.flc = s.flc ∧ r.now = s.now ∧ r.pow.hold = s.pow.hold &&& 19 := by
    unfold State.coldReset
    extract_lets reset ident r
    exact ⟨r, rfl, ⟨rfl, rfl⟩, rfl, rfl, rfl, rfl, rfl, rfl⟩
  obtain ⟨r, heq, hsame, hjobs, hunits, hsil, hflc, hnow, hhold⟩ := hsteps
  have hr := (ResetSteps.cutWrites r).eq
  rw [heq]
  refine ⟨?_, ?_, ?_, hsame.cutWrites.1, ?_, ?_, ?_⟩
  · rw [hr]
    exact hjobs
  · rw [hr]
    exact hunits
  · rw [hr]
    exact hsil
  · rw [hr]
    exact hflc
  · rw [hr]
    exact hnow
  · rw [hr]
    exact hhold

end Sys2Proof.Machine


/-! PROOFS. Supplies and rails -/

namespace Sys2Proof.Machine

set_option Elab.async false

/-! Rails and the sequencer (18 R472 to R474). -/

theorem PWR_MON_clock {n : Nat} (h : n < 32) : clockReg (PWR_MON n) = true := by
  unfold clockReg PWR_MON clkBase silBase
  exact decide_eq_true (by omega)

theorem PWR_MON_ne {n m : Nat} (h : n ≠ m) : PWR_MON n ≠ PWR_MON m := by
  unfold PWR_MON
  omega

/-- The rails of a list are off, as register writes alone. -/
def State.monsOff (s : State) (l : List Nat) : State := l.foldl (fun (s : State) n => s.setF (PWR_MON n) pmON 0) s

/-- The monitors of the main domain's internal rails. -/
def innerRails : List Nat := (List.range 24).map (fun i => i + 5)

theorem State.monsOff_pow (s : State) (l : List Nat) : (s.monsOff l).pow = s.pow := by
  unfold State.monsOff
  exact foldl_keeps (R := State.pow) (fun u n _ => State.setF_pow u _ _ _) s

theorem State.monsOff_shut (s : State) (l : List Nat) : (s.monsOff l).shut = s.shut := by
  unfold State.monsOff
  refine foldl_keeps (R := State.shut) (fun u n _ => ?_) s
  rw [State.setF_shut]

theorem State.monsOff_getF (s : State) (l : List Nat) (a : Nat) {f : FD} (h : pmON.lo ≠ f.lo) (hf : f.lo < 64) :
    (s.monsOff l).getF a f = s.getF a f :=
  foldl_keeps (R := fun u : State => u.getF a f) (fun u n _ => State.getF_setF_field u _ _ 0 h (by decide) hf) s

theorem State.railsOff_eq (s : State) : s.railsOff =
    { s.monsOff innerRails with pow := { s.pow with good := false, seqOn := false, groups := 0 } } := by
  have hpow := s.monsOff_pow innerRails
  unfold State.railsOff
  change (let u : State := s.monsOff innerRails
    { u with pow := { u.pow with good := false, seqOn := false, groups := 0 } }) = _
  generalize s.monsOff innerRails = u at hpow ⊢
  rw [← hpow]

theorem State.railsOff_regs (s : State) : s.railsOff.regs = (s.monsOff innerRails).regs := by
  rw [s.railsOff_eq]

theorem State.railsOff_pow (s : State) : s.railsOff.pow = { s.pow with good := false, seqOn := false, groups := 0 } := by
  rw [s.railsOff_eq]

theorem State.railsOff_getF (s : State) (a : Nat) {f : FD} (h : pmON.lo ≠ f.lo) (hf : f.lo < 64 := by decide) :
    s.railsOff.getF a f = s.getF a f := by
  rw [State.getF_of_regs s.railsOff_regs]
  exact s.monsOff_getF _ a h hf

theorem State.railsOff_shut (s : State) : s.railsOff.shut = s.shut := by
  rw [s.railsOff_eq]
  dsimp only
  exact s.monsOff_shut innerRails

theorem State.railsOff_serves (s : State) (b : Bool) : s.railsOff.islandServes b = s.islandServes b := by
  unfold State.islandServes State.flag
  rw [s.railsOff_getF ISL_STATUS (by split <;> decide) (by split <;> decide)]

/-- Every rail of the main domain is off. -/
theorem State.railsOff_off (s : State) {n : Nat} (h : n < 24) : s.railsOff.getF (PWR_MON (n + 5)) pmON = 0 := by
  rw [State.getF_of_regs s.railsOff_regs]
  refine foldl_changes_once (R := fun u : State => u.getF (PWR_MON (n + 5)) pmON) (g := fun _ => 0) (x := n + 5) ?_ (by decide) ?_ ?_ s
  · exact List.mem_map.2 ⟨n, List.mem_range.2 h, rfl⟩
  · exact fun u => u.getF_setF_same _ _ _
  · exact fun u m _ hm => State.getF_setF_addr u 0 (PWR_MON_ne hm)

/-- The registers that show a sequencing fault. -/
def State.faultShown (s : State) (code supply : Nat) : State :=
  ((s.setF PWR_FAULT pfV 1).setF PWR_FAULT pfCODE code).setF PWR_FAULT pfSUPPLY supply

theorem State.latchFault_first {s : State} (code supply : Nat) (h : s.pow.refused = false) : ∃ p : Power,
    s.latchFault code supply = ({ s.faultShown code supply with pow := p } : State).railsOff ∧ p.refused = true := by
  unfold State.latchFault
  rw [if_neg (by rw [h]; decide)]
  exact ⟨_, rfl, rfl⟩

theorem State.faultShown_getF (s : State) (code supply : Nat) : (s.faultShown code supply).getF PWR_FAULT pfV = 1 ∧
    (s.faultShown code supply).getF PWR_FAULT pfCODE = code % 2 ^ pfCODE.w ∧
    (s.faultShown code supply).getF PWR_FAULT pfSUPPLY = supply % 2 ^ pfSUPPLY.w := by
  unfold State.faultShown
  refine ⟨?_, ?_, State.getF_setF_same _ _ _ _⟩
  · rw [State.getF_setF_lo _ _ _ (by decide), State.getF_setF_lo _ _ _ (by decide), State.getF_setF_same]
    rfl
  · rw [State.getF_setF_lo _ _ _ (by decide), State.getF_setF_same]

/-- The first sequencing fault is latched with its code, and the sequencer stops. -/
theorem State.latchFault_shows {s : State} (code supply : Nat) (h : s.pow.refused = false) :
    (s.latchFault code supply).getF PWR_FAULT pfV = 1 ∧ (s.latchFault code supply).getF PWR_FAULT pfCODE = code % 2 ^ pfCODE.w ∧
      (s.latchFault code supply).getF PWR_FAULT pfSUPPLY = supply % 2 ^ pfSUPPLY.w ∧ (s.latchFault code supply).pow.refused = true ∧
      (s.latchFault code supply).pow.seqOn = false := by
  obtain ⟨p, heq, hp⟩ := State.latchFault_first code supply h
  obtain ⟨hv, hc, hs⟩ := s.faultShown_getF code supply
  rw [heq, State.railsOff_pow, State.railsOff_getF _ _ (by decide), State.railsOff_getF _ _ (by decide),
    State.railsOff_getF _ _ (by decide)]
  exact ⟨hv, hc, hs, hp, rfl⟩

/-- The rails of a list are on, at their targets. -/
def State.turnOn (s : State) (l : List Nat) : State :=
  l.foldl (fun (s : State) n => (s.setF (PWR_MON n) pmTARGET (railMv n)).setF (PWR_MON n) pmON 1) s

theorem State.turnOn_now (s : State) (l : List Nat) : (s.turnOn l).now = s.now := by
  unfold State.turnOn
  refine foldl_keeps (R := State.now) (fun u n _ => ?_) s
  rw [State.setF_now, State.setF_now]

theorem railMv_lt (n : Nat) : railMv n < 2 ^ pmTARGET.w := by
  unfold railMv
  split
  · decide
  · split
    · decide
    · split
      · decide
      · split <;> decide

/-- What the monitor of rail `n` shows of its target. -/
def State.railShown (s : State) (n : Nat) : Nat × Nat := (s.getF (PWR_MON n) pmON, s.getF (PWR_MON n) pmTARGET)

theorem State.railShown_setF_ne (s : State) {n m : Nat} {f : FD} (v : Nat) (h : m ≠ n) (hf : f.lo < 64) :
    (s.setF (PWR_MON m) f v).railShown n = s.railShown n := by
  unfold State.railShown
  rw [State.getF_setF_addr _ _ (PWR_MON_ne h) hf, State.getF_setF_addr _ _ (PWR_MON_ne h) hf]

theorem State.turnOn_same (s : State) {l : List Nat} {n : Nat} (h : n ∈ l) (hl : l.Nodup) : (s.turnOn l).railShown n = (1, railMv n) := by
  unfold State.turnOn
  refine foldl_changes_once (R := fun u : State => u.railShown n) (g := fun _ => (1, railMv n)) h hl (fun u => ?_) (fun u m _ hm => ?_) s
  · unfold State.railShown
    rw [State.getF_setF_same, State.getF_setF_lo _ _ _ (by decide), State.getF_setF_same]
    exact Prod.ext rfl (Nat.mod_eq_of_lt (railMv_lt n))
  · rw [State.railShown_setF_ne _ _ hm (by decide), State.railShown_setF_ne _ _ hm (by decide)]

theorem State.turnOn_ne (s : State) {l : List Nat} {n : Nat} (h : n ∉ l) : (s.turnOn l).railShown n = s.railShown n := by
  unfold State.turnOn
  refine foldl_keeps (R := fun u : State => u.railShown n) (fun u m hm => ?_) s
  have hne : m ≠ n := fun e => h (e ▸ hm)
  rw [State.railShown_setF_ne _ _ hne (by decide), State.railShown_setF_ne _ _ hne (by decide)]

theorem State.railsOn_one (s : State) : s.railsOn 1 = (((s.turnOn [25, 27]).turnOn [0, 1, 2, 3, 4, 30, 31]).setF (PWR_MON 28) pmTARGET
    (railMv 28)).setF (PWR_MON 29) pmTARGET (railMv 29) := by
  unfold State.railsOn
  dsimp only
  rw [if_pos rfl, if_pos rfl, if_neg (by decide)]
  rfl

theorem State.railsOn_two (s : State) : s.railsOn 2 = s.turnOn [23, 24] := by
  unfold State.railsOn
  dsimp only
  rw [if_neg (by decide), if_neg (by decide), if_neg (by decide)]
  rfl

theorem State.railsOn_now (s : State) {g : Nat} (h : g = 1 ∨ g = 2) : (s.railsOn g).now = s.now := by
  rcases h with rfl | rfl
  · rw [State.railsOn_one, State.setF_now, State.setF_now, State.turnOn_now, State.turnOn_now]
  · rw [State.railsOn_two, State.turnOn_now]

/-- Each rail of the first and second group is on at its target. -/
theorem State.railsOn_on (s : State) {g n : Nat} (h : g = 1 ∨ g = 2) (hn : n ∈ groupRails g) :
    (s.railsOn g).railShown n = (1, railMv n) := by
  rcases h with rfl | rfl
  · have hn : n = 25 ∨ n = 27 := by simpa [groupRails] using hn
    rw [State.railsOn_one, State.railShown_setF_ne _ _ (by omega) (by decide), State.railShown_setF_ne _ _ (by omega) (by decide),
      State.turnOn_ne _ (by simp; omega), State.turnOn_same _ (by simp; omega) (by decide)]
  · rw [State.railsOn_two]
    exact s.turnOn_same hn (by decide)

/-- The device with its supplies asked for. -/
def State.enabled (s : State) : State := { s with pow := { s.pow with en := true, refused := false } }

theorem pwrEnRise_runs {s0 : State} {t : Nat} (hen : (s0.at t).pow.en = false) (href : (s0.at t).pow.refused = false) :
    pwrEnRise t s0 = (match (List.range 5).find? (fun n => !(s0.at t).enabled.inTol n (ms 10)) with
      | some n => (s0.at t).enabled.latchFault 3 n
      | none => { (s0.at t).enabled with pow := { (s0.at t).enabled.pow with seqOn := true, groups := 0, groupAt := (s0.at t).now } }) := by
  unfold pwrEnRise
  generalize s0.at t = s at hen href ⊢
  dsimp only
  rw [if_neg (by rw [hen]; decide), href, if_neg (by simp)]
  rfl

/-- With every supply in tolerance the sequencer starts. -/
theorem pwrEnRise_starts {s0 : State} {t : Nat} (hen : (s0.at t).pow.en = false) (href : (s0.at t).pow.refused = false)
    (hall : ∀ n < 5, (s0.at t).inTol n (ms 10) = true) : pwrEnRise t s0 =
      { (s0.at t).enabled with pow := { (s0.at t).enabled.pow with seqOn := true, groups := 0, groupAt := (s0.at t).now } } := by
  have hnone : (List.range 5).find? (fun n => !(s0.at t).enabled.inTol n (ms 10)) = none := by
    refine List.find?_eq_none.2 fun n hn => ?_
    rw [show (s0.at t).enabled.inTol n (ms 10) = true from hall n (List.mem_range.1 hn)]
    decide
  rw [pwrEnRise_runs hen href, hnone]

/-- With the first supply out of tolerance the rise is latched as a fault of it. -/
theorem pwrEnRise_fails {s0 : State} {t : Nat} (hen : (s0.at t).pow.en = false) (href : (s0.at t).pow.refused = false)
    (hlow : (s0.at t).inTol 0 (ms 10) = false) : pwrEnRise t s0 = (s0.at t).enabled.latchFault 3 0 := by
  have hsome : (List.range 5).find? (fun n => !(s0.at t).enabled.inTol n (ms 10)) = some 0 :=
    List.find?_cons_of_pos (by rw [show (s0.at t).enabled.inTol 0 (ms 10) = false from hlow]; rfl)
  rw [pwrEnRise_runs hen href, hsome]

/-! The monitors' samples (18 R475). -/

theorem State.showMon_value (s : State) (n v : Nat) : (s.showMon n v).getF (PWR_MON n) pmVALUE = min v 0xFFFF := by
  unfold State.showMon
  dsimp only
  rw [State.getF_setF_lo _ _ _ (by decide), State.getF_setF_lo _ _ _ (by decide), State.getF_setF_same]
  exact Nat.mod_eq_of_lt (Nat.lt_succ_of_le (Nat.min_le_right v 0xFFFF))

theorem State.showMon_ne (s : State) {n m : Nat} (v : Nat) (h : n ≠ m) {f : FD} (hf : f.lo < 64) :
    (s.showMon n v).getF (PWR_MON m) f = s.getF (PWR_MON m) f := by
  unfold State.showMon
  dsimp only
  rw [State.getF_setF_addr _ _ (PWR_MON_ne h) (by decide) hf, State.getF_setF_addr _ _ (PWR_MON_ne h) (by decide) hf,
    State.getF_setF_addr _ _ (PWR_MON_ne h) (by decide) hf]

/-- What the sequencer's view of a state is. -/
def State.seqView (s : State) : (Nat → FD → Nat) × Bool × Bool × Bool := (s.getF, s.pow.en, s.pow.good, s.pow.seqOn)

/-- While the sequencer does not run on an enabled device, a sample changes what is remembered of the supplies alone. -/
theorem State.seqSample_idle {s : State} (v : Nat → Nat) (hen : s.pow.en = true) (hseq : s.pow.seqOn = false) :
    (s.seqSample v).seqView = s.seqView := by
  unfold State.seqSample
  extract_lets was w f src u islands late
  have hw : w.seqView = s.seqView := by
    unfold w
    refine foldl_keeps (R := State.seqView) (fun u n _ => ?_) s
    rfl
  have hu : u.seqView = s.seqView := hw
  have hen' : u.pow.en = true := (congrArg (fun x => x.2.1) hu).trans hen
  have hseq' : u.pow.seqOn = false := (congrArg (fun x => x.2.2.2) hu).trans hseq
  rw [if_pos hen', if_pos (.inr (by rw [hseq']; rfl))]
  exact hu

theorem State.dropMode_getF (s : State) {a : Nat} {f : FD} (h : CLK_STATUS ≠ a) (hf : f.lo < 64) : s.dropMode.getF a f = s.getF a f :=
  (State.getF_setF_addr _ (f := ckPENDMODE) 0 h (by decide) hf).trans (State.getF_setF_addr s (f := ckPEND) 0 h (by decide) hf)

theorem State.judgeIslands_getF (s : State) {a : Nat} {f : FD} (h : clockReg a = true) (hf : f.lo < 64) :
    s.judgeIslands.getF a f = s.getF a f := by
  have hA : (if s.monOut 3 = true ∨ s.monOut 30 = true then s.failIsland false else s).getF a f = s.getF a f := by
    split
    · exact s.failIsland_getF false h hf
    · rfl
  unfold State.judgeIslands
  generalize (if s.monOut 3 = true ∨ s.monOut 30 = true then s.failIsland false else s) = u at hA ⊢
  dsimp only
  split
  · exact (u.failIsland_getF true h hf).trans hA
  · exact hA

/-- Each monitor shows its sample. -/
def State.monsShown (s : State) (v : Nat → Nat) : State := (List.range 32).foldl (fun (s : State) n => s.showMon n (v n)) s

theorem State.monsShown_value (s : State) (v : Nat → Nat) {n : Nat} (h : n < 32) :
    (s.monsShown v).getF (PWR_MON n) pmVALUE = min (v n) 0xFFFF := by
  unfold State.monsShown
  exact foldl_changes_once (R := fun u : State => u.getF (PWR_MON n) pmVALUE) (g := fun _ => min (v n) 0xFFFF) (List.mem_range.2 h)
    List.nodup_range (fun u => u.showMon_value n (v n)) (fun u m _ hm => u.showMon_ne (v m) hm (by decide)) s

theorem State.monsShown_pow (s : State) (v : Nat → Nat) : (s.monsShown v).pow = s.pow := by
  unfold State.monsShown
  refine foldl_keeps (R := State.pow) (fun u n _ => ?_) s
  unfold State.showMon
  dsimp only
  rw [State.setF_pow, State.setF_pow, State.setF_pow]

/-- The readings as a sample shows them, before the sequencer sees them. -/
def State.readingsShown (s : State) (v : Nat → Nat) : State :=
  (((s.setF (PWR_MON 29) pmON (b2n s.flc.on)).monsShown v).setF PWR_STATUS pwVBUS (min (v 0) 0xFFFF))

theorem State.readingsShown_getF (s : State) (v : Nat → Nat) : (s.readingsShown v).getF PWR_STATUS pwVBUS = min (v 0) 0xFFFF ∧
    ∀ n < 32, (s.readingsShown v).getF (PWR_MON n) pmVALUE = min (v n) 0xFFFF := by
  unfold State.readingsShown
  refine ⟨(State.getF_setF_same _ _ _ _).trans (Nat.mod_eq_of_lt (Nat.lt_succ_of_le (Nat.min_le_right _ 0xFFFF))), fun n hn => ?_⟩
  exact (State.getF_setF_addr _ (f := pwVBUS) _ (by unfold PWR_STATUS PWR_MON; omega)).trans (State.monsShown_value _ v hn)

theorem State.readingsShown_pow (s : State) (v : Nat → Nat) : (s.readingsShown v).pow = s.pow := by
  unfold State.readingsShown
  rw [State.setF_pow, State.monsShown_pow, State.setF_pow]

/-- Before the main domain's supplies are good a sample shows the readings; what it does besides leaves them. -/
theorem supplyMonitorSample_getF {s0 : State} {mv : List Nat} {t : Nat} (hgood : (s0.at t).pow.good = false)
    (hen : (s0.at t).pow.en = true) (hseq : (s0.at t).pow.seqOn = false) {a : Nat} {f : FD} (ha : clockReg a = true)
    (hne : CLK_STATUS ≠ a) (hf : f.lo < 64) :
    (supplyMonitorSample mv t s0).getF a f = ((s0.at t).readingsShown (fun n => mv.getD n 0)).getF a f := by
  have hpow := (s0.at t).readingsShown_pow (fun n => mv.getD n 0)
  unfold supplyMonitorSample
  extract_lets s v x y z low since src w r e
  have hz : z.seqView = ((s0.at t).readingsShown v).seqView :=
    ((s0.at t).readingsShown v).seqSample_idle v ((congrArg Power.en hpow).trans hen) ((congrArg Power.seqOn hpow).trans hseq)
  have hr : r.getF a f = ((s0.at t).readingsShown v).getF a f ∧ r.pow.good = false := by
    have hw : w.getF a f = ((s0.at t).readingsShown v).getF a f ∧ w.pow.good = false :=
      ⟨congrFun (congrFun (congrArg Prod.fst hz) a) f, (congrArg (fun x => x.2.2.1) hz).trans ((congrArg Power.good hpow).trans hgood)⟩
    unfold r
    split
    · exact ⟨(w.dropMode_getF hne hf).trans hw.1, hw.2⟩
    · exact hw
  rw [if_pos (by rw [hr.2]; rfl)]
  split
  · exact (r.judgeIslands_getF ha hf).trans hr.1
  · exact hr.1

/-! The power limiter (18 R471). -/

/-- A power sample as the registers and the limiter's memory show it, before the limiter judges it. -/
def State.powerShown (s : State) (mw ma : Nat) : State :=
  let l := (mw :: s.pow.samples).take 100
  let u : State := { s with pow := { s.pow with samples := l, winSum := s.pow.winSum + mw, winN := s.pow.winN + 1 } }
  (u.setF PWR_STATUS pwIBUS (min ma 0xFFFF)).setF PWR_STATUS pwPOWER (min (l.foldl (fun n v => n + v) 0 / (100 * l.length)) 0xFFFF)

theorem State.powerShown_getF (s : State) (mw ma : Nat) :
    (s.powerShown mw ma).getF PWR_STATUS pwIBUS = min ma 0xFFFF ∧
      (s.powerShown mw ma).getF PWR_STATUS pwPOWER =
        min (((mw :: s.pow.samples).take 100).foldl (fun n v => n + v) 0 / (100 * ((mw :: s.pow.samples).take 100).length)) 0xFFFF ∧
      (s.powerShown mw ma).getF PWR_STATUS pwCAP = s.getF PWR_STATUS pwCAP := by
  unfold State.powerShown
  dsimp only
  refine ⟨?_, ?_, ?_⟩
  · rw [State.getF_setF_lo _ _ _ (by decide), State.getF_setF_same]
    exact Nat.mod_eq_of_lt (Nat.lt_succ_of_le (Nat.min_le_right _ 0xFFFF))
  · rw [State.getF_setF_same]
    exact Nat.mod_eq_of_lt (Nat.lt_succ_of_le (Nat.min_le_right _ 0xFFFF))
  · rw [State.getF_setF_lo _ _ _ (by decide), State.getF_setF_lo _ _ _ (by decide)]
    rfl

/-- The limiter changes neither a register nor its samples. -/
theorem State.limitPower_keeps (s : State) (sum : Nat) : (s.limitPower sum).regs = s.regs ∧ (s.limitPower sum).pow.samples = s.pow.samples := by
  unfold State.limitPower
  extract_lets cap d rest low since src u
  split
  · exact ⟨rfl, rfl⟩
  · clear_value since
    cases since with
    | none => exact ⟨rfl, rfl⟩
    | some a =>
      dsimp only
      split
      · exact ⟨rfl, rfl⟩
      · exact ⟨rfl, rfl⟩

/-- Above nine tenths of the cap, a limiter that rests takes one step down. -/
theorem State.limitPower_slower {s : State} {sum : Nat} (h : 90 * s.getF PWR_STATUS pwCAP * 100 < sum) (hat : s.pow.pwrAt = none)
    (hnext : s.pow.pwrNext = some 4) : (s.limitPower sum).pow.pwrNext = some (slower 4) := by
  unfold State.limitPower
  extract_lets cap d rest low since src u
  have hd : d = 4 := by
    unfold d
    rw [hnext]
    rfl
  have hrest : rest = true := by
    unfold rest
    rw [hat]
  rw [if_pos ⟨h, by omega, hrest⟩, hd]

/-! Shutdown and loss of VBUS (18 R476, R477). -/

/-- The device as an orderly shutdown finds it: supplies no longer asked for, FREEZE clear. -/
def State.fallen (s : State) : State :=
  ({ s with pow := { s.pow with en := false, offAt := s.now } } : State).setF SIL_CTRL silFREEZE 0

theorem State.fallen_serves (s : State) (b : Bool) : s.fallen.islandServes b = s.islandServes b := State.serves_setF _ _ b (by decide)

theorem State.fallen_calVal (s : State) : s.fallen.calVal = s.calVal := by
  have htrim : ∀ d < 17, s.fallen.getF (TRIM d) tmSTEPS = s.getF (TRIM d) tmSTEPS := fun d hd =>
    State.getF_setF_addr _ (f := silFREEZE) 0 (by unfold SIL_CTRL silBase TRIM clkBase; omega)
  have hfold : (List.range 17).foldl (fun m d => Tab.set 0 m d (Tab.get (s.fallen.getF (TRIM d) tmSTEPS) s.pow.trimNext d)) [] =
      (List.range 17).foldl (fun m d => Tab.set 0 m d (Tab.get (s.getF (TRIM d) tmSTEPS) s.pow.trimNext d)) [] :=
    List.foldl_ext _ _ _ fun m d hd => by rw [htrim d (List.mem_range.1 hd)]
  exact congrArg (StoreVal.calib _ _ _) hfold

theorem State.fallen_shutBuffer (s : State) : s.fallen.shutBuffer =
    (if s.cal.dirty then [(2, s.calVal)] else []) ++ [(3, .quar s.quarTable), (4, (s.setF SIL_CTRL silFREEZE 0).silImage)] := by
  unfold State.shutBuffer
  rw [s.fallen_calVal]
  rfl

/-- What the shutdown buffer holds once PWR_EN has fallen. -/
def State.buffered (s : State) : State :=
  if s.pow.good ∧ s.pow.released ∧ s.islandServes false then { s with shut := s.shutBuffer } else s

theorem pwrEnFall_runs {s0 : State} {t : Nat} (hen : (s0.at t).pow.en = true) : pwrEnFall t s0 =
    (if (s0.at t).fallen.buffered.pow.good then (s0.at t).fallen.buffered.mainReset else (s0.at t).fallen.buffered).railsOff := by
  unfold pwrEnFall
  exact if_neg (by rw [hen]; decide)

/-- The instant at which a main-domain supply was last out is noted. -/
def State.outNoted (s : State) : State := { s with pow := { s.pow with outAt := s.now } }

theorem State.outNoted_pow (s : State) : s.outNoted.pow = { s.pow with outAt := s.now } := rfl

theorem State.outNoted_getF (s : State) (a : Nat) (f : FD) : s.outNoted.getF a f = s.getF a f := rfl

theorem State.outNoted_serves (s : State) (b : Bool) : s.outNoted.islandServes b = s.islandServes b := State.serves_of_regs rfl b

/-- A loss of VBUS holds the main domain, whose rails go off. -/
theorem vbusLoss_runs {s0 : State} {t : Nat} (hen : (s0.at t).pow.en = true) (hgood : (s0.at t).pow.good = true)
    (hs : (s0.at t).islandServes false = true) : ∃ u : State, vbusLoss t s0 = u.raiseSafe 5 ∧
      u.pow.hold = setBit (s0.at t).pow.hold 4 ∧ u.pow.good = false ∧ ∀ n < 24, u.getF (PWR_MON (n + 5)) pmON = 0 := by
  generalize hv : ({ s0.at t with pow := { (s0.at t).pow with hold := setBit (s0.at t).pow.hold 4 } } : State) = v
  obtain ⟨-, -, -, -, hpow, hserve⟩ := v.mainReset_shows
  have hvserve : v.islandServes false = true := by
    subst hv
    exact hs
  have hoff : v.mainReset.railsOff.outNoted.islandServes false = true := by
    rw [State.outNoted_serves, State.railsOff_serves, hserve, hvserve]
  have hhold : (s0.at t).holdMain 4 false = v.mainReset := by
    subst hv
    exact if_neg (by show ¬(!(s0.at t).pow.good) = true; rw [hgood]; decide)
  have hrun : vbusLoss t s0 = if v.mainReset.railsOff.outNoted.islandServes false ∨ v.mainReset.railsOff.outNoted.islandServes true
      then v.mainReset.railsOff.outNoted.raiseSafe 5 else v.mainReset.railsOff.outNoted := by
    unfold vbusLoss
    dsimp only
    rw [if_neg (by rw [hen, hgood]; decide), hhold]
    rfl
  refine ⟨v.mainReset.railsOff.outNoted, hrun.trans (if_pos (.inl hoff)), ?_, ?_, fun n hn => ?_⟩
  · rw [State.outNoted_pow, State.railsOff_pow, hpow, ← hv]
    rfl
  · rw [State.outNoted_pow, State.railsOff_pow]
  · rw [State.outNoted_getF]
    exact v.mainReset.railsOff_off hn

end Sys2Proof.Machine

open Sys2Proof.Machine

/-- Settles O50: each command's own checks pass under the premises, and its writes are read back. -/
theorem powerResults : Obligations.PowerResults := by
  unfold Obligations.PowerResults
  intro s0 t s
  refine ⟨?_, ?_, ?_, ?_, ?_, ?_, ?_, ?_, ?_, ?_⟩
  · intro hen href
    refine ⟨fun hall => ⟨_, congrArg Host.Outcome.next (pwrEnRise_starts hen href hall), rfl, rfl, rfl, rfl⟩, fun hlow => ?_⟩
    obtain ⟨hv, hc, hsup, hr, hseq⟩ := State.latchFault_shows (s := s.enabled) 3 0 rfl
    exact ⟨_, congrArg Host.Outcome.next (pwrEnRise_fails hen href hlow), hv, hc, hsup, hr, hseq⟩
  · intro st g hseq hg
    have hg12 : g = 1 ∨ g = 2 := by omega
    have hrun : railGroupGood st t s0 = if s.pow.groupAt + ms 10 < s.now then s.latchFault 5 s.lateRail
        else { s.railsOn g with pow := { (s.railsOn g).pow with groups := g, groupAt := (s.railsOn g).now } } := by
      unfold railGroupGood
      dsimp only
      rw [if_neg (by rw [show (s0.at t).pow.seqOn = true from hseq]; decide)]
      exact if_congr Iff.rfl rfl (if_pos hg)
    refine ⟨fun hle => ⟨_, congrArg Host.Outcome.next (hrun.trans (if_neg (Nat.not_lt.2 hle))), rfl, s.railsOn_now hg12, fun n hn => ?_⟩,
      fun hlt href => ⟨_, congrArg Host.Outcome.next (hrun.trans (if_pos hlt)), ?_, ?_⟩⟩
    · exact Prod.ext_iff.1 (s.railsOn_on hg12 hn)
    · exact (State.latchFault_shows 5 s.lateRail href).2.1
    · exact (State.latchFault_shows 5 s.lateRail href).2.2.2.2
  · intro mv hgood hen hseq
    obtain ⟨hbus, hval⟩ := s.readingsShown_getF (fun n => mv.getD n 0)
    refine ⟨_, rfl, ?_, fun n hn => ?_⟩
    · exact (supplyMonitorSample_getF hgood hen hseq (by decide) (by decide) (by decide)).trans hbus
    · exact (supplyMonitorSample_getF hgood hen hseq (PWR_MON_clock hn) (by unfold CLK_STATUS PWR_MON; omega) (by decide)).trans (hval n hn)
  · intro hen
    have hrun := pwrEnFall_runs hen
    have hbuf : s.fallen.buffered.pow = s.fallen.pow := by
      unfold State.buffered
      split
      · rfl
      · rfl
    have hoff : (if s.fallen.buffered.pow.good then s.fallen.buffered.mainReset else s.fallen.buffered).pow.en = false ∧
        (if s.fallen.buffered.pow.good then s.fallen.buffered.mainReset else s.fallen.buffered).pow.offAt = s.now := by
      split
      · obtain ⟨-, -, -, -, hpow, -⟩ := s.fallen.buffered.mainReset_shows
        rw [hpow, hbuf]
        exact ⟨rfl, rfl⟩
      · rw [hbuf]
        exact ⟨rfl, rfl⟩
    refine ⟨_, congrArg Host.Outcome.next hrun, ?_, ?_, ?_, fun n hn => State.railsOff_off _ hn, fun hgood hrel hs => ?_⟩
    · rw [State.railsOff_pow]
      exact hoff.1
    · rw [State.railsOff_pow]
    · rw [State.railsOff_pow]
      exact hoff.2
    · obtain ⟨-, -, -, hshut, -, -⟩ := s.fallen.buffered.mainReset_shows
      rw [State.railsOff_shut, if_pos (by rw [hbuf]; exact hgood), hshut, ← s.fallen_shutBuffer]
      unfold State.buffered
      rw [if_pos ⟨hgood, hrel, (s.fallen_serves false).trans hs⟩]
  · intro hen hgood hs
    obtain ⟨u, hrun, hhold, hgood', hoff⟩ := vbusLoss_runs hen hgood hs
    refine ⟨_, congrArg Host.Outcome.next hrun, ?_, ?_, (u.raiseSafe_raises (by decide)).1, fun n hn => ?_⟩
    · rw [(u.raiseSafe_now_pow 5).2, hhold]
      simp
    · rw [(u.raiseSafe_now_pow 5).2, hgood']
    · rw [State.raiseSafe_getF _ 5 (by unfold SAFE_STATUS unitBlk PWR_MON clkBase; omega) (.inl (by decide)) (by decide)]
      exact hoff n hn
  · intro hen hhold hseq h0 h1
    refine congrArg Host.Outcome.next ?_
    unfold vbusRestore
    exact if_pos ⟨hen, hhold, by rw [hseq]; rfl, h0, h1⟩
  · intro a ha hs hm hdue hp
    refine congrArg Host.Outcome.next ?_
    unfold vbusLowThroughput
    dsimp only
    rw [show (s0.at t).pow.vbusLow = some a from ha]
    exact if_pos ⟨hs, hm, hdue, by rw [show (s0.at t).flag CLK_STATUS ckPEND = false from hp]; rfl⟩
  · intro mw ma l sum
    obtain ⟨hibus, hpower, hcap⟩ := s.powerShown_getF mw ma
    have hrun : powerLimiterSample mw ma t s0 = if l.length = 100 then (s.powerShown mw ma).limitPower sum else s.powerShown mw ma := rfl
    by_cases hl : l.length = 100
    · obtain ⟨hregs, hsamples⟩ := (s.powerShown mw ma).limitPower_keeps sum
      refine ⟨_, congrArg Host.Outcome.next (hrun.trans (if_pos hl)), hsamples, ?_, ?_, fun _ hsum hat hnext => ?_⟩
      · exact (State.getF_of_regs hregs _ _).trans hibus
      · exact (State.getF_of_regs hregs _ _).trans hpower
      · exact State.limitPower_slower (hcap.symm ▸ hsum) hat hnext
    · exact ⟨_, congrArg Host.Outcome.next (hrun.trans (if_neg hl)), rfl, hibus, hpower, fun h => absurd h hl⟩
  · intro hs
    refine congrArg Host.Outcome.next ?_
    unfold voltageRamp
    exact if_pos hs
  · intro b hb hdue
    refine ⟨congrArg Host.Outcome.next ?_, (s.raiseSafe_raises (by decide)).1⟩
    unfold powerCycle
    dsimp only
    rw [show (s0.at t).sup.warmSince = some b from hb]
    exact if_pos hdue


/-! PROOFS. Reset pins, the clock monitor and the trips -/

namespace Sys2Proof.Machine

set_option Elab.async false

theorem State.raiseSafe_flc_jobs (s : State) (k : Nat) : (s.raiseSafe k).flc = s.flc ∧ (s.raiseSafe k).jobs = s.jobs := by
  unfold State.raiseSafe
  extract_lets was u v w y x
  have hv : v = { u with regs := v.regs } := u.showReason_eq
  have hx : x.flc = s.flc ∧ x.jobs = s.jobs := ⟨by show State.flc v = _; rw [hv]; rfl, by show State.jobs v = _; rw [hv]; rfl⟩
  split
  · exact hx
  · have hc := Pushes.event x 27
    exact ⟨by show State.flc (x.event 27) = _; rw [hc.eq]; exact hx.1, hc.jobs.trans hx.2⟩

theorem State.beginWarm_flc (s : State) (ladder : Bool) : (s.beginWarm ladder).flc = s.flc := by
  unfold State.beginWarm
  extract_lets u l lim y v
  have hu : u.flc = s.flc := by
    unfold u
    split
    · exact (s.raiseSafe_flc_jobs 1).1
    · rfl
  split
  · exact hu
  · split
    · exact ((v.raiseSafe_flc_jobs 10).1).trans hu
    · exact hu

/-- A cold reset keeps the holds by PORST_N, RESET_N and VBUS. -/
theorem bit_and_nineteen {m : Nat} (h : bit m 0 = true) : bit (m &&& 19) 0 = true := by
  have h0 : m.testBit 0 = true := by simpa [bit] using h
  have hand : (m &&& 19).testBit 0 = true := by rw [Nat.testBit_and, h0]; rfl
  simpa [bit] using hand

/-- The state as hold `k` begins. -/
def State.held (s : State) (k : Nat) : State := { s with pow := { s.pow with hold := setBit s.pow.hold k } }

theorem State.holdMain_good {s : State} (k : Nat) (ladder : Bool) (h : s.pow.good = true) :
    s.holdMain k ladder = (if ladder then (s.held k).beginWarm true else s.held k).mainReset :=
  if_neg (by show ¬(!s.pow.good) = true; rw [h]; decide)

/-- A hold of the main domain: units and jobs at their reset values, the hold set, what the islands and the Flacon have kept. -/
theorem State.holdMain_shows {s : State} (k : Nat) (ladder : Bool) (h : s.pow.good = true) :
    (s.holdMain k ladder).jobs = State.reset.jobs ∧ (s.holdMain k ladder).units = State.reset.units ∧ (s.holdMain k ladder).flc = s.flc ∧
      bit (s.holdMain k ladder).pow.hold k = true ∧ (s.holdMain k ladder).pow.released = false := by
  have hstart : ∀ u : State, u.pow = (s.held k).pow → u.flc = s.flc → u.mainReset.jobs = State.reset.jobs ∧
      u.mainReset.units = State.reset.units ∧ u.mainReset.flc = s.flc ∧ bit u.mainReset.pow.hold k = true ∧
      u.mainReset.pow.released = false := by
    intro u hpow hflc
    obtain ⟨hjobs, hunits, hflc', -, hpow', -⟩ := u.mainReset_shows
    have hhold : bit (s.held k).pow.mainReset.hold k = true := by
      show bit (setBit s.pow.hold k) k = true
      simp
    rw [hpow', hpow]
    exact ⟨hjobs, hunits, hflc'.trans hflc, hhold, rfl⟩
  rw [State.holdMain_good k ladder h]
  split
  · exact hstart _ ((s.held k).beginWarm_now_pow true).2 ((s.held k).beginWarm_flc true)
  · exact hstart _ rfl rfl

theorem State.holdMain_serves {s : State} (k : Nat) (h : s.pow.good = true) (b : Bool) :
    (s.holdMain k false).islandServes b = s.islandServes b := by
  obtain ⟨-, -, -, -, -, hserve⟩ := (s.held k).mainReset_shows
  rw [State.holdMain_good k false h]
  exact hserve b

end Sys2Proof.Machine

open Sys2Proof.Machine

/-- Settles O51: the cold reset and the hold of the main domain leave the reset values; the releases follow their branches. -/
theorem resetPinResults : Obligations.ResetPinResults := by
  unfold Obligations.ResetPinResults
  intro s0 t s
  refine ⟨?_, ?_, ?_, ?_, ?_, ?_, rfl, rfl, ?_⟩
  · obtain ⟨hjobs, hunits, hsil, hstores, hflc, hnow, hhold⟩ := (s.held 0).coldReset_shows
    have hsame : SameStores s (s.held 0) := ⟨rfl, rfl⟩
    refine ⟨(s.held 0).coldReset, rfl, ?_, hjobs, hunits, hsil, hstores.trans hsame.cutWrites.1, hflc, hnow⟩
    rw [hhold]
    exact bit_and_nineteen (by show bit (setBit s.pow.hold 0) 0 = true; simp)
  · intro st hhold hgood
    refine congrArg Host.Outcome.next ?_
    unfold porstNRelease
    dsimp only
    rw [if_neg (by rw [show bit (s0.at t).pow.hold 0 = true from hhold]; decide), if_pos hgood]
  · intro h0 h1 hgood
    obtain ⟨hjobs, hunits, hflc, hhold, hrel⟩ := s.holdMain_shows 1 true hgood
    refine ⟨s.holdMain 1 true, congrArg Host.Outcome.next ?_, hhold, hjobs, hunits, hflc, hrel⟩
    show resetNLow t s0 = _
    unfold resetNLow
    exact if_neg (by rw [show bit (s0.at t).pow.hold 0 = false from h0, show bit (s0.at t).pow.hold 1 = false from h1]; decide)
  · intro st h0 h1 hhold hgood
    refine congrArg Host.Outcome.next ?_
    have hrel : s.releaseMain st 1 2 = State.warmStart { s with pow := { s.pow with hold := 0 } } st 2 := by
      unfold State.releaseMain
      dsimp only
      rw [hhold]
      exact if_pos ⟨rfl, hgood⟩
    rw [← hrel]
    unfold resetNRelease
    exact if_neg (by rw [show bit (s0.at t).pow.hold 0 = false from h0, show bit (s0.at t).pow.hold 1 = true from h1]; decide)
  · intro hs hgood
    have hu : (s.setF CLK_STATUS ckLOCK 0).pow.good = true := hgood
    obtain ⟨hjobs, -, -, hhold, -⟩ := State.holdMain_shows 3 false hu
    have hserve : ((s.setF CLK_STATUS ckLOCK 0).holdMain 3 false).islandServes false = true :=
      (State.holdMain_serves 3 hu false).trans ((State.serves_setF s 0 false (by decide)).trans hs)
    generalize hv : (s.setF CLK_STATUS ckLOCK 0).holdMain 3 false = v at hjobs hhold hserve
    refine ⟨v.raiseSafe 7, congrArg Host.Outcome.next ?_, ?_, (v.raiseSafe_raises (by decide)).1, ?_⟩
    · show clockFault t s0 = _
      unfold clockFault
      dsimp only
      rw [show ((s0.at t).setF CLK_STATUS ckLOCK 0).holdMain 3 false = v from hv]
      exact if_pos hserve
    · rw [(v.raiseSafe_now_pow 7).2]
      exact hhold
    · rw [(v.raiseSafe_flc_jobs 7).2]
      exact hjobs
  · intro d hd hgood
    generalize hu : ({ s with pow := { s.pow with below100 := none } } : State) = u
    have hgood' : u.pow.good = true := by
      subst hu
      exact hgood
    obtain ⟨-, hunits, -, hhold, -⟩ := State.holdMain_shows 2 false hgood'
    refine ⟨(u.holdMain 2 false).setF RST_STATUS rtCAUSE 4, congrArg Host.Outcome.next ?_, hhold, ?_, hunits⟩
    · subst hu
      exact if_pos hd
    · rw [State.getF_setF_same]
      rfl
  · intro st hhold hs hlast
    exact congrArg Host.Outcome.next (if_pos ⟨hhold, hs, hlast⟩)


/-! PROOFS. Temperatures, coolant and ageing -/

namespace Sys2Proof.Machine

set_option Elab.async false

/-! Sensors (18 R481). -/

theorem THERM_clock {d i : Nat} (hd : d < 21) (hi : i < 8) : clockReg (THERM d (i / 4)) = true := by
  unfold clockReg THERM clkBase silBase
  exact decide_eq_true (by omega)

/-- A judged reading lies in the range of a sensor. -/
theorem judgeSensor_range {l : List Nat} {i : Nat} {x : Int} (h : judgeSensor l i = some x) : -550 ≤ x ∧ x ≤ 1500 := by
  unfold judgeSensor at h
  split at h
  next => cases h
  next y hy =>
    dsimp only at h
    split at h
    next => cases h
    next =>
      obtain rfl : y = x := Option.some.inj h
      unfold reading at hy
      dsimp only at hy
      split at hy
      next => cases hy
      next hr =>
        rw [Option.some.inj hy] at hr
        omega

/-- The 16-bit pattern of a reading in range reads back as the reading. -/
theorem sensor_pattern {x : Int} (hlo : -550 ≤ x) (hhi : x ≤ 1500) :
    (x % 65536).toNat < 2 ^ 16 ∧ (x % 65536).toNat ≠ 0x8000 ∧ signedOf 16 (x % 65536).toNat = x := by
  unfold signedOf
  dsimp only
  refine ⟨by omega, by omega, ?_⟩
  split <;> omega

/-- What a sample shows of sensor `i` of die `d`. -/
def State.showSensor (s : State) (d : Nat) (l : List Nat) (i : Nat) : State :=
  match judgeSensor l i with
  | some x => s.setF (THERM d (i / 4)) (thS (i % 4)) (x % 65536).toNat
  | none => (if (s.sensor d i).isSome then s.noBin else s).setF (THERM d (i / 4)) (thS (i % 4)) 0x8000

theorem State.sensor_showSensor_same (s : State) (d : Nat) (l : List Nat) (i : Nat) : (s.showSensor d l i).sensor d i = judgeSensor l i := by
  unfold State.showSensor State.sensor
  cases hj : judgeSensor l i with
  | none =>
    dsimp only
    rw [State.getF_setF_same]
    rfl
  | some x =>
    obtain ⟨hlo, hhi⟩ := judgeSensor_range hj
    obtain ⟨hlt, hne, hx⟩ := sensor_pattern hlo hhi
    dsimp only
    rw [State.getF_setF_same, show (thS (i % 4)).w = 16 from rfl, Nat.mod_eq_of_lt hlt, if_neg hne, hx]

/-- Different sensors stand at different places. -/
theorem sensor_key_ne {d e i j : Nat} (hi : i < 8) (hj : j < 8) (h : e ≠ d ∨ j ≠ i) :
    (thS (j % 4)).key (THERM e (j / 4)) ≠ (thS (i % 4)).key (THERM d (i / 4)) := by
  have hlo : ∀ k, (thS k).lo = 16 * k := fun _ => rfl
  unfold FD.key
  rw [hlo, hlo]
  unfold THERM
  omega

theorem State.sensor_showSensor_ne (s : State) {d e i j : Nat} (l : List Nat) (hi : i < 8) (hj : j < 8) (h : e ≠ d ∨ j ≠ i) :
    (s.showSensor e l j).sensor d i = s.sensor d i := by
  have hset : ∀ (u : State) (v : Nat), u.sensor d i = s.sensor d i →
      (u.setF (THERM e (j / 4)) (thS (j % 4)) v).sensor d i = s.sensor d i := by
    intro u v hu
    rw [← hu]
    unfold State.sensor
    rw [State.getF_setF_ne _ _ (sensor_key_ne hi hj h)]
  unfold State.showSensor
  split
  · exact hset s _ rfl
  · refine hset _ _ ?_
    split
    · rfl
    · rfl

theorem State.showSensors_eq (s : State) (d : Nat) (l : List Nat) :
    s.showSensors d l = (List.range 8).foldl (fun s i => s.showSensor d l i) s := rfl

theorem State.sensor_showSensors (s : State) {d e i : Nat} (l : List Nat) (hi : i < 8) :
    (s.showSensors e l).sensor d i = if e = d then judgeSensor l i else s.sensor d i := by
  rw [State.showSensors_eq]
  split
  next h =>
    subst h
    exact foldl_changes_once (R := fun u : State => u.sensor e i) (g := fun _ => judgeSensor l i) (List.mem_range.2 hi) List.nodup_range
      (fun u => u.sensor_showSensor_same e l i) (fun u j hj hne => u.sensor_showSensor_ne l hi (List.mem_range.1 hj) (.inr hne)) s
  next h =>
    exact foldl_keeps (R := fun u : State => u.sensor d i)
      (fun u j hj => u.sensor_showSensor_ne l hi (List.mem_range.1 hj) (.inl h)) s

/-- The state in which every sensor shows its sample. -/
def State.sensorsShown (s : State) (vals : List Nat) : State :=
  (List.range 21).foldl (fun (s : State) d => s.showSensors d ((vals.drop (8 * d)).take 8)) s

theorem State.sensorsShown_sensor (s : State) (vals : List Nat) {d i : Nat} (hd : d < 21) (hi : i < 8) :
    (s.sensorsShown vals).sensor d i = judgeSensor ((vals.drop (8 * d)).take 8) i := by
  unfold State.sensorsShown
  refine foldl_changes_once (R := fun u : State => u.sensor d i) (g := fun _ => judgeSensor ((vals.drop (8 * d)).take 8) i)
    (List.mem_range.2 hd) List.nodup_range (fun u => ?_) (fun u e _ hne => ?_) s
  · exact (u.sensor_showSensors _ hi).trans (if_pos rfl)
  · exact (u.sensor_showSensors _ hi).trans (if_neg hne)

/-! Thermal control (18 R482). -/

/-- What raises or ends reason 0x44 leaves the clock and supply block and the supplies' own state. -/
theorem State.clearSafe_getF (s : State) (k : Nat) {a : Nat} {f : FD} (h : SAFE_STATUS ≠ a) (hf : f.lo < 64) :
    (s.clearSafe k).getF a f = s.getF a f := by
  unfold State.clearSafe State.showReason
  split
  · exact (State.getF_setF_addr _ (f := safREASON) _ h (by decide) hf).trans (State.getF_setF_addr s (f := safACTIVE) _ h (by decide) hf)
  · exact State.getF_setF_addr s (f := safACTIVE) _ h (by decide) hf

theorem State.clearSafe_now_pow (s : State) (k : Nat) : (s.clearSafe k).now = s.now ∧ (s.clearSafe k).pow = s.pow := by
  unfold State.clearSafe State.showReason
  split
  · exact ⟨rfl, rfl⟩
  · exact ⟨rfl, rfl⟩

/-- The supplies' state with the runs of samples below 100 °C, up to 110 °C and from 105 °C on, and the instant of the last tick. -/
def Power.seen (p : Power) (below100 below110 : Option Nat) (hot msAt : Nat) : Power :=
  { p with below100 := below100, below110 := below110, hot := hot, msAt := msAt }

theorem Power.seen_thermAt (p : Power) (b100 b110 : Option Nat) (hot msAt : Nat) : (p.seen b100 b110 hot msAt).thermAt = p.thermAt := rfl

/-- A state with another state of the supplies. -/
def State.withPow (s : State) (p : Power) : State := { s with pow := p }

theorem State.withPow_shows (s : State) (p : Power) : (s.withPow p).regs = s.regs ∧ (s.withPow p).pow = p := ⟨rfl, rfl⟩

/-- How many ticks in a row have read 105 °C or more after a sample of `tj`. -/
def State.hotRun (s : State) (tj : Int) : Nat :=
  if decide (s.pow.msAt + ms 1 ≤ s.now) then (if 1050 ≤ tj then min 10 (s.pow.hot + 1) else 0) else s.pow.hot

/-- The runs of hot and cool samples after one of `tj`. -/
def State.thermSeen (s : State) (tj : Int) : State :=
  s.withPow (s.pow.seen (runSince (decide (tj < 1000)) s.pow.below100 s.now) (runSince (decide (tj ≤ 1100)) s.pow.below110 s.now)
    (s.hotRun tj) (if decide (s.pow.msAt + ms 1 ≤ s.now) then s.now else s.pow.msAt))

theorem State.thermSeen_regs (s : State) (tj : Int) : (s.thermSeen tj).regs = s.regs := (s.withPow_shows _).1

theorem State.thermSeen_thermAt (s : State) (tj : Int) : (s.thermSeen tj).pow.thermAt = s.pow.thermAt :=
  (congrArg Power.thermAt (s.withPow_shows _).2).trans (Power.seen_thermAt s.pow _ _ _ _)

/-- Reason 0x44 is raised or ends. -/
def State.judgeHot (s : State) (tj : Int) : State :=
  if 1150 < tj then s.raiseSafe 4 else if lasted s.pow.below110 (sec 10) s.now then s.clearSafe 4 else s

/-- The divider steps down where `slow` holds and up where `fast` does, if it rests. -/
def State.stepDivider (s : State) (slow fast : Prop) [Decidable slow] [Decidable fast] (d : Nat) : State :=
  if slow ∧ s.thermRest (sec 1) then s.thermStep (slower d)
  else if fast ∧ s.thermRest (sec 5) then s.thermStep (faster d)
  else s

theorem State.thermControl_eq (s : State) (tj : Int) : s.thermControl tj = ((s.thermSeen tj).judgeHot tj).stepDivider
    (decide (s.pow.msAt + ms 1 ≤ s.now) = true ∧ s.hotRun tj = 10 ∧ s.pow.thermNext.getD (s.getF CLK_STATUS ckTHERM) < 8)
    (lasted (s.thermSeen tj).pow.below100 (sec 5) ((s.thermSeen tj).judgeHot tj).now = true ∧
      4 < s.pow.thermNext.getD (s.getF CLK_STATUS ckTHERM))
    (s.pow.thermNext.getD (s.getF CLK_STATUS ckTHERM)) := by
  unfold State.stepDivider
  simp only [and_assoc]
  rfl

theorem State.stepDivider_getF (s : State) (slow fast : Prop) [Decidable slow] [Decidable fast] (d a : Nat) (f : FD) :
    (s.stepDivider slow fast d).getF a f = s.getF a f := by
  unfold State.stepDivider
  split
  · rfl
  · split
    · rfl
    · rfl

theorem State.judgeHot_pow (s : State) (tj : Int) : (s.judgeHot tj).pow = s.pow := by
  unfold State.judgeHot
  split
  · exact (s.raiseSafe_now_pow 4).2
  · split
    · exact (s.clearSafe_now_pow 4).2
    · rfl

theorem State.judgeHot_getF (s : State) (tj : Int) {a : Nat} {f : FD} (ha : clockReg a = true) (hf : f.lo < 64) :
    (s.judgeHot tj).getF a f = s.getF a f := by
  obtain ⟨hfree, -⟩ := clockReg_free ha
  obtain ⟨hsil, -, hsafe, -⟩ : _ ∧ _ := of_decide_eq_true hfree
  unfold State.judgeHot
  split
  · exact s.raiseSafe_getF 4 hsafe.symm (.inr hsil.symm) hf
  · split
    · exact s.clearSafe_getF 4 hsafe.symm hf
    · rfl

/-- Thermal control leaves the clock and supply block, and above 115 °C reason 0x44 is active. -/
theorem State.thermControl_shows (s : State) (tj : Int) :
    (∀ a f, clockReg a = true → f.lo < 64 → (s.thermControl tj).getF a f = s.getF a f) ∧
      (1150 < tj → bit ((s.thermControl tj).getF SAFE_STATUS safACTIVE) 4 = true) := by
  refine ⟨fun a f ha hf => ?_, fun h => ?_⟩
  · rw [s.thermControl_eq, State.stepDivider_getF, State.judgeHot_getF _ _ ha hf, State.getF_of_regs (s.thermSeen_regs tj)]
  · rw [s.thermControl_eq, State.stepDivider_getF, State.judgeHot, if_pos h]
    exact ((s.thermSeen tj).raiseSafe_raises (by decide)).1

/-- The tenth sample in a row at 105 °C or more slows a divider that rests. -/
theorem State.thermControl_slower {s : State} {tj : Int} (h : 1050 ≤ tj) (hhot : s.pow.hot = 9) (htick : s.pow.msAt + ms 1 ≤ s.now)
    (hat : s.pow.thermAt = none) (hnext : s.pow.thermNext = some 4) : (s.thermControl tj).pow.thermNext = some (slower 4) := by
  have hten : s.hotRun tj = 10 := by
    rw [State.hotRun, if_pos (decide_eq_true htick), if_pos h, hhot]
    rfl
  have hrest : ((s.thermSeen tj).judgeHot tj).thermRest (sec 1) = true := by
    unfold State.thermRest
    rw [State.judgeHot_pow, s.thermSeen_thermAt, hat]
  rw [s.thermControl_eq, hnext]
  generalize (s.thermSeen tj).judgeHot tj = v at hrest ⊢
  unfold State.stepDivider
  rw [if_pos ⟨⟨decide_eq_true htick, hten, by rw [Option.getD_some]; decide⟩, hrest⟩]
  rfl

theorem State.hottest_of_regs {s t : State} {d : Nat} (hd : d < 21)
    (h : ∀ a f, clockReg a = true → f.lo < 64 → t.getF a f = s.getF a f) : t.hottest d = s.hottest d := by
  unfold State.hottest
  refine List.foldl_ext _ _ _ fun m i hi => ?_
  have hlo : (thS (i % 4)).lo < 64 := by
    show 16 * (i % 4) < 64
    omega
  unfold State.sensor
  rw [h _ _ (THERM_clock hd (List.mem_range.1 hi)) hlo]

/-- A sample with the main domain's supplies not good, island A serving and the guest no hotter than 115 °C. -/
theorem thermalSample_controls {s0 : State} {vals : List Nat} {t : Nat} (hs : ((s0.at t).sensorsShown vals).islandServes false = true)
    (hgood : ((s0.at t).sensorsShown vals).pow.good = false)
    (hguest : ∀ x, ((s0.at t).sensorsShown vals).hottest 20 = some x → x ≤ 1150) :
    thermalSample vals t s0 = ((s0.at t).sensorsShown vals).thermControl ((s0.at t).sensorsShown vals).deviceTj := by
  have hhot := State.hottest_of_regs (d := 20) (by decide)
    (((s0.at t).sensorsShown vals).thermControl_shows ((s0.at t).sensorsShown vals).deviceTj).1
  unfold thermalSample
  extract_lets s r u v
  have hr : r = (s0.at t).sensorsShown vals := by delta State.sensorsShown; rfl
  have hu : u = (s0.at t).sensorsShown vals := by
    unfold u
    rw [hr]
    exact if_neg fun h => absurd (hgood.symm.trans h.1) (by decide)
  have hv : v = ((s0.at t).sensorsShown vals).thermControl ((s0.at t).sensorsShown vals).deviceTj := by
    unfold v
    rw [hu]
    exact if_pos hs
  rw [hv, hhot]
  split
  next x hx => exact if_neg (Int.not_lt.2 (hguest x hx))
  next => rfl

/-! Coolant loss (18 R484, R485). -/

/-- The third rise in a row, in a window of like power, is a loss of coolant. -/
theorem State.coolNext_lost {s : State} {rise : Int} {sum pw : Nat} {before : List (Nat × Nat)} (hst : s.getF COOL_STATUS coSTATE < 2)
    (hrising : s.pow.rising = 2) (hrise : 12 < rise) : (s.coolNext rise true sum pw before).getF COOL_STATUS coSTATE = 2 ∧
      (s.coolNext rise true sum pw before).pow.windows = s.pow.windows := by
  have hrun : s.coolNext rise true sum pw before =
      (({ s with pow := { s.pow with rising := 0 } } : State).setF COOL_STATUS coSTATE 2).askMode 3 s.now := by
    unfold State.coolNext
    split
    next h => omega
    next h => omega
    next =>
      rw [if_pos ⟨hrise, rfl⟩]
      dsimp only
      rw [hrising]
      rfl
  rw [hrun]
  refine ⟨?_, rfl⟩
  exact (State.getF_setF_addr _ (f := ckPENDMODE) 3 (by decide)).trans ((State.getF_setF_addr _ (f := ckPEND) 1 (by decide)).trans
    (State.getF_setF_same _ _ _ _))

/-- The windows after one of sum `sum` and power `pw`, and the rise that it shows. -/
def State.windowKept (s : State) (sum pw : Nat) (rise : Int) : State :=
  ({ s with pow := { s.pow with windows := ((sum, pw) :: s.pow.windows).take 61, winSum := 0, winN := 0 } } : State).setF COOL_STATUS coRISE
    ((rise * 10 / 4) % 65536).toNat

theorem coolantWindow_judges {s0 : State} {t s1 p1 : Nat} {w : List (Nat × Nat)} (hs : (s0.at t).islandServes false = true)
    (hw : (s0.at t).pow.windows = (s1, p1) :: w) :
    let sum := ((s0.at t).baseSum + 2200).toNat
    let pw := (s0.at t).pow.winSum / max 1 (s0.at t).pow.winN
    let rise : Int := (sum : Int) - (s1 : Int)
    coolantWindow t s0 = ((s0.at t).windowKept sum pw rise).coolNext rise (near10 pw p1) sum pw (s0.at t).pow.windows := by
  unfold coolantWindow
  generalize s0.at t = s at hs hw ⊢
  dsimp only
  rw [hs, if_neg (by decide)]
  unfold State.windowKept
  rw [hw]

/-! Ageing (18 R486, R487). -/

theorem TRIM_ne {d e : Nat} (h : e ≠ d) : TRIM e ≠ TRIM d := by
  unfold TRIM
  omega

/-- A die that asks for more trim than it has, where none waits, gets one step. -/
def trimNext (age steps : Nat) (waits : Option Nat) : Option Nat :=
  if waits.getD steps < min 12 (age / 50) then some (waits.getD steps + 1) else waits

theorem State.trimAfter_eq (s : State) (d : Nat) : s.trimAfter d = (Tab.find s.pow.trimNext d).getD (s.getF (TRIM d) tmSTEPS) := by
  unfold State.trimAfter Tab.get
  cases Tab.find s.pow.trimNext d with
  | none => rfl
  | some _ => rfl

/-- The registers of a die after its age is measured, before a step is asked for. -/
def State.ageShown (s : State) (d age : Nat) : State :=
  let u := s.setF (TRIM d) tmAGE age
  if u.trimAfter d = 12 ∧ 650 ≤ age ∧ !u.flag (TRIM d) tmLIMIT then (u.setF (TRIM d) tmLIMIT 1).noBin else u

theorem State.ageShown_pow (s : State) (d age : Nat) : (s.ageShown d age).pow = s.pow := by
  unfold State.ageShown
  dsimp only
  split
  · rfl
  · rfl

theorem State.ageShown_getF (s : State) {d age : Nat} (h : age < 2 ^ 16) : (s.ageShown d age).getF (TRIM d) tmAGE = age ∧
    (s.ageShown d age).getF (TRIM d) tmSTEPS = s.getF (TRIM d) tmSTEPS := by
  have hu : (s.setF (TRIM d) tmAGE age).getF (TRIM d) tmAGE = age := (State.getF_setF_same _ _ _ _).trans (Nat.mod_eq_of_lt h)
  unfold State.ageShown
  dsimp only
  split
  · exact ⟨(State.getF_setF_lo _ _ (f := tmLIMIT) (g := tmAGE) 1 (by decide)).trans hu,
      (State.getF_setF_lo _ _ (f := tmLIMIT) (g := tmSTEPS) 1 (by decide)).trans (State.getF_setF_lo s _ (f := tmAGE) _ (by decide))⟩
  · exact ⟨hu, State.getF_setF_lo s _ _ (by decide)⟩

theorem State.ageShown_ne (s : State) {d e : Nat} (age : Nat) {f : FD} (h : e ≠ d) (hf : f.lo < 64) :
    (s.ageShown e age).getF (TRIM d) f = s.getF (TRIM d) f := by
  have hu : (s.setF (TRIM e) tmAGE age).getF (TRIM d) f = s.getF (TRIM d) f := State.getF_setF_addr s _ (TRIM_ne h) (by decide) hf
  unfold State.ageShown
  dsimp only
  split
  · exact (State.getF_setF_addr _ (f := tmLIMIT) 1 (TRIM_ne h) (by decide) hf).trans hu
  · exact hu

theorem State.ageDie_eq (s : State) (d age : Nat) : s.ageDie d age =
    if 17 ≤ d then s.setF (TRIM d) tmAGE (min age 0xFFFF)
    else if (s.setF (TRIM d) tmAGE (min age 0xFFFF)).trimAfter d < min 12 (min age 0xFFFF / 50) then
      { s.ageShown d (min age 0xFFFF) with
        pow := { (s.ageShown d (min age 0xFFFF)).pow with
          trimNext := Tab.insert (s.ageShown d (min age 0xFFFF)).pow.trimNext d
            ((s.setF (TRIM d) tmAGE (min age 0xFFFF)).trimAfter d + 1) },
        cal := { (s.ageShown d (min age 0xFFFF)).cal with dirty := true } }
    else s.ageShown d (min age 0xFFFF) := rfl

theorem State.ageDie_age (s : State) (d age : Nat) : (s.ageDie d age).getF (TRIM d) tmAGE = min age 0xFFFF := by
  have hlt : min age 0xFFFF < 2 ^ 16 := Nat.lt_succ_of_le (Nat.min_le_right age 0xFFFF)
  rw [State.ageDie_eq]
  split
  · exact (State.getF_setF_same _ _ _ _).trans (Nat.mod_eq_of_lt hlt)
  · split
    · exact (s.ageShown_getF hlt).1
    · exact (s.ageShown_getF hlt).1

/-- A main-domain die's trim after its age is measured. -/
theorem State.ageDie_trim (s : State) {d : Nat} (age : Nat) (hd : d < 17) :
    ((s.ageDie d age).getF (TRIM d) tmSTEPS, Tab.find (s.ageDie d age).pow.trimNext d) =
      (s.getF (TRIM d) tmSTEPS, trimNext (min age 0xFFFF) (s.getF (TRIM d) tmSTEPS) (Tab.find s.pow.trimNext d)) := by
  have hlt : min age 0xFFFF < 2 ^ 16 := Nat.lt_succ_of_le (Nat.min_le_right age 0xFFFF)
  have hafter : (s.setF (TRIM d) tmAGE (min age 0xFFFF)).trimAfter d = (Tab.find s.pow.trimNext d).getD (s.getF (TRIM d) tmSTEPS) := by
    rw [State.trimAfter_eq, State.getF_setF_lo _ _ _ (by decide)]
    rfl
  rw [State.ageDie_eq, if_neg (by omega), hafter]
  unfold trimNext
  split
  · exact Prod.ext (s.ageShown_getF hlt).2 Tab.find_insert_same
  · exact Prod.ext (s.ageShown_getF hlt).2 (by rw [s.ageShown_pow])

/-- Another die's age leaves a die's registers and its waiting trim. -/
theorem State.ageDie_ne (s : State) {d e : Nat} (age : Nat) (h : e ≠ d) :
    (∀ f : FD, f.lo < 64 → (s.ageDie e age).getF (TRIM d) f = s.getF (TRIM d) f) ∧
      Tab.find (s.ageDie e age).pow.trimNext d = Tab.find s.pow.trimNext d ∧ (s.ageDie e age).pow.ageAt = s.pow.ageAt := by
  rw [State.ageDie_eq]
  split
  · exact ⟨fun f hf => State.getF_setF_addr s _ (TRIM_ne h) (by decide) hf, rfl, rfl⟩
  · split
    · refine ⟨fun f hf => s.ageShown_ne _ h hf, ?_, ?_⟩
      · rw [s.ageShown_pow]
        exact Tab.find_insert_ne h
      · rw [s.ageShown_pow]
    · refine ⟨fun f hf => s.ageShown_ne _ h hf, ?_, ?_⟩
      · rw [s.ageShown_pow]
      · rw [s.ageShown_pow]

end Sys2Proof.Machine

open Sys2Proof.Machine

/-- Settles O52: a sample shows what each sensor is judged to be, and control, coolant and ageing follow their branches. -/
theorem thermalResults : Obligations.ThermalResults := by
  unfold Obligations.ThermalResults
  intro s0 t s
  refine ⟨?_, ?_, ?_⟩
  · intro vals r hs hgood hguest
    obtain ⟨-, hactive⟩ := r.thermControl_shows r.deviceTj
    exact ⟨congrArg Host.Outcome.next (thermalSample_controls hs hgood hguest), fun d hd i hi => s.sensorsShown_sensor vals hd hi,
      hactive, fun h hhot htick hat hnext => State.thermControl_slower h hhot htick hat hnext⟩
  · intro s1 p1 w sum pw hs hw hst hrising hrise hnear
    have hrun := coolantWindow_judges hs hw
    have hst' : (s.windowKept sum pw ((sum : Int) - (s1 : Int))).getF COOL_STATUS coSTATE < 2 :=
      lt_of_eq_of_lt (State.getF_setF_lo _ _ (f := coRISE) (g := coSTATE) _ (by decide)) hst
    obtain ⟨hlost, hwin⟩ := State.coolNext_lost (rise := (sum : Int) - (s1 : Int)) (sum := sum) (pw := pw) (before := s.pow.windows)
      hst' hrising hrise
    have hrun' : coolantWindow t s0 =
        (s.windowKept sum pw ((sum : Int) - (s1 : Int))).coolNext ((sum : Int) - (s1 : Int)) true sum pw s.pow.windows := by
      rw [← hnear]
      exact hrun
    exact ⟨_, congrArg Host.Outcome.next hrun', hlost, hwin⟩
  · intro ages hs hgood hhold hdue hnone
    generalize hu : ({ s with pow := { s.pow with ageAt := s.now } } : State) = u
    have hrun : ageingMeasure ages t s0 = (List.range 21).foldl (fun (s : State) d => s.ageDie d (ages.getD d 0)) u := by
      subst hu
      exact if_pos ⟨hs, hgood, hhold, hdue⟩
    refine ⟨_, congrArg Host.Outcome.next hrun, ?_, fun d hd => ?_, fun d hd hlow => ?_⟩
    · refine (foldl_keeps (R := fun v : State => v.pow.ageAt) (fun v e he => (v.ageDie_ne (d := 21) _ ?_).2.2) u).trans ?_
      · exact Nat.ne_of_lt (List.mem_range.1 he)
      · subst hu
        rfl
    · exact foldl_changes_once (R := fun v : State => v.getF (TRIM d) tmAGE) (g := fun _ => min (ages.getD d 0) 0xFFFF)
        (List.mem_range.2 hd) List.nodup_range (fun v => v.ageDie_age d _) (fun v e _ hne => (v.ageDie_ne _ hne).1 tmAGE (by decide)) u
    · have htrim := foldl_changes_once (R := fun v : State => (v.getF (TRIM d) tmSTEPS, Tab.find v.pow.trimNext d))
        (g := fun x => (x.1, trimNext (min (ages.getD d 0) 0xFFFF) x.1 x.2)) (f := fun (s : State) d => s.ageDie d (ages.getD d 0))
        (List.mem_range.2 (show d < 21 by omega)) List.nodup_range (fun v => v.ageDie_trim _ hd)
        (fun v e _ hne => Prod.ext ((v.ageDie_ne _ hne).1 tmSTEPS (by decide)) (v.ageDie_ne _ hne).2.1) u
      have hsteps : u.getF (TRIM d) tmSTEPS = s.getF (TRIM d) tmSTEPS := by
        subst hu
        rfl
      have hwait : Tab.find u.pow.trimNext d = none := by
        subst hu
        exact congrArg (fun m => Tab.find m d) hnone
      refine (Prod.ext_iff.1 htrim).2.trans ?_
      dsimp only
      rw [hsteps, hwait]
      exact if_pos hlow


/-! PROOFS. Register writes by their fields' access codes -/

namespace Sys2Proof.Machine

set_option Elab.async false

/-! Fields of one register stand apart (00 R5). -/

/-- Two fields share no bit. -/
def FD.apart (f g : FD) : Bool := decide (f.lo + f.w ≤ g.lo ∨ g.lo + g.w ≤ f.lo)

/-- The fields of a register share no bit and lie within a word. -/
def fieldsApart (fs : List FD) : Bool :=
  decide fs.Nodup && fs.all fun f => decide (0 < f.w ∧ f.lo + f.w ≤ 64) && fs.all fun g => decide (g = f) || g.apart f

section
variable {fs : List FD} (h : fieldsApart fs = true)
include h

theorem fieldsApart.nodup : fs.Nodup := of_decide_eq_true ((Bool.and_eq_true _ _).mp h).1

theorem fieldsApart.bounds {f : FD} (hf : f ∈ fs) : 0 < f.w ∧ f.lo + f.w ≤ 64 :=
  of_decide_eq_true ((Bool.and_eq_true _ _).mp (List.all_eq_true.1 ((Bool.and_eq_true _ _).mp h).2 f hf)).1

theorem fieldsApart.apart {f g : FD} (hf : f ∈ fs) (hg : g ∈ fs) (hne : g ≠ f) : g.lo + g.w ≤ f.lo ∨ f.lo + f.w ≤ g.lo := by
  have hall := ((Bool.and_eq_true _ _).mp (List.all_eq_true.1 ((Bool.and_eq_true _ _).mp h).2 f hf)).2
  have hgf := List.all_eq_true.1 hall g hg
  rw [decide_eq_false hne] at hgf
  exact of_decide_eq_true hgf

theorem fieldsApart.lo_ne {f g : FD} (hf : f ∈ fs) (hg : g ∈ fs) (hne : g ≠ f) : g.lo ≠ f.lo := by
  have hf0 := fieldsApart.bounds h hf
  have hg0 := fieldsApart.bounds h hg
  have hgf := fieldsApart.apart h hf hg hne
  omega

end

theorem fieldsApart_ite {c : Prop} [Decidable c] {x y : List FD} (hx : fieldsApart x = true) (hy : fieldsApart y = true) :
    fieldsApart (if c then x else y) = true := by
  split
  · exact hx
  · exact hy

theorem regRows_apart : (regRows.all fun r => fieldsApart r.fs) = true := by decide +kernel

theorem windowFields_apart (o : Nat) : fieldsApart (windowFields o) = true :=
  fieldsApart_ite rfl (fieldsApart_ite rfl (fieldsApart_ite rfl rfl))

theorem queueFields_apart (o : Nat) : fieldsApart (queueFields o) = true :=
  fieldsApart_ite rfl (fieldsApart_ite rfl (fieldsApart_ite rfl (fieldsApart_ite rfl rfl)))

theorem mailboxFields_apart (o : Nat) : fieldsApart (mailboxFields o) = true :=
  fieldsApart_ite rfl (fieldsApart_ite rfl (fieldsApart_ite rfl (fieldsApart_ite rfl (fieldsApart_ite rfl (fieldsApart_ite rfl
    (fieldsApart_ite rfl (fieldsApart_ite rfl rfl)))))))

theorem engineFields_apart (u o : Nat) : fieldsApart (engineFields u o) = true :=
  fieldsApart_ite
    (fieldsApart_ite rfl (fieldsApart_ite rfl (fieldsApart_ite rfl (fieldsApart_ite rfl (fieldsApart_ite rfl rfl)))))
    (fieldsApart_ite (fieldsApart_ite rfl (fieldsApart_ite rfl rfl)) (fieldsApart_ite (fieldsApart_ite rfl (fieldsApart_ite rfl rfl))
      (fieldsApart_ite (fieldsApart_ite rfl (fieldsApart_ite rfl rfl))
        (fieldsApart_ite rfl (fieldsApart_ite rfl (fieldsApart_ite rfl (fieldsApart_ite rfl rfl)))))))

theorem unitFields_apart (u o : Nat) : fieldsApart (unitFields u o) = true :=
  fieldsApart_ite (fieldsApart_ite rfl rfl) (fieldsApart_ite (fieldsApart_ite rfl rfl) (fieldsApart_ite (fieldsApart_ite rfl rfl)
    (fieldsApart_ite rfl (fieldsApart_ite rfl (fieldsApart_ite (fieldsApart_ite rfl rfl) (fieldsApart_ite (fieldsApart_ite rfl rfl)
    (fieldsApart_ite rfl (fieldsApart_ite (fieldsApart_ite rfl rfl) (fieldsApart_ite rfl
    (fieldsApart_ite (fieldsApart_ite (windowFields_apart _) rfl) (fieldsApart_ite rfl (fieldsApart_ite (queueFields_apart _)
    (fieldsApart_ite (fieldsApart_ite (windowFields_apart _) (mailboxFields_apart _))
    (fieldsApart_ite rfl (engineFields_apart _ _)))))))))))))))

/-- The fields of every register stand apart. -/
theorem regFields_apart (a : Nat) : fieldsApart (regFields a) = true := by
  refine fieldsApart_ite (unitFields_apart _ _) ?_
  cases hr : regRows.find? (fun r => r.covers a) with
  | none => rfl
  | some r => exact List.all_eq_true.1 regRows_apart r (List.mem_of_find?_eq_some hr)

/-! The bits of a register's word. -/

/-- Bits of a word lie within the fields of a list. -/
def bitsWithin (m : Nat) (fs : List FD) : Prop := ∀ i, m.testBit i = true → ∃ f ∈ fs, f.lo ≤ i ∧ i < f.lo + f.w

/-- A field's value at its place has its bits within the field. -/
theorem bitsWithin_field (v : Nat) (f : FD) : bitsWithin (v % 2 ^ f.w * 2 ^ f.lo) [f] := by
  intro i hi
  rw [Nat.testBit_mul_two_pow, Bool.and_eq_true] at hi
  obtain ⟨hle, hbit⟩ := hi
  have hle : f.lo ≤ i := of_decide_eq_true hle
  rw [Nat.testBit_mod_two_pow, Bool.and_eq_true] at hbit
  have hlt : i - f.lo < f.w := of_decide_eq_true hbit.1
  exact ⟨f, List.mem_singleton_self f, hle, by omega⟩

/-- Numbers that share no bit add without a carry. -/
theorem add_eq_or_of_and {m n : Nat} (h : m &&& n = 0) : m + n = m ||| n := by
  have hm : m < 2 ^ (m + n) := Nat.lt_of_le_of_lt (Nat.le_add_right m n) Nat.lt_two_pow_self
  have hn : n < 2 ^ (m + n) := Nat.lt_of_le_of_lt (Nat.le_add_left n m) Nat.lt_two_pow_self
  have hand : BitVec.ofNat (m + n) m &&& BitVec.ofNat (m + n) n = 0#(m + n) := by
    rw [← BitVec.ofNat_and, h]
  have hor := congrArg BitVec.toNat (BitVec.add_eq_or_of_and_eq_zero _ _ hand)
  rw [← BitVec.ofNat_add, ← BitVec.ofNat_or, BitVec.toNat_ofNat, BitVec.toNat_ofNat, Nat.mod_eq_of_lt Nat.lt_two_pow_self,
    Nat.mod_eq_of_lt (Nat.or_lt_two_pow hm hn)] at hor
  exact hor

/-- Words whose bits lie within fields that share none add without a carry. -/
theorem bitsWithin_add {m n : Nat} {f : FD} {fs : List FD} (hm : bitsWithin m fs) (hn : bitsWithin n [f])
    (h : ∀ g ∈ fs, g.lo + g.w ≤ f.lo ∨ f.lo + f.w ≤ g.lo) : bitsWithin (m + n) (f :: fs) := by
  have hand : m &&& n = 0 := by
    refine Nat.eq_of_testBit_eq fun i => ?_
    rw [Nat.testBit_and, Nat.zero_testBit, Bool.and_eq_false_iff]
    by_contra hboth
    rw [not_or, Bool.not_eq_false, Bool.not_eq_false] at hboth
    obtain ⟨g, hg, hgl, hgh⟩ := hm i hboth.1
    obtain ⟨f', hf', hfl, hfh⟩ := hn i hboth.2
    obtain rfl := List.mem_singleton.1 hf'
    have hgf := h g hg
    omega
  intro i hi
  rw [add_eq_or_of_and hand, Nat.testBit_or, Bool.or_eq_true] at hi
  rcases hi with hi | hi
  · obtain ⟨g, hg, hin⟩ := hm i hi
    exact ⟨g, List.mem_cons_of_mem f hg, hin⟩
  · obtain ⟨g, hg, hin⟩ := hn i hi
    exact ⟨g, List.mem_cons.2 (.inl (List.mem_singleton.1 hg)), hin⟩

/-- A register's word has its bits within its fields. -/
theorem State.wordF_within (s : State) (a : Nat) {fs : List FD} (h : fieldsApart fs = true) : bitsWithin (s.wordF a fs) fs := by
  have hfold : ∀ l done : List FD, ∀ m, (∀ f ∈ l, f ∈ fs) → (∀ f ∈ done, f ∈ fs) → l.Nodup → (∀ f ∈ l, f ∉ done) → bitsWithin m done →
      bitsWithin (l.foldl (fun w f => w + s.getF a f % 2 ^ f.w * 2 ^ f.lo) m) fs := by
    intro l
    induction l with
    | nil =>
      intro done m _ hdone _ _ hm i hi
      obtain ⟨f, hf, hin⟩ := hm i hi
      exact ⟨f, hdone f hf, hin⟩
    | cons x l ih =>
      intro done m hl hdone hnodup hnot hm
      obtain ⟨hx, hnodup⟩ := List.nodup_cons.1 hnodup
      have hxfs : x ∈ fs := hl x List.mem_cons_self
      refine ih (x :: done) _ (fun f hf => hl f (List.mem_cons_of_mem x hf)) ?_ hnodup ?_ ?_
      · exact List.forall_mem_cons.2 ⟨hxfs, hdone⟩
      · intro f hf hmem
        rcases List.mem_cons.1 hmem with rfl | hmem
        · exact hx hf
        · exact hnot f (List.mem_cons_of_mem x hf) hmem
      · refine bitsWithin_add hm (bitsWithin_field _ x) fun g hg => fieldsApart.apart h hxfs (hdone g hg) ?_
        exact fun e => hnot x List.mem_cons_self (e ▸ hg)
  refine hfold fs [] 0 (fun f hf => hf) (fun f hf => absurd hf List.not_mem_nil) (fieldsApart.nodup h) (fun f _ => List.not_mem_nil) ?_
  intro i hi
  rw [Nat.zero_testBit] at hi
  cases hi

/-! What a write does to a register (00 R6). -/

/-- What a write of `w` makes of a field that holds `v`. -/
def FD.written (f : FD) (v w : Nat) : Nat :=
  match f.acc with
  | .rw => f.of w
  | .w1c => (v - (v &&& f.of w)) % 2 ^ f.w
  | .w1s => (v ||| f.of w) % 2 ^ f.w
  | .ro | .wo => v

theorem State.getF_writeF_same (s : State) (a : Nat) (f : FD) (w : Nat) : (s.writeF a f w).getF a f = f.written (s.getF a f) w := by
  obtain ⟨lo, width, acc, reset⟩ := f
  cases acc with
  | rw => exact (State.getF_setF_same _ _ _ _).trans (Nat.mod_mod _ _)
  | w1c => exact State.getF_setF_same _ _ _ _
  | w1s => exact State.getF_setF_same _ _ _ _
  | ro => rfl
  | wo => rfl

theorem State.getF_writeF_ne (s : State) {a b : Nat} {f g : FD} (w : Nat) (h : g.key a ≠ f.key b) :
    (s.writeF a g w).getF b f = s.getF b f := by
  unfold State.writeF
  split
  · exact State.getF_setF_ne s _ h
  · exact State.getF_setF_ne s _ h
  · exact State.getF_setF_ne s _ h
  · rfl
  · rfl

theorem State.writeF_eq (s : State) (a : Nat) (f : FD) (w : Nat) : s.writeF a f w = { s with regs := (s.writeF a f w).regs } := by
  unfold State.writeF
  split
  · rfl
  · rfl
  · rfl
  · rfl
  · rfl

section
variable (s : State) (a w : Nat) {fs : List FD} (h : fieldsApart fs = true)
include h

theorem State.getF_writeReg_same {f : FD} (hf : f ∈ fs) : (s.writeReg a fs w).getF a f = f.written (s.getF a f) w := by
  refine foldl_changes_once (R := fun u : State => u.getF a f) (g := fun v => f.written v w) hf (fieldsApart.nodup h)
    (fun u => u.getF_writeF_same a f w) (fun u g hg hne => u.getF_writeF_ne w ?_) s
  have hlo := fieldsApart.lo_ne h hf hg hne
  unfold FD.key
  omega

theorem State.getF_writeReg_ne {b : Nat} {f : FD} (hb : b ≠ a) (hf : f.lo < 64) : (s.writeReg a fs w).getF b f = s.getF b f := by
  refine foldl_keeps (R := fun u : State => u.getF b f) (fun u g hg => u.getF_writeF_ne w ?_) s
  have hg' := fieldsApart.bounds h hg
  unfold FD.key
  omega

end

theorem State.writeReg_mem (s : State) (a : Nat) (fs : List FD) (w : Nat) : (s.writeReg a fs w).mem = s.mem := by
  refine foldl_keeps (R := State.mem) (fun u f _ => ?_) s
  rw [u.writeF_eq]

theorem State.writeReg_congr (s : State) (a : Nat) {fs : List FD} {w w2 : Nat} (h : ∀ f ∈ fs, f.of w2 = f.of w) :
    s.writeReg a fs w2 = s.writeReg a fs w := by
  refine List.foldl_ext _ _ _ fun u f hf => ?_
  unfold State.writeF
  rw [h f hf]

/-! Where a write goes (01 R19). -/

theorem elem_eq_none {a base stride count : Nat} (h : ¬(base ≤ a ∧ a < base + stride * count)) : elem a base stride count = none :=
  if_neg fun hin => h ⟨hin.1, hin.2.1⟩

/-- What each block of the address map means in numbers. -/
theorem blocks : mainSize = 0x540000000 ∧ unitBlk 0 = 0xF0000000000 ∧ unitBlk 64 = 0xF0000400000 ∧ dirBase = 0xF0001000000 ∧
    apBase = 0xF0001080000 ∧ ifBase = 0xF00010A0000 ∧ clkBase = 0xF0001100000 ∧ silBase = 0xF0001200000 ∧ partBase = 0xF0001300000 ∧
    redBase = 0xF0001400000 ∧ trigBase = 0xF0001500000 ∧ linkBase = 0xF0001600000 ∧ mcBase = 0xF0001700000 ∧ flcBase = 0xF0001800000 ∧
    JOB_STAT 0 = 0xF0001301000 ∧ JOB_STAT 255 = 0xF00013017F8 := by decide +kernel

theorem place_regs {a : Nat} (hlo : dirBase ≤ a) (hhi : a + 8 ≤ 0xF0001A00000) : place a 8 = .regs := by
  obtain ⟨hmain, -, hunit, hdir, -⟩ := blocks
  have hspad : spadBase 48 = 0x80030000000 := rfl
  have hcs : csBase 4 = 0x81020000000 := rfl
  unfold place
  rw [if_neg (by omega), if_neg (by omega), if_neg (by omega), if_neg (by omega), if_pos (.inl ⟨hlo, by omega⟩)]

/-- A write of a register of the partition block that is not a job's: island A alone. -/
theorem registerWrite_partition {s : State} {who : Who} {a : Nat} (w : Nat) (hlo : partBase ≤ a) (hhi : a < redBase) (hal : a % 8 = 0)
    (hjob : ¬(JOB_STAT 0 ≤ a ∧ a < JOB_STAT 255)) : registerWrite who a w s = s.byIsland who (s.writeReg a (regFields a) w) := by
  obtain ⟨hmain, hunit0, hunit, hdir, hap, hif, hclk, hsil, hpart, hred, htrig, hlink, hmc, hflc, hj0, hj255⟩ := blocks
  have hplace := place_regs (a := a) (by omega) (by omega)
  have hfiles : ¬((elem a 0xF0001090000 8 0x2000).isSome = true ∨ (elem a 0xF00010C0000 8 0x8000).isSome = true) := by
    rw [elem_eq_none (by omega), elem_eq_none (by omega)]
    simp
  have hstat : ¬(elem a (JOB_STAT 0) 8 255).isSome = true := by
    have hnone : elem a (JOB_STAT 0) 8 255 = none := elem_eq_none fun h => hjob ⟨h.1, by rw [hj0] at h; omega⟩
    rw [hnone]
    simp
  unfold registerWrite
  rw [if_neg (by rw [hplace]; decide), if_neg (by omega), if_neg (by omega), if_neg (by omega), if_neg hfiles, if_neg (by omega),
    if_neg (by omega), if_neg (by omega), if_neg (by omega), if_pos hhi, if_neg hstat]

/-- A write of a fill register by island A while no fill runs. -/
theorem registerWrite_fill {s : State} {a : Nat} (w : Nat) (ha : a = MC_FILL_ADDR ∨ a = MC_FILL_LEN)
    (hidle : s.getF MC_FILL_CTRL fillSTATUS ≠ 1) : registerWrite .islandA a w s = s.writeReg a (regFields a) w := by
  obtain ⟨hmain, hunit0, hunit, hdir, hap, hif, hclk, hsil, hpart, hred, htrig, hlink, hmc, hflc, -⟩ := blocks
  have hrange : 0xF0001700010 ≤ a ∧ a ≤ 0xF0001700018 ∧ a % 8 = 0 := by
    rcases ha with rfl | rfl
    · decide
    · decide
  have hplace := place_regs (a := a) (by omega) (by omega)
  have hfiles : ¬((elem a 0xF0001090000 8 0x2000).isSome = true ∨ (elem a 0xF00010C0000 8 0x8000).isSome = true) := by
    rw [elem_eq_none (by omega), elem_eq_none (by omega)]
    simp
  have hrgn : rgnAt a = none := if_neg (by have : RGN_LO 0 0 = 0xF0001710000 := rfl; omega)
  unfold registerWrite
  rw [if_neg (by rw [hplace]; decide), if_neg (by omega), if_neg (by omega), if_neg (by omega),
    if_neg hfiles, if_neg (by omega), if_neg (by omega), if_neg (by omega),
    if_neg (by omega), if_neg (by omega), if_neg (by omega), if_neg (by omega), if_neg (by omega), if_pos (by omega)]
  unfold State.mcWrite
  rw [hrgn]
  dsimp only
  rw [if_pos ha, if_neg (by decide), if_neg hidle]

/-- A write of a hart's compare register by its partition: the timer interrupt follows at once. -/
theorem registerWrite_timer {s : State} {h : Nat} (w : Nat) (hh : h < 16) :
    registerWrite (.runtime (s.hartPart h)) (MTIMECMP h) w s = (s.writeReg (MTIMECMP h) [mtCMP] w).timerLevel h := by
  obtain ⟨hmain, hunit0, hunit, hdir, hap, hif, hclk, hsil, hpart, hred, htrig, hlink, hmc, hflc, -⟩ := blocks
  have ha : MTIMECMP h = 0xF0001089400 + h * 8 := rfl
  have hplace := place_regs (a := MTIMECMP h) (by omega) (by omega)
  have hnone : elem (MTIMECMP h) (AP_CFG 0) 0x20 8 = none ∧ elem (MTIMECMP h) (AP_SPLIT_PC 0) 0x20 8 = none ∧
      elem (MTIMECMP h) (AP_RESYNC_PC 0) 0x20 8 = none := by
    have hcfg : AP_CFG 0 = 0xF0001089000 := rfl
    have hsplit : AP_SPLIT_PC 0 = 0xF0001089010 := rfl
    have hres : AP_RESYNC_PC 0 = 0xF0001089018 := rfl
    exact ⟨elem_eq_none (by omega), elem_eq_none (by omega), elem_eq_none (by omega)⟩
  have hsome : elem (MTIMECMP h) (MTIMECMP 0) 8 16 = some h := by
    have h0 : MTIMECMP 0 = 0xF0001089400 := rfl
    unfold elem
    rw [if_pos (by omega)]
    exact congrArg some (by omega)
  unfold registerWrite
  rw [if_neg (by rw [hplace]; decide), if_neg (by omega), if_neg (by omega), if_pos (by omega)]
  unfold State.apWrite
  rw [hnone.1, hnone.2.1, hnone.2.2]
  dsimp only
  rw [hsome]
  exact if_pos rfl

end Sys2Proof.Machine

open Sys2Proof.Machine

/-- Settles O56: a write changes each field of its register by the field's access code, and a register's word has the bits of its
fields alone. -/
theorem registerWriteResults : Obligations.RegisterWriteResults := by
  unfold Obligations.RegisterWriteResults
  intro s who a w
  refine ⟨?_, ?_, ?_, ?_, ?_⟩
  · intro hlo hhi hal hjob
    have hrun := fun who w => registerWrite_partition (s := s) (who := who) w hlo hhi hal hjob
    have hfs := regFields_apart a
    refine ⟨⟨s.writeReg a (regFields a) w, congrArg Host.Outcome.next (hrun .islandA w), s.writeReg_mem _ _ _, fun f hf => ?_,
      fun b f hb hf => s.getF_writeReg_ne a w hfs hb hf, fun w2 hw2 => ?_⟩, fun hne => congrArg Host.Outcome.next ?_⟩
    · rw [s.getF_writeReg_same a w hfs hf]
      unfold FD.written
      exact ⟨fun h => by rw [h], fun h => by rw [h], fun h => by rw [h]⟩
    · exact congrArg Host.Outcome.next ((hrun .islandA w2).trans (s.writeReg_congr a hw2))
    · exact (hrun who w).trans (if_neg hne)
  · intro h hh
    generalize hu : s.writeReg (MTIMECMP h) [mtCMP] w = u
    have hcmp : u.getF (MTIMECMP h) mtCMP = w % 2 ^ 64 := by
      have hof : mtCMP.written (s.getF (MTIMECMP h) mtCMP) w = w % 2 ^ 64 := by
        show w / 2 ^ 0 % 2 ^ 64 = _
        rw [Nat.pow_zero, Nat.div_one]
      rw [← hu, s.getF_writeReg_same _ w rfl (List.mem_singleton_self mtCMP), hof]
    have htime : u.hartTime = s.hartTime := by
      subst hu
      rfl
    refine ⟨u.timerLevel h, congrArg Host.Outcome.next ((registerWrite_timer w hh).trans (by rw [hu])), hcmp, ?_⟩
    rw [State.bit_timerLevel, hcmp, htime]
  · intro x hx hidle
    refine congrArg Host.Outcome.next (registerWrite_fill w ?_ hidle)
    simpa using hx
  · intro hplace
    exact congrArg Host.Outcome.next (if_pos hplace)
  · intro i hi hout
    by_contra hbit
    have hone : s.wordF a (regFields a) / 2 ^ i % 2 = 1 := by omega
    obtain ⟨f, hf, hlo, hhi⟩ := s.wordF_within a (regFields_apart a) i (by rw [Nat.testBit_eq_decide_div_mod_eq, hone]; rfl)
    have hnot := hout f hf
    omega


/-! PROOFS. What the device commands leave unchanged -/

namespace Sys2Proof.Machine

set_option Elab.async false

/-! Links (16 R427 to R429). -/

theorem ackReceive_frame (s : State) (l d x t : Nat) :
    ackReceive l d x t s = { s with now := max s.now t, links := (ackReceive l d x t s).links } := by
  unfold ackReceive
  dsimp only
  split
  · rfl
  · rfl

theorem State.guestPacket_idle {s : State} (b : List Nat) (h : s.getF GST_STATUS gtSTATE ≠ 3) : s.guestPacket b = s := by
  unfold State.guestPacket
  dsimp only
  exact if_pos h

/-- A packet that no admitted guest sends changes the links, or the error count of a port in loop-back. -/
theorem packetReceive_frame {s : State} {l d : Nat} (bs : List Nat) (bad : Bool) (t : Nat)
    (h : l ≠ 10 ∨ d ≠ 0 ∨ s.getF GST_STATUS gtSTATE ≠ 3) :
    (∃ x, packetReceive l d bs bad t s = { s.at t with links := x }) ∨
      (s.lkState l = 5 ∧ ∃ v, packetReceive l d bs bad t s = (s.at t).setF (LNK_TEST l) ltERRORS v) := by
  unfold packetReceive
  extract_lets u b x new ok
  split
  · exact .inl ⟨_, rfl⟩
  · split
    next hfive =>
      split
      · exact .inr ⟨hfive, _, rfl⟩
      · exact .inl ⟨_, rfl⟩
    next =>
      split
      · exact .inl ⟨_, rfl⟩
      · split
        · exact .inl ⟨_, rfl⟩
        next y _ =>
          extract_lets z v
          split
          next hguest =>
            refine .inl ⟨_, State.guestPacket_idle (s := v) b ?_⟩
            rcases h with h | h | h
            · exact absurd hguest.1 h
            · exact absurd hguest.2.1 h
            · exact h
          next => exact .inl ⟨_, rfl⟩

/-- `t` is `s` but for the links, the retry count and state of link `l`, and what Sillage counts. -/
structure ReplayOnly (l : Nat) (s t : State) : Prop where
  eq : t = { s with links := t.links, regs := t.regs, sil := t.sil }
  regs : ∀ a f, (f : FD).lo < 64 → a ≠ LNK_RETRY l → a ≠ LNK_STAT l → a ≠ SIL_STATUS → t.getF a f = s.getF a f

theorem ReplayOnly.refl (l : Nat) (s : State) : ReplayOnly l s s := ⟨rfl, fun _ _ _ _ _ _ => rfl⟩

theorem ReplayOnly.trans {l : Nat} {s t u : State} (h : ReplayOnly l s t) (h' : ReplayOnly l t u) : ReplayOnly l s u where
  eq := by rw [h'.eq, h.eq]
  regs a f hf hr hst hs := (h'.regs a f hf hr hst hs).trans (h.regs a f hf hr hst hs)

theorem ReplayOnly.setDir (l : Nat) (s : State) (m d : Nat) (x : LinkDir) : ReplayOnly l s (s.setDir m d x) := ⟨rfl, fun _ _ _ _ _ _ => rfl⟩

theorem ReplayOnly.setF (l : Nat) (s : State) {a : Nat} {f : FD} (v : Nat) (h : a = LNK_RETRY l ∨ a = LNK_STAT l) (hf : f.lo < 64 := by decide) :
    ReplayOnly l s (s.setF a f v) := by
  refine ⟨rfl, fun b g hg hr hst _ => State.getF_setF_addr s v ?_ hf hg⟩
  rcases h with rfl | rfl
  · exact hr.symm
  · exact hst.symm

theorem ReplayOnly.of_counted (l : Nat) {s t : State} (h : Counted s t) : ReplayOnly l s t :=
  ⟨by rw [h.eq], fun a f hf _ _ hs => h.regs a f hs hf⟩

theorem State.replayRound_frame (s : State) (l d : Nat) : ReplayOnly l s (s.replayRound l d) := by
  unfold State.replayRound
  extract_lets x u v
  have hv : ReplayOnly l s v :=
    (ReplayOnly.setDir l s l d _).trans ((ReplayOnly.setF l u (f := cnt64) _ (.inl rfl)).trans (.of_counted l (.sil1 _ 377 _)))
  split
  · exact hv.trans (.setF l v (f := lkSTATE) 3 (.inr rfl))
  · exact hv

theorem nakReceive_frame (s : State) (l d x t : Nat) : ReplayOnly l (s.at t) (nakReceive l d x t s) := by
  unfold nakReceive
  dsimp only
  split
  · exact (s.at t).replayRound_frame l d
  · exact .refl l _

theorem replayTimeout_frame (s : State) (l d t : Nat) : ReplayOnly l (s.at t) (replayTimeout l d t s) := by
  unfold replayTimeout
  dsimp only
  split
  · exact (s.at t).replayRound_frame l d
  · exact .refl l _

/-! The test port and the timer (16 R442; 17 R448). -/

theorem tckCmd_frame (s : State) (tms tdi : Bool) : tckCmd tms tdi s =
    { s with links := { s.links with tap := (tckCmd tms tdi s).links.tap }, free := (tckCmd tms tdi s).free } := by
  unfold tckCmd
  dsimp only
  split
  · rfl
  · rfl

theorem machineTimerCompare_frame (s : State) (x t : Nat) : machineTimerCompare x t s =
    { s with now := max s.now t, ap := { s.ap with mtip := (machineTimerCompare x t s).ap.mtip } } := by
  unfold machineTimerCompare
  dsimp only
  split
  · rfl
  · rfl

/-! Odometry (19 R505). -/

theorem odometryFrame_frame (s : State) (b : Bool) (bs : List Nat) (t : Nat) : odometryFrame b bs t s =
    { s with now := max s.now t, odo := (odometryFrame b bs t s).odo } := by
  unfold odometryFrame
  extract_lets u x f seq fresh
  split
  · rfl
  · split
    · rfl
    · rfl

theorem odometryStale_frame (s : State) (b : Bool) (t : Nat) : odometryStale b t s =
      { s with now := max s.now t, odo := (odometryStale b t s).odo, regs := (odometryStale b t s).regs } ∧
    ∀ a f, (f : FD).lo < 64 → (a ≠ FLC_ODO ∨ f.lo ≠ foV.lo) → (odometryStale b t s).getF a f = s.getF a f := by
  unfold odometryStale
  dsimp only
  split
  · split
    · exact ⟨rfl, fun _ _ _ _ => rfl⟩
    · refine ⟨rfl, fun a f hf ha => State.getF_setF_ne _ 0 ?_⟩
      have hlo : foV.lo < 64 := by decide
      unfold FD.key
      omega
  · exact ⟨rfl, fun _ _ _ _ => rfl⟩

/-! Pairs (17 R453, R454). -/

/-- `t` is `s` but for the cores' state, the interrupt files and the status of pair `p`. -/
structure PairOnly (p : Nat) (s t : State) : Prop where
  eq : t = { s with regs := t.regs, ap := t.ap, imsic := t.imsic }
  regs : ∀ a f, (f : FD).lo < 64 → a ≠ AP_STAT p → t.getF a f = s.getF a f

theorem PairOnly.refl (p : Nat) (s : State) : PairOnly p s s := ⟨rfl, fun _ _ _ _ => rfl⟩

theorem PairOnly.trans {p : Nat} {s t u : State} (h : PairOnly p s t) (h' : PairOnly p t u) : PairOnly p s u where
  eq := by rw [h'.eq, h.eq]
  regs a f hf ha := (h'.regs a f hf ha).trans (h.regs a f hf ha)

theorem PairOnly.setF (p : Nat) (s : State) {f : FD} (v : Nat) (hf : f.lo < 64 := by decide) : PairOnly p s (s.setF (AP_STAT p) f v) :=
  ⟨rfl, fun _ _ hg ha => State.getF_setF_addr s v ha.symm hf hg⟩

theorem PairOnly.setAp (p : Nat) (s : State) (x : AppCores) : PairOnly p s { s with ap := x } := ⟨rfl, fun _ _ _ _ => rfl⟩

theorem PairOnly.parkSecond (p : Nat) (s : State) : PairOnly p s (s.parkSecond p) := ⟨rfl, fun _ _ _ _ => rfl⟩

theorem lockCmd_frame (s : State) (p x : Nat) (m parked : Bool) : PairOnly p s (lockCmd p x m parked s) := by
  unfold lockCmd
  dsimp only
  split
  · exact .refl p s
  · split
    · exact .setF p s _
    · split
      · exact .setF p s _
      · split
        · exact .setF p s _
        · exact (PairOnly.parkSecond p s).trans ((PairOnly.setF p _ 0).trans (.setF p _ 1))

theorem apSplit_frame (s : State) (p x : Nat) (m : Bool) : PairOnly p s (apSplit p x m s) := by
  unfold apSplit
  dsimp only
  split
  · exact .refl p s
  · split
    · exact .setF p s _
    · split
      · exact .setF p s _
      · split
        · exact .setF p s _
        · exact ((PairOnly.setAp p s _).trans ((PairOnly.setF p _ 0).trans (.setF p _ 0))).trans (.setAp p _ _)

/-! Ports (19 R497, R499). -/

/-- `t` is `s` but for port `p`: its own state, the registers of its block and the interrupt lines. -/
structure PortOnly (p : Nat) (s t : State) : Prop where
  eq : t = { s with regs := t.regs, ports := t.ports, aplic := t.aplic }
  ports : ∀ q, q ≠ p → t.port q = s.port q
  regs : ∀ a f, (f : FD).lo < 64 → (a < PORT p ∨ PORT p + 0x1000 ≤ a) → t.getF a f = s.getF a f

theorem PortOnly.refl (p : Nat) (s : State) : PortOnly p s s := ⟨rfl, fun _ _ => rfl, fun _ _ _ _ => rfl⟩

theorem PortOnly.trans {p : Nat} {s t u : State} (h : PortOnly p s t) (h' : PortOnly p t u) : PortOnly p s u where
  eq := by rw [h'.eq, h.eq]
  ports q hq := (h'.ports q hq).trans (h.ports q hq)
  regs a f hf ha := (h'.regs a f hf ha).trans (h.regs a f hf ha)

theorem PortOnly.setF (p : Nat) (s : State) (o : Nat) {f : FD} (v : Nat) (ho : o < 0x1000 := by decide) (hf : f.lo < 64 := by decide) :
    PortOnly p s (s.setF (PORT p + o) f v) :=
  ⟨rfl, fun _ _ => rfl, fun _ _ hg ha => State.getF_setF_addr s v (by omega) hf hg⟩

theorem PortOnly.setPort (p : Nat) (s : State) (x : PortRt) : PortOnly p s (s.setPort p x) :=
  ⟨rfl, fun _ hq => Tab.get_set_ne hq.symm, fun _ _ _ _ => rfl⟩

theorem PortOnly.irq (p : Nat) (s : State) (src k : Nat) : PortOnly p s (s.irq (PORT p) src k) :=
  (PortOnly.setF p s 0x10 _).trans ⟨rfl, fun _ _ => rfl, fun _ _ _ _ => rfl⟩

theorem PortOnly.setSync (p : Nat) (s : State) (v : Nat) : PortOnly p s (s.setSync p v) := by
  unfold State.setSync
  split
  · exact .refl p s
  · exact (PortOnly.setF p s 0 (f := psASSYNC) _).trans (.irq p _ _ _)

theorem gptpSync_frame (s : State) (p x t : Nat) : PortOnly p (s.at t) (gptpSync p x t s) := by
  unfold gptpSync
  dsimp only
  split
  · exact .refl p _
  · exact (PortOnly.setPort p _ _).trans (.setSync p _ 1)

theorem ethLinkChange_frame (s : State) (p : Nat) (up : Bool) (x t : Nat) : PortOnly p (s.at t) (ethLinkChange p up x t s) := by
  unfold ethLinkChange
  extract_lets u ok v src w
  split
  · exact .refl p u
  · have hv : PortOnly p u v := (PortOnly.setF p u 0 (f := psLINK) _).trans (.setF p _ 0 (f := psSPEED) _)
    have hw : PortOnly p v w := by
      unfold w
      split
      · exact .setPort p v _
      · exact .refl p v
    exact (hv.trans hw).trans ((PortOnly.setSync p w 0).trans (.irq p _ _ _))

theorem qbvListInForce_frame (s : State) (p t : Nat) : PortOnly p (s.at t) (qbvListInForce p t s) := by
  unfold qbvListInForce
  extract_lets u base now c start gcl src v
  split
  · exact .refl p u
  · exact (PortOnly.setPort p u _).trans ((PortOnly.setF p v 0x20 (f := qvPENDING) 0).trans (.irq p _ _ _))

theorem gateControlEntry_frame (s : State) (p t : Nat) : PortOnly p (s.at t) (gateControlEntry p t s) := by
  unfold gateControlEntry
  extract_lets u x e
  split
  · exact .refl p u
  · split
    · exact .setPort p u _
    · exact .setPort p u _

/-! Supplies (18 R469, R471). -/

theorem State.limitPower_frame (s : State) (sum : Nat) : s.limitPower sum = { s with pow := (s.limitPower sum).pow } := by
  unfold State.limitPower
  extract_lets cap d rest low since src u
  split
  · rfl
  · clear_value since
    cases since with
    | none => rfl
    | some a =>
      dsimp only
      split
      · rfl
      · rfl

theorem powerLimiterSample_frame (s : State) (x y t : Nat) : powerLimiterSample x y t s =
      { s with now := max s.now t, regs := (powerLimiterSample x y t s).regs, pow := (powerLimiterSample x y t s).pow } ∧
    ∀ a f, (f : FD).lo < 64 → a ≠ PWR_STATUS → (powerLimiterSample x y t s).getF a f = s.getF a f := by
  have hrun : ∃ sum, powerLimiterSample x y t s = (if ((x :: (s.at t).pow.samples).take 100).length = 100
      then ((s.at t).powerShown x y).limitPower sum else (s.at t).powerShown x y) := ⟨_, rfl⟩
  have hshown : ∀ a f, (f : FD).lo < 64 → a ≠ PWR_STATUS → ((s.at t).powerShown x y).getF a f = s.getF a f := fun a f hf ha =>
    (State.getF_setF_addr _ (f := pwPOWER) _ ha.symm (by decide) hf).trans (State.getF_setF_addr _ (f := pwIBUS) _ ha.symm (by decide) hf)
  obtain ⟨sum, hrun⟩ := hrun
  rw [hrun]
  split
  · refine ⟨?_, fun a f hf ha => (State.getF_of_regs (State.limitPower_keeps _ sum).1 _ _).trans (hshown a f hf ha)⟩
    rw [State.limitPower_frame]
    rfl
  · exact ⟨rfl, hshown⟩

/-- A fold of register writes changes registers alone. -/
theorem foldl_regs {α : Type} {f : State → α → State} (h : ∀ s x, f s x = { s with regs := (f s x).regs }) (l : List α) (s : State) :
    l.foldl f s = { s with regs := (l.foldl f s).regs } := by
  induction l generalizing s with
  | nil => rfl
  | cons x l ih =>
    rw [List.foldl_cons, ih, h s x]

theorem State.setRails_frame (s : State) : s.setRails = { s with regs := s.setRails.regs } ∧
    ∀ a f, (f : FD).lo < 64 → (a < PWR_MON 5 ∨ PWR_MON 23 ≤ a) → s.setRails.getF a f = s.getF a f := by
  unfold State.setRails
  refine ⟨foldl_regs (fun _ _ => rfl) _ s, fun a f hf ha => ?_⟩
  refine foldl_keeps (R := fun u : State => u.getF a f) (fun u n hn => State.getF_setF_addr u _ ?_ (by decide) hf) s
  obtain ⟨i, hi, rfl⟩ := List.mem_map.1 hn
  have hi := List.mem_range.1 hi
  unfold PWR_MON at *
  omega

theorem voltageRamp_frame (s : State) (t : Nat) : voltageRamp t s = { s with now := max s.now t, regs := (voltageRamp t s).regs } ∧
    ∀ a f, (f : FD).lo < 64 → (a < PWR_MON 5 ∨ PWR_MON 23 ≤ a) → (voltageRamp t s).getF a f = s.getF a f := by
  have hrun : voltageRamp t s = if (s.at t).islandServes false then (s.at t).setRails else s.at t := rfl
  rw [hrun]
  split
  · exact (s.at t).setRails_frame
  · exact ⟨rfl, fun _ _ _ _ => rfl⟩

end Sys2Proof.Machine

open Sys2Proof.Machine

/-- Settles O58: each command is a few writes, each of which leaves the rest. -/
theorem framesOfDeviceRows : Obligations.FramesOfDeviceRows := by
  unfold Obligations.FramesOfDeviceRows
  intro s l d x y p t b bs
  refine ⟨⟨_, rfl, ackReceive_frame s l d x t⟩, fun h => ?_, ?_, ⟨_, rfl, tckCmd_frame s b _⟩, ?_, ⟨_, rfl, machineTimerCompare_frame s x t⟩,
    ⟨_, rfl, odometryFrame_frame s b bs t⟩, ⟨_, rfl, odometryStale_frame s b t⟩, ?_, ⟨_, rfl, powerLimiterSample_frame s x y t⟩,
    ⟨_, rfl, voltageRamp_frame s t⟩⟩
  · rcases packetReceive_frame bs b t h with ⟨y, hy⟩ | ⟨hfive, v, hv⟩
    · exact ⟨_, congrArg Host.Outcome.next hy, rfl, fun _ => rfl, fun _ _ _ _ => rfl⟩
    · exact ⟨_, congrArg Host.Outcome.next hv, rfl, fun hne => absurd hfive hne,
        fun a f hf ha => State.getF_setF_addr _ (f := ltERRORS) v ha.symm (by decide) hf⟩
  · intro c hc
    simp only [List.mem_cons, List.not_mem_nil, or_false] at hc
    rcases hc with rfl | rfl
    · have hf := nakReceive_frame s l d x t
      exact ⟨_, rfl, hf.eq, hf.regs⟩
    · have hf := replayTimeout_frame s l d t
      exact ⟨_, rfl, hf.eq, hf.regs⟩
  · intro c hc
    simp only [List.mem_cons, List.not_mem_nil, or_false] at hc
    rcases hc with rfl | rfl
    · have hf := lockCmd_frame s p x b b
      exact ⟨_, rfl, hf.eq, hf.regs⟩
    · have hf := apSplit_frame s p x b
      exact ⟨_, rfl, hf.eq, hf.regs⟩
  · intro c hc
    simp only [List.mem_cons, List.not_mem_nil, or_false] at hc
    rcases hc with rfl | rfl | rfl | rfl | rfl
    · have hf := gptpSync_frame s p x t
      exact ⟨_, rfl, hf.eq, hf.ports, hf.regs⟩
    · have hf := PortOnly.setSync p (s.at t) 0
      exact ⟨_, rfl, hf.eq, hf.ports, hf.regs⟩
    · have hf := ethLinkChange_frame s p b x t
      exact ⟨_, rfl, hf.eq, hf.ports, hf.regs⟩
    · have hf := qbvListInForce_frame s p t
      exact ⟨_, rfl, hf.eq, hf.ports, hf.regs⟩
    · have hf := gateControlEntry_frame s p t
      exact ⟨_, rfl, hf.eq, hf.ports, hf.regs⟩


/-! PROOFS. What leaves the OK bit and the heartbeat of island A: registers, memory and errors -/

namespace Sys2Proof.Machine

set_option Elab.async false

/-- The OK bit and the heartbeat of island A in ISL_STATUS, read from the register fields `r`. -/
def islShown (r : Tab Nat) : Nat × Nat :=
  (Tab.get isAOK.reset r (isAOK.key ISL_STATUS), Tab.get isHBA.reset r (isHBA.key ISL_STATUS))

theorem islShown_eq_iff (s t : State) : islShown t.regs = islShown s.regs ↔
    t.getF ISL_STATUS isAOK = s.getF ISL_STATUS isAOK ∧ t.getF ISL_STATUS isHBA = s.getF ISL_STATUS isHBA := Prod.ext_iff

theorem islShown_setF {a : Nat} {f : FD} (s : State) (v : Nat) (ha : a ≠ ISL_STATUS) (hf : f.lo < 64) :
    islShown (s.setF a f v).regs = islShown s.regs :=
  (islShown_eq_iff _ _).mpr ⟨State.getF_setF_addr s v ha hf, State.getF_setF_addr s v ha hf⟩

theorem islShown_ite (c : Prop) [Decidable c] (s t : State) :
    islShown (if c then s else t).regs = if c then islShown s.regs else islShown t.regs := by
  split
  · rfl
  · rfl

theorem islShown_foldl {α : Type} {f : State → α → State} (h : ∀ s x, islShown (f s x).regs = islShown s.regs) (l : List α) (s : State) :
    islShown (l.foldl f s).regs = islShown s.regs :=
  foldl_keeps (R := fun s : State => islShown s.regs) (fun s x _ => h s x) s

/-- A fold that carries a state beside other values. -/
theorem islShown_foldl_fst {α β : Type} {f : State × β → α → State × β} (h : ∀ p x, islShown (f p x).1.regs = islShown p.1.regs)
    (l : List α) (p : State × β) : islShown (l.foldl f p).1.regs = islShown p.1.regs :=
  foldl_keeps (R := fun p : State × β => islShown p.1.regs) (fun p x _ => h p x) p

/-! The addresses of the registers that units, queues, windows, groups and jobs have: none is ISL_STATUS. -/

theorem unitReg_ne (u : Nat) {o : Nat} (h : o < 0x8008 ∨ (0x8008 < o ∧ o < 0x10000)) : unitBlk u + o ≠ ISL_STATUS := by
  unfold ISL_STATUS unitBlk
  omega

theorem above_ne {a : Nat} (h : 0xF0000400000 ≤ a) : a ≠ ISL_STATUS := by
  unfold ISL_STATUS unitBlk
  omega

theorem unit_apart (u : Nat) : UNIT_CTRL u ≠ ISL_STATUS ∧ UNIT_STATUS u ≠ ISL_STATUS ∧ UNIT_SNAP u ≠ ISL_STATUS ∧
    UNIT_PART u ≠ ISL_STATUS ∧ UNIT_RG u ≠ ISL_STATUS ∧ UNIT_SIG u ≠ ISL_STATUS ∧ UNIT_PROGRESS u ≠ ISL_STATUS ∧
    UNIT_PVALID u ≠ ISL_STATUS ∧ ATTN_STATUS u ≠ ISL_STATUS ∧ unitBlk u + 0x8000 ≠ ISL_STATUS :=
  ⟨unitReg_ne u (o := 0) (by decide), unitReg_ne u (by decide), unitReg_ne u (by decide), unitReg_ne u (by decide),
    unitReg_ne u (by decide), unitReg_ne u (by decide), unitReg_ne u (by decide), unitReg_ne u (by decide), unitReg_ne u (by decide),
    unitReg_ne u (by decide)⟩

theorem JOB_STAT_apart (j : Nat) : JOB_STAT j ≠ ISL_STATUS := above_ne (by unfold JOB_STAT partBase; omega)

theorem SCHED_apart (u e : Nat) : SCHED u e ≠ ISL_STATUS := above_ne (by unfold SCHED partBase; omega)

theorem AP_STAT_apart (p : Nat) : AP_STAT p ≠ ISL_STATUS := above_ne (by unfold AP_STAT AP_CFG apBase; omega)

theorem BAR_HART_apart (p : Nat) : BAR_HART p ≠ ISL_STATUS := by
  unfold BAR_HART ISL_STATUS
  omega

theorem group_apart (g : Nat) : RG_CFG g ≠ ISL_STATUS ∧ RG_STAT g ≠ ISL_STATUS ∧ RG_SWITCH g ≠ ISL_STATUS ∧ RG_APREC g ≠ ISL_STATUS := by
  unfold RG_STAT RG_SWITCH RG_APREC RG_CFG redBase
  refine ⟨above_ne ?_, above_ne ?_, above_ne ?_, above_ne ?_⟩
  all_goals omega

theorem target_apart (g t : Nat) : RG_TGT g t ≠ ISL_STATUS ∧ SOLO_TGT g t ≠ ISL_STATUS := by
  unfold RG_TGT SOLO_TGT redBase
  refine ⟨above_ne ?_, above_ne ?_⟩
  all_goals omega

theorem QCFG_apart (q : Nat) {o : Nat} (h : o < 0x40) : QCFG q + o ≠ ISL_STATUS := by
  unfold QCFG
  split
  · unfold unitBlk ISL_STATUS unitBlk
    omega
  · refine above_ne ?_
    unfold GST_QCFG linkBase
    omega

theorem queue_apart (q : Nat) : qRing q ≠ ISL_STATUS ∧ qCtl q ≠ ISL_STATUS ∧ qPtr q ≠ ISL_STATUS ∧ qTail q ≠ ISL_STATUS :=
  ⟨QCFG_apart q (o := 0) (by decide), QCFG_apart q (by decide), QCFG_apart q (by decide), QCFG_apart q (by decide)⟩

/-- The registers of a window stand at multiples of 32, the mask 8 above it. -/
theorem window_apart (u n : Nat) : winCtl u n ≠ ISL_STATUS ∧ winStat u n ≠ ISL_STATUS := by
  unfold winCtl winStat WIN ISL_STATUS unitBlk
  refine ⟨?_, ?_⟩
  all_goals
    split
    all_goals omega

theorem winMask_apart {u n : Nat} (h : u = 63 ∨ n < 16) : winMask u n ≠ ISL_STATUS := by
  unfold winMask WIN ISL_STATUS unitBlk
  split
  all_goals omega

/-! Memory, its errors and Sillage. -/

theorem State.sil1_isl (s : State) (h b : Nat) : islShown (s.sil1 h b).regs = islShown s.regs := by
  unfold State.sil1
  simp +decide only [↓islShown_ite, ↓islShown_setF, ite_self]

theorem State.event_isl (s : State) (b : Nat) : islShown (s.event b).regs = islShown s.regs := s.sil1_isl _ _

theorem State.setUnitState_isl (s : State) (u v : Nat) : islShown (s.setUnitState u v).regs = islShown s.regs :=
  islShown_setF s v (unit_apart u).2.1 (by decide)

theorem State.dirChange_isl (s : State) : islShown s.dirChange.regs = islShown s.regs := islShown_setF s _ (by decide) (by decide)

theorem State.setCause_isl (s : State) (k : Nat) (on : Bool) : islShown (s.setCause k on).regs = islShown s.regs := by
  unfold State.setCause State.integrity
  simp +decide only [↓islShown_setF]

theorem State.chanError_isl (s : State) (a : Nat) : islShown (s.chanError a).regs = islShown s.regs := by
  unfold State.chanError
  simp +decide only [↓islShown_ite, ↓islShown_setF, ↓State.setCause_isl, ite_self]

theorem State.countEcc1_isl (s : State) (a : Nat) (bad : Bool) : islShown (s.countEcc1 a bad).regs = islShown s.regs := by
  unfold State.countEcc1
  split
  · exact s.sil1_isl _ _
  · exact s.sil1_isl _ _
  · exact s.sil1_isl _ _
  · rfl

theorem State.countEcc_isl (s : State) (a : Nat) (bad : Bool) : islShown (s.countEcc a bad).regs = islShown s.regs := by
  unfold State.countEcc
  simp only [↓islShown_ite, ↓State.chanError_isl, ↓State.countEcc1_isl, ite_self]

theorem State.takeOut_isl (s : State) (a : Nat) : islShown (s.takeOut a).regs = islShown s.regs := by
  unfold State.takeOut
  split
  · exact (State.dirChange_isl _).trans (s.setUnitState_isl _ _)
  · exact (State.dirChange_isl _).trans (islShown_setF s _ (by decide) (by decide))
  · rfl

theorem State.correct_isl (s : State) (w : Nat) : islShown (s.correct w).regs = islShown s.regs := by
  unfold State.correct
  dsimp only
  split
  all_goals simp only [↓islShown_ite, ↓State.takeOut_isl, ↓State.countEcc_isl, ite_self]

theorem State.correctIn_isl (s : State) (a n : Nat) : islShown (s.correctIn a n).regs = islShown s.regs := by
  unfold State.correctIn
  exact islShown_foldl (fun s x => s.correct_isl _) _ s

theorem State.store_isl (s : State) (a : Nat) (bs : List Byte) : islShown (s.store a bs).regs = islShown s.regs :=
  congrArg islShown (s.store_regs a bs)

theorem State.fallback_isl (s : State) (b : Nat) : islShown (s.fallback b).regs = islShown s.regs := by
  unfold State.fallback
  simp only [↓islShown_ite, ↓State.countEcc_isl, ↓State.sil1_isl, ite_self]

theorem State.readEffect_isl (s : State) (point p a n : Nat) : islShown (s.readEffect point p a n).regs = islShown s.regs := by
  unfold State.readEffect
  refine islShown_foldl (fun s x => ?_) _ s
  dsimp only
  split
  · split
    · simp only [↓islShown_ite, ↓State.store_isl, ↓State.fallback_isl, ite_self]
    · rfl
  · rfl

theorem State.noteRead_isl (s : State) (point p a n : Nat) : islShown (s.noteRead point p a n).regs = islShown s.regs := by
  unfold State.noteRead
  exact (islShown_foldl (fun s x => s.correct_isl _) _ _).trans (s.readEffect_isl _ _ _ _)

theorem State.writeWords_isl (s : State) (a : Nat) (bs : List Byte) : islShown (s.writeWords a bs).1.regs = islShown s.regs := by
  unfold State.writeWords
  refine islShown_foldl_fst (fun p q => ?_) _ (s, false, bs)
  obtain ⟨s, bad, rest⟩ := p
  dsimp only
  split
  · exact s.store_isl _ _
  · split
    · rfl
    · exact (State.store_isl _ _ _).trans (s.correctIn_isl _ _)

theorem State.writeLine_isl (s : State) (point p b : Nat) (here : List Byte) :
    islShown (s.writeLine point p b here).1.regs = islShown s.regs := by
  unfold State.writeLine
  dsimp only
  split
  · rfl
  · split
    · exact islShown_foldl (fun s c => s.store_isl _ _) _ s
    · split
      · rfl
      · refine (islShown_foldl (fun s c => ?_) _ _).trans ?_
        · simp only [↓islShown_ite, State.eccClear_regs, ↓State.store_isl, ite_self]
        · simp only [↓islShown_ite, ↓State.correctIn_isl, ↓State.fallback_isl, ite_self]

theorem State.writeMem_isl (s : State) (point p a : Nat) (bs : List Byte) :
    islShown (s.writeMem point p a bs).1.regs = islShown s.regs := by
  unfold State.writeMem
  split
  · refine islShown_foldl_fst (fun p q => ?_) _ (s, false, bs)
    obtain ⟨s, bad, rest⟩ := p
    exact s.writeLine_isl _ _ _ _
  · exact s.writeWords_isl a bs

/-! Pushes and notices. -/

theorem State.qDrop_isl (s : State) (q : Nat) : islShown (s.qDrop q).regs = islShown s.regs :=
  (State.event_isl _ 9).trans (islShown_setF s 1 (queue_apart q).2.1 (by decide))

theorem State.qAppend_isl (s : State) (q : Nat) (bs : List Nat) (island : Bool) :
    islShown (s.qAppend q bs island).regs = islShown s.regs := by
  unfold State.qAppend
  exact (islShown_setF _ _ (queue_apart q).2.2.2 (by decide)).trans (s.writeMem_isl _ _ _ _)

theorem State.pushHere_isl (s : State) (q : Nat) (bs : List Nat) (by_ : Pusher) :
    islShown (s.pushHere q bs by_).1.regs = islShown s.regs := by
  cases by_ with
  | enq p =>
    unfold State.pushHere
    dsimp only
    split
    · rfl
    · split
      · exact s.qDrop_isl q
      · split
        · rfl
        · exact s.qAppend_isl q bs false
  | init p =>
    unfold State.pushHere
    dsimp only
    split
    · exact s.event_isl 0
    · split
      · exact s.qDrop_isl q
      · exact s.qAppend_isl q bs false
  | island =>
    unfold State.pushHere
    dsimp only
    split
    · exact s.qDrop_isl q
    · exact s.qAppend_isl q bs true

theorem State.push_isl (s : State) (q : Nat) (bs : List Nat) (by_ : Pusher) : islShown (s.push q bs by_).1.regs = islShown s.regs := by
  unfold State.push
  split
  · dsimp only
    split
    · exact s.qDrop_isl _
    · exact s.pushHere_isl _ bs by_
  · exact s.pushHere_isl q bs by_

theorem State.cqInterrupt_isl (s : State) (q : Nat) : islShown (s.cqInterrupt q).regs = islShown s.regs := by
  unfold State.cqInterrupt State.msi
  split
  · split
    · simp only [↓islShown_ite, ite_self]
    · rfl
  · rfl

theorem State.jobNotice_isl (s : State) (j cause : Nat) : islShown (s.jobNotice j cause).regs = islShown s.regs := by
  unfold State.jobNotice State.notice State.pushCq
  generalize hp : s.push _ _ _ = p
  have hpush : islShown p.1.regs = islShown s.regs := hp ▸ s.push_isl _ _ _
  obtain ⟨u, r⟩ := p
  cases r
  · exact (u.cqInterrupt_isl _).trans hpush
  · exact hpush
  · exact hpush
  · exact hpush

theorem State.showReason_isl (s : State) : islShown s.showReason.regs = islShown s.regs := by
  unfold State.showReason
  split
  · exact islShown_setF s _ (by decide) (by decide)
  · rfl

theorem State.raiseSafe_isl (s : State) (k : Nat) : islShown (s.raiseSafe k).regs = islShown s.regs := by
  unfold State.raiseSafe State.integrity State.wire
  simp +decide only [↓islShown_ite, ↓islShown_setF, ↓State.event_isl, ↓State.showReason_isl, ite_self]

/-! Errors and endings of a cell and of an engine. -/

theorem State.endItem_isl (s : State) (u status : Nat) (fill : Cpl → Cpl) : islShown (s.endItem u status fill).regs = islShown s.regs := by
  unfold State.endItem
  dsimp only
  split
  · rfl
  · rfl

theorem State.cellError_isl (s : State) (c code : Nat) (st : Strm) (off : Nat) :
    islShown (s.cellError c code st off).regs = islShown s.regs := by
  unfold State.cellError State.refuseAccess
  simp +decide only [↓islShown_ite, ↓islShown_setF, ↓State.setUnitState_isl, ↓State.event_isl, ↓State.countEcc_isl, ↓State.endItem_isl,
    unit_apart, ne_eq, not_false_eq_true, ite_self]

theorem State.raise_isl (s : State) (c : Nat) (f : Flags) : islShown (s.raise c f).regs = islShown s.regs := by
  unfold State.raise
  simp +decide only [↓islShown_ite, ↓islShown_setF, unit_apart, ne_eq, not_false_eq_true, ite_self]

theorem State.engDone_isl (s : State) (u : Nat) : islShown (s.engDone u).regs = islShown s.regs := by
  unfold State.engDone State.setBusy
  simp +decide only [↓islShown_ite, ↓islShown_setF, unit_apart, ne_eq, not_false_eq_true, ite_self]

theorem State.abandon_isl (s : State) (u : Nat) : islShown (s.abandon u).regs = islShown s.regs := (State.engDone_isl _ u)

theorem State.clearWork_isl (s : State) (u : Nat) : islShown (s.clearWork u).regs = islShown s.regs := by
  unfold State.clearWork
  simp +decide only [↓islShown_ite, ↓islShown_setF, State.setCell_regs, ↓State.setUnitState_isl, unit_apart, ne_eq, not_false_eq_true, ite_self]

end Sys2Proof.Machine


/-! PROOFS. What leaves the OK bit and the heartbeat of island A: the steps of stream instructions -/

namespace Sys2Proof.Machine

set_option Elab.async false

theorem State.noteSeg_isl (s : State) (c : Nat) (d : Desc) (r i0 n : Nat) : islShown (s.noteSeg c d r i0 n).regs = islShown s.regs := by
  unfold State.noteSeg
  simp only [↓islShown_ite, ↓State.noteRead_isl, ite_self]

theorem State.noteTaps_isl (s : State) (c : Nat) (src : Desc) (l : List Tap) : islShown (s.noteTaps c src l).regs = islShown s.regs := by
  unfold State.noteTaps
  refine islShown_foldl (fun s t => ?_) _ s
  split
  · exact s.noteSeg_isl _ _ _ _ _
  · rfl

theorem State.issueWrites_isl (s : State) (c ins dst a : Nat) (bs : List Byte) :
    islShown (s.issueWrites c ins dst a bs).regs = islShown s.regs := by
  unfold State.issueWrites
  refine islShown_foldl_fst (fun p q => ?_) _ (s, bs)
  obtain ⟨s, rest⟩ := p
  simp +decide only [↓islShown_ite, ↓islShown_setF, State.send_regs, unit_apart, ne_eq, not_false_eq_true, ite_self]

theorem State.cellWrite_isl (s : State) (c ins a : Nat) (bs : List Byte) : islShown (s.cellWrite c ins a bs).1.regs = islShown s.regs := by
  unfold State.cellWrite
  split
  · split
    · exact s.writeMem_isl _ _ _ _
    · exact s.issueWrites_isl _ _ _ _ _
  · exact s.issueWrites_isl _ _ _ _ _
  · exact s.writeMem_isl _ _ _ _

theorem State.writeSeg_isl (s : State) (c ins : Nat) (d : Desc) (r i0 : Nat) (x : Row) :
    islShown (s.writeSeg c ins d r i0 x).1.regs = islShown s.regs := by
  unfold State.writeSeg
  dsimp only
  split
  · exact s.cellWrite_isl _ _ _ _
  · exact (State.cellWrite_isl _ _ _ _ _).trans (s.cellWrite_isl _ _ _ _)

theorem State.writeSegs_isl (s : State) (c ins : Nat) (d : Desc) (l : List (Nat × Nat × Row)) :
    islShown (s.writeSegs c ins d l).1.regs = islShown s.regs := by
  unfold State.writeSegs
  refine islShown_foldl_fst (fun p x => ?_) l (s, 0)
  exact p.1.writeSeg_isl _ _ _ _ _ _

theorem vecMap_isl (c : Nat) (f : Fmt) (vd va vb vc : Nat) (put : Fmt → List Nat → Nat) (g : Nat → Nat → Nat → Nat × Flags) (s : State) :
    islShown (vecMap c f vd va vb vc put g s).regs = islShown s.regs := State.raise_isl _ _ _

theorem tmmaBlock_isl (c t : Nat) (int : Bool) (fa fb : Fmt) (as bs : List Row) (s : State) :
    islShown (tmmaBlock c t int fa fb as bs s).regs = islShown s.regs := by
  unfold tmmaBlock
  refine islShown_foldl (fun s x => islShown_foldl (fun s y => ?_) _ s) _ s
  exact State.raise_isl _ _ _

theorem State.setOperand_isl (s : State) (c : Nat) (st : Strm) (i v : Nat) : islShown (s.setOperand c st i v).regs = islShown s.regs := by
  unfold State.setOperand
  dsimp only
  split
  · rfl
  · rfl

theorem State.sendRelease_isl (s : State) (src part a lane ckid : Nat) : islShown (s.sendRelease src part a lane ckid).regs = islShown s.regs := by
  unfold State.sendRelease
  simp only [↓islShown_ite, State.send_regs, ite_self]

theorem State.joinMark_isl (s : State) (c : Nat) : islShown (s.joinMark c).regs = islShown s.regs := by
  unfold State.joinMark
  refine islShown_foldl (fun s g => ?_) _ s
  simp +decide only [↓islShown_ite, ↓islShown_setF, unit_apart, ne_eq, not_false_eq_true, ite_self]

theorem State.winRound_isl (s : State) (u n : Nat) : islShown (s.winRound u n).regs = islShown s.regs :=
  islShown_setF (f := winSEALED) s 0 (window_apart u n).2 (by decide)

/-! A plan leaves the bits when every step does. -/

/-- Where the result is a state with a value, the state shows the bits of `r`. -/
def ShowsIsl {α : Type} (r : Tab Nat) (x : Except Nat (State × α)) : Prop := ∀ t, x = .ok t → islShown t.1.regs = islShown r

def PlanLeavesIsl (p : Plan) : Prop := ∀ s k, ShowsIsl s.regs (p.step s k)

/-- Where the operands pass, the plan leaves the bits. -/
def PlannedLeavesIsl (x : Except Nat Plan) : Prop := ∀ p, x = .ok p → PlanLeavesIsl p

theorem ShowsIsl.ok {α : Type} {r : Tab Nat} {t : State × α} (h : islShown t.1.regs = islShown r) : ShowsIsl r (.ok t) := by
  intro t' ht
  cases ht
  exact h

theorem ShowsIsl.bind {α β : Type} {r : Tab Nat} {m : Except Nat β} {f : β → Except Nat (State × α)} (h : ∀ b, ShowsIsl r (f b)) :
    ShowsIsl r (m >>= f) := by
  cases m with
  | error e => exact fun t ht => nomatch ht
  | ok b => exact h b

/-- The rest may use what the first part has answered. -/
theorem ShowsIsl.bindOk {α β : Type} {r : Tab Nat} {m : Except Nat β} {f : β → Except Nat (State × α)}
    (h : ∀ b, m = .ok b → ShowsIsl r (f b)) : ShowsIsl r (m >>= f) := by
  cases m with
  | error e => exact fun t ht => nomatch ht
  | ok b => exact h b rfl

theorem ShowsIsl.unless {α : Type} {r : Tab Nat} {c : Prop} [Decidable c] {e : Nat} {f : PUnit → Except Nat (State × α)}
    (h : ShowsIsl r (f ⟨⟩)) : ShowsIsl r (if c then throw e >>= f else f ⟨⟩) := by
  split
  · exact fun t ht => nomatch ht
  · exact h

theorem ShowsIsl.either {α β : Type} {r : Tab Nat} {c : Prop} [Decidable c] {m n : Except Nat β} {f : β → Except Nat (State × α)}
    (h : ∀ b, ShowsIsl r (f b)) : ShowsIsl r (if c then m >>= f else n >>= f) := by
  split
  · exact .bind h
  · exact .bind h

theorem PlannedLeavesIsl.ok {p : Plan} (h : PlanLeavesIsl p) : PlannedLeavesIsl (.ok p) := by
  intro p' hp
  cases hp
  exact h

theorem PlannedLeavesIsl.bind {β : Type} {m : Except Nat β} {f : β → Except Nat Plan} (h : ∀ b, PlannedLeavesIsl (f b)) :
    PlannedLeavesIsl (m >>= f) := by
  cases m with
  | error e => exact fun p hp => nomatch hp
  | ok b => exact h b

theorem PlannedLeavesIsl.plan1 {f : State → State × Nat} (h : ∀ s, islShown (f s).1.regs = islShown s.regs) :
    PlannedLeavesIsl (.ok (plan1 f)) := .ok fun s _ => .ok (h s)

/-- A check of the operands refuses, or the rest follows. -/
theorem PlannedLeavesIsl.unless {c : Prop} [Decidable c] {m : Except Nat PUnit} {f : PUnit → Except Nat Plan} (h : PlannedLeavesIsl (f ⟨⟩)) :
    PlannedLeavesIsl (if c then m >>= f else f ⟨⟩) := by
  split
  · exact .bind fun _ => h
  · exact h

/-- What the rest uses is found in one of two ways. -/
theorem PlannedLeavesIsl.either {β : Type} {c : Prop} [Decidable c] {m n : Except Nat β} {f : β → Except Nat Plan}
    (h : ∀ b, PlannedLeavesIsl (f b)) : PlannedLeavesIsl (if c then m >>= f else n >>= f) := by
  split
  · exact .bind h
  · exact .bind h

theorem State.copyRuns_isl (s : State) (c ins : Nat) (rc : Reach) (l : List (Nat × Nat × Nat)) :
    ShowsIsl s.regs (s.copyRuns c ins rc l) := by
  unfold State.copyRuns
  refine .bind fun xs => .ok ?_
  refine (islShown_foldl_fst (fun p x => ?_) _ _).trans ?_
  · exact p.1.cellWrite_isl _ _ _ _
  · exact islShown_foldl (fun s x => s.noteRead_isl _ _ _ _) _ s

theorem planCopy_isl (c : Nat) (rs rd : Reach) (s : State) (e : QEntry) : PlannedLeavesIsl (planCopy c rs rd s e) := by
  unfold planCopy
  refine .bind fun d => .bind fun sd => .unless (.unless (.bind fun _ => .bind fun _ => .ok ?_))
  exact fun s k => s.copyRuns_isl _ _ _ _

theorem planGath_isl (c : Nat) (s : State) (e : QEntry) : PlannedLeavesIsl (planGath c s e) := by
  unfold planGath
  refine .bind fun d => .bind fun sd => .bind fun l => ?_
  refine .unless (.unless (.bind fun _ => .bind fun _ => .ok fun s k => ?_))
  dsimp only
  refine .unless fun t ht => ?_
  exact (State.copyRuns_isl _ _ _ _ _ t ht).trans (s.noteSeg_isl _ _ _ _ _)

theorem planScat_isl (c : Nat) (s : State) (e : QEntry) : PlannedLeavesIsl (planScat c s e) := by
  unfold planScat
  refine .bind fun d => .bind fun sd => .bind fun l => ?_
  refine .unless (.unless (.bind fun _ => .bind fun _ => .ok fun s k => ?_))
  dsimp only
  refine .unless fun t ht => ?_
  exact (State.copyRuns_isl _ _ _ _ _ t ht).trans (s.noteSeg_isl _ _ _ _ _)

theorem State.stageRow_isl {s : State} {c : Nat} {src : Desc} {w : Walker} {oy ox kp : Nat} {x : Row × State}
    (h : s.stageRow c src w oy ox kp = .ok x) : islShown x.2.regs = islShown s.regs := by
  unfold State.stageRow at h
  cases hx : collect (fun i => s.tap c src w oy ox (i / w.kw) (i % w.kw)) (w.kh * w.kw) 0 with
  | error e =>
    rw [hx] at h
    cases h
  | ok taps =>
    rw [hx] at h
    cases h
    exact s.noteTaps_isl _ _ _

theorem planLdw_isl (c : Nat) (s : State) (e : QEntry) : PlannedLeavesIsl (planLdw c s e) := by
  unfold planLdw
  refine .bind fun d => .bind fun src => .bind fun w => ?_
  refine .unless (.unless (.bind fun _ => .bind fun _ => .ok fun s p => ?_))
  refine .bindOk fun x hx => .ok ?_
  exact (State.writeSegs_isl _ _ _ _ _).trans (s.stageRow_isl hx)

theorem planTzero_isl (c : Nat) (s : State) (e : QEntry) : PlannedLeavesIsl (planTzero c s e) := .plan1 fun _ => rfl

theorem planTmma_isl (c : Nat) (s : State) (e : QEntry) : PlannedLeavesIsl (planTmma c s e) := by
  unfold planTmma
  refine .bind fun a => .bind fun b => .unless (.unless (.unless (.bind fun _ => .bind fun _ => .ok fun s k => ?_)))
  refine .bind fun as => .bind fun bs => .ok ((tmmaBlock_isl _ _ _ _ _ _ _ _).trans ?_)
  refine (islShown_foldl (fun s m => s.noteSeg_isl _ _ _ _ _) _ _).trans ?_
  exact islShown_foldl (fun s m => s.noteSeg_isl _ _ _ _ _) _ s

theorem planTrd_isl (c : Nat) (s : State) (e : QEntry) : PlannedLeavesIsl (planTrd c s e) := by
  unfold planTrd
  exact .bind fun d => .unless (.unless (.bind fun _ => .plan1 fun s => s.writeSegs_isl _ _ _ _))

theorem planVec_isl (c : Nat) (gi : Int → Int → Int → Int) (gf : FFmt → Num → Num → Num → Nat × Flags) (used : Nat) (s : State)
    (e : QEntry) : PlannedLeavesIsl (planVec c gi gf used s e) := .plan1 fun _ => vecMap_isl _ _ _ _ _ _ _ _ _

theorem planLane_isl (c : Nat) (g : Nat → Nat → Nat → Nat) (s : State) (e : QEntry) : PlannedLeavesIsl (planLane c g s e) :=
  .plan1 fun _ => vecMap_isl _ _ _ _ _ _ _ _ _

theorem planVcmp_isl (c : Nat) (s : State) (e : QEntry) : PlannedLeavesIsl (planVcmp c s e) :=
  .plan1 fun _ => vecMap_isl _ _ _ _ _ _ _ _ _

theorem planVbcast_isl (c : Nat) (s : State) (e : QEntry) : PlannedLeavesIsl (planVbcast c s e) := .plan1 fun _ => rfl

theorem planVld_isl (c : Nat) (s : State) (e : QEntry) : PlannedLeavesIsl (planVld c s e) := by
  unfold planVld
  exact .bind fun a => .bind fun b => .plan1 fun s => s.noteRead_isl _ _ _ _

theorem planVst_isl (c : Nat) (s : State) (e : QEntry) : PlannedLeavesIsl (planVst c s e) := by
  unfold planVst
  exact .bind fun a => .plan1 fun s => s.cellWrite_isl _ _ _ _

theorem planCvtv_isl (c : Nat) (s : State) (e : QEntry) : PlannedLeavesIsl (planCvtv c s e) := .plan1 fun _ => State.raise_isl _ _ _

theorem planCvt_isl (c : Nat) (s : State) (e : QEntry) : PlannedLeavesIsl (planCvt c s e) := by
  unfold planCvt
  refine .bind fun d => .bind fun sd => .unless (.unless (.unless ?_))
  refine .either fun ac => .unless (.unless (.bind fun _ => .bind fun _ => .either fun sc => .ok fun s k => .bind fun xs => .ok ?_))
  refine (State.writeSegs_isl _ _ _ _ _).trans ((State.raise_isl _ _ _).trans ?_)
  have hread : ∀ l : List (Nat × Nat × Nat), islShown (l.foldl (fun s x => s.noteSeg c sd x.1 x.2.1 x.2.2) s).regs = islShown s.regs :=
    fun l => islShown_foldl (fun s x => s.noteSeg_isl _ _ _ _ _) l s
  split
  · exact (State.noteSeg_isl _ _ _ _ _ _).trans (hread _)
  · exact hread _

theorem planVdw_isl (c : Nat) (s : State) (e : QEntry) : PlannedLeavesIsl (planVdw c s e) := by
  unfold planVdw
  refine .bind fun d => .bind fun src => .bind fun w => .unless (.unless (.unless (.either fun k => .unless (.unless (.unless ?_)))))
  refine .bind fun _ => .bind fun _ => .unless (.ok fun s i => ?_)
  dsimp only
  split
  · exact .ok rfl
  · refine .bind fun taps => .either fun ws => ?_
    have hread : islShown (if bits e.word.toNat 17 16 = 0 then
        (List.range k.rows).foldl (fun s r => s.noteSeg c k r 0 k.d0) (s.noteTaps c src taps) else s.noteTaps c src taps).regs =
        islShown s.regs := by
      split
      · exact (islShown_foldl (fun s r => s.noteSeg_isl _ _ _ _ _) _ _).trans (s.noteTaps_isl _ _ _)
      · exact s.noteTaps_isl _ _ _
    split
    · exact .ok ((State.writeSegs_isl _ _ _ _ _).trans hread)
    · exact .ok ((State.writeSegs_isl _ _ _ _ _).trans ((State.raise_isl _ _ _).trans hread))

theorem planRstat_isl (c : Nat) (s : State) (e : QEntry) : PlannedLeavesIsl (planRstat c s e) := by
  unfold planRstat
  refine .bind fun d => .bind fun sd => .bind fun _ => .bind fun _ => .bind fun _ => .ok fun s k => .bind fun x => ?_
  have hraise : ∀ f, islShown (((s.noteSeg c sd (k / (2 * ((sd.d0 + 4095) / 4096))) (k % (2 * ((sd.d0 + 4095) / 4096)) %
      ((sd.d0 + 4095) / 4096) * 4096) (min 4096 (sd.d0 - k % (2 * ((sd.d0 + 4095) / 4096)) % ((sd.d0 + 4095) / 4096) * 4096))).raise c f)).regs =
      islShown s.regs := fun f => (State.raise_isl _ _ _).trans (s.noteSeg_isl _ _ _ _ _)
  dsimp only
  split
  · exact .ok ((State.setOperand_isl _ _ _ _ _).trans (hraise _))
  · exact .ok ((State.writeSegs_isl _ _ _ _ _).trans (hraise _))

theorem planRnorm_isl (c : Nat) (s : State) (e : QEntry) : PlannedLeavesIsl (planRnorm c s e) := by
  unfold planRnorm
  refine .bind fun d => .bind fun sd => .bind fun st => .unless (.bind fun _ => .unless ?_)
  refine .bind fun _ => .bind fun _ => .bind fun _ => .ok fun s r => .bind fun x => .bind fun p => .ok ?_
  exact (State.writeSegs_isl _ _ _ _ _).trans ((State.raise_isl _ _ _).trans ((State.noteSeg_isl _ _ _ _ _ _).trans (s.noteSeg_isl _ _ _ _ _)))

theorem planWopen_isl (c : Nat) (s : State) (e : QEntry) : PlannedLeavesIsl (planWopen c s e) := by
  unfold planWopen
  refine .unless (.unless (.unless (.plan1 fun s => ?_)))
  have hn : bits e.word.toNat 43 40 < 16 := Nat.mod_lt _ (by decide)
  refine (State.winRound_isl _ _ _).trans ((islShown_setF _ _ (winMask_apart (.inr hn)) (by decide)).trans ?_)
  simp +decide only [↓islShown_setF, window_apart, ne_eq, not_false_eq_true]

theorem planWclose_isl (c : Nat) (s : State) (e : QEntry) : PlannedLeavesIsl (planWclose c s e) := by
  unfold planWclose
  exact .unless (.plan1 fun s => islShown_setF s 0 (window_apart _ _).1 (by decide))

theorem planCkpt_isl (c : Nat) (s : State) (e : QEntry) : PlannedLeavesIsl (planCkpt c s e) := by
  refine .plan1 fun s => (islShown_setF _ 0 (unit_apart c).2.2.2.2.2.1 (by decide)).trans ?_
  split
  · rfl
  · exact (State.joinMark_isl _ _).trans (islShown_foldl (fun s t => s.sendRelease_isl _ _ _ _ _) _ s)

theorem planCommit_isl (c : Nat) (s : State) (e : QEntry) : PlannedLeavesIsl (planCommit c s e) := by
  unfold planCommit
  split
  · exact fun p hp => nomatch hp
  · exact .plan1 fun _ => rfl

/-- The plan of the table's entry, where there is one, leaves the bits. -/
def RowLeavesIsl (o : Option (State → QEntry → Except Nat Plan)) : Prop := ∀ f, o = some f → ∀ s e, PlannedLeavesIsl (f s e)

theorem RowLeavesIsl.row {c : Prop} [Decidable c] {f : State → QEntry → Except Nat Plan} {o : Option (State → QEntry → Except Nat Plan)}
    (h : ∀ s e, PlannedLeavesIsl (f s e)) (rest : RowLeavesIsl o) : RowLeavesIsl (if c then some f else o) := by
  split
  · rintro _ ⟨⟩
    exact h
  · exact rest

theorem planOf_isl (c code : Nat) : RowLeavesIsl (planOf c code) := by
  have hcopy := planCopy_isl c
  have hvec := planVec_isl c
  have hlane := planLane_isl c
  unfold planOf
  refine .row (hcopy _ _) (.row (hcopy _ _) (.row (planGath_isl c) (.row (planScat_isl c) (.row (planLdw_isl c) ?_))))
  refine .row (planTzero_isl c) (.row (planTmma_isl c) (.row (planTrd_isl c) ?_))
  refine .row (hvec _ _ _) (.row (hvec _ _ _) (.row (hvec _ _ _) (.row (hvec _ _ _) (.row (hvec _ _ _) (.row (hvec _ _ _) ?_)))))
  refine .row (hvec _ _ _) (.row (hvec _ _ _) (.row (hvec _ _ _) (.row (planVcmp_isl c) ?_)))
  refine .row (hlane _) (.row (hlane _) (.row (hlane _) (.row (hlane _) (.row (hlane _) ?_))))
  refine .row (planVbcast_isl c) (.row (planVld_isl c) (.row (planVst_isl c) (.row (planCvt_isl c) (.row (planCvtv_isl c) ?_))))
  refine .row (planRstat_isl c) (.row (planRnorm_isl c) (.row (planVdw_isl c) ?_))
  refine .row (planWopen_isl c) (.row (planWclose_isl c) (.row (planCkpt_isl c) (.row (planCommit_isl c) ?_)))
  rintro _ ⟨⟩

/-! Running the steps of a stream. -/

theorem runSteps_isl {f : State → Nat → Except Nat (State × Nat)} (h : ∀ s k, ShowsIsl s.regs (f s k)) (n : Nat) (s : State) (k : Nat) :
    islShown (runSteps f n s k).1.regs = islShown s.regs := by
  induction n generalizing s k with
  | zero => rfl
  | succ n ih =>
    unfold runSteps
    split
    next => rfl
    next s' hs => exact (ih s' _).trans (h s k _ hs)
    next s' e hs => exact h s k _ hs

theorem State.runStream_isl {f : State → QEntry → Except Nat Plan} (s : State) (c : Nat) (one : Bool) (code : Nat)
    (h : ∀ s e, PlannedLeavesIsl (f s e)) : islShown (s.runStream c one code f).regs = islShown s.regs := by
  unfold State.runStream
  dsimp only
  split
  · rfl
  · split
    · rfl
    · split
      · exact s.cellError_isl _ _ _ _
      next p hp =>
        have hrun := fun n k => runSteps_isl (h _ _ p hp) n s k
        have hprog : ∀ (u : State) n, islShown (u.progress c n).regs = islShown u.regs := fun u n =>
          islShown_setF u _ (unit_apart c).2.2.2.2.2.2.1 (by decide)
        split
        · exact (State.cellError_isl _ _ _ _ _).trans ((hprog _ _).trans (hrun _ _))
        · exact (hprog _ _).trans (hrun _ _)

theorem State.endSteps_isl (s : State) (c : Nat) : islShown (s.endSteps c).regs = islShown s.regs := by
  unfold State.endSteps
  refine islShown_foldl (fun s st => ?_) _ s
  unfold State.endStep
  dsimp only
  split
  · rfl
  · split
    · rfl
    · split
      · rfl
      next f hf => exact s.runStream_isl c true _ (planOf_isl c _ f hf)

end Sys2Proof.Machine


/-! PROOFS. What leaves the OK bit and the heartbeat of island A: switches of a unit and moves of a job -/

namespace Sys2Proof.Machine

set_option Elab.async false

/-! Resets of a unit. -/

theorem State.jobReset_isl (s : State) (u : Nat) : islShown (s.jobReset u).regs = islShown s.regs := by
  unfold State.jobReset
  simp only [↓islShown_ite, ↓State.clearWork_isl, ↓State.abandon_isl, ↓State.endSteps_isl, ite_self]

theorem State.dropWork_isl (s : State) (j u : Nat) (leaves : Bool) : islShown (s.dropWork j u leaves).regs = islShown s.regs := by
  unfold State.dropWork
  simp only [↓islShown_ite, State.setUnit_regs, ↓State.abandon_isl, ↓State.jobReset_isl, ite_self]

theorem State.passQuarters_isl (s : State) (u v : Nat) : islShown (s.passQuarters u v).regs = islShown s.regs := by
  unfold State.passQuarters
  simp +decide only [↓islShown_ite, ↓islShown_setF, unit_apart, ne_eq, not_false_eq_true, ite_self]

theorem State.attnLeave_isl (s : State) (u : Nat) : islShown (s.attnLeave u).regs = islShown s.regs := by
  unfold State.attnLeave
  dsimp only
  split
  · rfl
  · exact (islShown_setF (f := atTABLEOK) _ _ (unit_apart u).2.2.2.2.2.2.2.2.1 (by decide)).trans (State.passQuarters_isl _ _ _)

theorem State.copyReplica_isl (s : State) (v u : Nat) : islShown (s.copyReplica v u).regs = islShown s.regs := by
  unfold State.copyReplica
  split
  · rfl
  · refine islShown_foldl (fun s n => ?_) _ s
    rfl

theorem State.attnReturn_isl (s : State) (u : Nat) : islShown (s.attnReturn u).regs = islShown s.regs := by
  unfold State.attnReturn
  dsimp only
  split
  all_goals simp +decide only [↓islShown_setF, ↓State.passQuarters_isl, ↓State.copyReplica_isl, unit_apart, ne_eq, not_false_eq_true]

theorem State.trkReturn_isl (s : State) : islShown s.trkReturn.regs = islShown s.regs := by
  unfold State.trkReturn
  refine (islShown_setF _ _ (by decide) (by decide)).trans (islShown_foldl (fun s n => ?_) _ s)
  split
  · refine islShown_foldl (fun s u => ?_) _ s
    simp only [↓islShown_ite, ite_self]
  · rfl

theorem islShown_clrF (a : Nat) (fs : List FD) (ha : a ≠ ISL_STATUS) (hf : ∀ f ∈ fs, f.lo < 64) (s : State) :
    islShown (fs.foldl (fun s f => s.clrF a f) s).regs = islShown s.regs :=
  foldl_keeps (R := fun s : State => islShown s.regs) (fun s f h => islShown_setF s _ ha (hf f h)) s

theorem State.unitReset_isl (s : State) (u : Nat) : islShown (s.unitReset u).regs = islShown s.regs := by
  have hwin : ∀ t : State, islShown ((List.range 16).foldl (fun s n => s.setF (winCtl u n) winOPEN 0) t).regs = islShown t.regs :=
    islShown_foldl (fun s n => islShown_setF s 0 (window_apart u n).1 (by decide)) _
  have hstat := islShown_clrF (UNIT_STATUS u) [stMULTI, stSTREAM, stCODE, stNSC, stSAT, stUNF, stOVF, stINV, stSTATE]
    (unit_apart u).2.1 (by decide)
  have hctrl := islShown_clrF (UNIT_CTRL u) [ctrlPLEN, ctrlPBASE, ctrlSTALL, ctrlENABLE] (unit_apart u).1 (by decide)
  have hsnap := islShown_clrF (UNIT_SNAP u) [snapFAIL, snapADDR, snapSTATUS] (unit_apart u).2.2.1 (by decide)
  unfold State.unitReset State.dropSnaps State.trkReset
  simp +decide only [↓islShown_ite, ↓islShown_setF, ↓hwin, ↓hstat, ↓hctrl, ↓hsnap, State.setCell_regs, State.setUnit_regs,
    ↓State.setUnitState_isl, ↓State.abandon_isl, ↓State.attnLeave_isl, ↓State.attnReturn_isl, ↓State.trkReturn_isl, unit_apart, ne_eq,
    not_false_eq_true, ite_self]

/-! Switching a unit to another entry of its schedule. -/

theorem State.barError_isl (s : State) (c : Nat) : islShown (s.barError c).regs = islShown s.regs := by
  unfold State.barError
  dsimp only
  split
  · simp only [↓islShown_ite, ↓State.cellError_isl, State.setCell_regs, ite_self]
  · rfl

theorem State.showEntry_isl (s : State) (u : Nat) (e : SchedEnt) : islShown (s.showEntry u e).regs = islShown s.regs := by
  unfold State.showEntry
  simp +decide only [↓islShown_setF, unit_apart, ne_eq, not_false_eq_true]

theorem State.cutEngine_isl (s : State) (u status : Nat) : islShown (s.cutEngine u status).regs = islShown s.regs := by
  unfold State.cutEngine State.dropRegs
  simp only [↓islShown_ite, ↓State.endItem_isl, ↓State.engDone_isl, ↓State.setUnitState_isl, ite_self]

theorem State.saveHeld_isl (s : State) (c : Nat) : islShown (s.saveHeld c).regs = islShown s.regs := by
  unfold State.saveHeld
  dsimp only
  split
  · rfl
  · split
    · rfl
    · exact State.writeMem_isl _ _ _ _ _

theorem State.takeHeld_isl (s : State) (c : Nat) (h : Held) : islShown (s.takeHeld c h).regs = islShown s.regs := by
  unfold State.takeHeld
  simp only [↓islShown_ite, ↓State.clearWork_isl, ↓State.setUnitState_isl, State.setCell_regs, ite_self]

theorem State.loadImage_isl (s : State) (c : Nat) (rd : Nat → Nat → Nat) (st : Nat) :
    islShown (s.loadImage c rd st).regs = islShown s.regs := by
  unfold State.loadImage
  simp +decide only [↓islShown_setF, ↓State.setUnitState_isl, State.setCell_regs, unit_apart, ne_eq, not_false_eq_true]

theorem State.loadHeld_isl (s : State) (c j : Nat) : islShown (s.loadHeld c j).regs = islShown s.regs := by
  have hidle : ∀ t : State, islShown t.regs = islShown s.regs →
      islShown ((t.setF (UNIT_CTRL c) ctrlSTALL (t.job j).stall).clearWork c).regs = islShown s.regs := fun t h =>
    (State.clearWork_isl _ c).trans ((islShown_setF _ _ (unit_apart c).1 (by decide)).trans h)
  have hranged : islShown ((match s.progRange j c with
      | some (b, l) => (s.setF (UNIT_CTRL c) ctrlPBASE b).setF (UNIT_CTRL c) ctrlPLEN l
      | none => s) : State).regs = islShown s.regs := by
    split
    · simp +decide only [↓islShown_setF, unit_apart, ne_eq, not_false_eq_true]
    · rfl
  unfold State.loadHeld
  dsimp only
  rw [State.setUnit_regs]
  split
  · exact hidle _ hranged
  · split
    · exact hidle _ hranged
    · split
      · exact (State.takeHeld_isl _ _ _).trans (s.loadImage_isl _ _ _)
      · simp only [↓islShown_ite, ↓State.setUnitState_isl, State.setCell_regs, ↓State.loadImage_isl, ite_self]

theorem State.switchCell_isl (s : State) (c : Nat) (e : SchedEnt) : islShown (s.switchCell c e).regs = islShown s.regs := by
  unfold State.switchCell
  simp only [↓islShown_ite, State.setUnit_regs, ↓State.showEntry_isl, ↓State.barError_isl, ↓State.setUnitState_isl, ↓State.saveHeld_isl,
    ↓State.loadHeld_isl, ite_self]

theorem State.slotSwitch_isl (s : State) (u : Nat) (e : SchedEnt) : islShown (s.slotSwitch u e).regs = islShown s.regs := by
  unfold State.slotSwitch
  simp only [↓islShown_ite, State.setUnit_regs, ↓State.showEntry_isl, ↓State.cutEngine_isl, ↓State.switchCell_isl, ↓State.endSteps_isl,
    ite_self]

theorem State.schedNow_isl (s : State) (u : Nat) : islShown (s.schedNow u).regs = islShown s.regs := State.slotSwitch_isl _ u _

theorem State.writeSched_isl (s : State) (u : Nat) : islShown (s.writeSched u).regs = islShown s.regs := by
  unfold State.writeSched
  dsimp only
  refine islShown_foldl (fun s e => ?_) _ s
  split
  · simp +decide only [List.foldl_cons, List.foldl_nil, ↓islShown_setF, SCHED_apart, ne_eq, not_false_eq_true]
  · exact islShown_setF s 0 (SCHED_apart u e) (by decide)

/-! What a job holds, given back and granted again. -/

theorem State.groupCause_isl (s : State) : islShown s.groupCause.regs = islShown s.regs := s.setCause_isl _ _

theorem State.freeGroups_isl (s : State) (j : Nat) (p : Placement) : islShown (s.freeGroups j p).regs = islShown s.regs := by
  have htargets : ∀ (a : Nat → Nat), (∀ t, a t ≠ ISL_STATUS) → ∀ u : State,
      islShown ((List.range 8).foldl (fun s t => s.setF (a t) rtV 0) u).regs = islShown u.regs := fun a ha u =>
    islShown_foldl (fun s t => islShown_setF s 0 (ha t) (by decide)) _ u
  unfold State.freeGroups
  dsimp only
  refine (islShown_foldl (fun s g => ?_) _ _).trans (islShown_foldl (fun s c => ?_) _ s)
  · refine (State.groupCause_isl _).trans ?_
    dsimp only
    refine (htargets (RG_TGT g) (fun t => (target_apart g t).1) _).trans ?_
    simp +decide only [↓islShown_setF, group_apart, ne_eq, not_false_eq_true]
  · refine (htargets (SOLO_TGT c) (fun t => (target_apart c t).2) _).trans ?_
    simp +decide only [↓islShown_ite, ↓islShown_setF, unit_apart, ne_eq, not_false_eq_true, ite_self]

theorem State.setJobState_isl (s : State) (j v : Nat) : islShown (s.setJobState j v).regs = islShown s.regs :=
  islShown_setF s v (JOB_STAT_apart j) (by decide)

theorem State.closeWindow_isl (s : State) (c n : Nat) :
    islShown ((s.setF (winCtl c n) winOPEN 0).setF (winCtl c n) winOWNV 0).regs = islShown s.regs := by
  simp +decide only [↓islShown_setF, window_apart, ne_eq, not_false_eq_true]

theorem State.releaseJob_isl (s : State) (j : Nat) : islShown (s.releaseJob j).regs = islShown s.regs := by
  unfold State.releaseJob
  dsimp only
  split
  · rw [State.setJob_regs]
    exact (State.setJobState_isl _ _ _).trans s.dirChange_isl
  · refine (islShown_foldl (fun s u => s.writeSched_isl u) _ _).trans ?_
    rw [State.setJob_regs]
    refine (State.setJobState_isl _ _ _).trans ((State.freeGroups_isl _ _ _).trans ?_)
    refine (islShown_foldl (fun s b => ?_) _ _).trans ?_
    · exact congrArg islShown (State.setBarrier_regs _ _ _)
    refine (islShown_foldl (fun s q => islShown_foldl (fun s w => s.closeWindow_isl _ _) _ s) _ _).trans ?_
    refine (islShown_foldl (fun s r => islShown_setF s 0 (queue_apart _).2.1 (by decide)) _ _).trans ?_
    exact (islShown_foldl (fun s u => s.dropWork_isl _ _ _) _ _).trans s.dirChange_isl

theorem State.loseJob_isl (s : State) (j : Nat) : islShown (s.loseJob j).regs = islShown s.regs := by
  unfold State.loseJob
  simp only [↓islShown_ite, ↓State.raiseSafe_isl, ↓State.jobNotice_isl, ↓State.releaseJob_isl, ite_self]

theorem State.takeAgain_isl (s : State) (q : Nat) : islShown (s.takeAgain q).regs = islShown s.regs := by
  unfold State.takeAgain
  simp +decide only [↓islShown_ite, ↓islShown_setF, queue_apart, ne_eq, not_false_eq_true, ite_self]

theorem State.loadPrograms_isl (s : State) (j : Nat) (p : Placement) : islShown (s.loadPrograms j p).regs = islShown s.regs := by
  unfold State.loadPrograms
  refine islShown_foldl (fun s x => ?_) _ s
  obtain ⟨i, dest, ws⟩ := x
  dsimp only
  split
  · split
    · exact islShown_setF (f := pvalidPAGES) _ _ (unit_apart _).2.2.2.2.2.2.2.1 (by decide)
    · rfl
  · rfl

theorem State.freeWindows_isl (s : State) (old new : List (Nat × Nat)) : islShown (s.freeWindows old new).regs = islShown s.regs := by
  unfold State.freeWindows
  exact islShown_foldl (fun s x => s.closeWindow_isl _ _) _ s

theorem State.grantWindows_isl (s : State) (j : Nat) (p : Placement) (has : List (Nat × Nat)) :
    islShown (s.grantWindows j p has).regs = islShown s.regs := by
  unfold State.grantWindows
  refine islShown_foldl (fun s w => ?_) _ s
  simp +decide only [↓islShown_ite, ↓islShown_setF, List.foldl_cons, List.foldl_nil, ↓State.winRound_isl, window_apart, ne_eq,
    not_false_eq_true, ite_self]

theorem State.grantQueue_isl (s : State) (j q : Nat) (r : QRec) : islShown (s.grantQueue j q r).regs = islShown s.regs := by
  unfold State.grantQueue
  simp +decide only [↓islShown_setF, queue_apart, ne_eq, not_false_eq_true]

theorem State.moveQueues_isl (s : State) (j : Nat) (l : List (Nat × Nat × QRec)) : islShown (s.moveQueues j l).regs = islShown s.regs := by
  unfold State.moveQueues
  generalize List.range 16384 = qs
  dsimp only
  rw [islShown_foldl, islShown_foldl, islShown_foldl]
  · intro s x
    simp +decide only [↓islShown_setF, ↓State.grantQueue_isl, queue_apart, ne_eq, not_false_eq_true]
  · intro s q
    split
    · exact islShown_setF s _ (queue_apart q).2.1 (by decide)
    · rfl
  · intro s x
    simp +decide only [↓islShown_ite, ↓islShown_setF, queue_apart, ne_eq, not_false_eq_true, ite_self]

theorem State.grantBarriers_isl (s : State) (j : Nat) (p : Placement) : islShown (s.grantBarriers j p).regs = islShown s.regs := by
  unfold State.grantBarriers
  refine islShown_foldl (fun s b => ?_) _ s
  dsimp only
  rw [State.setBarrier_regs]
  refine islShown_foldl (fun s p => ?_) _ s
  simp +decide only [↓islShown_ite, ↓islShown_setF, BAR_HART_apart, ne_eq, not_false_eq_true, ite_self]

theorem State.writeTarget_isl (s : State) {a : Nat} (p : Placement) (t : Option TgtRec) (h : a ≠ ISL_STATUS) :
    islShown (s.writeTarget a p t).regs = islShown s.regs := by
  unfold State.writeTarget
  split
  · exact islShown_setF s 0 h (by decide)
  · simp +decide only [↓islShown_setF, h, ne_eq, not_false_eq_true]

theorem State.formGroup_isl (s : State) (j g : Nat) (e : GroupRec) (p : Placement) :
    islShown (s.formGroup j g e p).regs = islShown s.regs := by
  unfold State.formGroup
  refine (islShown_foldl (fun s i => ?_) _ _).trans ((islShown_foldl (fun s t => s.writeTarget_isl _ _ (target_apart g t).1) _ _).trans ?_)
  · simp +decide only [List.foldl_cons, List.foldl_nil, ↓islShown_setF, unit_apart, ne_eq, not_false_eq_true]
  · simp +decide only [List.foldl_cons, List.foldl_nil, ↓islShown_setF, group_apart, ne_eq, not_false_eq_true]

theorem State.grantMailbox_isl (s : State) (part mask : Nat) : islShown (s.grantMailbox part mask).regs = islShown s.regs := by
  have hmask := winMask_apart (u := 63) (n := part) (.inl rfl)
  unfold State.grantMailbox
  simp +decide only [List.foldl_cons, List.foldl_nil, ↓islShown_setF, ↓State.winRound_isl, window_apart, hmask, ne_eq, not_false_eq_true]

theorem State.grantGroups_isl (s : State) (j : Nat) (nos : List Nat) (p : Placement) :
    islShown (s.grantGroups j nos p).regs = islShown s.regs := by
  unfold State.grantGroups
  dsimp only
  refine (State.groupCause_isl _).trans ?_
  simp only [↓islShown_ite, ↓State.grantMailbox_isl, ite_self]
  refine islShown_foldl (fun s x => ?_) _ s
  split
  · exact s.formGroup_isl _ _ _ _
  · exact islShown_foldl (fun s t => s.writeTarget_isl _ _ (target_apart _ t).2) _ s

theorem State.enableUnits_isl (s : State) (p : Placement) : islShown (s.enableUnits p).regs = islShown s.regs := by
  unfold State.enableUnits
  refine islShown_foldl (fun s c => ?_) _ s
  simp +decide only [↓islShown_ite, ↓islShown_setF, unit_apart, ne_eq, not_false_eq_true, ite_self]

theorem State.showRanges_isl (s : State) (j : Nat) : islShown (s.showRanges j).regs = islShown s.regs := by
  unfold State.showRanges
  refine islShown_foldl (fun s x => ?_) _ s
  simp +decide only [↓islShown_ite, ↓islShown_setF, unit_apart, ne_eq, not_false_eq_true, ite_self]

theorem State.movePlace_isl (s : State) (j k : Nat) (old new : Placement) : islShown (s.movePlace j k old new).regs = islShown s.regs := by
  unfold State.movePlace
  dsimp only
  refine (State.setJobState_isl _ _ _).trans ?_
  refine (islShown_foldl (fun s u => ?_) _ _).trans ?_
  · simp only [↓islShown_ite, State.setUnit_regs, ite_self]
  refine (islShown_foldl (fun s u => s.schedNow_isl u) _ _).trans ((islShown_foldl (fun s u => s.writeSched_isl u) _ _).trans ?_)
  refine (State.showRanges_isl _ _).trans ((State.enableUnits_isl _ _).trans ?_)
  refine (State.grantGroups_isl _ _ _ _).trans ((State.grantBarriers_isl _ _ _).trans ?_)
  refine (State.moveQueues_isl _ _ _).trans ((State.grantWindows_isl _ _ _ _).trans ((State.freeWindows_isl _ _ _).trans ?_))
  refine (State.loadPrograms_isl _ _ _).trans ((islShown_setF (f := jsPLACE) _ _ (JOB_STAT_apart j) (by decide)).trans ?_)
  refine (islShown_foldl (fun s u => ?_) _ _).trans (islShown_foldl (fun s x => s.takeAgain_isl _) _ s)
  simp only [↓islShown_ite, ↓State.unitReset_isl, ite_self]

theorem State.moveJob_isl (s : State) (j : Nat) : islShown (s.moveJob j).regs = islShown s.regs := by
  unfold State.moveJob
  split
  · rfl
  · split
    · rfl
    · split
      · exact s.loseJob_isl j
      · split
        · rfl
        · refine (State.movePlace_isl _ _ _ _ _).trans ((State.dirChange_isl _).trans ((State.jobNotice_isl _ _ _).trans ?_))
          refine (State.setJobState_isl _ _ _).trans ((State.freeGroups_isl _ _ _).trans ?_)
          exact islShown_foldl (fun s u => s.dropWork_isl _ _ _) _ s

end Sys2Proof.Machine


/-! PROOFS. What leaves the OK bit and the heartbeat of island A: redundancy groups and the loss of capacity -/

namespace Sys2Proof.Machine

set_option Elab.async false

theorem State.setGroup_regs (s : State) (g : Nat) (x : Group) : (s.setGroup g x).regs = s.regs := rfl

theorem State.mismatch_isl (s : State) (g p : Nat) : islShown (s.mismatch g p).regs = islShown s.regs := by
  unfold State.mismatch State.binFailure
  simp only [↓islShown_ite, ↓State.dirChange_isl, ↓State.sil1_isl, ite_self]

theorem State.releaseGroup_isl (s : State) (g ckid lead : Nat) : islShown (s.releaseGroup g ckid lead).regs = islShown s.regs := by
  have hsend : ∀ t : State, islShown ((List.range 8).foldl (fun s i =>
      s.sendRelease (64 + s.getF (RG_CFG g) rcCMP) (s.getF (RG_CFG g) rcPART) (RG_TGT g i) lead ckid) t).regs = islShown t.regs :=
    islShown_foldl (fun s i => s.sendRelease_isl _ _ _ _ _) _
  unfold State.releaseGroup
  simp +decide only [↓islShown_ite, List.foldl_cons, List.foldl_nil, ↓islShown_setF, ↓hsend, group_apart, ne_eq, not_false_eq_true, ite_self]

theorem State.memberEnable_isl (s : State) (g p v : Nat) : islShown (s.memberEnable g p v).regs = islShown s.regs := by
  unfold State.memberEnable
  simp +decide only [↓islShown_ite, ↓islShown_setF, unit_apart, ne_eq, not_false_eq_true, ite_self]

theorem State.holdCkpt_isl (s : State) (g p : Nat) (on : Bool) : islShown (s.holdCkpt g p on).regs = islShown s.regs := by
  unfold State.holdCkpt
  simp only [↓islShown_ite, ite_self]

theorem State.freeHeld_isl (s : State) (g : Nat) (keep : List Nat) : islShown (s.freeHeld g keep).regs = islShown s.regs := by
  unfold State.freeHeld
  exact islShown_foldl (fun s p => s.memberEnable_isl g p 1) _ s

theorem State.switchEnd_isl (s : State) (g fail : Nat) : islShown (s.switchEnd g fail).regs = islShown s.regs := by
  unfold State.switchEnd
  simp +decide only [↓islShown_setF, State.setGroup_regs, group_apart, ne_eq, not_false_eq_true]

theorem State.abandonCopy_isl (s : State) (g : Nat) : islShown (s.abandonCopy g).regs = islShown s.regs := by
  unfold State.abandonCopy
  dsimp only
  split
  · rfl
  · simp +decide only [↓islShown_ite, ↓islShown_setF, State.setGroup_regs, ↓State.switchEnd_isl, ↓State.holdCkpt_isl,
      ↓State.memberEnable_isl, group_apart, ne_eq, not_false_eq_true, ite_self]

theorem State.groupFaulty_isl (s : State) (g : Nat) : islShown (s.groupFaulty g).regs = islShown s.regs := by
  unfold State.groupFaulty
  simp +decide only [↓islShown_ite, ↓islShown_setF, State.setGroup_regs, ↓State.switchEnd_isl, ↓State.freeHeld_isl, ↓State.abandonCopy_isl,
    ↓State.moveJob_isl, group_apart, ne_eq, not_false_eq_true, ite_self]

theorem State.detach_isl (s : State) (g p : Nat) : islShown (s.detach g p).regs = islShown s.regs := by
  unfold State.detach
  simp +decide only [↓islShown_ite, ↓islShown_setF, ↓State.groupCause_isl, group_apart, unit_apart, ne_eq, not_false_eq_true, ite_self]

theorem State.beginCopy_isl (s : State) (g lead odd : Nat) : islShown (s.beginCopy g lead odd).regs = islShown s.regs := by
  unfold State.beginCopy
  simp +decide only [↓islShown_ite, ↓islShown_setF, State.setGroup_regs, ↓State.holdCkpt_isl, ↓State.memberEnable_isl, ↓State.freeHeld_isl,
    ↓State.jobReset_isl, group_apart, ne_eq, not_false_eq_true, ite_self]

theorem State.splitGroup_isl (s : State) (g : Nat) : islShown (s.splitGroup g).regs = islShown s.regs := by
  unfold State.splitGroup
  dsimp only
  refine (State.groupCause_isl _).trans ?_
  dsimp only
  refine (State.switchEnd_isl _ _ _).trans ?_
  rw [State.setJob_regs, islShown_foldl (fun s t => islShown_setF s 0 (target_apart g t).1 (by decide))]
  rw [islShown_setF _ _ (group_apart g).2.1 (by decide), islShown_setF _ _ (group_apart g).2.1 (by decide),
    islShown_setF _ _ (group_apart g).1 (by decide)]
  refine (islShown_foldl (fun s m => ?_) _ _).trans (s.freeHeld_isl _ _)
  split
  · exact islShown_setF s 0 (AP_STAT_apart m) (by decide)
  · have hoff : islShown ((s.setF (UNIT_RG m) rgV 0).setF (UNIT_RG m) rgDETACHED 0).regs = islShown s.regs := by
      simp +decide only [↓islShown_setF, unit_apart, ne_eq, not_false_eq_true]
    split
    · exact hoff
    · exact (islShown_foldl (fun s t => s.writeTarget_isl _ _ (target_apart m t).2) _ _).trans hoff

theorem State.growGroup_isl (s : State) (g lead : Nat) : islShown (s.growGroup g lead).regs = islShown s.regs := by
  unfold State.growGroup
  dsimp only
  refine (State.beginCopy_isl _ _ _ _).trans ((State.detach_isl _ _ _).trans ?_)
  simp +decide only [↓islShown_ite, List.foldl_cons, List.foldl_nil, ↓islShown_setF, group_apart, unit_apart, AP_STAT_apart, ne_eq,
    not_false_eq_true, ite_self]

theorem State.afterRelease_isl (s : State) (g lead : Nat) (odd : Option Nat) :
    islShown (s.afterRelease g lead odd).regs = islShown s.regs := by
  unfold State.afterRelease
  split
  · exact s.splitGroup_isl g
  · exact s.growGroup_isl g lead
  · exact s.beginCopy_isl g lead _
  · exact s.freeHeld_isl g []

theorem State.closeCmp_isl (s : State) (g outcome : Nat) (withheld : Bool) :
    islShown (s.closeCmp g outcome withheld).regs = islShown s.regs := by
  have hodd : ∀ (l : List Nat) (t : State), islShown (l.foldl (fun s p => s.setF (RG_STAT g) rsODD p) t).regs = islShown t.regs :=
    islShown_foldl (fun s p => islShown_setF s p (group_apart g).2.1 (by decide))
  unfold State.closeCmp
  dsimp only
  split
  · rfl
  · simp +decide only [↓islShown_ite, ↓islShown_setF, ↓hodd, State.setGroup_regs, ↓State.event_isl, group_apart, ne_eq, not_false_eq_true,
      ite_self]

theorem State.withhold_isl (s : State) (g outcome : Nat) (charged : List Nat) :
    islShown (s.withhold g outcome charged).regs = islShown s.regs := by
  have hcharge : ∀ t : State, islShown (charged.foldl (fun s p => s.mismatch g p) t).regs = islShown t.regs :=
    islShown_foldl (fun s p => s.mismatch_isl g p) _
  unfold State.withhold
  simp only [↓islShown_ite, ↓State.groupFaulty_isl, ↓State.freeHeld_isl, ↓hcharge, ↓State.closeCmp_isl, ite_self]

theorem State.pairError_isl (s : State) (g odd : Nat) : islShown (s.pairError g odd).regs = islShown s.regs := by
  unfold State.pairError
  simp +decide only [↓islShown_ite, ↓islShown_setF, ↓State.groupFaulty_isl, ↓State.beginCopy_isl, ↓State.memberEnable_isl, ↓State.detach_isl,
    ↓State.mismatch_isl, ↓State.closeCmp_isl, group_apart, ne_eq, not_false_eq_true, ite_self]

theorem State.judge_isl (s : State) (g : Nat) (atEnd : Bool) : islShown (s.judge g atEnd).regs = islShown s.regs := by
  unfold State.judge
  extract_lets x
  split
  · rfl
  next c _ =>
    extract_lets
    split
    · split
      · rfl
      · split
        · exact (State.afterRelease_isl _ _ _ _).trans ((State.closeCmp_isl _ _ _ _).trans (s.releaseGroup_isl _ _ _))
        · split
          · simp only [↓islShown_ite, ↓State.pairError_isl, ite_self]
          · simp only [↓islShown_ite, ↓State.withhold_isl, ite_self]
    · split
      next s' c' hpair =>
      have hs : islShown s'.regs = islShown s.regs := by
        split at hpair
        · cases hpair
          exact s.releaseGroup_isl _ _ _
        · cases hpair
          rfl
      refine Eq.trans ?_ hs
      split
      · rfl
      · split
        · split
          · exact (State.afterRelease_isl _ _ _ _).trans (s'.closeCmp_isl _ _ _)
          · refine (State.afterRelease_isl _ _ _ _).trans ((State.detach_isl _ _ _).trans ((State.mismatch_isl _ _ _).trans ?_))
            exact (islShown_setF _ _ (group_apart g).2.1 (by decide)).trans (s'.closeCmp_isl _ _ _)
        · exact s'.withhold_isl _ _ _

theorem State.memberLost_isl (s : State) (g p : Nat) : islShown (s.memberLost g p).regs = islShown s.regs := by
  unfold State.memberLost
  dsimp only
  split
  · rfl
  · generalize (s.group g).copy = copy
    cases copy
    all_goals
      simp +decide only [↓islShown_ite, ↓islShown_setF, ↓State.abandonCopy_isl, ↓State.groupFaulty_isl, ↓State.judge_isl,
        ↓State.groupCause_isl, group_apart, AP_STAT_apart, ne_eq, not_false_eq_true, ite_self]

theorem State.capacityLost_isl (s : State) (u : Nat) : islShown (s.capacityLost u).regs = islShown s.regs := by
  unfold State.capacityLost
  refine islShown_foldl (fun s j => ?_) _ s
  simp only [↓islShown_ite, ↓State.memberLost_isl, ↓State.moveJob_isl, ite_self]

theorem State.sweepOut_isl (s : State) : islShown s.sweepOut.regs = islShown s.regs := by
  unfold State.sweepOut
  refine islShown_foldl (fun s u => ?_) _ s
  simp only [↓islShown_ite, ↓State.capacityLost_isl, ite_self]

end Sys2Proof.Machine


/-! PROOFS. The islands -/

namespace Sys2Proof.Machine

set_option Elab.async false

/-! Failure of an island (12 R333). -/

/-- A hand-over after a failure leaves what the failure has set. -/
structure KeepsFailure (s t : State) : Prop where
  regs : ∀ f, f.lo < 64 → f.lo ≠ isEMITTER.lo → t.getF ISL_STATUS f = s.getF ISL_STATUS f
  isl : t.sup.isl = s.sup.isl
  cause : bit (s.getF INTEG_CAUSE icCAUSE) 2 = true → bit (t.getF INTEG_CAUSE icCAUSE) 2 = true
  pin : ∀ x, s.islandFailed x = true → (if x then s.safe.pinB else s.safe.pinA) = true → (if x then t.safe.pinB else t.safe.pinA) = true

theorem KeepsFailure.failed {s t : State} (h : KeepsFailure s t) (x : Bool) : t.islandFailed x = s.islandFailed x := by
  cases x
  · simp only [State.islandFailed, State.islandServes, State.flag, Bool.false_eq_true, if_false, h.regs isAFAIL (by decide) (by decide)]
  · simp only [State.islandFailed, State.islandServes, State.flag, if_true, h.regs isBFAIL (by decide) (by decide)]

theorem KeepsFailure.of_fields {s t : State} (hr : t.regs = s.regs) (hs : t.safe = s.safe) (hi : t.sup.isl = s.sup.isl) :
    KeepsFailure s t where
  regs f _ _ := State.getF_of_regs hr _ f
  isl := hi
  cause hb := by
    rw [State.getF_of_regs hr]
    exact hb
  pin x _ hp := by
    rw [hs]
    exact hp

theorem KeepsFailure.refl (s : State) : KeepsFailure s s := .of_fields rfl rfl rfl

theorem KeepsFailure.setIslPlan (s : State) (b : Bool) (x : IslPlan) : KeepsFailure s (s.setIslPlan b x) := .of_fields rfl rfl rfl

theorem KeepsFailure.trans {s t u : State} (h : KeepsFailure s t) (h' : KeepsFailure t u) : KeepsFailure s u where
  regs f hf he := (h'.regs f hf he).trans (h.regs f hf he)
  isl := h'.isl.trans h.isl
  cause hb := h'.cause (h.cause hb)
  pin x hx hp := h'.pin x ((h.failed x).trans hx) (h.pin x hx hp)

theorem KeepsFailure.setF (s : State) {a : Nat} {f : FD} (v : Nat) (hi : a ≠ ISL_STATUS) (hc : a ≠ INTEG_CAUSE)
    (hf : f.lo < 64 := by decide) : KeepsFailure s (s.setF a f v) where
  regs g hg _ := State.getF_setF_addr s v hi hf hg
  isl := rfl
  cause hb := by
    rw [State.getF_setF_addr s v hc hf (by decide)]
    exact hb
  pin _ _ hp := hp

theorem KeepsFailure.counted {s t : State} (h : Counted s t) : KeepsFailure s t where
  regs f hf _ := h.regs _ f (by decide) hf
  isl := by rw [h.eq]
  cause hb := by
    rw [h.regs _ _ (by decide) (by decide)]
    exact hb
  pin x _ hp := by
    rw [h.safe]
    exact hp

theorem State.setCause_bit (s : State) (k : Nat) (h : k < icCAUSE.w) : bit ((s.setCause k true).getF INTEG_CAUSE icCAUSE) k = true := by
  have hcause : (s.setCause k true).getF INTEG_CAUSE icCAUSE = setBit (s.getF INTEG_CAUSE icCAUSE) k % 2 ^ icCAUSE.w :=
    (State.getF_setF_addr _ (f := safINTEGRITY) _ (by decide)).trans (getF_setF_same _ _ _ _)
  rw [hcause, bit_mod_two_pow _ h, bit_setBit]
  simp

theorem KeepsFailure.setCause (s : State) : KeepsFailure s (s.setCause 2 true) where
  regs f hf _ := s.setCause_getF 2 true (by decide) (by decide) hf
  isl := rfl
  cause _ := s.setCause_bit 2 (by decide)
  pin _ _ hp := hp

theorem KeepsFailure.endSafe (s : State) : KeepsFailure s s.endSafe where
  regs f hf _ := s.endSafe_getF (by decide) hf
  isl := rfl
  cause hb := by
    rw [s.endSafe_getF (by decide) (by decide)]
    exact hb
  pin x hx _ := by
    have hfail : s.flag ISL_STATUS (if x then isBFAIL else isAFAIL) = true := by
      unfold State.islandFailed State.islandServes at hx
      rwa [Bool.not_not] at hx
    have hu : ∀ f, f.lo < 64 → ((s.setF SAFE_STATUS safSAFE 0).setF SAFE_STATUS safREASON 0).flag ISL_STATUS f = s.flag ISL_STATUS f := by
      intro f hf
      unfold State.flag
      rw [State.getF_setF_addr _ _ (by decide) (by decide) hf, State.getF_setF_addr _ _ (by decide) (by decide) hf]
    cases x
    · exact (hu isAFAIL (by decide)).trans hfail
    · exact (hu isBFAIL (by decide)).trans hfail

theorem KeepsFailure.recordLeft (s : State) (b : Bool) (r : Record) : KeepsFailure s (s.recordLeft b r) := by
  have hleave : ∀ (u : State) x y valid level3 held, KeepsFailure u (u.leave b x y valid level3 held) := by
    intro u x y valid level3 held
    refine .of_fields (u.leave_regs b x y valid level3 held) ?_ ?_
    all_goals
      unfold State.leave
      dsimp only
      split
      · rfl
      · rfl
  obtain ⟨x, y, level3, held, heq, -⟩ := s.recordLeft_eq b r
  rw [heq]
  exact (KeepsFailure.counted (s.recordExtremes_counted b r)).trans (hleave _ _ _ _ _ _)

theorem KeepsFailure.sendRecord (s : State) (b takeover : Bool) : KeepsFailure s (s.sendRecord b takeover).1 := by
  unfold State.sendRecord
  dsimp only
  split
  · exact .refl s
  · split
    · exact (KeepsFailure.setIslPlan s b _).trans (.counted (.event _ 18))
    · refine KeepsFailure.trans ?_ (.recordLeft _ _ _)
      have hclaim : KeepsFailure s (((s.setF EMIT_CLAIM ecSEQ (s.islPlan b).want).setF EMIT_CLAIM ecBY (b2n b)).setF EMIT_CLAIM ecTAKEOVER
          (b2n takeover)) :=
        ((KeepsFailure.setF s _ (by decide) (by decide)).trans (.setF _ _ (by decide) (by decide))).trans (.setF _ _ (by decide) (by decide))
      split
      · exact hclaim.trans (.endSafe _)
      · exact hclaim

theorem KeepsFailure.setEmitter (s : State) (v : Nat) : KeepsFailure s (s.setF ISL_STATUS isEMITTER v) where
  regs f _ he := State.getF_setF_lo s ISL_STATUS v (Ne.symm he)
  isl := rfl
  cause hb := by
    rw [State.getF_setF_addr s v (by decide)]
    exact hb
  pin _ _ hp := hp

theorem KeepsFailure.takeOver (s : State) (b : Bool) : KeepsFailure s (s.takeOver b) := by
  unfold State.takeOver State.handOver
  dsimp only
  split
  · have hsend := KeepsFailure.sendRecord s b true
    generalize s.sendRecord b true = p at hsend ⊢
    obtain ⟨u, sent⟩ := p
    cases sent
    · exact hsend
    · have hdone : KeepsFailure u (((u.setF ISL_STATUS isEMITTER (b2n b)).event 26).setCause 2 true) :=
        ((KeepsFailure.setEmitter u _).trans (.counted (.event _ 26))).trans (.setCause _)
      exact hsend.trans ⟨hdone.regs, hdone.isl, hdone.cause, hdone.pin⟩
  · exact .refl s

theorem KeepsFailure.dropNonces (s : State) : KeepsFailure s s.dropNonces := by
  have hfold : ∀ (l : List Nat) (u : State), (∀ a ∈ l, a ≠ ISL_STATUS ∧ a ≠ INTEG_CAUSE) →
      KeepsFailure u (l.foldl (fun s a => s.setF a silNONCE 0) u) := by
    intro l
    induction l with
    | nil => exact fun u _ => .refl u
    | cons a l ih =>
      intro u hl
      obtain ⟨hi, hc⟩ := hl a List.mem_cons_self
      exact (KeepsFailure.setF u 0 hi hc).trans (ih _ fun a ha => hl a (List.mem_cons_of_mem _ ha))
  have hdrop := hfold [SIL_NONCE0, SIL_NONCE1, SEC_NONCE 0, SEC_NONCE 1] s (by decide)
  exact ⟨hdrop.regs, hdrop.isl, hdrop.cause, hdrop.pin⟩

/-- The registers, the record and the output of island `b` as its failure sets them. -/
def State.markFailed (s : State) (b : Bool) : State :=
  (((s.setF ISL_STATUS (if b then isBFAIL else isAFAIL) 1).setF ISL_STATUS (if b then isBOK else isAOK) 0).setIsl b
    { s.isl b with failedAt := some s.now, fails := (s.isl b).fails + 1 }).setPin b true

/-- Island `b` shows its failure: FAIL, not OK, its output asserted. -/
def State.showsFailed (t : State) (b : Bool) : Prop :=
  t.getF ISL_STATUS (if b then isBFAIL else isAFAIL) = 1 ∧ t.getF ISL_STATUS (if b then isBOK else isAOK) = 0 ∧
    (if b then t.safe.pinB else t.safe.pinA) = true

theorem KeepsFailure.shows {s t : State} (h : KeepsFailure s t) {b : Bool} (hs : s.showsFailed b) : t.showsFailed b := by
  obtain ⟨hfail, hok, hpin⟩ := hs
  have hfailed : s.islandFailed b = true := by
    unfold State.islandFailed State.islandServes State.flag
    rw [hfail]
    rfl
  refine ⟨?_, ?_, h.pin b hfailed hpin⟩
  · cases b
    · exact (h.regs isAFAIL (by decide) (by decide)).trans hfail
    · exact (h.regs isBFAIL (by decide) (by decide)).trans hfail
  · cases b
    · exact (h.regs isAOK (by decide) (by decide)).trans hok
    · exact (h.regs isBOK (by decide) (by decide)).trans hok

theorem State.markFailed_shows (s : State) (b : Bool) : (s.markFailed b).showsFailed b := by
  cases b
  · exact ⟨(State.getF_setF_lo _ ISL_STATUS (f := isAOK) 0).trans (getF_setF_same s ISL_STATUS isAFAIL 1),
      getF_setF_same _ ISL_STATUS isAOK 0, rfl⟩
  · exact ⟨(State.getF_setF_lo _ ISL_STATUS (f := isBOK) 0).trans (getF_setF_same s ISL_STATUS isBFAIL 1),
      getF_setF_same _ ISL_STATUS isBOK 0, rfl⟩

/-- What follows on the marks and cause 2: the island's slot goes, island A's nonces go, the peer takes over what it waits for. -/
def State.leaveToPeer (s : State) (b : Bool) : State :=
  let s := s.setIslPlan b { s.islPlan b with slot := none, waits := false, synced := false }
  (if b then s else s.dropNonces).takeOver (!b)

theorem State.failIsland_eq {s : State} {b : Bool} (h : s.islandServes b = true) :
    s.failIsland b = (((s.markFailed b).event (if b then 25 else 24)).setCause 2 true).leaveToPeer b := by
  have hserves : ¬s.islandFailed b = true := by
    unfold State.islandFailed
    rw [h]
    decide
  unfold State.failIsland
  rw [if_neg hserves]
  rfl

theorem KeepsFailure.leaveToPeer (s : State) (b : Bool) : KeepsFailure s (s.leaveToPeer b) := by
  unfold State.leaveToPeer
  refine KeepsFailure.trans ?_ (.takeOver _ _)
  split
  · exact .setIslPlan s b _
  · exact (KeepsFailure.setIslPlan s b _).trans (.dropNonces _)

/-- An island that fails: what it shows, how its failures are counted, cause 2 (12 R333, R355). -/
theorem State.failIsland_results {s : State} {b : Bool} (h : s.islandServes b = true) :
    (s.failIsland b).showsFailed b ∧ ((s.failIsland b).isl b).fails = (s.isl b).fails + 1 ∧
      ((s.failIsland b).isl b).failedAt = some s.now ∧ bit ((s.failIsland b).getF INTEG_CAUSE icCAUSE) 2 = true := by
  have hmark : KeepsFailure (s.markFailed b) ((s.markFailed b).event (if b then 25 else 24)) := .counted (.event _ _)
  rw [State.failIsland_eq h]
  generalize (s.markFailed b).event (if b then 25 else 24) = u at hmark ⊢
  have hend := KeepsFailure.leaveToPeer (u.setCause 2 true) b
  have hall := (hmark.trans (.setCause u)).trans hend
  have hisl : ((u.setCause 2 true).leaveToPeer b).isl b = { s.isl b with failedAt := some s.now, fails := (s.isl b).fails + 1 } := by
    unfold State.isl
    rw [hall.isl]
    cases b
    · exact Tab.get_set_same
    · exact Tab.get_set_same
  refine ⟨hall.shows (s.markFailed_shows b), ?_, ?_, hend.cause (u.setCause_bit 2 (by decide))⟩
  · rw [hisl]
  · rw [hisl]

/-! The supervision cycle (12 R333, R358). -/

theorem State.clearReasons_getF (s : State) {f : FD} (hf : f.lo < 64) : s.clearReasons.getF ISL_STATUS f = s.getF ISL_STATUS f := by
  have hclear : ∀ (u : State) k, (u.clearSafe k).getF ISL_STATUS f = u.getF ISL_STATUS f := fun u k => u.clearSafe_getF k (by decide) hf
  have hite : ∀ (c : Prop) [Decidable c] (u v : State),
      (if c then u else v).getF ISL_STATUS f = if c then u.getF ISL_STATUS f else v.getF ISL_STATUS f := by
    intro c _ u v
    split
    · rfl
    · rfl
  unfold State.clearReasons
  simp only [hite, hclear, ite_self]
  rfl

theorem State.judged_isl (s : State) : islShown s.stampSec.clearReasons.judgeCauses.sweepOut.regs = islShown s.regs := by
  have hclear : ∀ u : State, islShown u.clearReasons.regs = islShown u.regs := fun u =>
    (islShown_eq_iff _ _).mpr ⟨u.clearReasons_getF (by decide), u.clearReasons_getF (by decide)⟩
  unfold State.judgeCauses State.stampSec
  simp +decide only [State.sweepOut_isl, State.setCause_isl, hclear, islShown_setF]

/-- The heartbeat toggles where the self-tests pass; the island shows OK. -/
def State.beat (s : State) (b pass : Bool) : State :=
  let f := if b then isHBB else isHBA
  let s := if pass then (s.setF ISL_STATUS f (1 - s.getF ISL_STATUS f)).setIsl b { s.isl b with edgeAt := s.now } else s
  s.setF ISL_STATUS (if b then isBOK else isAOK) 1

theorem State.beat_ok (s : State) (b pass : Bool) : (s.beat b pass).getF ISL_STATUS (if b then isBOK else isAOK) = 1 := by
  cases b
  · exact getF_setF_same _ ISL_STATUS isAOK 1
  · exact getF_setF_same _ ISL_STATUS isBOK 1

theorem State.beat_heart (s : State) (b pass : Bool) : (s.beat b pass).getF ISL_STATUS (if b then isHBB else isHBA) =
    if pass then 1 - s.getF ISL_STATUS (if b then isHBB else isHBA) else s.getF ISL_STATUS (if b then isHBB else isHBA) := by
  have hone : ∀ x, (1 - x) % 2 ^ 1 = 1 - x := fun x => by omega
  unfold State.beat
  cases b
  · refine (State.getF_setF_lo _ ISL_STATUS (f := isAOK) (g := isHBA) 1).trans ?_
    cases pass
    · rfl
    · exact (getF_setF_same _ ISL_STATUS isHBA _).trans (hone _)
  · refine (State.getF_setF_lo _ ISL_STATUS (f := isBOK) (g := isHBB) 1).trans ?_
    cases pass
    · rfl
    · exact (getF_setF_same _ ISL_STATUS isHBB _).trans (hone _)

theorem islandSupervisionCycle_results {s0 : State} {b : Bool} {t : Nat} (pass : Bool) (h : (s0.at t).islandServes b = true) :
    (islandSupervisionCycle b t pass s0).getF ISL_STATUS (if b then isBOK else isAOK) = 1 ∧
      (islandSupervisionCycle b t pass s0).getF ISL_STATUS (if b then isHBB else isHBA) =
        if pass then 1 - (s0.at t).getF ISL_STATUS (if b then isHBB else isHBA)
        else (s0.at t).getF ISL_STATUS (if b then isHBB else isHBA) := by
  have heq : islandSupervisionCycle b t pass s0 =
      (if b then (if ((s0.at t).beat b pass).islandFailed false then ((s0.at t).beat b pass).clearReasons else (s0.at t).beat b pass)
        else ((s0.at t).beat b pass).stampSec.clearReasons.judgeCauses.sweepOut) := by
    unfold islandSupervisionCycle
    dsimp only
    rw [if_neg (by rw [h]; decide)]
    rfl
  have hok := (s0.at t).beat_ok b pass
  have hheart := (s0.at t).beat_heart b pass
  rw [heq]
  generalize (s0.at t).beat b pass = u at hok hheart ⊢
  cases b
  · obtain ⟨hok', hheart'⟩ := (islShown_eq_iff _ _).mp u.judged_isl
    exact ⟨hok'.trans hok, hheart'.trans hheart⟩
  · have hkept : ∀ f, f.lo < 64 → (if u.islandFailed false = true then u.clearReasons else u).getF ISL_STATUS f = u.getF ISL_STATUS f := by
      intro f hf
      split
      · exact u.clearReasons_getF hf
      · rfl
    exact ⟨(hkept isBOK (by decide)).trans hok, (hkept isHBB (by decide)).trans hheart⟩

/-! The return of an island (12 R334). -/

theorem State.islandBoot_serves (s : State) (b : Bool)
    (h : ((if b then s else (s.romErase.secReset).showSec).seqFaults (if b then [0x20] else [0x10, 0x11, 0x12, 0x13, 0x14, 0x15])
      |>.boot (if b then 2 else 1)).2 = true) : (s.islandBoot b).islandServes b = true := by
  unfold State.islandBoot
  dsimp only
  generalize State.boot _ _ = p at h ⊢
  obtain ⟨u, ok⟩ := p
  subst h
  cases b
  · have hfail : ((u.setF ISL_STATUS isAFAIL 0).setF ISL_STATUS isAOK 1).getF ISL_STATUS isAFAIL = 0 :=
      (State.getF_setF_lo _ ISL_STATUS (f := isAOK) 1).trans (getF_setF_same u ISL_STATUS isAFAIL 0)
    refine (State.serves_of_regs (s := (u.setF ISL_STATUS isAFAIL 0).setF ISL_STATUS isAOK 1) rfl false).trans ?_
    unfold State.islandServes State.flag
    rw [if_neg Bool.false_ne_true, hfail]
    rfl
  · have hfail : ((u.setF ISL_STATUS isBFAIL 0).setF ISL_STATUS isBOK 1).getF ISL_STATUS isBFAIL = 0 :=
      (State.getF_setF_lo _ ISL_STATUS (f := isBOK) 1).trans (getF_setF_same u ISL_STATUS isBFAIL 0)
    refine (State.serves_of_regs (s := (u.setF ISL_STATUS isBFAIL 0).setF ISL_STATUS isBOK 1) rfl true).trans ?_
    unfold State.islandServes State.flag
    rw [if_pos rfl, hfail]
    rfl

/-! Hand-over of emission (12 R336 to R339). -/

theorem State.handOver_claims {s : State} {b : Bool} {r : Record} (hr : (s.islPlan b).slot = some r)
    (hw : (s.islPlan b).want = (s.getF EMIT_CLAIM ecSEQ + 1) % 2 ^ 32) :
    (s.handOver b false).emitter = b ∧ (s.handOver b false).getF EMIT_CLAIM ecBY = b2n b ∧ (s.handOver b false).plan.handed = true ∧
      bit ((s.handOver b false).getF INTEG_CAUSE icCAUSE) 2 = true := by
  have hsend : ∃ r', s.sendRecord b false = ((s.claimed b (s.islPlan b).want).recordLeft b r', true) := by
    unfold State.sendRecord
    dsimp only
    rw [hr]
    dsimp only
    rw [if_neg (by unfold State.claimOk; simp [hw])]
    exact ⟨_, rfl⟩
  obtain ⟨r', hsend⟩ := hsend
  have hby : ((s.claimed b (s.islPlan b).want).recordLeft b r').getF EMIT_CLAIM ecBY = b2n b :=
    (State.recordLeft_getF _ b r' (by decide) (by decide)).trans (s.claimed_claim b (by omega)).2
  unfold State.handOver
  rw [hsend]
  dsimp only
  generalize (s.claimed b (s.islPlan b).want).recordLeft b r' = u at hby
  have hemit : (((u.setF ISL_STATUS isEMITTER (b2n b)).event 26).setCause 2 true).getF ISL_STATUS isEMITTER = b2n b := by
    rw [State.setCause_getF _ 2 true (by decide) (by decide) (by decide), (Counted.event _ 26).regs _ _ (by decide) (by decide),
      State.getF_setF_same]
    cases b
    · rfl
    · rfl
  have hby' : (((u.setF ISL_STATUS isEMITTER (b2n b)).event 26).setCause 2 true).getF EMIT_CLAIM ecBY = b2n b := by
    rw [State.setCause_getF _ 2 true (by decide) (by decide) (by decide), (Counted.event _ 26).regs _ _ (by decide) (by decide),
      State.getF_setF_addr _ _ (by decide), hby]
  refine ⟨?_, hby', rfl, State.setCause_bit _ 2 (by decide)⟩
  have hflag : decide ((((u.setF ISL_STATUS isEMITTER (b2n b)).event 26).setCause 2 true).getF ISL_STATUS isEMITTER = 1) = b := by
    rw [hemit]
    cases b
    · rfl
    · rfl
  exact hflag

/-- Before the rows of 12 R338: the peer serves and holds a slot whose decision is due. -/
theorem handoverDecision_due {s0 : State} {t : Nat} {r : Record} (hs : (s0.at t).islandServes (!(s0.at t).emitter) = true)
    (hr : ((s0.at t).islPlan (!(s0.at t).emitter)).slot = some r)
    (hdue : ((s0.at t).islPlan (!(s0.at t).emitter)).slotAt + us 200 ≤ (s0.at t).now) :
    ¬((!(s0.at t).islandServes (!(s0.at t).emitter)) = true ∨ ((s0.at t).islPlan (!(s0.at t).emitter)).slot.isNone = true ∨
      (s0.at t).now < ((s0.at t).islPlan (!(s0.at t).emitter)).slotAt + us 200) := by
  rw [hs, hr]
  simp only [Bool.not_true, Bool.false_eq_true, Option.isNone_some, false_or, not_lt]
  exact hdue

theorem lostMirrorCopy_drops {s0 : State} {t : Nat} (hs : (s0.at t).islandServes (!(s0.at t).emitter) = true)
    (hwaits : ((s0.at t).islPlan (!(s0.at t).emitter)).waits = true)
    (hdue : ((s0.at t).islPlan (!(s0.at t).emitter)).slotAt + us 2800 ≤ (s0.at t).now)
    (hpeer : ((s0.at t).islPlan (!(s0.at t).emitter)).got = some ((s0.at t).islPlan (!(s0.at t).emitter)).want ∨
      (s0.at t).islandFailed (!!(s0.at t).emitter) = false) :
    ((lostMirrorCopy t s0).islPlan (!(s0.at t).emitter)).waits = false ∧
      ((lostMirrorCopy t s0).islPlan (!(s0.at t).emitter)).slot = none := by
  unfold lostMirrorCopy
  dsimp only
  generalize s0.at t = s at hs hwaits hdue hpeer ⊢
  rw [if_pos ⟨hs, hwaits, hdue⟩]
  split
  · rw [State.islPlan_set_same]
    exact ⟨rfl, rfl⟩
  next hgot =>
    rw [if_neg (by rw [hpeer.resolve_left hgot]; decide), (Counted.event _ 19).islPlan, State.islPlan_set_same]
    exact ⟨rfl, rfl⟩

end Sys2Proof.Machine

open Sys2Proof.Machine

/-- Settles O36: each island command takes its branch; a failure is what `failIsland_results` says, a supervision cycle of island A
leaves the status although its sweep may move jobs (`State.sweepOut_isl`). -/
theorem islandResults : Obligations.IslandResults := by
  intro s0 b t s failed
  have hfails : ∀ x, s.islandServes x = true → failed x (s.failIsland x) := by
    intro x hx
    obtain ⟨⟨hfail, hok, hpin⟩, hcount, hat, hcause⟩ := State.failIsland_results hx
    exact ⟨hfail, hok, hpin, hcount, hat, hcause⟩
  refine ⟨?_, ?_, ?_, ?_, ?_, ?_, ?_⟩
  · intro pass hs
    exact ⟨_, rfl, islandSupervisionCycle_results pass hs⟩
  · intro hs
    exact ⟨_, rfl, hfails b hs⟩
  · intro hs hpeer hedge
    refine ⟨_, next_eq ?_, hfails (!b) hpeer⟩
    exact if_pos ⟨hs, hedge⟩
  · intro f hf hfail hdue hcount
    refine ⟨next_eq ?_, fun h => s.islandBoot_serves b h⟩
    unfold islandReboot
    dsimp only
    rw [hf]
    refine if_pos ⟨?_, hdue, hcount⟩
    unfold State.islandFailed
    rw [hfail]
    rfl
  · intro bytes m hs hm
    have hopen : ¬((!s.islandServes b) = true ∨ (!recordOk m) = true) := by
      rw [hs, hm]
      decide
    refine ⟨_, next_eq (if_neg hopen), ?_⟩
    rw [State.islPlan_set_same]
    exact ⟨rfl, rfl⟩
  · intro r e x cur hs hr hdue
    have hopen := handoverDecision_due hs hr hdue
    refine ⟨fun hgot => next_eq ?_, fun hgot hwant => ⟨_, next_eq ?_, s.handOver_claims hr hwant⟩, fun hgot hnext hwant hpeer => next_eq ?_,
      fun hwaits hlate hpeer => ⟨_, rfl, lostMirrorCopy_drops hs hwaits hlate hpeer⟩⟩
    · exact (if_neg hopen).trans (if_pos hgot)
    · exact (if_neg hopen).trans ((if_neg hgot).trans (if_pos hwant))
    · refine (if_neg hopen).trans ((if_neg hgot).trans ((if_neg hnext).trans ((if_pos hwant).trans (if_neg ?_))))
      rw [hpeer]
      decide
  · intro p hs hoff
    refine next_eq ?_
    unfold islandFrameRealign
    dsimp only
    rw [if_neg (by rw [hs]; decide), if_pos rfl, if_pos]
    rcases hoff with h | h
    · rw [h]
      rfl
    · rw [decide_eq_true h, Bool.or_true]
